-- ==== Sys2Proof/Word.lean ====
section
/-! DEFINITION. The word types of the SK72's registers, streams and rings (R7: registers are 32 bits wide and little-endian). -/

namespace Sys2Proof

/-- One byte of a register image, a ring entry, a buffer or a byte string (R7). -/
abbrev Byte := BitVec 8

/-- A 32-bit register value (R7). -/
abbrev Word32 := BitVec 32

/-- A 64-bit value: a V register, a handle, a doorbell (R56, R112, R149). -/
abbrev Word64 := BitVec 64

end Sys2Proof
end

