-- ==== Sys2Proof/Syntax.lean ====
section
/-! DEFINITION. The commands of the SK72: one constructor of `Instr` for each row of spec/opcode_table.json, with the
operand types they use. A row that the part carries out on state of its own (an instruction of a job's program, a fetched
admin command, a mailbox message that a PF has started) names only whose state it is; a row that brings something from
outside (a register write, a character, a read completion, a sample) carries it. -/

namespace Sys2Proof

/-- The two compute dies, each with the host port of the same name (R14). -/
inductive Wing where
  | west | east
  deriving DecidableEq, Repr, Inhabited

/-- The three dies (R14). -/
inductive Die where
  | westDie | eastDie | curatorDie
  deriving DecidableEq, Repr, Inhabited

/-- A PCIe function: its port and its number, 0 for PF0 and 1 to 127 for a VF (R44). -/
structure Fn where
  port : Wing
  vf : Nat
  deriving DecidableEq, Repr, Inhabited

/-- A queue of a function: one of the I/O queues 0 to 511, or the admin queue (R55, R58). -/
inductive QSel where
  | io (q : Nat)
  | admin
  deriving DecidableEq, Repr, Inhabited

/-- What a host register access addresses: BAR0 (R49), the MSI-X table and PBA of BAR2 (R48), or, in configuration space, the
function's MSI-X enable bit, a PF's VF Enable bit (R69), or a PF's Device Control or Device Control 2 register (R42). -/
inductive Space where
  | bar0 | bar2 | msixEnable | vfEnable | deviceControl | deviceControl2
  deriving DecidableEq, Repr, Inhabited

/-- Who may own a configuration transaction or send a Curator mailbox message: PF0 of a port, or a wing's Docent
supervisor (R464, R485). -/
inductive Sender where
  | pf (w : Wing)
  | supervisor (w : Wing)
  deriving DecidableEq, Repr, Inhabited

/-- Who writes a field of access type TX: a host function or a Docent supervisor (R464). -/
inductive TxWriter where
  | host (f : Fn)
  | supervisor (w : Wing)
  deriving DecidableEq, Repr, Inhabited

/-- Whose reset a function-level reset is: one function's, or that of every VF of a port when VF Enable is cleared (R69). -/
inductive FlrScope where
  | function (f : Fn)
  | vfEnableCleared (w : Wing)
  deriving DecidableEq, Repr, Inhabited

/-- The ways a host read can fail (R72). -/
inductive ReadFailure where
  | timeout | unsupportedRequest | completerAbort | poisoned
  deriving DecidableEq, Repr, Inhabited

/-- The reads the part has outstanding at a port: an input of a job's EXEC, a job's parameter block, or a submission slot
(R72, R91, R94). -/
inductive ReadTarget where
  | input (job read : Nat)
  | paramBlock (job : Nat)
  | slot (f : Fn) (q : QSel)
  deriving DecidableEq, Repr, Inhabited

/-- The writes that can meet an internal data error: a job's outputs, or a completion record of a queue (R72, R91). -/
inductive WriteTarget where
  | job (job : Nat)
  | record (f : Fn) (q : QSel)
  deriving DecidableEq, Repr, Inhabited

/-- The SPDM and DOE requests that the responder of R65 can receive. -/
inductive SpdmReq where
  | discovery
  | getVersion | getCapabilities | negotiateAlgorithms | getDigests
  | getCertificate (slot : Nat)
  | challenge (slot : Nat)
  | keyExchange (slot : Nat) (mutualAuth : Bool)
  | finish | heartbeat | keyUpdate | endSession
  | pskExchange | getEncapsulatedRequest
  /-- IDE_KM in a secure session: a stream programmed for the functions of a range and for address blocks, as (base, limit), with key set
  K0 or K1; or stopped (R62) -/
  | ideProgram (stream first last : Nat) (k1 : Bool) (blocks : List (Nat × Nat))
  | ideStop (stream : Nat)
  | other (code : Byte)
  deriving DecidableEq, Repr, Inhabited

/-- Where an SPDM request arrives: the DOE mailbox of a port's PF0, or the MCTP endpoint of the Curator (R65, R74). -/
inductive SpdmVia where
  | doe (w : Wing)
  | mctp
  deriving DecidableEq, Repr, Inhabited

/-- The three MCTP endpoints behind the SMBus target (R73). -/
inductive Endpoint where
  | curator | wing (w : Wing)
  deriving DecidableEq, Repr, Inhabited

/-- A unit's identifier: location, kind and index of the 18-bit code of R443. -/
structure UnitId where
  loc : Nat
  kind : Nat
  idx : Nat
  deriving DecidableEq, Repr, Inhabited

/-- How an engine's computation ended beside its data: a countermeasure that tripped and its unit (R217), a host write of
its output that failed (R141, R338), of a progressive release the 2 KiB segment in which it failed, the segments of a scrub whose zero
write failed (R337), and which countermeasure it was: the number of its row in the table of its chapter (R216, R250, R277, R298), from 1. -/
structure EngineEvent where
  trip : Option UnitId
  writeFails : Bool
  scrubFails : List Nat
  measure : Nat
  segment : Nat := 0
  deriving DecidableEq, Repr, Inhabited

/-- A port whose link trains when PERST# is released, with the PCIe generation and the width in lanes that it trains to (R42, R69). -/
structure PortTraining where
  port : Wing
  rate : Nat
  width : Nat
  deriving DecidableEq, Repr, Inhabited

/-- What GET_MEASUREMENTS asks beside its index: a signature by the key of a certificate slot (R65), in a span in which a hand-over falls (R67). -/
structure MeasAsk where
  sign : Option Nat
  spansHandover : Bool
  deriving DecidableEq, Repr, Inhabited

/-- What a job's start has fetched: its parameter block, and whether the fetch of its program met an uncorrectable error (R109). -/
structure ProgramFetch where
  block : List Byte
  fails : Bool
  deriving DecidableEq, Repr, Inhabited

/-- How the release of a binding group's staged writes goes: all are made, one fails (R141), or the release is still under way, where a
revocation or a freeze can end the job. -/
inductive GroupRelease where
  | done | fails | stays
  deriving DecidableEq, Repr, Inhabited

/-- The shared resources of R35 that preempt at a yield point. -/
inductive Resource where
  | dmaRead (w : Wing)
  | lre (g : Nat) | lsu (g : Nat) | keccak (g : Nat) | maskedKeccak (g : Nat) | sha2 (g : Nat) | bigNumber (g : Nat) | bfe (g : Nat)
  | aes (g : Nat)
  | compat (w : Wing)
  deriving DecidableEq, Repr, Inhabited

/-- The end of a tree-cache rebuild: the ledger slot, and whether a check on a generated tree or upper signature trips (R267, R277). -/
structure CacheRebuild where
  slot : Nat
  checkTrips : Bool := false
  deriving DecidableEq, Repr, Inhabited

/-- The ciphertext of a tile or node as a DRAM channel delivers it, with its tag and its version echo (R382, R386). -/
structure DramBytes where
  ct : List Byte
  tag : List Byte
  echo : Nat
  deriving DecidableEq, Repr, Inhabited

/-- What a DRAM channel returned for a tile or node: a burst that the ECC could not correct, one that it corrected, and the bytes, where they are not
those last written there (R386). -/
structure DramRead where
  media : Bool := false
  corrected : Bool := false
  bytes : Option DramBytes := none
  deriving DecidableEq, Repr, Inhabited

/-- What a read of a tile met: the tile, and the nodes of its path of levels 1 and 2, of which those are fetched that the node cache does not hold
(R383, R386). -/
structure TileFetch where
  tile : DramRead := {}
  node1 : DramRead := {}
  node2 : DramRead := {}
  deriving DecidableEq, Repr, Inhabited

/-- A tile (level 0) or counter node (levels 1 to 3) that the patrol reads (R390). -/
structure PatrolSpot where
  wing : Wing
  level : Nat
  number : Nat
  deriving DecidableEq, Repr, Inhabited

/-- What a tile write is for, and the write-CRC errors that it met (R376). -/
structure TileStore where
  job : Option Nat
  crcErrors : Nat
  deriving DecidableEq, Repr, Inhabited

/-- A pause of a DDR5 channel, and its DRAM temperature in degrees (R376, R378). -/
structure ZqPause where
  channel : Nat
  temp : Nat
  deriving DecidableEq, Repr, Inhabited

/-- A tile of a wing's Storeroom: the wing and the tile number (R381). -/
structure TileId where
  wing : Wing
  tile : Nat
  deriving DecidableEq, Repr, Inhabited

/-- What training found on a DDR5 channel: whether it trained, its rate code, device width, module kind, ranks and capacity
(R376, R397). -/
structure ChannelTraining where
  trained : Bool
  rate : Nat
  widthX8 : Bool
  rdimm : Bool
  twoRanks : Bool
  capacityGb : Nat
  density : Nat
  deriving DecidableEq, Repr, Inhabited

/-- The pools of conditioned blocks: one on each wing and one on the Curator die (R364). -/
inductive Pool where
  | wing (w : Wing)
  | curator
  deriving DecidableEq, Repr, Inhabited

/-- The DRBG instances of R365. -/
inductive Drbg where
  | curator
  | pool (w : Wing)
  | keyGen (g : Nat)
  | host (g : Nat)
  deriving DecidableEq, Repr, Inhabited

/-- The masking generators of R365: one per gallery, one per compatibility cluster. -/
inductive MaskGen where
  | gallery (g : Nat)
  | cluster (w : Wing)
  deriving DecidableEq, Repr, Inhabited

/-- The links between the dies (R18). -/
inductive Link where
  | wingLink
  | curatorLink (w : Wing)
  deriving DecidableEq, Repr, Inhabited

/-- The two ends of a link: the lower-named die's end first (West before East before the Curator). -/
inductive LinkEnd where
  | first | second
  deriving DecidableEq, Repr, Inhabited

/-- The reference sources of R510. -/
inductive ClockSource where
  | clkref | xtal | watch
  deriving DecidableEq, Repr, Inhabited

/-- One frequency window of a die's monitor, in parts per thousand of nominal for the references and in MHz for the watch
oscillator (R512). -/
structure ClockWindow where
  clkrefPermille : Nat
  xtalPermille : Nat
  watchMhz : Nat
  deriving DecidableEq, Repr, Inhabited

/-- How a Docent access is made: read, write or fetch (R488). -/
inductive AccessOp where
  | read | write | fetch
  deriving DecidableEq, Repr, Inhabited

/-- One access of a Docent core, a DMA burst or the debug port, as it leaves the master: its operation, address, length in
bytes, the data it stores, and whether it is made in U mode (R484). -/
structure Access where
  op : AccessOp
  addr : Nat
  len : Nat
  data : List Byte
  user : Bool
  deriving DecidableEq, Repr, Inhabited

/-- What a Storeroom-window access met at the gate (R492). -/
inductive GateOutcome where
  | ok | media | integrity | stale
  deriving DecidableEq, Repr, Inhabited

/-- The test-port instructions that R412 and R535 name. -/
inductive JtagIns where
  | idcode | bypass | samplePreload | extest | scanTest | docentDebug | wingRegisters | nonKeyMemory
  deriving DecidableEq, Repr, Inhabited

/-- What a wing's AVSBus slave answered to a Voltage write: acknowledged, a fault in its status, or nothing (R534). -/
inductive AvsAnswer where
  | acknowledged | fault | missing
  deriving DecidableEq, Repr, Inhabited

/-- How a curator vote went: the core that dissented, if one did (R456). -/
structure Vote where
  dissenter : Option Nat
  deriving DecidableEq, Repr, Inhabited

/-- The power states of a port's link that R530 and R42 name. -/
inductive LinkPower where
  | l0 | l1 | l11 | l12
  deriving DecidableEq, Repr, Inhabited

/-- A tamper class's trip: the class, the detail byte and the value that its event record carries (R418, R441). -/
structure Trip where
  cls : Nat
  detail : Byte
  value : Word32
  deriving DecidableEq, Repr, Inhabited

/-- THE COMMANDS: one constructor for each row of spec/opcode_table.json, in the table's order. -/
inductive Instr where
  -- Host registers (02_host_ports.md)
  | registerWrite (f : Fn) (sp : Space) (off size : Nat) (v : Word64)
  | txFieldWrite (by_ : TxWriter) (off : Nat) (v : Word32)
  | submissionDoorbell (f : Fn) (q : QSel) (index : BitVec 16)
  | completionDoorbell (f : Fn) (q : QSel) (index : BitVec 16)
  | fstatCauseClear (f : Fn) (v coincident : Word32)
  | fstatCauseEnWrite (f : Fn) (v : Word32)
  | fstatErrRead (f : Fn)
  | fstatErrAddrRead (f : Fn)
  | fstatQerrRead (f : Fn)
  | admqEnable (f : Fn)
  | admqDisable (f : Fn)
  | msixUnmask (f : Fn) (vector : Nat)
  | moderationTimerExpiry (f : Fn) (q : Nat)
  -- Admin commands (03_collections_and_queues.md); `dmaFails` says that the DMA to data_addr failed (R81)
  | identify (f : Fn) (dmaFails : Bool)
  | createCollection (f : Fn)
  | deleteCollection (f : Fn)
  | setCollectionLimits (f : Fn)
  | bindFunction (f : Fn)
  | unbindFunction (f : Fn)
  | deviceReset (f : Fn)
  | createQueue (f : Fn)
  | deleteQueue (f : Fn)
  | deleteQueueDrainComplete (f : Fn) (q : Nat)
  | setModeration (f : Fn)
  | getQueueState (f : Fn) (dmaFails : Bool)
  -- Port events
  | perstAssert (w : Wing)
  | perstDeassert (x : PortTraining)
  | configurationReady (w : Wing)
  | functionLevelReset (scope : FlrScope)
  | busMasterEnableClear (f : Fn)
  | busMasterEnableSet (f : Fn)
  | ideStreamFail (w : Wing) (stream : Nat)
  | dmaReadCompletion (job read : Nat) (data : List Byte)
  | dmaReadFailure (target : ReadTarget) (kind : ReadFailure)
  | dmaWriteInternalError (target : WriteTarget)
  | portUncorrectableError (w : Wing)
  | doeSpdmRequest (w : Wing) (req : SpdmReq)
  | getMeasurements (via : SpdmVia) (index : Nat) (ask : MeasAsk)
  | mctpControl (ep : Endpoint) (msg : List Byte)
  | mctpSpdm (ep : Endpoint) (req : SpdmReq)
  | mctpRegisterRead (ep : Endpoint) (f : Fn) (off : Nat)
  | mctpDeviceReset (ep : Endpoint)
  -- Dispatch
  | dispatchDecision (w : Wing)
  | entryFetchComplete (f : Fn) (q : QSel) (entry : List Byte)
  | programStart (job : Nat) (fetch : ProgramFetch)
  -- Damob instructions: job j executes the instruction at its pc (04_damob_reference.md)
  | insNop (job : Nat)
  | insEnd (job : Nat)
  | insBr (job : Nat)
  | insMovi (job : Nat)
  | insMovhi (job : Nat)
  | insMov (job : Nat)
  | insAdd (job : Nat)
  | insAddi (job : Nat)
  | insSub (job : Nat)
  | insAnd (job : Nat)
  | insOr (job : Nat)
  | insXor (job : Nat)
  | insShl (job : Nat)
  | insShr (job : Nat)
  | insCmp (job : Nat)
  | insCmpi (job : Nat)
  | insLdp (job : Nat)
  | insLdb (job : Nat)
  | insLoan (job : Nat)
  | insLoanp (job : Nat)
  | loanGrant (job : Nat)
  | insReturn (job : Nat)
  | insBuf (job : Nat)
  | insBslice (job : Nat)
  | insBlen (job : Nat)
  | insBind (job : Nat)
  | insEndb (job : Nat) (how : GroupRelease)
  | instructionBudgetExhausted (job : Nat)
  | engineOperationComplete (job : Nat) (ev : EngineEvent)
  | engineWipeComplete (gallery kind : Nat)
  | jobPreemption (res : Resource) (higher : Nat)
  | suspendedJobResume (job : Nat)
  -- Engine functions: job j begins the EXEC at its pc
  | mlkemKeygen (job : Nat)
  | mlkemEncaps (job : Nat)
  | mlkemDecaps (job : Nat)
  | mlkemEncapsk (job : Nat)
  | mlkemExportek (job : Nat)
  | mlkemImportek (job : Nat)
  | mldsaKeygen (job : Nat)
  | mldsaSign (job : Nat)
  | mldsaVerify (job : Nat)
  | mldsaVerifyx (job : Nat)
  | mldsaExportpk (job : Nat)
  | mldsaImportpk (job : Nat)
  | fndsaKeygen (job : Nat)
  | fndsaSign (job : Nat)
  | fndsaVerify (job : Nat)
  | fndsaVerifyx (job : Nat)
  | fndsaExportpk (job : Nat)
  | fndsaImportpk (job : Nat)
  | hybKexcombine (job : Nat)
  | hybSign (job : Nat)
  | hybVerify (job : Nat)
  | hybVerifyx (job : Nat)
  | digestHash (job : Nat)
  | digestCshake (job : Nat)
  | digestHmac (job : Nat)
  | digestHmacverify (job : Nat)
  | digestKmac (job : Nat)
  | digestKmacverify (job : Nat)
  | digestHkdf (job : Nat)
  | digestKdf108 (job : Nat)
  | digestSbegin (job : Nat)
  | digestScont (job : Nat)
  | digestSend (job : Nat)
  | slhdsaKeygen (job : Nat)
  | slhdsaSign (job : Nat)
  | slhdsaVerify (job : Nat)
  | slhdsaVerifyx (job : Nat)
  | slhdsaExportpk (job : Nat)
  | slhdsaImportpk (job : Nat)
  | lmsKeygen (job : Nat)
  | lmsSign (job : Nat)
  | lmsVerify (job : Nat)
  | lmsVerifyx (job : Nat)
  | lmsExportpk (job : Nat)
  | lmsImportpk (job : Nat)
  | xmssKeygen (job : Nat)
  | xmssSign (job : Nat)
  | xmssVerify (job : Nat)
  | xmssVerifyx (job : Nat)
  | xmssExportpk (job : Nat)
  | xmssImportpk (job : Nat)
  -- The leaf ledger and the tree cache (08_hash_signatures_and_ledger.md)
  | leafReservation (w : Wing) (slot readbackFailures : Nat)
  | issuerPositionReport (w : Wing)
  | treeSubtreeGeneration (slot : Nat) (checkTrips : Bool)
  | treeCacheRebuild (r : CacheRebuild)
  | signCacheWaitExpiry (job : Nat)
  | ledgerQslotWrite (f : Fn) (v : Word32)
  | ledgerLowSlotRead (f : Fn)
  -- Code-based and classical engines
  | mcelieceKeygen (job : Nat)
  | mcelieceEncaps (job : Nat)
  | mcelieceDecaps (job : Nat)
  | mcelieceEncapsk (job : Nat)
  | mcelieceExportpk (job : Nat)
  | mcelieceImportpk (job : Nat)
  | mcelieceReside (job : Nat)
  | queuedResideLoad (gallery : Nat)
  | residentKeyReload (gallery : Nat)
  | hqcKeygen (job : Nat)
  | hqcEncaps (job : Nat)
  | hqcDecaps (job : Nat)
  | hqcEncapsk (job : Nat)
  | hqcExportpk (job : Nat)
  | hqcImportpk (job : Nat)
  | rsaKeygen (job : Nat)
  | rsaSign (job : Nat)
  | rsaVerify (job : Nat)
  | rsaVerifyx (job : Nat)
  | rsaDecrypt (job : Nat)
  | rsaEncrypt (job : Nat)
  | rsaExportpk (job : Nat)
  | rsaImportpk (job : Nat)
  | ecKeygen (job : Nat)
  | ecSign (job : Nat)
  | ecVerify (job : Nat)
  | ecVerifyx (job : Nat)
  | ecEphagree (job : Nat)
  | ecAgree (job : Nat)
  | ecExportpk (job : Nat)
  | ecImportpk (job : Nat)
  | ecCurvecheck (job : Nat)
  -- Symmetric, payment, random and catalogue functions
  | aesEncrypt (job : Nat)
  | aesDecrypt (job : Nat)
  | aesCmac (job : Nat)
  | aesCmacverify (job : Nat)
  | aesAeadseal (job : Nat)
  | aesAeadopen (job : Nat)
  | payPinxlate (job : Nat)
  | payDukptxlate (job : Nat)
  | payDukptderive (job : Nat)
  | payDukptik (job : Nat)
  | payKbexport (job : Nat)
  | payKbimport (job : Nat)
  | randBytes (job : Nat)
  | catGenerate (job : Nat)
  | catImportClear (job : Nat)
  | catUnwrap (job : Nat)
  | catWrap (job : Nat)
  | catWithdraw (job : Nat)
  | catRevoke (job : Nat)
  | catPin (job : Nat)
  | catInfo (job : Nat)
  | catSync (job : Nat)
  | catCheckpoint (job : Nat)
  -- The Registrar's acts
  | revocationOrder (w : Wing) (coll index gen : Nat)
  | revocationAck (w : Wing) (coll index gen : Nat)
  | leaseRenewal (loan : Nat)
  | leaseExpiry (loan : Nat)
  | provenanceWalk (coll index gen : Nat)
  | invalidatedAncestorRelease (coll index gen : Nat)
  | sealIntervalExpiry
  | sealWrite
  | checkpointEnd
  -- Journal and restore messages; the parameters are the bytes read from the sender's buffer
  | journalConfig (m : Sender) (params : List Byte)
  | journalAck (m : Sender) (params : List Byte)
  | journalStatus (m : Sender) (params : List Byte)
  | restoreBegin (m : Sender) (params : List Byte)
  | restoreBlock (m : Sender) (params : List Byte) (block : Option (List Byte))
  | restoreEnd (m : Sender) (params : List Byte)
  | acceptLoss (m : Sender) (params : List Byte)
  -- Boot, lifecycle and debug messages (14_boot_lifecycle_attestation.md)
  | identity (m : Sender) (params : List Byte)
  | nonce (m : Sender) (params : List Byte)
  | nonceExpiry (index : Nat)
  | quorumSubmit (m : Sender) (params : List Byte)
  | quorumAuthorisationExpiry (index : Nat)
  | takeOwnership (m : Sender) (params : List Byte)
  | certInstall (m : Sender) (params : List Byte)
  | decommission (m : Sender) (params : List Byte)
  | transfer (m : Sender) (params : List Byte)
  | scrap (m : Sender) (params : List Byte)
  | floorRaise (m : Sender) (params : List Byte)
  | flashWrite (m : Sender) (params : List Byte)
  | slotPrefer (m : Sender) (params : List Byte)
  | debugChallenge (m : Sender) (params : List Byte)
  | debugUnlock (m : Sender) (params : List Byte)
  | debugLock (m : Sender) (params : List Byte)
  | provision (m : Sender) (params : List Byte)
  | pwronRstAssert
  | pwronRstRelease (straps : BitVec 6)
  | bootImageAccept (type : Nat)
  | ledgerRebuild
  -- Entropy (12_entropy.md)
  | sourceSample (source : Nat) (bit : Bool)
  | balanceAdjustment (source : Nat)
  | sourceStartupComplete (source : Nat)
  | conditionedBlock (pool : Pool)
  | drbgReseedRequest (d : Drbg)
  | drbgIntervalExpiry (d : Drbg)
  | maskingGeneratorReseed (m : MaskGen)
  | maskingGeneratorStop (m : MaskGen)
  | drbgKnownAnswerTest (d : Drbg) (passes : Bool)
  | entropyWaitExpiry (job : Nat)
  | wingEntropyReady (w : Wing)
  | entropyReadmit (f : Fn) (v : Word32)
  | entropyLastfailRead (f : Fn)
  | entropyRawdataRead (f : Fn)
  -- Storeroom (13_storeroom.md)
  | tileRead (t : TileId) (fetch : TileFetch) (job : Option Nat)
  | tileWrite (t : TileId) (data : List Byte) (job : TileStore)
  | nodeWriteback (w : Wing) (level node : Nat)
  | rootUpdate (w : Wing) (node : Nat)
  | peerFallbackRead (t : TileId) (fetch : TileFetch) (job : Option Nat)
  | patrolScrub (t : PatrolSpot) (fetch : DramRead)
  | tileRehome (t : TileId)
  | channelRetirementRequest (c : Nat)
  | storeRetire (f : Fn) (v : Word32)
  | retirementCopyComplete (c : Nat)
  | channelFailure (c : Nat)
  | channelTrainingComplete (c : Nat) (found : ChannelTraining)
  | zqCalibration (c : ZqPause)
  | storeroomInitComplete (w : Wing)
  | mirrorRefreshComplete (w : Wing)
  | storeCeRead (f : Fn) (c : Nat)
  | storeUeRead (f : Fn) (c : Nat)
  | storeIntegRead (f : Fn)
  | storeLastfailRead (f : Fn)
  -- Tamper and standing orders (15_tamper_and_standing_orders.md)
  | tamperSensorTrip (trip : Trip)
  | railRecoveryExpiry (die : Die) (recovered : Bool)
  | freezeWireAssert (die : Die)
  | orderApply
  | reportPhase
  | mramEraseComplete
  | batteryDomainAlarm (trip : Trip)
  | tamperClear (m : Sender) (params : List Byte)
  | orderInstall (m : Sender) (params : List Byte)
  | erase (m : Sender) (params : List Byte)
  | orderRead (m : Sender) (params : List Byte)
  | standingOrderEffective (kind : Nat)
  -- Service continuity (16_conservation_and_change.md)
  | unitFence (u : UnitId) (cause : Nat)
  | errorCountDecay (u : UnitId)
  | unitHandshakeTimeout (u : UnitId)
  | unitKnownAnswerTest (u : UnitId) (passes : Bool)
  | recalibration (u : UnitId)
  | consRecal (f : Fn) (v : Word32)
  | sparePromotion (u : UnitId)
  | consPromote (f : Fn) (v : Word32)
  | consFence (f : Fn) (v : Word32)
  | consReadmit (f : Fn) (v : Word32)
  | unitReadmitComplete (u : UnitId) (passes : Bool)
  | consGreset (f : Fn) (v : Word32)
  | galleryReset (gallery : Nat)
  | galleryResetComplete (gallery : Nat)
  | consEventRead (f : Fn)
  | consFencedTrafficRead (f : Fn)
  | consLinkdownRead (f : Fn)
  | staleFlitDrop (u : UnitId) (gen : Nat)
  | voteDisagreement (vote : Vote)
  | heartbeatSend (l : Link) (e : LinkEnd)
  | linkDownDeclare (l : Link) (e : LinkEnd)
  | linkRetrain (l : Link)
  | linkUpDeclare (l : Link)
  | orphanDetect (w : Wing)
  | orphanHalt (w : Wing)
  | bothWingsLost
  | wingReadmission (w : Wing)
  | wingReset (w : Wing)
  | cfgtxBegin (by_ : TxWriter)
  | cfgtxCommit (by_ : TxWriter) (items : Option (List Byte))
  | cfgtxAbort (by_ : TxWriter)
  | cfgtxDrainComplete
  | cfgtxDrainTimeout
  | cfgtxIdleExpiry
  | microcodeBankLoad (u : UnitId) (verifies : Bool)
  | bnslotRepartition (gallery : Nat)
  | handoverBegin (m : Sender) (params : List Byte)
  | handoverStatus (m : Sender) (params : List Byte)
  | handoverPending
  | handoverPauseStart
  | handoverSwitch (startChecksPass : Bool)
  -- Docents and access units (17_docents_and_access.md)
  | docentClusterReset (w : Wing)
  | docentSqTailWrite (w : Wing) (core q : Nat) (user : Bool) (tail : BitVec 16)
  | docentCqHeadWrite (w : Wing) (core q : Nat) (user : Bool) (head : BitVec 16)
  | dqCtrlWrite (w : Wing) (core q : Nat) (off : Nat) (v : Word32)
  | docentAccess (w : Wing) (core : Nat) (acc : Access) (gate : GateOutcome)
  | docentDmaBurst (w : Wing) (acc : Access) (gate : GateOutcome)
  | debugPortAccess (w : Wing) (acc : Access) (gate : GateOutcome)
  | auRegisterWrite (w : Wing) (master unit off : Nat) (v : Word32)
  | auVinfoClear (w : Wing) (master : Nat) (v : Word32)
  | auVcountRead (w : Wing) (master : Nat)
  | evlogVinfoClear (f : Fn) (m : Nat) (v : Word32)
  | jtagInstruction (ins : JtagIns)
  -- Custodian cards (18_card_interface.md)
  | cardInsertion (slot : Nat)
  | cardRemoval (slot : Nat)
  | cardActivate (slot : Nat)
  | cardDeactivate (slot : Nat)
  | cardWarmReset (slot : Nat)
  | cardStart (slot : Nat)
  | cardClkStop (slot : Nat)
  | cardWake (slot : Nat)
  | cardAbort (slot : Nat)
  | cardCharacterReceive (slot : Nat) (b : Byte) (parityOk : Bool)
  | cardVccTimeout (slot : Nat)
  | cardAtrTimeout (slot : Nat)
  | cardClassBRetry (slot : Nat)
  | cardWaitingTimeExpiry (slot : Nat)
  | cardDeactivationComplete (slot : Nat)
  | cardResultRead (slot : Nat)
  | cardIrqClear (slot : Nat) (v : Word32)
  -- Clocks and power (19_clocks_and_power.md)
  | referenceMissing (die : Die) (src : ClockSource)
  | frequencyWindow (die : Die) (win : ClockWindow)
  | xtalStartDelayExpiry (die : Die)
  | clockSwitch (die : Die) (dest : ClockSource) (forced : Bool)
  | pllLock (die : Die) (pauseUs : Nat)
  | clkpwrRevert (f : Fn)
  | autoRevert (die : Die)
  | wingIdleEntry (w : Wing)
  | standbyRequest (f : Fn)
  | standbyDrainTimeout
  | standbyEntry
  | activeRequest (f : Fn)
  | powerEstimate (mw10 : Nat)
  | thermalSample (west east curator : Int)
  | thermalThrottleStep
  | clkpwrCapWrite (f : Fn) (v : Word32)
  | clkpwrSwitchesRead (f : Fn)
  | clkpwrRtcSet (f : Fn) (v : Word32)
  | clkpwrRtcSlew (f : Fn) (v : Word32)
  | avsVoltageWrite (w : Wing) (millivolt : Nat) (answer : AvsAnswer)
  | gpioWrite (w : Wing) (out oe : BitVec 8)
  | gpioEdge (w : Wing) (pin : Nat) (rising : Bool)
  | gpioIrqClear (w : Wing) (v : Word32)
  -- SK40 register pages (11_symmetric_and_payment.md)
  | compatStart (f : Fn) (page : Nat)
  | compatKeyClear (f : Fn) (page : Nat)
  | compatKeyWrite (f : Fn) (page word : Nat) (v : Word32)
  | compatOperationComplete (page : Nat) (ev : EngineEvent)
  | cardCharacterSent (slot : Nat) (errorSignal : Bool)
  | timerCompare (w : Wing) (k : Nat)
  | rtcCompare (w : Wing)
  | vbatMeasurement (millivolt : Nat)
  | linkPowerStateChange (w : Wing) (dest : LinkPower)
  deriving DecidableEq, Repr

end Sys2Proof
end

