-- ==== Sys2Proof/Config.lean ====
section
/-! DEFINITION. What the spec leaves to a published standard, to the owner's policy encoding or to no one: the uninterpreted
constants of the model. None has a body, so no proof can rest on a value of one. -/

namespace Sys2Proof.Config

/-- The computations that a published standard defines and the spec names without giving the algorithm (R5, R193, R255, R284,
R308, R326). The numbers are the selector or code the spec gives. -/
inductive Prim where
  -- digests, keyed digests and derivations
  | hash (sel : Nat) | xof (sel : Nat) | cshake (sel : Nat) | kmac (sel : Nat) (xofForm : Bool)
  | streamState (base sel : Nat) | streamSeal | macEqual
  | crc32 | crc16 | rdsKey
  -- lattice
  | mlkemDk (sel : Nat) (seed : Bool) | mlkemEk (sel : Nat) | mlkemCt (sel : Nat) | mlkemSs (sel : Nat) | mlkemDec (sel : Nat)
  | mlkemEkOfDk (sel : Nat) (seed : Bool) | mlkemEkOk (sel : Nat) | mlkemDkHashOk (sel : Nat)
  | mldsaSk (sel : Nat) (seed : Bool) | mldsaPk (sel : Nat) | mldsaPkOfSk (sel : Nat) (seed : Bool) | mldsaSig (sel opts : Nat)
  | mldsaCap (sel opts : Nat) | mldsaOk (sel opts : Nat)
  | fndsaSk (sel : Nat) | fndsaPk (sel : Nat) | fndsaPkOfSk (sel : Nat) | fndsaSig (sel opts : Nat) | fndsaRestart (sel opts : Nat)
  | fndsaOk (sel opts : Nat) | fndsaPkOk (sel : Nat)
  -- hash-based signatures
  | slhSk (sel : Nat) | slhSig (sel opts : Nat) | slhOk (sel opts : Nat)
  | lmsPk (sel height : Nat) | lmsSig (sel height : Nat) | lmsOk
  | xmssSk (sel : Nat) | xmssPk (sel : Nat) | xmssSig (sel : Nat) | xmssOk (sel : Nat) | xmssPkOk (sel : Nat)
  -- code-based
  | mceSk (sel : Nat) | mcePk (sel : Nat) | mceErr (sel : Nat) | mceCt (sel : Nat) | mceDecode (sel : Nat)
  | hqcSk (sel : Nat) | hqcPk (sel : Nat) | hqcCt (sel : Nat) | hqcKey (sel : Nat) | hqcMsg (sel : Nat) | hqcSigma (sel : Nat)
  | hqcCtOk (sel : Nat) | hqcPkOk (sel : Nat) | hqcPkAt (sel : Nat)
  -- classical
  | rsaKey (sel : Nat) | rsaSig (sel opts : Nat) | rsaOk (sel opts : Nat) | rsaDec (sel opts : Nat) | rsaDecLen (sel opts : Nat)
  | rsaDecOk (sel opts : Nat) | rsaEnc (sel opts : Nat)
  | ecSk (sel : Nat) | ecPk (sel : Nat) | ecSig (sel opts : Nat) | ecOk (sel opts : Nat) | ecDh (sel : Nat)
  | ecSigCap (sel opts : Nat) | strongLucas
  -- symmetric and payment
  | aes (alg mode : Nat) (decrypt : Bool) | cmac (alg : Nat) | aeadCt (sel mode : Nat) | aeadTag (sel mode : Nat)
  | aeadPt (sel mode : Nat) | aeadOk (sel mode : Nat)
  | dukptKey (bits : Nat) | dukptIk | dukptPinKey | kbEncKey | kbMacKey
  -- catalogue, journal, identity
  | gcmSeal | gcmOpen | gcmOk | gcmStream | gcmTag | kdf384 | journalSeal | journalOpen | journalTagOk | recordsOk | chain
  | sigOk (alg : Nat) | vendorSigOk | debugTokenOk | deviceIdPub | csr | certChainOk | spdmSign (slot : Nat) | spdmKey | aliasCert (slot : Nat)
  -- CTR_DRBG with AES-256 and the derivation function (R360): instantiation, reseed, output and next working state of a generate call
  | drbgInstantiate | drbgReseed | drbgOut | drbgNext
  deriving DecidableEq, Repr

/-- Byte `i` of what a computation yields on its inputs. -/
opaque primByte : Prim → List (List Byte) → Nat → Byte

/-- Whether a check that a standard defines passes on its inputs. -/
opaque primBool : Prim → List (List Byte) → Bool

/-- A number that a standard's computation yields: a decoded length, a count. -/
opaque primNat : Prim → List (List Byte) → Nat

/-- `n` bytes of what a computation yields. -/
def prim (p : Prim) (ins : List (List Byte)) (n : Nat) : List Byte := (List.range n).map (primByte p ins)

/-- A FREE VALUE: the number the part comes to where the spec fixes none, one for each value of State's counter. -/
opaque freeNat : Nat → Nat

/-- What an owner policy's body says of the device (R46, R185, R380, R473, R478). The spec gives no encoding of the body, so the
fields are read from it by uninterpreted functions. -/
structure DevPolicy where
  /-- management role of PF0 of Port W and Port E, and the SMBus device-reset right (R46) -/
  mgmtW : Bool := true
  mgmtE : Bool := true
  smbReset : Bool := true
  /-- opcodes of the admin commands that it forbids (R81) -/
  forbidAdmin : List Nat := []
  /-- PFs that may map COMPAT pages (R51 FID_ROLE.compat) -/
  compatW : Bool := false
  compatE : Bool := false
  /-- region sizes in units of 0.5 GB (R380); none: the defaults -/
  regions : Option (Nat × Nat × Nat) := none
  /-- HANDOVER_BEGIN needs a quorum (R473) -/
  handoverQuorum : Bool := false
  /-- host windows of access units enabled (R486) -/
  hostWindows : Bool := false
  deriving DecidableEq, Repr, Inhabited

/-- What an owner policy's body says of one collection. -/
structure CollPolicy where
  /-- default lease in ms (R165) -/
  leaseMs : Nat := 100
  /-- functions must run inside Secure IDE streams (R63) -/
  ide : Bool := false
  /-- low bytes of the catalogue functions forbidden (R160) -/
  forbidCat : List Nat := []
  /-- clear import enabled, and whether it needs a quorum authorisation (R162) -/
  clearImport : Bool := false
  clearQuorum : Bool := false
  /-- secret outputs may not leave through HOST buffers (R202, R239) -/
  noSecretHost : Bool := false
  /-- deterministic signing forbidden (R204, R313) -/
  noDeterministic : Bool := false
  /-- least tag length (R242, R334) -/
  minTag : Nat := 0
  /-- PIN format pairs allowed beyond R343's default, as 16 * in + out -/
  pinPairs : List Nat := []
  /-- written COMPAT page keys enabled (R354) -/
  pageKeys : Bool := false
  /-- loans refused while debug is unlocked (R412) -/
  noLoanInDebug : Bool := false
  /-- Docent cores, as 8 * wing + core, granted the collection (R482) -/
  cores : List Nat := []
  /-- a rule of the policy admits the loan (R164 check 8) -/
  useRules : Nat := 0
  deriving DecidableEq, Repr, Inhabited

/-- The vendor ID that the functions report; the spec names its owner and not its value (R43). -/
opaque vendorId : BitVec 16

/-- The device part of a policy body. -/
opaque devPolicy : List Byte → DevPolicy

/-- The part of a policy body about one collection. -/
opaque collPolicy : List Byte → Nat → CollPolicy

/-- The custodian keys that a policy body enrols, as algorithm and public key, and its threshold (R409). -/
opaque policyCustodians : List Byte → List (Nat × List Byte)
opaque policyThreshold : List Byte → Nat

/-- A copy of the flash directory: whether it is valid, its sequence, and by image type whether slot B is preferred; and the copy that the
part writes for a sequence and preferences. The spec names these fields and gives no layout (R399). -/
opaque dirOk : List Byte → Bool
opaque dirSeq : List Byte → Nat
opaque dirSlotB : List Byte → Nat → Bool
opaque dirByte : Nat → Nat → Nat → Byte

/-- What the Curator programs into register word `off` of unit 9 at a debug level (R488, R490). -/
opaque unit9 : Nat → Nat → Word32

/-- Whether a policy body's rules on time, measurements and use admit a loan (R164 check 8): the body, the collection, the
purpose and the RTC seconds. The Bool says whether the rule depends on the time. -/
opaque policyAdmits : List Byte → Nat → Nat → Nat → Bool
opaque policyTimed : List Byte → Nat → Bool

/-- Whether a collection's policy accepts a measurement set (R174). -/
opaque policyAccepts : List Byte → Nat → List (List Byte) → Bool

/-- Whether an address outside every slot and window of the debug port's unit is one of key-bearing memory (R488 kind 5): the spec
gives no addresses for that memory. -/
opaque keyBearing : Nat → Bool

/-- The string that names a level and an instance, and for an LM-OTS randomiser the leaf of the instance too, in a KMAC256 of R263 or R264: the
spec names the parts and gives no encoding of them. -/
opaque lmsText : List Nat → List Byte

/-- Lengths of private key, public key and ciphertext of the NIST HQC standard's three sets (R293), which the spec does not give. -/
opaque hqcStdLens : Nat → Nat × Nat × Nat

/-- The record number of the catalogue region that an entry takes (R381): the spec leaves it to the Registrar. -/
opaque recordNumber : Nat → Nat → Nat

/-- The tile of the tree-cache region that holds the nodes of a ledger slot for a leaf, and the slot whose nodes a tile holds: the Registrar lays the
region out (R266, log entry 143). -/
opaque treeTile : Nat → Nat → Nat
opaque treeOwner : Nat → Nat

end Sys2Proof.Config
end

