-- ==== Sys2Proof/Machine/Bits.lean ====
section
/-! DEFINITION. Bit fields, byte order and byte strings (R7: registers and Damob's structures are little-endian). -/

namespace Sys2Proof.Machine

/-- Bits [lo+width-1:lo] of a number. -/
def fieldAt (v lo width : Nat) : Nat := v / 2 ^ lo % 2 ^ width

/-- Bits [lo+width-1:lo] of a register value. -/
def bits32 (v : Word32) (lo width : Nat) : Nat := fieldAt v.toNat lo width

/-- Bits [lo+width-1:lo] of a 64-bit value. -/
def bits64 (v : Word64) (lo width : Nat) : Nat := fieldAt v.toNat lo width

/-- Bit `k` of a register value. -/
def bit32 (v : Word32) (k : Nat) : Bool := v.toNat.testBit k

/-- A register value from a number. -/
def w32 (n : Nat) : Word32 := BitVec.ofNat 32 n

/-- A 64-bit value from a number. -/
def w64 (n : Nat) : Word64 := BitVec.ofNat 64 n

/-- A byte from a number. -/
def byte (n : Nat) : Byte := BitVec.ofNat 8 n

/-- 1 for true, 0 for false. -/
def b2n (b : Bool) : Nat := if b then 1 else 0

/-- The number a byte string is in little-endian order. -/
def leNat : List Byte → Nat
  | [] => 0
  | b :: r => b.toNat + 256 * leNat r

/-- The number a byte string is in big-endian order. -/
def beNat (l : List Byte) : Nat := leNat l.reverse

/-- The low `n` bytes of a number in little-endian order. -/
def leBytes : Nat → Nat → List Byte
  | 0, _ => []
  | n + 1, v => byte v :: leBytes n (v / 256)

/-- The low `n` bytes of a number in big-endian order. -/
def beBytes (n v : Nat) : List Byte := (leBytes n v).reverse

/-- `len` bytes from offset `off`. -/
def slice {α : Type} (l : List α) (off len : Nat) : List α := (l.drop off).take len

/-- The little-endian number at bytes off to off + len - 1. -/
def leAt (l : List Byte) (off len : Nat) : Nat := leNat (slice l off len)

/-- The byte at an offset, as a number; 0 beyond the end. -/
def byteAt (l : List Byte) (off : Nat) : Nat := (l.getD off 0).toNat

/-- `n` zero bytes. -/
def zeros (n : Nat) : List Byte := List.replicate n 0

/-- The exclusive or of two strings of one length. -/
def xorBytes (a b : List Byte) : List Byte := List.zipWith (· ^^^ ·) a b

/-- Every byte is zero. -/
def allZero (l : List Byte) : Bool := l.all (· == 0)

/-- The string cut or padded with zeros to `n` bytes. -/
def padTo (n : Nat) (l : List Byte) : List Byte := l.take n ++ zeros (n - l.length)

/-- The list with position `k` replaced. -/
def setAt {α : Type} (l : List α) (k : Nat) (v : α) : List α := l.set k v

/-- The next multiple of 8 at or above `n`. -/
def up8 (n : Nat) : Nat := (n + 7) / 8 * 8

/-- A saturating count. -/
def sat (top n : Nat) : Nat := if n < top then n else top

/-- The word with `n` bits at `lo` replaced by `v`. -/
def setField (w : Word32) (lo n v : Nat) : Word32 :=
  w32 (w.toNat - fieldAt w.toNat lo n * 2 ^ lo + v % 2 ^ n * 2 ^ lo)

/-- The 40-bit or shorter signed number held in `width` bits. -/
def signed (v width : Nat) : Int := if v < 2 ^ (width - 1) then (v : Int) else (v : Int) - 2 ^ width

end Sys2Proof.Machine
end

