-- ==== Sys2Proof/Machine/Flags.lean ====
section
/-! DEFINITION. Status codes (R98) with their kinds (R144), the flags register F (R123), conditions (R124), the bits of a
record's flags field (R96) and of FSTAT_CAUSE (R54). -/

namespace Sys2Proof.Machine

/-! ### Status codes (R98) -/

namespace St
def ok : Byte := 0x00
def okTruncated : Byte := 0x01
def badProgram : Byte := 0x08
def badBuffer : Byte := 0x09
def accessDenied : Byte := 0x0A
def inputRejected : Byte := 0x10
def inputZero : Byte := 0x11
def inputRange : Byte := 0x12
def pointNotOnCurve : Byte := 0x13
def pointAtInfinity : Byte := 0x14
def curveParamsRejected : Byte := 0x15
def lengthUnderrun : Byte := 0x16
def encodingRejected : Byte := 0x17
def keyUnknown : Byte := 0x30
def keyWithdrawn : Byte := 0x31
def keyRevoked : Byte := 0x32
def keyPurpose : Byte := 0x33
def keyClass : Byte := 0x34
def keyParentInvalid : Byte := 0x35
def policyDenied : Byte := 0x40
def quorumRequired : Byte := 0x41
def tagMismatch : Byte := 0x50
def storeroomIntegrity : Byte := 0x51
def storeroomStale : Byte := 0x52
def storeroomMedia : Byte := 0x53
def entropyUnavailable : Byte := 0x60
def faultDetected : Byte := 0x70
def tamperFrozen : Byte := 0x71
def engineFenced : Byte := 0x72
def ledgerExhausted : Byte := 0x80
def queueFull : Byte := 0x81
def signRetryLimit : Byte := 0x82
def resourceExhausted : Byte := 0x83
def epochRetired : Byte := 0x90
def configLocked : Byte := 0x91
def epochBusy : Byte := 0x92
def splitOrphan : Byte := 0xA0
def handoverPause : Byte := 0xA1
end St

/-- Success: OK and OK_TRUNCATED (R144). -/
def isSuccess (s : Byte) : Bool := s == St.ok || s == St.okTruncated

/-- The continuable statuses (R144). -/
def isContinuable (s : Byte) : Bool :=
  [St.inputRejected, St.inputZero, St.inputRange, St.pointNotOnCurve, St.pointAtInfinity, St.curveParamsRejected,
   St.lengthUnderrun, St.encodingRejected, St.keyUnknown, St.keyWithdrawn, St.keyPurpose, St.keyClass, St.policyDenied,
   St.quorumRequired, St.ledgerExhausted, St.signRetryLimit, St.resourceExhausted, St.handoverPause].contains s

/-- The terminal statuses whose output is suppressed (R144). -/
def isSuppressed (s : Byte) : Bool :=
  [St.keyRevoked, St.keyParentInvalid, St.tamperFrozen, St.splitOrphan, St.epochRetired].contains s

/-- The rank of a terminal status when several reach a job: lower is reported, and among those that R219 does not list the first to
reach it. -/
def statusRank (s : Byte) : Nat :=
  if s == St.tamperFrozen then 1 else if s == St.keyRevoked then 2 else if s == St.keyParentInvalid then 3
  else if s == St.splitOrphan then 4 else if s == St.engineFenced then 5 else if s == St.faultDetected then 6
  else if s == St.epochRetired then 7 else 8

/-! ### F (R123) and conditions (R124) -/

/-- F with a verification's verdict: bits [1:0] overwritten, verified set, any_fail sticky. -/
def fVerdict (f : Byte) (pass : Bool) : Byte :=
  (f &&& 0xFC) ||| (if pass then 0x01 else 0x02) ||| 0x10 ||| (if pass then 0 else 0x20)

/-- F with a comparison of A and B: bits [3:2] overwritten. -/
def fCompare (f : Byte) (a b : Word64) : Byte :=
  (f &&& 0xF3) ||| (if a = b then 0x04 else 0) ||| (if a.toNat < b.toNat then 0x08 else 0)

/-- F with truncated set. -/
def fTruncated (f : Byte) : Byte := f ||| 0x40

/-- Whether an instruction with condition `c` executes under S and F (R124); reserved values never do. -/
def condHolds (c : Nat) (st f : Byte) : Bool :=
  match c with
  | 0 => true
  | 1 => isSuccess st
  | 2 => !isSuccess st
  | 3 => f.getLsbD 0
  | 4 => f.getLsbD 1
  | 5 => f.getLsbD 2
  | 6 => !f.getLsbD 2
  | 7 => f.getLsbD 3
  | 8 => !f.getLsbD 3
  | 9 => f.getLsbD 5
  | _ => false

/-! ### Record flags (R96) -/

namespace Rf
def truncated : BitVec 16 := 0x0001
def scrubbed : BitVec 16 := 0x0002
def unscrubbed : BitVec 16 := 0x0004
def releasedUnverified : BitVec 16 := 0x0008
def remote : BitVec 16 := 0x0010
def c0Unbound : BitVec 16 := 0x0020
def phase : BitVec 16 := 0x8000
end Rf

/-- The status and verdict with which END ends a job (R129): OK becomes OK_TRUNCATED when F.truncated is 1. -/
def endStatus (f st : Byte) : Byte := if st == St.ok && f.getLsbD 6 then St.okTruncated else st

/-- The verdict of a record from F and its status (R97, R129): 0 none, 1 PASS, 2 FAIL. -/
def endVerdict (f st : Byte) : Byte :=
  if !f.getLsbD 4 || !isSuccess st then 0 else if f.getLsbD 5 then 2 else 1

/-! ### FSTAT_CAUSE bits (R54) -/

namespace Cause
def readyChange : Nat := 0
def queueError : Nat := 1
def regError : Nat := 2
def epochCommit : Nat := 3
def handoverPending : Nat := 4
def handoverDone : Nat := 5
def split : Nat := 6
def tamper : Nat := 7
def entropy : Nat := 8
def ideFail : Nat := 9
def ledgerLow : Nat := 10
end Cause

/-- The cause bits that exist, [10:0] (R54). -/
def causeMask : Word32 := 0x000007FF

end Sys2Proof.Machine
end

