-- ==== Sys2Proof/Machine/Table.lean ====
section
/-! DEFINITION. Sparse tables: how State holds every memory, register bank and numbered set of the SK72. A table lists, in
rising order of key, the entries that differ from what an unlisted key reads as. -/

namespace Sys2Proof.Machine

/-- A sparse table from numbers to values. A table of bytes is a list of `Host.Cell`. -/
abbrev Tbl (α : Type) := List (Nat × α)

/-- The value at key `k`; `d` is what an unlisted key reads as. -/
def Tbl.get {α : Type} (d : α) : Tbl α → Nat → α
  | [], _ => d
  | (k', v) :: r, k => if k = k' then v else Tbl.get d r k

/-- The table with `v` at key `k`; writing `d` removes the entry. -/
def Tbl.set {α : Type} [DecidableEq α] (d : α) : Tbl α → Nat → α → Tbl α
  | [], k, v => if v = d then [] else [(k, v)]
  | (k', v') :: r, k, v =>
    if k < k' then (if v = d then (k', v') :: r else (k, v) :: (k', v') :: r)
    else if k = k' then (if v = d then r else (k, v) :: r)
    else (k', v') :: Tbl.set d r k v

/-- Every key of the table is above `lo`, keys rise, and no entry equals the default. -/
def Tbl.wfFrom {α : Type} [DecidableEq α] (d : α) : Option Nat → Tbl α → Bool
  | _, [] => true
  | lo, (k, v) :: r => (match lo with | none => true | some l => decide (l < k)) && decide (v ≠ d) && Tbl.wfFrom d (some k) r

/-- The canonical form of a table: keys strictly rising, no entry equal to what an unlisted key reads as. -/
def Tbl.wf {α : Type} [DecidableEq α] (d : α) (t : Tbl α) : Bool := Tbl.wfFrom d none t

/-- `n` consecutive bytes from `a`. -/
def Tbl.readBytes (d : Byte) (t : Tbl Byte) (a : Nat) : Nat → List Byte
  | 0 => []
  | n + 1 => t.get d a :: Tbl.readBytes d t (a + 1) n

/-- The table with the bytes `bs` stored from `a` upwards. -/
def Tbl.writeBytes (d : Byte) (t : Tbl Byte) (a : Nat) : List Byte → Tbl Byte
  | [] => t
  | b :: bs => Tbl.writeBytes d (t.set d a b) (a + 1) bs

/-- The table with the entry at `k` changed by `f`. -/
def Tbl.modify {α : Type} [DecidableEq α] (d : α) (t : Tbl α) (k : Nat) (f : α → α) : Tbl α := t.set d k (f (t.get d k))

end Sys2Proof.Machine
end

