-- ==== Sys2Proof/Machine/State.lean ====
section
/-! DEFINITION. The state of the SK72 as plain data: every register, queue, buffer, counter, mode and pin that spec/ gives the
part, block by block in the order of the spec's chapters; the reasons a step can stop; and the state right after reset. A
field's comment names the rule that gives it and its reset value. -/

namespace Sys2Proof.Machine

/-- Why the block stops with a fault. No rule of the spec stops the block, so no meaning raises one: every error the spec
describes is a status, a record, a flag or a log entry of a next state. -/
inductive Fault where
  /-- raised by nothing; the type is closed with this one name. Safe -/
  | none_
  deriving DecidableEq, Repr

/-- Why a command is refused. -/
inductive Refusal where
  /-- a command whose meaning has not been written: raised only by its arm of `exec`. Safe -/
  | notModelled (mnemonic : String)
  deriving DecidableEq, Repr

/-- The AER conditions of R72. -/
inductive AerEvent where
  | completionTimeout | unsupportedRequest | poisoned | uncorrectableInternal
  deriving DecidableEq, Repr, Inhabited

/-- One record of the event log (R495). -/
structure LogRec where
  seq : Nat := 0
  rtcS : Nat := 0
  rtcSub : Nat := 0
  category : Nat := 0
  status : Byte := 0
  /-- bytes 14 to 16: the unit identifier with its valid bit, or zero -/
  source : Nat := 0
  /-- bytes 17 to 31, first byte first -/
  detail : List Byte := []
  deriving DecidableEq, Repr, Inhabited

/-- What the block sends out: DMA writes and reads, interrupts, answers to reads, and signals on its other interfaces. State
keeps what has been sent, newest first. -/
inductive Out where
  /-- a memory write TLP at a port (R99, R138) -/
  | dmaWrite (port : Wing) (addr : Nat) (bytes : List Byte)
  /-- a configuration request completed with Request Retry Status (R70, R406) -/
  | retry (f : Fn)
  /-- XSPI_RESET# asserted for 10 µs (R398) -/
  | xspiReset
  /-- a memory read request at a port (R72) -/
  | dmaRead (port : Wing) (addr len : Nat) (target : ReadTarget)
  /-- the MSI-X message of a function's vector (R61) -/
  | msix (f : Fn) (vector : Nat)
  /-- the value a register read returned -/
  | readValue (f : Fn) (off : Nat) (v : Word32)
  /-- an access completed with Unsupported Request (R50) -/
  | unsupported (f : Fn)
  /-- an answer of the SPDM responder: the response code, 0x7F for ERROR with its error code, and its payload (R65) -/
  | spdm (via : SpdmVia) (code err : Byte) (payload : List Byte)
  /-- an answer of an MCTP endpoint (R74) -/
  | mctp (ep : Endpoint) (ok : Bool) (payload : List Byte)
  /-- an access of a Docent master answered: the data, and whether it was an error (R490) -/
  | access (w : Wing) (master : Nat) (error : Bool) (data : List Byte)
  /-- an illegal-instruction exception of a Docent core's custom CSR (R481) -/
  | illegalCsr (w : Wing) (core : Nat)
  /-- the freeze wires asserted by a die (R421) -/
  | freezeWires (die : Die)
  /-- a character driven on a card's IO contact, or the error signal (R502, R503) -/
  | cardChar (slot : Nat) (b : Byte)
  | cardError (slot : Nat)
  /-- a heartbeat flit on a link (R457) -/
  | heartbeat (l : Link) (e : LinkEnd)
  /-- a revocation order to a wing's loan desk (R167) -/
  | revocation (w : Wing) (coll index gen : Nat)
  /-- a Voltage write on a wing's AVSBus (R534) -/
  | avs (w : Wing) (millivolt : Nat)
  /-- a card's VCC enable and class selection (R498) -/
  | cardPower (slot : Nat) (on : Bool) (cls : Nat)
  /-- the test port's answer to an instruction (R412, R535) -/
  | jtag (allowed : Bool) (value : Word32)
  deriving DecidableEq, Repr, Inhabited

/-- The state of one SPDM responder: what the requester has negotiated (R65). -/
structure Spdm where
  version : Bool := false
  caps : Bool := false
  algs : Bool := false
  /-- KEY_EXCHANGE answered, and FINISH accepted -/
  keyed : Bool := false
  session : Bool := false
  deriving DecidableEq, Repr, Inhabited

/-! ### Host ports and functions (02_host_ports.md) -/

/-- Who submitted a job or holds a queue: a host function's queue, or a Docent core's internal queue (R25, R148). -/
inductive Src where
  | host (f : Fn) (q : QSel)
  | docent (w : Wing) (core q : Nat)
  deriving DecidableEq, Repr, Inhabited

/-- A completion record by its fields (R95). -/
structure Record where
  tag : Word32 := 0
  status : Byte := 0
  verdict : Byte := 0
  flags : BitVec 16 := 0
  outputLength : Nat := 0
  epoch : Nat := 0
  result : Word64 := 0
  elapsedNs : Nat := 0
  deriving DecidableEq, Repr, Inhabited

/-- One pair of rings: an I/O queue, the admin queue of a function, or a Docent internal queue (R58, R87, R88, R487). -/
structure Queue where
  /-- the queue exists (R87 byte 2 bit 0); reset: no -/
  created : Bool := false
  /-- ring depth in entries (R88); reset 0 -/
  depth : Nat := 0
  /-- submission ring base (R88); reset 0 -/
  sqBase : Nat := 0
  /-- completion ring base (R88); reset 0 -/
  cqBase : Nat := 0
  /-- MSI-X vector (R88); reset 0 -/
  vector : Nat := 0
  /-- class_mask, bit n permits Cn (R88); reset 0 -/
  classMask : Nat := 0
  /-- mod_count (R88); reset 0 -/
  modCount : Nat := 0
  /-- mod_time_us (R88); reset 0 -/
  modTimeUs : Nat := 0
  /-- submission tail last accepted (R56); reset 0 -/
  sqTail : Nat := 0
  /-- submission head consumed (R56); reset 0 -/
  sqHead : Nat := 0
  /-- completion tail written (R56); reset 0 -/
  cqTail : Nat := 0
  /-- completion head last accepted (R56); reset 0 -/
  cqHead : Nat := 0
  /-- PHASE of the next record (R87 byte 45, R96): 1 on the first pass -/
  phase : Bool := true
  /-- stopped by an error (R91); reset: no -/
  stopped : Bool := false
  /-- being deleted, and whether by drain (R87 byte 2 bit 2, R92) -/
  deleting : Bool := false
  /-- the tag of the DELETE_QUEUE command that drains it (R92) -/
  deleteTag : Word32 := 0
  /-- reason of the queue's first error, 0 when none (R87 byte 44) -/
  firstErr : Nat := 0
  /-- records counted but not yet signalled (R104) -/
  unsignalled : Nat := 0
  /-- time the first of them was written, ns (R104) -/
  modStart : Nat := 0
  /-- mod_time_us as the last record written took it, which a timer in progress keeps (R104); reset 0 -/
  timerUs : Nat := 0
  /-- a record has been written (R91); reset no -/
  wrote : Bool := false
  /-- tag of the last record written (R87) -/
  lastTag : Word32 := 0
  /-- epoch latched by the last job consumed, and that job's number (R87) -/
  lastEpoch : Nat := 0
  lastJob : Nat := 0
  /-- the entry fetched from the slot at the head and not yet consumed (R90) -/
  heldEntry : Option (List Byte) := none
  /-- doorbell arrivals of the unconsumed entries, as runs of (count, ns, whether the bound can still hold: a completion slot was free for it,
  and no event of conditions 2 and 3 has met it) (R95, R106, R107) -/
  arrivals : List (Nat × Nat × Bool) := []
  /-- jobs ended without a record since deletion began (R92) -/
  endedSilently : Nat := 0
  /-- a record's DMA write has failed: later records are discarded (R91 reason 0x5) -/
  discards : Bool := false
  /-- the entry at the head has been held back by a configuration drain (R468) or by its collection's C0 limit (R106 condition 4):
  a C0 job of it is not bound; reset no -/
  unbound : Bool := false
  /-- time the last BARRIER was consumed, ns (R106 condition 8); reset none -/
  barrierAt : Option Nat := none
  deriving DecidableEq, Repr, Inhabited

/-- A record, or the MSI-X message after it, held while Bus Master Enable is clear (R69). -/
structure HeldRecord where
  q : QSel := .admin
  record : Record := {}
  irq : Bool := false
  /-- a C0 record: its message is not moderated (R104) -/
  c0 : Bool := false
  /-- time from which it has waited to be written, ns (R95) -/
  since : Nat := 0
  deriving DecidableEq, Repr, Inhabited

/-- One PCIe function (R44 to R61). -/
structure FnState where
  /-- collection binding, kept by function and port resets (R44); reset: unbound (FID_COLLECTION 0) -/
  coll : Option Nat := none
  /-- FSTAT_STATUS.ready (R53, R59); reset 0 -/
  ready : Bool := false
  /-- FSTAT_CAUSE (R54), reset 0 -/
  cause : Word32 := 0
  /-- FSTAT_CAUSE_EN (R52), reset 0 -/
  causeEn : Word32 := 0
  /-- FSTAT_ERR (R52), reset 0 -/
  err : Word32 := 0
  /-- FSTAT_ERR_ADDR (R52), reset 0 -/
  errAddr : Word32 := 0
  /-- FSTAT_QERR (R52), reset 0 -/
  qerr : Word32 := 0
  /-- a queue error has been recorded since the last read of FSTAT_QERR (R52); reset no -/
  qerrHeld : Bool := false
  /-- ADMQ_CTRL.enable (R58), reset 0 -/
  admEnable : Bool := false
  /-- ADMQ_DEPTH (R58), reset 0x40 -/
  admDepth : Word32 := 0x40
  /-- ADMQ_SQ_BASE_LO/HI (R58), reset 0 -/
  admSqLo : Word32 := 0
  admSqHi : Word32 := 0
  /-- ADMQ_CQ_BASE_LO/HI (R58), reset 0 -/
  admCqLo : Word32 := 0
  admCqHi : Word32 := 0
  /-- ADMQ_VECTOR (R58), reset 0 -/
  admVector : Word32 := 0
  /-- the admin rings' indices while the queue is enabled (R58 ADMQ_SQ_DB, ADMQ_CQ_DB, reset 0) -/
  admQ : Queue := {}
  /-- the admin entry fetched and in progress (R83); reset none -/
  admCur : Option (List Byte) := none
  /-- its doorbell's arrival, ns (R95); reset 0 -/
  admArrival : Nat := 0
  /-- its record is discarded: the queue was disabled meanwhile (R84); reset no -/
  admDiscard : Bool := false
  /-- the function's I/O queues 0 to 511 (R55); reset: none created -/
  queues : Tbl Queue := []
  /-- MSI-X enabled in configuration space (R69); reset 0, PRESUMED (PCIe) -/
  msixEnable : Bool := false
  /-- MSI-X table address/data words by table offset (R48); reset 0, PRESUMED (PCIe) -/
  msixTable : Tbl Word32 := []
  /-- the vectors whose mask bit is CLEAR (R61); reset: all masked, PRESUMED (PCIe) -/
  unmasked : List Nat := []
  /-- the pending bit array: the vectors whose bit is set (R61); reset: none, PRESUMED (PCIe) -/
  pba : List Nat := []
  /-- Bus Master Enable (R69); reset 0, PRESUMED (PCIe) -/
  bme : Bool := false
  /-- records held while Bus Master Enable is clear, oldest first (R69); reset none -/
  heldRecords : List HeldRecord := []
  deriving DecidableEq, Repr, Inhabited

/-- A programmed IDE stream (R62): key sets K0 and K1, the one in use, and up to four address association blocks as (base, limit). -/
structure IdeStream where
  k0 : List Byte := []
  k1 : List Byte := []
  useK1 : Bool := false
  blocks : List (Nat × Nat) := []
  deriving DecidableEq, Repr, Inhabited

/-- State of a port's link as the host sees it (R69, R70, R42). -/
structure PortState where
  /-- PERST# is asserted (R69); reset: asserted while PWRON_RST# is (PRESUMED) -/
  perst : Bool := true
  /-- configuration space answers, and no longer Request Retry Status (R70); reset no -/
  cfgReady : Bool := false
  /-- time PERST# was deasserted, ns (R70) -/
  perstReleasedAt : Nat := 0
  /-- the IDE streams 0 to 15 in the Secure state (R62); reset: none -/
  ideSecure : List Nat := []
  /-- the streams that key programming has associated with collections' functions, as (stream, vf) (R62, R63); reset none -/
  ideAssoc : List (Nat × Nat) := []
  /-- VF Enable (R69); reset 0, PRESUMED (PCIe) -/
  vfEnable : Bool := false
  /-- the AER conditions logged (R72), newest last; reset none -/
  aer : List AerEvent := []
  /-- the keys and address blocks of the programmed streams, by stream (R62); reset none -/
  ideStreams : Tbl IdeStream := []
  /-- PCIe generation of the trained data rate, 1 to 6, and link width in lanes, 0 while the link is down (R42); reset down -/
  linkRate : Nat := 0
  linkWidth : Nat := 0
  /-- max payload size and max read request size in bytes, at most 512 and 4,096 (R42); reset 128 and 512, PRESUMED (PCIe) -/
  maxPayload : Nat := 128
  maxReadReq : Nat := 512
  /-- Device Control 2's completion timeout value: 0 the default of 10 ms, or a value of ranges A to D (R42); reset 0, PRESUMED (PCIe) -/
  ctoValue : Nat := 0
  /-- the port's link power state (R42, R530); reset L0, DESIGN CHOICE -/
  linkPower : LinkPower := .l0
  /-- Px_WAKE# is driven low after an alarm in STANDBY (R530); reset no -/
  wake : Bool := false
  deriving DecidableEq, Repr, Inhabited

/-! ### Collections and dispatch (03_collections_and_queues.md) -/

/-- A collection's attributes (R75). -/
structure Collection where
  bindingMode : Nat
  weight : Nat
  maxInflight : Nat
  c0Max : Nat
  /-- deficit left in the round robin of each wing and class (R100.3), by 4 * wing + class; reset 0 -/
  deficit : List Nat := [0, 0, 0, 0, 0, 0, 0, 0]
  deriving DecidableEq, Repr, Inhabited

/-- A wing's dispatcher (R100). -/
structure Dispatcher where
  /-- slot counter modulo 16, over which the shares of R521 and R522 are counted; reset 0 -/
  slot : Nat := 0
  /-- credits of C1, C2, C3 in the weighted fair share (R100.2); reset 0 -/
  credit : List Nat := [0, 0, 0]
  /-- the collection last served in each class (R100.3); reset 0 -/
  lastColl : List Nat := [0, 0, 0, 0]
  /-- the last queue served of each collection in each class, by 4 * collection + class, as a queue key (R100.4); reset 0 -/
  lastQueue : Tbl Nat := []
  deriving DecidableEq, Repr, Inhabited


/-! ### Catalogue, loans and the journal (05_catalogue_and_keys.md) -/

/-- What a key-making EXEC hands to the Registrar: the clear material and what step 5 fixed about it (R152, R161). -/
structure KeyMaterial where
  bytes : List Byte := []
  /-- 0 generated, 1 derived, 2 unwrapped, 3 clear import (R151) -/
  origin : Nat := 0
  /-- derivation function code (R170) -/
  kdf : Nat := 0
  /-- the parent's handle, when the entry has one (R170) -/
  parent : Option Word64 := none
  clearOrigin : Bool := false
  /-- a 48-byte template that takes the place of the output buffer's, for an unwrapped key (R163, R348); empty for none -/
  template : List Byte := []
  deriving DecidableEq, Repr, Inhabited

/-- The states of R157. -/
inductive EntryState where
  | active | withdrawn | revoked
  deriving DecidableEq, Repr, Inhabited

/-- A (index, generation) pair of a bound ancestor (R151, R171). -/
structure AncRef where
  index : Nat
  gen : Nat
  deriving DecidableEq, Repr, Inhabited

/-- A catalogue record by its fields (R151). -/
structure CatRecord where
  coll : Nat := 0
  index : Nat := 0
  gen : Nat := 0
  purpose : Nat := 0
  /-- 0 generated, 1 derived, 2 unwrapped, 3 clear import -/
  origin : Nat := 0
  cls : Nat := 0
  selector : Nat := 0
  deriveBound : Bool := false
  wrapExport : Bool := false
  stateful : Bool := false
  clearOrigin : Bool := false
  leaseMs : Nat := 0
  kdf : Nat := 0
  depth : Nat := 0
  ancestors : List AncRef := []
  binding : Nat := 0
  notBefore : Nat := 0
  notAfter : Nat := 0
  checkValue : List Byte := []
  classWord : Word32 := 0
  state : EntryState := .active
  destroyed : Bool := false
  pinned : Bool := false
  /-- material_length L -/
  length : Nat := 0
  extent : Nat := 0
  sealSeq : Nat := 0
  /-- the clear material: what the ciphertext of bytes 80-127, or the extent, decrypts to under the CBK (R152); empty once
  destroyed -/
  material : List Byte := []
  /-- the stored ciphertext or tag has been corrupted, so that delivery meets a tag failure (R152) -/
  corrupt : Bool := false
  /-- ciphertext and tag of a record restored while its collection has no CBK, which open when it has one (R174) -/
  stored : Option (List Byte) := none
  deriving DecidableEq, Repr, Inhabited

/-- A reservation held for an accession (R544): the job that holds it. -/
structure Reservation where
  coll : Nat
  index : Nat
  gen : Nat
  granules : Nat
  pin : Bool
  job : Nat
  ancestors : List AncRef
  deriving DecidableEq, Repr, Inhabited

/-- A loan (R164, R165). -/
structure Loan where
  coll : Nat
  index : Nat
  gen : Nat
  purpose : Nat
  job : Nat
  wing : Wing
  leaseNs : Nat
  /-- time of the grant or the last renewal, ns (R165) -/
  from_ : Nat
  ancestors : List AncRef
  /-- the entry has been revoked since, so that a renewal is refused (R165); reset no -/
  revoked : Bool := false
  /-- the record as the grant found it, with the material that a delivery uses (R130, R168) -/
  record : CatRecord
  deriving DecidableEq, Repr, Inhabited

/-- An entry of the invalidated-ancestor table (R172): the pair, whether revoked rather than withdrawn, whether its walk has
finished, and the seal that records the walk's last change. -/
structure Invalid where
  coll : Nat
  index : Nat
  gen : Nat
  revoked : Bool
  walked : Bool
  sealSeq : Nat
  deriving DecidableEq, Repr, Inhabited

/-- A wrap of a measurement-bound collection's CBK (R173, R174): the measurement set that it was made for, and the 256 random bits that
unwrapping it under that set gives. -/
structure CbkWrap where
  meas : List Byte
  key : List Byte
  deriving DecidableEq, Repr, Inhabited

/-- A change of the catalogue as it enters a seal (R176, R179). -/
inductive SealRecord where
  | entry (r : CatRecord)
  | state (r : CatRecord)
  /-- a collection with what forms its binding key: the wraps of a measurement-bound one, the floors of a version-bound one -/
  | collection (c : Nat) (attrs : Option Collection) (bound : List Fn) (wraps : List CbkWrap) (floors : List Nat)
  | loss (m : Nat) (hm : List Byte) (n : Nat)
  | pad
  deriving DecidableEq, Repr, Inhabited

/-- A closed seal that waits to be written (R176, R178). -/
structure ClosedSeal where
  seq : Nat
  checkpointBegin : Bool := false
  checkpointEnd : Bool := false
  lossAccepted : Bool := false
  rtc : Nat := 0
  records : List SealRecord
  /-- the seal holds a deaccession on the reserve of R183 -/
  reserve : Nat := 0
  /-- the block as formed when the head advanced to it before it was written, as ACCEPT_LOSS has it (R186) -/
  block : Option (List Byte) := none
  deriving DecidableEq, Repr, Inhabited

/-- The journal head of one of the 64 rotating MRAM slots (R180). -/
structure JournalHead where
  n : Nat := 0
  hn : List Byte := []
  gen : Nat := 0
  c : Nat := 1
  hc1 : List Byte := []
  deriving DecidableEq, Repr, Inhabited

/-- Restore state as JOURNAL_STATUS codes it (R182): 0 empty catalogue, 1 open, 2 restored. -/
inductive RestoreState where
  | empty | open_ | restored
  deriving DecidableEq, Repr, Inhabited

/-- A running checkpoint (R184): the sequences of its first and last seals, and H_{c-1} of the first once it is written. -/
structure Checkpoint where
  first : Nat
  last : Nat
  prev : List Byte
  deriving DecidableEq, Repr, Inhabited

/-- The journal and restore (R176 to R187). -/
structure Journal where
  /-- the current head (R180); reset n 0, H_n zero, generation 0, c 1 (a generation with no seal yet) -/
  head : JournalHead := {}
  /-- the MRAM slot the head was last written to, 0 to 63 (R180); reset 0 -/
  slot : Nat := 0
  /-- the 64 MRAM slots that have been written, each with its head and whether its CRC-32 verifies (R180); at manufacture none -/
  heads : Tbl (Option (JournalHead × Bool)) := []
  /-- the open seal's records, in Registrar order (R176); reset empty -/
  openSeal : List SealRecord := []
  /-- time of the open seal's first change, ns (R176) -/
  openSince : Nat := 0
  /-- flags the open seal will carry (R178) -/
  openBegin : Bool := false
  openEnd : Bool := false
  openReserve : Nat := 0
  /-- closed seals waiting in Curator SRAM, oldest first (R183); reset empty -/
  closed : List ClosedSeal := []
  /-- sequence of the last seal closed (R178) -/
  lastClosed : Nat := 0
  /-- ring base, size in bytes, 0 when not configured, and seal interval in µs (R181); reset 0, 0, 1,000 -/
  ringBase : Nat := 0
  ringSize : Nat := 0
  intervalUs : Nat := 1000
  /-- the port of the PF that configured the ring (R181) -/
  ringPort : Wing := .west
  /-- JOURNAL_CONFIG and JOURNAL_ACK received since the last restore (R183) -/
  configured : Bool := false
  acked : Bool := false
  /-- total bytes written to the ring and total acknowledged (R182, R183) -/
  written : Nat := 0
  ackedTo : Nat := 0
  /-- the ring totals at which written blocks not yet acknowledged end (R182) -/
  blockEnds : List Nat := []
  /-- the running checkpoint (R184); reset none -/
  checkpoint : Option Checkpoint := none
  /-- restore state (R182); reset empty -/
  restore : RestoreState := .empty
  /-- last sequence applied and its chain value (R185) -/
  applied : Nat := 0
  appliedChain : List Byte := []
  /-- blocks applied since RESTORE_BEGIN (R185) -/
  appliedAny : Bool := false
  /-- function bindings that COLLECTION records have brought, for the end of restore (R181): collection and functions -/
  bindings : List (Nat × List Fn) := []
  /-- the collections whose deletion the blocks applied by the restore under way record (R82) -/
  gone : List Nat := []
  deriving DecidableEq, Repr, Inhabited

/-- A revocation order that awaits the reachable loan desks' acknowledgements (R167). -/
structure RevOrder where
  coll : Nat
  index : Nat
  gen : Nat
  /-- wings that the order has not reached, and wings that have not acknowledged -/
  due : List Wing
  waits : List Wing
  /-- the job whose EXEC revokes, if it is one -/
  job : Option Nat
  deriving DecidableEq, Repr, Inhabited

/-- The Registrar's state (R150 to R175). -/
structure Catalogue where
  /-- current records, keyed by collection * 2^32 + index (R151, R154); reset empty (catalogue lost at reset, R69) -/
  records : Tbl (Option CatRecord) := []
  /-- highest generation ever issued at an index (R150), with those of released reservations (R544); reset none -/
  highest : Tbl Nat := []
  /-- reservations held (R544); reset none -/
  reserved : List Reservation := []
  /-- loans, by loan number (R164); reset none -/
  loans : Tbl (Option Loan) := []
  /-- next loan number -/
  nextLoan : Nat := 1
  /-- invalidated-ancestor table, at most 4,096 pairs (R172); reset empty -/
  invalidated : List Invalid := []
  /-- records in each wing's catalogue cache, by key, least recently used first (R155); reset empty -/
  cacheW : List Nat := []
  cacheE : List Nat := []
  /-- granules of extents in use (R152, R154) -/
  granulesUsed : Nat := 0
  /-- the wraps of measurement-bound collections' CBKs, by collection (R173, R174); reset: what MRAM keeps, at manufacture none -/
  wraps : Tbl (List CbkWrap) := []
  /-- per version-bound collection: the four floors recorded at creation (R173) -/
  floorsAt : Tbl (List Nat) := []
  /-- replaced generations with loans out, whose material is destroyed when the last of them returns (R157, R168); reset none -/
  replaced : List CatRecord := []
  /-- West's and East's loan desk holds the CBKs, loaded when the wing is admitted (R173, R175); reset no -/
  deskW : Bool := false
  deskE : Bool := false
  /-- deleted collections, whose binding in an owner policy is gone, each with that policy's body (R82); kept with the policy -/
  unbound : List (Nat × List Byte) := []
  /-- revocation orders sent and not acknowledged: (wing, collection, index, generation, job that revokes) (R167) -/
  orders : List RevOrder := []
  deriving DecidableEq, Repr, Inhabited

/-! ### Jobs (04_damob_reference.md) -/

/-- A byte of gallery memory: its value, its secret tag (R120), and the handle of its provenance tag
(R170), 0 for none. -/
structure GByte where
  b : Byte := 0
  secret : Bool := false
  mark : Word64 := 0
  deriving DecidableEq, Repr, Inhabited

/-- One scatter entry of a HOST descriptor (R118). -/
structure Scatter where
  addr : Nat
  len : Nat
  deriving DecidableEq, Repr, Inhabited

/-- What a buffer register holds (R117, R118): host scatter entries, an accession template, a part of the parameter block,
or a part of a gallery allocation. -/
inductive Buf where
  | host (parts : List Scatter)
  | template (body : List Byte)
  | inline (off len : Nat)
  | gallery (alloc off len : Nat)
  deriving DecidableEq, Repr, Inhabited

/-- A host read of an EXEC's input: which input of the window, its address and length, and the data once it has arrived
(R137 step 5). -/
structure ReadReq where
  input : Nat
  addr : Nat
  len : Nat
  got : Option (List Byte) := none
  deriving DecidableEq, Repr, Inhabited

/-- An output of a computed EXEC, in window order: its bytes, secret tag and provenance, or the key that a template position makes. -/
structure OutVal where
  bytes : List Byte := []
  secret : Bool := false
  mark : Word64 := 0
  key : Option KeyMaterial := none
  deriving DecidableEq, Repr, Inhabited

/-- What step 5 of an EXEC computed, held until the engine operation completes (R137). -/
structure ExecResult where
  status : Byte := 0
  outs : List OutVal := []
  scalar : Option Word64 := none
  verdict : Option Bool := none
  truncated : Bool := false
  /-- bytes of the first output released before verification (R337) -/
  released : Nat := 0
  deriving DecidableEq, Repr, Inhabited

/-- Where an EXEC stands. -/
inductive ExecStage where
  /-- waits for units of its engines (R36) -/
  | waitUnit
  /-- waits for a generator, since this time (R368) -/
  | waitEntropy (since : Nat)
  /-- waits for the tree cache, since this time (R267) -/
  | waitCache (since : Nat)
  /-- waits for a leaf reservation (R270) -/
  | waitLeaf
  | reading
  | running
  deriving DecidableEq, Repr, Inhabited

/-- The EXEC in progress in a job context (R137). -/
structure Exec where
  stage : ExecStage := .reading
  reads : List ReadReq := []
  result : Option ExecResult := none
  /-- the leaf taken for a stateful signature (R270), and the leaves then remaining (R272) -/
  leaf : Option Nat := none
  remaining : Nat := 0
  /-- time the EXEC began, ns -/
  began : Nat := 0
  /-- units it needs, by kind and count; kind 31 is a DMA read channel (R35) -/
  need : List (Nat × Nat) := []
  /-- the modulus in bits that the gallery's slots must fit, 0 for none (R306) -/
  slotBits : Nat := 0
  /-- its work is on secrets: an input is secret-tagged, or the context of its stream has the secret flag (R233, R245) -/
  secret : Bool := false
  deriving DecidableEq, Repr, Inhabited

/-- A pending accession: the reserved handle and the record that commits (R139, R544). -/
structure Pending where
  coll : Nat
  index : Nat
  gen : Nat
  vr : Nat
  record : CatRecord
  deriving DecidableEq, Repr, Inhabited

/-- A host write staged in a binding group (R139). -/
structure StagedWrite where
  addr : Nat
  bytes : List Byte
  deriving DecidableEq, Repr, Inhabited

/-- The binding group a job has open (R139). -/
structure Group where
  staged : List StagedWrite := []
  accessions : List Pending := []
  /-- status of the first failing member; 0 while none has failed -/
  failed : Byte := 0
  deriving DecidableEq, Repr, Inhabited

/-- Where a job stands between instructions. -/
inductive JobPhase where
  /-- waits for its parameter block or for PROGRAM_START (R25 stage 4) -/
  | placed
  /-- at an instruction boundary -/
  | ready
  /-- a LOAN or LOANP waits for its grant (R126) -/
  | loanWait
  /-- an EXEC is in progress -/
  | exec
  /-- ENDB has issued its group's writes and has not committed its accessions (R140, R141) -/
  | release
  deriving DecidableEq, Repr, Inhabited

/-- One job context in use (R112), with what the dispatcher latched for it. -/
structure Job where
  src : Src := .host default .admin
  coll : Nat := 0
  tag : Word32 := 0
  cls : Nat := 0
  irq : Bool := false
  wing : Wing := .west
  gallery : Nat := 0
  /-- in a context of the C0 reservation (R101) -/
  c0Ctx : Bool := false
  epoch : Nat := 0
  /-- doorbell arrival, ns (R95) -/
  arrival : Nat := 0
  /-- the library program's number; none for an inline program (R108) -/
  progNo : Option Nat := none
  prog : List Word64 := []
  /-- address and length of the parameter block; length 0 when there is none (R93) -/
  paramAddr : Nat := 0
  paramLen : Nat := 0
  params : List Byte := []
  /-- V0 to V15 (R112) -/
  v : List Word64 := List.replicate 16 0
  /-- H0 to H7: the loan number, or empty (R112) -/
  h : List (Option Nat) := List.replicate 8 none
  /-- B0 to B7 (R112) -/
  b : List (Option Buf) := List.replicate 8 none
  /-- S (R112) -/
  st : Byte := 0
  /-- F (R112, R123) -/
  f : Byte := 0
  /-- pc, 0 to 256 (R112) -/
  pc : Nat := 0
  /-- executed (R112) -/
  executed : Nat := 0
  phase : JobPhase := .placed
  /-- gallery allocations, in order (R118, R131) -/
  gmem : List (List GByte) := []
  exec : Option Exec := none
  group : Option Group := none
  /-- bytes of valid output written to host destinations (R95) -/
  outLen : Nat := 0
  /-- record flags gathered so far (R96) -/
  flags : BitVec 16 := 0
  /-- an outside event's status that ends the job at its next boundary (R147) -/
  ending : Option Byte := none
  /-- the microcode bank it started with (R307) -/
  bank : Nat := 0
  /-- handles of the entries it has created at stage 7, for the log of an aborted job (R69) -/
  made : List Word64 := []
  /-- curve blocks it has copied, by slot: kept although the table changes (R316) -/
  curves : Tbl (List Byte) := []
  /-- its context was lent by C0 and has been reclaimed: the job waits, suspended, for a context of its own (R34, R101) -/
  parked : Bool := false
  /-- an IDE stream that its DMA used has left the Secure state: its next DMA segment ends it (R64) -/
  streamLost : Bool := false
  /-- a Docent supervisor submitted it (R160, R485) -/
  supervisor : Bool := false
  /-- its internal queue was destroyed: no record is written (R479); reset no -/
  noRecord : Bool := false
  deriving DecidableEq, Repr, Inhabited

/-- What an engine's memory holds for the job of a grant: an LRE's share-memory bank and key registers (R188), an LSU's context bank (R190), a
BFE's partition (R286), a big-number engine's slots, its region of the public operand buffer and its key registers (R302, R305). Secret values stand for
their shares. Wiped with the grant (R29, R322); reset empty. -/
structure EngineMem where
  /-- the write-only key registers, as the loan desk delivered them (R188, R302) -/
  keyRegs : List Byte := []
  /-- secret operands and results in the bank, partition or slots -/
  secretOps : List (List Byte) := []
  /-- the job's region of the public operand buffer (R305) -/
  publicOps : List (List Byte) := []
  /-- the numbers of the slots that the job holds (R305) -/
  slots : List Nat := []
  deriving DecidableEq, Repr, Inhabited

/-- One of the two banks of the microcode stores (R302, R307): the version and the measurement of the bundle that it holds. -/
structure MicroBank where
  version : Word32 := 0
  meas : List Byte := []
  deriving DecidableEq, Repr, Inhabited

/-- A unit of an engine granted to a job (R35, R36): the resource, the job (0x100000 plus its number for a COMPAT page, 0x200000 plus 4 times its
ledger slot plus its number for a tree generation), the order of
the grant, whether the job is suspended, whether the job keeps only its bank or partition there between two EXECs (R189, R190, R286),
the unit's index, and what the unit's memory holds for the job. -/
structure Grant where
  res : Resource
  job : Nat
  seq : Nat
  suspended : Bool := false
  idle : Bool := false
  idx : Nat := 0
  mem : EngineMem := {}
  deriving DecidableEq, Repr, Inhabited

/-! ### The leaf ledger and the tree cache (08_hash_signatures_and_ledger.md) -/

/-- States of a ledger slot (R268). -/
inductive SlotState where
  | free | active | closed | reclaimable
  deriving DecidableEq, Repr, Inhabited

/-- A reserved block of leaves that a wing's issuer holds: the next leaf to issue and the end of the block (R270). -/
structure LeafBlock where
  start : Nat
  next : Nat
  stop : Nat
  deriving DecidableEq, Repr, Inhabited

/-- What a tree generation makes (R266, R267): the next subtree of the bottom level's window, the next instance of a level, or the whole cache anew. -/
inductive TreeWork where
  | subtree
  | instance_ (level : Nat)
  | rebuild
  deriving DecidableEq, Repr, Inhabited

/-- A tree generation in flight (R265, R266): its number among the key's, 0 to 3, what it makes, and the gallery whose lanes it holds. -/
structure TreeGen where
  number : Nat
  work : TreeWork
  gallery : Nat
  deriving DecidableEq, Repr, Inhabited

/-- One ledger slot (R268), the blocks the issuers hold for its key (R270), and its tree cache (R266). -/
structure LedgerSlot where
  /-- slot state (R268); reset: the slot table MRAM keeps; at manufacture free -/
  state : SlotState := .free
  /-- the key's handle (R268) -/
  handle : Word64 := 0
  /-- total leaves (R268) -/
  total : Nat := 0
  /-- next_unreserved, the lowest leaf never reserved (R268) -/
  next : Nat := 0
  /-- blocks held by West's and East's issuer, current first (R270); reset none (R271: all retired) -/
  blocksW : List LeafBlock := []
  blocksE : List LeafBlock := []
  /-- issuer positions as last reported: unissued leaves of each wing's blocks (R272) -/
  reportW : Nat := 0
  reportE : Nat := 0
  /-- the key has crossed its low threshold (R272) -/
  low : Bool := false
  /-- the tree cache covers leaves from `coverFrom` below `coverTo` (R266, R267); reset empty -/
  coverFrom : Nat := 0
  coverTo : Nat := 0
  /-- the cache is being rebuilt after restore (R267) -/
  rebuilding : Bool := false
  /-- heights of the key's levels, top first, and its selector, which fix its subtrees, its instances and its lanes (R266, R265) -/
  heights : List Nat := []
  selector : Nat := 0
  /-- for each level, the leaf of the key below which its instances have been generated and signed by the level above (R266) -/
  instances : List Nat := []
  /-- the key's tree generations in flight, oldest first, at most 4 (R266); reset none -/
  gens : List TreeGen := []
  /-- next_unreserved as of each wing's latest grant (R272) -/
  seenW : Nat := 0
  seenE : Nat := 0
  /-- checkpoints begun, as Ledger.checkpoints counts them, when the slot closed (R273) -/
  closedAt : Nat := 0
  /-- the last two blocks granted to each wing, for the event log at reset (R271) -/
  grantedW : List (Nat × Nat) := []
  grantedE : List (Nat × Nat) := []
  deriving DecidableEq, Repr, Inhabited

/-- One entry of the reservation log (R269). -/
structure LogEntry where
  slot : Nat := 0
  east : Bool := false
  close : Bool := false
  phase : Bool := false
  start : Nat := 0
  count : Nat := 0
  deriving DecidableEq, Repr, Inhabited

/-- The query registers that a write to LEDGER_QSLOT latches (R283). -/
structure LedgerQuery where
  slot : Nat := 0
  handle : Word64 := 0
  total : Nat := 0
  next : Nat := 0
  remain : Nat := 0
  qstate : Word32 := 0
  deriving DecidableEq, Repr, Inhabited

/-- The ledger (R268 to R274, R283). -/
structure Ledger where
  /-- LEDGER_CFG (R283), reset 0x00320008 -/
  cfg : Word32 := 0x00320008
  /-- LEDGER_LOW (R283), reset 0x0A -/
  low : Word32 := 0x0000000A
  /-- the 65,536 slots (R268); kept in MRAM; at manufacture all free -/
  slots : Tbl LedgerSlot := []
  /-- the two table copies' next_unreserved, by slot, and the log position each was taken at (R269) -/
  copyA : Tbl Nat := []
  copyB : Tbl Nat := []
  posA : Nat := 0
  posB : Nat := 0
  newerB : Bool := false
  /-- a copy has been written whole since manufacture: a valid copy (R269) -/
  validA : Bool := false
  validB : Bool := false
  /-- reservation log entries, by position 0 to 262,143 (R269); at manufacture empty -/
  log : Tbl (Option LogEntry) := []
  /-- next log position and ring phase (R269) -/
  logPos : Nat := 0
  phase : Bool := false
  /-- LEDGER_WEAR: log wraps since manufacture (R283); reset per part, DESIGN CHOICE 0 -/
  wear : Nat := 0
  /-- LEDGER_STATUS.ready (R283), reset 0 -/
  ready : Bool := false
  /-- LEDGER_LOW_SLOT (R283), reset 0: slot of the first key to cross its threshold -/
  lowSlot : Option Nat := none
  /-- the query registers (R283), reset 0 -/
  query : LedgerQuery := {}
  /-- checkpoints begun since manufacture, against which a slot's close is dated (R273) -/
  checkpoints : Nat := 0
  deriving DecidableEq, Repr, Inhabited

/-! ### COMPAT pages (11_symmetric_and_payment.md) -/

/-- One SK40 register page (R352). -/
structure CompatPage where
  /-- COMPAT_CTRL, reset 0 -/
  ctrl : Word32 := 0
  /-- COMPAT_STATUS.busy, .done, .status, reset 0 -/
  busy : Bool := false
  done : Bool := false
  status : Byte := 0
  /-- COMPAT_LEN, reset 0 -/
  len : Word32 := 0
  /-- COMPAT_HANDLE_LO, _HI, reset 0 -/
  handleLo : Word32 := 0
  handleHi : Word32 := 0
  /-- COMPAT_KEY_0 to _7 as accepted (write-only), reset none held -/
  key : List Word32 := [0, 0, 0, 0, 0, 0, 0, 0]
  keyLoaded : Bool := false
  /-- COMPAT_IV_0 to _3, reset 0 -/
  iv : List Word32 := [0, 0, 0, 0]
  /-- COMPAT_DIN, by word, reset 0 -/
  din : Tbl Word32 := []
  /-- COMPAT_DOUT, by word, reset 0 -/
  dout : Tbl Word32 := []
  /-- the loan of the running operation (R353) -/
  loan : Option Nat := none
  /-- the operation waits for its collection's limit (R353) -/
  waiting : Bool := false
  deriving DecidableEq, Repr, Inhabited

/-! ### Galleries and units (06 to 12, 16) -/

/-- One gallery's state beside its units (R15, R295, R306, R307). -/
structure Gallery where
  /-- the key resident in the BFE's public-key buffer: collection, index, generation (R295); reset none -/
  resident : Option (Nat × Nat × Nat) := none
  /-- a RESIDE load or eviction that waits for the BFE's next job boundary (R295) -/
  queuedLoad : Option (Option (Nat × Nat × Nat)) := none
  /-- the RESIDE EXEC's job that queued it, which completes once it has taken effect or waits behind a key generation (R295); reset 0 -/
  loadBy : Nat := 0
  /-- the key that key generation evicted and that reloads after it (R296) -/
  reload : Option (Nat × Nat × Nat) := none
  /-- slot_len of the big-number engines' memory as partitioned (R306); reset 1 -/
  slotLen : Nat := 1
  /-- the classical capability is withheld for a repartition (R306) -/
  repartition : Option Nat := none
  /-- under CONS_GRESET or a reset ordered by the Curator (R452) -/
  inReset : Bool := false
  /-- a reset of the gallery has been ordered by CONS_GRESET and not yet begun (R454) -/
  resetOrdered : Bool := false
  /-- engines whose wipe has not completed, as (kind, index), the oldest first (R29) -/
  wiping : List (Nat × Nat) := []
  /-- context-store entries in use, of 512 (R15, R330) -/
  ctxStore : Nat := 0
  deriving DecidableEq, Repr, Inhabited

/-- One unit of R443 (16_conservation_and_change.md). -/
inductive Service where
  | inService | spare | fenced
  deriving DecidableEq, Repr, Inhabited

/-! ### Entropy (12_entropy.md) -/

/-- Where a source stands (R361 to R363, R373). -/
inductive SourcePhase where
  | absent
  /-- the first 128 samples and the 1,024 of the start-up test -/
  | startup
  | healthy
  | isolated
  deriving DecidableEq, Repr, Inhabited

/-- One entropy source (R358, R361). -/
structure Source where
  phase : SourcePhase := .startup
  /-- samples since the source (re)started (R358) -/
  samples : Nat := 0
  /-- 6-bit balance trim (R358); reset 32, DESIGN CHOICE -/
  trim : BitVec 6 := 32
  /-- adjustments in a row with the trim at 0 or 63 (R358) -/
  saturated : Nat := 0
  /-- ones among the samples since the last adjustment (R358) -/
  ones : Nat := 0
  /-- samples since the last adjustment -/
  sinceAdj : Nat := 0
  /-- the last sample and its run length (R361 repetition count) -/
  last : Bool := false
  run : Nat := 0
  /-- adaptive-proportion window: its first value, samples taken and matches (R361) -/
  winFirst : Bool := false
  winLen : Nat := 0
  winHits : Nat := 0
  deriving DecidableEq, Repr, Inhabited

/-- One DRBG instance (R365). -/
structure DrbgState where
  /-- instantiated (R365, R369); reset no -/
  inst : Bool := false
  /-- the working state, 48 bytes of Key and V (R360); reset none -/
  state : List Byte := []
  /-- requests and time since the last reseed (R365) -/
  requests : Nat := 0
  reseededAt : Nat := 0
  /-- a reseed has been requested, at this time (R365, R366) -/
  wanted : Option Nat := none
  /-- stopped: full interval without a reseed, or below the healthy minimum and not reseeded since (R365, R367) -/
  stopped : Bool := false
  /-- stopped because its pool fell below the healthy minimum (R367, R375 stop_w, stop_e); reset no -/
  low : Bool := false
  /-- time since which it produces nothing, ns (R368); reset 0 -/
  silentAt : Nat := 0
  /-- generate calls since the last known-answer test (R365) -/
  calls : Nat := 0
  /-- the known-answer test that an instantiation needs has passed (R365) -/
  tested : Bool := false
  deriving DecidableEq, Repr, Inhabited

/-- One masking generator (R365). -/
structure MaskState where
  seeded : Bool := false
  /-- the 32 bytes it was seeded with (R365); reset none -/
  seed : List Byte := []
  reseededAt : Nat := 0
  wanted : Option Nat := none
  /-- stopped at 2^25 cycles without a reseed (R365) -/
  stopped : Bool := false
  deriving DecidableEq, Repr, Inhabited

/-- A conditioner's pool (R363, R364): raw bits that wait for their turn, the block in progress, and conditioned blocks not yet
delivered. Reset empty. -/
structure PoolState where
  /-- by source: samples that wait for the round robin, each as its number and its bit, oldest first (R364) -/
  queues : Tbl (List (Nat × Bool)) := []
  /-- the source at which the round robin goes on (R364) -/
  turn : Nat := 0
  /-- raw bits of the block in progress, at most 1,024, oldest first (R364) -/
  taken : List Bool := []
  /-- sources that contributed to the block in progress, each with the number of its latest sample in it (R363) -/
  contributors : List (Nat × Nat) := []
  /-- what is left undelivered of the conditioned blocks, in halves of 128 bits, the unit in which R365 takes them, oldest first, each half with
  the contributors of its block (R363) -/
  blocks : List (List Byte × List (Nat × Nat)) := []
  deriving DecidableEq, Repr, Inhabited

/-- The entropy chain (R358 to R375). -/
structure Entropy where
  /-- ENTROPY_CFG (R375), reset 0x00180014 -/
  cfg : Word32 := 0x00180014
  /-- the 72 sources by number (R359); reset: present ones in start-up -/
  sources : Tbl Source := []
  /-- DRBG instances by key (R365); reset not instantiated -/
  drbgs : Tbl DrbgState := []
  /-- masking generators by key (R365); reset not seeded -/
  masks : Tbl MaskState := []
  /-- pools: 0 West, 1 East, 2 Curator (R364); reset empty -/
  pools : Tbl PoolState := []
  /-- ENTROPY_STATUS.ready_west, ready_east (R369), reset 0 -/
  readyW : Bool := false
  readyE : Bool := false
  /-- ENTROPY_LASTFAIL (R375), reset 0 -/
  lastFail : Word32 := 0
  /-- ENTROPY_WAITS (R375), reset 0 -/
  waits : Nat := 0
  /-- ENTROPY_RAWTEST (R375), reset 0 -/
  rawTest : Word32 := 0
  /-- raw FIFO: words available, oldest first, at most 1,024 (R374); reset empty -/
  rawFifo : List Word32 := []
  /-- samples of the word in progress, by source of the group, oldest first (R374); reset none -/
  rawBits : Tbl (List Bool) := []
  /-- ENTROPY_RAWSTAT.overflow (R374), reset 0 -/
  rawOverflow : Bool := false
  deriving DecidableEq, Repr, Inhabited

/-! ### Storeroom (13_storeroom.md) -/

/-- One DDR5 channel: 0 W0, 1 W1, 2 E0, 3 E1 (R397). -/
structure Channel where
  /-- STORE_CHAN_c.state: 0 absent, 1 training, 2 in service, 3 retired; reset 0 -/
  state : Nat := 0
  rate : Nat := 0
  widthX8 : Bool := false
  rdimm : Bool := false
  twoRanks : Bool := false
  capacityGb : Nat := 0
  density : Nat := 0
  /-- the highest rate that its devices declare and pass training at (R376), reset 0 -/
  top : Nat := 0
  /-- refreshed at twice the rate: its DRAM is above 85 degrees (R376), reset no -/
  refresh2x : Bool := false
  /-- STORE_CHAN_c.failed, reset 0 -/
  failed : Bool := false
  /-- STORE_CE_c, STORE_UE_c (R397), reset 0 -/
  ce : Nat := 0
  ue : Nat := 0
  /-- times of uncorrectable bursts in the last 24 hours (R392) -/
  ueTimes : List Nat := []
  /-- a retirement request waits for STORE_RETIRE (R392) -/
  asked : Bool := false
  /-- a retirement copy of this channel runs (R392) -/
  retiring : Bool := false
  deriving DecidableEq, Repr, Inhabited

/-- One tile of a wing's Storeroom (R382 to R391). -/
structure Tile where
  /-- version in its level-1 node (R384); reset 0 -/
  version : Nat := 0
  /-- content, 4 KiB as written; empty before the first write: reads zeros (R384) -/
  data : List Byte := []
  /-- in the metadata reserve (R379, R382): the version echo and the GCM tag of the last write -/
  echo : Nat := 0
  tag : List Byte := []
  /-- corrected bursts in this patrol pass (R391) -/
  ceThisPass : Nat := 0
  /-- the patrol has read it in this pass (R390) -/
  patrolled : Bool := false
  /-- the tile reads as a media failure until a whole-tile write (R388) -/
  mediaFailed : Bool := false
  /-- integrity or stale on both copies: entries in it cannot be lent (R388) -/
  unlendable : Bool := false
  /-- tile map override: re-homed to the wing's channel 0 or 1 (R381, R391) -/
  home : Option Nat := none
  deriving DecidableEq, Repr, Inhabited

/-- A counter node of levels 1 to 3 (R383, R384). -/
structure Node where
  /-- its own version, in its parent (R384); reset 0 -/
  version : Nat := 0
  /-- dirty since this time, ns (R384) -/
  dirtyAt : Option Nat := none
  /-- when it was verified last, ns (R394): as it was fetched, patrolled or written back -/
  verifiedAt : Nat := 0
  /-- the patrol has read it in this pass (R390) -/
  patrolled : Bool := false
  /-- version echo and tag of its last write-back (R382) -/
  echo : Nat := 0
  tag : List Byte := []
  deriving DecidableEq, Repr, Inhabited

/-- A wing's half of the Storeroom (R381 to R397). -/
structure StoreWing where
  /-- the tile key that the gate holds (R385), 32 bytes; empty: none; reset none -/
  tileKey : List Byte := []
  /-- initialised under R384; reset no -/
  initDone : Bool := false
  tiles : Tbl Tile := []
  /-- counter nodes by 2^29 * level + number (R383) -/
  nodes : Tbl Node := []
  /-- root: versions of the level-3 nodes (R383), in Curator SRAM; reset 0 -/
  root : Tbl Nat := []
  /-- level-3 nodes whose write-back waits for the Curator's root update (R384) -/
  rootDue : List Nat := []
  /-- the nodes of levels 1 and 2 in the node cache, the latest used first (R383); level-3 nodes are always held -/
  cache : List Nat := []
  /-- spare tiles remaining on each of the wing's channels (R379); reset per population: 0 -/
  spares0 : Nat := 0
  spares1 : Nat := 0
  /-- the wing's copies of mirrored regions are stale (R394) -/
  stale : Bool := false
  deriving DecidableEq, Repr, Inhabited

/-- The Storeroom's registers and both wings (R397). -/
structure Storeroom where
  /-- STORE_CFG (R397), reset 0x2418 -/
  cfg : Word32 := 0x00002418
  /-- channels 0 to 3; reset absent -/
  channels : Tbl Channel := []
  west : StoreWing := {}
  east : StoreWing := {}
  /-- STORE_STATUS.retire_blocked, .refresh (R397), reset 0 -/
  retireBlocked : Bool := false
  refresh : Bool := false
  /-- STORE_INTEG (R397), reset 0 -/
  integ : Nat := 0
  stale : Nat := 0
  /-- STORE_LASTFAIL, STORE_LASTFAIL_NUM (R397), reset 0 -/
  lastFail : Word32 := 0
  lastFailNum : Word32 := 0
  /-- STORE_REGIONS (R397), reset per policy -/
  regions : Word32 := 0
  /-- STORE_PATROL (R397): passes completed, reset 0 -/
  passes : Nat := 0
  /-- the time at which the current patrol pass began, or the next may begin (R390) -/
  passStart : Nat := 0
  /-- the Storeroom master key, unwrapped in the Curator (R385, R406), 32 bytes; empty: none; reset none -/
  masterKey : List Byte := []
  deriving DecidableEq, Repr, Inhabited

/-! ### Boot, lifecycle, debug and the Curator mailbox (14_boot_lifecycle_attestation.md) -/

/-- The Storeroom master key wrapped for a Curator firmware image: the MEAS0 it is wrapped for, and the key (R408). -/
structure MasterWrap where
  meas : List Byte
  key : List Byte
  deriving DecidableEq, Repr, Inhabited

/-- Lifecycle states (R410, R414). -/
inductive Lifecycle where
  | manufacture | provisioned | owned | decommissioned | scrapped
  deriving DecidableEq, Repr, Inhabited

/-- One view of the Curator mailbox (R415): a PF's CURMB block, or a supervisor's slot (R485). -/
structure Curmb where
  /-- CURMB_MSG, reset 0 -/
  msg : Word32 := 0
  /-- CURMB_BUF_LO, _HI, reset 0 -/
  bufLo : Word32 := 0
  bufHi : Word32 := 0
  /-- CURMB_BUFLEN, reset 0 -/
  bufLen : Word32 := 0
  /-- CURMB_STATUS.busy, .done, .status, reset 0 -/
  busy : Bool := false
  done : Bool := false
  status : Byte := 0
  /-- CURMB_REPLYLEN, reset 0 -/
  replyLen : Word32 := 0
  deriving DecidableEq, Repr, Inhabited

/-- A custodian key of the owner policy (R409). -/
structure Custodian where
  alg : Nat
  key : List Byte
  deriving DecidableEq, Repr, Inhabited

/-- An outstanding nonce (R409): its value and the time it was issued, ns. -/
structure Nonce where
  value : List Byte
  at_ : Nat
  deriving DecidableEq, Repr, Inhabited

/-- A submitted authorisation of action 0x10 or 0x12 (R409): the parameter and its RTC expiry. -/
structure Authorisation where
  action : Nat
  param : Nat
  until_ : Nat
  deriving DecidableEq, Repr, Inhabited

/-- A copy of the flash directory as boot ROM reads it (R399): its sequence, and by image type whether slot B is preferred. -/
structure DirCopy where
  seq : Nat
  slotB : BitVec 4
  deriving DecidableEq, Repr, Inhabited

/-- Boot, identity and lifecycle (R398 to R417). -/
structure Boot where
  /-- size of the flash device in MiB, 64, 128 or 256, and whether its SFDP table declares the octal DTR mode (R398); properties of the board:
  64 MiB and octal, DESIGN CHOICE, log entry 146 -/
  flashMib : Nat := 64
  flashOctal : Bool := true
  /-- the flash is read in 8D-8D-8D mode (R398); reset no: 1S-1S-1S -/
  octal : Bool := false
  /-- flash contents, unlisted bytes 0xFF (R399) -/
  flash : List Host.Cell := []
  /-- the two directory copies where they are valid (R399); at manufacture none -/
  dirA : Option DirCopy := none
  dirB : Option DirCopy := none
  /-- the microcode or the supervisor was not accepted: no wing is admitted (R402); reset no -/
  wingsOut : Bool := false
  /-- DEV_LIFECYCLE.state (R414), per fuses: MANUFACTURE -/
  lifecycle : Lifecycle := .manufacture
  /-- DEV_LIFECYCLE.transfers (R414), per fuses: 0 -/
  transfers : Nat := 0
  /-- DEV_LIFECYCLE.vendor_keys (R414): revoked slots, per fuses: none -/
  vendorRevoked : BitVec 4 := 0
  /-- debug level unlocked: 0 none, 1 vendor, 2 owner (R412); reset 0 -/
  debug : Nat := 0
  /-- DEV_BOOT.stage (R414); reset 0 ROM -/
  stage : Nat := 0
  /-- DEV_BOOT.slots (R414), reset 0 -/
  slots : BitVec 4 := 0
  /-- DEV_BOOT.reject_a, reject_b, reject_type (R414), reset 0 -/
  rejectA : Nat := 0
  rejectB : Nat := 0
  rejectType : Nat := 0
  /-- DEV_CURVER, DEV_UCVER, DEV_SUPVER and the policy's version (R414); reset per image: 0 before boot -/
  versions : List Word32 := [0, 0, 0, 0]
  /-- svn of the running image of each type (R404) -/
  svns : List Nat := [0, 0, 0, 0]
  /-- floors, MRAM (R404): 0 at manufacture -/
  floors : List Nat := [0, 0, 0, 0]
  /-- MEAS0 to MEAS3 (R401); reset 48 zero bytes each -/
  meas : List (List Byte) := [[], [], [], []]
  /-- the body of the running owner policy (R46, R402); none installed -/
  policyBody : Option (List Byte) := none
  /-- the installed policy was rejected at boot (R402) -/
  policyFailed : Bool := false
  /-- SSK as a 256-bit number, none when erased or not drawn (R173, R410); at manufacture none -/
  ssk : Option Nat := none
  /-- journal generation counter (R173) -/
  journalGen : Nat := 0
  /-- Storeroom master-key wraps by Curator slot: the MEAS0 each was made for (R408) -/
  wrapA : Option MasterWrap := none
  wrapB : Option MasterWrap := none
  /-- custodians and threshold (R409) -/
  custodians : List Custodian := []
  threshold : Nat := 0
  /-- nonces outstanding, oldest first, at most 16 (R409); reset none -/
  nonces : List Nonce := []
  /-- DEBUG_CHALLENGE nonces with their levels (R416) -/
  challenges : List (Nat × Nonce) := []
  /-- authorisations in effect (R409) -/
  auths : List Authorisation := []
  /-- the owner's root certificates (R410, R413) -/
  ownerRoots : List Byte := []
  /-- CERT_INSTALL has filled SPDM slot 1 (R413); at manufacture no -/
  slot1 : Bool := false
  /-- times alias certificates were issued, and those of slots 0 and 1 as issued (R413); none before boot issues them -/
  aliasIssued : Nat := 0
  aliases : Option (List Byte × List Byte) := none
  /-- time boot started, ns (R406) -/
  startedAt : Nat := 0
  /-- straps as sampled at PWRON_RST# release (R533, R510) -/
  straps : BitVec 6 := 0
  /-- PWRON_RST# is asserted -/
  inReset : Bool := true
  deriving DecidableEq, Repr, Inhabited

/-! ### Tamper and standing orders (15_tamper_and_standing_orders.md) -/

/-- A tamper order (R430). -/
structure TamperOrder where
  seq : Word32 := 0
  /-- TAMPER_ACT_OP, _SB, _OFF (R442), reset 0x400 -/
  actOp : Word32 := 0x00000400
  actSb : Word32 := 0x00000400
  actOff : Word32 := 0x00000400
  /-- ext_polarity, reset 0 -/
  polarity : BitVec 8 := 0
  /-- TAMPER_EXTFILT (R442), reset 0x22222222 -/
  filter : Word32 := 0x22222222
  hostErase : Bool := false
  outLow : Bool := false
  deriving DecidableEq, Repr, Inhabited

/-- A spares order (R451). -/
structure SparesOrder where
  seq : Word32 := 0
  unitAsk : BitVec 16 := 0
  channelAsk : Bool := false
  deriving DecidableEq, Repr, Inhabited

/-- A frozen job's record that waits for the report phase (R423). -/
structure FrozenRec where
  src : Src
  coll : Nat
  cls : Nat
  tag : Word32
  epoch : Nat
  arrival : Nat
  flags : BitVec 16
  irq : Bool
  deriving DecidableEq, Repr, Inhabited

/-- A trip that waits for ORDER_APPLY, with what it was detected under: the power state, the action as its event record codes it, and
the sequence of the order then in effect (R429, R433, R441). -/
structure HeldTrip where
  trip : Trip
  state : Nat
  action : Nat
  orderSeq : Word32
  deriving DecidableEq, Repr, Inhabited

/-- The armed copy of the tamper order in BBRAM: the STANDBY and OFF action words, the external-input settings and the sequence (R426); its values
before an order are those of R432. -/
structure ArmedOrder where
  seq : Word32 := 0
  actSb : Word32 := 0x00000400
  actOff : Word32 := 0x00000400
  polarity : BitVec 8 := 0
  filter : Word32 := 0x22222222
  deriving DecidableEq, Repr, Inhabited

/-- An under-voltage of a core rail that has frozen the device and that 100 µs decide (R419): the die, the trip as detected, the time in ns, and
whether the freeze began with it. -/
structure RailDip where
  die : Die
  held : HeldTrip
  at_ : Nat
  froze : Bool
  deriving DecidableEq, Repr, Inhabited

/-- The tamper domain (R418 to R442). -/
structure Tamper where
  /-- TAMPER_LATCH (R442), battery domain; 0 at manufacture -/
  latch : BitVec 16 := 0
  /-- TAMPER_LIVE (R442), per sensors: 0 -/
  live : BitVec 16 := 0
  /-- the order in effect and the held one with its not_before (R429) -/
  order : TamperOrder := {}
  heldOrder : Option (Nat × TamperOrder) := none
  spares : SparesOrder := {}
  heldSpares : Option (Nat × SparesOrder) := none
  /-- TAMPER_VBAT (R442): 3,000 mV, DESIGN CHOICE -/
  vbat : Nat := 3000
  /-- TAMPER_EVSEQ (R442): newest record's sequence; 0 at manufacture -/
  evSeq : Nat := 0
  /-- TAMPER_EVSEL (R442), reset 0 -/
  evSel : Word32 := 0
  /-- the event ring, newest first, at most 63 records of 32 bytes, and its write position (R426, R441); at manufacture none and 0 -/
  ring : List (List Byte) := []
  ringPos : Nat := 0
  /-- the armed copy of the order in BBRAM (R426, R429) -/
  armed : ArmedOrder := {}
  /-- TAMPER_FREEZES (R442): 0 at manufacture -/
  freezes : Nat := 0
  /-- TAMPER_STATUS.frozen, .hold, .erased, .report_phase (R442), reset 0 / per BBRAM: 0 -/
  frozen : Bool := false
  hold : Bool := false
  erased : Bool := false
  reportPhase : Bool := false
  /-- the freeze came from the loss of the Curator (R462), or from a class -/
  lostFreeze : Bool := false
  /-- classes tripped whose records and erase are still to come (R421, R423, R429) -/
  trips : List HeldTrip := []
  /-- the Curator is still to apply the standing order, after a freeze or at a boot into TAMPER_HOLD (R407, R423); reset no -/
  orderDue : Bool := false
  /-- core rails' under-voltages whose 100 µs run (R419); reset none -/
  railDips : List RailDip := []
  /-- an erase has begun and its last step is still to come (R434) -/
  erasing : Bool := false
  /-- an erase of SSK is recorded in BBRAM: by a standing order, ERASE or DECOMMISSION (R410, R427); at manufacture no -/
  sskErased : Bool := false
  /-- jobs ended by the freeze whose records wait for the report phase (R423) -/
  frozenJobs : List FrozenRec := []
  jobsFrozen : Nat := 0
  /-- TMP_OUT and ALERT# asserted (R440), reset no -/
  tmpOut : Bool := false
  alert : Bool := false
  deriving DecidableEq, Repr, Inhabited

/-! ### Service continuity (16_conservation_and_change.md) -/

/-- One unit's health (R443, R444, R448). -/
structure UnitState where
  svc : Service := .inService
  /-- service generation (R444), reset 1 -/
  gen : Nat := 1
  /-- error count (R448), reset 0 -/
  errors : Nat := 0
  /-- awaiting promotion under ASK (R452) -/
  ask : Bool := false
  /-- the last self-test failed (R476) -/
  stFail : Bool := false
  /-- its place was filled by a promotion (R453) -/
  replaced : Bool := false
  /-- a re-admission self-test runs (R453) -/
  readmitting : Bool := false
  /-- a Keccak lane that serves as one of the 16 masked lanes (R15, R234) -/
  masked : Bool := false
  /-- time of the last error-count decay, ns (R448) -/
  decayAt : Nat := 0
  deriving DecidableEq, Repr, Inhabited

/-- Voting mode of the Curator (R456). -/
inductive VoteMode where
  | triple | dual | lost
  deriving DecidableEq, Repr, Inhabited

/-- One link (R457): up, when each end last received a valid flit, and the retraining. -/
structure LinkState where
  /-- reset 0: down until keys are drawn (R20) -/
  up : Bool := false
  /-- time it was last declared up, ns (R463) -/
  upAt : Nat := 0
  /-- last valid flit at the first-named and second-named end, ns (R457) -/
  rxFirst : Nat := 0
  rxSecond : Nat := 0
  /-- clean traffic since this time, ns, while the link is down and retrained (R457) -/
  cleanSince : Option Nat := none
  /-- time of the last retraining, ns (R457) -/
  lastRetrain : Nat := 0
  /-- the key that encrypts and authenticates its flits, drawn at boot and at a wing reset (R19); reset none -/
  key : Option (List Byte) := none
  deriving DecidableEq, Repr, Inhabited

/-- A validated item of a configuration transaction's item list (R465). -/
inductive CfgItem where
  | programSet (n : Nat) (prog : List Word64)
  | programRemove (n : Nat)
  | curveSet (selector : Nat) (block : List Byte)
  | curveRemove (selector : Nat)
  | imageActivate (type slot : Nat)
  deriving DecidableEq, Repr, Inhabited

/-- The open configuration transaction and the CFGTX registers (R464, R477). -/
structure Cfgtx where
  /-- CFGTX_STATUS.state: 0 idle, 1 open, 2 committing; reset 0 -/
  state : Nat := 0
  /-- CFGTX_STATUS.owner, reset 0 -/
  owner : Nat := 0
  /-- CFGTX_STATUS.result, reset 0 -/
  result : Byte := 0
  /-- CFGTX_OPTS.retire, reset 0 -/
  retire : Bool := false
  /-- CFGTX_FAILAT, reset 0 -/
  failAt : Word32 := 0
  /-- CFGTX_ITEMS_LO, _HI, _LEN, reset 0 -/
  itemsLo : Word32 := 0
  itemsHi : Word32 := 0
  itemsLen : Word32 := 0
  /-- CFGTX_CFG, reset 0x000A000A -/
  cfg : Word32 := 0x000A000A
  /-- staged values by BAR0 offset (R464); reset none -/
  staged : Tbl (Option Word32) := []
  /-- items read at commit, validated, waiting for the switch (R466) -/
  items : List CfgItem := []
  /-- time of the commit and of the owner's last write, ns (R468, R470) -/
  commitAt : Nat := 0
  lastWrite : Nat := 0
  /-- units whose inactive bank is still to be loaded for an IMAGE_ACTIVATE of type 1 (R307, R468) -/
  toLoad : List Nat := []
  /-- the drain is over and only bank loads remain (R468) -/
  drained : Bool := false
  deriving DecidableEq, Repr, Inhabited

/-- The Curator firmware hand-over (R473, R474). -/
structure Handover where
  /-- state: 0 none, 1 preparing, 2 pending, 3 paused, 4 done, 5 failed; reset 0 -/
  state : Nat := 0
  reason : Nat := 0
  slot : Nat := 0
  leadMs : Nat := 50
  /-- time of the current phase's start, ns -/
  since : Nat := 0
  pauseUs : Nat := 0
  newMeas : List Byte := []
  newVersion : Word32 := 0
  newSvn : Nat := 0
  deriving DecidableEq, Repr, Inhabited

/-- The Conservator's and Curator's continuity state (R443 to R463, R476). -/
structure Continuity where
  /-- CONS_CFG (R476), reset 0x003C3C08 -/
  cfg : Word32 := 0x003C3C08
  /-- units by 18-bit identifier (R443); reset: in service or spare, generation 1 -/
  units : Tbl (Option UnitState) := []
  vote : VoteMode := .triple
  wingLink : LinkState := {}
  curW : LinkState := {}
  curE : LinkState := {}
  /-- CONS_STATUS.orphan_w, _e, admitted_w, _e, reset 0 -/
  orphanW : Bool := false
  orphanE : Bool := false
  admittedW : Bool := false
  admittedE : Bool := false
  /-- a halted orphan (R461): report-only -/
  haltedW : Bool := false
  haltedE : Bool := false
  /-- the wing has been reset for re-admission, whose steps 2 to 6 go on (R463); reset no -/
  returningW : Bool := false
  returningE : Bool := false
  /-- CONS_EVENT, CONS_EVENT_GEN, reset 0 -/
  event : Word32 := 0
  eventGen : Word32 := 0
  /-- CONS_FENCES, CONS_FENCED_TRAFFIC, reset 0 -/
  fences : Nat := 0
  fencedTraffic : Nat := 0
  /-- units awaiting promotion under ASK, oldest first (R452), reset none -/
  asks : List Nat := []
  /-- promotions ordered by CONS_PROMOTE or under AUTO and not yet made (R452) -/
  promoting : List Nat := []
  /-- CONS_UNITSEL, reset 0 -/
  unitSel : Word32 := 0
  /-- CONS_LINKDOWN counts, reset 0 -/
  downWing : Nat := 0
  downW : Nat := 0
  downE : Nat := 0
  /-- the link keys have been drawn (R20); reset no -/
  linkKeys : Bool := false
  /-- a recalibration pass has been ordered by CONS_RECAL and not yet run (R450); reset no -/
  recalPass : Bool := false
  /-- recalibration: time and temperature of the last run (R450) -/
  recalAt : Nat := 0
  recalTemp : Int := 25
  deriving DecidableEq, Repr, Inhabited

/-! ### Docents and access units (17_docents_and_access.md) -/

/-- One window of an access unit (R486, R488). -/
structure Window where
  /-- AU_WBASE, AU_WTGT_LO, AU_WTGT_HI, AU_WCTRL; reset per R486 -/
  base : Word32 := 0
  tgtLo : Word32 := 0
  tgtHi : Word32 := 0
  ctrl : Word32 := 0
  deriving DecidableEq, Repr, Inhabited

/-- One access unit (R488). -/
structure AccessUnit where
  /-- AU_SLOT_0 to _7, reset 0 -/
  slots : List Word32 := [0, 0, 0, 0, 0, 0, 0, 0]
  /-- windows 0 to 7, reset per R486 -/
  windows : List Window := List.replicate 8 {}
  /-- AU_VINFO, reset 0 -/
  vinfo : Word32 := 0
  /-- AU_VADDR, reset 0 -/
  vaddr : Nat := 0
  /-- AU_VCOUNT, reset 0 -/
  vcount : Nat := 0
  deriving DecidableEq, Repr, Inhabited

/-- One internal job queue of a Docent core: DQ_ registers (R482) and its indices (R483). -/
structure DocQueue where
  sqLo : Word32 := 0
  sqHi : Word32 := 0
  cqLo : Word32 := 0
  cqHi : Word32 := 0
  ctrl : Word32 := 0
  q : Queue := {}
  deriving DecidableEq, Repr, Inhabited

/-- One wing's Docents and peripherals in its fixed slots (R478 to R485, R541). -/
structure DocentWing where
  /-- local memory of the eight cores, byte address core * 2^18 + offset, unlisted 0 (R478) -/
  local_ : List Host.Cell := []
  /-- shared memory, 8 MiB, unlisted 0 (R478) -/
  shared : List Host.Cell := []
  /-- access units 0 to 9, by master; reset per R486 -/
  units : Tbl AccessUnit := []
  /-- internal queues by 16 * core + q (R482); reset 0 -/
  queues : Tbl DocQueue := []
  /-- status of each core's last tail write, CSR 0x820 (R481); reset OK -/
  csr : Tbl Nat := []
  /-- the cores run (R406, R480); reset no -/
  running : Bool := false
  /-- halted by a freeze (R480) -/
  frozen : Bool := false
  /-- TIMER: the time its counter read 0, ns, and the eight compare values and interrupts (R485); reset 0 -/
  timerBase : Nat := 0
  compares : List Nat := [0, 0, 0, 0, 0, 0, 0, 0]
  timerIrq : BitVec 8 := 0
  /-- RTC slot compare interrupt (R524) -/
  rtcCompare : Nat := 0
  rtcIrq : Bool := false
  /-- GPIO_IN, per pins; 0 -/
  gpioIn : BitVec 8 := 0
  /-- GPIO_OUT, GPIO_OE, GPIO_OD, reset 0 -/
  gpioOut : BitVec 8 := 0
  gpioOe : BitVec 8 := 0
  gpioOd : BitVec 8 := 0
  /-- GPIO_PULL, reset 0xFF -/
  gpioPull : BitVec 8 := 0xFF
  /-- GPIO_IRQ_EN and GPIO_IRQ, reset 0 -/
  gpioIrqEn : BitVec 16 := 0
  gpioIrq : BitVec 16 := 0
  /-- the supervisor's Curator mailbox (R485) -/
  curmb : Curmb := {}
  deriving DecidableEq, Repr, Inhabited

/-! ### Card slots (18_card_interface.md) -/

/-- CARD_STATUS.state (R509). -/
inductive CardState where
  | empty | present | activating | active | sleep | deactivating
  deriving DecidableEq, Repr, Inhabited

/-- What a running card command is doing (R498, R500, R502). -/
inductive CardPhase where
  | idle
  /-- waits for the supply window, step 1 -/
  | vcc
  /-- receives the ATR, step 4 -/
  | atr
  /-- PPS request sent; waits for the response -/
  | pps
  /-- sends header bytes -/
  | header
  /-- waits for a procedure byte -/
  | proc
  /-- sends or receives data: all remaining, or one byte -/
  | data (one : Bool)
  /-- waits for SW2 -/
  | sw2
  /-- holds VCC off for 10 ms before the class B attempt, or before a reactivation without PPS -/
  | offHold
  deriving DecidableEq, Repr, Inhabited

/-- One card slot (R509). -/
structure Card where
  /-- CARD_CTRL, reset 0x00042190 -/
  ctrl : Word32 := 0x00042190
  state : CardState := .empty
  present : Bool := false
  /-- CARD_STATUS.class: 0 none, 1 C, 2 B -/
  cls : Nat := 0
  inverse : Bool := false
  clkStopMode : Nat := 0
  busy : Bool := false
  phase : CardPhase := .idle
  /-- CARD_RESULT, reset 0 -/
  result : Word32 := 0
  /-- CARD_HDR, CARD_P3, CARD_SW, CARD_PARAMS, reset 0 -/
  hdr : Word32 := 0
  p3 : Word32 := 0
  sw : Word32 := 0
  params : Word32 := 0
  /-- CARD_IRQ_EN, CARD_IRQ, reset 0 -/
  irqEn : Word32 := 0
  irq : Word32 := 0
  /-- ATR characters received, CARD_ATR and CARD_ATR_LEN, reset 0 -/
  atr : List Byte := []
  /-- CARD_DATA, 256 bytes, reset 0: unlisted 0 -/
  data : List Host.Cell := []
  /-- bytes sent and acknowledged, data bytes received in this TPDU (R506) -/
  sent : Nat := 0
  got : Nat := 0
  procSeen : Bool := false
  swSeen : Bool := false
  sw1 : Byte := 0
  /-- parity repetitions of the current character (R503) -/
  repeats : Nat := 0
  /-- the response to PPS received so far, and whether a PPS has already failed (R500) -/
  ppsGot : List Byte := []
  ppsFailed : Bool := false
  /-- an activation at class C has been followed by class B (R499) -/
  triedB : Bool := false
  /-- time of the last leading edge or of the phase's start, ns -/
  since : Nat := 0
  /-- an abort waits for the character in progress (R508) -/
  aborting : Bool := false
  /-- a freeze lets the TPDU complete, then deactivates (R508) -/
  endAfter : Bool := false
  /-- the next step after a deactivation: 0 none, 1 class B attempt, 2 reactivate without PPS -/
  next : Nat := 0
  deriving DecidableEq, Repr, Inhabited

/-! ### Clocks and power (19_clocks_and_power.md), package (20_package_and_electrical.md) -/

/-- Source of a die, with the switch in progress (R513, R525). -/
inductive DieSource where
  | clkref | xtal | watch
  | switching (dest : ClockSource)
  deriving DecidableEq, Repr, Inhabited

/-- One die's clock selection (R510 to R515). -/
structure ClockDie where
  /-- CLKPWR_STATUS.source; reset watch (R406: clocked from the watch oscillator until a reference is stable) -/
  source : DieSource := .watch
  /-- sources judged stable (R511), reset no -/
  clkrefOk : Bool := false
  xtalOk : Bool := false
  /-- XTAL started at, ns, and its start delay has passed (R511) -/
  xtalStart : Nat := 0
  xtalDelayed : Bool := false
  /-- CLKREF stable since, ns (auto revert, R513) -/
  clkrefSince : Nat := 0
  deriving DecidableEq, Repr, Inhabited

/-- Power states (R519). -/
inductive PState where
  | active | idle | standby | thermalHold
  deriving DecidableEq, Repr, Inhabited

/-- Clocks and power (R510 to R525). -/
structure Power where
  west : ClockDie := {}
  east : ClockDie := {}
  curator : ClockDie := {}
  /-- CLKPWR_CFG (R525), reset 0x0A00 -/
  cfg : Word32 := 0x00000A00
  /-- CLKPWR_CAP (R525), reset per variant: 120 on the A16 -/
  cap : Word32 := 0x00000078
  /-- CLKPWR_PSTAT (R525), reset 0 -/
  pstat : Nat := 0
  pstate : PState := .active
  /-- wings in IDLE (R519) -/
  idleW : Bool := false
  idleE : Bool := false
  /-- time the last job of the wing ended, ns (R519) -/
  quietW : Nat := 0
  quietE : Nat := 0
  /-- a STANDBY request waits for its drain, since (R520) -/
  draining : Option Nat := none
  /-- the governor's estimates of the last millisecond, newest first, 10 mW units (R521); reset none -/
  estimates : List Nat := []
  /-- CLKPWR_POWER (R525), reset 0: 1 ms average and highest 100 µs average, 10 mW units -/
  power : Nat := 0
  powerHigh : Nat := 0
  /-- cap shares of C1, C2, C3 and thermal reductions (R521, R522), sixteenths; reset 16 each and 0 -/
  capShare : List Nat := [16, 16, 16]
  thermal : Nat := 0
  /-- last thermal step, ns (R522) -/
  thermalAt : Nat := 0
  capUnmet : Bool := false
  /-- CLKPWR_TEMP (R525), reset 0 -/
  tempW : Int := 0
  tempE : Int := 0
  tempC : Int := 0
  /-- CLKPWR_SWITCHES counts (R525), reset 0 -/
  forced : Nat := 0
  planned : Nat := 0
  watchEntries : Nat := 0
  gateRefusals : Nat := 0
  /-- CLKPWR_LASTSW (R525), reset 0 -/
  lastSw : Word32 := 0
  /-- RTC: its value in 1/32,768 s at `rtcAt` ns (R524); reset per battery domain: 0 -/
  rtcBase : Nat := 0
  rtcAt : Nat := 0
  /-- CLKPWR_STATUS.rtc_valid (R524); at manufacture 0 -/
  rtcValid : Bool := false
  /-- RTC seconds of the last slew (R524) -/
  lastSlew : Option Nat := none
  /-- time spent in watch mode, ns, in which lease, link and drain timers stand still (R515, R517); reset 0 -/
  watchNs : Nat := 0
  /-- AVSBus set points, mV, and whether a wing holds its set point after a fault (R534); reset 800 -/
  avsW : Nat := 800
  avsE : Nat := 800
  avsHoldW : Bool := false
  avsHoldE : Bool := false
  avsAtW : Nat := 0
  avsAtE : Nat := 0
  deriving DecidableEq, Repr, Inhabited

/-! ### The whole state -/

/-- The curve table of R316: a slot's block, once written, and whether it has been retired. -/
structure CurveSlot where
  block : List Byte := []
  retired : Bool := false
  deriving DecidableEq, Repr, Inhabited

/-- The event log (R495). -/
structure EvLog where
  /-- EVLOG_NEWEST, reset 0 -/
  newest : Nat := 0
  /-- EVLOG_SEL, reset 0 -/
  sel : Word32 := 0
  /-- the ring, newest first, at most 4,096 records; reset empty -/
  ring : List LogRec := []
  deriving DecidableEq, Repr, Inhabited

/-- The hosts' side: ports, functions, mailboxes, collections and dispatch. -/
structure HostSide where
  portW : PortState := {}
  portE : PortState := {}
  /-- the functions by 128 * port + vf (R44) -/
  fns : Tbl FnState := []
  /-- CURMB views of PF0 W and PF0 E (R415) -/
  curmbW : Curmb := {}
  curmbE : Curmb := {}
  /-- collections 0 to 1,023 (R75); reset none -/
  colls : Tbl (Option Collection) := []
  dispW : Dispatcher := {}
  dispE : Dispatcher := {}
  /-- SPDM responders: DOE of Port W and E, and MCTP (R65, R74) -/
  spdmW : Spdm := {}
  spdmE : Spdm := {}
  spdmM : Spdm := {}
  /-- MCTP endpoint identifiers assigned by Set Endpoint ID: Curator, West, East (R74); reset 0 -/
  eids : List Byte := [0, 0, 0]
  /-- SMBus target address (R529), sampled at PWRON_RST# release; reset 0x70 -/
  smbAddr : Nat := 0x70
  deriving DecidableEq, Repr, Inhabited

/-- A job that a failed read has ended (R542): its port, and how many of its other reads have failed since. -/
structure ReadFail where
  port : Wing
  /-- the sequence of the log record of the first failure, which counts the others (R542) -/
  seq : Nat
  others : Nat
  deriving DecidableEq, Repr

/-- A sealed stream context as written out, with the message absorbed and the base's N and S, which its lane state stands for (R245, R246). -/
structure SealedStream where
  sealed : List Byte
  msg : List Byte
  custom : List (List Byte)
  deriving DecidableEq, Repr, Inhabited

/-- Jobs and what they hold: contexts, unit grants, program stores. -/
structure Work where
  /-- job contexts in use by job number (R112); reset none -/
  jobs : Tbl (Option Job) := []
  /-- next job number; reset 1 -/
  nextJob : Nat := 1
  /-- jobs that a failed read has ended, by job number (R542); reset none -/
  readFailed : Tbl (Option ReadFail) := []
  /-- engine units granted, in grant order (R35) -/
  grants : List Grant := []
  grantSeq : Nat := 1
  /-- the two program stores (R109): programs by number; reset empty -/
  progsW : Tbl (List Word64) := []
  progsE : Tbl (List Word64) := []
  /-- GALSTAT_C0SHARE_n (R102), reset 2 each -/
  c0share : Tbl Nat := []
  /-- GALSTAT_WEIGHTS (R102), reset 0x00010410 -/
  weights : Word32 := 0x00010410
  /-- GALSTAT_BNSLOT_n (R306), reset 1 each -/
  bnslot : Tbl Nat := []
  /-- GALSTAT_COMPATOWN_p (R350), reset 0 each -/
  compatOwn : Tbl Word32 := []
  /-- COMPAT pages 0 to 63 (R352) -/
  compat : Tbl CompatPage := []
  /-- galleries 0 to 15 -/
  galleries : Tbl Gallery := []
  /-- the active microcode bank, and the two banks (R307); reset 0, empty -/
  bank : Nat := 0
  banks : List MicroBank := [{}, {}]
  /-- owner policies replaced at a switch, each with the last epoch whose jobs it governs (R472); reset none -/
  policies : List (Nat × Option (List Byte)) := []
  /-- the current epoch (R469); reset 0, epoch 1 opens at the end of boot -/
  epoch : Nat := 0
  /-- the curve table, by slot 0 to 31 (R316); at manufacture empty -/
  curves : Tbl CurveSlot := []
  /-- generation of the stream sealing key (R247); reset 0: none drawn -/
  streamKey : Nat := 0
  /-- the stream sealing key, drawn from the Curator DRBG at a power-on or device reset (R247); none until it is drawn -/
  sealKey : List Byte := []
  /-- the contexts that the sealer has made under the key, with what each has absorbed (R245, R247); reset none -/
  streams : List SealedStream := []
  deriving DecidableEq, Repr, Inhabited

/-- THE STATE OF THE SK72. -/
structure State where
  /-- commands that wait, first in first out; the model's own queue of what the outside sends -/
  pending : List Instr := []
  /-- nanoseconds since State.reset; the model's own clock, from which RTC, TIMER and elapsed_ns derive -/
  now : Nat := 0
  /-- counter to which the free values of Config are applied; the model's own -/
  freeCtr : Nat := 0
  /-- what the block has sent, newest first; the model's own record -/
  outbox : List Out := []
  /-- fused-off galleries: true for the SK72-A12 (R2); per part -/
  a12 : Bool := false
  /-- DEV_SERIAL (R414), per part -/
  serial : Word64 := 0
  host : HostSide := {}
  work : Work := {}
  cat : Catalogue := {}
  journal : Journal := {}
  ledger : Ledger := {}
  entropy : Entropy := {}
  store : Storeroom := {}
  boot : Boot := {}
  tamper : Tamper := {}
  cont : Continuity := {}
  cfgtx : Cfgtx := {}
  handover : Handover := {}
  docW : DocentWing := {}
  docE : DocentWing := {}
  card0 : Card := {}
  card1 : Card := {}
  power : Power := {}
  evlog : EvLog := {}
  deriving DecidableEq, Repr, Inhabited

/-- The SK72 right after reset: PWRON_RST# has acted, boot has not begun (R406). Every field is at the value its comment
names; a field whose comment names none is at the model's choice of zero, empty or false. -/
def State.reset : State := {}

end Sys2Proof.Machine
end

