-- ==== Sys2Proof/Machine/Ops.lean ====
section
/-! DEFINITION. The named operations over State that the meanings share: reading and writing its parts, causes and interrupts,
the event log, register errors, rights and policy, time, completion records. -/

namespace Sys2Proof.Machine

/-- What a meaning answers. -/
abbrev Res := Host.Outcome State Fault Refusal

/-- Apply a list of changes in order. -/
def State.forAll {α : Type} (s : State) (l : List α) (f : State → α → State) : State := l.foldl f s

/-! ### Names -/

/-- 0 for West, 1 for East. -/
def wingIdx : Wing → Nat
  | .west => 0
  | .east => 1

/-- The other wing. -/
def otherWing : Wing → Wing
  | .west => .east
  | .east => .west

/-- The wing of a gallery (R14). -/
def galleryWing (g : Nat) : Wing := if g < 8 then .west else .east

/-- The key of a function in `HostSide.fns`. -/
def fnKey (f : Fn) : Nat := 128 * wingIdx f.port + f.vf

/-- The function exists: PF0 or VF1 to VF127 (R44). -/
def fnOk (f : Fn) : Bool := f.vf ≤ 127

/-- The function is a PF. -/
def isPf (f : Fn) : Bool := f.vf == 0

/-- PF0 of a port. -/
def pf0 (w : Wing) : Fn := ⟨w, 0⟩

/-- The functions of a port. -/
def portFns (w : Wing) : List Fn := (List.range 128).map (Fn.mk w)

/-- Every function of the device. -/
def allFns : List Fn := portFns .west ++ portFns .east

/-- MSI-X vectors of a function: 256 for a PF, 14 for a VF (R60). -/
def vectorsOf (f : Fn) : Nat := if isPf f then 256 else 14

/-- The identifier code of a unit (R443). -/
def unitCode (u : UnitId) : Nat := u.loc % 32 + u.kind % 32 * 32 + u.idx % 256 * 1024

/-- The unit an identifier code names (R443). -/
def unitOf (c : Nat) : UnitId := ⟨fieldAt c 0 5, fieldAt c 5 5, fieldAt c 10 8⟩

/-- The source field of a log record for a unit: its code with the valid bit (R495). -/
def unitSrc (u : UnitId) : Nat := unitCode u + 2 ^ 23

/-- The source field that names a wing or the Curator die (R443 locations 18 to 20). -/
def dieSrc : Die → Nat
  | .westDie => 18 + 2 ^ 23
  | .eastDie => 19 + 2 ^ 23
  | .curatorDie => 20 + 2 ^ 23

/-- The die of a wing. -/
def wingDie : Wing → Die
  | .west => .westDie
  | .east => .eastDie

/-! ### Parts of State -/

/-- A gallery the variant has: G6, G7, G14 and G15 are absent on the SK72-A12 (R2). -/
def State.present (s : State) (g : Nat) : Bool := g < 16 && !(s.a12 && [6, 7, 14, 15].contains g)

/-- The galleries present. -/
def State.galleries (s : State) : List Nat := (List.range 16).filter s.present

def State.fn (s : State) (f : Fn) : FnState := s.host.fns.get {} (fnKey f)
def State.setFn (s : State) (f : Fn) (x : FnState) : State :=
  { s with host := { s.host with fns := s.host.fns.set {} (fnKey f) x } }
def State.modFn (s : State) (f : Fn) (g : FnState → FnState) : State := s.setFn f (g (s.fn f))

def State.port (s : State) : Wing → PortState
  | .west => s.host.portW
  | .east => s.host.portE
def State.setPort (s : State) (w : Wing) (p : PortState) : State :=
  match w with
  | .west => { s with host := { s.host with portW := p } }
  | .east => { s with host := { s.host with portE := p } }

def State.disp (s : State) : Wing → Dispatcher
  | .west => s.host.dispW
  | .east => s.host.dispE
def State.setDisp (s : State) (w : Wing) (d : Dispatcher) : State :=
  match w with
  | .west => { s with host := { s.host with dispW := d } }
  | .east => { s with host := { s.host with dispE := d } }

def State.coll (s : State) (c : Nat) : Option Collection := s.host.colls.get none c
def State.setColl (s : State) (c : Nat) (x : Option Collection) : State :=
  { s with host := { s.host with colls := s.host.colls.set none c x } }

def State.job (s : State) (j : Nat) : Option Job := s.work.jobs.get none j
def State.setJob (s : State) (j : Nat) (x : Option Job) : State :=
  { s with work := { s.work with jobs := s.work.jobs.set none j x } }
def State.putJob (s : State) (j : Nat) (x : Job) : State := s.setJob j (some x)

/-- The jobs in flight with their numbers. -/
def State.jobList (s : State) : List (Nat × Job) :=
  s.work.jobs.filterMap fun p => p.2.map fun x => (p.1, x)

def State.gal (s : State) (g : Nat) : Gallery := s.work.galleries.get {} g
def State.setGal (s : State) (g : Nat) (x : Gallery) : State :=
  { s with work := { s.work with galleries := s.work.galleries.set {} g x } }

def State.page (s : State) (p : Nat) : CompatPage := s.work.compat.get {} p
def State.setPage (s : State) (p : Nat) (x : CompatPage) : State :=
  { s with work := { s.work with compat := s.work.compat.set {} p x } }

/-- GALSTAT_C0SHARE_n.share, reset 2 (R102). -/
def State.c0share (s : State) (g : Nat) : Nat := s.work.c0share.get 2 g

/-- GALSTAT_COMPATOWN_p (R350). -/
def State.pageOwner (s : State) (p : Nat) : Word32 := s.work.compatOwn.get 0 p

def State.slot (s : State) (n : Nat) : LedgerSlot := s.ledger.slots.get {} n
def State.setSlot (s : State) (n : Nat) (x : LedgerSlot) : State :=
  { s with ledger := { s.ledger with slots := s.ledger.slots.set {} n x } }

def State.doc (s : State) : Wing → DocentWing
  | .west => s.docW
  | .east => s.docE
def State.setDoc (s : State) (w : Wing) (d : DocentWing) : State :=
  match w with
  | .west => { s with docW := d }
  | .east => { s with docE := d }

def State.card (s : State) (n : Nat) : Card := if n = 0 then s.card0 else s.card1
def State.setCard (s : State) (n : Nat) (c : Card) : State :=
  if n = 0 then { s with card0 := c } else if n = 1 then { s with card1 := c } else s

def State.storeWing (s : State) : Wing → StoreWing
  | .west => s.store.west
  | .east => s.store.east
def State.setStoreWing (s : State) (w : Wing) (x : StoreWing) : State :=
  match w with
  | .west => { s with store := { s.store with west := x } }
  | .east => { s with store := { s.store with east := x } }

/-- The mailbox view of a sender (R415, R485). -/
def State.mailbox (s : State) : Sender → Curmb
  | .pf .west => s.host.curmbW
  | .pf .east => s.host.curmbE
  | .supervisor w => (s.doc w).curmb
def State.setMailbox (s : State) (m : Sender) (x : Curmb) : State :=
  match m with
  | .pf .west => { s with host := { s.host with curmbW := x } }
  | .pf .east => { s with host := { s.host with curmbE := x } }
  | .supervisor w => s.setDoc w { s.doc w with curmb := x }

def State.clockDie (s : State) : Die → ClockDie
  | .westDie => s.power.west
  | .eastDie => s.power.east
  | .curatorDie => s.power.curator
def State.setClockDie (s : State) (d : Die) (x : ClockDie) : State :=
  match d with
  | .westDie => { s with power := { s.power with west := x } }
  | .eastDie => { s with power := { s.power with east := x } }
  | .curatorDie => { s with power := { s.power with curator := x } }

/-- The wing is an orphan (R460). -/
def State.orphan (s : State) : Wing → Bool
  | .west => s.cont.orphanW
  | .east => s.cont.orphanE

/-- The wing is a halted orphan (R461). -/
def State.halted (s : State) : Wing → Bool
  | .west => s.cont.haltedW
  | .east => s.cont.haltedE

/-- The wing is admitted (R476). -/
def State.admitted (s : State) : Wing → Bool
  | .west => s.cont.admittedW
  | .east => s.cont.admittedE

/-- The wing's Curator link. -/
def State.curLink (s : State) : Wing → LinkState
  | .west => s.cont.curW
  | .east => s.cont.curE

/-- The wing reaches the Curator, directly or through the other wing (R23). -/
def State.reaches (s : State) (w : Wing) : Bool :=
  (s.curLink w).up || (s.cont.wingLink.up && (s.curLink (otherWing w)).up)

/-- A wing that has the Curator's authority: it reaches the Curator and is no orphan that awaits its re-admission (R22, R24). -/
def State.hasCurator (s : State) (w : Wing) : Bool := s.reaches w && !s.orphan w

/-- A wing is in IDLE, or leaves it; the device is IDLE when both wings are (R519). -/
def State.setIdle (s : State) (w : Wing) (v : Bool) : State :=
  let p := match w with | .west => { s.power with idleW := v } | .east => { s.power with idleE := v }
  let st := if p.pstate == .active || p.pstate == .idle then (if p.idleW && p.idleE then PState.idle else .active) else p.pstate
  { s with power := { p with pstate := st } }

/-! ### Output, free values, time -/

/-- The state after the block has sent something. -/
def State.emit (s : State) (o : Out) : State := { s with outbox := o :: s.outbox }

/-- A free value, and the state whose counter has moved past it. -/
def State.free (s : State) : Nat × State := (Config.freeNat s.freeCtr, { s with freeCtr := s.freeCtr + 1 })

/-- `n` bytes of generator output (R365), and the state whose counter has moved past them. -/
def State.freeBytes (s : State) (n : Nat) : List Byte × State :=
  ((List.range n).map fun i => byte (Config.freeNat (s.freeCtr + i)), { s with freeCtr := s.freeCtr + n })

/-- The real-time clock in units of 1/32,768 s (R524). -/
def State.rtc (s : State) : Nat := s.power.rtcBase + (s.now - s.power.rtcAt) * 32768 / 1000000000

/-- The real-time clock's seconds. -/
def State.rtcSec (s : State) : Nat := s.rtc / 32768 % 2 ^ 32

/-- A die runs from its watch oscillator (R515). -/
def ClockDie.watching (d : ClockDie) : Bool := d.source == .watch

/-- The domains of a wing run: its die has a reference and no switch is in progress (R514, R515). -/
def State.wingRuns (s : State) (w : Wing) : Bool :=
  match (s.clockDie (wingDie w)).source with
  | .clkref | .xtal => true
  | _ => false

/-- Any die is in watch mode (R525 CLKPWR_STATUS.watch_mode). -/
def State.watchMode (s : State) : Bool := s.power.west.watching || s.power.east.watching || s.power.curator.watching

/-- Time outside watch mode, ns: what lease timers, link timers and drain_ms count (R515, R517). -/
def State.runNs (s : State) : Nat := s.now - s.power.watchNs

/-- One nanosecond passes. -/
def State.tick (s : State) : State :=
  { s with now := s.now + 1, power := { s.power with watchNs := s.power.watchNs + b2n s.watchMode } }

/-! ### Transfers of host memory (R42) -/

/-- The parts of a transfer: at most `n` bytes each, as (offset, length). -/
def partsOf (n len : Nat) : List (Nat × Nat) := (List.range ((len + n - 1) / max 1 n)).map fun k => (k * n, min n (len - k * n))

/-- A memory write at a port, in TLPs of at most its max payload size. -/
def State.writeHost (s : State) (w : Wing) (addr : Nat) (bytes : List Byte) : State :=
  s.forAll (partsOf (s.port w).maxPayload bytes.length) fun s x => s.emit (.dmaWrite w (addr + x.1) (slice bytes x.1 x.2))

/-- A memory read at a port, in requests of at most its max read request size. -/
def State.readHost (s : State) (w : Wing) (addr len : Nat) (target : ReadTarget) : State :=
  s.forAll (partsOf (s.port w).maxReadReq len) fun s x => s.emit (.dmaRead w (addr + x.1) x.2 target)

/-! ### The event log (R495) -/

/-- A record added to the event log ring, which keeps the newest 4,096. -/
def State.log (s : State) (category : Nat) (status : Byte) (source : Nat) (detail : List Byte) : State :=
  let n := s.evlog.newest + 1
  let r : LogRec := { seq := n, rtcS := s.rtcSec, rtcSub := s.rtc % 32768, category, status, source, detail := padTo 15 detail }
  { s with evlog := { s.evlog with newest := n, ring := (r :: s.evlog.ring).take 4096 } }

/-- The 32 bytes of a log record. -/
def logBytes (r : LogRec) : List Byte :=
  leBytes 4 r.seq ++ leBytes 4 r.rtcS ++ leBytes 4 r.rtcSub ++ [byte r.category, r.status] ++ leBytes 3 r.source ++ padTo 15 r.detail

/-! ### Interrupts and causes (R54, R61) -/

/-- The vector's message is sent, or its PBA bit set while it is masked or the function may not master the bus. -/
def State.sendMsix (s : State) (f : Fn) (v : Nat) : State :=
  let x := s.fn f
  if !x.msixEnable || v ≥ vectorsOf f then s
  else if x.unmasked.contains v && x.bme then s.emit (.msix f v)
  else s.setFn f { x with pba := if x.pba.contains v then x.pba else x.pba ++ [v] }

/-- A cause's event at a function: its bit latches, and vector 0 is sent when an enabled bit changes from 0 to 1 (R54). -/
def State.raiseCause (s : State) (bit : Nat) (f : Fn) : State :=
  let x := s.fn f
  if bit32 x.cause bit then s
  else
    let s := s.setFn f { x with cause := x.cause ||| w32 (2 ^ bit) }
    if bit32 x.causeEn bit then s.sendMsix f 0 else s

/-- A cause's event at every function of a port. -/
def State.raisePort (s : State) (bit : Nat) (w : Wing) : State := s.forAll (portFns w) fun s f => s.raiseCause bit f

/-- A cause's event at every function. -/
def State.raiseAll (s : State) (bit : Nat) : State := s.forAll allFns fun s f => s.raiseCause bit f

/-- SMB_ALERT# is asserted while any cause of either PF is set and enabled (R73). -/
def State.smbAlert (s : State) : Bool :=
  [Wing.west, .east].any fun w => (s.fn (pf0 w)).cause &&& (s.fn (pf0 w)).causeEn != 0

/-! ### Register and queue errors (R52, R91) -/

/-- A rejected register access: FSTAT_ERR and FSTAT_ERR_ADDR record the first since the last read, and count the rest. -/
def State.regError (s : State) (f : Fn) (status : Byte) (off : Nat) : State :=
  let x := s.fn f
  let n := bits32 x.err 16 16
  if n = 0 then
    (s.setFn f { x with err := w32 (status.toNat + 65536), errAddr := w32 off }).raiseCause Cause.regError f
  else s.setFn f { x with err := setField x.err 16 16 (sat 65535 (n + 1)) }

/-- The number a queue selector shows in FSTAT_QERR: 0 for the admin queue (R52). -/
def qselNum : QSel → Nat
  | .io q => q
  | .admin => 0

/-- A queue error: FSTAT_QERR records the first since the last read (R52, R91). -/
def State.queueError (s : State) (f : Fn) (q : QSel) (completion : Bool) (reason : Nat) : State :=
  let x := s.fn f
  if x.qerrHeld then s
  else
    let v := w32 (qselNum q + b2n completion * 512 + b2n (q == .admin) * 1024 + reason * 4096)
    (s.setFn f { x with qerr := v, qerrHeld := true }).raiseCause Cause.queueError f

/-! ### Rights and policy -/

/-- The device part of the policy in force; the defaults until one is installed (R46). -/
def State.devPolicy (s : State) : Config.DevPolicy :=
  match s.boot.policyBody with
  | none => {}
  | some b => Config.devPolicy b

/-- The state as jobs of an epoch see the owner policy: the one that governed their epoch (R472). -/
def State.underPolicy (s : State) (epoch : Nat) : State :=
  match s.work.policies.find? fun p => epoch ≤ p.1 with
  | some p => { s with boot := { s.boot with policyBody := p.2 } }
  | none => s

/-- A collection's part of the policy in force. -/
def State.collPolicy (s : State) (c : Nat) : Config.CollPolicy :=
  match s.boot.policyBody with
  | none => {}
  | some b => if s.cat.unbound.contains (c, b) then {} else Config.collPolicy b c

/-- The function holds the management role (R46): never a VF. -/
def State.mgmt (s : State) (f : Fn) : Bool :=
  isPf f && (match f.port with | .west => s.devPolicy.mgmtW | .east => s.devPolicy.mgmtE)

/-- FID_ROLE.compat (R51). -/
def State.compatRole (s : State) (f : Fn) : Bool :=
  isPf f && (match f.port with | .west => s.devPolicy.compatW | .east => s.devPolicy.compatE)

/-- The sender of a mailbox message holds the management role; a Docent supervisor's view needs none (R415, R485). -/
def State.senderMgmt (s : State) : Sender → Bool
  | .pf w => s.mgmt (pf0 w)
  | .supervisor _ => true

/-- The device is frozen or in TAMPER_HOLD (R424, R436). -/
def State.stopped (s : State) : Bool := s.tamper.frozen || s.tamper.hold

/-- The port is in report-only form: TAMPER_HOLD, a halted orphan, or SCRAPPED (R71, R461, R410). -/
def State.reportOnly (s : State) (w : Wing) : Bool := s.tamper.hold || s.halted w || s.boot.lifecycle == .scrapped

/-- Boot ROM's recovery form (R403). -/
def State.recovery (s : State) : Bool := s.boot.stage == 15

/-- Every image has been accepted, so far as boot needs it (R406, R414). -/
def State.booted (s : State) : Bool := s.boot.stage == 4 || s.boot.stage == 5

/-- The device is in STANDBY or THERMAL_HOLD (R519). -/
def State.lowPower (s : State) : Bool := s.power.pstate == .standby || s.power.pstate == .thermalHold

/-- A hand-over is pending or in progress (R411). -/
def State.handingOver (s : State) : Bool := s.handover.state == 1 || s.handover.state == 2 || s.handover.state == 3

/-- A hand-over pause is in effect (R130). -/
def State.paused (s : State) : Bool := s.handover.state == 3

/-- A Secure IDE stream can carry the function's traffic, where its collection's policy requires one (R63). -/
def State.ideOk (s : State) (f : Fn) : Bool :=
  match (s.fn f).coll with
  | none => true
  | some c => !(s.collPolicy c).ide ||
      (s.port f.port).ideAssoc.any fun p => p.2 == f.vf && (s.port f.port).ideSecure.contains p.1

/-! ### Accesses at BAR0 (R45, R47, R50, R63, R71, R403, R520) -/

/-- A port answers memory requests: out of reset, with its configuration space up (R70). -/
def State.portAnswers (s : State) (w : Wing) : Bool := !s.boot.inReset && !(s.port w).perst && (s.port w).cfgReady

/-- A configuration request of a function: until its port's configuration space is ready the port completes it with Request Retry Status
(R70, R406). -/
def State.configRequest (s : State) (f : Fn) (k : State → State) : State :=
  if !fnOk f then s
  else if s.portAnswers f.port then k s
  else if s.boot.inReset || (s.port f.port).perst then s
  else s.emit (.retry f)

/-- An access of a function's BAR0: nothing where no function answers (a VF needs VF Enable), Unsupported Request outside a Secure
stream where the collection needs one (R63). -/
def State.access (s : State) (f : Fn) (k : State → State) : State :=
  if !fnOk f || !s.portAnswers f.port || !(isPf f || (s.port f.port).vfEnable) then s
  else if !s.ideOk f then s.emit (.unsupported f)
  else k s

/-- A block answers reads: all do in normal operation; in report-only form FID, FSTAT, DEV, EVLOG, TAMPER and CURMB; in low power FID,
FSTAT, DEV, TAMPER and CLKPWR; in recovery form FID, FSTAT, DEV and CURMB. -/
def State.blockReads (s : State) (w : Wing) (block : Nat) : Bool :=
  (!s.reportOnly w || [0x000, 0x001, 0x100, 0x120, 0x130, 0x190].contains block) &&
    (!s.lowPower || [0x000, 0x001, 0x100, 0x130, 0x150].contains block) &&
    (!s.recovery || [0x000, 0x001, 0x100, 0x190].contains block)

/-- A block takes writes: all do in normal operation; in report-only form TAMPER and CURMB; in recovery form CURMB; in low power none. -/
def State.blockWrites (s : State) (w : Wing) (block : Nat) : Bool :=
  (!s.reportOnly w || [0x130, 0x190].contains block) && (!s.recovery || block == 0x190) && !s.lowPower

/-- A write of a function at a BAR0 offset, dropped where the block takes none. -/
def State.write (s : State) (f : Fn) (off : Nat) (k : State → State) : State :=
  s.access f fun s => if s.blockWrites f.port (off / 0x1000) then k s else s

/-- A write by a PF to a register that needs the management role: ACCESS_DENIED without it (R47). A VF's BAR0 has no such block. The register
stands at the Curator: the write of a wing without it is lost (R22), but in the forms that boot and TAMPER_HOLD give a port. -/
def State.mgmtWrite (s : State) (f : Fn) (off : Nat) (k : State → State) : State :=
  s.write f off fun s =>
    if !isPf f || !(s.hasCurator f.port || s.recovery || s.tamper.hold) then s
    else if !s.mgmt f then s.regError f St.accessDenied off
    else k s

/-- A read of a register that is cleared by reading: the value, and the state after; zero and no effect where the block does not answer. -/
def State.sideRead (s : State) (f : Fn) (off : Nat) (v : Word32) (k : State → State) : State :=
  s.access f fun s => if s.blockReads f.port (off / 0x1000) then k (s.emit (.readValue f off v)) else s.emit (.readValue f off 0)

/-- The same of a device-scope register, which a PF reads. -/
def State.clearRead (s : State) (f : Fn) (off : Nat) (v : Word32) (k : State → State) : State :=
  if isPf f then s.sideRead f off v k else s

/-! ### Queues -/

/-- A host queue: an I/O queue, or the admin queue's rings. -/
def State.queue (s : State) (f : Fn) : QSel → Queue
  | .io q => (s.fn f).queues.get {} q
  | .admin => (s.fn f).admQ
def State.setQueue (s : State) (f : Fn) (sel : QSel) (x : Queue) : State :=
  match sel with
  | .io q => s.modFn f fun y => { y with queues := y.queues.set {} q x }
  | .admin => s.modFn f fun y => { y with admQ := x }

/-- Entries between head and tail of a ring. -/
def ringCount (depth head tail : Nat) : Nat := (tail + depth - head) % depth

/-- Jobs of a source queue that run, or that a freeze has ended and whose records the report phase has yet to write (R76, R423). -/
def State.inFlight (s : State) (src : Src) : Nat :=
  (s.jobList.filter fun p => p.2.src == src).length + (s.tamper.frozenJobs.filter fun x => x.src == src).length

/-- Jobs in flight of a host queue: one whose record waits for Bus Master Enable is in flight too (R69, R76). -/
def State.queueInFlight (s : State) (f : Fn) (sel : QSel) : Nat :=
  s.inFlight (.host f sel) + ((s.fn f).heldRecords.filter fun h => h.q == sel).length

/-- Records written and not yet freed, and jobs in flight: what R90 counts as held. -/
def State.slotsHeld (s : State) (f : Fn) (sel : QSel) : Nat :=
  let q := s.queue f sel
  ringCount q.depth q.cqHead q.cqTail + s.queueInFlight f sel

/-- The entry at a queue's head is asked for: a host read of its slot. A frozen device reads no entries of I/O queues (R422, R424). An admin
entry is not asked for while the completion ring is full: the spec does not say when it is (DESIGN CHOICE, log entry 102). -/
def State.fetchHead (s : State) (f : Fn) (sel : QSel) : State :=
  let q := s.queue f sel
  let busy := sel == .admin && ((s.fn f).admCur.isSome || s.slotsHeld f sel ≥ q.depth - 1)
  if !q.created || q.stopped || q.deleting || q.heldEntry.isSome || busy || q.sqHead = q.sqTail || !(s.fn f).bme ||
    (s.tamper.frozen && sel != .admin) then s
  else s.emit (.dmaRead f.port (q.sqBase + 64 * q.sqHead) 64 (.slot f sel))

/-- The heads of a function's queues are asked for again, when it may read host memory again (R69). -/
def State.refetch (s : State) (f : Fn) : State :=
  s.forAll (.admin :: (s.fn f).queues.map fun p => .io p.1) fun s sel => s.fetchHead f sel

/-- The heads of every function's queues are asked for again, when a freeze has ended. -/
def State.refetchAll (s : State) : State :=
  s.forAll s.host.fns fun s p => s.refetch ⟨if p.1 < 128 then .west else .east, p.1 % 128⟩

/-- A Docent core's internal queue (R482). -/
def State.docQueue (s : State) (w : Wing) (core q : Nat) : DocQueue := (s.doc w).queues.get {} (16 * core + q)
def State.setDocQueue (s : State) (w : Wing) (core q : Nat) (x : DocQueue) : State :=
  s.setDoc w { s.doc w with queues := (s.doc w).queues.set {} (16 * core + q) x }

/-! ### Completion records (R95 to R99, R104) -/

/-- The 32 bytes of a record (R95). -/
def recordBytes (r : Record) : List Byte :=
  leBytes 4 r.tag.toNat ++ [r.status, r.verdict] ++ leBytes 2 r.flags.toNat ++ leBytes 4 r.outputLength ++ leBytes 4 r.epoch ++
    leBytes 8 r.result.toNat ++ leBytes 8 (sat (2 ^ 64 - 1) r.elapsedNs)

/-- The interrupt rules of a queue after a counted record (R104): a C0 record at once; else by count, whose timer starts with
the first. -/
def State.signalRecord (s : State) (f : Fn) (sel : QSel) (irq atOnce : Bool) : State :=
  if !irq then s
  else
    let q := s.queue f sel
    if atOnce then (s.setQueue f sel { q with unsignalled := 0 }).sendMsix f q.vector
    else
      let n := q.unsignalled + 1
      if n ≥ max 1 q.modCount then (s.setQueue f sel { q with unsignalled := 0 }).sendMsix f q.vector
      else s.setQueue f sel { q with unsignalled := n, modStart := if q.unsignalled = 0 then s.now else q.modStart }

/-- A record written to a host queue's completion ring: one 32-byte write at the tail, with PHASE, and its interrupt. Held while
Bus Master Enable is clear (R69); discarded with its tag logged once a record write has failed (R91), or when no Secure stream
can carry it (R64), and counted while its queue is being deleted (R92). -/
def State.putRecord (s : State) (f : Fn) (sel : QSel) (r : Record) (irq atOnce : Bool) : State :=
  let q := s.queue f sel
  if !q.created then s.log 1 r.status 0 (leBytes 4 r.tag.toNat ++ leBytes 2 (qselNum sel))
  else if q.discards || !s.ideOk f then
    (s.log 1 r.status 0 (leBytes 4 r.tag.toNat ++ leBytes 2 (qselNum sel))).setQueue f sel
      (if q.deleting then { q with endedSilently := q.endedSilently + 1 } else q)
  else if !(s.fn f).bme then
    s.modFn f fun x => { x with heldRecords := x.heldRecords ++ [{ q := sel, record := r, irq, c0 := atOnce, since := s.now }] }
  else
    let r := { r with flags := if q.phase then r.flags ||| Rf.phase else r.flags }
    let tail := (q.cqTail + 1) % max 1 q.depth
    let s := s.emit (.dmaWrite f.port (q.cqBase + 32 * q.cqTail) (recordBytes r))
    let s := s.setQueue f sel { q with cqTail := tail, phase := if tail = 0 then !q.phase else q.phase,
                                       wrote := true, lastTag := r.tag, timerUs := q.modTimeUs }
    s.signalRecord f sel irq atOnce

/-! ### Words held by registers -/

/-- Set `ready` of a function, with its cause on a change (R53, R54). -/
def State.setReady (s : State) (f : Fn) (v : Bool) : State :=
  if (s.fn f).ready == v then s else (s.modFn f fun x => { x with ready := v }).raiseCause Cause.readyChange f

end Sys2Proof.Machine
end

