-- ==== Sys2Proof/Machine/Rng.lean ====
section
/-! DEFINITION. Drawing from the generators of R365 and asking whether they produce. -/

namespace Sys2Proof.Machine

/-- The key of a DRBG instance. -/
def drbgKey : Drbg → Nat
  | .curator => 0
  | .pool w => 1 + wingIdx w
  | .keyGen g => 16 + g
  | .host g => 32 + g

/-- The key of a masking generator. -/
def maskKey : MaskGen → Nat
  | .gallery g => g
  | .cluster w => 16 + wingIdx w

def State.drbg (s : State) (d : Drbg) : DrbgState := s.entropy.drbgs.get {} (drbgKey d)
def State.setDrbg (s : State) (d : Drbg) (x : DrbgState) : State :=
  { s with entropy := { s.entropy with drbgs := s.entropy.drbgs.set {} (drbgKey d) x } }
def State.maskGen (s : State) (m : MaskGen) : MaskState := s.entropy.masks.get {} (maskKey m)
def State.setMaskGen (s : State) (m : MaskGen) (x : MaskState) : State :=
  { s with entropy := { s.entropy with masks := s.entropy.masks.set {} (maskKey m) x } }

/-- The unit identifier of a DRBG instance: kind 10, index 0 key generation or pool, 1 host (R443). -/
def drbgUnit : Drbg → UnitId
  | .curator => ⟨20, 10, 0⟩
  | .pool w => ⟨18 + wingIdx w, 10, 0⟩
  | .keyGen g => ⟨g, 10, 0⟩
  | .host g => ⟨g, 10, 1⟩

/-- Whether an instance produces output: instantiated, not stopped, and no known-answer test due (R365, R367). -/
def State.drbgOk (s : State) (d : Drbg) : Bool := (s.drbg d).inst && !(s.drbg d).stopped && (s.drbg d).calls < 2 ^ 20

/-- Whether a masking generator produces: seeded and not past its stop point (R365). -/
def State.maskOk (s : State) (m : MaskGen) : Bool := (s.maskGen m).seeded && !(s.maskGen m).stopped

/-- The reseed interval in ns: 10 ms (R365). -/
def drbgIntervalNs : Nat := 10000000
/-- The reseed interval in requests (R365). -/
def drbgIntervalRequests : Nat := 65536

/-- `n` bytes from an instance: one request and one generate call, and a reseed request once half the interval has passed. At the full
interval, or when a known-answer test is due, it goes silent (R365). -/
def State.drawFrom (s : State) (d : Drbg) (n : Nat) : List Byte × State :=
  let x := s.drbg d
  let half := x.requests + 1 ≥ drbgIntervalRequests / 2 || s.now - x.reseededAt ≥ drbgIntervalNs / 2
  let full := x.requests + 1 ≥ drbgIntervalRequests
  let ask := [x.state, leBytes 4 n]
  (Config.prim .drbgOut ask n,
   s.setDrbg d { x with state := Config.prim .drbgNext ask 48, requests := x.requests + 1, calls := x.calls + 1,
                        wanted := if half && x.wanted.isNone then some s.now else x.wanted, stopped := x.stopped || full,
                        silentAt := if !x.stopped && (full || x.calls + 1 ≥ 2 ^ 20) then s.now else x.silentAt })

/-- What was drawn from an instance took requests past its interval, or calls past a known-answer test that was due: the instance went
silent before the last of them (R365). -/
def State.overdrawn (s : State) (d : Drbg) : Bool := (s.drbg d).requests > drbgIntervalRequests || (s.drbg d).calls > 2 ^ 20

/-- Bytes for an act of the Curator that needs random ones and that no rule stops with the Curator DRBG: a nonce (R437), the bases of a staged
curve's check (R315). While that DRBG produces nothing, as in a freeze, the spec does not say what they are drawn from, so that they are free values
(log entry 125). -/
def State.drawCurator (s : State) (n : Nat) : List Byte × State := if s.drbgOk .curator then s.drawFrom .curator n else s.freeBytes n

end Sys2Proof.Machine
end

