-- ==== Sys2Proof/Machine/Units.lean ====
section
/-! DEFINITION. The units of the part with their spares (R15, R443), which are in service, and what a gallery can do (R16,
R101, R234). -/

namespace Sys2Proof.Machine

/-! ### Unit kinds by the codes of R443 -/

namespace Kind
def lre : Nat := 0
def lsu : Nat := 1
def keccak : Nat := 2
def sha2 : Nat := 3
def bigNumber : Nat := 4
def bfe : Nat := 5
def aes : Nat := 6
def mask : Nat := 7
def sequencer : Nat := 8
def compat : Nat := 9
def drbg : Nat := 10
def docent : Nat := 11
def curator : Nat := 12
end Kind

/-- The pseudo-kinds among an EXEC's needs beside the kinds of R443: a masked Keccak lane (R233), and a DMA read channel. -/
def maskedKind : Nat := 30
def dmaKind : Nat := 31

/-- The wing on which a location stands; the Curator die has none. -/
def locWing (loc : Nat) : Option Wing :=
  if loc < 16 then some (galleryWing loc)
  else if loc = 16 || loc = 18 then some .west
  else if loc = 17 || loc = 19 then some .east
  else none

/-- Units in service and spares of a location and kind (R15, R17, R443). -/
def unitPlan (loc kind : Nat) : Nat × Nat :=
  if loc < 16 then
    match kind with
    | 0 => (4, 1) | 1 => (1, 0) | 2 => (128, 8) | 3 => (64, 2) | 4 => (2, 1) | 5 => (1, 0) | 6 => (1, 0) | 7 => (1, 0)
    | 8 => (1, 0) | 10 => (2, 0)
    | _ => (0, 0)
  else if loc = 16 || loc = 17 then (if kind = 9 then (16, 2) else (0, 0))
  else if loc = 18 || loc = 19 then (if kind = 10 then (1, 0) else if kind = 11 then (8, 0) else (0, 0))
  else if loc = 20 then (if kind = 10 then (1, 0) else if kind = 12 then (3, 0) else (0, 0))
  else (0, 0)

/-- Units of a location and kind, spares counted. -/
def unitTotal (loc kind : Nat) : Nat := (unitPlan loc kind).1 + (unitPlan loc kind).2

/-- The unit exists on this variant (R2, R443). -/
def State.unitExists (s : State) (u : UnitId) : Bool :=
  u.idx < unitTotal u.loc u.kind && (u.loc ≥ 16 || s.present u.loc)

/-- The Curator's orders reach a location (R22). -/
def State.ordersReach (s : State) (loc : Nat) : Bool := (locWing loc).all s.reaches

/-- A unit's state; one that has had no event is in service, or a spare. The 16 masked Keccak lanes are then lanes 0 to 15; a spare that
is promoted takes the kind of the lane that it stands in for (R15). -/
def State.unit (s : State) (u : UnitId) : UnitState :=
  match s.cont.units.get none (unitCode u) with
  | some x => x
  | none => { svc := if u.idx < (unitPlan u.loc u.kind).1 then .inService else .spare, masked := u.kind = Kind.keccak && u.idx < 16 }
def State.setUnit (s : State) (u : UnitId) (x : UnitState) : State :=
  { s with cont := { s.cont with units := s.cont.units.set none (unitCode u) (some x) } }

/-- The units of a location and kind. -/
def unitsOf (loc kind : Nat) : List UnitId := (List.range (unitTotal loc kind)).map fun i => ⟨loc, kind, i⟩

/-- How many units of a location and kind are in service. -/
def State.serviceCount (s : State) (loc kind : Nat) : Nat :=
  ((unitsOf loc kind).filter fun u => (s.unit u).svc == .inService).length

/-- How many masked Keccak lanes a gallery has in service (R15, R234). -/
def State.maskedLanes (s : State) (g : Nat) : Nat :=
  ((unitsOf g Kind.keccak).filter fun u => (s.unit u).svc == .inService && (s.unit u).masked).length

/-- The gallery has keyed Keccak, or keyed SHA-2, work (R234). -/
def State.keyed (s : State) (g : Nat) (keccak : Bool) : Bool :=
  if keccak then s.maskedLanes g ≥ 2 else s.serviceCount g Kind.sha2 ≥ 4

/-- The gallery is in service as a whole: present, out of reset, with its job sequencer and masking generator (R447). -/
def State.galleryUp (s : State) (g : Nat) : Bool :=
  s.present g && !(s.gal g).inReset && s.serviceCount g Kind.sequencer > 0 && s.serviceCount g Kind.mask > 0

/-- Some engine of a kind is being wiped (R29). -/
def Gallery.wipingKind (x : Gallery) (kind : Nat) : Bool := x.wiping.any fun y => y.1 == kind

/-- The compatibility cluster's location on a wing. -/
def compatLoc (w : Wing) : Nat := 16 + wingIdx w

/-- The generator that stands in for a wing's pool instance: itself, or the key-generation instance of the wing's lowest-numbered
gallery in service when it is fenced (R447). -/
def State.poolDrbg (s : State) (w : Wing) : Drbg :=
  if (s.unit (drbgUnit (.pool w))).svc == .fenced then
    match (List.range 16).find? fun g => galleryWing g == w && s.galleryUp g with
    | some g => .keyGen g
    | none => .pool w
  else .pool w

/-- "The wing DRBG that serves key generation": the gallery's key-generation instance, or the wing pool instance when that is
fenced (R365, R447). -/
def State.kgDrbg (s : State) (g : Nat) : Drbg :=
  if (s.unit (drbgUnit (.keyGen g))).svc == .fenced then s.poolDrbg (galleryWing g) else .keyGen g

/-- The gallery's host instance, or the wing pool instance when that is fenced (R447). -/
def State.hostDrbg (s : State) (g : Nat) : Drbg :=
  if (s.unit (drbgUnit (.host g))).svc == .fenced then s.poolDrbg (galleryWing g) else .host g

/-! ### Power shares (R521, R522) -/

/-- The share of class C1 to C3 under thermal throttling: the sixteenths removed come from C3 first, then C2, then C1. -/
def thermalShare (removed cls : Nat) : Nat := 16 - min 16 (removed - 16 * (3 - cls))

/-- The share of dispatch slots that a class has: the lower of the cap's and the thermal one. -/
def State.share (s : State) (cls : Nat) : Nat := min (s.power.capShare.getD (cls - 1) 16) (thermalShare s.power.thermal cls)

end Sys2Proof.Machine
end

