-- ==== Sys2Proof/Machine/Entropy.lean ====
section
/-! DEFINITION. The entropy chain (R358 to R375): sources and their health tests, pools and conditioned blocks, and how the blocks
serve the generators. -/

namespace Sys2Proof.Machine

def State.source (s : State) (k : Nat) : Source := s.entropy.sources.get {} k
def State.setSource (s : State) (k : Nat) (x : Source) : State :=
  { s with entropy := { s.entropy with sources := s.entropy.sources.set {} k x } }

/-- Keys of the pools: 0 West, 1 East, 2 Curator. -/
def poolKey : Pool → Nat
  | .wing w => wingIdx w
  | .curator => 2
def State.pool (s : State) (p : Pool) : PoolState := s.entropy.pools.get {} (poolKey p)
def State.setPool (s : State) (p : Pool) (x : PoolState) : State :=
  { s with entropy := { s.entropy with pools := s.entropy.pools.set {} (poolKey p) x } }

/-! ### Which sources feed which pool (R359) -/

/-- A source exists on this variant. -/
def State.sourceExists (s : State) (k : Nat) : Bool := if k < 64 then s.present (k / 4) else k < 72

/-- A wing receives the Curator's shared samples: its link is up and it is no orphan. -/
def State.shareReaches (s : State) (w : Wing) : Bool := (s.curLink w).up && !s.orphan w

/-- A source feeds a pool. -/
def State.feeds (s : State) (k : Nat) : Pool → Bool
  | .curator => 64 ≤ k && k < 72
  | .wing w => (k < 64 && galleryWing (k / 4) == w) ||
      (64 ≤ k && k < 72 && (if k < 68 then Wing.west else Wing.east) == w && s.shareReaches w)

/-- Sources of a raw-test group (R373). -/
def rawGroup (g : Nat) : List Nat :=
  if g < 16 then (List.range 4).map (4 * g + ·) else if g = 16 then [64, 65, 66, 67] else [68, 69, 70, 71]

/-- A source is under a raw-sample test (R373). -/
def State.underTest (s : State) (k : Nat) : Bool := bit32 s.entropy.rawTest 31 && (rawGroup (bits32 s.entropy.rawTest 0 5)).contains k

/-- A source counts as healthy (R359, R361, R373). -/
def State.healthy (s : State) (k : Nat) : Bool :=
  s.sourceExists k && (s.source k).phase == .healthy && !s.underTest k && (k ≥ 64 || !(s.gal (k / 4)).inReset)

/-- Healthy sources that a pool counts. -/
def State.healthyCount (s : State) (p : Pool) : Nat := ((List.range 72).filter fun k => s.healthy k && s.feeds k p).length

/-- The least healthy count of a pool (R367). -/
def poolMin : Pool → Nat
  | .wing _ => 20
  | .curator => 5

/-- ENTROPY_CFG fields (R375). -/
def State.warnMin (s : State) : Nat := bits32 s.entropy.cfg 16 6
def State.waitBudgetNs (s : State) : Nat := bits32 s.entropy.cfg 0 12 * 100000

def State.entropyReady (s : State) : Wing → Bool
  | .west => s.entropy.readyW
  | .east => s.entropy.readyE

/-- FSTAT_STATUS.entropy_degraded of a wing; 0 until the wing has reported ready (R53, R367). -/
def State.degraded (s : State) (w : Wing) : Bool := s.entropyReady w && s.healthyCount (.wing w) < s.warnMin

/-! ### Generators of a pool -/

/-- The galleries of a wing that the variant has. -/
def State.wingGalleries (s : State) (w : Wing) : List Nat := s.galleries.filter fun g => galleryWing g == w

/-- The DRBG instances that a pool serves, in rank order: key generation and pool, then host (R366). -/
def State.keygenDrbgs (s : State) : Pool → List Drbg
  | .curator => [.curator]
  | .wing w => .pool w :: (s.wingGalleries w).map Drbg.keyGen
def State.hostDrbgs (s : State) : Pool → List Drbg
  | .curator => []
  | .wing w => (s.wingGalleries w).map Drbg.host
def State.poolDrbgs (s : State) (p : Pool) : List Drbg := s.keygenDrbgs p ++ s.hostDrbgs p

/-- The masking generators that a pool serves. -/
def State.poolMasks (s : State) : Pool → List MaskGen
  | .curator => []
  | .wing w => .cluster w :: (s.wingGalleries w).map MaskGen.gallery

/-- A pool below its minimum stops its DRBG instances at once; each must then reseed (R367). -/
def State.enforceMin (s : State) (p : Pool) : State :=
  if s.healthyCount p ≥ poolMin p then s
  else
    let up := (s.poolDrbgs p).filter s.drbgOk
    let s := if p == .curator && !up.isEmpty then s.log 5 0 (dieSrc .curatorDie) [byte (s.healthyCount p)] else s
    s.forAll (s.poolDrbgs p) fun s d =>
      let x := s.drbg d
      if x.inst && !x.low then
        s.setDrbg d { x with stopped := true, low := true, wanted := some (x.wanted.getD s.now),
                             silentAt := if x.stopped then x.silentAt else s.now }
      else s

/-! ### Conditions of the C0 guarantee (R106, R107, R516) -/

/-- Condition 3 fails: freeze, hold, hand-over window or pause, an orphan, a lost wing link. A clock switch-over is no event of it: the
SK72 sets no C0_UNBOUND for one (R516). -/
def State.c0Disturbed (s : State) : Bool :=
  s.stopped || s.handover.state == 2 || s.handover.state == 3 || s.cont.orphanW || s.cont.orphanE || !s.cont.wingLink.up

/-- The wing at which a job was submitted. -/
def srcWing : Src → Wing
  | .host f _ => f.port
  | .docent w _ _ => w

/-- Jobs that have ended and whose record is still to be written: frozen until the report phase, or held while Bus Master Enable is clear (R69,
R76, R423); of C0 or of the other classes, and of the collections and wings that `p` picks. -/
def State.unwritten (s : State) (c0 : Bool) (p : Nat → Wing → Bool) : Nat :=
  (s.tamper.frozenJobs.filter fun x => (x.cls == 0) == c0 && p x.coll (srcWing x.src)).length +
    (s.host.fns.map fun x => match x.2.coll with
      | some c =>
        if p c (if x.1 < 128 then .west else .east) then (x.2.heldRecords.filter fun h => h.q != .admin && h.c0 == c0).length else 0
      | none => 0).sum

/-- C0 jobs in flight of the collections that `p` picks (R76). -/
def State.c0InFlight (s : State) (p : Nat → Bool) : Nat :=
  (s.jobList.filter fun x => x.2.cls == 0 && p x.2.coll).length + s.unwritten true fun c _ => p c

/-- Contexts reserved to C0 over the galleries in service (R106 condition 5). -/
def State.c0Contexts (s : State) : Nat := ((s.galleries.filter s.galleryUp).map fun g => 16 * s.c0share g).sum

/-- More C0 jobs of a collection are in flight than its limit allows now (R106 condition 4). -/
def State.c0Excess (s : State) (c : Nat) : Bool :=
  match s.coll c with
  | some x => s.c0InFlight (· == c) > x.c0Max
  | none => false

/-- Condition 2, 3, 4 or 5 fails now for a C0 job of a wing and a collection. -/
def State.c0Fails (s : State) (w : Wing) (c : Nat) : Bool :=
  s.c0Disturbed || s.degraded w || s.c0Excess c || s.c0InFlight (fun _ => true) > s.c0Contexts

/-- The waiting entries of a queue have met an event of condition 2 or 3. -/
def Queue.spoil (q : Queue) : Queue := { q with arrivals := q.arrivals.map fun r => (r.1, r.2.1, false) }

/-- The waiting entries at a wing's queues have met an event of condition 2 or 3: C0 jobs that they become are not bound. -/
def State.spoilQueues (s : State) (w : Wing) : State :=
  let s := s.forAll (s.host.fns.filter fun p => p.1 / 128 == wingIdx w) fun s p =>
    let f : Fn := ⟨w, p.1 % 128⟩
    s.forAll p.2.queues fun s q => s.setQueue f (.io q.1) (s.queue f (.io q.1)).spoil
  s.forAll (s.doc w).queues fun s p =>
    let d := s.docQueue w (p.1 / 16) (p.1 % 16)
    s.setDocQueue w (p.1 / 16) (p.1 % 16) { d with q := d.q.spoil }

/-- A C0 job for which condition 2, 3, 4 or 5 fails now is marked, and so are the entries that wait at a disturbed or degraded wing. -/
def State.markC0 (s : State) : State :=
  let s := s.forAll s.jobList fun s p =>
    if p.2.cls = 0 && s.c0Fails p.2.wing p.2.coll then s.putJob p.1 { p.2 with flags := p.2.flags ||| Rf.c0Unbound } else s
  s.forAll [Wing.west, .east] fun s w => if s.c0Disturbed || s.degraded w then s.spoilQueues w else s

/-! ### Conditioning (R363, R364) -/

/-- A half of a block that holds any of the failed source's last 1,024 samples. -/
def tainted (k samples : Nat) (l : List (Nat × Nat)) : Bool := l.any fun c => c.1 == k && c.2 + 1024 > samples

/-- A source fails: its waiting samples are gone; a pool that it feeds, or whose block in progress holds a sample of it, drops that block; and every pool
drops the undelivered blocks that it tainted (R363). -/
def State.dropBlocks (s : State) (k : Nat) : State :=
  let n := (s.source k).samples
  s.forAll [Pool.wing .west, .wing .east, .curator] fun s p =>
    let x := s.pool p
    let x := { x with queues := x.queues.set [] k [], blocks := x.blocks.filter fun b => !tainted k n b.2 }
    s.setPool p (if s.feeds k p || x.contributors.any fun c => c.1 == k then { x with taken := [], contributors := [] } else x)

/-- The time of a masking generator's request, if it waits. -/
def State.maskWants (s : State) (m : MaskGen) : Option Nat :=
  let x := s.maskGen m
  if !x.seeded then some 0 else x.wanted

/-- The time of a DRBG instance's request, if it waits. A fenced instance, or one not yet tested, asks for nothing. -/
def State.drbgWants (s : State) (d : Drbg) : Option Nat :=
  let x := s.drbg d
  if (s.unit (drbgUnit d)).svc == .fenced then none
  else if !x.inst then (if x.tested then some 0 else none) else x.wanted

/-- The pool's conditioner takes bits of a source now: those of the Curator's sources go to a wing only while the Curator DRBG waits for
nothing (R364, R366). -/
def State.gives (s : State) (p : Pool) (k : Nat) : Bool :=
  s.healthy k && s.feeds k p && (k < 64 || p == .curator || (s.drbgWants .curator).isNone)

/-- The source whose turn it is: the next one that gives, from the position on, over the 72 in a circle. -/
def State.nextTurn (s : State) (p : Pool) (from_ : Nat) : Option Nat :=
  ((List.range 72).map fun i => (from_ + i) % 72).find? (s.gives p)

/-- Bits enter the block in progress round-robin, one of each source in turn, until it is complete or the source whose turn it is has none. -/
def State.takeBits (s : State) (p : Pool) : Nat → State
  | 0 => s
  | n + 1 =>
    let x := s.pool p
    if x.taken.length ≥ 1024 then s
    else match s.nextTurn p x.turn with
    | none => s
    | some k =>
      match x.queues.get [] k with
      | [] => s
      | b :: l =>
        let rest := x.contributors.filter fun c => c.1 != k
        (s.setPool p { x with queues := x.queues.set [] k l, turn := (k + 1) % 72, taken := x.taken ++ [b.2],
                              contributors := rest ++ [(k, b.1)] }).takeBits p n

/-- A raw bit of a healthy source reaches a pool's conditioner. -/
def State.contribute (s : State) (k : Nat) (bit : Bool) (p : Pool) : State :=
  let x := s.pool p
  (s.setPool p { x with queues := x.queues.set [] k (x.queues.get [] k ++ [((s.source k).samples, bit)]) }).takeBits p 1024

/-! ### Serving requests (R364 to R366, R369) -/

/-- Instantiation of a DRBG instance from 384 bits of entropy and a nonce of 128, or its reseed from 384. -/
def State.seedDrbg (s : State) (d : Drbg) (bits : List (List Byte)) : State :=
  let x := s.drbg d
  let state := if x.inst then Config.prim .drbgReseed [x.state, bits.flatten] 48
    else Config.prim .drbgInstantiate [(bits.take 3).flatten, (bits.drop 3).flatten] 48
  s.setDrbg d { x with inst := true, state, requests := 0, reseededAt := s.now, wanted := none, stopped := false, low := false }

/-- Seeding of a masking generator from a conditioned block. -/
def State.seedMask (s : State) (m : MaskGen) (bits : List (List Byte)) : State :=
  s.setMaskGen m { seeded := true, seed := bits.flatten, reseededAt := s.now, wanted := none, stopped := false }

/-- The oldest of the waiting requests, the first listed among equals. -/
def oldest {α : Type} (wants : α → Option Nat) (l : List α) : Option α :=
  (l.foldl (fun b a =>
    match wants a, b with
    | some t, none => some (a, t)
    | some t, some (b', tb) => if t < tb then some (a, t) else some (b', tb)
    | none, b => b) none).map (·.1)

/-- A pool's die has not completed the start-up tests of its sources since its start: nothing is delivered (R369). -/
def State.starting (s : State) (p : Pool) : Bool :=
  match p with
  | .curator => !(s.drbg .curator).inst && (List.range 8).any fun i => (s.source (64 + i)).phase == .startup
  | .wing w => !s.entropyReady w && (s.wingGalleries w).any fun g => (List.range 4).any fun i => (s.source (4 * g + i)).phase == .startup

/-- The pool serves the first waiting request by rank while its blocks suffice (R366); none during a freeze (R370), below the healthy minimum
(R367) or while its die starts (R369). -/
def State.servePool (s : State) (p : Pool) : Nat → State
  | 0 => s
  | n + 1 =>
    let x := s.pool p
    if s.tamper.frozen || s.healthyCount p < poolMin p || s.starting p then s
    else match oldest s.maskWants (s.poolMasks p) with
    | some m =>
      if x.blocks.length < 2 then s
      else ((s.setPool p { x with blocks := x.blocks.drop 2 }).seedMask m ((x.blocks.take 2).map (·.1))).servePool p n
    | none =>
      let d := match oldest s.drbgWants (s.keygenDrbgs p) with
        | some d => some d
        | none => oldest s.drbgWants (s.hostDrbgs p)
      match d with
      | some d =>
        let k := if (s.drbg d).inst then 3 else 4
        if x.blocks.length < k then s
        else ((s.setPool p { x with blocks := x.blocks.drop k }).seedDrbg d ((x.blocks.take k).map (·.1))).servePool p n
      | none => s

/-- Waiting requests of a pool are served while its blocks suffice. -/
def State.serve (s : State) (p : Pool) : State := s.servePool p ((s.pool p).blocks.length + 1)

/-- The bytes of raw bits, the first bit the least significant (log entry 126). -/
def packBits (l : List Bool) : List Byte := leBytes (l.length / 8) (l.foldr (fun b n => b2n b + 2 * n) 0)

/-- A block is formed as SHA-256 over 1,024 raw bits, and waiting requests are served (R364, R366). -/
def State.formBlock (s : State) (p : Pool) : State :=
  let x := s.pool p
  if x.taken.length < 1024 then s
  else
    let b := Config.prim (.hash 1) [packBits x.taken] 32
    let blocks := x.blocks ++ [(b.take 16, x.contributors), (b.drop 16, x.contributors)]
    ((s.setPool p { x with taken := [], contributors := [], blocks }).takeBits p 1024).serve p

/-! ### Isolation (R361 to R363) -/

/-- The consequences of a change of the sources since `old`: the minimum, and with it regained the requests that wait; and the entropy cause of
a wing whose degraded flag changed, with the C0 jobs that a degraded wing leaves unbound (R54, R107, R367). -/
def State.entropyChanged (old s : State) : State :=
  let s := s.forAll [Pool.wing .west, .wing .east, .curator] fun s p => (s.enforceMin p).serve p
  s.forAll [Wing.west, .east] fun s w =>
    if old.degraded w == s.degraded w then s
    else
      let s := s.raisePort Cause.entropy w
      if s.degraded w then s.markC0 else s

/-- Sources restart under the start-up test; the trim is the loop's own, and samples that waited are gone. -/
def State.restartSources (s : State) (l : List Nat) : State :=
  s.forAll l fun s k =>
    (s.setSource k { trim := (s.source k).trim }).forAll [Pool.wing .west, .wing .east, .curator] fun s p =>
      s.setPool p { s.pool p with queues := (s.pool p).queues.set [] k [] }

/-- The raw test ends: its group's sources, but for those that stay isolated (R362), are re-tested under the start-up test (R374). -/
def State.endRawTest (s : State) : State :=
  let s := s.restartSources ((rawGroup (bits32 s.entropy.rawTest 0 5)).filter fun k => (s.source k).phase != .isolated)
  { s with entropy := { s.entropy with rawTest := setField s.entropy.rawTest 31 1 0, rawBits := [] } }

/-- The SK72 ends the raw test itself, in a commit of its own that opens an epoch, and logs the end (R374, R469). -/
def State.abortRawTest (s : State) (k : Nat) : State :=
  let s := (s.endRawTest).log 5 0 (dieSrc .curatorDie) [byte k]
  let s := { s with work := { s.work with epoch := s.work.epoch + 1 } }
  (s.log 8 St.ok 0 (leBytes 4 s.work.epoch)).raiseAll Cause.epochCommit

/-- A pool that the group under test feeds is below its minimum. -/
def State.testStarves (s : State) : Bool :=
  let g := rawGroup (bits32 s.entropy.rawTest 0 5)
  bit32 s.entropy.rawTest 31 && [Pool.wing .west, .wing .east, .curator].any fun p => g.any (s.feeds · p) && s.healthyCount p < poolMin p

/-- A source fails a test: 1 repetition count, 2 adaptive proportion, 3 start-up, 4 balance (R361, R362). A failure that would
bring a wing or the Curator below its minimum also ends a raw-sample test. -/
def State.isolate (s : State) (k test : Nat) : State :=
  let old := s
  let s := s.dropBlocks k
  let s := s.setSource k { s.source k with phase := .isolated }
  let s := { s with entropy := { s.entropy with lastFail := w32 (k + test * 128 + 2 ^ 31) } }
  let s := s.log 5 0 (if k < 64 then k / 4 + 2 ^ 23 else dieSrc .curatorDie) [byte k, byte test]
  let s := if old.healthy k && s.testStarves then s.abortRawTest k else s
  State.entropyChanged old s

/-! ### Samples (R358, R361) -/

/-- Samples discarded after a start, and samples of the start-up test. -/
def settleSamples : Nat := 128
def startupSamples : Nat := 1024

/-- The source has taken every sample of its start-up test. -/
def Source.startupDone (x : Source) : Bool := x.samples ≥ settleSamples + startupSamples

/-- The source's samples are still discarded while its loop settles. -/
def Source.settling (x : Source) : Bool := x.phase == .startup && x.samples < settleSamples

/-- The counters of the health tests after a sample past the discarded ones. -/
def Source.count (x : Source) (bit : Bool) : Source :=
  let run := if x.run > 0 && x.last == bit then x.run + 1 else 1
  let fresh := x.winLen = 0 || x.winLen ≥ 1024
  let first := if fresh then bit else x.winFirst
  { x with last := bit, run, winFirst := first, winLen := if fresh then 1 else x.winLen + 1,
           winHits := if fresh then 1 else x.winHits + b2n (bit == first) }

/-- The test that a counted sample fails, 0 for none; in the start-up phase either is a start-up failure. -/
def Source.failure (x : Source) : Nat :=
  let t := if x.run ≥ 81 then 1 else if x.winHits ≥ 836 then 2 else 0
  if t != 0 && x.phase == .startup then 3 else t

/-- Samples of a raw test are lost, which is reported; the word in progress begins anew, so that its samples stay aligned (R374). -/
def State.rawGap (s : State) : State := { s with entropy := { s.entropy with rawOverflow := true, rawBits := [] } }

/-- A raw-test sample enters the FIFO: bit 4i + k of a word is sample i of the group's source k (R374). -/
def State.rawSample (s : State) (k : Nat) (bit : Bool) : State :=
  let e := s.entropy
  if e.rawFifo.length ≥ 1024 then s.rawGap
  else
    let q := e.rawBits.set [] (k % 4) (e.rawBits.get [] (k % 4) ++ [bit])
    if (List.range 4).any fun j => (q.get [] j).length < 8 then { s with entropy := { e with rawBits := q } }
    else
      let v := w32 (((List.range 32).map fun b => b2n ((q.get [] (b % 4)).getD (b / 4) false) * 2 ^ b).sum)
      let left := (List.range 4).foldl (fun q j => q.set [] j ((q.get [] j).drop 8)) q
      { s with entropy := { e with rawBits := left, rawFifo := e.rawFifo ++ [v] } }

/-- One more sample of a source is counted. -/
def Source.sampled (x : Source) (bit : Bool) : Source :=
  { x with samples := x.samples + 1, ones := x.ones + b2n bit, sinceAdj := x.sinceAdj + 1 }

/-- A sample makes a source fail a test (R361, R362). -/
def Source.fails (x : Source) (bit : Bool) : Bool :=
  (x.phase == .healthy || (x.phase == .startup && !x.settling && !x.startupDone)) && ((x.sampled bit).count bit).failure != 0

/-- One sample of a source (R358, R361). An isolated source's samples are discarded, but under a raw-sample test they still reach the host
(R373; log entry 127). -/
def State.sample (s : State) (k : Nat) (bit : Bool) : State :=
  let x := s.source k
  if !s.sourceExists k || x.phase == .absent || (k < 64 && (s.gal (k / 4)).inReset) then s
  else
    let s := if !s.underTest k then s else if x.settling then s.rawGap else s.rawSample k bit
    if x.phase == .isolated || (x.phase == .startup && x.startupDone) then s
    else
      let settling := x.settling
      let x := x.sampled bit
      if settling then s.setSource k x
      else
        let x := x.count bit
        let s := s.setSource k x
        if x.failure != 0 then s.isolate k x.failure
        else s.forAll ([Pool.wing .west, .wing .east, .curator].filter fun p => s.gives p k) fun s p => s.contribute k bit p

/-- The balancing loop's move after 4,096 samples, and a trim that sits at an end for three adjustments (R358). -/
def State.balance (s : State) (k : Nat) : State :=
  let x := s.source k
  if x.sinceAdj < 4096 || x.phase == .absent || x.phase == .isolated then s
  else
    let half := x.sinceAdj / 2
    let t := if x.ones > half then (if x.trim = 0 then 0 else x.trim - 1) else if x.ones < half then (if x.trim = 63 then 63 else x.trim + 1)
             else x.trim
    let sat_ := if t = 0 || t = 63 then x.saturated + 1 else 0
    let s := s.setSource k { x with trim := t, saturated := sat_, ones := 0, sinceAdj := 0 }
    if sat_ ≥ 3 then s.isolate k 4 else s

/-! ### Restarts (R370) -/

/-- DRBG instances and masking generators are uninstantiated and wiped. -/
def State.wipeGenerators (s : State) (ds : List Drbg) (ms : List MaskGen) : State :=
  (s.forAll ds fun s d => s.setDrbg d { silentAt := s.now }).forAll ms fun s m => s.setMaskGen m {}

/-- A wing's part of the chain restarts: its gallery sources, pool, instances and masking generators. -/
def State.restartWingEntropy (s : State) (w : Wing) : State :=
  let s := s.restartSources ((List.range 64).filter fun k => galleryWing (k / 4) == w && s.present (k / 4))
  let s := (s.setPool (.wing w) {}).wipeGenerators (s.poolDrbgs (.wing w)) (s.poolMasks (.wing w))
  match w with
  | .west => { s with entropy := { s.entropy with readyW := false } }
  | .east => { s with entropy := { s.entropy with readyE := false } }

/-- A gallery's part restarts (R370, R454). -/
def State.restartGalleryEntropy (s : State) (g : Nat) : State :=
  (s.restartSources ((List.range 4).map (4 * g + ·))).wipeGenerators [.keyGen g, .host g] [.gallery g]

/-- The whole chain restarts: power-on, device reset, leaving STANDBY. -/
def State.restartEntropy (s : State) : State :=
  let s := ((s.restartSources (List.range 72)).restartWingEntropy .west).restartWingEntropy .east
  (s.setPool .curator {}).setDrbg .curator { silentAt := s.now }

end Sys2Proof.Machine
end

