-- ==== Sys2Proof/Machine/Cards.lean ====
section
/-! DEFINITION. The custodian card slots (R496 to R509). -/

namespace Sys2Proof.Machine

/-! ### Fields (R509) -/

def Card.classMode (c : Card) : Nat := bits32 c.ctrl 0 2
/-- clk_div: values outside 20 to 100 act as 25. -/
def Card.clkDiv (c : Card) : Nat := let d := bits32 c.ctrl 4 7; if 20 ≤ d && d ≤ 100 then d else 25
def Card.retries (c : Card) : Nat := bits32 c.ctrl 11 3
def Card.maxD (c : Card) : Nat := bits32 c.ctrl 16 5
/-- One card clock in ns. -/
def Card.clkNs (c : Card) : Nat := 10 * c.clkDiv

namespace Cr
def ok : Nat := 0
def cardGone : Nat := 1
def noCard : Nat := 2
def noAtr : Nat := 3
def atrInvalid : Nat := 4
def noT0 : Nat := 5
def paramUnsupported : Nat := 6
def ppsFailed : Nat := 7
def parity : Nat := 8
def timeout : Nat := 9
def procInvalid : Nat := 10
def notActive : Nat := 11
def notAllowed : Nat := 12
def aborted : Nat := 13
def vccFault : Nat := 14
end Cr

/-! ### Transmission parameters (R496, R500) -/

/-- Fi of a code of TA1. -/
def fiOf (code : Nat) : Option Nat := match code with | 0 | 1 => some 372 | 9 => some 512 | _ => none
/-- Di of a code of TA1. -/
def diOf (code : Nat) : Option Nat :=
  match code with | 1 => some 1 | 2 => some 2 | 3 => some 4 | 4 => some 8 | 5 => some 16 | 6 => some 32 | 8 => some 12 | 9 => some 20
                  | _ => none
/-- The code of a supported Di. -/
def diCode (d : Nat) : Nat := match d with | 2 => 2 | 4 => 3 | 8 => 4 | 16 => 5 | 12 => 8 | _ => 1
/-- Supported Di for a Fi, highest first. -/
def disOf (fi : Nat) : List Nat := if fi = 372 then [12, 4, 2, 1] else [16, 8, 4, 2, 1]

/-- Fields of CARD_PARAMS. -/
def Card.fi (c : Card) : Nat := (fiOf (bits32 c.params 0 4)).getD 372
def Card.wi (c : Card) : Nat := let w := bits32 c.params 16 8; if w = 0 then 10 else w
/-- WT in ns: 960 × WI × Fi / f (R496). -/
def Card.wtNs (c : Card) : Nat := 960 * c.wi * c.fi * c.clkNs
/-- The initial WT. -/
def Card.initialWtNs (c : Card) : Nat := 960 * 10 * 372 * c.clkNs

/-! ### The ATR -/

/-- What an ATR says, once as many characters have arrived as its structure needs. -/
structure Atr where
  len : Nat := 2
  ta1 : Option Byte := none
  tc1 : Option Byte := none
  tc2 : Option Byte := none
  ta2 : Option Byte := none
  /-- first TA after T = 15 -/
  t15 : Option Byte := none
  protos : List Nat := []
  deriving DecidableEq, Repr

/-- The interface characters from position `i`, of level `lv`, whose presence bits are `y`, in the scope of protocol `t`. -/
def atrWalk (l : List Byte) : Nat → Nat → Nat → Nat → Nat → Atr → Option Atr
  | 0, _, _, _, _, _ => none
  | n + 1, i, lv, y, t, a =>
    let ta := if y.testBit 0 then 1 else 0
    let tb := if y.testBit 1 then 1 else 0
    let tc := if y.testBit 2 then 1 else 0
    let last := i + ta + tb + tc
    if l.length < last + (if y.testBit 3 then 1 else 0) then none
    else
      let A := if ta = 1 then l[i]? else none
      let C := if tc = 1 then l[i + ta + tb]? else none
      let a := { a with ta1 := if lv = 1 then A else a.ta1, tc1 := if lv = 1 then C else a.tc1, ta2 := if lv = 2 then A else a.ta2,
                        tc2 := if lv = 2 then C else a.tc2, t15 := if t = 15 && a.t15.isNone then A else a.t15 }
      if y.testBit 3 then
        let td := byteAt l last
        atrWalk l n (last + 1) (lv + 1) (td / 16) (td % 16) { a with protos := a.protos ++ [td % 16] }
      else some { a with len := last }

/-- TCK is required when a protocol other than T = 0 is indicated. -/
def Atr.tck (a : Atr) : Bool := a.protos.any (· != 0)

/-- The ATR's structure; `len` is its whole length with historical characters and TCK. None while more characters must come. -/
def parseAtr (l : List Byte) : Option Atr :=
  if l.length < 2 then none
  else (atrWalk l 8 2 1 (byteAt l 1 / 16) 0 {}).map fun a => { a with len := a.len + byteAt l 1 % 16 + b2n a.tck }

/-- TCK correct: the exclusive or of T0 to TCK is zero. -/
def tckOk (l : List Byte) : Bool := (l.drop 1).foldl (· ^^^ ·) 0 == 0

/-- T = 0 is offered (R498 step 6). -/
def Atr.offersT0 (a : Atr) : Bool :=
  let p := a.protos.filter (· != 15)
  (p.isEmpty || p.contains 0) && (match a.ta2 with | some b => b.toNat % 16 == 0 | none => true)

/-- Fi and Di of TA1 are a supported pair. -/
def ta1Supported (b : Byte) : Bool :=
  match fiOf (b.toNat / 16), diOf (b.toNat % 16) with
  | some fi, some di => (disOf fi).contains di
  | _, _ => false

/-- PPS1 for TA1: its Fi when supported, else 372; the highest supported Di not above TA1's and not above max_d (R500). -/
def pps1For (b : Byte) (maxD : Nat) : Byte :=
  let fc := b.toNat / 16
  let fiCode := if (fiOf fc).isSome then fc else 1
  let fi := (fiOf fiCode).getD 372
  let top := min ((diOf (b.toNat % 16)).getD 1) (max 1 maxD)
  let d := ((disOf fi).find? fun d => d ≤ top).getD 1
  byte (fiCode * 16 + diCode d)

/-- CARD_PARAMS from Fi and Di codes and the ATR's N and WI. -/
def paramsWord (codes : Byte) (a : Atr) (pps : Bool) : Word32 :=
  w32 (codes.toNat / 16 + codes.toNat % 16 * 16 + (match a.tc1 with | some n => n.toNat | none => 0) * 256 +
    (match a.tc2 with | some w => w.toNat | none => 10) * 65536 + b2n pps * 2 ^ 24)

/-! ### Ends of commands and deactivation (R501, R506) -/

/-- A TPDU runs. -/
def Card.inTpdu (c : Card) : Bool := match c.phase with | .header | .proc | .data _ | .sw2 => true | _ => false

/-- CARD_RESULT is set, the command is over and `done` rises. -/
def Card.finish (c : Card) (result : Nat) : Card :=
  let outcome := if !c.inTpdu then 0 else if result = Cr.ok then 3 else if c.sent < 5 then 1 else 2
  let tp := c.inTpdu
  { c with result := w32 (result + (if tp then b2n c.procSeen * 256 + b2n c.swSeen * 512 + c.sent % 512 * 4096 else 0) + outcome * 1024 + 2 ^ 31),
           busy := false, phase := .idle, irq := c.irq ||| 1, aborting := false }

/-- The contacts are being driven low. -/
def Card.toDeactivating (c : Card) (now : Nat) : Card :=
  if c.state == .empty || c.state == .present then { c with phase := .idle }
  else { c with state := .deactivating, phase := .idle, since := now, endAfter := false }

/-- A failure ends the command with a result and deactivates the card. -/
def Card.fail (c : Card) (result now : Nat) : Card := { (c.finish result).toDeactivating now with next := 0 }

/-- A deactivation after which the activation goes on: 1 at class B, 2 at the same class without PPS. -/
def Card.again (c : Card) (next now : Nat) : Card := { c.toDeactivating now with next, busy := true }

/-- NO_ATR, or class C not offered: class B follows under class_mode 0 (R499). -/
def Card.noAtr (c : Card) (result now : Nat) : Card :=
  if c.cls = 1 && (c.classMode = 0 || c.classMode = 3) && !c.triedB then c.again 1 now else c.fail result now

/-- A PPS failure (R500). -/
def Card.ppsFail (c : Card) (now : Nat) : Card :=
  if c.ppsFailed then c.fail Cr.ppsFailed now else { c.again 2 now with ppsFailed := true }

/-! ### Sending (R502, R503) -/

/-- Length of P3 in bytes for the direction. -/
def Card.p3Len (c : Card) : Nat := let p := bits32 c.p3 0 8; if bit32 c.p3 8 && p = 0 then 256 else p
/-- The slot receives data in this TPDU. -/
def Card.receives (c : Card) : Bool := bit32 c.p3 8
def Card.ins (c : Card) : Byte := byte (bits32 c.hdr 8 8)

/-- The bytes of the PPS request. -/
def Card.ppsBytes (c : Card) : List Byte :=
  let p := byte (bits32 c.params 0 4 * 16 + bits32 c.params 4 4)
  [0xFF, 0x10, p, 0xFF ^^^ 0x10 ^^^ p]

/-- The character that the slot sends next, none while it waits for the card. -/
def Card.toSend (c : Card) : Option Byte :=
  match c.phase with
  | .pps => if c.sent < 4 then c.ppsBytes[c.sent]? else none
  | .header => if c.sent < 4 then some (byte (bits32 c.hdr (8 * c.sent) 8)) else if c.sent = 4 then some (byte (bits32 c.p3 0 8)) else none
  | .data _ => if c.receives then none else some (Tbl.get 0 c.data (c.sent - 5))
  | _ => none

/-- The slot with the character it now sends driven on IO. -/
def State.cardSend (s : State) (n : Nat) (c : Card) : State :=
  let s := s.setCard n { c with since := s.now }
  match c.toSend with
  | some b => s.emit (.cardChar n b)
  | none => s

/-- Data bytes left to send or receive. -/
def Card.remaining (c : Card) : Nat := if c.receives then c.p3Len - c.got else c.p3Len - (c.sent - 5)

/-- The phase after a data byte, or after the procedure byte that allows data. -/
def Card.dataPhase (c : Card) (one : Bool) : Card := if c.remaining = 0 then { c with phase := .proc } else { c with phase := .data one }

/-! ### Activation (R498 to R500) -/

/-- Step 1 for a class: 1 C, 2 B. -/
def State.cardPowerUp (s : State) (n : Nat) (c : Card) (cls : Nat) : State :=
  (s.setCard n { c with state := .activating, busy := true, phase := .vcc, cls, atr := [], inverse := false, since := s.now, sent := 0,
                        got := 0, repeats := 0, ppsGot := [], params := 0x000A0011, next := 0 }).emit (.cardPower n true cls)

/-- The slot is ACTIVE and the command has ended with OK. -/
def Card.activated (c : Card) : Card := { (c.finish Cr.ok) with state := .active }

/-- Steps 5 to 7 once the whole ATR has arrived. -/
def State.atrDone (s : State) (n : Nat) (c : Card) (a : Atr) : State :=
  let ind := match a.t15 with | some b => b.toNat % 64 | none => 63
  let c := { c with clkStopMode := match a.t15 with | some b => b.toNat / 64 | none => 0 }
  if a.len > 33 || (a.tck && !tckOk c.atr) then s.setCard n (c.fail Cr.atrInvalid s.now)
  else if c.cls = 1 && !(ind.testBit 2) && (c.classMode = 0 || c.classMode = 3) && !c.triedB then s.setCard n (c.again 1 s.now)
  else if !a.offersT0 then s.setCard n (c.fail Cr.noT0 s.now)
  else match a.ta2, a.ta1 with
    | some t2, t1 =>
      let codes := t1.getD 0x11
      if t2.toNat.testBit 4 || !ta1Supported codes then s.setCard n (c.fail Cr.paramUnsupported s.now)
      else s.setCard n ({ c with params := paramsWord codes a false }).activated
    | none, none => s.setCard n ({ c with params := paramsWord 0x11 a false }).activated
    | none, some t1 =>
      if c.ppsFailed then s.setCard n ({ c with params := paramsWord 0x11 a false }).activated
      else s.cardSend n { c with params := paramsWord (pps1For t1 c.maxD) a false, phase := .pps, sent := 0, ppsGot := [] }

/-- A character of the ATR; TS comes no earlier than 400 clocks after RST rises, which is 1,000 clocks after CLK starts (R498). -/
def State.atrChar (s : State) (n : Nat) (c : Card) (b : Byte) : State :=
  let first := c.atr.isEmpty
  if first && s.now - c.since < 1400 * c.clkNs then s.setCard n (c.noAtr Cr.noAtr s.now) else
  let c := { c with phase := .atr, atr := c.atr ++ [b], since := s.now, inverse := if first then b == 0x3F else c.inverse }
  if first && b != 0x3B && b != 0x3F then s.setCard n (c.fail Cr.atrInvalid s.now)
  else match parseAtr c.atr with
    | none => if c.atr.length ≥ 33 then s.setCard n (c.fail Cr.atrInvalid s.now) else s.setCard n c
    | some a =>
      if a.len > 33 then s.setCard n (c.fail Cr.atrInvalid s.now)
      else if c.atr.length < a.len then s.setCard n c else s.atrDone n c a

/-! ### Receiving (R502, R503) -/

/-- A procedure byte. -/
def State.procByte (s : State) (n : Nat) (c : Card) (b : Byte) : State :=
  let c := { c with procSeen := true, since := s.now }
  let hi := b.toNat / 16
  if b == 0x60 then s.setCard n c
  else if b == c.ins then s.cardSend n (c.dataPhase false)
  else if b == c.ins ^^^ 0xFF then s.cardSend n (c.dataPhase true)
  else if hi == 6 || hi == 9 then s.setCard n { c with swSeen := true, sw1 := b, phase := .sw2 }
  else s.setCard n (c.fail Cr.procInvalid s.now)

/-- SW2 ends the TPDU with OK; a freeze or an abort then deactivates. -/
def State.sw2Byte (s : State) (n : Nat) (c : Card) (b : Byte) : State :=
  let c := { c with sw := w32 (c.sw1.toNat + b.toNat * 256 + c.got % 512 * 65536) }
  let after := c.endAfter
  let c := c.finish Cr.ok
  s.setCard n (if after then c.toDeactivating s.now else c)

/-- A character received with good parity. -/
def State.cardChar (s : State) (n : Nat) (c : Card) (b : Byte) : State :=
  let c := { c with repeats := 0 }
  if c.aborting then s.setCard n (c.fail Cr.aborted s.now)
  else match c.phase with
    | .vcc | .atr => s.atrChar n c b
    | .pps =>
      if c.sent < 4 then s
      else
        let got := c.ppsGot ++ [b]
        let c := { c with ppsGot := got, since := s.now }
        if got != c.ppsBytes.take got.length then s.setCard n (c.ppsFail s.now)
        else if got.length < 4 then s.setCard n c
        else s.setCard n ({ c with params := c.params ||| 0x01000000 }).activated
    | .proc => s.procByte n c b
    | .data one =>
      if !c.receives then s
      else
        let c := { c with data := Tbl.set 0 c.data (c.got % 256) b, got := c.got + 1, since := s.now }
        s.setCard n (if one || c.remaining = 0 then { c with phase := .proc } else c)
    | .sw2 => s.sw2Byte n c b
    | _ => s

/-- A character received with a parity error: IO is pulled low, and after the retries the slot deactivates. -/
def State.cardParity (s : State) (n : Nat) (c : Card) : State :=
  let listening := match c.phase with
    | .vcc | .atr | .proc | .sw2 => true
    | .pps => c.sent ≥ 4
    | .data _ => c.receives
    | _ => false
  if !listening then s
  else if c.repeats ≥ c.retries then s.setCard n (c.fail Cr.parity s.now)
  else (s.setCard n { c with repeats := c.repeats + 1, since := s.now }).emit (.cardError n)

/-! ### The slot's commands -/

/-- The first header character of a TPDU is sent. -/
def State.startTpdu (s : State) (n : Nat) (c : Card) : State :=
  s.cardSend n { c with busy := true, phase := .header, state := .active, sent := 0, got := 0, procSeen := false, swSeen := false, repeats := 0,
                        aborting := false }

/-- A slot exists. -/
def cardOk (n : Nat) : Bool := n < 2

def execCardInsertion (slot : Nat) (s : State) : Res :=
  .next (let c := s.card slot
    if !cardOk slot || c.present then s
    else s.setCard slot { c with present := true, irq := c.irq ||| 2, state := if c.state == .empty then .present else c.state })

/-- A removal deactivates at once; a running command ends with CARD_GONE (R497, R507, R508). -/
def execCardRemoval (slot : Nat) (s : State) : Res :=
  .next (let c := s.card slot
    if !cardOk slot || !c.present then s
    else
      let c := { c with present := false, irq := c.irq ||| 6 }
      let c := if c.busy then c.finish Cr.cardGone else c
      s.setCard slot (if c.state == .present then { c with state := .empty, next := 0 } else { c.toDeactivating s.now with next := 0 }))

def State.cardActivate (s : State) (slot : Nat) : State :=
    let c := s.card slot
    if !cardOk slot || c.busy then s
    else if !c.present then s.setCard slot (c.finish Cr.noCard)
    else if c.state != .present then s
    else s.cardPowerUp slot { c with ppsFailed := false, triedB := c.classMode = 1 } (if c.classMode = 1 then 2 else 1)

def execCardActivate (slot : Nat) (s : State) : Res := .next (s.cardActivate slot)

def State.cardDeactivate (s : State) (slot : Nat) : State :=
    let c := s.card slot
    if !cardOk slot then s
    else if c.busy then s.setCard slot (c.fail Cr.aborted s.now)
    else s.setCard slot ((c.finish Cr.ok).toDeactivating s.now)

def execCardDeactivate (slot : Nat) (s : State) : Res := .next (s.cardDeactivate slot)

def State.cardWarmReset (s : State) (slot : Nat) : State :=
    let c := s.card slot
    if !cardOk slot || c.busy || !(c.state == .active || c.state == .sleep) then s
    else s.setCard slot { c with state := .activating, busy := true, phase := .atr, atr := [], ppsGot := [], ppsFailed := false, sent := 0, got := 0,
                                 repeats := 0, params := 0x000A0011, since := s.now }

def execCardWarmReset (slot : Nat) (s : State) : Res := .next (s.cardWarmReset slot)

def State.cardStart (s : State) (slot : Nat) : State :=
    let c := s.card slot
    if !cardOk slot || c.busy then s
    else if c.state == .active || c.state == .sleep then s.startTpdu slot c
    else s.setCard slot (c.finish Cr.notActive)

def execCardStart (slot : Nat) (s : State) : Res := .next (s.cardStart slot)

def State.cardClkStop (s : State) (slot : Nat) : State :=
    let c := s.card slot
    if !cardOk slot || c.busy then s
    else if c.state != .active then s.setCard slot (c.finish Cr.notActive)
    else if c.clkStopMode = 0 then s.setCard slot (c.finish Cr.notAllowed)
    else s.setCard slot { (c.finish Cr.ok) with state := .sleep }

def execCardClkStop (slot : Nat) (s : State) : Res := .next (s.cardClkStop slot)

def State.cardWake (s : State) (slot : Nat) : State :=
    let c := s.card slot
    if !cardOk slot || c.busy || c.state != .sleep then s else s.setCard slot { (c.finish Cr.ok) with state := .active }

def execCardWake (slot : Nat) (s : State) : Res := .next (s.cardWake slot)

/-- Abort: the character in progress completes first (R508). -/
def State.cardAbort (s : State) (slot : Nat) : State :=
    let c := s.card slot
    if !cardOk slot || c.state == .empty || c.state == .present || c.state == .deactivating then s
    else if c.toSend.isSome then s.setCard slot { c with aborting := true }
    else s.setCard slot (c.fail Cr.aborted s.now)

def execCardAbort (slot : Nat) (s : State) : Res := .next (s.cardAbort slot)

def execCardCharacterReceive (slot : Nat) (b : Byte) (parityOk : Bool) (s : State) : Res :=
  .next (let c := s.card slot
    if !cardOk slot || !c.busy then s else if parityOk then s.cardChar slot c b else s.cardParity slot c)

/-- One character has been sent: repeated on the card's error signal, else the next one, or the wait for the card (R502, R503). -/
def execCardCharacterSent (slot : Nat) (errorSignal : Bool) (s : State) : Res :=
  .next (let c := s.card slot
    if !cardOk slot || !c.busy || c.toSend.isNone then s
    else if errorSignal then
      (if c.aborting then s.setCard slot (c.fail Cr.aborted s.now)
       else if c.repeats ≥ c.retries then s.setCard slot (c.fail Cr.parity s.now)
       else s.cardSend slot { c with repeats := c.repeats + 1 })
    else
      let c := { c with sent := c.sent + 1, repeats := 0 }
      if c.aborting then s.setCard slot (c.fail Cr.aborted s.now)
      else match c.phase with
        | .header => s.cardSend slot (if c.sent ≥ 5 then { c with phase := .proc } else c)
        | .data one => s.cardSend slot (if one || c.remaining = 0 then { c with phase := .proc } else c)
        | _ => s.cardSend slot c)

def execCardVccTimeout (slot : Nat) (s : State) : Res :=
  .next (let c := s.card slot
    if cardOk slot && c.phase == .vcc && s.now - c.since ≥ 1000000 then s.setCard slot (c.fail Cr.vccFault s.now) else s)

/-- No TS within 40,000 clocks of RST rising, or no later character within 9,600 ETU (R498 step 4). -/
def execCardAtrTimeout (slot : Nat) (s : State) : Res :=
  .next (let c := s.card slot
    let limit := if c.atr.isEmpty then 41000 * c.clkNs else 9600 * 372 * c.clkNs
    if cardOk slot && (c.phase == .vcc || c.phase == .atr) && s.now - c.since ≥ limit then s.setCard slot (c.noAtr Cr.noAtr s.now) else s)

def execCardClassBRetry (slot : Nat) (s : State) : Res :=
  .next (let c := s.card slot
    if cardOk slot && c.phase == .offHold && c.present && s.now - c.since ≥ 10000000 then s.cardPowerUp slot { c with triedB := true } 2 else s)

/-- WT has passed: a TPDU ends with TIMEOUT; a PPS response has not come (R500, R504). -/
def execCardWaitingTimeExpiry (slot : Nat) (s : State) : Res :=
  .next (let c := s.card slot
    if !cardOk slot then s
    else if c.inTpdu && s.now - c.since ≥ c.wtNs then s.setCard slot (c.fail Cr.timeout s.now)
    else if c.phase == .pps && s.now - c.since ≥ c.initialWtNs then s.setCard slot (c.ppsFail s.now)
    else s)

/-- The contacts are low and VEN is deasserted (R501); an activation that goes on at class B first holds VCC off, one without PPS
starts again at the same class. -/
def execCardDeactivationComplete (slot : Nat) (s : State) : Res :=
  .next (let c := s.card slot
    if !cardOk slot || c.state != .deactivating then s
    else
      let s := s.emit (.cardPower slot false 0)
      let st := if c.present then CardState.present else .empty
      if c.next = 1 && c.present then s.setCard slot { c with state := .activating, phase := .offHold, since := s.now, next := 0 }
      else if c.next = 2 && c.present then s.cardPowerUp slot c c.cls
      else s.setCard slot { c with state := st, phase := .idle, busy := false, cls := 0, next := 0 })

/-- The value read from CARD_RESULT goes to the core; the read clears it. -/
def execCardResultRead (slot : Nat) (s : State) : Res :=
  .next (if !cardOk slot then s
    else
      let c := s.card slot
      (s.setCard slot { c with result := 0 }).emit (.access .west 0 false (leBytes 4 c.result.toNat)))

def execCardIrqClear (slot : Nat) (v : Word32) (s : State) : Res :=
  .next (if !cardOk slot then s else let c := s.card slot; s.setCard slot { c with irq := c.irq &&& ~~~v })

/-! ### Resets and freezes (R501, R508) -/

/-- A freeze lets a TPDU complete and then deactivates; otherwise deactivates at once. -/
def State.freezeCards (s : State) : State :=
  s.forAll [0, 1] fun s n =>
    let c := s.card n
    if c.inTpdu then s.setCard n { c with endAfter := true }
    else if c.state == .empty || c.state == .present then s
    else s.setCard n (if c.busy then c.fail Cr.aborted s.now else c.toDeactivating s.now)

/-- A Docent cluster reset, STANDBY or OFF deactivates; the reset also returns the registers to their reset values and logs a TPDU in
progress. -/
def State.resetCards (s : State) : State :=
  s.forAll [0, 1] fun s n =>
    let c := s.card n
    let s := if c.inTpdu then
        let r := c.finish Cr.aborted
        s.log 2 0 0 [byte n, byte (c.sent % 256), byte (c.sent / 256), byte (bits32 r.result 10 2)]
      else s
    let powered := !(c.state == .empty || c.state == .present)
    s.setCard n { present := c.present, state := if powered then .deactivating else c.state, since := s.now }

/-- The contacts are driven low at STANDBY or OFF. -/
def State.deactivateCards (s : State) : State :=
  s.forAll [0, 1] fun s n => let c := s.card n; s.setCard n (if c.busy then c.fail Cr.aborted s.now else c.toDeactivating s.now)

end Sys2Proof.Machine
end

