-- ==== Sys2Proof/Machine/Store.lean ====
section
/-! DEFINITION. The Storeroom's tiles, regions and channels, and the effects of a tile's write and of its failures (R376 to R397). -/

namespace Sys2Proof.Machine

/-! ### Channels (R376, R377, R381) -/

def State.channel (s : State) (c : Nat) : Channel := s.store.channels.get {} c
def State.setChannel (s : State) (c : Nat) (x : Channel) : State :=
  { s with store := { s.store with channels := s.store.channels.set {} c x } }

/-- The device channel number of channel 0 or 1 of a wing. -/
def wingChannel (w : Wing) (k : Nat) : Nat := 2 * wingIdx w + k
/-- The wing of a channel. -/
def channelWing (c : Nat) : Wing := if c < 2 then .west else .east

/-- A channel is in service. -/
def State.channelUp (s : State) (c : Nat) : Bool := (s.channel c).state == 2

/-- The DRAM reset output of a channel is held low: the channel is absent, retired or unpowered (R376). -/
def State.dramReset (s : State) (c : Nat) : Bool := (s.channel c).state == 0 || (s.channel c).state == 3 || s.boot.inReset

/-- Channels of a wing in service. -/
def State.wingChannels (s : State) (w : Wing) : List Nat := [wingChannel w 0, wingChannel w 1].filter s.channelUp

/-- Usable capacity of a wing in units of 0.5 GB: 63/64 of what its channels in service hold (R379). -/
def State.usableHalfGb (s : State) (w : Wing) : Nat := ((s.wingChannels w).map fun c => (s.channel c).capacityGb).sum * 126 / 64

/-- Tiles in 0.5 GB. -/
def tilesPerUnit : Nat := 2 ^ 17

/-- The three regions of a wing. -/
inductive Region where
  | catalogue | treeCache | docent
  deriving DecidableEq, Repr

/-- Region sizes in units of 0.5 GB (R397 STORE_REGIONS). -/
def State.regionUnits (s : State) : Region → Nat
  | .catalogue => bits32 s.store.regions 0 9
  | .treeCache => bits32 s.store.regions 9 9
  | .docent => bits32 s.store.regions 18 9

/-- First tile of the Docent region: the regions follow one another in the order of R380. -/
def State.docentBase (s : State) : Nat := (s.regionUnits .catalogue + s.regionUnits .treeCache) * tilesPerUnit

/-- The region a tile lies in. -/
def State.regionOf (s : State) (t : Nat) : Option Region :=
  if t < s.regionUnits .catalogue * tilesPerUnit then some .catalogue
  else if t < s.docentBase then some .treeCache
  else if t < s.docentBase + s.regionUnits .docent * tilesPerUnit then some .docent
  else none

/-- The tile lies in a region mirrored on both wings. -/
def State.mirrored (s : State) (t : Nat) : Bool := s.regionOf t == some .catalogue || s.regionOf t == some .treeCache

def State.tile (s : State) (t : TileId) : Tile := (s.storeWing t.wing).tiles.get {} t.tile
def State.setTile (s : State) (t : TileId) (x : Tile) : State :=
  let w := s.storeWing t.wing
  s.setStoreWing t.wing { w with tiles := w.tiles.set {} t.tile x }

/-- The channel that holds a tile (R381): the tile map's override, else even tiles on channel 0 and odd ones on channel 1 of a
wing with two; a retired or absent channel's tiles lie on the other. -/
def State.channelOf (s : State) (t : TileId) : Nat :=
  let k := match (s.tile t).home with | some k => k | none => t.tile % 2
  let st := (s.channel (wingChannel t.wing k)).state
  if st == 3 || st == 0 then wingChannel t.wing (1 - k) else wingChannel t.wing k

/-- The key of a counter node. -/
def nodeKey (level n : Nat) : Nat := 2 ^ 29 * level + n
def State.node (s : State) (w : Wing) (level n : Nat) : Node := (s.storeWing w).nodes.get {} (nodeKey level n)
def State.setNode (s : State) (w : Wing) (level n : Nat) (x : Node) : State :=
  let sw := s.storeWing w
  s.setStoreWing w { sw with nodes := sw.nodes.set {} (nodeKey level n) x }

/-- The gate of a wing accepts accesses: it holds a tile key, its tree is initialised and the device is not frozen (R384, R385,
R396). -/
def State.gateUp (s : State) (w : Wing) : Bool :=
  !(s.storeWing w).tileKey.isEmpty && (s.storeWing w).initDone && !s.tamper.frozen

/-- A wing's half without tile key, node cache and root (R394, R396). -/
def StoreWing.wiped (x : StoreWing) : StoreWing := { x with tileKey := [], nodes := [], cache := [], root := [], rootDue := [] }

/-- A wing's half whose tree starts again: no tile is written, and only the tile map is left (R384, R395). -/
def StoreWing.fresh (x : StoreWing) : StoreWing :=
  { x.wiped with initDone := false, tiles := (x.tiles.filter fun p => p.2.home.isSome).map fun p => (p.1, { home := p.2.home }) }

/-! ### Encryption and the counter tree (R382 to R384) -/

/-- The 96-bit nonce of a tile (level 0) or node under a version, big-endian (R382). -/
def tileNonce (w : Wing) (level number version : Nat) : List Byte :=
  beBytes 12 (wingIdx w * 2 ^ 95 + level % 4 * 2 ^ 93 + number % 2 ^ 29 * 2 ^ 64 + version % 2 ^ 64)

/-- AES-256-GCM without additional data: the ciphertext of a content, which is the content of a ciphertext too, and the tag over a ciphertext. -/
def gcmCrypt (key nonce bs : List Byte) : List Byte := xorBytes bs (Config.prim .gcmStream [key, nonce] bs.length)
def gcmTag (key nonce ct : List Byte) : List Byte := Config.prim .gcmTag [key, nonce, ct] 16

/-- The tag of a content written under a wing's tile key. -/
def State.sealTag (s : State) (w : Wing) (level number version : Nat) (bs : List Byte) : List Byte :=
  let key := (s.storeWing w).tileKey
  gcmTag key (tileNonce w level number version) (gcmCrypt key (tileNonce w level number version) bs)

/-- The version of a tile (level 0) or node. -/
def State.versionAt (s : State) (w : Wing) (level number : Nat) : Nat :=
  if level = 0 then (s.tile ⟨w, number⟩).version else (s.node w level number).version

/-- A node's content: the versions of the 128 tiles or nodes below it (R383). -/
def State.nodeBytes (s : State) (w : Wing) (level n : Nat) : List Byte :=
  (List.range 128).flatMap fun i => leBytes 8 (s.versionAt w (level - 1) (128 * n + i))

/-- The nodes of a tile's path, by level (R383). -/
def pathNodes (t : Nat) : List (Nat × Nat) := [(1, t / 128), (2, t / 16384), (3, t / 2097152)]

/-- A node is in its wing's node cache; the level-3 nodes always are (R383). -/
def State.nodeHeld (s : State) (w : Wing) (level n : Nat) : Bool := level = 3 || (s.storeWing w).cache.contains (nodeKey level n)

/-- Nodes of levels 1 and 2 that the node cache of 4 MiB holds beside the wing's level-3 nodes, of 1 KiB each (R383). -/
def State.nodeRoom (s : State) (w : Wing) : Nat := 4096 - (s.usableHalfGb w * tilesPerUnit + 2097151) / 2097152

/-- The root of a wing holds the version of a level-3 node; the Curator writes it (R383). -/
def State.setRoot (s : State) (w : Wing) (n version : Nat) : State :=
  s.setStoreWing w { s.storeWing w with root := (s.storeWing w).root.set 0 n version, rootDue := (s.storeWing w).rootDue.filter (· != n) }

/-- A node is dirty, since now where it was not, and in the node cache. -/
def State.dirtyNode (s : State) (w : Wing) (level n : Nat) : State :=
  let s := s.setNode w level n { s.node w level n with dirtyAt := some ((s.node w level n).dirtyAt.getD s.now) }
  if s.nodeHeld w level n then s
  else s.setStoreWing w { s.storeWing w with cache := nodeKey level n :: (s.storeWing w).cache }

/-- A node written back under a new version; the node above it, or the root, takes that version (R384). -/
def State.writeBack (s : State) (w : Wing) (level n : Nat) : State :=
  let x := s.node w level n
  let v := x.version + 1
  let s := s.setNode w level n { x with version := v, dirtyAt := none, verifiedAt := s.runNs, echo := v, tag := s.sealTag w level n v (s.nodeBytes w level n) }
  if level = 3 then s.setRoot w n v else s.dirtyNode w (level + 1) (n / 128)

/-- The node used last leaves the node cache where it holds too many; a dirty one is written back first. Which node leaves is the model's (DESIGN
CHOICE, log entry 144). -/
def State.evictNode (s : State) (w : Wing) : State :=
  let l := (s.storeWing w).cache
  match l.getLast? with
  | none => s
  | some k =>
    if l.length ≤ s.nodeRoom w then s
    else
      let s := if (s.node w (k / 2 ^ 29) (k % 2 ^ 29)).dirtyAt.isSome then s.writeBack w (k / 2 ^ 29) (k % 2 ^ 29) else s
      s.setStoreWing w { s.storeWing w with cache := (s.storeWing w).cache.filter (· != k) }

/-- The path of a tile is in the node cache and used; a node that was not there has been fetched and verified now (R386, R394). -/
def State.cachePath (s : State) (t : TileId) : State :=
  let s := s.forAll ((pathNodes t.tile).filter fun p => !s.nodeHeld t.wing p.1 p.2) fun s p =>
    s.setNode t.wing p.1 p.2 { s.node t.wing p.1 p.2 with verifiedAt := s.runNs }
  let keys := ((pathNodes t.tile).filter fun p => p.1 ≤ 2).map fun p => nodeKey p.1 p.2
  let s := s.setStoreWing t.wing { s.storeWing t.wing with cache := keys ++ (s.storeWing t.wing).cache.filter fun k => !keys.contains k }
  s.forAll (List.range 4) fun s _ => s.evictNode t.wing

/-- One wing's copy of a tile takes new content: its version rises by 1 in its level-1 node, which is resident and dirty, and a media
failure is cleared (R384, R492). -/
def State.writeTile (s : State) (t : TileId) (data : List Byte) : State :=
  let x := s.tile t
  let v := x.version + 1
  let data := padTo 4096 data
  let s := s.setTile t { x with version := v, data, echo := v, tag := s.sealTag t.wing 0 t.tile v data, mediaFailed := false, unlendable := false }
  (s.cachePath t).dirtyNode t.wing 1 (t.tile / 128)

/-- The place of a write while the tile's channel is being retired: the wing's other channel (R392). -/
def State.moveHome (s : State) (t : TileId) : State :=
  let c := s.channelOf t
  if (s.channel c).retiring then s.setTile t { s.tile t with home := some (1 - c % 2) } else s

/-- One wing's copy written at its place. -/
def State.putTile (s : State) (t : TileId) (data : List Byte) : State := (s.moveHome t).writeTile t data

/-- `n` bytes of a wing's Docent region from byte `off` of the region; an unwritten tile reads zeros (R384). -/
def State.docentRead (s : State) (w : Wing) (off n : Nat) : List Byte :=
  (List.range n).map fun i =>
    (s.tile ⟨w, s.docentBase + (off + i) / 4096⟩).data.getD ((off + i) % 4096) 0

/-- Tiles that a span of bytes touches. -/
def spanTiles (off n : Nat) : List Nat := (List.range ((off % 4096 + n + 4095) / 4096)).map fun k => off / 4096 + k

/-- Bytes stored from byte `off` of a wing's tiles: every tile touched is read and written whole (R387). -/
def State.writeSpan (s : State) (w : Wing) (off : Nat) (bytes : List Byte) : State :=
  s.forAll (spanTiles off bytes.length) fun s k =>
    let old := padTo 4096 (s.tile ⟨w, k⟩).data
    let new := (List.range 4096).map fun i =>
      let a := 4096 * k + i
      if off ≤ a && a < off + bytes.length then bytes.getD (a - off) 0 else old.getD i 0
    s.putTile ⟨w, k⟩ new

/-- Bytes stored into a wing's Docent region (R492); an orphan's gate, or one that is not up, writes nothing (R394, R396). -/
def State.docentWrite (s : State) (w : Wing) (off : Nat) (bytes : List Byte) : State :=
  if s.orphan w || !s.gateUp w then s else s.writeSpan w (4096 * s.docentBase + off) bytes

/-- Bytes stored into both copies of a mirrored region; a copy on an orphan becomes stale (R394). -/
def State.writeMirrored (s : State) (off : Nat) (bytes : List Byte) : State :=
  s.forAll [Wing.west, .east] fun s w =>
    if s.orphan w then s.setStoreWing w { s.storeWing w with stale := true }
    else if s.gateUp w then s.writeSpan w off bytes else s

/-- A span covers a media-failed or unlendable tile that it does not overwrite whole. -/
def State.docentSpanFails (s : State) (w : Wing) (off n : Nat) (write : Bool) : Bool :=
  (spanTiles off n).any fun k =>
    let x := s.tile ⟨w, s.docentBase + k⟩
    (x.mediaFailed || x.unlendable) && !(write && off ≤ 4096 * k && 4096 * (k + 1) ≤ off + n)

/-! ### Region sizes (R380) -/

/-- Sizes of the regions, in units of 0.5 GB, that are a wing's: within its usable capacity, and at least 1 GB for the catalogue. -/
def State.regionsFit (s : State) (w : Wing) (r : Nat × Nat × Nat) : Bool := 2 ≤ r.1 && r.1 + r.2.1 + r.2.2 ≤ s.usableHalfGb w

/-- The STORE_REGIONS word of the policy's sizes, or of the default shares of a wing's usable capacity. Sizes of a policy that no longer fit, channels
having been lost since its commit, give the defaults (DESIGN CHOICE, log entry 143). -/
def State.regionWord (s : State) (w : Wing) : Word32 :=
  let u := s.usableHalfGb w
  let d := (u * 3 / 8, u / 16, u / 16)
  let r := (s.devPolicy.regions.getD d)
  let r := if s.regionsFit w r then r else d
  w32 (r.1 % 512 + r.2.1 % 512 * 2 ^ 9 + r.2.2 % 512 * 2 ^ 18)

/-- The regions take their sizes, from the wing in service that holds less. Written tiles that a change of sizes moves to another region, or to
another place of the Docent region, read as zeros from then on (DESIGN CHOICE, log entry 143). -/
def State.sizeRegions (s : State) : State :=
  let up := [Wing.west, .east].filter fun w => !(s.wingChannels w).isEmpty
  match up with
  | [] => s
  | w :: r =>
    let least := r.foldl (fun a b => if s.usableHalfGb b < s.usableHalfGb a then b else a) w
    let t : State := { s with store := { s.store with regions := s.regionWord least } }
    if s.store.regions = 0 || t.store.regions = s.store.regions then t
    else
      let moved (n : Nat) : Bool := s.regionOf n != t.regionOf n || (s.regionOf n == some .docent && s.docentBase != t.docentBase)
      t.forAll [Wing.west, .east] fun t w =>
        t.forAll (((t.storeWing w).tiles.map (·.1)).filter moved) fun t n => if t.gateUp w then t.writeTile ⟨w, n⟩ [] else t

/-! ### Failures (R388) -/

/-- STORE_LASTFAIL and STORE_LASTFAIL_NUM latch a failure when not valid (R397). -/
def State.latchFail (s : State) (kind : Nat) (w : Wing) (level num : Nat) : State :=
  if bit32 s.store.lastFail 31 then s
  else { s with store := { s.store with lastFail := w32 (kind + 4 * wingIdx w + 8 * level + 2 ^ 31), lastFailNum := w32 (num % 2 ^ 29) } }

/-- Set `repaired` of the latched failure when it names the tile. -/
def State.markRepaired (s : State) (t : TileId) : State :=
  let v := s.store.lastFail
  if bit32 v 31 && bits32 v 2 1 == wingIdx t.wing && bits32 v 3 2 == 0 && s.store.lastFailNum == w32 (t.tile % 2 ^ 29) then
    { s with store := { s.store with lastFail := v ||| 0x20 } }
  else s

/-- The detail of a Storeroom record: wing, level and number. -/
def storeDetail (w : Wing) (level num : Nat) : List Byte := [byte (wingIdx w), byte level] ++ leBytes 4 num

/-- A corrected burst is counted (R388, R391). -/
def State.countCe (s : State) (t : TileId) : State :=
  let c := s.channelOf t
  let x := s.channel c
  let y := s.tile t
  (s.setChannel c { x with ce := sat (2 ^ 32 - 1) (x.ce + 1) }).setTile t { y with ceThisPass := y.ceThisPass + 1 }

/-- 24 hours in ns. -/
def dayNs : Nat := 86400000000000

/-- An uncorrectable burst is counted, with its time for R392. -/
def State.countUe (s : State) (t : TileId) : State :=
  let c := s.channelOf t
  let x := s.channel c
  s.setChannel c { x with ue := sat (2 ^ 32 - 1) (x.ue + 1), ueTimes := (x.ueTimes.filter fun a => s.now - a < dayNs) ++ [s.now] }

/-- A media failure of a tile, or of a node of its path. -/
def State.mediaFailure (s : State) (t : TileId) (level : Nat) : State :=
  let num := t.tile / 128 ^ level
  let s := (s.countUe t).latchFail 1 t.wing level num
  let y := s.tile t
  (s.setTile t { y with mediaFailed := true }).log 4 St.storeroomMedia (dieSrc (wingDie t.wing)) (storeDetail t.wing level num)

/-- An integrity (2) or stale (3) failure of a tile, or of a node of its path. -/
def State.integrityFailure (s : State) (t : TileId) (stale_ : Bool) (level : Nat) : State :=
  let num := t.tile / 128 ^ level
  let s := { s with store := { s.store with integ := if stale_ then s.store.integ else sat 65535 (s.store.integ + 1),
                                            stale := if stale_ then sat 65535 (s.store.stale + 1) else s.store.stale } }
  let s := s.latchFail (if stale_ then 3 else 2) t.wing level num
  let y := s.tile t
  (s.setTile t { y with unlendable := true }).log 4 (if stale_ then St.storeroomStale else St.storeroomIntegrity)
    (dieSrc (wingDie t.wing)) (storeDetail t.wing level num)

/-- The counts, latch and log of a failure with a status (R388). -/
def State.storeFailure (s : State) (t : TileId) (st : Byte) (level : Nat) : State :=
  if st == St.storeroomMedia then s.mediaFailure t level else s.integrityFailure t (st == St.storeroomStale) level

/-- Steps 1, 3 and 4 of R386 for one tile or node whose expected version, and whose echo as last written, are given: bytes other than those last
written there pass where their tag verifies under the expected version. -/
def State.dramStatus (s : State) (w : Wing) (level number version echo : Nat) (r : DramRead) : Byte :=
  let key := (s.storeWing w).tileKey
  let good (b : DramBytes) (v : Nat) : Bool := gcmTag key (tileNonce w level number v) b.ct == b.tag
  if r.media then St.storeroomMedia
  else match r.bytes with
    | none => if echo = version then St.ok else St.storeroomStale
    | some b =>
      if good b version then St.ok
      else if b.echo != version && good b b.echo then St.storeroomStale
      else St.storeroomIntegrity

/-- What a fetch brought for a node of the path. -/
def nodeRead (f : TileFetch) (level : Nat) : DramRead := if level = 1 then f.node1 else f.node2

/-- The nodes of the path that a fetch reads, the highest first: those below the first one that the node cache holds (R386). -/
def State.missing (s : State) (t : TileId) : List (Nat × Nat) := ((pathNodes t.tile).takeWhile fun p => !s.nodeHeld t.wing p.1 p.2).reverse

/-- What the four steps of R386 make of a fetch: the status, and the level at which it failed. A tile that has not been written is not fetched. -/
def State.fetchStatus (s : State) (t : TileId) (f : TileFetch) : Byte × Nat :=
  let x := s.tile t
  let bad := (s.missing t).filterMap fun p =>
    let n := s.node t.wing p.1 p.2
    let st := s.dramStatus t.wing p.1 p.2 n.version n.echo (nodeRead f p.1)
    if st == St.ok then none else some (st, p.1)
  if x.version = 0 then (St.ok, 0)
  else if f.tile.media then (St.storeroomMedia, 0)
  else match bad with
    | b :: _ => b
    | [] => (s.dramStatus t.wing 0 t.tile x.version x.echo f.tile, 0)

/-- The counts, latch and log of what a fetch met (R388). -/
def State.recordFetch (s : State) (t : TileId) (f : TileFetch) : State :=
  if (s.tile t).version = 0 then s
  else
    let x := s.fetchStatus t f
    let reads := f.tile :: (s.missing t).map fun p => nodeRead f p.1
    let s := s.forAll (reads.filter (·.corrected)) fun s _ => s.countCe t
    if x.1 == St.ok then s else s.storeFailure t x.1 x.2

/-- The peer wing's gate can serve a mirrored tile (R389, R393). -/
def State.peerServes (s : State) (t : TileId) : Bool :=
  let p := otherWing t.wing
  s.mirrored t.tile && s.cont.wingLink.up && !s.orphan p && s.admitted p && s.gateUp p && !(s.storeWing p).stale

/-- A tile reads as a media failure at its own gate: its bursts, an earlier failure, or a channel that no longer answers. -/
def State.effective (s : State) (t : TileId) (f : TileFetch) : TileFetch :=
  { f with tile := { f.tile with media := f.tile.media || (s.tile t).mediaFailed || (s.channel (s.channelOf t)).failed } }

/-- A read that the loan desk, a BFE or the ledger makes of a tile as it stands: through the gate's steps, from the peer wing's copy where the
wing's own has a media failure; a tile whose tag has failed fails until it is rewritten (R386, R388, R389). -/
def State.gateRead (s : State) (t : TileId) : Byte × State :=
  if (s.tile t).version = 0 then (St.ok, s)
  else if (s.tile t).unlendable then (St.storeroomIntegrity, s)
  else
    let f := s.effective t {}
    let st := (s.fetchStatus t f).1
    let s := s.recordFetch t f
    if st == St.ok then (st, s.cachePath t)
    else
      let p : TileId := ⟨otherWing t.wing, t.tile⟩
      if st == St.storeroomMedia && s.peerServes t && !(s.tile p).unlendable && (s.fetchStatus p (s.effective p {})).1 == St.ok then (St.ok, s.cachePath p)
      else (st, s)

/-- Reads of several tiles, up to the first that fails. -/
def State.gateReads (s : State) : List TileId → Byte × State
  | [] => (St.ok, s)
  | t :: r => let x := s.gateRead t; if x.1 == St.ok then x.2.gateReads r else x

end Sys2Proof.Machine
end

