-- ==== Sys2Proof/Machine/DocBus.lean ====
section
/-! DEFINITION. The access units (R484 to R491) and the Docent memories behind their windows. -/

namespace Sys2Proof.Machine

/-! ### Access units -/

/-- Reset windows of R486: window 0 of a core's unit maps its local memory with r, w and x, window 1 the shared memory with r and
w; their base addresses are the model's choice. -/
def auReset (master : Nat) : AccessUnit :=
  if master < 8 then
    { windows := [{ ctrl := w32 (1 + 14 + 18 * 1024) }, { base := 0x00800000, ctrl := w32 (1 + 6 + 128 + 23 * 1024) }] ++
        List.replicate 6 {} }
  else {}

def State.au (s : State) (w : Wing) (m : Nat) : AccessUnit := (s.doc w).units.get (auReset m) m
def State.setAu (s : State) (w : Wing) (m : Nat) (x : AccessUnit) : State :=
  s.setDoc w { s.doc w with units := (s.doc w).units.set (auReset m) m x }

/-- Fields of a window (R488). -/
def Window.enabled (x : Window) : Bool := bit32 x.ctrl 0
def Window.size (x : Window) : Nat := 2 ^ bits32 x.ctrl 10 6
def Window.kind (x : Window) : Nat := bits32 x.ctrl 7 3
def Window.addr (x : Window) : Nat := bits32 x.base 12 20 * 4096 + bits32 x.base 0 8 * 2 ^ 32
def Window.target (x : Window) : Nat := bits32 x.tgtLo 12 20 * 4096 + x.tgtHi.toNat * 2 ^ 32

/-- What an access reaches. -/
inductive DocTarget where
  | slot (n off : Nat)
  /-- a register of an access unit, or of the core's internal queues -/
  | auReg (unit off : Nat)
  | dqReg (off : Nat)
  | local_ (core off : Nat)
  | shared (off : Nat)
  | host (addr : Nat)
  | store (off : Nat)
  deriving DecidableEq, Repr

/-- Codes of AU_VINFO.op. -/
def opCode : AccessOp → Nat
  | .read => 0
  | .write => 1
  | .fetch => 2

/-- The permission bit of an operation in AU_WCTRL. -/
def opBit : AccessOp → Nat
  | .read => 1
  | .write => 2
  | .fetch => 3

/-- Where a window sends an address. -/
def windowTarget (master : Nat) (x : Window) (addr : Nat) : DocTarget :=
  let t := x.target + (addr - x.addr)
  match x.kind with
  | 0 => .local_ (if master < 8 then master else x.target / 2 ^ 40 % 8) (t % 2 ^ 40)
  | 1 => .shared t
  | 2 => .host t
  | _ => .store t

/-- The check of R484: the target, or the kind and index of the violation. -/
def State.auCheck (s : State) (w : Wing) (master : Nat) (op : AccessOp) (addr len : Nat) (user : Bool) : Except (Nat × Nat) DocTarget :=
  let u := s.au w master
  let user := user && master != 9
  if 0x10000000 ≤ addr && addr + len ≤ 0x10008000 then
    let n := (addr - 0x10000000) / 4096
    let c := u.slots.getD n 0
    let may := match op with | .read => bit32 c 0 | .write => bit32 c 1 | .fetch => false
    if may && (!user || bit32 c 2) then .ok (.slot n (addr % 4096)) else .error (2, n)
  else if 0x11000000 ≤ addr && addr < 0x1100A000 then
    let n := (addr - 0x11000000) / 4096
    if user || op == .fetch then .error (2, 31)
    else if op == .write && !((n == master && master < 8) || (master == 0 && n == 8)) then .error (3, 31)
    else .ok (.auReg n (addr % 4096))
  else if 0x12000000 ≤ addr && addr < 0x12000200 && master < 8 then
    if user || op == .fetch then .error (2, 31) else .ok (.dqReg (addr - 0x12000000))
  else
    match u.windows.zipIdx.find? fun p => p.1.enabled && p.1.addr ≤ addr && addr + len ≤ p.1.addr + p.1.size with
    | none => .error (if master = 9 && Config.keyBearing addr then 5 else 1, 31)
    | some (x, k) => if bit32 x.ctrl (opBit op) && (!user || bit32 x.ctrl 4) then .ok (windowTarget master x addr) else .error (2, 8 + k)

/-- The number of a unit in the EVLOG mirrors (R495). -/
def auNumber (w : Wing) (m : Nat) : Nat := 10 * wingIdx w + m

/-- A violation (R491): the first since the capture was armed is latched and logged; every one is counted. -/
def State.violation (s : State) (w : Wing) (m kind : Nat) (op : Nat) (user : Bool) (index addr : Nat) : State :=
  let u := s.au w m
  let u := { u with vcount := sat (2 ^ 32 - 1) (u.vcount + 1) }
  if bit32 u.vinfo 0 then s.setAu w m u
  else
    let v := w32 (1 + kind * 2 + op * 16 + b2n user * 64 + index * 128)
    (s.setAu w m { u with vinfo := v, vaddr := addr % 2 ^ 40 }).log 7 St.accessDenied (dieSrc (wingDie w))
      (leBytes 4 v.toNat ++ leBytes 8 (addr % 2 ^ 40) ++ [byte (auNumber w m)])

/-! ### Docent memory -/

/-- Bytes read through a window's target. What host memory holds is outside the part: free values. -/
def State.docMemRead (s : State) (w : Wing) (t : DocTarget) (n : Nat) : List Byte × State :=
  match t with
  | .local_ core off => (Tbl.readBytes 0 (s.doc w).local_ (core * 2 ^ 18 + off) n, s)
  | .shared off => (Tbl.readBytes 0 (s.doc w).shared off n, s)
  | .store off => (s.docentRead w off n, s)
  | .host _ => ((List.range n).map fun i => byte (Config.freeNat (s.freeCtr + i)), { s with freeCtr := s.freeCtr + n })
  | _ => (zeros n, s)

/-- Bytes stored through a window's target. -/
def State.docMemWrite (s : State) (w : Wing) (t : DocTarget) (bytes : List Byte) : State :=
  match t with
  | .local_ core off => s.setDoc w { s.doc w with local_ := Tbl.writeBytes 0 (s.doc w).local_ (core * 2 ^ 18 + off) bytes }
  | .shared off => s.setDoc w { s.doc w with shared := Tbl.writeBytes 0 (s.doc w).shared off bytes }
  | .store off => s.docentWrite w off bytes
  | .host addr => s.writeHost w addr bytes
  | _ => s

/-- The dispatcher reads or writes a ring of a core's internal queue through the core's access unit (R481): the target of the bytes,
or none with the violation captured. -/
def State.ringTarget (s : State) (w : Wing) (core : Nat) (op : AccessOp) (addr len : Nat) : Option DocTarget × State :=
  match s.auCheck w core op addr len false with
  | .ok (.slot _ _) | .ok (.auReg _ _) | .ok (.dqReg _) => (none, s)
  | .ok t => (some t, s)
  | .error (kind, index) => (none, s.violation w core kind (opCode op) false index addr)

/-- A window's target accepts accesses: the Storeroom's does not on an orphan, or while the gate is not up (R394, R396). -/
def State.targetOpen (s : State) (w : Wing) : DocTarget → Bool
  | .store _ => !s.orphan w && s.gateUp w
  | _ => true

/-! ### Internal queues (R481 to R483) -/

/-- The ring bases and depth of an internal queue. -/
def DocQueue.sqAddr (d : DocQueue) : Nat := d.sqLo.toNat + d.sqHi.toNat * 2 ^ 32
def DocQueue.cqAddr (d : DocQueue) : Nat := d.cqLo.toNat + d.cqHi.toNat * 2 ^ 32
def DocQueue.depth (d : DocQueue) : Nat := 2 ^ bits32 d.ctrl 16 11
def DocQueue.on (d : DocQueue) : Bool := bit32 d.ctrl 0
def DocQueue.coll (d : DocQueue) : Nat := bits32 d.ctrl 6 10
def DocQueue.classMask (d : DocQueue) : Nat := bits32 d.ctrl 2 4

/-- The completion side of a ring of `depth` records after one more: the tail advances, and the phase turns when it wraps. -/
def Queue.advance (x : Queue) (depth : Nat) (tag : Word32) : Queue :=
  let tail := (x.cqTail + 1) % max 1 depth
  { x with cqTail := tail, phase := if tail = 0 then !x.phase else x.phase, lastTag := tag }

/-- A record of a Docent queue that finds nowhere to go: it is lost, and logged. -/
def State.docRecordLost (s : State) (w : Wing) (core q : Nat) (r : Record) : State :=
  s.log 1 r.status (dieSrc (wingDie w)) (leBytes 4 r.tag.toNat ++ [byte core, byte q])

/-- A record written to an internal queue's completion ring through the core's access unit; of a destroyed or unreachable ring it
is discarded and its tag logged (R479, R481). -/
def State.putDocRecord (s : State) (w : Wing) (core q : Nat) (r : Record) : State :=
  let d := s.docQueue w core q
  if !d.on then s.docRecordLost w core q r
  else match s.ringTarget w core .write (d.cqAddr + 32 * d.q.cqTail) 32 with
    | (none, s) => s.docRecordLost w core q r
    | (some tg, s) =>
      if !s.targetOpen w tg then s.docRecordLost w core q r else
      let r := { r with flags := if d.q.phase then r.flags ||| Rf.phase else r.flags }
      (s.docMemWrite w tg (recordBytes r)).setDocQueue w core q { d with q := d.q.advance d.depth r.tag }

/-- Jobs consumed from internal queues that `p` picks run on, and their records will be discarded (R479). -/
def State.loseDocRecords (s : State) (p : Src → Bool) : State :=
  s.forAll (s.jobList.filter fun x => p x.2.src) fun s x => s.putJob x.1 { x.2 with noRecord := true }

/-- The source is an internal queue of a wing's cores. -/
def ofDocents (w : Wing) : Src → Bool
  | .host _ _ => false
  | .docent v _ _ => v == w

/-- A Docent cluster reset (R479): memory wiped, access units at their reset values (unit 9's locks stay until a device reset), the
internal queues destroyed, and the card slots (R501, R508) and the GPIO registers (R541) at their reset values. -/
def State.docentReset (s : State) (w : Wing) (device : Bool) : State :=
  let s := s.resetCards.loseDocRecords (ofDocents w)
  let d := s.doc w
  let unit9 := if device then [] else d.units.filter fun p => p.1 == 9
  s.setDoc w { d with local_ := [], shared := [], units := unit9, queues := [], csr := [], timerIrq := 0,
                      compares := [0, 0, 0, 0, 0, 0, 0, 0], timerBase := s.now, rtcCompare := 0, rtcIrq := false, frozen := false,
                      gpioOut := 0, gpioOe := 0, gpioOd := 0, gpioPull := 0xFF, gpioIrqEn := 0, gpioIrq := 0 }

end Sys2Proof.Machine
end

