-- ==== Sys2Proof/Machine/Keys.lean ====
section
/-! DEFINITION. Handles, key classes with their material lengths and purposes, and accession templates (R149, R153, R158). -/

namespace Sys2Proof.Machine

/-! ### Purposes (R130) -/

namespace Pu
def encrypt : Nat := 1
def decrypt : Nat := 2
def wrap : Nat := 3
def unwrap : Nat := 4
def derive : Nat := 5
def sign : Nat := 6
def verify : Nat := 7
def macGenerate : Nat := 8
def macVerify : Nat := 9
def decapsulate : Nat := 10
def agree : Nat := 11
end Pu

/-! ### Handles (R149) -/

/-- The handle of a collection, index and generation. -/
def handleOf (coll index gen : Nat) : Word64 := w64 (coll % 1024 * 2 ^ 54 + index % 2 ^ 32 * 2 ^ 22 + gen % 65536 * 64)

def handleColl (h : Word64) : Nat := bits64 h 54 10
def handleIndex (h : Word64) : Nat := bits64 h 22 32
def handleGen (h : Word64) : Nat := bits64 h 6 16
/-- Bits [5:0] are zero (R130). -/
def handleLowZero (h : Word64) : Bool := bits64 h 0 6 == 0

/-- The catalogue key of an entry. -/
def entryKey (coll index : Nat) : Nat := coll * 2 ^ 32 + index

def recHandle (r : CatRecord) : Word64 := handleOf r.coll r.index r.gen

/-! ### Lengths fixed by class, selector and class_word -/

/-- n of an SLH-DSA parameter set (R258). -/
def slhN (sel : Nat) : Nat := if sel ≤ 4 then 16 else if sel ≤ 8 then 24 else 32

/-- n of an LMS or XMSS selector: bit 6 chooses 24 over 32 (R259, R260). -/
def hbsN (sel : Nat) : Nat := if sel.testBit 6 then 24 else 32

/-- Field length of an EC selector, for Weierstrass curves (R312); loadable curves take it from their block (R314). -/
def ecField (curve : Nat → List Byte) (sel : Nat) : Nat :=
  match sel with
  | 1 => 32 | 2 => 48 | 3 => 66
  | _ => if 0x80 ≤ sel && sel ≤ 0x9F then byteAt (curve (sel - 0x80)) 1 else 0

/-- Heights of the levels of an LMS class_word, top first (R259). -/
def lmsHeights (cw : Nat) : List Nat :=
  (List.range (fieldAt cw 0 3 + 1)).map fun l => 5 * (fieldAt cw (3 + 3 * l) 3 + 1)

/-- An LMS class_word follows R259: no reserved height code, unused levels zero, heights at most 60 in all, top at most H25,
raw_lms only with one level. -/
def lmsWordOk (cw : Nat) : Bool :=
  let n := fieldAt cw 0 3 + 1
  (List.range 8).all (fun l => if l < n then fieldAt cw (3 + 3 * l) 3 ≤ 4 else fieldAt cw (3 + 3 * l) 3 == 0) &&
    (lmsHeights cw).sum ≤ 60 && (!cw.testBit 27 || n == 1) && fieldAt cw 28 4 == 0

/-- An LMS selector has zero bits [5:2] (R259). -/
def lmsSelOk (sel : Nat) : Bool := fieldAt sel 2 4 == 0 && sel < 256

/-- Total height and layer count of an XMSS shape (R260); none when reserved. -/
def xmssShape (sel : Nat) : Option (Nat × Nat) :=
  match fieldAt sel 0 6 with
  | 0x01 => some (10, 1) | 0x02 => some (16, 1) | 0x03 => some (20, 1)
  | 0x11 => some (20, 2) | 0x12 => some (20, 4) | 0x13 => some (40, 2) | 0x14 => some (40, 4) | 0x15 => some (40, 8)
  | 0x16 => some (60, 3) | 0x17 => some (60, 6) | 0x18 => some (60, 12)
  | _ => none

/-- Classic McEliece private and public key lengths (R287). -/
def mceLens (sel : Nat) : Option (Nat × Nat × Nat) :=
  match (sel + 1) / 2 with
  | 1 => some (6492, 261120, 96) | 2 => some (13608, 524160, 156) | 3 => some (13932, 1044992, 208)
  | 4 => some (13948, 1047319, 194) | 5 => some (14120, 1357824, 208)
  | _ => none

/-- HQC private, public and ciphertext lengths (R289). -/
def hqcLens (sel : Nat) : Option (Nat × Nat × Nat) :=
  match sel with
  | 1 => some (2305, 2249, 4433) | 2 => some (4586, 4522, 8978) | 3 => some (7317, 7245, 14421)
  | _ => none

/-- The material length L that a class, selector and class_word fix (R153 and the engine chapters); none when the selector or
class_word is not one of the class. `curve` reads the curve table; the HQC classes are the bundle's (`State.classLen`). -/
def classLen (curve : Nat → List Byte) (cls sel cw : Nat) : Option Nat :=
  let z (o : Option Nat) : Option Nat := if cw == 0 then o else none
  match cls with
  | 0x01 | 0x40 => match sel with | 1 => some 16 | 2 => some 24 | 3 => some 32 | _ => none
  | 0x02 => match sel with | 0x11 => some 16 | 0x12 => some 24 | _ => none
  | 0x03 => if 2 ≤ sel && sel ≤ 16 then some (8 * sel) else none
  | 0x10 => if cw ≤ 1 then
      (match sel with
        | 1 => some (if cw == 1 then 64 else 1632)
        | 2 => some (if cw == 1 then 64 else 2400)
        | 3 => some (if cw == 1 then 64 else 3168)
        | _ => none) else none
  | 0x11 => z (match sel with | 1 => some 800 | 2 => some 1184 | 3 => some 1568 | _ => none)
  | 0x12 => if cw ≤ 1 then
      (match sel with
        | 1 => some (if cw == 1 then 32 else 2560)
        | 2 => some (if cw == 1 then 32 else 4032)
        | 3 => some (if cw == 1 then 32 else 4896)
        | _ => none) else none
  | 0x13 => z (match sel with | 1 => some 1312 | 2 => some 1952 | 3 => some 2592 | _ => none)
  | 0x14 => z (match sel with | 1 => some 1281 | 2 => some 2305 | _ => none)
  | 0x15 => z (match sel with | 1 => some 897 | 2 => some 1793 | _ => none)
  | 0x16 => z (if 1 ≤ sel && sel ≤ 12 then some (4 * slhN sel) else none)
  | 0x17 => z (if 1 ≤ sel && sel ≤ 12 then some (2 * slhN sel) else none)
  | 0x18 => if lmsSelOk sel && lmsWordOk cw then some 48 else none
  | 0x19 => if lmsSelOk sel && lmsWordOk cw then some ((if cw.testBit 27 then 24 else 28) + hbsN sel) else none
  | 0x1A => z ((xmssShape sel).map fun _ => 4 * hbsN sel)
  | 0x1B => z ((xmssShape sel).map fun _ => 4 + 2 * hbsN sel)
  | 0x20 => z ((mceLens sel).map (·.1))
  | 0x21 => z (if sel ≤ 8 then (mceLens sel).map (·.2.1) else none)
  | 0x30 => z (if 0x20 ≤ sel && sel ≤ 0x80 then some (8 * sel + 4 + 20 * sel) else none)
  | 0x31 => z (if 0x10 ≤ sel && sel ≤ 0x80 then some (8 * sel + 4) else none)
  | 0x32 => z (if ecField curve sel == 0 then none else some (ecField curve sel))
  | 0x33 => z (if ecField curve sel == 0 then none else some (1 + 2 * ecField curve sel))
  | 0x34 | 0x35 => z (match sel with | 0x21 => some 32 | 0x22 => some 56 | 0x31 => some 32 | 0x32 => some 57 | _ => none)
  | _ => none

/-- A public class: the odd codes from 0x11 to 0x35 (R153). -/
def isPublicClass (cls : Nat) : Bool := cls % 2 == 1 && 0x11 ≤ cls && cls ≤ 0x35

/-- A stateful private class (R263). -/
def isStatefulClass (cls : Nat) : Bool := cls == 0x18 || cls == 0x1A

/-- The purposes that some function of the class's families accepts (R153). -/
def classPurposes (cls sel : Nat) : List Nat :=
  match cls with
  | 0x01 => [1, 2, 3, 4, 8, 9]
  | 0x02 => [1, 2, 8, 9]
  | 0x03 => [5, 8, 9]
  | 0x10 | 0x20 | 0x22 => [10]
  | 0x11 | 0x21 | 0x23 => [1]
  | 0x12 | 0x14 | 0x16 | 0x18 | 0x1A => [6]
  | 0x13 | 0x15 | 0x17 | 0x19 | 0x1B | 0x33 => [7]
  -- Montgomery public keys are not imported (R313)
  | 0x35 => if sel == 0x21 || sel == 0x22 then [] else [7]
  | 0x30 => [2, 6]
  | 0x31 => [1, 7]
  | 0x32 => [6, 11]
  | 0x34 => if sel == 0x21 || sel == 0x22 then [11] else [6]
  | 0x40 => [5]
  | _ => []

/-! ### Templates (R158) -/

/-- An accession template by its fields. -/
structure Template where
  coll : Nat
  purpose : Nat
  cls : Nat
  selector : Nat
  deriveFree : Bool
  wrapExport : Bool
  pin : Bool
  replace : Bool
  leaseMs : Nat
  index : Nat
  replacesGen : Nat
  notBefore : Nat
  notAfter : Nat
  classWord : Nat
  deriving DecidableEq, Repr, Inhabited

/-- The index value that lets the Registrar choose (R158). -/
def anyIndex : Nat := 0xFFFFFFFF

/-- The template a 48-byte body spells (R158). -/
def Template.parse (b : List Byte) : Template :=
  { coll := fieldAt (leAt b 0 2) 0 10, purpose := fieldAt (byteAt b 2) 0 4, cls := byteAt b 3, selector := byteAt b 4,
    deriveFree := (byteAt b 5).testBit 0, wrapExport := (byteAt b 5).testBit 1, pin := (byteAt b 5).testBit 2,
    replace := (byteAt b 5).testBit 3, leaseMs := leAt b 6 2, index := leAt b 8 4, replacesGen := leAt b 12 2,
    notBefore := leAt b 16 4, notAfter := leAt b 20 4, classWord := leAt b 24 4 }

/-- The 48 bytes of the template of an exported entry: collection zero, index 0xFFFF_FFFF, replace clear (R163). The other flags of byte 5 are the
model's: derive_free the opposite of derive_bound, wrap_export and pin as the entry has them (DESIGN CHOICE, log entry 105). -/
def exportTemplate (r : CatRecord) : List Byte :=
  leBytes 2 0 ++ [byte r.purpose, byte r.cls, byte r.selector, byte (b2n (!r.deriveBound) + 2 * b2n r.wrapExport + 4 * b2n r.pinned)] ++
    leBytes 2 r.leaseMs ++ leBytes 4 anyIndex ++ leBytes 2 0 ++ leBytes 2 0 ++ leBytes 4 r.notBefore ++ leBytes 4 r.notAfter ++
    leBytes 4 r.classWord.toNat ++ zeros 20

/-- The curve block of a loadable selector's slot, empty when the slot is unwritten or retired (R316). -/
def State.curve (s : State) (slot : Nat) : List Byte :=
  let c := s.work.curves.get {} slot
  if c.retired then [] else c.block

/-- The state in which a job's functions are described and computed: the curve table as the job copied it (R316), and the microcode of the
bank that it started with (R307). -/
def State.view (s : State) (j : Job) : State :=
  let s := s.forAll j.curves fun s c => { s with work := { s.work with curves := s.work.curves.set {} c.1 { block := c.2 } } }
  let s := s.underPolicy j.epoch
  { s with boot := { s.boot with versions := setAt s.boot.versions 1 (s.work.banks.getD j.bank {}).version } }

/-- What a computation in a job's view leaves, with the curve table and the versions as they stand. -/
def State.unview (s t : State) : State :=
  { t with work := { t.work with curves := s.work.curves }, boot := { t.boot with versions := s.boot.versions, policyBody := s.boot.policyBody } }

/-- The installed microcode implements the NIST HQC standard besides (R293): DEV_UCVER [15:12] is 1 (R414). An EXEC is judged by the bundle of its
view (`State.view`), which for a job of an older epoch is the one its bank holds (R307; DESIGN CHOICE, log entry 131). -/
def State.hqcStandard (s : State) : Bool := bits32 (s.boot.versions.getD 1 0) 12 4 == 1

/-- The HQC lengths of the selectors that the installed bundle has: 0x11 to 0x13 only with the standard (R289, R293). -/
def State.hqcLens (s : State) (sel : Nat) : Option (Nat × Nat × Nat) :=
  if 0x11 ≤ sel && sel ≤ 0x13 then (if s.hqcStandard then some (Config.hqcStdLens sel) else none) else Sys2Proof.Machine.hqcLens sel

/-- L of a class, selector and class_word on this device. -/
def State.classLen (s : State) (cls sel cw : Nat) : Option Nat :=
  if cls == 0x22 || cls == 0x23 then
    (if cw == 0 then (s.hqcLens sel).map fun l => if cls == 0x22 then l.1 else l.2.1 else none)
  else Sys2Proof.Machine.classLen s.curve cls sel cw

/-- The checks of a template that do not need the Registrar's records, in the order the model takes them: the collection
(R158), the lease (R545), the purpose for the class (R153), the selector and class_word for the class, and L (R195, R331). -/
def State.templateStatus (s : State) (coll : Nat) (t : Template) (len : Nat) (dukptIk : Bool) : Byte :=
  if t.coll != coll then St.policyDenied
  else if t.leaseMs > 1000 then St.inputRange
  else if !((classPurposes t.cls t.selector).contains t.purpose || (dukptIk && t.cls == 0x01 && t.purpose == Pu.derive)) then
    St.keyClass
  else if s.classLen t.cls t.selector t.classWord != some len then St.keyClass
  else St.ok

/-- A TDEA key whose K1 equals K2, or whose K2 equals K3, is refused; DES parity bits, bit 0 of each byte, do not count (R331). -/
def tdeaBad (m : List Byte) : Bool :=
  let k := m.map (· &&& 0xFE)
  slice k 0 8 == slice k 8 8 || (m.length == 24 && slice k 8 8 == slice k 16 8)

/-- The leftmost `n` bytes of the CMAC of a message under a key of a symmetric selector (R331, R333). -/
def cmacOf (sel n : Nat) (key msg : List Byte) : List Byte :=
  (Config.prim (.cmac sel) [key, msg] (if sel == 0x11 || sel == 0x12 then 8 else 16)).take n

/-- One ECB encryption or decryption, of whole blocks, under a key of a symmetric selector (R333). -/
def ecbOf (sel : Nat) (decrypt : Bool) (key msg : List Byte) : List Byte := Config.prim (.aes sel 0 decrypt) [key, [], msg] msg.length

/-- The check_value field of a new record (R151, R332): the MAC or encryption for symmetric classes, a digest's first 8 bytes for
public classes, otherwise zero. -/
def checkValue (cls sel : Nat) (m : List Byte) : List Byte :=
  if cls == 0x01 || cls == 0x40 then cmacOf sel 5 m (zeros 16) ++ zeros 3
  else if cls == 0x02 then (ecbOf sel false m (zeros 8)).take 3 ++ zeros 5
  else if isPublicClass cls then Config.prim (.hash 1) [m] 8
  else zeros 8

/-- Granules of a material's extent: none when it is inline (R152). -/
def granules (len : Nat) : Nat := if len ≤ 32 then 0 else (len + 16 + 63) / 64

/-- Bytes 0 to 79 of a record (R151), as CAT.INFO returns them. -/
def recordInfo (r : CatRecord) : List Byte :=
  leBytes 8 (recHandle r).toNat ++
  [byte (r.purpose + 16 * r.origin), byte r.cls, byte r.selector,
   byte (b2n r.deriveBound + 2 * b2n r.wrapExport + 4 * b2n r.stateful + 8 * b2n r.clearOrigin)] ++
  leBytes 2 r.leaseMs ++ [byte r.kdf, byte (r.depth + 8 * r.ancestors.length + 64 * r.binding)] ++
  leBytes 4 r.notBefore ++ leBytes 4 r.notAfter ++
  padTo 24 (r.ancestors.flatMap fun a => leBytes 4 a.index ++ leBytes 2 a.gen) ++ padTo 8 r.checkValue ++
  leBytes 4 r.classWord.toNat ++ zeros 4 ++
  [byte ((match r.state with | .active => 1 | .withdrawn => 2 | .revoked => 3) + 8 * b2n r.destroyed), byte (b2n r.pinned), 0, 0] ++
  leBytes 4 r.length ++ leBytes 4 r.extent ++ leBytes 4 r.sealSeq

end Sys2Proof.Machine
end

