-- ==== Sys2Proof/Machine/Engine.lean ====
section
/-! DEFINITION. The form in which every engine function is described: its windows and loans with the rules of steps 2 and 3 of
R137, the units and generators it needs, and what step 5 computes. -/

namespace Sys2Proof.Machine

/-- The length rule of an input position (R137 step 3). -/
inductive InRule where
  /-- any length -/
  | any
  /-- exactly `n` bytes, otherwise BAD_BUFFER -/
  | exact (n : Nat)
  /-- from `lo` to `hi` bytes, otherwise BAD_BUFFER -/
  | between (lo hi : Nat)
  deriving DecidableEq, Repr

/-- An input position: its length rule, and whether it is secret-capable (R120). -/
structure InPos where
  rule : InRule := .any
  secretOk : Bool := false
  /-- only a HOST buffer is accepted (R290) -/
  hostOnly : Bool := false
  /-- a GALLERY buffer is not accepted (R159) -/
  noGallery : Bool := false
  deriving DecidableEq, Repr

/-- An output position: the kinds it permits and the least length of a buffer (R137 step 3). -/
inductive OutRule where
  /-- HOST or GALLERY of at least `n` bytes -/
  | pub (n : Nat)
  /-- HOST or GALLERY of at least the length of input `i` -/
  | pubAs (i : Nat)
  /-- HOST only -/
  | host (n : Nat)
  /-- GALLERY only -/
  | gallery (n : Nat)
  /-- TEMPLATE only -/
  | template
  /-- HOST or TEMPLATE -/
  | hostOrTemplate (n : Nat)
  /-- a secret output: HOST, GALLERY or TEMPLATE (R202) -/
  | secret (n : Nat)
  deriving DecidableEq, Repr

/-- What a loan must be: its purposes, classes, and selectors (empty: any). -/
structure LoanRule where
  purposes : List Nat
  classes : List Nat
  sels : List Nat := []
  deriving DecidableEq, Repr

/-- The generators a function draws on (R365). -/
inductive Rng where
  | keyGen | host | mask | clusterMask
  /-- the host instance, reseeded since the EXEC began (R371 prediction_resistance) -/
  | hostFresh
  deriving DecidableEq, Repr

/-- An engine function for one selector, options and class_word. -/
structure FnSpec where
  ins : List InPos := []
  outs : List OutRule := []
  loans : List LoanRule := []
  /-- engine kinds and how many units of each it holds -/
  units : List (Nat × Nat) := []
  rngs : List Rng := []
  /-- it signs with a ledger leaf (R270) -/
  leaf : Bool := false
  /-- the units it holds instead when an input is secret-tagged (R233) -/
  secretUnits : List (Nat × Nat) := []
  /-- the generators it draws on besides when an input is secret-tagged (R233) -/
  secretRngs : List Rng := []
  /-- the input that is a stream context, whose secret flag also makes the EXEC's work secret (R245) -/
  context : Option Nat := none
  /-- the keyed capability it demands at placement, or prefers: of Keccak lanes (true) or SHA-2 lanes (R234) -/
  keyed : Option Bool := none
  prefers : Option Bool := none
  /-- it runs on the compatibility cluster of the accepting wing (R17, R328) -/
  cluster : Bool := false
  /-- the output whose TEMPLATE fails as a static check, with reason 0x05 (R288) -/
  noTemplate : Option Nat := none
  /-- the longest first output; a longer one ends the EXEC with INPUT_RANGE before any draw (R371) -/
  outMax : Option Nat := none
  /-- the modulus in bits of an RSA private operation, 0 for any other: it must fit the gallery's slots (R306) -/
  slotBits : Nat := 0
  deriving Repr

/-- Where an output goes, as step 5 sees it. -/
inductive OutDest where
  | host (len : Nat)
  | gallery (len : Nat)
  | template (t : Template)
  deriving DecidableEq, Repr, Inhabited

/-- What step 5 of an EXEC has at hand. -/
structure Ctx where
  sel : Nat
  opts : Nat
  /-- records of the loans, hb then hc -/
  recs : List CatRecord
  /-- the inputs in window order, with their secret tags -/
  ins : List (List GByte)
  outs : List OutDest
  coll : Nat
  pol : Config.CollPolicy
  gallery : Nat
  /-- the leaf issued for a stateful signature, and the leaves remaining (R272) -/
  leaf : Nat
  remaining : Nat
  /-- the curve block of a loadable selector, empty for any other (R316) -/
  curve : List Byte := []
  /-- bytes that the open binding group may still stage; none outside a group (R114, R336) -/
  stageLeft : Option Nat := none
  /-- the job came through a function with the management role, or from the Docent supervisor (R160) -/
  mgmt : Bool := false
  /-- the job's number and wing -/
  job : Nat := 0
  wing : Wing := .west
  deriving Repr

/-- Step 5: the result and the state after its draws and Registrar acts. -/
abbrev Compute := Ctx → State → ExecResult × State

/-- An engine function: its description, none where the selector or options are not supported, and its computation. -/
structure FnDef where
  spec : State → Nat → Nat → Nat → Option FnSpec
  compute : Compute
  /-- whether a computed EXEC of a job may complete: a revocation waits for its acknowledgements, a sync for its seal -/
  ready : Nat → ExecResult → State → Bool := fun _ _ _ => true
  /-- what the completion makes of the result -/
  finish : ExecResult → State → ExecResult := fun r _ => r

/-! ### Stream contexts (R246, R247) -/

/-- What the lane state of a sealed context stands for: the message absorbed so far, and the base's N and S (R245). The state itself, of
bytes 64 to 271, is the sealed form of it. -/
structure Absorbed where
  msg : List Byte := []
  custom : List (List Byte) := []
  deriving DecidableEq, Repr, Inhabited

/-- What the context in 288 bytes has absorbed, where its tag verifies under the current key: the strings that verify are those that the
sealer has made under it. -/
def State.openSealed (s : State) (b : List Byte) : Option Absorbed :=
  (s.work.streams.find? fun x => x.sealed == b).map fun x => { msg := x.msg, custom := x.custom }

/-! ### Inputs and outputs of a computation -/

/-- The bytes of an input. -/
def raw (b : List GByte) : List Byte := b.map (·.b)

/-- An input is secret when any of its bytes is tagged (R120). -/
def secretIn (b : List GByte) : Bool := b.any (·.secret)

/-- The provenance tag of an input: that of its first tagged byte (R170). -/
def markOf (b : List GByte) : Word64 :=
  match b.find? (·.secret) with
  | some x => x.mark
  | none => 0

def Ctx.input (c : Ctx) (i : Nat) : List Byte := raw (c.ins.getD i [])
def Ctx.secret (c : Ctx) (i : Nat) : Bool := secretIn (c.ins.getD i [])
def Ctx.key (c : Ctx) (i : Nat) : CatRecord := c.recs.getD i {}
def Ctx.mat (c : Ctx) (i : Nat) : List Byte := (c.key i).material
def Ctx.out (c : Ctx) (i : Nat) : OutDest := c.outs.getD i (.host 0)

/-- The buffer length of an output; 0 for a template. -/
def OutDest.len : OutDest → Nat
  | .host n | .gallery n => n
  | .template _ => 0

/-- An EXEC that ends with a status and writes nothing. -/
def failed (st : Byte) (s : State) : ExecResult × State := ({ status := st }, s)

/-- A verification's result: status OK with its verdict (R97, R208). -/
def verdict (pass : Bool) (s : State) : ExecResult × State := ({ verdict := some pass }, s)

/-- Public outputs written with status OK. -/
def pubOut (outs : List (List Byte)) (s : State) : ExecResult × State := ({ outs := outs.map fun b => { bytes := b } }, s)

/-- The selector a class takes for a key of `n` bytes made from a secret output: class 0x01 or 0x03 (R202, R244). -/
def secretTemplateOk (t : Template) (n : Nat) : Bool :=
  (t.cls == 0x01 && ((n == 16 && t.selector == 1) || (n == 24 && t.selector == 2) || (n == 32 && t.selector == 3))) ||
  (t.cls == 0x03 && n == 8 * t.selector && 2 ≤ t.selector && t.selector ≤ 16)

/-- A secret output (R202, R239): tagged with its provenance in GALLERY memory; a new key in a TEMPLATE of class 0x01 or 0x03
whose selector fits, otherwise KEY_CLASS; through HOST unless the owner policy forbids it, otherwise POLICY_DENIED. -/
def secretOut (c : Ctx) (i : Nat) (bytes : List Byte) (mark : Word64) (kdf : Nat) (clearOrigin : Bool) : Except Byte OutVal :=
  match c.out i with
  | .gallery _ => .ok { bytes, secret := true, mark }
  | .host _ => if c.pol.noSecretHost then .error St.policyDenied else .ok { bytes }
  | .template t =>
    if secretTemplateOk t bytes.length then
      .ok { key := some { bytes, origin := if mark = 0 then 0 else 1, kdf := if mark = 0 then 0 else kdf,
                          parent := if mark = 0 then none else some mark, clearOrigin } }
    else .error St.keyClass

/-- A result whose outputs may have been refused. -/
def withOut (o : Except Byte OutVal) (f : OutVal → List OutVal) (s : State) : ExecResult × State :=
  match o with
  | .error st => failed st s
  | .ok v => ({ outs := f v }, s)

/-- A generated key for a template position (origin 0x0, no parent). -/
def newKey (bytes : List Byte) : OutVal := { key := some { bytes } }

/-- An imported public key for a template position: origin 0x3 and clear_origin set (R200, R203). -/
def importedKey (bytes : List Byte) : OutVal := { key := some { bytes, origin := 3, clearOrigin := true } }

/-- The template of an output position. -/
def Ctx.tmpl (c : Ctx) (i : Nat) : Template :=
  match c.out i with
  | .template t => t
  | _ => default

/-- The template names the class and the selector that the function makes (R158, R195). -/
def Ctx.makes (c : Ctx) (i : Nat) (cls sel : Nat) (s : State) : Bool :=
  (c.tmpl i).cls == cls && (c.tmpl i).selector == sel && (s.classLen cls sel (c.tmpl i).classWord).isSome

/-- The length of a key output: L of a template's class 0x01 or 0x03 and selector, or the buffer's length; none when the template
is of another class or selector (R238, R244). -/
def Ctx.keyLen (c : Ctx) (i : Nat) : Option Nat :=
  match c.out i with
  | .template t =>
    if t.cls == 0x01 && 1 ≤ t.selector && t.selector ≤ 3 then some (8 + 8 * t.selector)
    else if t.cls == 0x03 && 2 ≤ t.selector && t.selector ≤ 16 then some (8 * t.selector)
    else none
  | .host n | .gallery n => some n

/-- The provenance tag of a secret output: the hb loan's handle, or the first provenance tag among the secret-tagged inputs in
window order (R170, R222, R239); 0 when none carries one. -/
def Ctx.mark (c : Ctx) : Word64 :=
  match c.recs with
  | r :: _ => recHandle r
  | [] => markOf ((c.ins.find? fun b => markOf b != 0).getD [])

/-- `n` bytes from the DRBG instance that serves key generation on the job's gallery. -/
def Ctx.draw (c : Ctx) (n : Nat) (s : State) : List Byte × State := s.drawFrom (s.kgDrbg c.gallery) n

/-- The digest lengths of the pre-hash codes (R205). -/
def prehashLen (code : Nat) : Option Nat :=
  match code with
  | 1 | 4 | 5 | 8 => some 32
  | 2 | 6 => some 48
  | 3 | 7 | 9 => some 64
  | _ => none

end Sys2Proof.Machine
end

