-- ==== Sys2Proof/Machine/Hash.lean ====
section
/-! DEFINITION. The digest family 0x0B (07_hash_array.md): digests, keyed digests, derivations and streams. -/

namespace Sys2Proof.Machine

/-- Output length, and block or rate, of a digest selector; output 0 for SHAKE, whose length is the buffer's (R235). -/
def digestLens (sel : Nat) : Option (Nat × Nat) :=
  match sel with
  | 1 => some (32, 64) | 2 => some (48, 128) | 3 => some (64, 128) | 4 => some (32, 128)
  | 5 => some (32, 136) | 6 => some (48, 104) | 7 => some (64, 72)
  | 8 => some (0, 168) | 9 => some (0, 136)
  | 10 => some (28, 64) | 11 => some (28, 128) | 12 => some (28, 144)
  | _ => none

def digestLen (sel : Nat) : Nat := ((digestLens sel).getD (0, 0)).1
def digestBlock (sel : Nat) : Nat := ((digestLens sel).getD (0, 0)).2

/-- The selector runs on Keccak lanes (R233, R235). -/
def onKeccak (sel : Nat) : Bool := (5 ≤ sel && sel ≤ 9) || sel == 12

/-- The selectors a base function takes (R235), by its low byte. -/
def digestSelOk (fn sel : Nat) : Bool :=
  match fn with
  | 1 => 1 ≤ sel && sel ≤ 12
  | 2 | 5 | 6 => sel == 8 || sel == 9
  | 3 | 4 => (1 ≤ sel && sel ≤ 7) || (10 ≤ sel && sel ≤ 12)
  | 7 | 8 => 1 ≤ sel && sel ≤ 7
  | _ => false

def plainLane (sel : Nat) : List (Nat × Nat) := [(if onKeccak sel then Kind.keccak else Kind.sha2, 1)]
/-- Primary and duplicate lanes of a computation on secrets: two masked Keccak lanes, or two pairs of SHA-2 lanes (R233). -/
def keyedLanes (sel : Nat) : List (Nat × Nat) := if onKeccak sel then [(maskedKind, 2)] else [(Kind.sha2, 4)]

/-- The longest SHAKE, cSHAKE or KMAC output (R238). -/
def maxXof : Nat := 1048576

/-- The class of a keyed function's loans (R237). -/
def macLoan (purpose : Nat) : LoanRule := ⟨[purpose], [0x03], []⟩

/-- A secret input met a gallery without the keyed capability (R234): ENGINE_FENCED, and the log names the gallery. -/
def lacksKeyed (c : Ctx) (secret : Bool) (s : State) : Bool := secret && !s.keyed c.gallery (onKeccak c.sel)
def fencedResult (c : Ctx) (s : State) : ExecResult × State :=
  failed St.engineFenced (s.log 2 St.engineFenced (unitSrc ⟨c.gallery, if onKeccak c.sel then Kind.keccak else Kind.sha2, 0⟩) [])

/-- A plain or secret digest output in a HOST or GALLERY buffer (R239, R546). -/
def digestOut (c : Ctx) (secret : Bool) (mark : Word64) (bytes : List Byte) (s : State) : ExecResult × State :=
  if secret then withOut (secretOut c 0 bytes mark 0 false) (fun o => [o]) s else pubOut [bytes] s

/-- The output bytes of a digest selector: its length, or the buffer's for SHAKE (R238). -/
def hashBytes (sel n : Nat) (ins : List (List Byte)) : List Byte :=
  if digestLen sel = 0 then Config.prim (.xof sel) ins n else Config.prim (.hash sel) ins (digestLen sel)

def digestHashFn : FnDef where
  spec _ sel opts _ := if !digestSelOk 1 sel || opts != 0 then none else some
    { ins := [{ secretOk := true }], outs := [.pub (max 1 (digestLen sel))], units := plainLane sel,
      secretUnits := keyedLanes sel, secretRngs := [.mask], prefers := some (onKeccak sel) }
  compute c s :=
    if digestLen c.sel == 0 && (c.out 0).len > maxXof then failed St.inputRange s
    else if lacksKeyed c (c.secret 0) s then fencedResult c s
    else digestOut c (c.secret 0) (markOf (c.ins.getD 0 [])) (hashBytes c.sel (c.out 0).len [c.input 0]) s

def digestCshakeFn : FnDef where
  spec _ sel opts _ := if !digestSelOk 2 sel || opts != 0 then none else some
    { ins := [{ secretOk := true }, {}, {}], outs := [.pub 1], units := plainLane sel, secretUnits := keyedLanes sel,
      secretRngs := [.mask], prefers := some (onKeccak sel) }
  compute c s :=
    if (c.input 1).length > 255 || (c.input 2).length > 2048 || (c.out 0).len > maxXof then failed St.inputRange s
    else if lacksKeyed c (c.secret 0) s then fencedResult c s
    else digestOut c (c.secret 0) (markOf (c.ins.getD 0 []))
      (Config.prim (.cshake c.sel) [c.input 0, c.input 1, c.input 2] (c.out 0).len) s

/-! ### Keyed digests (R240 to R242) -/

/-- The checks of a generated tag's buffer: at least 4 bytes, and the policy's minimum on the tag's length (R238, R242). -/
def tagOutStatus (c : Ctx) (full : Nat) : Byte :=
  let n := (c.out 0).len
  if n < 4 || (full = 0 && n > maxXof) then St.inputRange
  else if (if full = 0 then n else min n full) < c.pol.minTag then St.policyDenied
  else St.ok

/-- The checks of a tag input: 4 bytes to the full length, and the policy's minimum (R242). -/
def tagInStatus (c : Ctx) (full n : Nat) : Byte :=
  if n < 4 || n > full then St.inputRange else if n < c.pol.minTag then St.policyDenied else St.ok

/-- The hash of a fixed-length selector. -/
def hashOf (sel : Nat) (m : List Byte) : List Byte := hashBytes sel (digestLen sel) [m]

/-- HMAC of FIPS 198-1 (R240): a key longer than the block is hashed first; the inner pass is over (K xor ipad) and the message, the outer
pass over (K xor opad) and the inner digest. -/
def hmacOf (sel : Nat) (key msg : List Byte) : List Byte :=
  let k := padTo (digestBlock sel) (if key.length > digestBlock sel then hashOf sel key else key)
  hashOf sel (k.map (· ^^^ 0x5C) ++ hashOf sel (k.map (· ^^^ 0x36) ++ msg))

/-- The tag is the leftmost bytes of the MAC (R238). -/
def hmacTag (sel : Nat) (key msg : List Byte) (n : Nat) : List Byte := (hmacOf sel key msg).take n

/-- KMAC's output of `n` bytes; its length is encoded in the input except for KMACXOF (R241). -/
def kmacOut (sel : Nat) (xof : Bool) (key msg custom : List Byte) (n : Nat) : List Byte :=
  Config.prim (.kmac sel xof) (if xof then [key, msg, custom] else [key, msg, custom, leBytes 4 n]) n

def digestHmacFn : FnDef where
  spec _ sel opts _ := if !digestSelOk 3 sel || opts != 0 then none else some
    { ins := [{}], outs := [.pub 0], loans := [macLoan Pu.macGenerate], units := keyedLanes sel, rngs := [.mask],
      keyed := some (onKeccak sel) }
  compute c s :=
    let st := tagOutStatus c (digestLen c.sel)
    if st != St.ok then failed st s
    else pubOut [hmacTag c.sel (c.mat 0) (c.input 0) (c.out 0).len] s

def digestHmacverifyFn : FnDef where
  spec _ sel opts _ := if !digestSelOk 4 sel || opts != 0 then none else some
    { ins := [{}, {}], loans := [macLoan Pu.macVerify], units := keyedLanes sel, rngs := [.mask], keyed := some (onKeccak sel) }
  compute c s :=
    let n := (c.input 1).length
    let st := tagInStatus c (digestLen c.sel) n
    if st != St.ok then failed st s
    else verdict (hmacTag c.sel (c.mat 0) (c.input 0) n == c.input 1) s

def digestKmacFn : FnDef where
  spec _ sel opts _ := if !digestSelOk 5 sel || opts ≥ 4 then none else some
    { ins := [{}, {}], outs := [if opts.testBit 1 then .secret 0 else .pub 0],
      loans := [macLoan (if opts.testBit 1 then Pu.derive else Pu.macGenerate)], units := keyedLanes sel, rngs := [.mask],
      keyed := some (onKeccak sel) }
  compute c s :=
    let xof := c.opts.testBit 0
    if (c.input 1).length > 2048 then failed St.inputRange s
    else if c.opts.testBit 1 then
      match c.keyLen 0 with
      | none => failed St.keyClass s
      | some n =>
        if n < 4 || n > maxXof then failed St.inputRange s
        else withOut (secretOut c 0 (kmacOut c.sel xof (c.mat 0) (c.input 0) (c.input 1) n) c.mark 0x05 false) (fun o => [o]) s
    else
      let st := tagOutStatus c 0
      if st != St.ok then failed st s
      else pubOut [kmacOut c.sel xof (c.mat 0) (c.input 0) (c.input 1) (c.out 0).len] s

def digestKmacverifyFn : FnDef where
  spec _ sel opts _ := if !digestSelOk 6 sel || opts ≥ 2 then none else some
    { ins := [{}, {}, {}], loans := [macLoan Pu.macVerify], units := keyedLanes sel, rngs := [.mask], keyed := some (onKeccak sel) }
  compute c s :=
    let n := (c.input 2).length
    let st := if (c.input 1).length > 2048 then St.inputRange else tagInStatus c maxXof n
    if st != St.ok then failed st s
    else verdict (kmacOut c.sel (c.opts.testBit 0) (c.mat 0) (c.input 0) (c.input 1) n == c.input 2) s

/-! ### Derivation (R243, R244) -/

/-- HKDF-Expand of RFC 5869: block i is HMAC of the block before it, info and the byte i. -/
def hkdfBlocks (sel : Nat) (prk info prev : List Byte) (i : Nat) : Nat → List Byte
  | 0 => []
  | n + 1 =>
    let t := hmacOf sel prk (prev ++ info ++ [byte i])
    t ++ hkdfBlocks sel prk info t (i + 1) n

/-- How many blocks of a hash make `n` bytes. -/
def blocksFor (sel n : Nat) : Nat := (n + digestLen sel - 1) / max 1 (digestLen sel)

/-- HKDF: the PRK of an input that is not itself one, and the output of `n` bytes; without a salt the key of the extraction is empty,
which HMAC pads with zeros. -/
def hkdfOf (sel : Nat) (expandOnly : Bool) (ikm salt info : List Byte) (n : Nat) : List Byte :=
  let prk := if expandOnly then ikm else hmacOf sel salt ikm
  (hkdfBlocks sel prk info [] 1 (blocksFor sel n)).take n

/-- The blocks of an SP 800-108 derivation with HMAC as its PRF (R243), from block `i`: `mode` 0 counter, 1 feedback, 2 double pipeline; the
counter of `r` bytes stands before or after the fixed input, or is left out; `prev` is the block before, or the pipeline's A. -/
def kdf108Blocks (sel mode r : Nat) (place : Bool) (key fixed prev : List Byte) (i : Nat) : Nat → List Byte
  | 0 => []
  | n + 1 =>
    let ctr := beBytes r i
    if mode = 0 then
      hmacOf sel key (if place then fixed ++ ctr else ctr ++ fixed) ++ kdf108Blocks sel mode r place key fixed prev (i + 1) n
    else if mode = 1 then
      let k := hmacOf sel key (prev ++ (if place then [] else ctr) ++ fixed)
      k ++ kdf108Blocks sel mode r place key fixed k (i + 1) n
    else
      let a := hmacOf sel key prev
      hmacOf sel key (a ++ (if place then [] else ctr) ++ fixed) ++ kdf108Blocks sel mode r place key fixed a (i + 1) n

/-- The derivation's first `n` bytes under its options: feedback starts from the IV, the double pipeline from the fixed input. -/
def kdf108Of (sel opts : Nat) (key fixed iv : List Byte) (n : Nat) : List Byte :=
  let mode := opts % 4
  (kdf108Blocks sel mode (fieldAt opts 2 2 + 1) (opts.testBit 4) key fixed (if mode = 1 then iv else fixed) 1 (blocksFor sel n)).take n

def digestHkdfFn : FnDef where
  spec _ sel opts _ := if !digestSelOk 7 sel || opts ≥ 8 || (opts.testBit 1 && opts.testBit 2) then none else some
    { ins := (if opts.testBit 0 then [{ secretOk := true }] else []) ++ [{}, {}], outs := [.secret (if opts.testBit 1 then digestLen sel else 0)],
      loans := if opts.testBit 0 then [] else [macLoan Pu.derive], units := keyedLanes sel, rngs := [.mask],
      keyed := some (onKeccak sel) }
  compute c s :=
    let k := b2n (c.opts.testBit 0)
    let ikm := if c.opts.testBit 0 then c.input 0 else c.mat 0
    let salt := c.input k
    let info := c.input (k + 1)
    let h := digestLen c.sel
    if c.opts.testBit 0 && !c.secret 0 then failed St.policyDenied s
    else if salt.length > 1024 || info.length > 1024 || (c.opts.testBit 2 && salt.length > 0) then failed St.inputRange s
    else
      match c.keyLen 0 with
      | none => failed St.keyClass s
      | some n =>
        if c.opts.testBit 1 then
          let isTmpl := match c.out 0 with | .template _ => true | _ => false
          if isTmpl && n != h then failed St.keyClass s
          else withOut (secretOut c 0 (hmacOf c.sel salt ikm) c.mark 0x01 false) (fun o => [o]) s
        else if n > 255 * h then failed St.inputRange s
        else withOut (secretOut c 0 (hkdfOf c.sel (c.opts.testBit 2) ikm salt info n) c.mark 0x01 false)
          (fun o => [o]) s

/-- The counter-mode KDFs (R243). Of an output of 2^29 bytes or more, whose length in bits no longer fits [L]_32, the low 32 bits stand there (DESIGN
CHOICE, log entry 137). -/
def digestKdf108Fn : FnDef where
  spec _ sel opts _ := if !digestSelOk 8 sel || opts ≥ 64 || opts % 4 == 3 then none else some
    { ins := (if opts.testBit 5 then [{ secretOk := true }] else []) ++ [{}, {}] ++
        (if opts % 4 == 1 then [{ rule := .exact (digestLen sel) }] else []),
      outs := [.secret 0], loans := if opts.testBit 5 then [] else [macLoan Pu.derive], units := keyedLanes sel, rngs := [.mask],
      keyed := some (onKeccak sel) }
  compute c s :=
    let k := b2n (c.opts.testBit 5)
    let kin := if c.opts.testBit 5 then c.input 0 else c.mat 0
    let label := c.input k
    let ctx := c.input (k + 1)
    if c.opts.testBit 5 && !c.secret 0 then failed St.policyDenied s
    else if label.length > 1024 || ctx.length > 1024 then failed St.inputRange s
    else
      match c.keyLen 0 with
      | none => failed St.keyClass s
      | some n =>
        if n > (2 ^ (8 * (fieldAt c.opts 2 2 + 1)) - 1) * digestLen c.sel then failed St.inputRange s
        else
          let fixed := label ++ [0x00] ++ ctx ++ beBytes 4 (8 * n)
          withOut (secretOut c 0 (kdf108Of c.sel c.opts kin fixed (c.input (k + 2)) n) c.mark
            (2 + c.opts % 4) false) (fun o => [o]) s

/-! ### Streams (R245 to R249) -/

/-- A stream context by its fields (R246). -/
structure StreamCtx where
  base : Nat
  sel : Nat
  handle : Word64
  declared : Nat
  received : Nat
  coll : Nat
  truncated : Bool
  kdf : Bool
  xof : Bool
  secret : Bool
  parts : Nat
  streamId : List Byte
  sealGen : Nat
  deriving DecidableEq, Repr, Inhabited

/-- Bytes 0 to 63 of a context, with its nonce (R246). -/
def streamHeader (x : StreamCtx) (nonce : List Byte) : List Byte :=
  [0x52, 0x53, 0x43, 0x31] ++ leBytes 2 1 ++ [byte x.base, byte x.sel] ++ leBytes 8 x.handle.toNat ++ leBytes 8 x.declared ++
    leBytes 8 x.received ++ leBytes 2 x.coll ++ [byte (b2n x.truncated + 2 * b2n x.kdf + 4 * b2n x.xof + 8 * b2n x.secret), 0] ++
    leBytes 4 x.parts ++ padTo 8 x.streamId ++ padTo 12 nonce ++ leBytes 4 x.sealGen

/-- The context that 288 bytes hold, as far as it is in clear (R246). -/
def openStream (b : List Byte) : StreamCtx :=
  let f := byteAt b 34
  { base := byteAt b 6, sel := byteAt b 7, handle := w64 (leAt b 8 8), declared := leAt b 16 8, received := leAt b 24 8,
    coll := leAt b 32 2, truncated := f.testBit 0, kdf := f.testBit 1, xof := f.testBit 2, secret := f.testBit 3,
    parts := leAt b 36 4, streamId := slice b 40 8, sealGen := leAt b 60 4 }

/-- A sealed context of 288 bytes: the header, then the lane state under the stream sealing key with the header as the additional data, and its
tag (R246, R247). -/
def sealStream (key : List Byte) (x : StreamCtx) (nonce mac : List Byte) (a : Absorbed) : List Byte :=
  let head := streamHeader x nonce
  head ++ Config.prim .streamSeal [key, nonce, head, Config.prim (.streamState x.base x.sel) ([mac, a.msg] ++ a.custom) 208] 224

/-- The base and the base's xof and kdf bits that a stream's options carry; none where they are not defined (R245). -/
def streamBase (sel opts : Nat) : Option (Nat × Nat) :=
  let base := opts % 8
  let bits := fieldAt opts 3 4
  if !(1 ≤ base && base ≤ 6) || !digestSelOk base sel then none
  else if bits > 3 || (base ≤ 4 && bits != 0) || (base == 6 && bits > 1) then none
  else some (base, bits)

/-- The loans of a base (R236, R245). -/
def baseLoans (base bits : Nat) : List LoanRule :=
  match base with
  | 3 => [macLoan Pu.macGenerate]
  | 4 | 6 => [macLoan Pu.macVerify]
  | 5 => [macLoan (if bits.testBit 1 then Pu.derive else Pu.macGenerate)]
  | _ => []

/-- A stream function's description beside its windows: loans and lanes of its base (R233, R245). -/
def streamSpec (sel base bits : Nat) (ins : List InPos) (outs : List OutRule) (rngs : List Rng) : FnSpec :=
  { ins, outs, loans := baseLoans base bits,
    units := if base ≤ 2 then plainLane sel else keyedLanes sel,
    secretUnits := if base ≤ 2 then keyedLanes sel else [],
    secretRngs := if base ≤ 2 then [.mask] else [],
    rngs := (if base ≤ 2 then [] else [.mask]) ++ rngs,
    keyed := if base ≤ 2 then none else some (onKeccak sel),
    prefers := if base ≤ 2 then some (onKeccak sel) else none }

/-- The bytes of a part that lie below the declared length, after `received` (R249). -/
def partBelow (declared received : Nat) (part : List Byte) : List Byte := part.take (declared - received)

/-- A context after absorbing a part: received grows by the whole part, and the flags follow (R245, R249). -/
def absorbPart (x : StreamCtx) (part : List Byte) (secret : Bool) : StreamCtx :=
  { x with received := x.received + part.length, parts := x.parts + 1,
           truncated := x.truncated || x.received + part.length > x.declared, secret := x.secret || (secret && x.base ≤ 2) }

/-- What it has absorbed then: the bytes below the declared length. -/
def Absorbed.add (a : Absorbed) (x : StreamCtx) (part : List Byte) : Absorbed :=
  { a with msg := a.msg ++ partBelow x.declared x.received part }

/-- The context sealed and written out, with OK_TRUNCATED when it has the truncated flag (R249). -/
def streamResult (c : Ctx) (x : StreamCtx) (a : Absorbed) (s : State) : ExecResult × State :=
  let nonce := c.draw 12 s
  let b := sealStream s.work.sealKey x nonce.1 (c.mat 0) a
  let s := nonce.2
  ({ status := if x.truncated then St.okTruncated else St.ok, truncated := x.truncated, outs := [{ bytes := b }] },
    { s with work := { s.work with streams := { sealed := b, msg := a.msg, custom := a.custom } :: s.work.streams } })

def digestSbeginFn : FnDef where
  spec _ sel opts _ := (streamBase sel opts).map fun b =>
    streamSpec sel b.1 b.2
      ([{ rule := .exact 8 }, { secretOk := b.1 ≤ 2 }] ++ (if b.1 == 2 then [{}, {}] else if b.1 ≥ 5 then [{}] else []))
      [.pub 288] [.keyGen]
  compute c s :=
    match streamBase c.sel c.opts with
    | none => failed St.badProgram s
    | some (base, bits) =>
      let declared := leNat (c.input 0)
      let part := c.input 1
      if declared > 2 ^ 60 || part.length % digestBlock c.sel != 0 then failed St.inputRange s
      else if base == 2 && ((c.input 2).length > 255 || (c.input 3).length > 2048) then failed St.inputRange s
      else if base ≥ 5 && (c.input 2).length > 2048 then failed St.inputRange s
      else if lacksKeyed c (c.secret 1) s then fencedResult c s
      else
        let id := c.draw 8 s
        let x : StreamCtx :=
        { base, sel := c.sel, handle := if base ≤ 2 then 0 else recHandle (c.key 0), declared, received := 0, coll := c.coll, truncated := false, kdf := bits.testBit 1, xof := bits.testBit 0, secret := false, parts := 0,
          streamId := id.1, sealGen := s.work.streamKey }
        let a : Absorbed := { custom := [c.input 2, c.input 3] }
        streamResult c (absorbPart x part (c.secret 1)) (a.add x part) id.2

/-- The checks of R248 on a context: what it has absorbed where they pass. -/
def streamOk (c : Ctx) (base bits : Nat) (b : List Byte) (s : State) : Option Absorbed :=
  let x := openStream b
  if x.sealGen == s.work.streamKey && slice b 0 4 == [0x52, 0x53, 0x43, 0x31] && leAt b 4 2 == 1 && x.base == base && x.sel == c.sel &&
    x.kdf == bits.testBit 1 && x.xof == bits.testBit 0 && x.coll == c.coll && (base ≤ 2 || x.handle == recHandle (c.key 0)) then s.openSealed b
  else none

def digestScontFn : FnDef where
  spec _ sel opts _ := (streamBase sel opts).map fun b =>
    { streamSpec sel b.1 b.2 [{ rule := .exact 288 }, { secretOk := b.1 ≤ 2 }] [.pub 288] [.keyGen] with context := some 0 }
  compute c s :=
    match streamBase c.sel c.opts with
    | none => failed St.badProgram s
    | some (base, bits) =>
      if (c.input 1).length % digestBlock c.sel != 0 then failed St.inputRange s
      else match streamOk c base bits (c.input 0) s with
        | none => failed St.inputRejected s
        | some a =>
          let x := openStream (c.input 0)
          if lacksKeyed c (x.secret || c.secret 1) s then fencedResult c s
          else streamResult c (absorbPart x (c.input 1) (c.secret 1)) (a.add x (c.input 1)) s

/-- The output rule of a base's result at SEND (R236, R245). -/
def sendOuts (sel base bits : Nat) : List OutRule :=
  match base with
  | 1 => [.pub (max 1 (digestLen sel))]
  | 2 => [.pub 1]
  | 3 => [.pub 0]
  | 5 => [if bits.testBit 1 then .secret 0 else .pub 0]
  | _ => []

/-- The output of the base for the absorbed message, of `n` bytes: what the base's own function would give (R245). -/
def sendBytes (x : StreamCtx) (a : Absorbed) (key : List Byte) (n : Nat) : List Byte :=
  match x.base with
  | 1 => hashBytes x.sel n [a.msg]
  | 2 => Config.prim (.cshake x.sel) [a.msg, a.custom.getD 0 [], a.custom.getD 1 []] n
  | 3 | 4 => hmacTag x.sel key a.msg n
  | _ => kmacOut x.sel x.xof key a.msg (a.custom.getD 0 []) n

/-- DIGEST.SEND (R245). A secret output carries the mark of the secret part given to SEND, and 0 where that part is public, since a context holds
no mark (DESIGN CHOICE, log entry 111). -/
def digestSendFn : FnDef where
  spec _ sel opts _ := (streamBase sel opts).map fun b =>
    { streamSpec sel b.1 b.2
        ([{ rule := .exact 288 }, { secretOk := b.1 ≤ 2 }] ++ (if b.1 == 4 || b.1 == 6 then [{}] else []))
        (sendOuts sel b.1 b.2) [] with context := some 0 }
  compute c s :=
    match streamBase c.sel c.opts with
    | none => failed St.badProgram s
    | some (base, bits) =>
      let full := if base == 6 || base == 5 then 0 else digestLen c.sel
      let st :=
        if base ≤ 2 then (if digestLen c.sel == 0 && (c.out 0).len > maxXof then St.inputRange else St.ok)
        else if base == 4 || base == 6 then tagInStatus c (if base == 6 then maxXof else full) (c.input 2).length
        else if bits.testBit 1 then
          match c.keyLen 0 with
          | none => St.keyClass
          | some n => if n < 4 || n > maxXof then St.inputRange else St.ok
        else tagOutStatus c full
      if st != St.ok then failed st s
      else match streamOk c base bits (c.input 0) s with
        | none => failed St.inputRejected s
        | some a0 =>
        let x0 := openStream (c.input 0)
        if lacksKeyed c (x0.secret || c.secret 1) s then fencedResult c s
        else
          let x := absorbPart x0 (c.input 1) (c.secret 1)
          let a := a0.add x0 (c.input 1)
          if x.received < x.declared then failed St.lengthUnderrun s
          else
            let n := match base with
              | 1 => if digestLen c.sel = 0 then (c.out 0).len else digestLen c.sel
              | 3 => min (c.out 0).len (digestLen c.sel)
              | 4 | 6 => (c.input 2).length
              | 5 => (c.keyLen 0).getD 0
              | _ => (c.out 0).len
            let out := sendBytes x a (c.mat 0) n
            let mark := if base == 5 then c.mark else markOf (c.ins.getD 1 [])
            let r :=
              if base == 4 || base == 6 then verdict (out == c.input 2) s
              else if base == 5 && bits.testBit 1 then withOut (secretOut c 0 out mark 0x05 false) (fun o => [o]) s
              else digestOut c (base ≤ 2 && x.secret) mark out s
            if isSuccess r.1.status && x.truncated then ({ r.1 with status := St.okTruncated, truncated := true }, r.2) else r

end Sys2Proof.Machine
end

