-- ==== Sys2Proof/Machine/Lattice.lean ====
section
/-! DEFINITION. The functions of ML-KEM, ML-DSA and FN-DSA (06_lattice_engines.md): windows, loans, units and what step 5
computes. -/

namespace Sys2Proof.Machine

/-- Lengths of ek, ciphertext of an ML-KEM selector (R194, R199). -/
def mlkemLens (sel : Nat) : Option (Nat × Nat) :=
  match sel with
  | 1 => some (800, 768) | 2 => some (1184, 1088) | 3 => some (1568, 1568)
  | _ => none

/-- Lengths of pk, signature of an ML-DSA selector (R194, R203). -/
def mldsaLens (sel : Nat) : Option (Nat × Nat) :=
  match sel with
  | 1 => some (1312, 2420) | 2 => some (1952, 3309) | 3 => some (2592, 4627)
  | _ => none

/-- Lengths of pk, padded signature of an FN-DSA selector (R194, R213). -/
def fndsaLens (sel : Nat) : Option (Nat × Nat) :=
  match sel with
  | 1 => some (897, 666) | 2 => some (1793, 1280)
  | _ => none

/-- The key is held in seed form (R195). -/
def seedForm (r : CatRecord) : Bool := r.classWord == 1

/-- A description offered when no option bit is set. -/
def noOpts (opts : Nat) (o : Option FnSpec) : Option FnSpec := if opts = 0 then o else none

/-- The LRE of a function that R216 gives no second one: public-key imports and exports. -/
def lreUnits : List (Nat × Nat) := [(Kind.lre, 1)]
/-- The LRE of a function and the one on which its checks run (R216). -/
def lrePair : List (Nat × Nat) := [(Kind.lre, 2)]

/-! ### ML-KEM (R198 to R202) -/

/-- The encapsulation key of a decapsulation key (R198). -/
def mlkemEkOf (sel : Nat) (r : CatRecord) : List Byte :=
  Config.prim (.mlkemEkOfDk sel (seedForm r)) [r.material] ((mlkemLens sel).getD (0, 0)).1

def mlkemKeygenFn : FnDef where
  spec _ sel opts _ := noOpts opts <| (mlkemLens sel).map fun l =>
    { outs := [.template, .pub l.1], units := lrePair, rngs := [.mask, .keyGen] }
  compute c s :=
    if !c.makes 0 0x10 c.sel s then failed St.keyClass s
    else
      let d := c.draw 64 s
      let seed := (c.tmpl 0).classWord == 1
      let dk := if seed then d.1 else Config.prim (.mlkemDk c.sel false) [d.1] ((d.2.classLen 0x10 c.sel 0).getD 0)
      let ek := Config.prim (.mlkemEk c.sel) [d.1] ((mlkemLens c.sel).getD (0, 0)).1
      ({ outs := [newKey dk, { bytes := ek }] }, d.2)

/-- Ciphertext and shared secret from an encapsulation key and m (R199, R202). -/
def mlkemEncapsulate (c : Ctx) (ek : List Byte) (s : State) : ExecResult × State :=
  let m := c.draw 32 s
  let ct := Config.prim (.mlkemCt c.sel) [ek, m.1] ((mlkemLens c.sel).getD (0, 0)).2
  withOut (secretOut c 1 (Config.prim (.mlkemSs c.sel) [ek, m.1] 32) 0 0 false) (fun o => [{ bytes := ct }, o]) m.2

def mlkemEncapsFn : FnDef where
  spec _ sel opts _ := noOpts opts <| (mlkemLens sel).map fun l =>
    { ins := [{ rule := .exact l.1 }], outs := [.pub l.2, .secret 32], units := lrePair, rngs := [.mask, .keyGen] }
  compute c s :=
    if !Config.primBool (.mlkemEkOk c.sel) [c.input 0] then failed St.encodingRejected s
    else mlkemEncapsulate c (c.input 0) s

def mlkemDecapsFn : FnDef where
  spec _ sel opts _ := noOpts opts <| (mlkemLens sel).map fun l =>
    { ins := [{ rule := .exact l.2 }], outs := [.secret 32], loans := [⟨[Pu.decapsulate], [0x10], [sel]⟩], units := lrePair,
      rngs := [.mask] }
  compute c s :=
    if !seedForm (c.key 0) && !Config.primBool (.mlkemDkHashOk c.sel) [c.mat 0] then failed St.faultDetected s
    else
      let k := Config.prim (.mlkemDec c.sel) [c.mat 0, leBytes 1 (b2n (seedForm (c.key 0))), c.input 0] 32
      withOut (secretOut c 0 k (recHandle (c.key 0)) 0x08 (c.key 0).clearOrigin) (fun o => [o]) s

def mlkemEncapskFn : FnDef where
  spec _ sel opts _ := noOpts opts <| (mlkemLens sel).map fun l =>
    { outs := [.pub l.2, .secret 32], loans := [⟨[Pu.encrypt], [0x11], [sel]⟩], units := lrePair, rngs := [.mask, .keyGen] }
  compute c s := mlkemEncapsulate c (c.mat 0) s

/-- MLKEM.EXPORTEK (R198), taken as a masked function: R215 does not list it (DEDUCED, log entry 110). -/
def mlkemExportekFn : FnDef where
  spec _ sel opts _ := noOpts opts <| (mlkemLens sel).map fun l =>
    { outs := [.pub l.1], loans := [⟨[Pu.decapsulate], [0x10], [sel]⟩], units := lreUnits, rngs := [.mask] }
  compute c s := pubOut [mlkemEkOf c.sel (c.key 0)] s

def mlkemImportekFn : FnDef where
  spec _ sel opts _ := noOpts opts <| (mlkemLens sel).map fun l =>
    { ins := [{ rule := .exact l.1 }], outs := [.template], units := lreUnits }
  compute c s :=
    if !c.makes 0 0x11 c.sel s then failed St.keyClass s
    else if !Config.primBool (.mlkemEkOk c.sel) [c.input 0] then failed St.encodingRejected s
    else ({ outs := [importedKey (c.input 0)] }, s)

/-! ### ML-DSA (R203 to R208) -/

/-- The options of an ML-DSA signature or verification are defined (R204, R205): a prehash has a code of R205 and no external
mu; without it the hash field is zero. -/
def mldsaOptsOk (opts : Nat) : Bool :=
  opts < 128 &&
    (if opts.testBit 1 then (prehashLen (fieldAt opts 2 4)).isSome && !opts.testBit 6 else fieldAt opts 2 4 == 0)

/-- The message rule of those options: a digest, mu, or any message (R204, R205). -/
def mldsaMsg (opts : Nat) : InPos :=
  { rule := if opts.testBit 1 then .exact ((prehashLen (fieldAt opts 2 4)).getD 0) else if opts.testBit 6 then .exact 64 else .any }

/-- The context is refused: longer than 255 bytes, or not empty with external mu (R206). -/
def mldsaCtxBad (opts : Nat) (ctx : List Byte) : Bool := ctx.length > 255 || (opts.testBit 6 && ctx.length > 0)

def mldsaPkOf (sel : Nat) (r : CatRecord) : List Byte :=
  Config.prim (.mldsaPkOfSk sel (seedForm r)) [r.material] ((mldsaLens sel).getD (0, 0)).1

def mldsaKeygenFn : FnDef where
  spec _ sel opts _ := noOpts opts <| (mldsaLens sel).map fun l =>
    { outs := [.template, .pub l.1], units := lrePair, rngs := [.mask, .keyGen] }
  compute c s :=
    if !c.makes 0 0x12 c.sel s then failed St.keyClass s
    else
      let d := c.draw 32 s
      let sk := if (c.tmpl 0).classWord == 1 then d.1
        else Config.prim (.mldsaSk c.sel false) [d.1] ((d.2.classLen 0x12 c.sel 0).getD 0)
      ({ outs := [newKey sk, { bytes := Config.prim (.mldsaPk c.sel) [d.1] ((mldsaLens c.sel).getD (0, 0)).1 }] }, d.2)

/-- The ML-DSA signature of a message under a key: rnd is zero for the deterministic variant, else drawn; at the cap of R207 the
status is SIGN_RETRY_LIMIT. -/
def mldsaSignature (c : Ctx) (sel opts : Nat) (key : CatRecord) (msg ctx : List Byte) (s : State) :
    Except Byte (List Byte) × State :=
  let r := if opts.testBit 0 then (zeros 32, s) else c.draw 32 s
  let ins := [key.material, leBytes 1 (b2n (seedForm key)), msg, ctx, r.1]
  if Config.primBool (.mldsaCap sel opts) ins then (.error St.signRetryLimit, r.2)
  else (.ok (Config.prim (.mldsaSig sel opts) ins ((mldsaLens sel).getD (0, 0)).2), r.2)

/-- The verdict of an ML-DSA verification; a signature of the wrong length fails (R208). -/
def mldsaVerifies (sel opts : Nat) (pk msg ctx sig : List Byte) : Bool :=
  sig.length == ((mldsaLens sel).getD (0, 0)).2 && Config.primBool (.mldsaOk sel (opts - opts % 2)) [pk, msg, ctx, sig]

def mldsaSignFn : FnDef where
  spec _ sel opts _ := if !mldsaOptsOk opts then none else (mldsaLens sel).map fun l =>
    { ins := [mldsaMsg opts, {}], outs := [.pub l.2], loans := [⟨[Pu.sign], [0x12], [sel]⟩], units := lrePair,
      rngs := if opts.testBit 0 then [.mask] else [.mask, .keyGen] }
  compute c s :=
    if mldsaCtxBad c.opts (c.input 1) then failed St.inputRange s
    else if c.opts.testBit 0 && c.pol.noDeterministic then failed St.policyDenied s
    else match mldsaSignature c c.sel c.opts (c.key 0) (c.input 0) (c.input 1) s with
      | (.error st, s) => failed st s
      | (.ok sig, s) => pubOut [sig] s

def mldsaVerifyFn : FnDef where
  spec _ sel opts _ := if !mldsaOptsOk opts then none else (mldsaLens sel).map fun _ =>
    { ins := [mldsaMsg opts, {}, {}], loans := [⟨[Pu.verify], [0x13], [sel]⟩], units := lrePair }
  compute c s :=
    if mldsaCtxBad c.opts (c.input 1) then failed St.inputRange s
    else verdict (mldsaVerifies c.sel c.opts (c.mat 0) (c.input 0) (c.input 1) (c.input 2)) s

def mldsaVerifyxFn : FnDef where
  spec _ sel opts _ := if !mldsaOptsOk opts then none else (mldsaLens sel).map fun l =>
    { ins := [{ rule := .exact l.1 }, mldsaMsg opts, {}, {}], units := lrePair }
  compute c s :=
    if mldsaCtxBad c.opts (c.input 2) then failed St.inputRange s
    else verdict (mldsaVerifies c.sel c.opts (c.input 0) (c.input 1) (c.input 2) (c.input 3)) s

/-- MLDSA.EXPORTPK (R203), taken as a masked function: R215 does not list it (DEDUCED, log entry 110). -/
def mldsaExportpkFn : FnDef where
  spec _ sel opts _ := noOpts opts <| (mldsaLens sel).map fun l =>
    { outs := [.pub l.1], loans := [⟨[Pu.sign], [0x12], [sel]⟩], units := lreUnits, rngs := [.mask] }
  compute c s := pubOut [mldsaPkOf c.sel (c.key 0)] s

def mldsaImportpkFn : FnDef where
  spec _ sel opts _ := noOpts opts <| (mldsaLens sel).map fun l =>
    { ins := [{ rule := .exact l.1 }], outs := [.template], units := lreUnits }
  compute c s :=
    if !c.makes 0 0x13 c.sel s then failed St.keyClass s else ({ outs := [importedKey (c.input 0)] }, s)

/-! ### FN-DSA (R209 to R214) -/

/-- FN-DSA defines only prehash and hash: deterministic and external mu are zero (R209). -/
def fndsaOptsOk (opts : Nat) : Bool := mldsaOptsOk opts && !opts.testBit 0 && !opts.testBit 6

/-- The header and coefficient check of an FN-DSA public key (R210). -/
def fndsaPkOk (sel : Nat) (pk : List Byte) : Bool := Config.primBool (.fndsaPkOk sel) [pk]

/-- A verification accepts the padded form and the compressed form, up to its length (R213). -/
def fndsaVerifies (sel opts : Nat) (pk msg ctx sig : List Byte) : Bool :=
  sig.length ≤ ((fndsaLens sel).getD (0, 0)).2 && Config.primBool (.fndsaOk sel opts) [pk, msg, ctx, sig]

def fndsaKeygenFn : FnDef where
  spec _ sel opts _ := noOpts opts <| (fndsaLens sel).map fun l =>
    { outs := [.template, .pub l.1], units := [(Kind.lsu, 1)], rngs := [.mask, .keyGen] }
  compute c s :=
    if !c.makes 0 0x14 c.sel s then failed St.keyClass s
    else
      let d := c.draw 32 s
      let sk := Config.prim (.fndsaSk c.sel) [d.1] ((d.2.classLen 0x14 c.sel 0).getD 0)
      ({ outs := [newKey sk, { bytes := Config.prim (.fndsaPk c.sel) [d.1] ((fndsaLens c.sel).getD (0, 0)).1 }] }, d.2)

/-- Up to `k` attempts at an FN-DSA signature, each with a new 40-byte salt; one whose signature fails the norm bound or does not compress is
followed by the next (R211). -/
def fndsaAttempts (c : Ctx) : Nat → State → Option (List Byte) × State
  | 0, s => (none, s)
  | k + 1, s =>
    let salt := c.draw 40 s
    let ins := [c.mat 0, c.input 0, c.input 1, salt.1]
    if Config.primBool (.fndsaRestart c.sel c.opts) ins then fndsaAttempts c k salt.2
    else (some (Config.prim (.fndsaSig c.sel c.opts) ins ((fndsaLens c.sel).getD (0, 0)).2), salt.2)

def fndsaSignFn : FnDef where
  spec _ sel opts _ := if !fndsaOptsOk opts then none else (fndsaLens sel).map fun l =>
    { ins := [mldsaMsg opts, {}], outs := [.pub l.2], loans := [⟨[Pu.sign], [0x14], [sel]⟩],
      units := [(Kind.lsu, 1), (Kind.lre, 1)], rngs := [.mask, .keyGen] }
  compute c s :=
    if mldsaCtxBad c.opts (c.input 1) then failed St.inputRange s
    else match fndsaAttempts c 64 s with
      | (none, s) => failed St.signRetryLimit s
      | (some sig, s) => pubOut [sig] s

def fndsaVerifyFn : FnDef where
  spec _ sel opts _ := if !fndsaOptsOk opts then none else (fndsaLens sel).map fun _ =>
    { ins := [mldsaMsg opts, {}, {}], loans := [⟨[Pu.verify], [0x15], [sel]⟩], units := lrePair }
  compute c s :=
    if mldsaCtxBad c.opts (c.input 1) then failed St.inputRange s
    else verdict (fndsaVerifies c.sel c.opts (c.mat 0) (c.input 0) (c.input 1) (c.input 2)) s

def fndsaVerifyxFn : FnDef where
  spec _ sel opts _ := if !fndsaOptsOk opts then none else (fndsaLens sel).map fun l =>
    { ins := [{ rule := .exact l.1 }, mldsaMsg opts, {}, {}], units := lrePair }
  compute c s :=
    if mldsaCtxBad c.opts (c.input 2) then failed St.inputRange s
    else if !fndsaPkOk c.sel (c.input 0) then failed St.encodingRejected s
    else verdict (fndsaVerifies c.sel c.opts (c.input 0) (c.input 1) (c.input 2) (c.input 3)) s

/-- FNDSA.EXPORTPK (R209), taken as no masked function (DEDUCED, log entry 110). -/
def fndsaExportpkFn : FnDef where
  spec _ sel opts _ := noOpts opts <| (fndsaLens sel).map fun l =>
    { outs := [.pub l.1], loans := [⟨[Pu.sign], [0x14], [sel]⟩], units := lreUnits }
  compute c s := pubOut [Config.prim (.fndsaPkOfSk c.sel) [c.mat 0] ((fndsaLens c.sel).getD (0, 0)).1] s

def fndsaImportpkFn : FnDef where
  spec _ sel opts _ := noOpts opts <| (fndsaLens sel).map fun l =>
    { ins := [{ rule := .exact l.1 }], outs := [.template], units := lreUnits }
  compute c s :=
    if !c.makes 0 0x15 c.sel s then failed St.keyClass s
    else if !fndsaPkOk c.sel (c.input 0) then failed St.encodingRejected s
    else ({ outs := [importedKey (c.input 0)] }, s)

end Sys2Proof.Machine
end

