-- ==== Sys2Proof/Machine/CodeBased.lean ====
section
/-! DEFINITION. The functions of Classic McEliece and HQC, and key residency (09_code_based_engines.md). -/

namespace Sys2Proof.Machine

/-! ### Units (R284, R297) -/

/-- The BFE alone, with the primary and duplicate masked Keccak lanes of secret hashes, and with a plain lane for public expansions besides. -/
def bfeUnit : List (Nat × Nat) := [(Kind.bfe, 1)]
def bfeMasked : List (Nat × Nat) := [(Kind.bfe, 1), (maskedKind, 2)]
def bfeExpand : List (Nat × Nat) := [(Kind.bfe, 1), (maskedKind, 2), (Kind.keccak, 1)]

/-- SHAKE256 with 32 bytes of output. -/
def shake256 (m : List Byte) : List Byte := hashBytes 9 32 [m]

/-! ### Classic McEliece (R287, R288, R290 to R292) -/

def mcePkLen (sel : Nat) : Nat := ((mceLens sel).getD (0, 0, 0)).2.1
def mceCtLen (sel : Nat) : Nat := ((mceLens sel).getD (0, 0, 0)).2.2

/-- The base set of a selector, whose every operation but key generation an f set shares (R287). -/
def mceBase (sel : Nat) : Nat := (sel + 1) / 2 * 2 - 1

/-- Bytes of a vector of n bits, and bytes and padding bits of a row of T. -/
def mceVec (sel : Nat) : Nat :=
  match mceBase sel with
  | 1 => 436 | 3 => 576 | 5 => 836 | 7 => 870 | _ => 1024
def mceRow (sel : Nat) : Nat × Nat :=
  match mceBase sel with
  | 1 => (340, 0) | 3 => (420, 0) | 5 => (628, 0) | 7 => (677, 3) | _ => (816, 0)

/-- The last byte of a row or a string has `n` zero bits at its end. -/
def padClear (n : Nat) (b : Byte) : Bool := b.toNat < 2 ^ (8 - n)

/-- Every padding bit at the end of each row of T is zero (R291). -/
def mcePkOk (sel : Nat) (pk : List Byte) : Bool :=
  let r := mceRow sel
  r.2 == 0 || (List.range (mcePkLen sel / r.1)).all fun i => padClear r.2 (pk.getD (i * r.1 + r.1 - 1) 0)

/-- The session key H(b, v, C) (R292). -/
def mceHash (b : Nat) (v ct : List Byte) : List Byte := shake256 (byte b :: v ++ ct)

def mceSpec (sel opts : Nat) (top : Nat) (x : FnSpec) : Option FnSpec :=
  if opts != 0 || sel = 0 || sel > top then none else some x

/-- Key generation takes the public-key buffer as its workspace: the resident key leaves it and is to be reloaded (R296). -/
def Gallery.keygen (x : Gallery) : Gallery := { x with resident := none, reload := if x.resident.isSome then x.resident else x.reload }

/-- The public key of a private key. -/
def mcePkOf (sel : Nat) (sk : List Byte) : List Byte := Config.prim (.mcePk (mceBase sel)) [sk] (mcePkLen sel)

def mcelieceKeygenFn : FnDef where
  spec _ sel opts _ := mceSpec sel opts 10
    { outs := [.template, .hostOrTemplate (mcePkLen sel)], units := bfeMasked, rngs := [.mask, .keyGen],
      noTemplate := if sel ≥ 9 then some 1 else none }
  compute c s :=
    if !c.makes 0 0x20 c.sel s then failed St.keyClass s
    else
      let s := s.setGal c.gallery (s.gal c.gallery).keygen
      let d := c.draw 32 s
      let sk := Config.prim (.mceSk c.sel) [d.1] ((mceLens c.sel).getD (0, 0, 0)).1
      let pk := mcePkOf c.sel sk
      match c.out 1 with
      | .template _ => if !c.makes 1 0x21 c.sel d.2 then failed St.keyClass d.2 else ({ outs := [newKey sk, newKey pk] }, d.2)
      | _ => ({ outs := [newKey sk, { bytes := pk }] }, d.2)

/-- The error vector of the drawn randomness, the ciphertext that encodes it, and K = H(1, e, C). -/
def mceEncapsulate (c : Ctx) (pk : List Byte) (s : State) : ExecResult × State :=
  let m := c.draw 32 s
  let e := Config.prim (.mceErr (mceBase c.sel)) [m.1] (mceVec c.sel)
  let ct := Config.prim (.mceCt (mceBase c.sel)) [pk, e] (mceCtLen c.sel)
  withOut (secretOut c 1 (mceHash 1 e ct) 0 0 false) (fun o => [{ bytes := ct }, o]) m.2

def mcelieceEncapsFn : FnDef where
  spec _ sel opts _ := mceSpec sel opts 10
    { ins := [{ rule := .exact (mcePkLen sel), hostOnly := true }], outs := [.pub (mceCtLen sel), .secret 32], units := bfeMasked,
      rngs := [.mask, .keyGen] }
  compute c s := if !mcePkOk c.sel (c.input 0) then failed St.encodingRejected s else mceEncapsulate c (c.input 0) s

/-- The weight t of an error vector, and the padding bits at the end of a ciphertext of mt bits. -/
def mceWeight (sel : Nat) : Nat :=
  match mceBase sel with
  | 1 => 64 | 3 => 96 | 7 => 119 | _ => 128
def mceCtPad (sel : Nat) : Nat := if mceBase sel = 7 then 5 else 0

/-- The bits of a string that are 1. -/
def weight (l : List Byte) : Nat := (l.map fun b => ((List.range 8).filter fun i => b.toNat.testBit i).length).sum

/-- Decapsulation accepts a ciphertext: its padding bits are zero, and decoding has found an error vector of the right weight that re-encrypts to it
(R292). -/
def mceAccepts (sel : Nat) (sk e ct : List Byte) : Bool :=
  padClear (mceCtPad sel) (ct.getLastD 0) && weight e = mceWeight sel &&
    Config.prim (.mceCt (mceBase sel)) [mcePkOf sel sk, e] (mceCtLen sel) == ct

/-- K of a ciphertext: H(1, e, C) where decapsulation accepts; otherwise H(0, s, C), with s the last n bits of the private key (R292). -/
def mceDecapsulate (sel : Nat) (sk ct : List Byte) : List Byte :=
  let e := Config.prim (.mceDecode (mceBase sel)) [sk, ct] (mceVec sel)
  if mceAccepts sel sk e ct then mceHash 1 e ct else mceHash 0 (sk.drop (sk.length - mceVec sel)) ct

def mcelieceDecapsFn : FnDef where
  spec _ sel opts _ := mceSpec sel opts 10
    { ins := [{ rule := .exact (mceCtLen sel) }], outs := [.secret 32], loans := [⟨[Pu.decapsulate], [0x20], [sel]⟩],
      units := bfeMasked, rngs := [.mask] }
  compute c s :=
    withOut (secretOut c 0 (mceDecapsulate c.sel (c.mat 0) (c.input 0)) (recHandle (c.key 0)) 0x08 (c.key 0).clearOrigin) (fun o => [o]) s

def mcelieceEncapskFn : FnDef where
  spec _ sel opts _ := mceSpec sel opts 8
    { outs := [.pub (mceCtLen sel), .secret 32], loans := [⟨[Pu.encrypt], [0x21], [sel]⟩], units := bfeMasked, rngs := [.mask, .keyGen] }
  compute c s := mceEncapsulate c (c.mat 0) s

def mcelieceExportpkFn : FnDef where
  spec _ sel opts _ := mceSpec sel opts 8
    { outs := [.host (mcePkLen sel)], loans := [⟨[Pu.encrypt], [0x21], [sel]⟩], units := bfeUnit }
  compute c s := pubOut [c.mat 0] s

def mcelieceImportpkFn : FnDef where
  spec _ sel opts _ := mceSpec sel opts 8
    { ins := [{ rule := .exact (mcePkLen sel), hostOnly := true }], outs := [.template], units := bfeUnit }
  compute c s :=
    if !c.makes 0 0x21 c.sel s then failed St.keyClass s
    else if !mcePkOk c.sel (c.input 0) then failed St.encodingRejected s
    else ({ outs := [importedKey (c.input 0)] }, s)

/-! ### Residency (R294 to R296) -/

/-- The job runs the engine function `code` on a gallery: its instruction at pc is that EXEC and the EXEC is in progress. -/
def runsFn (code g : Nat) (x : Job) : Bool :=
  x.gallery == g && x.exec.isSome && bits64 (x.prog.getD x.pc 0) 56 8 == 0x40 && bits64 (x.prog.getD x.pc 0) 0 16 == code

/-- A MCELIECE.KEYGEN runs on the gallery. -/
def State.mceKeygenOn (s : State) (g : Nat) : Bool := s.jobList.any fun p => runsFn 0x0701 g p.2

/-- The BFE of a gallery stands at a job boundary: no job but `n` has begun in it and not ended, its wipe is over, and no key generation is in
progress (R286, R295). -/
def State.bfeIdle (s : State) (n g : Nat) : Bool :=
  !(s.gal g).wipingKind Kind.bfe && !s.mceKeygenOn g && !s.work.grants.any fun x => x.res == .bfe g && x.job != n

/-- A buffer's queued load or eviction takes effect (R295): it replaces the resident key, and a reload that was due is not made. -/
def Gallery.load (x : Gallery) : Gallery :=
  match x.queuedLoad with
  | some key => { x with resident := key, queuedLoad := none, reload := none }
  | none => x

/-- A RESIDE act for one gallery is queued, the later one in place of the earlier, and takes effect at once at a job boundary (R295). -/
def State.reside (s : State) (n g : Nat) (key : Option (Nat × Nat × Nat)) : State :=
  let x := { s.gal g with queuedLoad := some key, loadBy := n }
  s.setGal g (if s.bfeIdle n g then x.load else x)

/-- Loads and reloads of a key that are still due are dropped. -/
def Gallery.unload (x : Gallery) (key : Nat × Nat × Nat) : Gallery :=
  { x with queuedLoad := if x.queuedLoad == some (some key) then none else x.queuedLoad,
           reload := if x.reload == some key then none else x.reload }

/-- The eviction of one key from one gallery, the later act (R295): in place of the key's queued load, which would have replaced the resident key, an
emptying is queued; a resident key's eviction is queued unless another key's load already is; a reload that was due is dropped. -/
def State.unreside (s : State) (n g : Nat) (key : Nat × Nat × Nat) : State :=
  let x := s.gal g
  let s := s.setGal g (x.unload key)
  if x.queuedLoad == some (some key) || (x.resident == some key && x.queuedLoad.isNone) then s.reside n g none else s

/-- The mask of galleries in which a key is resident. -/
def State.residentMask (s : State) (key : Nat × Nat × Nat) : Nat :=
  ((List.range 16).map fun g => if (s.gal g).resident == some key then 2 ^ g else 0).sum

/-- Galleries of a mask that are present with their BFE in service (R295.3). -/
def State.maskGalleries (s : State) (mask : Nat) : List Nat :=
  (List.range 16).filter fun g => mask.testBit g && s.galleryUp g && s.serviceCount g Kind.bfe > 0

/-- The loaned key has been revoked since its grant: no buffer takes it any more (R296). -/
def State.revokedNow (s : State) (r : CatRecord) : Bool :=
  match s.cat.records.get none (entryKey r.coll r.index) with
  | some x => x.gen == r.gen && x.state == .revoked
  | none => false

/-- Every load that a job's EXEC has queued has taken effect, or waits behind a running key generation (R295.4). -/
def State.resideDone (s : State) (n : Nat) : Bool :=
  (List.range 16).all fun g => (s.gal g).queuedLoad.isNone || (s.gal g).loadBy != n || s.mceKeygenOn g

/-- The catalogue key of a record as the BFEs' buffers name it. -/
def residentKey (r : CatRecord) : Nat × Nat × Nat := (r.coll, r.index, r.gen)

/-- A BFE reads the loaned public key from its buffer, and not from the Storeroom (R294). -/
def State.readsBuffer (s : State) (g code : Nat) (r : CatRecord) : Bool := code == 0x0704 && (s.gal g).resident == some (residentKey r)

def mcelieceResideFn : FnDef where
  spec _ sel opts _ := if opts > 1 || sel = 0 || sel > 8 then none else some
    { ins := [{ rule := .exact 2 }], loans := [⟨[Pu.encrypt], [0x21], [sel]⟩] }
  compute c s :=
    if s.revokedNow (c.key 0) then failed St.keyRevoked s
    else
      let key := residentKey (c.key 0)
      let s := s.forAll (s.maskGalleries (leNat (c.input 0))) fun s g =>
        if c.opts.testBit 0 then s.unreside c.job g key else s.reside c.job g (some key)
      ({ scalar := some (recHandle (c.key 0)) }, s)
  ready n r s := r.scalar.isNone || s.resideDone n
  finish r s := { r with scalar := r.scalar.map fun h => w64 (s.residentMask (handleColl h, handleIndex h, handleGen h)) }

/-! ### HQC (R289 to R293) -/

def State.hqcPkLen (s : State) (sel : Nat) : Nat := ((s.hqcLens sel).getD (0, 0, 0)).2.1
def State.hqcCtLen (s : State) (sel : Nat) : Nat := ((s.hqcLens sel).getD (0, 0, 0)).2.2

def hqcSpec (s : State) (sel opts : Nat) (x : FnSpec) : Option FnSpec := noOpts opts ((s.hqcLens sel).map fun _ => x)

/-- The public key within a private key (R289): the set fixes where it stands. -/
def State.hqcPkOf (s : State) (sel : Nat) (sk : List Byte) : List Byte :=
  slice sk (min (Config.primNat (.hqcPkAt sel) []) (sk.length - s.hqcPkLen sel)) (s.hqcPkLen sel)

/-- A private key of `n` bytes around its public key. -/
def hqcSkOf (sel n : Nat) (seed pk : List Byte) : List Byte :=
  let own := Config.prim (.hqcSk sel) [seed] (n - pk.length)
  let at_ := min (Config.primNat (.hqcPkAt sel) []) (n - pk.length)
  own.take at_ ++ pk ++ own.drop at_

/-- The padding bits above n in the encoding of s are zero (R291); of the standard's sets the spec gives no lengths. -/
def hqcPkOk (sel : Nat) (pk : List Byte) : Bool :=
  match sel with
  | 1 | 3 => padClear 3 (pk.getLastD 0)
  | 2 => padClear 5 (pk.getLastD 0)
  | _ => Config.primBool (.hqcPkOk sel) [pk]

def hqcKeygenFn : FnDef where
  spec s sel opts _ := hqcSpec s sel opts
    { outs := [.template, .pub (s.hqcPkLen sel)], units := bfeExpand, rngs := [.mask, .keyGen] }
  compute c s :=
    if !c.makes 0 0x22 c.sel s then failed St.keyClass s
    else
      let d := c.draw 32 s
      let pk := Config.prim (.hqcPk c.sel) [d.1] (s.hqcPkLen c.sel)
      ({ outs := [newKey (hqcSkOf c.sel ((s.hqcLens c.sel).getD (0, 0, 0)).1 d.1 pk), { bytes := pk }] }, d.2)

/-- The shared secret of a message, or of the rejection value, and a ciphertext: 64 bytes, for the NIST sets 0x11 to 0x13 too, and 32 bytes of randomness
for each encapsulation (R289 gives the secrets of sets 1 to 3 alone; DESIGN CHOICE, log entry 131). -/
def hqcKeyOf (sel : Nat) (m ct : List Byte) : List Byte := Config.prim (.hqcKey sel) [m, ct] 64

def hqcEncapsulate (c : Ctx) (pk : List Byte) (s : State) : ExecResult × State :=
  let m := c.draw 32 s
  let ct := Config.prim (.hqcCt c.sel) [pk, m.1] (s.hqcCtLen c.sel)
  withOut (secretOut c 1 (hqcKeyOf c.sel m.1 ct) 0 0 false) (fun o => [{ bytes := ct }, o]) m.2

def hqcEncapsFn : FnDef where
  spec s sel opts _ := hqcSpec s sel opts
    { ins := [{ rule := .exact (s.hqcPkLen sel) }], outs := [.pub (s.hqcCtLen sel), .secret 64], units := bfeExpand, rngs := [.mask, .keyGen] }
  compute c s := if !hqcPkOk c.sel (c.input 0) then failed St.encodingRejected s else hqcEncapsulate c (c.input 0) s

/-- The padding bits of a ciphertext's polynomials u and v are zero; of the standard's sets the spec gives no lengths. -/
def hqcCtOk (sel : Nat) (ct : List Byte) : Bool :=
  match sel with
  | 1 => padClear 3 (ct.getD 2208 0)
  | 2 => padClear 5 (ct.getD 4481 0)
  | 3 => padClear 3 (ct.getD 7204 0)
  | _ => Config.primBool (.hqcCtOk sel) [ct]

/-- Decapsulation accepts a ciphertext: its padding bits are zero, and the decoded message re-encrypts to it (R292). -/
def State.hqcAccepts (s : State) (sel : Nat) (sk m ct : List Byte) : Bool :=
  hqcCtOk sel ct && Config.prim (.hqcCt sel) [s.hqcPkOf sel sk, m] (s.hqcCtLen sel) == ct

/-- The shared secret of a ciphertext: of the decoded message where decapsulation accepts; otherwise of σ (R292). -/
def State.hqcDecapsulate (s : State) (sel : Nat) (sk ct : List Byte) : List Byte :=
  let m := Config.prim (.hqcMsg sel) [sk, ct] 32
  if s.hqcAccepts sel sk m ct then hqcKeyOf sel m ct else hqcKeyOf sel (Config.prim (.hqcSigma sel) [sk] 32) ct

def hqcDecapsFn : FnDef where
  spec s sel opts _ := hqcSpec s sel opts
    { ins := [{ rule := .exact (s.hqcCtLen sel) }], outs := [.secret 64], loans := [⟨[Pu.decapsulate], [0x22], [sel]⟩],
      units := bfeExpand, rngs := [.mask] }
  compute c s :=
    withOut (secretOut c 0 (s.hqcDecapsulate c.sel (c.mat 0) (c.input 0)) (recHandle (c.key 0)) 0x08 (c.key 0).clearOrigin) (fun o => [o]) s

def hqcEncapskFn : FnDef where
  spec s sel opts _ := hqcSpec s sel opts
    { outs := [.pub (s.hqcCtLen sel), .secret 64], loans := [⟨[Pu.encrypt], [0x23], [sel]⟩], units := bfeExpand, rngs := [.mask, .keyGen] }
  compute c s := hqcEncapsulate c (c.mat 0) s

def hqcExportpkFn : FnDef where
  spec s sel opts _ := hqcSpec s sel opts
    { outs := [.pub (s.hqcPkLen sel)], loans := [⟨[Pu.decapsulate], [0x22], [sel]⟩], units := bfeUnit }
  compute c s := pubOut [s.hqcPkOf c.sel (c.mat 0)] s

def hqcImportpkFn : FnDef where
  spec s sel opts _ := hqcSpec s sel opts { ins := [{ rule := .exact (s.hqcPkLen sel) }], outs := [.template], units := bfeUnit }
  compute c s :=
    if !c.makes 0 0x23 c.sel s then failed St.keyClass s
    else if !hqcPkOk c.sel (c.input 0) then failed St.encodingRejected s
    else ({ outs := [importedKey (c.input 0)] }, s)

end Sys2Proof.Machine
end

