-- ==== Sys2Proof/Machine/HashSig.lean ====
section
/-! DEFINITION. The functions of SLH-DSA, LMS/HSS and XMSS/XMSS^MT (08_hash_signatures_and_ledger.md), with the lengths and the
tree-cache sizes their keys fix. -/

namespace Sys2Proof.Machine

/-! ### SLH-DSA (R256 to R258) -/

/-- Signature bytes of an SLH-DSA selector (R258). -/
def slhSigLen (sel : Nat) : Option Nat :=
  match sel with
  | 1 | 2 => some 7856 | 3 | 4 => some 17088 | 5 | 6 => some 16224 | 7 | 8 => some 35664 | 9 | 10 => some 29792
  | 11 | 12 => some 49856
  | _ => none

/-- SHAKE sets have even selectors (R258). -/
def slhShake (sel : Nat) : Bool := sel % 2 == 0

/-- The lanes of a signing: 28 plain and 2 masked Keccak lanes, or 16 SHA-2 lanes, two masked pairs among them (R258, R275). -/
def slhLanes (sel : Nat) : List (Nat × Nat) := if slhShake sel then [(Kind.keccak, 28), (maskedKind, 2)] else [(Kind.sha2, 16)]
def slhVerifyLanes (sel : Nat) : List (Nat × Nat) := if slhShake sel then [(Kind.keccak, 1)] else [(Kind.sha2, 1)]

/-- SLHDSA takes the options of R204 but external mu (R257). -/
def slhOptsOk (opts : Nat) : Bool := mldsaOptsOk opts && !opts.testBit 6

/-- PK.seed and PK.root of a private key (R258). -/
def slhPkOf (sel : Nat) (sk : List Byte) : List Byte := slice sk (2 * slhN sel) (2 * slhN sel)

def slhVerifies (sel opts : Nat) (pk msg ctx sig : List Byte) : Bool :=
  sig.length == (slhSigLen sel).getD 0 && Config.primBool (.slhOk sel (opts / 2 * 2)) [pk, msg, ctx, sig]

def slhdsaKeygenFn : FnDef where
  spec _ sel opts _ := noOpts opts <| (slhSigLen sel).map fun _ =>
    { outs := [.template, .pub (2 * slhN sel)], units := slhLanes sel, rngs := [.mask, .keyGen], keyed := some (slhShake sel) }
  compute c s :=
    if !c.makes 0 0x16 c.sel s then failed St.keyClass s
    else
      let d := c.draw (3 * slhN c.sel) s
      let sk := d.1 ++ Config.prim (.slhSk c.sel) [d.1] (slhN c.sel)
      ({ outs := [newKey sk, { bytes := slhPkOf c.sel sk }] }, d.2)

def slhdsaSignFn : FnDef where
  spec _ sel opts _ := if !slhOptsOk opts then none else (slhSigLen sel).map fun n =>
    { ins := [mldsaMsg opts, {}], outs := [.pub n], loans := [⟨[Pu.sign], [0x16], [sel]⟩], units := slhLanes sel,
      rngs := if opts.testBit 0 then [.mask] else [.mask, .keyGen], keyed := some (slhShake sel) }
  compute c s :=
    if (c.input 1).length > 255 then failed St.inputRange s
    else if c.opts.testBit 0 && c.pol.noDeterministic then failed St.policyDenied s
    else
      let r := if c.opts.testBit 0 then (slice (c.mat 0) (2 * slhN c.sel) (slhN c.sel), s) else c.draw (slhN c.sel) s
      pubOut [Config.prim (.slhSig c.sel (c.opts / 2 * 2)) [c.mat 0, c.input 0, c.input 1, r.1] ((slhSigLen c.sel).getD 0)] r.2

def slhdsaVerifyFn : FnDef where
  spec _ sel opts _ := if !slhOptsOk opts then none else (slhSigLen sel).map fun _ =>
    { ins := [mldsaMsg opts, {}, {}], loans := [⟨[Pu.verify], [0x17], [sel]⟩], units := slhVerifyLanes sel }
  compute c s :=
    if (c.input 1).length > 255 then failed St.inputRange s
    else verdict (slhVerifies c.sel c.opts (c.mat 0) (c.input 0) (c.input 1) (c.input 2)) s

def slhdsaVerifyxFn : FnDef where
  spec _ sel opts _ := if !slhOptsOk opts then none else (slhSigLen sel).map fun _ =>
    { ins := [{ rule := .exact (2 * slhN sel) }, mldsaMsg opts, {}, {}], units := slhVerifyLanes sel }
  compute c s :=
    if (c.input 2).length > 255 then failed St.inputRange s
    else verdict (slhVerifies c.sel c.opts (c.input 0) (c.input 1) (c.input 2) (c.input 3)) s

def slhdsaExportpkFn : FnDef where
  spec _ sel opts _ := noOpts opts <| (slhSigLen sel).map fun _ =>
    { outs := [.pub (2 * slhN sel)], loans := [⟨[Pu.sign], [0x16], [sel]⟩], units := slhVerifyLanes sel }
  compute c s := pubOut [slhPkOf c.sel (c.mat 0)] s

def slhdsaImportpkFn : FnDef where
  spec _ sel opts _ := noOpts opts <| (slhSigLen sel).map fun _ =>
    { ins := [{ rule := .exact (2 * slhN sel) }], outs := [.template], units := slhVerifyLanes sel }
  compute c s :=
    if !c.makes 0 0x17 c.sel s then failed St.keyClass s else ({ outs := [importedKey (c.input 0)] }, s)

/-! ### Lengths and sizes of the stateful families (R262, R265, R266) -/

/-- LM-OTS chains of n and a Winternitz code (R262). -/
def lmotsChains (n w : Nat) : Nat :=
  match w with
  | 0 => if n = 32 then 265 else 200
  | 1 => if n = 32 then 133 else 101
  | 2 => if n = 32 then 67 else 51
  | _ => if n = 32 then 34 else 26

/-- Bytes of an LMS signature of a level of height h (R262). -/
def lmsLevelSig (sel h : Nat) : Nat := 4 + (4 + hbsN sel + lmotsChains (hbsN sel) (sel % 4) * hbsN sel) + 4 + h * hbsN sel

/-- Bytes of a key's signature: the LMS form with raw_lms, otherwise HSS (R259, R262). -/
def lmsSigLen (sel cw : Nat) : Nat :=
  let hs := lmsHeights cw
  if cw.testBit 27 then lmsLevelSig sel (hs.getD 0 5)
  else 4 + (hs.map (lmsLevelSig sel)).sum + (hs.length - 1) * (24 + hbsN sel)

/-- Bytes of a key's public key (R262). -/
def lmsPkLen (sel cw : Nat) : Nat := (if cw.testBit 27 then 24 else 28) + hbsN sel

/-- Bytes of an XMSS or XMSS^MT signature (R260, R262). -/
def xmssSigLen (sel : Nat) : Option Nat :=
  (xmssShape sel).map fun x =>
    let n := hbsN sel
    let len := if n = 32 then 67 else 51
    if x.2 = 1 then 4 + n + len * n + x.1 * n else (x.1 + 7) / 8 + n + x.2 * (len * n + x.1 / x.2 * n)

/-- Heights of a stateful key's levels, top first. -/
def levelHeights (cls sel cw : Nat) : List Nat :=
  if cls == 0x18 then lmsHeights cw
  else match xmssShape sel with
    | some (h, d) => List.replicate d (h / d)
    | none => []

/-- Leaves of a stateful key (R268). -/
def totalLeaves (cls sel cw : Nat) : Nat := 2 ^ (levelHeights cls sel cw).sum

/-- The height of the bottom level, the leaves of one of its window subtrees, and how many of those the window holds: the whole tree up to
height 10, else 8 subtrees of 2^10 leaves (R266). -/
def LedgerSlot.bottomH (x : LedgerSlot) : Nat := x.heights.getLastD 0
def LedgerSlot.subtree (x : LedgerSlot) : Nat := min (2 ^ x.bottomH) 1024
def LedgerSlot.window (x : LedgerSlot) : Nat := if x.bottomH ≤ 10 then 1 else 8

/-- Leaves of the key that an instance of level `i` serves (R268). -/
def LedgerSlot.instLeaves (x : LedgerSlot) (i : Nat) : Nat := 2 ^ (x.heights.drop i).sum

/-- The ends of the instances of every level that serve a leaf. -/
def LedgerSlot.firstInstances (x : LedgerSlot) (leaf : Nat) : List Nat :=
  (List.range x.heights.length).map fun i => (leaf / x.instLeaves i + 1) * x.instLeaves i

/-- Tree-cache bytes of a level of height h (R266). -/
def levelCache (n h : Nat) : Nat := if h ≤ 10 then 2 ^ (h + 1) * n else (2 ^ (h - 9) + 8 * 2 ^ 11) * n

/-- Tree-cache bytes of a key (R266). -/
def keyCache (cls sel cw : Nat) : Nat := ((levelHeights cls sel cw).map (levelCache (hbsN sel))).sum

/-- Bytes of the tree-cache region, which STORE_REGIONS reports in units of 0.5 GB (R266, R380). -/
def State.treeRegion (s : State) : Nat := bits32 s.store.regions 9 9 * 2 ^ 29

/-- Blocks that an issuer holds with leaves left (R270). -/
def heldBlocks (l : List LeafBlock) : List LeafBlock := l.filter fun b => b.next < b.stop

/-- The lowest leaf that may still be issued. -/
def LedgerSlot.lowest (x : LedgerSlot) : Nat := ((heldBlocks (x.blocksW ++ x.blocksE)).map (·.next)).foldl min x.next

/-- Instances of a level that the cache holds: from the one of the lowest leaf to the last generated (R266). -/
def LedgerSlot.held (x : LedgerSlot) (i : Nat) : Nat :=
  max 1 ((x.instances.getD i 0 - x.lowest / x.instLeaves i * x.instLeaves i) / x.instLeaves i)

/-- Bytes of a key's tree cache (R266). -/
def LedgerSlot.cacheBytes (x : LedgerSlot) : Nat :=
  (x.heights.zipIdx.map fun p => x.held p.2 * levelCache (hbsN x.selector) p.1).sum

/-- Bytes of the tree-cache region in use: the caches of the active keys (R266). -/
def State.cacheUsed (s : State) : Nat :=
  ((s.ledger.slots.filter fun p => p.2.state == .active).map fun p => p.2.cacheBytes).sum

/-- Bytes fit the region beside what it holds (R266). -/
def State.cacheFits (s : State) (bytes : Nat) : Bool := s.cacheUsed + bytes ≤ s.treeRegion

/-- The number of a tree generation in the list of grants. -/
def genJob (slot k : Nat) : Nat := 0x200000 + 4 * slot + k

/-- The tree generations of a slot are discarded and their lanes released; what is still due begins again (R265, R277). -/
def State.dropGens (s : State) (n : Nat) : State :=
  let s := s.setSlot n { s.slot n with gens := [] }
  { s with work := { s.work with grants := s.work.grants.filter fun g => !(0x200000 ≤ g.job && (g.job - 0x200000) / 4 == n) } }

/-- The tree cache of an active slot is discarded, to be generated again (R266). -/
def State.dropTrees (s : State) (n : Nat) : State :=
  if (s.slot n).state != .active then s
  else (s.dropGens n).setSlot n { (s.dropGens n).slot n with rebuilding := true, coverFrom := 0, coverTo := 0 }

/-- Those of the slots with a generation in the galleries that `p` picks are discarded. -/
def State.dropGensOn (s : State) (p : Nat → Bool) : State :=
  s.forAll (s.ledger.slots.filter fun x => x.2.gens.any fun g => p g.gallery) fun s x => s.dropGens x.1

/-- Slots 0 to 65,535 in a state (R268). A slot with no entry is free. -/
def State.slotsIn (s : State) (st : SlotState) : List Nat := (s.ledger.slots.filter fun p => p.2.state == st).map (·.1)

/-- The slot a KEYGEN is given: the lowest free one, otherwise the lowest reclaimable one (R273). -/
def State.freeSlot (s : State) : Option Nat :=
  match (List.range (s.ledger.slots.length + 1)).find? fun i => (s.slot i).state == .free && i < 65536 with
  | some i => some i
  | none => (s.slotsIn .reclaimable).head?

/-- The lanes of a stateful signing or generation: two for the digest and the chains, and the masked ones of the secret derivations, of which
two SHA-2 pairs serve both (R275, R276). SHAKE selectors have bit 7 set (R259, R260). -/
def hbsLanes (sel : Nat) : List (Nat × Nat) := if sel.testBit 7 then [(Kind.keccak, 2), (maskedKind, 2)] else [(Kind.sha2, 4)]
def hbsPlain (sel : Nat) : List (Nat × Nat) := if sel.testBit 7 then [(Kind.keccak, 1)] else [(Kind.sha2, 1)]

/-- Step 5 of a stateful KEYGEN: the template's class and shape, a ledger slot and room in the tree cache, then the key (R259,
R265, R266). -/
def statefulKeygen (cls : Nat) (seedLen : Nat → Nat) (sk pk : Nat → Nat → List Byte → List Byte) : Compute := fun c s =>
  let cw := (c.tmpl 0).classWord
  if !c.makes 0 cls c.sel s then failed St.keyClass s
  else if s.freeSlot.isNone || !s.cacheFits (keyCache cls c.sel cw) then failed St.resourceExhausted s
  else
    let d := c.draw (seedLen c.sel) s
    let k := sk c.sel cw d.1
    ({ outs := [newKey k, { bytes := pk c.sel cw k }] }, d.2)

/-! ### LMS/HSS -/

/-- A 32-bit integer as RFC 8554 writes it, big-endian (R255). -/
def u32str (n : Nat) : List Byte := beBytes 4 n
def u32at (b : List Byte) (i : Nat) : Nat := beNat (slice b i 4)

/-- Where a leaf of the whole key falls in level `i` of the heights: the instance of the level, and the one-time key within it (R268). -/
def hssPlace (hs : List Nat) (i leaf : Nat) : Nat × Nat :=
  let x := leaf / 2 ^ (hs.drop (i + 1)).sum
  (x / 2 ^ hs.getD i 5, x % 2 ^ hs.getD i 5)

/-- SEED and I of an instance of a level: the master seed and the I of the material at the top, KMAC256 of the master seed, the level and the
instance below (R263). -/
def lmsSeed (sel : Nat) (k : List Byte) (i inst : Nat) : List Byte × List Byte :=
  if i = 0 then (slice k 0 (hbsN sel), slice k 32 16)
  else
    let x := kmacOut 9 false (slice k 0 32) (Config.lmsText [i, inst]) [] (hbsN sel + 16)
    (x.take (hbsN sel), x.drop (hbsN sel))

/-- "LMOTS-C". -/
def lmotsLabel : List Byte := [0x4C, 0x4D, 0x4F, 0x54, 0x53, 0x2D, 0x43]

/-- The LMS public key of an instance (R262). -/
def lmsPkAt (sel h : Nat) (x : List Byte × List Byte) : List Byte := Config.prim (.lmsPk sel h) [x.1, x.2] (24 + hbsN sel)

/-- The LMS signature of a message by one-time key `q` of an instance, with the derived randomiser: the same each time that it is computed
(R264). -/
def lmsSigAt (sel h i inst q : Nat) (x : List Byte × List Byte) (msg : List Byte) : List Byte :=
  let c := kmacOut 9 false x.1 (lmotsLabel ++ Config.lmsText [i, inst, q]) [] (hbsN sel)
  Config.prim (.lmsSig sel h) [x.1, x.2, u32str q, c, msg] (lmsLevelSig sel h)

/-- The public key of a private key: the top level's LMS key, after L in the HSS form (R259, R262). -/
def lmsPk (sel cw : Nat) (k : List Byte) : List Byte :=
  let hs := lmsHeights cw
  let pk := lmsPkAt sel (hs.getD 0 5) (lmsSeed sel k 0 0)
  if cw.testBit 27 then pk else u32str hs.length ++ pk

/-- The signature of a message with a leaf: L - 1 and, for each level but the last, the LMS signature over the next level's public key
followed by that key; then the bottom LMS signature, which is all of it with raw_lms (R262, R264). -/
def lmsSignature (sel cw : Nat) (k : List Byte) (leaf : Nat) (msg : List Byte) : List Byte :=
  let hs := lmsHeights cw
  let sign (i : Nat) (m : List Byte) : List Byte :=
    let p := hssPlace hs i leaf
    lmsSigAt sel (hs.getD i 5) i p.1 p.2 (lmsSeed sel k i p.1) m
  let pk (i : Nat) : List Byte := lmsPkAt sel (hs.getD i 5) (lmsSeed sel k i (hssPlace hs i leaf).1)
  let upper := (List.range (hs.length - 1)).flatMap fun i => sign i (pk (i + 1)) ++ pk (i + 1)
  (if cw.testBit 27 then [] else u32str (hs.length - 1)) ++ upper ++ sign (hs.length - 1) msg

/-- Height and n of an LMS type code, and n and chains of an LM-OTS type code, of RFC 8554 and NIST SP 800-208 (R259, R261). -/
def lmsType (t : Nat) : Option (Nat × Nat) :=
  if 5 ≤ t && t ≤ 24 then some (5 * ((t - 5) % 5 + 1), if (t - 5) / 5 % 2 = 0 then 32 else 24) else none
def lmotsType (t : Nat) : Option (Nat × Nat) :=
  if 1 ≤ t && t ≤ 16 then
    let n := if (t - 1) / 4 % 2 = 0 then 32 else 24
    some (n, lmotsChains n ((t - 1) % 4))
  else none

/-- The length of the LMS signature at the head of a string, where its type codes are supported (R261). -/
def lmsSigSpan (b : List Byte) : Option Nat :=
  match lmotsType (u32at b 4) with
  | none => none
  | some (n, p) =>
    let k := 8 + n + p * n
    match lmsType (u32at b k) with
    | some (h, m) => if k + 4 + h * m ≤ b.length then some (k + 4 + h * m) else none
    | none => none

/-- An LMS public key has supported type codes and their length (R261). -/
def lmsPkForm (pk : List Byte) : Bool :=
  match lmsType (u32at pk 0) with
  | some (_, m) => (lmotsType (u32at pk 4)).isSome && pk.length == 24 + m
  | none => false

/-- An LMS or HSS public key has supported type codes and an L from 1 to 8 (R259, R261). -/
def lmsPkOk (pk : List Byte) : Bool :=
  if pk.length == 48 || pk.length == 56 then lmsPkForm pk else 1 ≤ u32at pk 0 && u32at pk 0 ≤ 8 && lmsPkForm (pk.drop 4)

/-- `k` signed public keys and then one LMS signature fill a string (R262). -/
def hssForm : Nat → List Byte → Bool
  | 0, b => lmsSigSpan b == some b.length
  | k + 1, b =>
    match lmsSigSpan b with
    | none => false
    | some n =>
      match lmsType (u32at (b.drop n) 0) with
      | some (_, m) => (lmotsType (u32at (b.drop n) 4)).isSome && hssForm k (b.drop (n + 24 + m))
      | none => false

/-- A signature of the wrong length, count or type codes fails (R256); then the verification of the standard decides. -/
def lmsVerifies (pk msg sig : List Byte) : Bool :=
  (if pk.length == 48 || pk.length == 56 then hssForm 0 sig
   else u32at sig 0 + 1 == u32at pk 0 && u32at pk 0 ≤ 8 && hssForm (u32at sig 0) (sig.drop 4)) &&
    Config.primBool .lmsOk [pk, msg, sig]

/-- The length of an external LMS or HSS public key for a selector (R262). -/
def lmsPkLenOk (sel n : Nat) : Bool := n == 24 + hbsN sel || n == 28 + hbsN sel

def lmsSpec (sel opts : Nat) (x : FnSpec) : Option FnSpec := if opts != 0 || !lmsSelOk sel then none else some x

def lmsKeygenFn : FnDef where
  spec _ sel opts cw := lmsSpec sel opts
    { outs := [.template, .pub (lmsPkLen sel cw)], units := hbsLanes sel, rngs := [.mask, .keyGen], keyed := some (sel.testBit 7) }
  compute := statefulKeygen 0x18 (fun _ => 48) (fun _ _ d => d) lmsPk

def lmsSignFn : FnDef where
  spec _ sel opts cw := lmsSpec sel opts
    { ins := [{}], outs := [.pub (lmsSigLen sel cw)], loans := [⟨[Pu.sign], [0x18], [sel]⟩], units := hbsLanes sel,
      rngs := [.mask], leaf := true, keyed := some (sel.testBit 7) }
  compute c s :=
    let cw := (c.key 0).classWord.toNat
    ({ outs := [{ bytes := lmsSignature c.sel cw (c.mat 0) c.leaf (c.input 0) }],
       scalar := some (w64 c.remaining) }, s)

def lmsVerifyFn : FnDef where
  spec _ sel opts _ := lmsSpec sel opts
    { ins := [{}, {}], loans := [⟨[Pu.verify], [0x19], [sel]⟩], units := hbsPlain sel }
  compute c s := verdict (lmsVerifies (c.mat 0) (c.input 0) (c.input 1)) s

def lmsVerifyxFn : FnDef where
  spec _ sel opts _ := lmsSpec sel opts { ins := [{}, {}, {}], units := hbsPlain sel }
  compute c s :=
    if !lmsPkLenOk c.sel (c.input 0).length then failed St.badBuffer s
    else if !lmsPkOk (c.input 0) then failed St.encodingRejected s
    else verdict (lmsVerifies (c.input 0) (c.input 1) (c.input 2)) s

def lmsExportpkFn : FnDef where
  spec _ sel opts cw := lmsSpec sel opts
    { outs := [.pub (lmsPkLen sel cw)], loans := [⟨[Pu.sign], [0x18], [sel]⟩], units := hbsPlain sel }
  compute c s := pubOut [lmsPk c.sel (c.key 0).classWord.toNat (c.mat 0)] s

def lmsImportpkFn : FnDef where
  spec _ sel opts _ := lmsSpec sel opts { ins := [{}], outs := [.template], units := hbsPlain sel }
  compute c s :=
    if !c.makes 0 0x19 c.sel s then failed St.keyClass s
    else if (c.input 0).length != lmsPkLen c.sel (c.tmpl 0).classWord then failed St.badBuffer s
    else if !lmsPkOk (c.input 0) then failed St.encodingRejected s
    else ({ outs := [importedKey (c.input 0)] }, s)

/-! ### XMSS/XMSS^MT -/

def xmssPkLen (sel : Nat) : Nat := 4 + 2 * hbsN sel
def xmssPk (sel _cw : Nat) (k : List Byte) : List Byte := Config.prim (.xmssPk sel) [k] (xmssPkLen sel)

def xmssSpec (sel opts : Nat) (x : Nat → FnSpec) : Option FnSpec := noOpts opts ((xmssSigLen sel).map x)

def xmssKeygenFn : FnDef where
  spec _ sel opts _ := xmssSpec sel opts fun _ =>
    { outs := [.template, .pub (xmssPkLen sel)], units := hbsLanes sel, rngs := [.mask, .keyGen], keyed := some (sel.testBit 7) }
  compute := statefulKeygen 0x1A (fun sel => 3 * hbsN sel)
    (fun sel _ d => d ++ Config.prim (.xmssSk sel) [d] (hbsN sel)) xmssPk

def xmssSignFn : FnDef where
  spec _ sel opts _ := xmssSpec sel opts fun n =>
    { ins := [{}], outs := [.pub n], loans := [⟨[Pu.sign], [0x1A], [sel]⟩], units := hbsLanes sel, rngs := [.mask],
      leaf := true, keyed := some (sel.testBit 7) }
  compute c s :=
    ({ outs := [{ bytes := Config.prim (.xmssSig c.sel) [c.mat 0, leBytes 8 c.leaf, c.input 0] ((xmssSigLen c.sel).getD 0) }],
       scalar := some (w64 c.remaining) }, s)

/-- A signature of another length than the set's fails (R256). -/
def xmssVerifies (sel : Nat) (pk msg sig : List Byte) : Bool :=
  some sig.length == xmssSigLen sel && Config.primBool (.xmssOk sel) [pk, msg, sig]

def xmssVerifyFn : FnDef where
  spec _ sel opts _ := xmssSpec sel opts fun _ =>
    { ins := [{}, {}], loans := [⟨[Pu.verify], [0x1B], [sel]⟩], units := hbsPlain sel }
  compute c s := verdict (xmssVerifies c.sel (c.mat 0) (c.input 0) (c.input 1)) s

def xmssVerifyxFn : FnDef where
  spec _ sel opts _ := xmssSpec sel opts fun _ => { ins := [{ rule := .exact (xmssPkLen sel) }, {}, {}], units := hbsPlain sel }
  compute c s :=
    if !Config.primBool (.xmssPkOk c.sel) [c.input 0] then failed St.encodingRejected s
    else verdict (xmssVerifies c.sel (c.input 0) (c.input 1) (c.input 2)) s

def xmssExportpkFn : FnDef where
  spec _ sel opts _ := xmssSpec sel opts fun _ =>
    { outs := [.pub (xmssPkLen sel)], loans := [⟨[Pu.sign], [0x1A], [sel]⟩], units := hbsPlain sel }
  compute c s := pubOut [xmssPk c.sel 0 (c.mat 0)] s

def xmssImportpkFn : FnDef where
  spec _ sel opts _ := xmssSpec sel opts fun _ => { ins := [{ rule := .exact (xmssPkLen sel) }], outs := [.template], units := hbsPlain sel }
  compute c s :=
    if !c.makes 0 0x1B c.sel s then failed St.keyClass s
    else if !Config.primBool (.xmssPkOk c.sel) [c.input 0] then failed St.encodingRejected s
    else ({ outs := [importedKey (c.input 0)] }, s)

end Sys2Proof.Machine
end

