-- ==== Sys2Proof/Machine/Registrar.lean ====
section
/-! DEFINITION. The Registrar's acts on records: lookup, caches and pins, the open seal, reservation and commit of accessions,
withdrawal and revocation, loan checks (05_catalogue_and_keys.md). -/

namespace Sys2Proof.Machine

/-! ### Records (R150, R151) -/

/-- The current record of an index. -/
def State.entry (s : State) (coll index : Nat) : Option CatRecord := s.cat.records.get none (entryKey coll index)
def State.setEntry (s : State) (r : CatRecord) : State :=
  { s with cat := { s.cat with records := s.cat.records.set none (entryKey r.coll r.index) (some r) } }

/-- The current record that a handle names, in a job's collection: none where the handle gives KEY_UNKNOWN (R130, R150). -/
def State.entryOf (s : State) (coll : Nat) (h : Word64) : Option CatRecord :=
  if handleColl h != coll || !handleLowZero h then none
  else (s.entry coll (handleIndex h)).filter fun r => r.gen == handleGen h

/-- The records of the catalogue. -/
def State.entries (s : State) : List CatRecord := s.cat.records.filterMap (·.2)

/-- The highest generation ever issued at an index; 0 for none. -/
def State.highestGen (s : State) (coll index : Nat) : Nat := s.cat.highest.get 0 (entryKey coll index)

/-! ### Binding keys (R173, R174) -/

/-- The measurement set in force, 48 bytes each. -/
def State.measSet (s : State) : List (List Byte) := s.boot.meas.map (padTo 48)

/-- The wrap of a measurement-bound collection's CBK that opens under the measurements in force. -/
def State.cbkWrap (s : State) (coll : Nat) : Option CbkWrap := (s.cat.wraps.get [] coll).find? fun x => x.meas == s.measSet.flatten

/-- The collection's binding key can be formed (R173, R174). -/
def State.cbkOk (s : State) (coll : Nat) : Bool :=
  s.boot.ssk.isSome && s.boot.lifecycle != .scrapped &&
    match s.coll coll with
    | none => false
    | some c =>
      match c.bindingMode with
      | 0 => (s.cbkWrap coll).isSome
      | 1 => ((s.boot.svns.zip (s.cat.floorsAt.get [] coll)).all fun p => p.1 ≥ p.2)
      | _ => true

/-- A wing's loan desk holds the CBKs (R173, R175). -/
def State.deskHolds (s : State) : Wing → Bool
  | .west => s.cat.deskW
  | .east => s.cat.deskE

/-- A collection's binding key (R173): what its wraps hold, each the same key, or derived from the sealing key, with the floors of a
version-bound collection. Material in the clear is sealed under it also while the running measurements fit none of the wraps (R174). -/
def State.cbk (s : State) (coll : Nat) : List Byte :=
  match s.cat.wraps.get [] coll with
  | x :: _ => x.key
  | [] => Config.prim .rdsKey [leBytes 2 coll, leBytes 32 (s.boot.ssk.getD 0), (s.cat.floorsAt.get [] coll).flatMap (leBytes 4)] 32

/-- The additional data and nonce under which a record's material is sealed (R152). -/
def recordAad (r : CatRecord) : List Byte := (recordInfo r).take 64
def recordNonce (r : CatRecord) : List Byte := (recordInfo r).take 8 ++ zeros 4

/-- A record whose ciphertext was restored opens where its collection's CBK is available (R174). -/
def State.unsealed (s : State) (r : CatRecord) : CatRecord :=
  match r.stored with
  | none => r
  | some ct =>
    if !s.cbkOk r.coll then r
    else
      let l := [s.cbk r.coll, recordNonce r, recordAad r, ct]
      { r with material := Config.prim .gcmOpen l r.length, corrupt := !Config.primBool .gcmOk l, stored := none }

/-- The ciphertext and tag of a record's material: as restored, where it has not been opened since (R152, R174). -/
def State.sealedMaterial (s : State) (r : CatRecord) : List Byte :=
  r.stored.getD (Config.prim .gcmSeal [s.cbk r.coll, recordNonce r, recordAad r, r.material] (r.length + 16))

/-- The 128 bytes of a record, and what its extent holds (R151, R152). -/
def State.recordImage (s : State) (r : CatRecord) : List Byte × List Byte :=
  let ct := s.sealedMaterial r
  if r.destroyed then (recordInfo r ++ zeros 48, [])
  else if granules r.length = 0 then (recordInfo r ++ padTo 32 (ct.take r.length) ++ ct.drop r.length, [])
  else (recordInfo r ++ zeros 48, padTo (64 * granules r.length) ct)

/-- The place of an entry's record in the catalogue region: its tile, and its offset there (R381). -/
def recordTile (r : CatRecord) : Nat := Config.recordNumber r.coll r.index / 32
def recordOffset (r : CatRecord) : Nat := 128 * (Config.recordNumber r.coll r.index % 32)

/-- Bytes written in the catalogue region of both wings, at an offset within it. -/
def State.writeCatalogue (s : State) (off : Nat) (bytes : List Byte) : State :=
  if bytes.isEmpty || s.regionUnits .catalogue * 2 ^ 29 < off + bytes.length then s else s.writeMirrored off bytes

/-- The record of an entry, and where it is new its extent, of which granule `n` stands at byte 64 n of the region (DEDUCED, log entry 143), written
to the Storeroom (R154, R381). -/
def State.storeRecord (s : State) (r : CatRecord) (whole : Bool) : State :=
  let x := s.recordImage r
  let s := s.writeCatalogue (4096 * recordTile r + recordOffset r) x.1
  if whole then s.writeCatalogue (64 * r.extent) x.2 else s

/-- The tiles that a loan desk reads for an entry of a wing's copy: its record's, and its extent's (R386, R387). -/
def extentTiles (w : Wing) (r : CatRecord) : List TileId := (spanTiles (64 * r.extent) (64 * granules r.length)).map fun t => ⟨w, t⟩
def recordTiles (w : Wing) (r : CatRecord) : List TileId := ⟨w, recordTile r⟩ :: (if granules r.length = 0 then [] else extentTiles w r)

/-- The record comes from a wing's catalogue cache, or from the Storeroom through the gate (R155, R386): the status of the reads. -/
def State.lendRead (s : State) (w : Wing) (r : CatRecord) : Byte × State :=
  let cache := match w with | .west => s.cat.cacheW | .east => s.cat.cacheE
  if r.pinned || cache.contains (entryKey r.coll r.index) then (St.ok, s) else s.gateReads (recordTiles w r)

/-! ### Caches and pins (R155, R156) -/

/-- Bytes that a record with its extent takes in a catalogue cache. -/
def cacheBytes (r : CatRecord) : Nat := 128 + 64 * granules r.length

/-- Capacity of a wing's catalogue cache, and its pinnable part (R155, R156). -/
def cacheCap : Nat := 16 * 2 ^ 20
def pinCap : Nat := 8 * 2 ^ 20

/-- Pinned bytes on each wing, held reservations counted (R156, R544). -/
def State.pinnedBytes (s : State) : Nat :=
  ((s.entries.filter (·.pinned)).map cacheBytes).sum + ((s.cat.reserved.filter (·.pin)).map fun x => 128 + 64 * x.granules).sum

/-- A listed record that is not pinned; the pinned ones are resident in both caches in any case (R156). -/
def State.unpinnedAt (s : State) (k : Nat) : Option CatRecord := (s.cat.records.get none k).filter fun r => !r.pinned

/-- Drop unpinned records from the least recently used end until the cache is within its capacity, pinned records counted. -/
def State.trimCache (s : State) : Nat → List Nat → List Nat
  | 0, l => l
  | n + 1, l =>
    let size := s.pinnedBytes + (l.map fun k => match s.unpinnedAt k with | some r => cacheBytes r | none => 0).sum
    if size ≤ cacheCap then l
    else match l.find? fun k => (s.unpinnedAt k).isSome with
      | some k => s.trimCache n (l.erase k)
      | none => l

/-- A record is read by a wing's loan desk: it becomes the most recently used of the wing's cache (R155). -/
def State.touchCache (s : State) (w : Wing) (key : Nat) : State :=
  match w with
  | .west => let l := s.cat.cacheW.erase key ++ [key]; { s with cat := { s.cat with cacheW := s.trimCache l.length l } }
  | .east => let l := s.cat.cacheE.erase key ++ [key]; { s with cat := { s.cat with cacheE := s.trimCache l.length l } }

/-- Both caches give up records where pinned ones have come to need their room (R155, R156). -/
def State.trimCaches (s : State) : State :=
  { s with cat := { s.cat with cacheW := s.trimCache s.cat.cacheW.length s.cat.cacheW, cacheE := s.trimCache s.cat.cacheE.length s.cat.cacheE } }

/-- Every cached copy of a record is invalidated (R155). -/
def State.invalidateCache (s : State) (key : Nat) : State :=
  { s with cat := { s.cat with cacheW := s.cat.cacheW.erase key, cacheE := s.cat.cacheE.erase key } }

/-! ### The open seal (R176, R179, R183) -/

/-- Bytes of a record in a seal's body: its 8-byte header and its payload, padded to 8 (R179). -/
def sealRecLen : SealRecord → Nat
  | .entry r => 8 + 128 + (if r.destroyed then 0 else 64 * granules r.length)
  | .state _ => 24
  | .collection _ _ bound wraps floors => 8 + up8 (16 + 3 * bound.length + 4 * floors.length + 240 * wraps.length)
  | .loss _ _ _ => 8 + 64
  | .pad => 16

def bodyLen (l : List SealRecord) : Nat := (l.map sealRecLen).sum

/-- Bytes of closed seals that wait in Curator SRAM, each with its header and tag (R178, R183). -/
def State.waitingBytes (s : State) : Nat := (s.journal.closed.map fun c => 112 + bodyLen c.records - c.reserve).sum
/-- Bytes of the deaccession reserve in use (R183). -/
def State.reserveUsed (s : State) : Nat := (s.journal.closed.map (·.reserve)).sum + s.journal.openReserve

/-- Curator SRAM for closed seals, and the deaccession reserve (R183). -/
def sealSram : Nat := 2 * 2 ^ 20
def sealReserve : Nat := 512 * 1024
/-- The largest body of a seal (R176). -/
def maxBody : Nat := 4 * 2 ^ 20

/-- The Curator can write to the ring: it has the key, and its port's link is up; a frozen part writes only its report (R422, R423). -/
def State.ringReachable (s : State) : Bool :=
  let j := s.journal
  j.configured && j.acked && j.restore == .restored && s.boot.ssk.isSome && !s.tamper.erased && s.cont.vote != .lost && !s.tamper.lostFreeze &&
    (!s.tamper.frozen || s.tamper.reportPhase) && (s.port j.ringPort).cfgReady && s.reaches j.ringPort && !s.boot.inReset

/-- The ring has room for the closed seal that is written next. -/
def State.ringRoom (s : State) : Bool :=
  let j := s.journal
  s.ringReachable && match j.closed with
    | c :: _ => 112 + bodyLen c.records ≤ j.ringSize - (j.written - j.ackedTo)
    | [] => true

/-- The ring has no room, and the space of the closed seals that wait for it has none for the open one: accessions and pin changes end with
RESOURCE_EXHAUSTED (R183). -/
def State.sealsFull (s : State) : Bool :=
  !s.journal.closed.isEmpty && !s.ringRoom && s.waitingBytes + 112 + bodyLen s.journal.openSeal > sealSram + s.journal.openReserve

/-- A deaccession finds the reserve exhausted (R183). -/
def State.reserveFull (s : State) : Bool := s.sealsFull && s.reserveUsed + 24 + 112 > sealReserve

/-- Sequence of the seal that is open (R178). -/
def State.openSeq (s : State) : Nat := s.journal.lastClosed + 1

/-- The open seal closes: it takes the next sequence and waits to be written (R176). -/
def State.closeSeal (s : State) (loss : Bool) : State :=
  let j := s.journal
  if j.openSeal.isEmpty && !loss then s
  else
    let c : ClosedSeal :=
      { seq := s.openSeq, checkpointBegin := j.openBegin, checkpointEnd := j.openEnd, lossAccepted := loss, rtc := s.rtcSec,
        records := j.openSeal, reserve := j.openReserve }
    { s with journal := { j with openSeal := [], openBegin := false, openEnd := false, openReserve := 0, closed := j.closed ++ [c],
                                 lastClosed := c.seq } }

/-- The open seal closes first where a record would take its body beyond 4 MiB (R176, R178). -/
def State.sealRoom (s : State) (r : SealRecord) : State :=
  if bodyLen s.journal.openSeal + sealRecLen r > maxBody then s.closeSeal false else s

/-- A change enters the open seal in Registrar order; the seal closes when its body reaches 4 MiB (R176). -/
def State.journalAdd (s : State) (r : SealRecord) (deaccession : Bool) : State :=
  let s := s.sealRoom r
  let j := s.journal
  let res := if deaccession && s.sealsFull then 24 else 0
  let s := { s with journal := { j with openSeal := j.openSeal ++ [r], openReserve := j.openReserve + res,
                                        openSince := if j.openSeal.isEmpty then s.now else j.openSince } }
  if bodyLen s.journal.openSeal ≥ maxBody then s.closeSeal false else s

/-- An entry's record, or its state, enters the open seal, whose sequence the record then holds (R151); cached copies of the record as it was are
invalidated first (R155). -/
def State.journalRecord (s : State) (r : CatRecord) (whole deaccession : Bool) : State :=
  let f (r : CatRecord) : SealRecord := if whole then .entry r else .state r
  let s := s.sealRoom (f r)
  let r := { r with sealSeq := s.openSeq % 2 ^ 32 }
  ((((s.invalidateCache (entryKey r.coll r.index)).setEntry r).trimCaches).storeRecord r whole).journalAdd (f r) deaccession

/-- The current record of an index, as it now stands, enters the open seal as a state change. -/
def State.journalState (s : State) (coll index : Nat) (deaccession : Bool) : State :=
  match s.entry coll index with
  | some r => s.journalRecord r false deaccession
  | none => s

/-! ### Loans of an entry -/

def State.loan (s : State) (n : Nat) : Option Loan := s.cat.loans.get none n
def State.loanList (s : State) : List (Nat × Loan) := s.cat.loans.filterMap fun p => p.2.map fun l => (p.1, l)

/-- The loan is of this entry. -/
def loanOf (coll index gen : Nat) (l : Loan) : Bool := l.coll == coll && l.index == index && l.gen == gen

/-- Loans of an entry that have not ended. -/
def State.loansOf (s : State) (coll index gen : Nat) : List (Nat × Loan) := s.loanList.filter fun p => loanOf coll index gen p.2

/-! ### The ledger slot of a stateful entry (R268, R271, R273) -/

/-- The slot that holds a handle and is not free. -/
def State.slotOf (s : State) (h : Word64) : Option Nat :=
  (s.ledger.slots.find? fun p => p.2.handle == h && p.2.state != .free).map (·.1)

/-- An entry of the reservation log at the next position, whose phase inverts at each wrap (R269); none where the write failed its
readback. When the log wraps, the older table copy takes every slot's next_unreserved with the ring position. -/
def State.ledgerPut (s : State) (e : Option LogEntry) : State :=
  let l := s.ledger
  let pos := (l.logPos + 1) % 262144
  let wraps := pos = 0
  let l1 := { l with log := l.log.set none l.logPos (e.map fun e => { e with phase := l.phase }), logPos := pos,
                     phase := if wraps then !l.phase else l.phase, wear := if wraps then sat (2 ^ 32 - 1) (l.wear + 1) else l.wear }
  let snap : Tbl Nat := l.slots.foldl (fun t p => t.set 0 p.1 (match e with
    | some e => if e.slot = p.1 then max p.2.next (e.start + e.count) else p.2.next
    | none => p.2.next)) []
  let l2 := if wraps then (if l.newerB then { l1 with copyA := snap, posA := pos, newerB := false, validA := true }
                           else { l1 with copyB := snap, posB := pos, newerB := true, validB := true }) else l1
  { s with ledger := l2 }

def State.ledgerLog (s : State) (e : LogEntry) : State := s.ledgerPut (some e)

/-- The slot of a deaccessioned key closes: a close entry is written, and its held blocks are retired at once or kept until the
key's last loan returns (R271). -/
def State.closeSlot (s : State) (n : Nat) (retire : Bool) : State :=
  let s := s.dropGens n
  let x := s.slot n
  let s := if x.state == .active then s.ledgerLog { slot := n, close := true, start := x.total } else s
  let x := if x.state == .active then
      { x with state := .closed, next := x.total, closedAt := s.ledger.checkpoints } else x
  s.setSlot n (if retire then { x with blocksW := [], blocksE := [], reportW := 0, reportE := 0 } else x)

/-- The slot of a stateful record closes with it. -/
def State.closeSlotOf (s : State) (r : CatRecord) (retire : Bool) : State :=
  if !r.stateful then s
  else match s.slotOf (recHandle r) with
    | some n => s.closeSlot n retire
    | none => s

/-! ### Destruction and eviction (R157, R296) -/

/-- A key leaves every BFE's buffer at once, and no load or reload of it is left (R296). -/
def State.evict (s : State) (key : Nat × Nat × Nat) : State :=
  s.forAll (List.range 16) fun s g => let x := (s.gal g).unload key; s.setGal g { x with resident := if x.resident == some key then none else x.resident }

/-- The material of a record is zeroed and its extent released (R157). -/
def State.destroyMaterial (s : State) (r : CatRecord) : State :=
  if r.destroyed then s
  else
    let s := s.setEntry { r with destroyed := true, material := [], stored := none, extent := 0 }
    { s with cat := { s.cat with granulesUsed := s.cat.granulesUsed - granules r.length } }

/-- What the last returning loan of a WITHDRAWN entry brings: destruction, retirement of its leaves, eviction (R157, R271, R296). -/
def State.lastReturn (s : State) (r : CatRecord) : State :=
  (((s.destroyMaterial r).evict (r.coll, r.index, r.gen)).closeSlotOf r true).journalState r.coll r.index true

/-- The material of a replaced generation is destroyed with its last loan (R157, R168). -/
def State.lastReplaced (s : State) (l : Loan) : State :=
  let due := s.cat.replaced.filter fun r => r.coll == l.coll && r.index == l.index && r.gen == l.gen
  let rest := s.cat.replaced.filter fun r => !(r.coll == l.coll && r.index == l.index && r.gen == l.gen)
  let s := { s with cat := { s.cat with replaced := rest, granulesUsed := s.cat.granulesUsed - (due.map fun (r : CatRecord) => granules r.length).sum } }
  (s.evict (l.coll, l.index, l.gen)).closeSlotOf l.record true

/-- A loan ends (R145): its record's material is destroyed when it was the last of a withdrawn entry. -/
def State.returnLoan (s : State) (n : Nat) : State :=
  match s.loan n with
  | none => s
  | some l =>
    let s := { s with cat := { s.cat with loans := s.cat.loans.set none n none } }
    match s.entry l.coll l.index with
    | some r =>
      if r.gen == l.gen then
        if r.state == .withdrawn && !r.destroyed && (s.loansOf l.coll l.index l.gen).isEmpty then s.lastReturn r else s
      else if (s.loansOf l.coll l.index l.gen).isEmpty then s.lastReplaced l else s
    | none => s

/-! ### Invalidation (R166, R167, R171, R172) -/

/-- The entry is bound to the ancestor. -/
def boundTo (index gen : Nat) (anc : List AncRef) : Bool := anc.any fun a => a.index == index && a.gen == gen

/-- The provenance index shows bound descendants of an entry, held reservations counted (R167, R544). -/
def State.hasDescendants (s : State) (coll index gen : Nat) : Bool :=
  s.entries.any (fun r => r.coll == coll && boundTo index gen r.ancestors) ||
    s.cat.reserved.any fun x => x.coll == coll && boundTo index gen x.ancestors

/-- The pair is in the invalidated-ancestor table (R172). -/
def State.isInvalid (s : State) (coll index gen : Nat) : Bool :=
  s.cat.invalidated.any fun x => x.coll == coll && x.index == index && x.gen == gen

/-- A deaccession needs a slot of the invalidated-ancestor table and it is full (R172). -/
def State.invalidFull (s : State) (r : CatRecord) : Bool :=
  s.hasDescendants r.coll r.index r.gen && !s.isInvalid r.coll r.index r.gen && s.cat.invalidated.length ≥ 4096

/-- The pair of a deaccessioned entry with bound descendants enters the table, or its entry there becomes revoked. -/
def State.invalidate (s : State) (r : CatRecord) (revoked : Bool) : State :=
  if !s.hasDescendants r.coll r.index r.gen then s
  else
    let rest := s.cat.invalidated.filter fun x => !(x.coll == r.coll && x.index == r.index && x.gen == r.gen)
    let x : Invalid := { coll := r.coll, index := r.index, gen := r.gen, revoked, walked := false, sealSeq := 0 }
    { s with cat := { s.cat with invalidated := rest ++ [x] } }

/-- Withdrawal of an ACTIVE entry as one act (R157, R166): no further loan; the pin is released; the material is destroyed now if no loan is
out; and the state enters the seal. `seal_` is false for a replacement, whose new record enters the seal instead. -/
def State.withdrawEntry (s : State) (r : CatRecord) (seal_ : Bool) : State :=
  let x := { r with state := .withdrawn, pinned := false }
  let s := ((s.invalidateCache (entryKey r.coll r.index)).setEntry x).invalidate r false
  let s := if (s.loansOf r.coll r.index r.gen).isEmpty then ((s.destroyMaterial x).evict (r.coll, r.index, r.gen)).closeSlotOf r true
    else s.closeSlotOf r false
  if seal_ then s.journalState r.coll r.index true else s

/-- The loans of an entry are marked: their renewal is refused (R165). -/
def State.markRevoked (s : State) (coll index gen : Nat) : State :=
  s.forAll (s.loansOf coll index gen) fun s p => { s with cat := { s.cat with loans := s.cat.loans.set none p.1 (some { p.2 with revoked := true }) } }

/-- Revocation of an ACTIVE or WITHDRAWN entry as one act (R167): the state, the destruction, the table, the closed seal, and the
order to the loan desks that the Curator reaches. -/
def State.revokeEntry (s : State) (r : CatRecord) (job : Option Nat) : State :=
  let x := { r with state := .revoked, pinned := false }
  let s := (((s.invalidateCache (entryKey r.coll r.index)).setEntry x).invalidate r true).markRevoked r.coll r.index r.gen
  let s := ((s.destroyMaterial x).evict (r.coll, r.index, r.gen)).closeSlotOf r true
  let s := (s.journalState r.coll r.index true).closeSeal false
  let wings := [Wing.west, .east].filter s.hasCurator
  let o : RevOrder := { coll := r.coll, index := r.index, gen := r.gen, due := wings, waits := wings, job }
  let s := { s with cat := { s.cat with orders := s.cat.orders ++ [o] } }
  s.forAll wings fun s w => s.emit (.revocation w r.coll r.index r.gen)

/-! ### Accession (R161, R544) -/

/-- A change of the catalogue may be entered: bytes of the catalogue region with one more record and its extent (R154). -/
def State.regionFits (s : State) (gran : Nat) : Bool :=
  let held := s.cat.reserved
  let records := s.entries.length + held.length + 1
  let grans := s.cat.granulesUsed + (held.map (·.granules)).sum + gran
  records ≤ 2 ^ 32 && 128 * records + 64 * grans ≤ bits32 s.store.regions 0 9 * 2 ^ 29

/-- An index that no record or reservation holds and whose generations are not used up. -/
def State.indexFree (s : State) (coll i : Nat) : Bool :=
  (s.entry coll i).isNone && s.highestGen coll i < 65535 && !s.cat.reserved.any fun x => x.coll == coll && x.index == i

/-- The Registrar's own choice of an index (R158): any index that is free, starting from a free value. -/
def State.chooseIndex (s : State) (coll : Nat) : Nat × State :=
  let d := s.free
  let span := s.cat.records.length + s.cat.highest.length + s.cat.reserved.length + 1
  let i := ((List.range span).map fun k => (d.1 + k) % anyIndex).find? (s.indexFree coll)
  (i.getD 0, d.2)

/-- The parent's record as an accession finds it: its current ACTIVE record, or none (R161). -/
def State.parentOf (s : State) (h : Word64) : Option CatRecord :=
  (s.entryOf (handleColl h) h).filter fun r => r.state == .active

/-- The bound ancestors of a new entry: its parent and the parent's, unless derive_free is set (R171). -/
def boundAncestors (t : Template) (parent : Option CatRecord) : List AncRef :=
  match parent with
  | some p => if t.deriveFree then [] else { index := p.index, gen := p.gen } :: p.ancestors
  | none => []

/-- An ancestor is WITHDRAWN, REVOKED, no longer current, or in the table (R161). -/
def State.ancestorBad (s : State) (coll : Nat) (a : AncRef) : Bool :=
  s.isInvalid coll a.index a.gen ||
    match s.entry coll a.index with
    | some r => r.gen == a.gen && r.state != .active
    | none => false

/-- An accession finds no room for its seal record, or for the pair of the generation that it replaces (R172, R183). -/
def State.changeFull (s : State) (t : Template) (current : Option CatRecord) : Bool := s.sealsFull || (t.replace && current.any s.invalidFull)

/-- The checks of R161 and R544 on an accession, in the order in which R161 lists them; `index` is the one named or chosen. -/
def State.accessionStatus (s : State) (coll index : Nat) (t : Template) (k : KeyMaterial) : Byte :=
  let current := s.entry coll index
  let parent := k.parent.bind s.parentOf
  let anc := boundAncestors t parent
  if s.cat.reserved.any (fun x => x.coll == coll && x.index == index) then St.policyDenied
  else if t.replace && !(current.any fun r => r.gen == t.replacesGen) then St.keyUnknown
  else if !t.replace && current.any (·.state == .active) then St.policyDenied
  else if anc.any (s.ancestorBad coll) then St.keyParentInvalid
  else if k.parent.isSome && parent.isNone then St.keyParentInvalid
  else if index ≥ anyIndex || s.highestGen coll index ≥ 65535 || !s.regionFits (granules k.bytes.length) then St.resourceExhausted
  else if (parent.map (·.depth)).getD 0 + b2n parent.isSome > 4 then St.policyDenied
  else if t.pin && s.pinnedBytes + 128 + 64 * granules k.bytes.length > pinCap then St.resourceExhausted
  else if isStatefulClass t.cls && (s.freeSlot.isNone || !s.cacheFits (keyCache t.cls t.selector t.classWord)) then
    St.resourceExhausted
  else if s.changeFull t current then St.resourceExhausted
  else St.ok

/-- The record that an accession commits (R151). -/
def State.newRecord (s : State) (coll index gen : Nat) (t : Template) (k : KeyMaterial) : CatRecord :=
  let parent := k.parent.bind s.parentOf
  { coll, index, gen, purpose := t.purpose, origin := if parent.isSome then 1 else k.origin, cls := t.cls, selector := t.selector,
    deriveBound := parent.isSome && !t.deriveFree, wrapExport := t.wrapExport, stateful := isStatefulClass t.cls,
    clearOrigin := k.clearOrigin || parent.any (·.clearOrigin), leaseMs := t.leaseMs, kdf := if parent.isSome then k.kdf else 0,
    depth := match parent with | some p => p.depth + 1 | none => 0, ancestors := boundAncestors t parent,
    binding := ((s.coll coll).map (·.bindingMode)).getD 0, notBefore := t.notBefore, notAfter := t.notAfter,
    checkValue := checkValue t.cls t.selector k.bytes, classWord := w32 t.classWord, state := .active, pinned := t.pin,
    length := k.bytes.length, material := k.bytes }

/-- The template of a new key: the buffer's, or the one an envelope brought (R163). -/
def keyTemplate (body : List Byte) (k : KeyMaterial) : Template := Template.parse (if k.template.isEmpty then body else k.template)

/-- A slot's place in the table copies and the log holds nothing of an earlier key. -/
def State.voidSlot (s : State) (n : Nat) : State :=
  let l := s.ledger
  let log := l.log.filter fun p => match p.2 with | some e => e.slot != n | none => true
  { s with ledger := { l with copyA := l.copyA.set 0 n 0, copyB := l.copyB.set 0 n 0, log } }

/-- A ledger slot is taken for a stateful key's handle (R265, R268). -/
def State.takeSlot (s : State) (h : Word64) (cls sel cw : Nat) : State :=
  match s.freeSlot with
  | none => s
  | some n =>
    let hs := levelHeights cls sel cw
    let total := totalLeaves cls sel cw
    let x : LedgerSlot := { state := .active, handle := h, total, heights := hs, selector := sel }
    (s.voidSlot n).setSlot n { x with coverTo := min total (x.window * x.subtree), instances := x.firstInstances 0 }

/-- Step 6(a) of R137 for one TEMPLATE output: the checks, then the reservation (R544), which holds index, generation and space. -/
def State.reserveAccession (s : State) (job coll vr : Nat) (body : List Byte) (k : KeyMaterial) : Except Byte Pending × State :=
  let t := keyTemplate body k
  let view := match s.job job with | some j => s.view j | none => s
  let st := view.templateStatus coll t k.bytes.length (k.kdf == 0x06)
  if st != St.ok then (.error st, s)
  else if (t.cls == 0x02 && tdeaBad k.bytes) then (.error St.keyClass, s)
  else
    let i := if t.index = anyIndex then s.chooseIndex coll else (t.index, s)
    let s := i.2
    let st := s.accessionStatus coll i.1 t k
    let gen := s.highestGen coll i.1 + 1
    if st != St.ok then
      -- the event log records the handle of a change for which there is no room
      (.error st, if st == St.resourceExhausted && s.changeFull t (s.entry coll i.1) then
        s.log 6 St.resourceExhausted 0 (leBytes 8 (match s.entry coll i.1 with | some r => recHandle r | none => handleOf coll i.1 gen).toNat) else s)
    else
      let r := s.newRecord coll i.1 gen t k
      let x : Reservation :=
        { coll, index := i.1, gen, granules := granules k.bytes.length, pin := t.pin, job, ancestors := r.ancestors }
      let s := { s with cat := { s.cat with reserved := s.cat.reserved ++ [x], highest := s.cat.highest.set 0 (entryKey coll i.1) gen } }
      let s := if r.stateful then s.takeSlot (recHandle r) t.cls t.selector t.classWord else s
      (.ok { coll, index := i.1, gen, vr, record := r }, s)

/-- The reservation of a pending accession is no longer held. -/
def State.dropReservation (s : State) (p : Pending) : State :=
  let rest := s.cat.reserved.filter fun x => !(x.coll == p.coll && x.index == p.index && x.gen == p.gen)
  { s with cat := { s.cat with reserved := rest } }

/-- A held reservation ends without a commit; its generation is not issued again (R544). -/
def State.releaseReservation (s : State) (p : Pending) : State :=
  let s := s.dropReservation p
  if !p.record.stateful then s
  else match s.slotOf (recHandle p.record) with
    | some n => s.setSlot n {}
    | none => s

/-- A reserved accession commits as one Registrar act (R161, R166): the named index's current record is withdrawn, the new one is
written ACTIVE with its extent, and it enters the open seal. -/
def State.commitAccession (s : State) (p : Pending) : State :=
  let s := s.dropReservation p
  let s := match s.entry p.coll p.index with
    | some old => if old.state == EntryState.active then s.withdrawEntry old false else s
    | none => s
  let s := match s.entry p.coll p.index with
    | some old => if old.destroyed then s else { s with cat := { s.cat with replaced := s.cat.replaced ++ [old] } }
    | none => s
  let s := s.invalidateCache (entryKey p.coll p.index)
  let g := granules p.record.length
  let d := if g = 0 then (0, s) else s.free
  let s := d.2
  let s := { s with cat := { s.cat with granulesUsed := s.cat.granulesUsed + g } }
  s.journalRecord { p.record with extent := if g = 0 then 0 else d.1 % 2 ^ 32 } true false

/-! ### Loan checks (R164) -/

/-- The time window and the owner policy's rules admit the use now (check 8). -/
def State.useAdmitted (s : State) (r : CatRecord) : Bool :=
  let timed := r.notBefore != 0 || r.notAfter != 0
  let now := s.rtcSec
  (s.power.rtcValid || !timed) && (r.notBefore = 0 || r.notBefore ≤ now) && (r.notAfter = 0 || now < r.notAfter) &&
    (match s.boot.policyBody with
      | none => true
      | some b => (s.power.rtcValid || !Config.policyTimed b r.coll) && Config.policyAdmits b r.coll r.purpose now) &&
    !((s.collPolicy r.coll).noLoanInDebug && s.boot.debug != 0)

/-- Checks 1, 2 and 4 to 9 of R164 for a handle, a collection, a wing and a purpose; check 3 is the pause. A key on a retired
slot of the curve table fails with KEY_CLASS (R316); no stateful loan is granted before the ledger is ready (R269). -/
def State.loanStatus (s : State) (coll : Nat) (w : Wing) (h : Word64) (purpose : Nat) : Byte :=
  if handleColl h != coll || !handleLowZero h then St.keyUnknown
  else if !s.hasCurator w then St.splitOrphan
  else match s.entryOf coll h with
    | none => St.keyUnknown
    | some r =>
      if r.state == .withdrawn then St.keyWithdrawn
      else if r.state == .revoked then St.keyRevoked
      else if r.ancestors.any fun a => s.isInvalid coll a.index a.gen then St.keyParentInvalid
      else if r.purpose != purpose then St.keyPurpose
      else if !s.useAdmitted r || (s.boot.policyFailed && s.boot.lifecycle == .owned) then St.policyDenied
      else if !s.cbkOk coll || !s.deskHolds w || (r.stateful && !s.ledger.ready) then St.policyDenied
      else if isLoadableSel r.cls r.selector && (s.work.curves.get {} (r.selector - 0x80)).retired then St.keyClass
      else St.ok
where
  /-- the class and selector name a loadable curve -/
  isLoadableSel (cls sel : Nat) : Bool := (cls == 0x32 || cls == 0x33) && 0x80 ≤ sel && sel ≤ 0x9F

/-- The lease of a record in ns: its own, or the collection's default (R165). -/
def State.leaseNs (s : State) (r : CatRecord) : Nat :=
  (if r.leaseMs = 0 then (s.collPolicy r.coll).leaseMs else r.leaseMs) * 1000000

/-- A grant: the loan's number and the state that holds it; the loan desk's cache has read the record, which opens under the CBK where it was
restored without one (R155, R164, R165, R174). -/
def State.grantLoan (s : State) (job : Nat) (w : Wing) (r : CatRecord) : Nat × State :=
  let n := s.cat.nextLoan
  let r := s.unsealed r
  let s := s.setEntry r
  let l : Loan :=
    { coll := r.coll, index := r.index, gen := r.gen, purpose := r.purpose, job, wing := w, leaseNs := (match s.job job with | some j => s.underPolicy j.epoch | none => s).leaseNs r, from_ := s.runNs,
      ancestors := r.ancestors, record := r }
  (n, ({ s with cat := { s.cat with loans := s.cat.loans.set none n (some l), nextLoan := n + 1 } }).touchCache w
    (entryKey r.coll r.index))

/-- A tag failure at delivery: the log records the handle (R152). -/
def State.logDelivery (s : State) (w : Wing) (r : CatRecord) : State :=
  s.log 4 St.storeroomIntegrity (dieSrc (wingDie w)) (leBytes 8 (recHandle r).toNat)

end Sys2Proof.Machine
end

