-- ==== Sys2Proof/Machine/Symmetric.lean ====
section
/-! DEFINITION. AES and TDEA functions, PIN translation and AES DUKPT (11_symmetric_and_payment.md). -/

namespace Sys2Proof.Machine

def aesUnit : List (Nat × Nat) := [(Kind.aes, 1)]
def coreUnit : List (Nat × Nat) := [(Kind.compat, 1)]

/-! ### AES and TDEA modes (R333, R334) -/

def isAesSel (sel : Nat) : Bool := 1 ≤ sel && sel ≤ 3
def isTdeaSel (sel : Nat) : Bool := sel == 0x11 || sel == 0x12
/-- The class and the block length of a key selector (R331). -/
def symClass (sel : Nat) : Nat := if isTdeaSel sel then 0x02 else 0x01
def symBlock (sel : Nat) : Nat := if isTdeaSel sel then 8 else 16

/-- A description on the engine that the selector's class runs on (R328). -/
def symSpec (sel : Nat) (ok : Bool) (x : FnSpec) : Option FnSpec :=
  if !ok || !(isAesSel sel || isTdeaSel sel) then none
  else if isTdeaSel sel then some { x with units := coreUnit, rngs := .clusterMask :: x.rngs, cluster := true }
  else some { x with units := aesUnit, rngs := .mask :: x.rngs }

/-- Options of ENCRYPT and DECRYPT: ECB, CBC, and CTR for AES only. -/
def modeOk (sel opts : Nat) : Bool := opts ≤ 2 && !(opts == 2 && isTdeaSel sel)

/-- The length rule of the IV: empty for ECB, otherwise one block. -/
def ivRule (sel opts : Nat) : InPos := { rule := .exact (if opts = 0 then 0 else symBlock sel) }

/-- ECB and CBC data that is not a multiple of the block. -/
def dataStatus (c : Ctx) (sel : Nat) : Byte :=
  if c.opts ≠ 2 && (c.input 0).length % symBlock sel != 0 then St.inputRange else St.ok

def aesCrypt (decrypt : Bool) : FnDef where
  spec _ sel opts _ := symSpec sel (modeOk sel opts)
    { ins := [{}, ivRule sel opts], outs := [.pubAs 0],
      loans := [⟨[if decrypt then Pu.decrypt else Pu.encrypt], [symClass sel], [sel]⟩] }
  compute c s :=
    let st := dataStatus c c.sel
    if st != St.ok then failed st s
    else pubOut [Config.prim (.aes c.sel c.opts decrypt) [c.mat 0, c.input 1, c.input 0] (c.input 0).length] s

/-- The checks of a CMAC tag length (R334). -/
def cmacStatus (sel n minTag : Nat) : Byte :=
  if n < 4 || n > symBlock sel then St.inputRange else if n < minTag then St.policyDenied else St.ok

def aesCmacFn : FnDef where
  spec _ sel opts _ := symSpec sel (opts == 0)
    { ins := [{}], outs := [.pub 0], loans := [⟨[Pu.macGenerate], [symClass sel], [sel]⟩] }
  compute c s :=
    let st := cmacStatus c.sel (c.out 0).len c.pol.minTag
    if st != St.ok then failed st s else pubOut [cmacOf c.sel (c.out 0).len (c.mat 0) (c.input 0)] s

def aesCmacverifyFn : FnDef where
  spec _ sel opts _ := symSpec sel (opts == 0)
    { ins := [{}, {}], loans := [⟨[Pu.macVerify], [symClass sel], [sel]⟩] }
  compute c s :=
    let n := (c.input 1).length
    let st := cmacStatus c.sel n c.pol.minTag
    if st != St.ok then failed st s else verdict (cmacOf c.sel n (c.mat 0) (c.input 0) == c.input 1) s

/-! ### AEAD (R334 to R338) -/

/-- The lengths of a nonce (R334), checked with the buffers in step 3. -/
def nonceRule (opts : Nat) : InPos := { rule := if opts == 1 then .between 7 13 else .exact 12 }

/-- The checks of tag and payload lengths (R334). -/
def aeadStatus (ccm : Bool) (nonce tag payload : Nat) : Byte :=
  if ccm then
    if tag < 4 || tag > 16 || tag % 2 != 0 || payload ≥ 2 ^ (8 * (15 - nonce)) then St.inputRange
    else St.ok
  else if tag < 12 || tag > 16 then St.inputRange
  else St.ok

def aeadSpec (sel opts : Nat) (x : FnSpec) : Option FnSpec :=
  if isAesSel sel && opts ≤ 1 then some { x with units := coreUnit, rngs := [.clusterMask], cluster := true } else none

def aesAeadsealFn : FnDef where
  spec _ sel opts _ := aeadSpec sel opts
    { ins := [{}, {}, nonceRule opts], outs := [.pubAs 1, .pub 0], loans := [⟨[Pu.encrypt], [0x01], [sel]⟩] }
  compute c s :=
    let n := (c.input 1).length
    let tag := (c.out 1).len
    let st := aeadStatus (c.opts == 1) (c.input 2).length tag n
    let ins := [c.mat 0, c.input 0, c.input 1, c.input 2]
    if st != St.ok then failed st s
    else pubOut [Config.prim (.aeadCt c.sel c.opts) ins n, Config.prim (.aeadTag c.sel c.opts) ins tag] s

/-- The longest plaintext that is held until its tag verifies (R336). -/
def releaseHold : Nat := 65536

def aesAeadopenFn : FnDef where
  spec _ sel opts _ := aeadSpec sel opts
    { ins := [{}, {}, nonceRule opts, {}], outs := [.pubAs 1], loans := [⟨[Pu.decrypt], [0x01], [sel]⟩] }
  compute c s :=
    let n := (c.input 1).length
    let st := aeadStatus (c.opts == 1) (c.input 2).length (c.input 3).length n
    let ins := [c.mat 0, c.input 0, c.input 1, c.input 2]
    let tooBig : Bool := match c.stageLeft with | some left => n > left | none => false
    if st != St.ok then failed st s
    else if tooBig then failed St.resourceExhausted s
    else
      let good := Config.primBool (.aeadOk c.sel c.opts) (ins ++ [c.input 3])
      ({ status := if good then St.ok else St.tagMismatch, outs := [{ bytes := Config.prim (.aeadPt c.sel c.opts) ins n }],
         released := if n > releaseHold && c.stageLeft.isNone then n else 0 }, s)

/-! ### PIN translation (R342 to R344) -/

def pinFmtOk (f : Nat) : Bool := f == 0 || f == 1 || f == 3 || f == 4
def pinClass (f : Nat) : Nat := if f = 4 then 0x01 else 0x02
def pinBlock (f : Nat) : Nat := if f = 4 then 16 else 8
def fmtIn (sel : Nat) : Nat := fieldAt sel 4 4
def fmtOut (sel : Nat) : Nat := fieldAt sel 0 4

/-- The pair of formats needs the policy's permission (R343). -/
def pinPairGuarded (i o : Nat) : Bool := (i == 4 && (o == 0 || o == 1 || o == 3)) || ((i == 0 || i == 3 || i == 4) && o == 1)

/-- The PAN is 12 to 19 ASCII digits, or empty when both formats are 1 (R343). -/
def panOk (i o : Nat) (pan : List Byte) : Bool :=
  (12 ≤ pan.length && pan.length ≤ 19 && pan.all fun b => 0x30 ≤ b.toNat && b.toNat ≤ 0x39) || (pan.isEmpty && i == 1 && o == 1)

/-- The halves of the bytes of a string, the high one first, and the string of such halves. -/
def halves (l : List Byte) : List Nat := l.flatMap fun b => [b.toNat / 16, b.toNat % 16]
def unhalves : List Nat → List Byte
  | a :: b :: r => byte (16 * a + b) :: unhalves r
  | _ => []

/-- The selector of a key that encrypts blocks of a format, from its length (R331). -/
def pinSel (f len : Nat) : Nat := if f = 4 then len / 8 - 1 else if len = 16 then 0x11 else 0x12

/-- The PAN field of formats 0 and 3: four zero digits, then the rightmost 12 digits excluding the check digit (R343). -/
def panField (pan : List Byte) : List Byte :=
  let d := pan.dropLast.map fun b => b.toNat % 16
  unhalves (padRight ([0, 0, 0, 0] ++ List.replicate (12 - d.length) 0 ++ d.drop (d.length - 12)) 16)
where padRight (l : List Nat) (n : Nat) : List Nat := l.take n ++ List.replicate (n - l.length) 0

/-- The PAN field of format 4 (PRESUMED, log entry 141): the PAN's length less 12, its digits, then zeros. -/
def panField4 (pan : List Byte) : List Byte :=
  unhalves (panField.padRight ([pan.length - 12] ++ pan.map fun b => b.toNat % 16) 32)

/-- The clear PIN field of an encrypted block, in halves of bytes (R343; the layout of ISO 9564-1, log entry 141). -/
def pinField (f : Nat) (key block pan : List Byte) : List Nat :=
  let d := ecbOf (pinSel f key.length) true key
  halves (match f with
    | 1 => d block
    | 4 => d (xorBytes (d block) (panField4 pan))
    | _ => xorBytes (d block) (panField pan))

/-- The checks of a clear PIN field: control field, PIN length, digits and fill (R344). -/
def pinFieldOk (f : Nat) (x : List Nat) : Bool :=
  let n := x.getD 1 0
  let fill := slice x (2 + n) (14 - n)
  x.getD 0 0 == f && 4 ≤ n && n ≤ 12 && (slice x 2 n).all (· ≤ 9) &&
    (match f with
      | 0 => fill.all (· == 15)
      | 3 => fill.all (10 ≤ ·)
      | 4 => fill.all (· == 10)
      | _ => true)

/-- The encrypted block of a format around PIN digits, with its random fill: any digits for format 1, A to F for format 3, and the last 8 bytes for
format 4 (R343; which drawn byte gives which digit is the model's, log entry 141). -/
def pinBlockOf (f : Nat) (key pin pan fill : List Byte) : List Byte :=
  let e := ecbOf (pinSel f key.length) false key
  let d := pin.map (·.toNat)
  let k := 14 - d.length
  let field (l : List Nat) : List Byte := unhalves ([f, d.length] ++ d ++ l)
  match f with
  | 0 => e (xorBytes (field (List.replicate k 15)) (panField pan))
  | 1 => e (field ((halves fill).take k))
  | 3 => e (xorBytes (field ((fill.map fun b => 10 + b.toNat % 6).take k)) (panField pan))
  | _ => e (xorBytes (e (field (List.replicate k 10) ++ fill.take 8)) (panField4 pan))

/-- A translation of a PIN block from one key to another (R343, R344). -/
def pinTranslate (c : Ctx) (keyIn : List Byte) (keyOut : CatRecord) (s : State) : ExecResult × State :=
  let i := fmtIn c.sel
  let o := fmtOut c.sel
  let pan := c.input 1
  if pinPairGuarded i o && !c.pol.pinPairs.contains (16 * i + o) then failed St.policyDenied s
  else if !panOk i o pan then failed St.inputRange s
  else
    let x := pinField i keyIn (c.input 0) pan
    if !pinFieldOk i x then failed St.inputRejected s
    else
      let fill := if o = 0 then ([], s) else c.draw 16 s
      pubOut [pinBlockOf o keyOut.material ((slice x 2 (x.getD 1 0)).map byte) pan fill.1] fill.2

/-- PIN translation runs on the cluster when a class 0x02 key takes part (R328). -/
def pinSpec (sel : Nat) (tdea : Bool) (x : FnSpec) : Option FnSpec :=
  let r := if fmtOut sel = 0 then [] else [Rng.keyGen]
  if tdea then some { x with units := coreUnit, rngs := .clusterMask :: r, cluster := true }
  else some { x with units := aesUnit, rngs := .mask :: r }

def payPinxlateFn : FnDef where
  spec _ sel opts _ := if opts != 0 || !pinFmtOk (fmtIn sel) || !pinFmtOk (fmtOut sel) then none
    else pinSpec sel (fmtIn sel != 4 || fmtOut sel != 4)
      { ins := [{ rule := .exact (pinBlock (fmtIn sel)) }, {}], outs := [.pub (pinBlock (fmtOut sel))],
        loans := [⟨[Pu.decrypt], [pinClass (fmtIn sel)], []⟩, ⟨[Pu.encrypt], [pinClass (fmtOut sel)], []⟩] }
  compute c s := pinTranslate c (c.mat 0) (c.key 1) s

/-! ### AES DUKPT (R345, R346) -/

/-- The transaction counter of a KSN is refused: zero, or more than 16 bits set (R345). -/
def ksnBad (ksn : List Byte) : Bool :=
  let n := beNat (slice ksn 8 4)
  n == 0 || ((List.range 32).filter fun k => n.testBit k).length > 16

def payDukptxlateFn : FnDef where
  spec _ sel opts _ := if opts != 0 || fmtIn sel != 4 || !pinFmtOk (fmtOut sel) then none
    else pinSpec sel (fmtOut sel != 4)
      { ins := [{ rule := .exact 16 }, {}, { rule := .exact 12 }], outs := [.pub (pinBlock (fmtOut sel))],
        loans := [⟨[Pu.derive], [0x40], []⟩, ⟨[Pu.encrypt], [pinClass (fmtOut sel)], []⟩] }
  compute c s :=
    if ksnBad (c.input 2) then failed St.inputRange s
    else pinTranslate c (Config.prim .dukptPinKey [c.mat 0, c.input 2] (c.mat 0).length) (c.key 1) s

/-- The template purposes of a working-key usage (R346). -/
def dukptPurposes (usage : Nat) : List Nat :=
  match usage with
  | 0 => [Pu.encrypt, Pu.decrypt] | 1 => [Pu.macGenerate] | 2 => [Pu.macVerify] | 3 => [Pu.encrypt] | 4 => [Pu.decrypt]
  | _ => []

/-- A key derived from the BDK of hb, with kdf 0x06 (R346). -/
def dukptKey (c : Ctx) (bytes : List Byte) : OutVal :=
  { key := some { bytes, origin := 1, kdf := 0x06, parent := some (recHandle (c.key 0)), clearOrigin := (c.key 0).clearOrigin } }

def payDukptderiveFn : FnDef where
  spec _ sel opts _ := if opts > 4 || !isAesSel sel then none else some
    { ins := [{ rule := .exact 12 }], outs := [.template], loans := [⟨[Pu.derive], [0x40], [sel]⟩], units := aesUnit, rngs := [.mask] }
  compute c s :=
    let t := c.tmpl 0
    if ksnBad (c.input 0) then failed St.inputRange s
    else if t.cls != 0x01 || !(dukptPurposes c.opts).contains t.purpose then failed St.policyDenied s
    else if !isAesSel t.selector then failed St.keyClass s
    else ({ outs := [dukptKey c (Config.prim (.dukptKey (64 + 64 * t.selector)) [c.mat 0, c.input 0, [byte c.opts]]
      (8 + 8 * t.selector))] }, s)

def payDukptikFn : FnDef where
  spec _ sel opts _ := if opts != 0 || !isAesSel sel then none else some
    { ins := [{ rule := .exact 8 }], outs := [.template], loans := [⟨[Pu.derive], [0x40], [sel]⟩], units := aesUnit, rngs := [.mask] }
  compute c s :=
    let t := c.tmpl 0
    if t.cls != 0x01 || t.selector != c.sel || t.purpose != Pu.derive then failed St.keyClass s
    else ({ outs := [dukptKey c (Config.prim .dukptIk [c.mat 0, c.input 0] (c.mat 0).length)] }, s)

end Sys2Proof.Machine
end

