-- ==== Sys2Proof/Machine/CatFns.lean ====
section
/-! DEFINITION. The catalogue functions (R159 to R163, R166, R167, R176, R184), RAND.BYTES (R371) and the key-block functions
(R347 to R349). -/

namespace Sys2Proof.Machine

/-! ### RAND.BYTES (R371) -/

/-- Bytes of successive generate calls of at most 65,536 bytes from an instance. -/
def State.drawLong (s : State) (d : Drbg) : Nat → Nat → List Byte × State
  | 0, _ => ([], s)
  | calls + 1, n =>
    let a := s.drawFrom d (min n 65536)
    let b := a.2.drawLong d calls (n - 65536)
    (a.1 ++ b.1, b.2)

def randBytesFn : FnDef where
  spec _ sel opts _ := if sel != 0 || opts > 3 then none else some
    { outs := [if opts.testBit 1 then .gallery 1 else .pub 1], rngs := [if opts.testBit 0 then .hostFresh else .host],
      outMax := some 1048576 }
  compute c s :=
    let n := (c.out 0).len
    if n > 1048576 then failed St.inputRange s
    else
      let d := s.drawLong (s.hostDrbg c.gallery) ((n + 65535) / 65536) n
      ({ outs := [{ bytes := d.1, secret := c.opts.testBit 1 }] }, d.2)

/-! ### Catalogue functions -/

/-- A handle input (R159). -/
def handleIn : InPos := { rule := .exact 8, noGallery := true }

/-- A catalogue function of a low byte, which the owner policy may forbid (R160). -/
def catFn (low : Nat) (okSel : Nat → Bool) (optTop : Nat) (x : FnSpec) (f : Compute) : FnDef where
  spec _ sel opts _ := if okSel sel && opts ≤ optTop then some x else none
  compute c s := if c.pol.forbidCat.contains low then failed St.policyDenied s else f c s

/-- The record that the handle input names; KEY_UNKNOWN otherwise. -/
def withHandle (f : CatRecord → Compute) : Compute := fun c s =>
  match s.entryOf c.coll (w64 (leNat (c.input 0))) with
  | none => failed St.keyUnknown s
  | some r => f r c s

/-- A quorum authorisation of a submitted action is in effect (R409). -/
def State.authorised (s : State) (action param : Nat) : Bool :=
  s.boot.auths.any fun a => a.action == action && a.param == param && s.rtcSec ≤ a.until_

/-- The first of successive draws that is not a refused TDEA key (R159); after 256 of them the EXEC fails with FAULT_DETECTED. -/
def drawTdea (c : Ctx) (n : Nat) : Nat → State → Option (List Byte) × State
  | 0, s => (none, s)
  | k + 1, s =>
    let d := c.draw n s
    if tdeaBad d.1 then drawTdea c n k d.2 else (some d.1, d.2)

def catGenerateFn : FnDef :=
  catFn 0x01 (fun sel => 2 ≤ sel && sel ≤ 16) 0 { outs := [.template], rngs := [.keyGen] } fun c s =>
    let t := c.tmpl 0
    let n := 8 * c.sel
    if !([0x01, 0x02, 0x03, 0x40].contains t.cls) || s.classLen t.cls t.selector t.classWord != some n then failed St.keyClass s
    else if t.cls == 0x02 then
      match drawTdea c n 256 s with
      | (some k, s) => ({ outs := [newKey k] }, s)
      | (none, s) => failed St.faultDetected s
    else
      let d := c.draw n s
      ({ outs := [newKey d.1] }, d.2)

/-- The encoding checks of R200 and R210 on material of class 0x11 or 0x15 (R163). -/
def encodingOk (cls sel : Nat) (m : List Byte) : Bool :=
  if cls == 0x11 then Config.primBool (.mlkemEkOk sel) [m]
  else if cls == 0x15 then fndsaPkOk sel m
  else true

def catImportClearFn : FnDef :=
  catFn 0x02 (· == 0) 0 { ins := [{}], outs := [.template] } fun c s =>
    let t := c.tmpl 0
    let m := c.input 0
    if !c.mgmt || s.boot.lifecycle != .owned || !c.pol.clearImport then failed St.policyDenied s
    else if c.pol.clearQuorum && !s.authorised 0x10 c.coll then failed St.quorumRequired s
    else if isStatefulClass t.cls then failed St.policyDenied s
    else if m.length = 0 || m.length > 1048576 || s.classLen t.cls t.selector t.classWord != some m.length then failed St.keyClass s
    else if !encodingOk t.cls t.selector m then failed St.encodingRejected s
    else ({ outs := [importedKey m] }, s)

/-- The envelope's fixed bytes 0 to 7 (R163). -/
def envelopeMagic : List Byte := [0x52, 0x57, 0x45, 0x31, 0x01, 0x00, 0x00, 0x00]

/-- The wrapping key of CAT.WRAP and CAT.UNWRAP: class 0x01 with L = 32 (R163). -/
def wrapLoan (purpose : Nat) : LoanRule := ⟨[purpose], [0x01], [3]⟩

/-- CAT.UNWRAP. An encoding that the class refuses is found before a length that the template does not have (R200; DESIGN CHOICE, log entry 136). -/
def catUnwrapFn : FnDef :=
  catFn 0x03 (· == 0) 0
    { ins := [{}], outs := [.template], loans := [wrapLoan Pu.unwrap], units := aesUnit, rngs := [.mask] } fun c s =>
    let e := c.input 0
    let n := leAt e 68 4
    let t := c.tmpl 0
    let body := slice e 8 48
    let et := Template.parse body
    if slice e 0 8 != envelopeMagic || e.length != 88 + n then failed St.inputRejected s
    else if et.purpose != t.purpose || et.cls != t.cls || et.selector != t.selector || isStatefulClass t.cls then
      failed St.policyDenied s
    else if !Config.primBool .gcmOk [c.mat 0, slice e 56 12, e.take 72, e.drop 72] then failed St.inputRejected s
    else
      let m := Config.prim .gcmOpen [c.mat 0, slice e 56 12, e.take 72, e.drop 72] n
      if !encodingOk t.cls t.selector m then failed St.encodingRejected s
      else
        -- collection, index and the flags of byte 5 come from the job's template; the rest from the envelope's
        let merged := leBytes 2 t.coll ++ slice body 2 3 ++
          [byte (b2n t.deriveFree + 2 * b2n t.wrapExport + 4 * b2n t.pin + 8 * b2n t.replace)] ++ slice body 6 2 ++
          leBytes 4 t.index ++ leBytes 2 t.replacesGen ++ slice body 14 34
        ({ outs := [{ key := some { bytes := m, origin := 2, template := merged } }] }, s)

/-- Why an entry may not be exported: no wrap_export, not ACTIVE, a stateful class, or no binding key (R163, R263). -/
def exportStatus (r : CatRecord) (s : State) : Byte :=
  if !r.wrapExport || r.state != .active || r.stateful || !s.cbkOk r.coll then St.policyDenied else St.ok

/-- The desk finds the entry's own material corrupt as it delivers it to the engine (R152). -/
def undelivered (r : CatRecord) (c : Ctx) (s : State) : ExecResult × State :=
  failed St.storeroomIntegrity (s.logDelivery (galleryWing c.gallery) r)

def catWrapFn : FnDef :=
  catFn 0x04 (· == 0) 0
    { ins := [handleIn], outs := [.host 88], loans := [wrapLoan Pu.wrap], units := aesUnit, rngs := [.mask, .keyGen] } <|
    withHandle fun r c s =>
      let st := exportStatus r s
      if st != St.ok then failed st s
      else if r.corrupt then undelivered r c s
      else if (c.out 0).len < 88 + r.length then failed St.badBuffer s
      else
        let nonce := c.draw 12 s
        let head := envelopeMagic ++ exportTemplate r ++ nonce.1 ++ leBytes 4 r.length
        let e := head ++ Config.prim .gcmSeal [c.mat 0, nonce.1, head, r.material] (r.length + 16)
        ({ outs := [{ bytes := e }], scalar := some (w64 e.length) }, nonce.2)

/-- A change that finds no room (R172, R183); the log names the handle. -/
def deaccessionRoom (r : CatRecord) (s : State) : Bool := !(s.reserveFull || s.invalidFull r)
def noRoom (r : CatRecord) (s : State) : ExecResult × State :=
  failed St.resourceExhausted (s.log 6 St.resourceExhausted 0 (leBytes 8 (recHandle r).toNat))

def catWithdrawFn : FnDef :=
  catFn 0x05 (· == 0) 0 { ins := [handleIn] } <| withHandle fun r _ s =>
    if r.state != .active then ({ scalar := some 0 }, s)
    else if !deaccessionRoom r s then noRoom r s
    else ({ scalar := some 0 }, s.withdrawEntry r true)

/-- The end of the latest lease that a wing without the Curator holds for an entry or its bound descendants, ns (R167). -/
def State.orphanLeaseEnd (s : State) (h : Word64) : Nat :=
  ((s.loanList.filter fun p => !s.hasCurator p.2.wing && (loanOf (handleColl h) (handleIndex h) (handleGen h) p.2 ||
    (p.2.coll == handleColl h && boundTo (handleIndex h) (handleGen h) p.2.ancestors))).map fun p => p.2.from_ + p.2.leaseNs).foldl max 0

/-- CAT.REVOKE (R157, R167). An entry already REVOKED completes with OK and result 0 (DESIGN CHOICE, log entry 106). -/
def catRevokeFn : FnDef :=
  { catFn 0x06 (· == 0) 0 { ins := [handleIn] } (withHandle fun r c s =>
      if r.state == .revoked then ({ scalar := some 0 }, s)
      else if !deaccessionRoom r s then noRoom r s
      else ({ scalar := some (recHandle r) }, s.revokeEntry r (some c.job))) with
    ready := fun j _ s => !s.cat.orders.any fun o => o.job == some j
    finish := fun r s => { r with scalar := r.scalar.map fun h => if h = 0 then 0 else w64 (s.orphanLeaseEnd h - s.runNs) } }

/-- CAT.PIN (R156). An entry already pinned, or one to release that is not, completes with OK and journals nothing (DESIGN CHOICE, log
entry 107). -/
def catPinFn : FnDef :=
  catFn 0x07 (· == 0) 1 { ins := [handleIn] } <| withHandle fun r c s =>
    let set (p : Bool) (s : State) : State :=
      (s.invalidateCache (entryKey r.coll r.index)).journalRecord { r with pinned := p } false false
    if c.opts = 1 then
      if !r.pinned then ({ scalar := some 0 }, s)
      else if s.sealsFull then noRoom r s
      else ({ scalar := some 0 }, set false s)
    else if r.state != .active then failed St.policyDenied s
    else if r.pinned then ({ scalar := some 0 }, s)
    else if s.sealsFull then noRoom r s
    else if s.pinnedBytes + cacheBytes r > pinCap then failed St.resourceExhausted s
    else ({ scalar := some 0 }, set true s)

def catInfoFn : FnDef :=
  catFn 0x08 (· == 0) 0 { ins := [handleIn], outs := [.pub 80] } <| withHandle fun r _ s =>
    ({ outs := [{ bytes := recordInfo r }], scalar := some 0 }, s)

def catSyncFn : FnDef :=
  { catFn 0x09 (· == 0) 0 {} (fun _ s =>
      let s := s.closeSeal false
      ({ scalar := some (w64 s.journal.lastClosed) }, s)) with
    ready := fun _ r s => match r.scalar with | some v => v.toNat ≤ s.journal.head.n | none => true }

/-- The functions bound to a collection (R75). -/
def State.boundFns (s : State) (c : Nat) : List Fn := allFns.filter fun f => (s.fn f).coll == some c

/-- A checkpoint starts (R184): the open seal carries checkpoint_begin, every current record and collection is copied, and the
seal with the last copy carries checkpoint_end. -/
def State.startCheckpoint (s : State) : State :=
  let first := s.openSeq
  let s := { s with journal := { s.journal with openBegin := true }, ledger := { s.ledger with checkpoints := s.ledger.checkpoints + 1 } }
  let s := s.forAll (s.cat.unbound.map (·.1)).eraseDups fun s c => s.journalAdd (.collection c none [] [] []) false
  let colls := s.host.colls.filterMap fun p => p.2.map fun a => (p.1, a)
  let s := s.forAll colls fun s p => s.journalAdd (.collection p.1 (some p.2) (s.boundFns p.1) (s.cat.wraps.get [] p.1) (s.cat.floorsAt.get [] p.1)) false
  let s := s.forAll s.entries fun s r => s.journalRecord r true false
  let s := { s with journal := { s.journal with openEnd := true,
                                                checkpoint := some { first, last := s.openSeq, prev := [] } } }
  -- a checkpoint of an empty catalogue still closes a seal of its own, padded (R179)
  if s.journal.openSeal.isEmpty then s.journalAdd .pad false else s

def catCheckpointFn : FnDef :=
  catFn 0x0A (· == 0) 0 {} fun c s =>
    if !c.mgmt || s.journal.checkpoint.isSome then failed St.policyDenied s
    else ({ scalar := some (w64 s.openSeq) }, s.startCheckpoint)

/-! ### Key blocks (R347 to R349) -/

/-- The key-block header's usage, algorithm, mode of use and exportability, in ASCII (R348). -/
structure KbHeader where
  usage : List Byte
  alg : Byte
  mode : Byte
  export_ : Byte
  deriving DecidableEq, Repr

/-- The header's fields at their places in a version D block (the layout of ANSI X9.143; PRESUMED, log entry 142). -/
def kbHeader (b : List Byte) : KbHeader := { usage := slice b 5 2, alg := b.getD 7 0, mode := b.getD 8 0, export_ := b.getD 11 0 }

/-! Hexadecimal and decimal digits in ASCII. -/

def hexDigit (n : Nat) : Byte := byte (if n < 10 then 0x30 + n else 0x37 + n)
def hexOf (l : List Byte) : List Byte := (halves l).map hexDigit
def isHex (b : Byte) : Bool := (0x30 ≤ b.toNat && b.toNat ≤ 0x39) || (0x41 ≤ b.toNat && b.toNat ≤ 0x46)
def hexVal (b : Byte) : Nat := if b.toNat ≤ 0x39 then b.toNat - 0x30 else b.toNat - 0x37
def unhex (l : List Byte) : List Byte := unhalves (l.map hexVal)
def hexNat (l : List Byte) : Nat := l.foldl (fun n b => 16 * n + hexVal b) 0
def isDec (b : Byte) : Bool := 0x30 ≤ b.toNat && b.toNat ≤ 0x39
def decNat (l : List Byte) : Nat := l.foldl (fun n b => 10 * n + (b.toNat - 0x30)) 0
def decOf (digits n : Nat) : List Byte := ((List.range digits).map fun k => hexDigit (n / 10 ^ k % 10)).reverse

/-- The class of an algorithm letter A or T. -/
def algClass (a : Byte) : Option Nat := if a == 0x41 then some 0x01 else if a == 0x54 then some 0x02 else none

/-- The purposes a mode of use stands for in a row whose letters are `a` and `b`, and `both` for the two together. -/
def modePurposes (mode a b both : Byte) (pa pb : Nat) : List Nat :=
  if mode == a then [pa] else if mode == b then [pb] else if mode == both then [pa, pb] else []

/-- The class and purposes that a header's row of R348 gives; none outside the table. B1 is for export only. -/
def kbRow (h : KbHeader) : Option (Nat × List Nat) :=
  if h.usage == [0x42, 0x30] then (if h.alg == 0x41 && h.mode == 0x58 then some (0x40, [Pu.derive]) else none)
  else if h.usage == [0x50, 0x30] || h.usage == [0x44, 0x30] then
    (algClass h.alg).map fun c => (c, modePurposes h.mode 0x45 0x44 0x42 Pu.encrypt Pu.decrypt)
  else if h.usage == [0x4D, 0x36] then
    (algClass h.alg).map fun c => (c, modePurposes h.mode 0x47 0x56 0x43 Pu.macGenerate Pu.macVerify)
  else if h.usage == [0x4B, 0x30] || h.usage == [0x4B, 0x31] then
    (if h.alg == 0x41 then some (0x01, modePurposes h.mode 0x45 0x44 0x42 Pu.wrap Pu.unwrap) else none)
  else none

/-- The class and purpose have a row of R348 for export. -/
def kbExportable (cls purpose : Nat) : Bool :=
  (cls == 0x40 && purpose == Pu.derive) ||
  ((cls == 0x01 || cls == 0x02) && [Pu.encrypt, Pu.decrypt, Pu.macGenerate, Pu.macVerify].contains purpose) ||
  (cls == 0x01 && [Pu.wrap, Pu.unwrap, Pu.derive].contains purpose)

/-- Usage, algorithm and mode of use of an exported key: D0 of the rows P0 and D0, K0 of K0 and K1 (R348; which of two is the model's choice, log
entry 142). -/
def kbUsage (cls purpose : Nat) : List Byte :=
  let alg : Byte := if cls = 0x02 then 0x54 else 0x41
  if cls = 0x40 then [0x42, 0x30, alg, 0x58]
  else if purpose = Pu.derive then [0x42, 0x31, alg, 0x58]
  else if purpose = Pu.encrypt then [0x44, 0x30, alg, 0x45]
  else if purpose = Pu.decrypt then [0x44, 0x30, alg, 0x44]
  else if purpose = Pu.macGenerate then [0x4D, 0x36, alg, 0x47]
  else if purpose = Pu.macVerify then [0x4D, 0x36, alg, 0x56]
  else if purpose = Pu.wrap then [0x4B, 0x30, alg, 0x45]
  else [0x4B, 0x30, alg, 0x44]

/-- The header of an exported block of `n` bytes: version D, the length, the row of R348, key version 00, exportability N, no optional blocks
(R347). -/
def kbHeaderOf (cls purpose n : Nat) : List Byte :=
  [0x44] ++ decOf 4 n ++ kbUsage cls purpose ++ [0x30, 0x30, 0x4E] ++ List.replicate 4 0x30

/-- The keys that encrypt and authenticate under a KBPK. -/
def kbEncKey (kbpk : List Byte) : List Byte := Config.prim .kbEncKey [kbpk] 32
def kbMacKey (kbpk : List Byte) : List Byte := Config.prim .kbMacKey [kbpk] 32

/-- A block of a header and a key, its length field and padding: the MAC over header and clear data, and the data encrypted in CBC with the MAC as
IV, both in hexadecimal (R347; log entry 142). -/
def kbSeal (kbpk header clear : List Byte) : List Byte :=
  let mac := cmacOf 3 16 (kbMacKey kbpk) (header ++ clear)
  header ++ hexOf (Config.prim (.aes 3 1 false) [kbEncKey kbpk, mac, clear] clear.length) ++ hexOf mac

/-- The length of a block's optional blocks, where their syntax holds: each has an identifier of two characters and its length in two hexadecimal
digits, or 00, a length of the length and the length (R347, R349; log entry 142). -/
def kbOptional (b : List Byte) : Nat → Nat → Option Nat
  | 0, off => some (off - 16)
  | n + 1, off =>
    let short := slice b (off + 2) 2
    let ll := hexNat (slice b (off + 4) 2)
    let long := slice b (off + 6) ll
    let len := if hexNat short = 0 then hexNat long else hexNat short
    let least := if hexNat short = 0 then 6 + ll else 4
    let digits := short ++ (if hexNat short = 0 then slice b (off + 4) 2 ++ long else [])
    if digits.length != least - 2 || !digits.all isHex || len < least || b.length < off + len then none else kbOptional b n (off + len)

/-- The length of a block's header with its optional blocks, where version, length field, hexadecimal data and optional blocks are well formed (R347,
R349). -/
def kbSyntax (b : List Byte) : Option Nat :=
  let count := slice b 12 2
  if b.length > 9999 || b.length < 16 || b.getD 0 0 != 0x44 || !(slice b 1 4).all isDec || decNat (slice b 1 4) != b.length || !count.all isDec then none
  else match kbOptional b (decNat count) 16 with
    | none => none
    | some opt =>
      let data := b.drop (16 + opt)
      if opt % 16 != 0 || data.length < 64 || data.length % 32 != 0 || !data.all isHex then none else some (16 + opt)

/-- The clear data of a well-formed block with a header of `n` bytes; none where the MAC fails (R349). -/
def kbOpen (kbpk b : List Byte) (n : Nat) : Option (List Byte) :=
  let data := unhex (b.drop n)
  let mac := data.drop (data.length - 16)
  let clear := Config.prim (.aes 3 1 true) [kbEncKey kbpk, mac, data.take (data.length - 16)] (data.length - 16)
  if cmacOf 3 16 (kbMacKey kbpk) (b.take n ++ clear) == mac then some clear else none

/-- Bytes of an exported block (R347). -/
def kbLen (n : Nat) : Nat := 16 + 32 * ((2 + n + 15) / 16) + 32

def kbSpec (sel opts : Nat) (x : FnSpec) : Option FnSpec :=
  if sel != 3 || opts != 0 then none else some { x with units := aesUnit, rngs := .mask :: x.rngs }

def payKbexportFn : FnDef where
  spec _ sel opts _ := kbSpec sel opts
    { ins := [handleIn], outs := [.host 0], loans := [⟨[Pu.wrap], [0x01], [3]⟩], rngs := [.keyGen] }
  compute := withHandle fun r c s =>
    let n := kbLen r.length
    if exportStatus r s != St.ok || !kbExportable r.cls r.purpose then failed St.policyDenied s
    else if r.corrupt then undelivered r c s
    else if (c.out 0).len < n then failed St.badBuffer s
    else
      let pad := c.draw 16 s
      let key := beBytes 2 (8 * r.length) ++ r.material
      let clear := key ++ pad.1.take ((16 - key.length % 16) % 16)
      ({ outs := [{ bytes := kbSeal (c.mat 0) (kbHeaderOf r.cls r.purpose n) clear }], scalar := some (w64 n) }, pad.2)

def payKbimportFn : FnDef where
  spec _ sel opts _ := kbSpec sel opts { ins := [{}], outs := [.template], loans := [⟨[Pu.unwrap], [0x01], [3]⟩] }
  compute c s :=
    let b := c.input 0
    let t := c.tmpl 0
    let h := kbHeader b
    let rowOk := match kbRow h with | some (cls, ps) => cls == t.cls && ps.contains t.purpose | none => false
    match kbSyntax b with
    | none => failed St.encodingRejected s
    | some n =>
    match kbOpen (c.mat 0) b n with
    | none => failed St.inputRejected s
    | some clear =>
    let bits := beNat (clear.take 2)
    if !rowOk then failed St.policyDenied s
    else if bits % 8 != 0 || clear.length < 2 + bits / 8 then failed St.encodingRejected s
    else
      let m := slice clear 2 (bits / 8)
      let noExport := h.export_ == 0x4E || h.export_ == 0x53
      let body := leBytes 2 t.coll ++ [byte t.purpose, byte t.cls, byte t.selector,
        byte (b2n t.deriveFree + 2 * b2n (t.wrapExport && !noExport) + 4 * b2n t.pin + 8 * b2n t.replace)] ++ leBytes 2 t.leaseMs ++
        leBytes 4 t.index ++ leBytes 2 t.replacesGen ++ zeros 2 ++ leBytes 4 t.notBefore ++ leBytes 4 t.notAfter ++
        leBytes 4 t.classWord ++ zeros 20
      ({ outs := [{ key := some { bytes := m, origin := 2, template := body } }] }, s)

end Sys2Proof.Machine
end

