-- ==== Sys2Proof/Machine/Classical.lean ====
section
/-! DEFINITION. RSA and the elliptic curves (10_classical_engines.md): key checks, the validation phase, loadable curves and
what the functions compute. -/

namespace Sys2Proof.Machine

def bnPair : List (Nat × Nat) := [(Kind.bigNumber, 2)]
def bnOne : List (Nat × Nat) := [(Kind.bigNumber, 1)]

/-! ### RSA (R309 to R311) -/

/-- Modulus bytes k/8 of an RSA selector. -/
def rsaBytes (sel : Nat) : Nat := 8 * sel

/-- n and e of a public key n ‖ e (R308, R309). -/
def rsaN (sel : Nat) (pk : List Byte) : Nat := beNat (slice pk 0 (rsaBytes sel))
def rsaE (sel : Nat) (pk : List Byte) : Nat := beNat (slice pk (rsaBytes sel) 4)

/-- The rules of R309 on a public key: n of exactly k bits and odd, e odd and from 65,537 to below 2^32. -/
def rsaPkOk (sel : Nat) (pk : List Byte) : Bool :=
  let n := rsaN sel pk
  let e := rsaE sel pk
  2 ^ (64 * sel - 1) ≤ n && n < 2 ^ (64 * sel) && n % 2 == 1 && e % 2 == 1 && 65537 ≤ e && e < 2 ^ 32

/-- Bytes of a public key. -/
def rsaPkLen (sel : Nat) : Nat := rsaBytes sel + 4

/-- The largest modulus in bits that a slot length accepts for a private operation (R306). -/
def slotModulus (slotLen : Nat) : Nat := match slotLen with | 0 => 3968 | 1 => 8064 | _ => 8192

/-- Options of signing and verification: a hash code 1 to 7, and PKCS #1 or PSS (R311). -/
def rsaSignOpts (opts : Nat) : Bool := opts < 32 && 1 ≤ fieldAt opts 1 4 && fieldAt opts 1 4 ≤ 7
/-- Options of OAEP: bit 0 is zero as well. -/
def rsaCryptOpts (opts : Nat) : Bool := rsaSignOpts opts && !opts.testBit 0

/-- Digest bytes of the options' hash. -/
def rsaHashLen (opts : Nat) : Nat := (prehashLen (fieldAt opts 1 4)).getD 0

def rsaSpec (sel lo : Nat) (ok : Bool) (x : FnSpec) : Option FnSpec := if ok && lo ≤ sel && sel ≤ 0x80 then some x else none

/-- The verdict on an RSA signature: of the modulus's length, not zero and below n, and consistent (R317). -/
def rsaVerifies (sel opts : Nat) (pk digest sig : List Byte) : Bool :=
  sig.length == rsaBytes sel && beNat sig != 0 && beNat sig < rsaN sel pk && Config.primBool (.rsaOk sel opts) [pk, digest, sig]

def rsaKeygenFn : FnDef where
  spec _ sel opts _ := rsaSpec sel 0x20 (opts == 0)
    { outs := [.template, .pub (rsaPkLen sel)], units := bnPair, rngs := [.mask, .keyGen], slotBits := 64 * sel }
  compute c s :=
    if !c.makes 0 0x30 c.sel s then failed St.keyClass s
    else
      let d := c.draw 32 s
      let n := Config.prim (.rsaKey c.sel) [d.1] (rsaBytes c.sel)
      let crt := Config.prim (.rsaKey c.sel) [d.1, [0x01]] (20 * c.sel)
      let pk := n ++ beBytes 4 65537
      ({ outs := [newKey (pk ++ crt), { bytes := pk }] }, d.2)

def rsaSignFn : FnDef where
  spec _ sel opts _ := rsaSpec sel 0x20 (rsaSignOpts opts)
    { ins := [{ rule := .exact (rsaHashLen opts) }], outs := [.pub (rsaBytes sel)], loans := [⟨[Pu.sign], [0x30], [sel]⟩],
      units := bnPair, rngs := if opts.testBit 0 then [.mask, .keyGen] else [.mask],
      slotBits := 64 * sel }
  compute c s :=
    let salt := if c.opts.testBit 0 then c.draw (rsaHashLen c.opts) s else ([], s)
    pubOut [Config.prim (.rsaSig c.sel c.opts) [c.mat 0, c.input 0, salt.1] (rsaBytes c.sel)] salt.2

def rsaVerifyFn : FnDef where
  spec _ sel opts _ := rsaSpec sel 0x10 (rsaSignOpts opts)
    { ins := [{ rule := .exact (rsaHashLen opts) }, {}], loans := [⟨[Pu.verify], [0x31], [sel]⟩], units := bnPair,
      rngs := [.mask] }
  compute c s :=
    if !rsaPkOk c.sel (c.mat 0) then failed St.encodingRejected s
    else verdict (rsaVerifies c.sel c.opts (c.mat 0) (c.input 0) (c.input 1)) s

def rsaVerifyxFn : FnDef where
  spec _ sel opts _ := rsaSpec sel 0x10 (rsaSignOpts opts)
    { ins := [{ rule := .exact (rsaPkLen sel) }, { rule := .exact (rsaHashLen opts) }, {}], units := bnPair, rngs := [.mask] }
  compute c s :=
    if !rsaPkOk c.sel (c.input 0) then failed St.encodingRejected s
    else verdict (rsaVerifies c.sel c.opts (c.input 0) (c.input 1) (c.input 2)) s

def rsaDecryptFn : FnDef where
  spec _ sel opts _ := rsaSpec sel 0x20 (rsaCryptOpts opts)
    { ins := [{ rule := .exact (rsaBytes sel) }, {}], outs := [.secret 0], loans := [⟨[Pu.decrypt], [0x30], [sel]⟩],
      units := bnPair, rngs := [.mask], slotBits := 64 * sel }
  compute c s :=
    if (c.input 1).length > 1024 then failed St.inputRange s
    else if beNat (c.input 0) == 0 then failed St.inputZero s
    else if beNat (c.input 0) ≥ rsaN c.sel (c.mat 0) then failed St.inputRange s
    else
      let ins := [c.mat 0, c.input 0, c.input 1]
      let top := rsaBytes c.sel - 2 * rsaHashLen c.opts - 2
      let n := Config.primNat (.rsaDecLen c.sel c.opts) ins % (top + 1)
      if !Config.primBool (.rsaDecOk c.sel c.opts) ins then failed St.inputRejected s
      else
        let short := match c.out 0 with | .template _ => false | d => d.len < n
        if short then failed St.badBuffer s
        else match secretOut c 0 (Config.prim (.rsaDec c.sel c.opts) ins n) (recHandle (c.key 0)) 0x08 (c.key 0).clearOrigin with
          | .error st => failed st s
          | .ok o => ({ outs := [o], scalar := some (w64 n) }, s)

def rsaEncryptFn : FnDef where
  spec _ sel opts _ := rsaSpec sel 0x20 (rsaCryptOpts opts)
    { ins := [{ secretOk := true }, {}], outs := [.pub (rsaBytes sel)], loans := [⟨[Pu.encrypt], [0x31], [sel]⟩], units := bnPair,
      rngs := [.mask, .keyGen] }
  compute c s :=
    if (c.input 1).length > 1024 || (c.input 0).length + 2 * rsaHashLen c.opts + 2 > rsaBytes c.sel then failed St.inputRange s
    else if !rsaPkOk c.sel (c.mat 0) then failed St.encodingRejected s
    else
      let d := c.draw (rsaHashLen c.opts) s
      pubOut [Config.prim (.rsaEnc c.sel c.opts) [c.mat 0, c.input 0, c.input 1, d.1] (rsaBytes c.sel)] d.2

def rsaExportpkFn : FnDef where
  spec _ sel opts _ := rsaSpec sel 0x20 (opts == 0)
    { outs := [.pub (rsaPkLen sel)], loans := [⟨[Pu.sign, Pu.decrypt], [0x30], [sel]⟩], units := bnPair,
      rngs := [.mask] }
  compute c s := pubOut [slice (c.mat 0) 0 (rsaPkLen c.sel)] s

def rsaImportpkFn : FnDef where
  spec _ sel opts _ := rsaSpec sel 0x20 (opts == 0)
    { ins := [{ rule := .exact (rsaPkLen sel) }], outs := [.template], units := bnPair, rngs := [.mask] }
  compute c s :=
    if !c.makes 0 0x31 c.sel s then failed St.keyClass s
    else if !rsaPkOk c.sel (c.input 0) then failed St.encodingRejected s
    else ({ outs := [importedKey (c.input 0)] }, s)

/-! ### Curves and the validation phase (R312, R314, R317) -/

def isLoadable (sel : Nat) : Bool := 0x80 ≤ sel && sel ≤ 0x9F
def isWeierstrass (sel : Nat) : Bool := (1 ≤ sel && sel ≤ 3) || isLoadable sel
def isMontgomery (sel : Nat) : Bool := sel == 0x21 || sel == 0x22
def isEdwards (sel : Nat) : Bool := sel == 0x31 || sel == 0x32

/-- f of a Weierstrass selector, with the block of a loadable one. -/
def fieldLen (sel : Nat) (block : List Byte) : Nat := ecField (fun _ => block) sel

/-- A field of a curve block: 0 p, 1 a, 2 b, 3 Gx, 4 Gy, 5 n (R314). -/
def curveField (block : List Byte) (k : Nat) : Nat := beNat (slice block (8 + k * byteAt block 1) (byteAt block 1))

/-- Lengths of the private key, public key, signature and shared secret of an EC selector (R312). -/
def ecLens (sel : Nat) (block : List Byte) : Nat × Nat × Nat × Nat :=
  if isWeierstrass sel then
    let f := fieldLen sel block
    (f, 1 + 2 * f, 2 * f, f)
  else match sel with
    | 0x21 => (32, 32, 0, 32) | 0x22 => (56, 56, 0, 56) | 0x31 => (32, 32, 64, 0) | 0x32 => (57, 57, 114, 0)
    | _ => (0, 0, 0, 0)

def ecPkLen (sel : Nat) (block : List Byte) : Nat := (ecLens sel block).2.1
def ecSigLen (sel : Nat) (block : List Byte) : Nat := (ecLens sel block).2.2.1
def ecSsLen (sel : Nat) (block : List Byte) : Nat := (ecLens sel block).2.2.2

/-- A short Weierstrass curve y² = x³ + ax + b modulo p, with base point, its order and the cofactor (R312, R314). -/
structure WCurve where
  p : Nat
  a : Nat
  b : Nat
  gx : Nat := 0
  gy : Nat := 0
  n : Nat := 0
  h : Nat := 1
  deriving DecidableEq, Repr

/-- The curve that a block describes (R314). -/
def blockCurve (block : List Byte) : WCurve :=
  { p := curveField block 0, a := curveField block 1, b := curveField block 2, gx := curveField block 3, gy := curveField block 4,
    n := curveField block 5, h := byteAt block 2 }

/-- P-256, P-384 and P-521 as NIST SP 800-186 defines them (R308, R312), and a loadable curve by its block. -/
def wCurve (sel : Nat) (block : List Byte) : WCurve :=
  match sel with
  | 1 => { p := 0xffffffff00000001000000000000000000000000ffffffffffffffffffffffff,
             a := 0xffffffff00000001000000000000000000000000fffffffffffffffffffffffc,
             b := 0x5ac635d8aa3a93e7b3ebbd55769886bc651d06b0cc53b0f63bce3c3e27d2604b,
             gx := 0x6b17d1f2e12c4247f8bce6e563a440f277037d812deb33a0f4a13945d898c296,
             gy := 0x4fe342e2fe1a7f9b8ee7eb4a7c0f9e162bce33576b315ececbb6406837bf51f5,
             n := 0xffffffff00000000ffffffffffffffffbce6faada7179e84f3b9cac2fc632551 }
  | 2 => { p := 0xfffffffffffffffffffffffffffffffffffffffffffffffffffffffffffffffeffffffff0000000000000000ffffffff,
             a := 0xfffffffffffffffffffffffffffffffffffffffffffffffffffffffffffffffeffffffff0000000000000000fffffffc,
             b := 0xb3312fa7e23ee7e4988e056be3f82d19181d9c6efe8141120314088f5013875ac656398d8a2ed19d2a85c8edd3ec2aef,
             gx := 0xaa87ca22be8b05378eb1c71ef320ad746e1d3b628ba79b9859f741e082542a385502f25dbf55296c3a545e3872760ab7,
             gy := 0x3617de4a96262c6f5d9e98bf9292dc29f8f41dbd289a147ce9da3113b5f0b8c00a60b1ce1d7e819d7a431d7c90ea0e5f,
             n := 0xffffffffffffffffffffffffffffffffffffffffffffffffc7634d81f4372ddf581a0db248b0a77aecec196accc52973 }
  | 3 => { p := 0x1ffffffffffffffffffffffffffffffffffffffffffffffffffffffffffffffffffffffffffffffffffffffffffffffffffffffffffffffffffffffffffffffffff,
             a := 0x1fffffffffffffffffffffffffffffffffffffffffffffffffffffffffffffffffffffffffffffffffffffffffffffffffffffffffffffffffffffffffffffffffc,
             b := 0x51953eb9618e1c9a1f929a21a0b68540eea2da725b99b315f3b8b489918ef109e156193951ec7e937b1652c0bd3bb1bf073573df883d2c34f1ef451fd46b503f00,
             gx := 0xc6858e06b70404e9cd9e3ecb662395b4429c648139053fb521f828af606b4d3dbaa14b5e77efe75928fe1dc127a2ffa8de3348b3c1856a429bf97e7e31c2e5bd66,
             gy := 0x11839296a789a3bc0045c8a5fb42c7d1bd998f54449579b446817afbd17273e662c97ee72995ef42640c550b9013fad0761353c7086a272c24088be94769fd16650,
             n := 0x1fffffffffffffffffffffffffffffffffffffffffffffffffffffffffffffffffa51868783bf2f966b7fcc0148f709a5d03bb5c9b8899c47aebb6fb71e91386409 }
  | _ => blockCurve block

/-- b^e modulo m. -/
def powMod (m b e : Nat) : Nat :=
  ((List.range (Nat.log2 e + 1)).foldl (fun (r : Nat × Nat) i => (if e.testBit i then r.1 * r.2 % m else r.1, r.2 * r.2 % m)) (1 % m, b % m)).1

/-- The difference and the quotient modulo a prime p. -/
def subMod (p a b : Nat) : Nat := (a % p + p - b % p) % p
def divMod (p a b : Nat) : Nat := a * powMod p b (p - 2) % p

/-- The sum of two points of a curve; none is the identity. -/
def WCurve.add (c : WCurve) (x y : Option (Nat × Nat)) : Option (Nat × Nat) :=
  match x, y with
  | none, y => y
  | x, none => x
  | some (x1, y1), some (x2, y2) =>
    if x1 == x2 && (y1 + y2) % c.p == 0 then none
    else
      let l := if x1 == x2 then divMod c.p (3 * x1 * x1 + c.a) (2 * y1) else divMod c.p (subMod c.p y2 y1) (subMod c.p x2 x1)
      let x3 := subMod c.p (l * l) (x1 + x2)
      some (x3, subMod c.p (l * subMod c.p x1 x3) y1)

/-- k times a point. -/
def WCurve.mul (c : WCurve) (k : Nat) (x : Nat × Nat) : Option (Nat × Nat) :=
  ((List.range (Nat.log2 k + 1)).foldl (fun (r : Option (Nat × Nat) × Option (Nat × Nat)) i =>
    (if k.testBit i then c.add r.1 r.2 else r.1, c.add r.2 r.2)) (none, some x)).1

/-- The point lies on the curve. -/
def WCurve.on (c : WCurve) (x y : Nat) : Bool := y * y % c.p == (x * x * x + c.a * x + c.b) % c.p

/-- The checks of R317 on a Weierstrass point, in order: the status of the first that fails, otherwise OK. A point of this form is never the
identity. -/
def weierstrassStatus (sel : Nat) (block pt : List Byte) : Byte :=
  let f := fieldLen sel block
  let c := wCurve sel block
  let x := beNat (slice pt 1 f)
  let y := beNat (slice pt (1 + f) f)
  if byteAt pt 0 != 4 then St.encodingRejected
  else if !(x < c.p && y < c.p) then St.inputRange
  else if !c.on x y then St.pointNotOnCurve
  else if c.h > 1 && (c.mul c.n (x, y)).isSome then St.pointAtInfinity
  else St.ok

/-- The primes of X25519 and Ed25519, and of X448 and Ed448 (R312, RFC 7748, RFC 8032). -/
def p25519 : Nat := 2 ^ 255 - 19
def p448 : Nat := 2 ^ 448 - 2 ^ 224 - 1

/-- u of a Montgomery public value: the top bit of X25519's is ignored, and u is reduced (R317). -/
def montgomeryU (sel : Nat) (u : List Byte) : Nat := if sel == 0x21 then leNat u % 2 ^ 255 % p25519 else leNat u % p448

/-- The projective doubling of u = X/Z on v² = u³ + Au² + u. -/
def montgomeryDouble (p a : Nat) (u : Nat × Nat) : Nat × Nat :=
  let d := subMod p (u.1 * u.1) (u.2 * u.2)
  (d * d % p, 4 * u.1 * u.2 * (u.1 * u.1 + a * u.1 * u.2 + u.2 * u.2) % p)

/-- u has small order: its multiple by the cofactor, 8 or 4, is the identity. -/
def montgomerySmall (sel u : Nat) : Bool :=
  if sel == 0x21 then ((List.range 3).foldl (fun q _ => montgomeryDouble p25519 486662 q) (u, 1)).2 == 0
  else ((List.range 2).foldl (fun q _ => montgomeryDouble p448 156326 q) (u, 1)).2 == 0

/-- p, a, d and the number of doublings that the cofactor stands for, of the Edwards curve a·x² + y² = 1 + d·x²·y². -/
def edwards (sel : Nat) : Nat × Nat × Nat × Nat :=
  if sel == 0x31 then (p25519, p25519 - 1, divMod p25519 (p25519 - 121665) 121666, 3) else (p448, 1, p448 - 39081, 2)

/-- y and the sign bit of an Edwards public key. -/
def edwardsY (sel : Nat) (pk : List Byte) : Nat × Nat :=
  let k := if sel == 0x31 then 255 else 455
  (leNat pk % 2 ^ k, leNat pk / 2 ^ k % 2)

/-- x² of a point with a given y. -/
def edwardsXX (sel y : Nat) : Nat :=
  let (p, a, d, _) := edwards sel
  divMod p (subMod p (y * y) 1) (subMod p (d * y * y) a)

/-- The encoding decodes to a point: x² is a square, and a sign bit of 1 does not stand with x = 0. -/
def edwardsDecodes (sel : Nat) (pk : List Byte) : Bool :=
  let (y, sign) := edwardsY sel pk
  let xx := edwardsXX sel y
  let p := (edwards sel).1
  if xx == 0 then sign == 0 else powMod p xx ((p - 1) / 2) == 1

/-- y of twice a point. -/
def edwardsDouble (sel y : Nat) : Nat :=
  let (p, a, _, _) := edwards sel
  let ax := a * edwardsXX sel y % p
  divMod p (subMod p (y * y) ax) (subMod p (subMod p 2 ax) (y * y))

/-- The point has small order. -/
def edwardsSmall (sel y : Nat) : Bool := (List.range (edwards sel).2.2.2).foldl (fun y _ => edwardsDouble sel y) y == 1

/-- The order of an Edwards curve's base point. -/
def edwardsOrder (sel : Nat) : Nat :=
  if sel == 0x31 then 2 ^ 252 + 27742317777372353535851937790883648493
  else 2 ^ 446 - 13818066809895115352007386748515426880336692474882178609894547503885

/-- The checks of R317 on a public point or key of any curve. -/
def ecPointStatus (sel : Nat) (block pt : List Byte) : Byte :=
  if isWeierstrass sel then weierstrassStatus sel block pt
  else if isMontgomery sel then (if montgomerySmall sel (montgomeryU sel pt) then St.pointAtInfinity else St.ok)
  else if !((edwardsY sel pt).1 < (edwards sel).1) then St.inputRange
  else if !edwardsDecodes sel pt then St.pointNotOnCurve
  else if edwardsSmall sel (edwardsY sel pt).1 then St.pointAtInfinity
  else St.ok

/-- The checks of R317 on a loaned private scalar; only Weierstrass scalars are checked. -/
def ecScalarStatus (sel : Nat) (block d : List Byte) : Byte :=
  if !isWeierstrass sel then St.ok
  else if allZero d then St.inputZero
  else if !(beNat d < (wCurve sel block).n) then St.inputRange
  else St.ok

/-- The private and public classes of an EC selector (R312). -/
def ecPrivClass (sel : Nat) : Nat := if isWeierstrass sel then 0x32 else 0x34
def ecPubClass (sel : Nat) : Nat := if isWeierstrass sel then 0x33 else 0x35

/-- ECDSA's options: a hash code of R205 that is not zero, deterministic, and digest input; no option for the other curves
(R313). -/
def ecSignOpts (sel opts : Nat) : Bool :=
  if isWeierstrass sel then opts < 64 && (prehashLen (fieldAt opts 1 4)).isSome else opts == 0

/-- The message's length rule: exactly the digest's with option 5 (R313). -/
def ecMsg (sel opts : Nat) : InPos :=
  { rule := if isWeierstrass sel && opts.testBit 5 then .exact ((prehashLen (fieldAt opts 1 4)).getD 0) else .any }

/-- The context is refused: only Ed448 takes one, of at most 255 bytes (R313). -/
def ecCtxBad (sel : Nat) (ctx : List Byte) : Bool := if sel == 0x32 then ctx.length > 255 else ctx.length > 0

/-- The block of a loadable selector. -/
def State.curveOf (s : State) (sel : Nat) : List Byte := if isLoadable sel then s.curve (sel - 0x80) else []

/-- The selector names a loadable curve that the table does not hold. -/
def noCurve (c : Ctx) : Bool := isLoadable c.sel && c.curve.isEmpty

/-- The rule for an input of `n` bytes; none is made while the selector's curve is unknown. -/
def ecExact (s : State) (sel n : Nat) : InRule := if isLoadable sel && (s.curveOf sel).isEmpty then .any else .exact n

/-- The public key of a private one (R312). -/
def ecPkOf (sel : Nat) (block d : List Byte) : List Byte := Config.prim (.ecPk sel) [block, d] (ecPkLen sel block)

/-- An EC signature: with a nonce from the generator, or deterministic; SIGN_RETRY_LIMIT after 8 attempts (R313). -/
def ecSignature (c : Ctx) (sel opts : Nat) (block d msg ctx : List Byte) (s : State) : Except Byte (List Byte) × State :=
  let k := if isWeierstrass sel && !opts.testBit 0 then c.draw (fieldLen sel block) s else ([], s)
  let ins := [block, d, msg, ctx, k.1]
  if isWeierstrass sel && Config.primBool (.ecSigCap sel opts) ins then (.error St.signRetryLimit, k.2)
  else (.ok (Config.prim (.ecSig sel opts) ins (ecSigLen sel block)), k.2)

/-- r and s are from 1 to n - 1, or S is below the order of the Edwards curve (R317). -/
def ecSigInRange (sel : Nat) (block sig : List Byte) : Bool :=
  if isWeierstrass sel then
    let f := fieldLen sel block
    let n := (wCurve sel block).n
    let r := beNat (slice sig 0 f)
    let v := beNat (slice sig f f)
    1 ≤ r && r < n && 1 ≤ v && v < n
  else leNat (sig.drop (ecSigLen sel block / 2)) < edwardsOrder sel

/-- The verdict on an EC signature; one of the wrong length or with a value out of range fails (R208, R317). -/
def ecVerifies (sel opts : Nat) (block pk msg ctx sig : List Byte) : Bool :=
  sig.length == ecSigLen sel block && ecSigInRange sel block sig && Config.primBool (.ecOk sel (opts - opts % 2)) [block, pk, msg, ctx, sig]

def ecSpec (ok : Bool) (x : FnSpec) : Option FnSpec := if ok then some x else none
def anyEc (sel : Nat) : Bool := isWeierstrass sel || isMontgomery sel || isEdwards sel
def signEc (sel : Nat) : Bool := isWeierstrass sel || isEdwards sel
def agreeEc (sel : Nat) : Bool := isWeierstrass sel || isMontgomery sel

/-- The first of two statuses that is not OK. -/
def firstBad (a b : Byte) : Byte := if a != St.ok then a else b

/-- The masked lanes on which EdDSA hashes its secret seed and prefix: pairs of SHA-2 lanes for Ed25519, Keccak lanes for Ed448, each with its
duplicate (R233, R319). -/
def eddsaLanes (sel : Nat) : List (Nat × Nat) :=
  match sel with
  | 0x31 => [(Kind.sha2, 4)] | 0x32 => [(maskedKind, 2)]
  | _ => []

/-- The keyed capability that they need (R234). -/
def eddsaKeyed (sel : Nat) : Option Bool :=
  match sel with
  | 0x31 => some false | 0x32 => some true
  | _ => none

def ecKeygenFn : FnDef where
  spec s sel opts _ := ecSpec (anyEc sel && opts == 0)
    { outs := [.template, .pub (ecPkLen sel (s.curveOf sel))], units := bnPair ++ eddsaLanes sel, rngs := [.mask, .keyGen],
      keyed := eddsaKeyed sel }
  compute c s :=
    if noCurve c || !c.makes 0 (ecPrivClass c.sel) c.sel s then failed St.keyClass s
    else
      let d := c.draw 32 s
      let sk := Config.prim (.ecSk c.sel) [c.curve, d.1] (ecLens c.sel c.curve).1
      ({ outs := [newKey sk, { bytes := ecPkOf c.sel c.curve sk }] }, d.2)

def ecSignFn : FnDef where
  spec s sel opts _ := ecSpec (signEc sel && ecSignOpts sel opts)
    { ins := [ecMsg sel opts, {}], outs := [.pub (ecSigLen sel (s.curveOf sel))],
      loans := [⟨[Pu.sign], [ecPrivClass sel], [sel]⟩], units := bnPair ++ eddsaLanes sel,
      rngs := if isWeierstrass sel && !opts.testBit 0 then [.mask, .keyGen] else [.mask], keyed := eddsaKeyed sel }
  compute c s :=
    let st := ecScalarStatus c.sel c.curve (c.mat 0)
    if noCurve c then failed St.keyClass s
    else if ecCtxBad c.sel (c.input 1) then failed St.inputRange s
    else if st != St.ok then failed st s
    else if isWeierstrass c.sel && c.opts.testBit 0 && c.pol.noDeterministic then failed St.policyDenied s
    else match ecSignature c c.sel c.opts c.curve (c.mat 0) (c.input 0) (c.input 1) s with
      | (.error st, s) => failed st s
      | (.ok sig, s) => pubOut [sig] s

def ecVerifyFn : FnDef where
  spec _ sel opts _ := ecSpec (signEc sel && ecSignOpts sel opts)
    { ins := [ecMsg sel opts, {}, {}], loans := [⟨[Pu.verify], [ecPubClass sel], [sel]⟩], units := bnPair, rngs := [.mask] }
  compute c s :=
    let st := ecPointStatus c.sel c.curve (c.mat 0)
    if noCurve c then failed St.keyClass s
    else if ecCtxBad c.sel (c.input 1) then failed St.inputRange s
    else if st != St.ok then failed st s
    else verdict (ecVerifies c.sel c.opts c.curve (c.mat 0) (c.input 0) (c.input 1) (c.input 2)) s

def ecVerifyxFn : FnDef where
  spec s sel opts _ := ecSpec (signEc sel && ecSignOpts sel opts)
    { ins := [{ rule := ecExact s sel (ecPkLen sel (s.curveOf sel)) }, ecMsg sel opts, {}, {}], units := bnPair, rngs := [.mask] }
  compute c s :=
    let st := ecPointStatus c.sel c.curve (c.input 0)
    if noCurve c then failed St.keyClass s
    else if ecCtxBad c.sel (c.input 2) then failed St.inputRange s
    else if st != St.ok then failed st s
    else verdict (ecVerifies c.sel c.opts c.curve (c.input 0) (c.input 1) (c.input 2) (c.input 3)) s

def ecEphagreeFn : FnDef where
  spec s sel opts _ := ecSpec (agreeEc sel && opts == 0)
    { ins := [{ rule := ecExact s sel (ecPkLen sel (s.curveOf sel)) }],
      outs := [.pub (ecPkLen sel (s.curveOf sel)), .secret (ecSsLen sel (s.curveOf sel))], units := bnPair, rngs := [.mask, .keyGen] }
  compute c s :=
    let st := ecPointStatus c.sel c.curve (c.input 0)
    if noCurve c then failed St.keyClass s
    else if st != St.ok then failed st s
    else
      let d := c.draw 32 s
      let sk := Config.prim (.ecSk c.sel) [c.curve, d.1] (ecLens c.sel c.curve).1
      withOut (secretOut c 1 (Config.prim (.ecDh c.sel) [c.curve, sk, c.input 0] (ecSsLen c.sel c.curve)) 0 0 false)
        (fun o => [{ bytes := ecPkOf c.sel c.curve sk }, o]) d.2

def ecAgreeFn : FnDef where
  spec s sel opts _ := ecSpec (agreeEc sel && opts == 0)
    { ins := [{ rule := ecExact s sel (ecPkLen sel (s.curveOf sel)) }], outs := [.secret (ecSsLen sel (s.curveOf sel))],
      loans := [⟨[Pu.agree], [ecPrivClass sel], [sel]⟩], units := bnPair, rngs := [.mask] }
  compute c s :=
    let st := firstBad (ecPointStatus c.sel c.curve (c.input 0)) (ecScalarStatus c.sel c.curve (c.mat 0))
    if noCurve c then failed St.keyClass s
    else if st != St.ok then failed st s
    else withOut (secretOut c 0 (Config.prim (.ecDh c.sel) [c.curve, c.mat 0, c.input 0] (ecSsLen c.sel c.curve))
      (recHandle (c.key 0)) 0x08 (c.key 0).clearOrigin) (fun o => [o]) s

def ecExportpkFn : FnDef where
  spec s sel opts _ := ecSpec (anyEc sel && opts == 0)
    { outs := [.pub (ecPkLen sel (s.curveOf sel))], loans := [⟨[Pu.sign, Pu.agree], [ecPrivClass sel], [sel]⟩],
      units := bnPair ++ eddsaLanes sel, rngs := [.mask], keyed := eddsaKeyed sel }
  compute c s :=
    let st := ecScalarStatus c.sel c.curve (c.mat 0)
    if noCurve c then failed St.keyClass s
    else if st != St.ok then failed st s
    else pubOut [ecPkOf c.sel c.curve (c.mat 0)] s

def ecImportpkFn : FnDef where
  spec s sel opts _ := ecSpec (signEc sel && opts == 0)
    { ins := [{ rule := ecExact s sel (ecPkLen sel (s.curveOf sel)) }], outs := [.template], units := bnPair, rngs := [.mask] }
  compute c s :=
    let st := ecPointStatus c.sel c.curve (c.input 0)
    if noCurve c || !c.makes 0 (ecPubClass c.sel) c.sel s then failed St.keyClass s
    else if st != St.ok then failed st s
    else ({ outs := [importedKey (c.input 0)] }, s)

/-! ### Curve blocks (R314, R315) -/

/-- p^k modulo n differs from 1 for k = 1 to 100 (R315 check 10). -/
def embeddingOk (p n : Nat) : Bool :=
  ((List.range 100).foldl (fun (acc : Nat × Bool) _ => (acc.1 * p % n, acc.2 && acc.1 * p % n != 1)) (1, true)).2

/-- n − 1 as 2^r times an odd number. -/
def oddPart : Nat → Nat → Nat × Nat
  | 0, m => (0, m)
  | k + 1, m => if m % 2 == 0 then (fun r => (r.1 + 1, r.2)) (oddPart k (m / 2)) else (0, m)

/-- One round of the Miller–Rabin test of an odd n. -/
def millerRabin (n base : Nat) : Bool :=
  let (r, d) := oddPart (Nat.log2 n + 1) (n - 1)
  let x := powMod n base d
  x == 1 || ((List.range r).foldl (fun (q : Nat × Bool) _ => (q.1 * q.1 % n, q.2 || q.1 == n - 1)) (x, false)).2

/-- The i-th base from bytes drawn, from 2 to n − 2. -/
def mrBase (n f : Nat) (bytes : List Byte) (i : Nat) : Nat := 2 + beNat (slice bytes (i * f) f) % (n - 3)

/-- The tests of check 2 of R315: Miller–Rabin with 64 bases, then a strong Lucas test. -/
def probablePrime (f n : Nat) (bytes : List Byte) : Bool :=
  5 ≤ n && n % 2 == 1 && (List.range 64).all (fun i => millerRabin n (mrBase n f bytes i)) && Config.primBool .strongLucas [beBytes f n]

/-- The bytes that check 2 or 6 draws for its 64 bases. -/
def basesLen (b : List Byte) : Nat := 64 * byteAt b 1

/-- The number of the first check of R315 that a block fails; none when it passes all. The bases of checks 2 and 6 are drawn from a DRBG. -/
def State.curveCheck (s : State) (b bases2 bases6 : List Byte) : Option Nat :=
  let f := byteAt b 1
  let c := blockCurve b
  let gap := if c.p + 1 ≥ c.h * c.n then c.p + 1 - c.h * c.n else c.h * c.n - (c.p + 1)
  if !(byteAt b 0 == 1 && 20 ≤ f && f ≤ 72 && [1, 2, 4].contains c.h && allZero (slice b 3 5) && b.length == 8 + 6 * f) then some 1
  else if !(byteAt b 8 != 0 && c.p % 2 == 1 && probablePrime f c.p bases2) then some 2
  else if !(c.a < c.p && c.b < c.p && c.gx < c.p && c.gy < c.p) then some 3
  else if (4 * c.a * c.a * c.a + 27 * c.b * c.b) % c.p == 0 then some 4
  else if !c.on c.gx c.gy then some 5
  else if !(probablePrime f c.n bases6 && c.n > 2 ^ 159) then some 6
  else if gap * gap > 4 * c.p then some 7
  else if (c.mul c.n (c.gx, c.gy)).isSome then some 8
  else if c.n == c.p then some 9
  else if !embeddingOk c.p c.n then some 10
  else if s.work.curves.any (fun x => x.2.block == b && !x.2.retired) then some 11
  else none

def ecCurvecheckFn : FnDef where
  spec _ sel opts _ := ecSpec (sel == 0 && opts == 0) { ins := [{}], units := bnOne, rngs := [.keyGen] }
  compute c s :=
    let d2 := c.draw (basesLen (c.input 0)) s
    let d6 := c.draw (basesLen (c.input 0)) d2.2
    match s.curveCheck (c.input 0) d2.1 d6.1 with
    | some k => failed St.curveParamsRejected (d6.2.log 1 St.curveParamsRejected 0 [byte k])
    | none => ({}, d6.2)

end Sys2Proof.Machine
end

