-- ==== Sys2Proof/Machine/Hybrid.lean ====
section
/-! DEFINITION. The hybrid family 0x10 (R220 to R225). -/

namespace Sys2Proof.Machine

/-- Lengths of a combiner: classical public value, classical shared secret, ciphertext (R221). -/
def combineLens (sel : Nat) : Option (Nat × Nat × Nat) :=
  match sel with
  | 1 => some (32, 32, 1088) | 2 => some (65, 32, 1088) | 3 => some (97, 48, 1568) | 4 => some (56, 56, 1568)
  | _ => none

/-- The label of HYB.KEXCOMBINE (R222) and that of HYB.SIGN (R223). -/
def kexLabel : List Byte := [0x45, 0x58, 0x48, 0x59, 0x42, 0x4B, 0x45, 0x58]
def sigLabel : List Byte := [0x45, 0x58, 0x48, 0x59, 0x42, 0x53, 0x49, 0x47]

/-- K of R222. -/
def combinedKey (sel : Nat) (ssK ssC ct pubD pubE : List Byte) : List Byte :=
  Config.prim (.hash 5) [kexLabel ++ [byte sel] ++ ssK ++ ssC ++ Config.prim (.hash 5) [ct] 32 ++ pubD ++ pubE] 32

def hybKexcombineFn : FnDef where
  spec _ sel opts _ := if opts > 1 then none else (combineLens sel).map fun l =>
    { ins := [{ rule := .exact l.1 }, { rule := .exact l.2.2 }, { rule := .exact 32, secretOk := true },
        { rule := .exact l.1 }, { rule := .exact l.2.1, secretOk := true }],
      outs := [.secret 32], units := [(maskedKind, 2)], rngs := [.mask], keyed := some true }
  compute c s :=
    if !c.secret 2 || !c.secret 4 then failed St.policyDenied s
    else
      let pubD := if c.opts = 0 then c.input 0 else c.input 3
      let pubE := if c.opts = 0 then c.input 3 else c.input 0
      withOut (secretOut c 0 (combinedKey c.sel (c.input 2) (c.input 4) (c.input 1) pubD pubE) c.mark 0x07 false) (fun o => [o]) s

/-- The composites: ML-DSA selector, EC selector, EC options, signature length (R223). -/
def composite (sel : Nat) : Option (Nat × Nat × Nat × Nat) :=
  match sel with
  | 0x11 => some (1, 1, 2, 2484) | 0x12 => some (2, 2, 4, 3405) | 0x13 => some (2, 0x31, 0, 3373) | 0x14 => some (3, 2, 4, 4723)
  | _ => none

/-- M' of R223. -/
def hybMessage (sel : Nat) (msg ctx : List Byte) : List Byte :=
  sigLabel ++ [byte sel, byte ctx.length] ++ ctx ++ Config.prim (.hash 3) [msg] 64

/-- The LREs of the lattice half and its checks, and the pair of big-number engines of the other (R216, R303). -/
def hybUnits : List (Nat × Nat) := [(Kind.lre, 2), (Kind.bigNumber, 2)]

def hybSignFn : FnDef where
  spec _ sel opts _ := if opts > 1 then none else (composite sel).map fun k =>
    { ins := [{}, {}], outs := [.pub k.2.2.2],
      loans := [⟨[Pu.sign], [0x12], [k.1]⟩, ⟨[Pu.sign], [ecPrivClass k.2.1], [k.2.1]⟩],
      units := hybUnits ++ eddsaLanes k.2.1, keyed := eddsaKeyed k.2.1,
      rngs := if opts = 1 && k.2.1 == 0x31 then [.mask] else [.mask, .keyGen] }
  compute c s :=
    match composite c.sel with
    | none => failed St.badProgram s
    | some (lat, ec, opts, _) =>
      if (c.input 1).length > 255 then failed St.inputRange s
      else if c.opts = 1 && c.pol.noDeterministic then failed St.policyDenied s
      else
        let m := hybMessage c.sel (c.input 0) (c.input 1)
        let a := mldsaSignature c lat c.opts (c.key 0) m [] s
        let st := ecScalarStatus ec [] (c.mat 1)
        let b := if st != St.ok then (.error st, a.2) else ecSignature c ec opts [] (c.mat 1) m [] a.2
        match a.1, b.1 with
        | .error st, _ => failed st b.2
        | _, .error st => failed st b.2
        | .ok x, .ok y => pubOut [x ++ y] b.2

/-- Both halves of a composite verification; one of the wrong length fails (R225). -/
def hybVerifies (sel : Nat) (latPk ecPk msg ctx sig : List Byte) : Bool :=
  match composite sel with
  | none => false
  | some (lat, ec, opts, n) =>
    let k := ((mldsaLens lat).getD (0, 0)).2
    let m := hybMessage sel msg ctx
    sig.length == n && mldsaVerifies lat 0 latPk m [] (sig.take k) && ecVerifies ec opts [] ecPk m [] (sig.drop k)

def hybVerifyFn : FnDef where
  spec _ sel opts _ := if opts != 0 then none else (composite sel).map fun k =>
    { ins := [{}, {}, {}], loans := [⟨[Pu.verify], [0x13], [k.1]⟩, ⟨[Pu.verify], [ecPubClass k.2.1], [k.2.1]⟩], units := hybUnits }
  compute c s :=
    if (c.input 1).length > 255 then failed St.inputRange s
    else verdict (hybVerifies c.sel (c.mat 0) (c.mat 1) (c.input 0) (c.input 1) (c.input 2)) s

def hybVerifyxFn : FnDef where
  spec _ sel opts _ := if opts != 0 then none else (composite sel).map fun k =>
    { ins := [{ rule := .exact ((mldsaLens k.1).getD (0, 0)).1 }, { rule := .exact (ecPkLen k.2.1 []) }, {}, {}, {}],
      units := hybUnits }
  compute c s :=
    let st := match composite c.sel with | some k => ecPointStatus k.2.1 [] (c.input 1) | none => St.badProgram
    if (c.input 3).length > 255 then failed St.inputRange s
    else if st != St.ok then failed st s
    else verdict (hybVerifies c.sel (c.input 0) (c.input 1) (c.input 2) (c.input 3) (c.input 4)) s

end Sys2Proof.Machine
end

