-- ==== Sys2Proof/Machine/FnTable.lean ====
section
/-! DEFINITION. The engine functions by their 16-bit codes (R133, R134): family in bits [15:8], operation in bits [7:0]. -/

namespace Sys2Proof.Machine

/-- The function of a code; none where the code is reserved. -/
def fnDef (code : Nat) : Option FnDef :=
  match code with
  | 0x0101 => some mlkemKeygenFn
  | 0x0102 => some mlkemEncapsFn
  | 0x0103 => some mlkemDecapsFn
  | 0x0104 => some mlkemEncapskFn
  | 0x0105 => some mlkemExportekFn
  | 0x0106 => some mlkemImportekFn
  | 0x0201 => some mldsaKeygenFn
  | 0x0202 => some mldsaSignFn
  | 0x0203 => some mldsaVerifyFn
  | 0x0204 => some mldsaVerifyxFn
  | 0x0205 => some mldsaExportpkFn
  | 0x0206 => some mldsaImportpkFn
  | 0x0301 => some fndsaKeygenFn
  | 0x0302 => some fndsaSignFn
  | 0x0303 => some fndsaVerifyFn
  | 0x0304 => some fndsaVerifyxFn
  | 0x0305 => some fndsaExportpkFn
  | 0x0306 => some fndsaImportpkFn
  | 0x0401 => some slhdsaKeygenFn
  | 0x0402 => some slhdsaSignFn
  | 0x0403 => some slhdsaVerifyFn
  | 0x0404 => some slhdsaVerifyxFn
  | 0x0405 => some slhdsaExportpkFn
  | 0x0406 => some slhdsaImportpkFn
  | 0x0501 => some lmsKeygenFn
  | 0x0502 => some lmsSignFn
  | 0x0503 => some lmsVerifyFn
  | 0x0504 => some lmsVerifyxFn
  | 0x0505 => some lmsExportpkFn
  | 0x0506 => some lmsImportpkFn
  | 0x0601 => some xmssKeygenFn
  | 0x0602 => some xmssSignFn
  | 0x0603 => some xmssVerifyFn
  | 0x0604 => some xmssVerifyxFn
  | 0x0605 => some xmssExportpkFn
  | 0x0606 => some xmssImportpkFn
  | 0x0701 => some mcelieceKeygenFn
  | 0x0702 => some mcelieceEncapsFn
  | 0x0703 => some mcelieceDecapsFn
  | 0x0704 => some mcelieceEncapskFn
  | 0x0705 => some mcelieceExportpkFn
  | 0x0706 => some mcelieceImportpkFn
  | 0x0707 => some mcelieceResideFn
  | 0x0801 => some hqcKeygenFn
  | 0x0802 => some hqcEncapsFn
  | 0x0803 => some hqcDecapsFn
  | 0x0804 => some hqcEncapskFn
  | 0x0805 => some hqcExportpkFn
  | 0x0806 => some hqcImportpkFn
  | 0x0901 => some rsaKeygenFn
  | 0x0902 => some rsaSignFn
  | 0x0903 => some rsaVerifyFn
  | 0x0904 => some rsaVerifyxFn
  | 0x0905 => some rsaDecryptFn
  | 0x0906 => some rsaEncryptFn
  | 0x0907 => some rsaExportpkFn
  | 0x0908 => some rsaImportpkFn
  | 0x0A01 => some ecKeygenFn
  | 0x0A02 => some ecSignFn
  | 0x0A03 => some ecVerifyFn
  | 0x0A04 => some ecVerifyxFn
  | 0x0A05 => some ecEphagreeFn
  | 0x0A06 => some ecAgreeFn
  | 0x0A07 => some ecExportpkFn
  | 0x0A08 => some ecImportpkFn
  | 0x0A09 => some ecCurvecheckFn
  | 0x0B01 => some digestHashFn
  | 0x0B02 => some digestCshakeFn
  | 0x0B03 => some digestHmacFn
  | 0x0B04 => some digestHmacverifyFn
  | 0x0B05 => some digestKmacFn
  | 0x0B06 => some digestKmacverifyFn
  | 0x0B07 => some digestHkdfFn
  | 0x0B08 => some digestKdf108Fn
  | 0x0B10 => some digestSbeginFn
  | 0x0B11 => some digestScontFn
  | 0x0B12 => some digestSendFn
  | 0x0C01 => some (aesCrypt false)
  | 0x0C02 => some (aesCrypt true)
  | 0x0C03 => some aesCmacFn
  | 0x0C04 => some aesCmacverifyFn
  | 0x0C05 => some aesAeadsealFn
  | 0x0C06 => some aesAeadopenFn
  | 0x0D01 => some payPinxlateFn
  | 0x0D02 => some payDukptxlateFn
  | 0x0D03 => some payDukptderiveFn
  | 0x0D04 => some payDukptikFn
  | 0x0D05 => some payKbexportFn
  | 0x0D06 => some payKbimportFn
  | 0x0E01 => some randBytesFn
  | 0x0F01 => some catGenerateFn
  | 0x0F02 => some catImportClearFn
  | 0x0F03 => some catUnwrapFn
  | 0x0F04 => some catWrapFn
  | 0x0F05 => some catWithdrawFn
  | 0x0F06 => some catRevokeFn
  | 0x0F07 => some catPinFn
  | 0x0F08 => some catInfoFn
  | 0x0F09 => some catSyncFn
  | 0x0F0A => some catCheckpointFn
  | 0x1001 => some hybKexcombineFn
  | 0x1002 => some hybSignFn
  | 0x1003 => some hybVerifyFn
  | 0x1004 => some hybVerifyxFn
  | _ => none

end Sys2Proof.Machine
end

