-- ==== Sys2Proof/Machine/Operands.lean ====
section
/-! DEFINITION. The operand forms of Damob: instruction fields (R121, R122, R133), the static checks (R146), buffer descriptors
(R117, R118) and what a buffer register reads. -/

namespace Sys2Proof.Machine

/-! ### Instruction fields (R121) -/

def insOpcode (i : Word64) : Nat := bits64 i 56 8
def insDst (i : Word64) : Nat := bits64 i 52 4
def insSrcA (i : Word64) : Nat := bits64 i 48 4
def insSrcB (i : Word64) : Nat := bits64 i 44 4
def insCond (i : Word64) : Nat := bits64 i 40 4
def insImm (i : Word64) : Nat := bits64 i 0 40
/-- The cont bit of the instructions that have one (R125). -/
def insCont (i : Word64) : Bool := i.toNat.testBit 39

/-- EXEC's fields (R133). -/
structure ExecFields where
  bd : Nat
  ba : Nat
  noloan : Bool
  hb : Nat
  code : Nat
  sel : Nat
  hc : Nat
  hcValid : Bool
  vr : Nat
  opts : Nat
  deriving DecidableEq, Repr

def execFields (i : Word64) : ExecFields :=
  { bd := bits64 i 52 3, ba := bits64 i 48 3, noloan := i.toNat.testBit 47, hb := bits64 i 44 3, code := bits64 i 0 16,
    sel := bits64 i 16 8, hc := bits64 i 24 3, hcValid := i.toNat.testBit 27, vr := bits64 i 28 4, opts := bits64 i 32 7 }

/-- The branch offset of BR, signed (R125). -/
def brOffset (i : Word64) : Int := signed (bits64 i 0 16) 16

/-! ### Static checks (R146) -/

/-- The form of an opcode: the widths in use of dst, srca and srcb (4 for a V register, 3 for an H or B register, 0 unused) and the
immediate bits in use. None for a reserved opcode. -/
def insForm (op : Nat) : Option (Nat × Nat × Nat × Nat) :=
  match op with
  | 0x00 => some (0, 0, 0, 0)
  | 0x01 => some (0, 4, 0, 0x3FF)
  | 0x02 => some (0, 0, 0, 0xFFFF)
  | 0x10 => some (4, 0, 0, 0xFFFFFFFFFF)
  | 0x11 => some (4, 0, 0, 0xFFFFFF)
  | 0x12 => some (4, 4, 0, 0)
  | 0x13 | 0x15 | 0x16 | 0x17 | 0x18 => some (4, 4, 4, 0)
  | 0x14 => some (4, 4, 0, 0xFFFFFFFFFF)
  | 0x19 | 0x1A => some (4, 4, 0, 0x3F)
  | 0x1B => some (0, 4, 4, 0)
  | 0x1C => some (0, 4, 0, 0xFFFFFFFFFF)
  | 0x1D => some (4, 0, 0, 0x1FF)
  | 0x1E => some (4, 3, 4, 0xFFFF)
  | 0x20 => some (3, 4, 0, 0x800000001F)
  | 0x21 => some (3, 0, 0, 0x8000003FFF)
  | 0x22 => some (3, 0, 0, 0)
  | 0x30 => some (3, 0, 0, 0x8000007FFF)
  | 0x31 => some (3, 3, 0, 0xFFFFFFFFFF)
  | 0x32 => some (4, 3, 0, 0)
  | 0x40 => some (3, 3, 4, 0xFFFFFFFFFF)
  | 0x50 => some (0, 0, 0, 0)
  | 0x51 => some (0, 0, 0, 0x8000000000)
  | _ => none

/-- A register field of a form is in range. -/
def fieldFits (width v : Nat) : Bool := v < 2 ^ width

/-- The register fields and immediate bits of a form (R122), the operands that END does not use, and BUF's and LOAN's own rules
(R118, R130). -/
def fieldsOk (i : Word64) (f : Nat × Nat × Nat × Nat) : Bool :=
  let m := insImm i
  fieldFits f.1 (insDst i) && fieldFits f.2.1 (insSrcA i) && fieldFits f.2.2.1 (insSrcB i) && m &&& f.2.2.2 == m &&
    (insOpcode i != 0x01 || ((m.testBit 9 || insSrcA i == 0) && (m.testBit 8 || m % 256 == 0))) &&
    (insOpcode i != 0x30 || (m % 16 == 0 && insDst i + fieldAt m 12 3 ≤ 7)) &&
    (!(insOpcode i == 0x20 || insOpcode i == 0x21) || (1 ≤ m % 16 && m % 16 ≤ 11))

/-- The loan fields that an EXEC does not use are zero (R136). -/
def ExecFields.unusedOk (e : ExecFields) : Bool := (!e.noloan || e.hb == 0) && (e.hcValid || e.hc == 0)

/-- The windows and loans of an EXEC agree with its function (R136). -/
def windowsOk (e : ExecFields) (x : FnSpec) : Bool :=
  e.noloan == x.loans.isEmpty && e.unusedOk && e.hcValid == decide (x.loans.length ≥ 2) &&
    (if x.ins.isEmpty then e.ba == 0 else e.ba + x.ins.length ≤ 8) && (if x.outs.isEmpty then e.bd == 0 else e.bd + x.outs.length ≤ 8) &&
    (x.ins.isEmpty || x.outs.isEmpty || e.ba + x.ins.length ≤ e.bd || e.bd + x.outs.length ≤ e.ba)

/-- The function, selector and options of an EXEC as the installed microcode supports them. -/
def State.execSpec (s : State) (e : ExecFields) (classWord : Nat) : Option FnSpec :=
  (fnDef e.code).bind fun d => d.spec s e.sel e.opts classWord

/-- The lowest reason code that an instruction at `pc` of a program of `len` instructions breaks (R146). -/
def State.insReason (s : State) (len pc : Nat) (i : Word64) : Option Nat :=
  match insForm (insOpcode i) with
  | none => some 1
  | some f =>
    if !fieldsOk i f || (insOpcode i == 0x40 && !(execFields i).unusedOk) then some 2
    else
      let fn := if insOpcode i == 0x40 then
          match s.execSpec (execFields i) 0 with
          | none => some 5
          | some x => if windowsOk (execFields i) x then none else some 2
        else none
      if fn == some 2 then some 2
      else if insCond i ≥ 10 then some 3
      else if insOpcode i == 0x02 && !(0 ≤ (pc : Int) + 1 + brOffset i && (pc : Int) + 1 + brOffset i ≤ len) then some 4
      else fn

/-- The first failing instruction of a program with its reason (R146). -/
def State.staticFailure (s : State) (p : List Word64) : Option (Nat × Nat) :=
  (p.zipIdx.filterMap fun x => (s.insReason p.length x.2 x.1).map fun r => (x.2, r)).head?

/-- The instruction at pc. -/
def Job.ins (j : Job) : Word64 := j.prog.getD j.pc 0

def Job.reg (j : Job) (k : Nat) : Word64 := j.v.getD k 0
def Job.setReg (j : Job) (k : Nat) (x : Word64) : Job := { j with v := setAt j.v k x }
def Job.loanNo (j : Job) (k : Nat) : Option Nat := j.h.getD k none
def Job.buf (j : Job) (k : Nat) : Option Buf := j.b.getD k none

/-! ### Parameter block and descriptors (R116 to R118) -/

/-- Parameter word w; none beyond the block. -/
def Job.paramWord (j : Job) (w : Nat) : Option Word64 :=
  if 8 * w + 8 ≤ j.params.length then some (w64 (leAt j.params (8 * w) 8)) else none

/-- The scatter entries of a HOST descriptor of `n` entries at `off`. -/
def scatterAt (p : List Byte) (off : Nat) : Nat → List Scatter
  | 0 => []
  | n + 1 => { addr := leAt p off 8, len := leAt p (off + 8) 4 } :: scatterAt p (off + 16) n

/-- The descriptor at a byte offset of the parameter block with its size: HOST, TEMPLATE, INLINE_DATA, or a GALLERY descriptor whose
allocation is still to be made (allocation number 0). None where it breaks a rule of R117 or R118 or lies beyond the block. -/
def parseDescriptor (p : List Byte) (off : Nat) : Option (Buf × Nat) :=
  let kind := byteAt p off
  let count := leAt p (off + 2) 2
  let len := leAt p (off + 4) 4
  let at_ := leAt p (off + 8) 4
  if off + 16 > p.length || byteAt p (off + 1) != 0 || leAt p (off + 12) 4 != 0 then none
  else if kind == 1 then
    let parts := scatterAt p (off + 16) count
    let reserved := (List.range count).all fun k => leAt p (off + 16 + 16 * k + 12) 4 == 0
    if count = 0 || count > 64 || at_ != 0 || off + 16 + 16 * count > p.length || !reserved || parts.any (·.len == 0) ||
      (parts.map (·.len)).sum != len then none
    else some (.host parts, 16 + 16 * count)
  else if count != 0 || (kind != 3 && at_ != 0) then none
  else if kind == 2 then
    if len != 48 || off + 64 > p.length then none else some (.template (slice p (off + 16) 48), 64)
  else if kind == 3 then
    if at_ + len > p.length then none else some (.inline at_ len, 16)
  else if kind == 4 then
    if len = 0 || len > 65536 then none else some (.gallery 0 0 len, 16)
  else none

/-- `n` descriptors laid end to end from `off`. -/
def parseDescriptors (p : List Byte) (off : Nat) : Nat → Option (List Buf)
  | 0 => some []
  | n + 1 =>
    match parseDescriptor p off with
    | none => none
    | some (b, size) => (parseDescriptors p (off + size) n).map fun r => b :: r

/-- Length of a buffer in bytes. -/
def Buf.len : Buf → Nat
  | .host parts => (parts.map (·.len)).sum
  | .template b => b.length
  | .inline _ n => n
  | .gallery _ _ n => n

/-- The part of a scatter list from `off`, of `n` bytes. -/
def sliceParts : List Scatter → Nat → Nat → List Scatter
  | [], _, _ => []
  | p :: r, off, n =>
    if n = 0 then []
    else if off ≥ p.len then sliceParts r (off - p.len) n
    else
      let k := min (p.len - off) n
      { addr := p.addr + off, len := k } :: sliceParts r 0 (n - k)

/-- Part of a buffer; none of a TEMPLATE or beyond its length (R131). -/
def Buf.slice (b : Buf) (off n : Nat) : Option Buf :=
  if off + n > b.len then none
  else match b with
    | .host parts => some (.host (sliceParts parts off n))
    | .template _ => none
    | .inline at_ _ => some (.inline (at_ + off) n)
    | .gallery a o _ => some (.gallery a (o + off) n)

/-- Bytes of a buffer held in gallery memory, with their tags: INLINE_DATA and GALLERY; none of HOST and TEMPLATE. -/
def Job.gbytes (j : Job) : Buf → Option (List GByte)
  | .inline off n => some ((slice j.params off n).map fun b => { b })
  | .gallery a off n => some (slice (j.gmem.getD a []) off n)
  | _ => none

/-- Store bytes with one tag into a gallery buffer from its start. -/
def Job.gwrite (j : Job) (a off : Nat) (bytes : List Byte) (secret : Bool) (mark : Word64) : Job :=
  let old := j.gmem.getD a []
  let new := old.take off ++ (bytes.map fun b => { b, secret, mark := if secret then mark else 0 }) ++ old.drop (off + bytes.length)
  { j with gmem := setAt j.gmem a new }

/-! ### Gallery memory (R114, R115) -/

/-- Bytes staged in the open binding group. -/
def Job.staged (j : Job) : Nat := match j.group with | some g => (g.staged.map (·.bytes.length)).sum | none => 0

/-- Gallery memory of a job: parameter block, gallery buffers and staging. -/
def Job.memory (j : Job) : Nat := j.params.length + (j.gmem.map (·.length)).sum + j.staged

/-- What a job takes of its gallery's shared pool: a C0 job's first 8 KiB are its own. -/
def Job.pooled (j : Job) : Nat := if j.cls = 0 then j.memory - 8192 else j.memory

/-- The shared pool of a gallery. -/
def State.poolSize (s : State) (g : Nat) : Nat := 2 ^ 21 - 8192 * (16 * s.c0share g)

/-- A job as changed still fits its own limit and its gallery's pool. -/
def State.memoryFits (s : State) (n : Nat) (j : Job) : Bool :=
  let others := ((s.jobList.filter fun p => p.1 != n && p.2.gallery == j.gallery).map fun p => p.2.pooled).sum
  j.memory ≤ 65536 && (j.pooled = 0 || others + j.pooled ≤ s.poolSize j.gallery)

end Sys2Proof.Machine
end

