-- ==== Sys2Proof/Machine/Jobs.lean ====
section
/-! DEFINITION. A job's life: units of engines and their grants, the end of a job with its record and release, the completion of an
instruction, and the phases of an EXEC (R25, R35, R36, R127, R137 to R145). -/

namespace Sys2Proof.Machine

/-! ### Engine units (R29, R35, R36) -/

/-- The resource that a kind of unit is for a job on gallery `g` whose port is wing `w`'s. -/
def resAt (w : Wing) (g kind : Nat) : Resource :=
  match kind with
  | 0 => .lre g
  | 1 => .lsu g
  | 2 => .keccak g
  | 3 => .sha2 g
  | 4 => .bigNumber g
  | 5 => .bfe g
  | 6 => .aes g
  | 9 => .compat w
  | 30 => .maskedKeccak g
  | _ => .dmaRead w

/-- The resource that a kind of unit is for a job. -/
def resOf (j : Job) (kind : Nat) : Resource := resAt j.wing j.gallery kind

/-- The gallery and unit kind of a gallery resource. -/
def resUnit : Resource → Option (Nat × Nat)
  | .lre g => some (g, 0)
  | .lsu g => some (g, 1)
  | .keccak g | .maskedKeccak g => some (g, 2)
  | .sha2 g => some (g, 3)
  | .bigNumber g => some (g, 4)
  | .bfe g => some (g, 5)
  | .aes g => some (g, 6)
  | .compat _ | .dmaRead _ => none

/-- The location and kind of the units of a resource; none of a DMA channel. -/
def resLoc : Resource → Option (Nat × Nat)
  | .compat w => some (compatLoc w, Kind.compat)
  | .dmaRead _ => none
  | r => resUnit r

/-- The unit that a grant uses. -/
def Grant.unit (g : Grant) : Option UnitId := (resLoc g.res).map fun l => ⟨l.1, l.2, g.idx⟩

/-- The job runs in the unit, or holds it whole between two EXECs (R303). -/
def Grant.running (g : Grant) : Bool := !g.suspended && !g.idle

/-- Resources whose memory a job keeps from its first use to its end: LRE banks, LSU banks, BFE partitions, and the pair of big-number
engines (R189, R190, R286, R303). -/
def keepsBank : Resource → Bool
  | .lre _ | .lsu _ | .bfe _ | .bigNumber _ => true
  | _ => false

/-- A unit is of the lane kind of the resource: plain and masked Keccak lanes are told apart (R15, R233). -/
def State.laneFits (s : State) (r : Resource) (u : UnitId) : Bool :=
  match r with
  | .keccak _ => !(s.unit u).masked
  | .maskedKeccak _ => (s.unit u).masked
  | _ => true

/-- Work that a resource can hold at once, from its units in service: 32 issue contexts of an AES pipeline (R329), 32 DMA read channels
(R34), else one for each unit. -/
def State.capacity (s : State) (r : Resource) : Nat :=
  match resLoc r with
  | none => 32
  | some (loc, k) =>
    if k = Kind.aes then (if s.serviceCount loc k = 0 then 0 else 32)
    else ((unitsOf loc k).filter fun u => (s.unit u).svc == .inService && s.laneFits r u).length

/-- Units of a resource held by jobs that run in it. -/
def State.usedUnits (s : State) (r : Resource) : Nat := (s.work.grants.filter fun g => g.res == r && g.running).length

/-! COMPAT pages hold cluster cores too; in the list of grants page `p` has the number 0x100000 + p. -/

def pageJob (p : Nat) : Nat := 0x100000 + p

/-- The wing and class of a page (R350, R352). -/
def State.pageWing (s : State) (p : Nat) : Wing := if bit32 (s.pageOwner p) 10 then .east else .west
def State.pageClass (s : State) (p : Nat) : Nat := bits32 (s.page p).ctrl 7 2

/-- A page's operation waits for a core. -/
def State.pageWaits (s : State) (p : Nat) : Bool :=
  (s.page p).busy && !(s.page p).waiting && !s.work.grants.any fun g => g.job == pageJob p

/-- A page's operation of a class above `cls` waits for a unit of the resource. -/
def State.clusterWaits (s : State) (r : Resource) (cls : Nat) : Bool :=
  match r with
  | .compat w => (List.range 64).any fun p => s.pageWaits p && s.pageWing p == w && s.pageClass p < cls
  | _ => false

/-- The class of a job's work in a unit; LMS.KEYGEN and XMSS.KEYGEN generate trees, which is C3 work (R265; DEDUCED, log entry 130). -/
def State.jobClass (s : State) (n : Nat) : Nat :=
  match s.job n with
  | some j => if runsFn 0x0501 j.gallery j || runsFn 0x0601 j.gallery j then 3 else j.cls
  | none => if n ≥ 0x200000 then 3 else if n ≥ 0x100000 then s.pageClass (n - 0x100000) else 3

/-- An EXEC waits for a unit of the resource. -/
def waitsFor (j : Job) (r : Resource) : Bool :=
  match j.exec with
  | some e => e.stage == .waitUnit && e.need.any fun x => resOf j x.1 == r
  | none => false

/-- A unit of a resource can take work of job `n`, of class `cls`: it is in service, of the lane kind, not being wiped (R29), runs nothing, and
where jobs keep banks in it, the bank of the class is free (R189). -/
def State.unitFree (s : State) (n cls : Nat) (r : Resource) (u : UnitId) : Bool :=
  (s.unit u).svc == .inService && s.laneFits r u && !(s.gal u.loc).wiping.contains (u.kind, u.idx) &&
    !s.work.grants.any fun g => g.unit == some u && (g.running || (keepsBank r && g.job != n && s.jobClass g.job == cls))

/-- The indices of the units of a resource that can take work of job `n`, the lowest first; issue contexts of a pipeline and DMA channels
carry no number. -/
def State.freeUnits (s : State) (n cls : Nat) (r : Resource) : List Nat :=
  match resLoc r with
  | none => List.replicate (s.capacity r - s.usedUnits r) 0
  | some (loc, k) =>
    if k = Kind.aes then List.replicate (s.capacity r - s.usedUnits r - ((s.gal loc).wiping.filter fun x => x.1 = k).length) 0
    else ((unitsOf loc k).filter (s.unitFree n cls r)).map (·.idx)

/-- What a job keeps of a resource from its earlier EXECs. -/
def State.kept (s : State) (n : Nat) (r : Resource) : List Grant := s.work.grants.filter fun g => g.job == n && g.res == r

/-- Another job runs in a grant's unit. -/
def State.unitBusy (s : State) (g : Grant) : Bool := s.work.grants.any fun x => x.seq != g.seq && x.running && x.unit == g.unit

/-- `c` units of a resource are there for job `n`: those that it keeps can run it, and enough others are free. -/
def State.suffices (s : State) (n cls : Nat) (r : Resource) (c : Nat) : Bool :=
  let kept := s.kept n r
  ((kept.take c).all fun g => g.running || (g.idle && !s.unitBusy g)) && c ≤ kept.length + (s.freeUnits n cls r).length

/-- `c` units of a resource may be granted to job `n` now: they suffice, no higher class waits, no earlier request of the class, and
no suspended job of its class or a higher one (R36, R330). What C0 leaves of its DMA channels is lent (R34). -/
def State.mayTake (s : State) (n : Nat) (j : Job) (r : Resource) (c : Nat) : Bool :=
  let began (x : Job) : Nat := match x.exec with | some e => e.began | none => 0
  s.suffices n j.cls r c &&
    !(s.jobList.any fun p => p.1 != n && waitsFor p.2 r &&
      (p.2.cls < j.cls || (p.2.cls == j.cls && (began p.2 < began j || (began p.2 == began j && p.1 < n))))) &&
    !s.clusterWaits r j.cls && !(s.work.grants.any fun g => g.res == r && g.suspended && s.jobClass g.job ≤ j.cls)

/-- One more unit granted to job `n`. -/
def State.addGrant (s : State) (n cls : Nat) (r : Resource) : State :=
  let g : Grant := { res := r, job := n, seq := s.work.grantSeq, idx := (s.freeUnits n cls r).headD 0 }
  { s with work := { s.work with grants := s.work.grants ++ [g], grantSeq := s.work.grantSeq + 1 } }

/-- `c` units of a resource taken: those that the job keeps first. -/
def State.takeUnits (s : State) (n cls : Nat) (r : Resource) (c : Nat) : State :=
  let kept := s.kept n r
  let use := (kept.take c).map (·.seq)
  let wake (g : Grant) : Grant := if use.contains g.seq then { g with idle := false } else g
  let s := { s with work := { s.work with grants := s.work.grants.map wake } }
  s.forAll (List.range (c - kept.length)) fun s _ => s.addGrant n cls r

/-- Engine memories that a release wipes: LRE and LSU banks, big-number slots, BFE memory, pipeline contexts (R29, R189, R190). -/
def wipedKinds : List Nat := [Kind.lre, Kind.lsu, Kind.bigNumber, Kind.bfe, Kind.aes]

/-- The unit of a grant is released: its engine starts its wipe (R29, log entry 33), and a suspended pipeline context frees its store entry. -/
def State.releaseGrant (s : State) (g : Grant) : State :=
  let s := { s with work := { s.work with grants := s.work.grants.filter fun x => x.seq != g.seq } }
  match resUnit g.res with
  | none => s
  | some (gal, k) =>
    let x := s.gal gal
    let x := if g.suspended && k == Kind.aes then { x with ctxStore := x.ctxStore - 1 } else x
    s.setGal gal (if wipedKinds.contains k then { x with wiping := x.wiping ++ [(k, g.idx)] } else x)

/-- Every unit of a job is released, or those of one kind of resource. -/
def State.releaseUnits (s : State) (n : Nat) (p : Resource → Bool) : State :=
  s.forAll (s.work.grants.filter fun g => g.job == n && p g.res) fun s g => s.releaseGrant g

/-- An EXEC of a job is over: it keeps its banks and partitions without running there, and its pair of big-number engines whole, to its
end (R189, R190, R286, R303); every other unit is released. -/
def State.restUnits (s : State) (n : Nat) : State :=
  let s := s.releaseUnits n fun r => !keepsBank r
  let rest (g : Grant) : Grant :=
    match g.res with
    | .bigNumber _ => g
    | _ => if g.job == n then { g with suspended := false, idle := true } else g
  { s with work := { s.work with grants := s.work.grants.map rest } }

/-- A job is suspended in some unit (R35). -/
def State.isSuspended (s : State) (n : Nat) : Bool := s.work.grants.any fun g => g.job == n && g.suspended

/-! ### Host writes -/

/-- The DMA writes that carry bytes to scatter entries in order. -/
def hostWrites : List Scatter → List Byte → List StagedWrite
  | [], _ => []
  | p :: r, bs => if bs.isEmpty then [] else { addr := p.addr, bytes := bs.take p.len } :: hostWrites r (bs.drop p.len)

/-- Writes issued at a port in order. -/
def State.issue (s : State) (w : Wing) (l : List StagedWrite) : State := s.forAll l fun s x => s.writeHost w x.addr x.bytes

/-! ### The end of a job (R95, R129, R145) -/

/-- How a job's end is reported: a record; none, for an aborted job (R69); or a record held for the report phase (R423). -/
inductive EndHow where
  | record | silent | frozen
  deriving DecidableEq, Repr

/-- The binding group of a job is discarded: staging dropped, reservations released (R140, R142). -/
def State.discardGroup (s : State) (j : Job) : State :=
  match j.group with
  | none => s
  | some g => s.forAll g.accessions fun s p => s.releaseReservation p

/-- The queue number that a log record names for a source: a host queue's own; of a Docent core's queue, bit 15 set, the wing in bit 14, the
core in bits [7:4] and the queue in bits [3:0]. The spec gives a core's queue no number there (DESIGN CHOICE, log entry 103). -/
def srcQueue : Src → Nat
  | .host _ q => qselNum q
  | .docent w c q => 0x8000 + 0x4000 * wingIdx w + 16 * c + q

/-- The opcode that a job stands at: END's past the end of the program, which acts as an END (R128). -/
def Job.opcode (j : Job) : Nat := if !j.prog.isEmpty && j.pc ≥ j.prog.length then 0x01 else insOpcode j.ins

/-- The detail of a job's log record: tag, queue, program number, index, opcode, reason (R146). Their order and widths, and 0xFFFF for an inline
program, are the model's (DESIGN CHOICE, log entry 124). -/
def jobDetail (j : Job) (reason : Nat) : List Byte :=
  leBytes 4 j.tag.toNat ++ leBytes 2 (srcQueue j.src) ++ leBytes 2 (j.progNo.getD 0xFFFF) ++ leBytes 2 j.pc ++ [byte j.opcode, byte reason]

/-- Scatter entries beyond the first `n` bytes. -/
def dropParts : List Scatter → Nat → List Scatter
  | [], _ => []
  | p :: r, n => if n < p.len then { addr := p.addr + n, len := p.len - n } :: r else dropParts r (n - p.len)

/-- The writes of 2 KiB segment `k` of a release (R336), and the segments of a plaintext. -/
def segmentWrites (parts : List Scatter) (bs : List Byte) (k : Nat) : List StagedWrite :=
  hostWrites (dropParts parts (2048 * k)) (slice bs (2048 * k) 2048)
def segmentCount (bs : List Byte) : Nat := (bs.length + 2047) / 2048

/-- The first `n` segments of a release written in ascending order, but the one whose write fails (R336, R338). -/
def State.releaseSegments (s : State) (w : Wing) (parts : List Scatter) (bs : List Byte) (n : Nat) (fails : Option Nat) : State :=
  s.forAll ((List.range n).filter fun k => fails != some k) fun s k => s.issue w (segmentWrites parts bs k)

/-- The segments that a release has written overwritten with zeros in order; one whose zero write fails is logged and the others go on (R337). -/
def State.zeroSegments (s : State) (j : Job) (parts : List Scatter) (bs : List Byte) (st : Byte) (l : List Nat) (zeroFails : Nat → Bool) : State :=
  s.forAll l fun s k =>
    if zeroFails k then s.log 1 st 0 (jobDetail j 0 ++ leBytes 3 k) else s.issue j.wing (segmentWrites parts (zeros bs.length) k)

/-- A release of `n` segments that ends with a status: all but the failed one are zeroed (R337, R338). The record's flags. -/
def State.scrub (s : State) (j : Job) (parts : List Scatter) (bs : List Byte) (st : Byte) (n : Nat) (fails : Option Nat) (zeroFails : Nat → Bool) :
    BitVec 16 × State :=
  let l := (List.range n).filter fun k => fails != some k
  let flag := if l.any zeroFails then Rf.unscrubbed else if st == St.badBuffer then 0 else Rf.scrubbed
  (flag ||| Rf.releasedUnverified, s.zeroSegments j parts bs st l zeroFails)

/-- What a progressive release leaves when the job ends during it (R337, R338): a free number of 2 KiB segments written, and their
zeroing where the status calls for it. The flags for the record, and the state. -/
def State.endRelease (s : State) (j : Job) (st : Byte) (how : EndHow) (zeroFails : Nat → Bool) : BitVec 16 × State :=
  match j.exec with
  | none => (0, s)
  | some e =>
    match e.result, j.buf (execFields j.ins).bd with
    | some r, some (.host parts) =>
      if r.released = 0 then (0, s)
      else
        let d := s.free
        let plain := (r.outs.getD 0 {}).bytes
        let n := min d.1 (segmentCount plain)
        let fails := if st == St.badBuffer then some (n - 1) else none
        let s := d.2.releaseSegments j.wing parts plain n fails
        if how == .silent || (isSuppressed st && how != .frozen) then (Rf.releasedUnverified, s)
        else if how == .frozen then (Rf.unscrubbed ||| Rf.releasedUnverified, s)
        else s.scrub j parts plain st n fails zeroFails
    | some r, _ => (if r.released = 0 then 0 else Rf.releasedUnverified, s)
    | none, _ => (0, s)

/-- An event from outside that ends a job is recorded as it reaches the job, whichever status the job reports (R219; log entry 128). -/
def State.logEnding (s : State) (n : Nat) (st : Byte) : State :=
  match s.job n with
  | some j => s.log 1 st 0 (jobDetail j 0)
  | none => s

/-- A record delivered to its queue. -/
def State.deliver (s : State) (src : Src) (r : Record) (irq c0 : Bool) : State :=
  match src with
  | .host f q => s.putRecord f q r irq c0
  | .docent w c q => s.putDocRecord w c q r

/-- The job's DMA leaves under a stream in the Secure state where it must: its collection's policy asks for one (R63), or one that it used has
failed (R64). -/
def State.dmaOk (s : State) (j : Job) : Bool :=
  match j.src with
  | .host f _ => !j.streamLost && s.ideOk f
  | .docent _ _ _ => true

/-- A record of a job that lost its stream can still be written: another Secure stream carries it (R64). -/
def State.carried (s : State) (j : Job) : Bool :=
  match j.src with
  | .host f _ => !j.streamLost || (s.port f.port).ideAssoc.any fun a => a.2 == f.vf && (s.port f.port).ideSecure.contains a.1
  | .docent _ _ _ => true

/-- A job without a record is counted while its queue is being deleted (R92). -/
def State.countSilent (s : State) (src : Src) : State :=
  match src with
  | .host f q => let x := s.queue f q; if x.deleting then s.setQueue f q { x with endedSilently := x.endedSilently + 1 } else s
  | .docent _ _ _ => s

/-- The entries that an aborted job had created stand, and the log records them (R69). -/
def State.logMade (s : State) (j : Job) : State :=
  s.forAll j.made fun s h => s.log 6 0 (dieSrc .curatorDie) (leBytes 8 h.toNat ++ leBytes 4 j.tag.toNat)

/-- A wing that has become quiet notes the time (R519). -/
def State.noteQuiet (s : State) (w : Wing) : State :=
  if s.jobList.any fun p => galleryWing p.2.gallery == w then s
  else match w with
    | .west => { s with power := { s.power with quietW := s.now } }
    | .east => { s with power := { s.power with quietE := s.now } }

/-- A context of a gallery has freed: the job of the highest class that waits for one, placed first, takes it. -/
def State.unpark (s : State) (g : Nat) : State :=
  let l := s.jobList.filter fun p => p.2.gallery == g && p.2.parked
  let first := l.foldl (fun b p => match b with
    | none => some p
    | some x => if p.2.cls < x.2.cls || (p.2.cls == x.2.cls && p.1 < x.1) then some p else some x) (none : Option (Nat × Job))
  match first with
  | some p => s.putJob p.1 { p.2 with parked := false }
  | none => s

/-- The job with this number ends with a status (R145): its record, then stage 9: group, loans and units are given up, and the context
frees. `reason` is that of BAD_PROGRAM; `result` that of END. -/
def State.endJobWith (s : State) (n : Nat) (st : Byte) (reason : Nat) (result : Word64) (how : EndHow) (zeroFails : Nat → Bool) : State :=
  match s.job n with
  | none => s
  | some j =>
    let rel := s.endRelease j st how fun k => zeroFails k || !s.dmaOk j
    let s := rel.2
    let remote := if galleryWing j.gallery == j.wing then 0 else Rf.remote
    let c0 : BitVec 16 := if j.cls = 0 && s.c0Fails j.wing j.coll then Rf.c0Unbound else 0
    let flags := j.flags ||| rel.1 ||| remote ||| c0 ||| (if j.f.getLsbD 6 then Rf.truncated else 0)
    let s := if [St.badProgram, St.badBuffer, St.accessDenied].contains st && how != .silent then s.log 1 st 0 (jobDetail j reason) else s
    let r : Record := { tag := j.tag, status := st, verdict := endVerdict j.f st, flags,
                        outputLength := if isSuppressed st || j.phase == .release then 0 else j.outLen, epoch := j.epoch, result, elapsedNs := s.now - j.arrival }
    let s := s.discardGroup j
    let s := s.setJob n none
    let s := match how with
      | .record =>
        if s.carried j && !j.noRecord then s.deliver j.src r j.irq (j.cls == 0)
        else (s.countSilent j.src).log 1 st 0 (leBytes 4 j.tag.toNat ++ leBytes 2 (srcQueue j.src))
      | .silent => (s.countSilent j.src).logMade j
      | .frozen =>
        let x : FrozenRec := { src := j.src, coll := j.coll, cls := j.cls, tag := j.tag, epoch := j.epoch, arrival := j.arrival, flags, irq := j.irq }
        { s with tamper := { s.tamper with frozenJobs := s.tamper.frozenJobs ++ [x] } }
    let s := s.forAll (j.h.filterMap id) fun s k => s.returnLoan k
    let s := s.releaseUnits n fun _ => true
    let orders := s.cat.orders.map fun o => if o.job == some n then { o with job := none } else o
    let s := { s with cat := { s.cat with orders } }
    (if j.parked then s else s.unpark j.gallery).noteQuiet (galleryWing j.gallery)

def State.endJob (s : State) (n : Nat) (st : Byte) : State := s.endJobWith n st 0 0 .record fun _ => false
def State.badProgram (s : State) (n reason : Nat) : State := s.endJobWith n St.badProgram reason 0 .record fun _ => false
def State.abortJob (s : State) (n : Nat) : State := s.endJobWith n St.ok 0 0 .silent fun _ => false

/-- Every job that satisfies `p` ends. -/
def State.endJobs (s : State) (p : Nat → Job → Bool) (st : Byte) : State :=
  s.forAll (s.jobList.filter fun x => p x.1 x.2) fun s x => s.endJob x.1 st
def State.abortJobs (s : State) (p : Nat → Job → Bool) : State :=
  s.forAll (s.jobList.filter fun x => p x.1 x.2) fun s x => s.abortJob x.1

/-- An outside event's status reaches a job at its next instruction boundary, or within an EXEC at the engine's next yield point, which comes
before the EXEC completes (R145, R147); a revocation reaches it within the release of a group (R141). Where it waits, the higher rank of R219
stands. -/
def State.endAtBoundary (s : State) (n : Nat) (st : Byte) : State :=
  match s.job n with
  | none => s
  | some j =>
    let s := s.logEnding n st
    let keep : Bool := match j.ending with | some old => decide (statusRank old ≤ statusRank st) | none => false
    if keep then s
    else if j.phase == .ready || j.phase == .exec || (j.phase == .release && (st == St.keyRevoked || st == St.keyParentInvalid)) then s.endJob n st
    else s.putJob n { j with ending := some st }

/-! ### Completion of an instruction (R127, R128) -/

/-- END ends the job (R129): with no operands, or with the status and result given. -/
def State.endProgram (s : State) (n : Nat) (st : Option Byte) (result : Word64) : State :=
  match s.job n with
  | none => s
  | some j =>
    if j.group.isSome then s.badProgram n 8
    else s.endJobWith n (endStatus j.f (st.getD j.st)) 0 result .record fun _ => false

/-- The job stands at a boundary with pc at `pc`: an event that waited ends it, and so does the end of the program (R128, R147). -/
def State.atBoundary (s : State) (n : Nat) (j : Job) (pc : Nat) : State :=
  let s := s.putJob n { j with pc, phase := .ready, exec := none }
  match j.ending with
  | some st => s.endJob n st
  | none => if pc ≥ j.prog.length then s.endProgram n none 0 else s

/-- pc moves to the next instruction. -/
def State.advance (s : State) (n : Nat) (j : Job) : State := s.atBoundary n j (j.pc + 1)

/-- An instruction marked "Sets S" completes with a status (R127): success goes on; so does a continuable status with cont. -/
def State.complete (s : State) (n : Nat) (j : Job) (st : Byte) (cont : Bool) : State :=
  let j := { j with st }
  if isSuccess st || (isContinuable st && cont) then s.advance n j
  else (s.putJob n j).endJob n st

/-- Job `n` executes the instruction at its pc, of opcode `op`: counted against the budget, carried out by `f` if its condition holds,
else passed over (R114, R124). Nothing happens while the job is not at a boundary, its wing's clocks have stopped, or the device is frozen. -/
def State.runIns (s : State) (n op : Nat) (f : Job → State → State) : State :=
  match s.job n with
  | none => s
  | some j =>
    if s.tamper.frozen || j.parked || !s.wingRuns (galleryWing j.gallery) || j.phase != .ready || j.pc ≥ j.prog.length || insOpcode j.ins != op || j.executed ≥ 4096 then s
    else match j.ending with
      | some st => s.endJob n st
      | none =>
        let j := { j with executed := j.executed + 1 }
        if condHolds (insCond j.ins) j.st j.f then f j (s.putJob n j) else s.advance n j

/-! ### An EXEC from its units to its computation (R137, R270, R368) -/

/-- The generators an EXEC draws on. -/
def State.rngReady (s : State) (j : Job) (began : Nat) (r : Rng) : Bool :=
  match r with
  | .keyGen => s.drbgOk (s.kgDrbg j.gallery)
  | .host => s.drbgOk (s.hostDrbg j.gallery)
  | .hostFresh => let d := s.hostDrbg j.gallery; s.drbgOk d && (s.drbg d).wanted.isNone && (s.drbg d).reseededAt ≥ began
  | .mask => s.maskOk (.gallery j.gallery)
  | .clusterMask => s.maskOk (.cluster j.wing)

/-- The loan registers that an EXEC names: hb, then hc. -/
def loanRegs (e : ExecFields) : List Nat := (if e.noloan then [] else [e.hb]) ++ (if e.hcValid then [e.hc] else [])

/-- The loans of an EXEC's registers. -/
def State.execLoans (s : State) (j : Job) (e : ExecFields) : List Loan := ((loanRegs e).filterMap j.loanNo).filterMap s.loan

/-- The buffers of an EXEC's windows. -/
def inputBufs (j : Job) (e : ExecFields) (x : FnSpec) : List (Option Buf) := (List.range x.ins.length).map fun k => j.buf (e.ba + k)
def outputBufs (j : Job) (e : ExecFields) (x : FnSpec) : List (Option Buf) := (List.range x.outs.length).map fun k => j.buf (e.bd + k)

/-- The class_word that a function's description depends on: the first loan's, or the first template output's (R259). -/
def execClassWord (loans : List Loan) (j : Job) (e : ExecFields) : Nat :=
  match loans with
  | l :: _ => l.record.classWord.toNat
  | [] => match (List.range 8).filterMap (fun k => match j.buf (e.bd + k) with | some (.template b) => some b | _ => none) with
    | b :: _ => (Template.parse b).classWord
    | [] => 0

/-- The instance that one of a job's generators is. -/
def State.rngDrbg (s : State) (j : Job) : Rng → Option Drbg
  | .keyGen => some (s.kgDrbg j.gallery)
  | .host | .hostFresh => some (s.hostDrbg j.gallery)
  | .mask | .clusterMask => none

/-- The description of the EXEC at a job's pc as it stands now. -/
def State.specNow (s : State) (j : Job) : Option FnSpec :=
  let e := execFields j.ins
  (s.view j).execSpec e (execClassWord (s.execLoans j e) j e)

/-- The byte that the group's latest staged write holds for a host address. -/
def stagedByte (g : Option Group) (a : Nat) : Option Byte :=
  match g with
  | none => none
  | some g =>
    match g.staged.reverse.find? fun w => w.addr ≤ a && a < w.addr + w.bytes.length with
    | some w => w.bytes[a - w.addr]?
    | none => none

/-- The host reads of an EXEC's inputs, one for each scatter entry; what the group has staged is not read (R139). -/
def execReads (j : Job) (bufs : List (Option Buf)) : List ReadReq :=
  bufs.zipIdx.flatMap fun p =>
    match p.1 with
    | some (.host parts) => parts.map fun x =>
        let st := (List.range x.len).map fun i => stagedByte j.group (x.addr + i)
        { input := p.2, addr := x.addr, len := x.len, got := if st.all (·.isSome) then some (st.filterMap id) else none }
    | _ => []

/-- The bytes of an input: from the host reads, overlaid with staged bytes, or from gallery memory. -/
def inputBytes (j : Job) (reads : List ReadReq) (k : Nat) (b : Option Buf) : List GByte :=
  match b with
  | some (.host _) => (reads.filter (·.input == k)).flatMap fun r =>
      (r.got.getD []).zipIdx.map fun p => { b := (stagedByte j.group (r.addr + p.2)).getD p.1 }
  | some x => (j.gbytes x).getD []
  | none => []

/-- The destination of an output buffer. -/
def outDest (b : Option Buf) : OutDest :=
  match b with
  | some (.host parts) => .host (parts.map (·.len)).sum
  | some (.template t) => .template (Template.parse t)
  | some (.gallery _ _ n) => .gallery n
  | _ => .host 0

/-- An EXEC that has ended without output: units released, and the instruction completes (R137, R139). -/
def State.failExec (s : State) (n : Nat) (st : Byte) : State :=
  let s := s.restUnits n
  match s.job n with
  | none => s
  | some j =>
    let j := { j with group := j.group.map fun g => if g.failed == St.ok && !isSuccess st then { g with failed := st } else g }
    s.complete n j st (insCont j.ins)

def State.setStage (s : State) (n : Nat) (j : Job) (e : Exec) (st : ExecStage) : State := s.putJob n { j with exec := some { e with stage := st } }

/-- How many units of a kind an EXEC takes: a second LRE for its checks only where the gallery has two in service (R216). -/
def State.takes (s : State) (j : Job) (x : Nat × Nat) : Nat :=
  if x.1 = Kind.lre then min x.2 (max 1 (s.capacity (resOf j x.1))) else x.2

/-- Whether each of an EXEC's units can be granted now; a job whose context is reclaimed takes none. -/
def State.unitsFree (s : State) (n : Nat) (j : Job) (e : Exec) : Bool :=
  !j.parked && e.need.all fun x => s.mayTake n j (resOf j x.1) (s.takes j x)

/-- The first record of an EXEC's loans whose material or tag the desk finds corrupt as it delivers it; an ENCAPSK of the resident key reads
the public-key buffer instead (R152, R294). -/
def State.badDelivery (s : State) (j : Job) : Option CatRecord :=
  let e := execFields j.ins
  ((s.execLoans j e).map (·.record)).find? fun r => r.corrupt && !s.readsBuffer j.gallery e.code r

/-- The reads by which a BFE streams the public key of an ENCAPSK that is not resident, from the entry's extent through the gate (R294, R386). -/
def State.bfeReads (s : State) (j : Job) : Byte × State :=
  match s.execLoans j (execFields j.ins) with
  | l :: _ =>
    if (execFields j.ins).code == 0x0704 && !s.readsBuffer j.gallery 0x0704 l.record then s.gateReads (extentTiles (galleryWing j.gallery) l.record)
    else (St.ok, s)
  | [] => (St.ok, s)

/-- The slots of each engine of a pair that a job of a class holds: eight, of the 32 that the longest slots leave (R305, R306; the numbers are the
model's, log entry 112). -/
def classSlots (cls : Nat) : List Nat := (List.range 8).map (8 * cls + ·)

/-- What the loan desk's delivery leaves in a unit: in its key registers, an LRE's for seed-form keys, or in the job's bank (R188, R302). -/
def deliveredMem (r : Resource) (cls : Nat) (keys : List (List Byte)) : EngineMem :=
  match r with
  | .lre _ => { keyRegs := (keys.filter fun k => k.length ≤ 64).flatten, secretOps := keys.filter fun k => 64 < k.length }
  | .lsu _ | .bfe _ => { secretOps := keys }
  | .bigNumber _ => { keyRegs := keys.flatten, slots := classSlots cls }
  | _ => {}

/-- The operands and results of step 5 in a unit's memory: the secret ones in the job's bank, the others in a big-number engine's public operand
buffer (R305). -/
def EngineMem.operands (m : EngineMem) (r : Resource) (secret others : List (List Byte)) : EngineMem :=
  match r with
  | .lre _ | .lsu _ | .bfe _ => { m with secretOps := m.secretOps ++ secret }
  | .bigNumber _ => { m with secretOps := m.secretOps ++ secret, publicOps := m.publicOps ++ others }
  | _ => m

/-- The memory of the units that work for a job changes. -/
def State.modMem (s : State) (n : Nat) (f : Resource → EngineMem → EngineMem) : State :=
  { s with work := { s.work with grants := s.work.grants.map fun g => if g.job == n && !g.idle then { g with mem := f g.res g.mem } else g } }

/-- A private key that needs longer slots than the gallery's ends the EXEC before any engine time (R306). Units granted, the keys delivered, then host
reads issued (R137 steps 4 and 5); reads that no Secure stream may carry end the job (R63, R64). An EXEC that waits here while its gallery loses the
keyed capability waits on (R234 asks as it begins; DESIGN CHOICE, log entry 139). -/
def State.tryUnits (s : State) (n : Nat) : State :=
  match s.job n with
  | some j =>
    match j.exec with
    | some e =>
      if e.stage == .waitUnit && slotModulus (s.gal j.gallery).slotLen < e.slotBits then s.failExec n St.resourceExhausted
      else if e.stage != .waitUnit || !s.unitsFree n j e then s
      else if let some r := s.badDelivery j then (s.logDelivery (galleryWing j.gallery) r).endJob n St.storeroomIntegrity
      else if (s.bfeReads j).1 != St.ok then (s.bfeReads j).2.endJob n (s.bfeReads j).1
      else if e.reads.any (·.got.isNone) && !s.dmaOk j then s.endJob n St.accessDenied
      else
        let s := (s.bfeReads j).2
        let s := s.forAll e.need fun s x => s.takeUnits n j.cls (resOf j x.1) (s.takes j x)
        let keys := (s.execLoans j (execFields j.ins)).map fun l => l.record.material
        let s := s.modMem n fun r _ => deliveredMem r j.cls keys
        let s := s.forAll (e.reads.zipIdx.filter fun r => r.1.got.isNone) fun s r => s.readHost j.wing r.1.addr r.1.len (.input n r.2)
        s.setStage n j e .reading
    | none => s
  | none => s

/-- The units of an EXEC: those of its function, the masked ones where an input is secret (R233), and a DMA read channel where it
reads host memory. -/
def execNeed (x : FnSpec) (secret reads : Bool) (checks : List Nat) : List (Nat × Nat) :=
  let own := if secret && !x.secretUnits.isEmpty then x.secretUnits else x.units
  own ++ (checks.filter fun k => own.all (·.1 != k)).map (·, 1) ++ (if reads then [(dmaKind, 1)] else [])

/-- The engines that form the check values of the keys an EXEC makes: the engine of each key's class (R328, R332). -/
def Job.checkUnits (j : Job) (x : FnSpec) : List Nat :=
  ((outputBufs j (execFields j.ins) x).filterMap fun b =>
    match b with
    | some (.template t) =>
      let cls := (Template.parse t).cls
      if cls == 0x01 || cls == 0x40 then some Kind.aes else if cls == 0x02 then some Kind.compat else none
    | _ => none).eraseDups

/-- An input that is read is secret (R120). -/
def Job.readsSecret (j : Job) (x : FnSpec) : Bool :=
  ((inputBufs j (execFields j.ins) x).filterMap id).any fun b => ((j.gbytes b).getD []).any (·.secret)

/-- What the EXEC of a job asks of host memory and of units, for a function of a description (R36, R139, R233). -/
def Job.reads (j : Job) (x : FnSpec) : List ReadReq := execReads j (inputBufs j (execFields j.ins) x)
def Job.need (j : Job) (x : FnSpec) : List (Nat × Nat) := execNeed x (j.readsSecret x) ((j.reads x).any (·.got.isNone)) (j.checkUnits x)

/-- The generators that an EXEC draws on (R191, R233, R365). -/
def Exec.rngs (e : Exec) (x : FnSpec) : List Rng := x.rngs ++ (if e.secret then x.secretRngs else [])

/-- The EXEC's work turns out secret once its context has been read: the context is one that the sealer made, and its secret flag is set (R245). A
keyed function, which runs on masked lanes from the start, prefers no kind. -/
def State.turnsSecret (s : State) (j : Job) (e : Exec) (x : FnSpec) : Bool :=
  match x.context with
  | some k =>
    let b := raw (inputBytes j e.reads k ((inputBufs j (execFields j.ins) x).getD k none))
    x.prefers.isSome && !e.secret && (byteAt b 34).testBit 3 && (s.openSealed b).isSome
  | none => false

/-- It then runs on masked lanes, for which it waits; a gallery without the keyed capability ends it at once (R234, R245). -/
def State.turnSecret (s : State) (n : Nat) (j : Job) (e : Exec) (x : FnSpec) : State :=
  match x.prefers with
  | some k =>
    if s.keyed j.gallery k then (s.restUnits n).setStage n j { e with secret := true, need := execNeed x true false (j.checkUnits x) } .waitUnit
    else
      let kind := if k then Kind.keccak else Kind.sha2
      (s.log 2 St.engineFenced (unitSrc ⟨j.gallery, kind, 0⟩) (leBytes 2 (execFields j.ins).code ++ [byte kind, 1])).endJob n St.engineFenced
  | none => s

/-- Inputs complete: the DMA channel is given up and the EXEC waits for its generators, or first for masked lanes. -/
def State.tryReads (s : State) (n : Nat) : State :=
  match s.job n with
  | some j =>
    match j.exec with
    | some e =>
      if e.stage != .reading || e.reads.any (·.got.isNone) then s
      else
        let t := s.releaseUnits n fun r => r == .dmaRead j.wing
        match s.specNow j with
        | some x => if s.turnsSecret j e x then t.turnSecret n j e x else t.setStage n j e (.waitEntropy s.now)
        | none => t.setStage n j e (.waitEntropy s.now)
    | none => s
  | none => s

/-- The issuer's blocks of a wing (R270). -/
def LedgerSlot.blocks (x : LedgerSlot) : Wing → List LeafBlock
  | .west => x.blocksW
  | .east => x.blocksE
/-- next_unreserved as of a wing's latest grant (R272). -/
def LedgerSlot.seen (x : LedgerSlot) : Wing → Nat
  | .west => x.seenW
  | .east => x.seenE
def LedgerSlot.setBlocks (x : LedgerSlot) (w : Wing) (l : List LeafBlock) : LedgerSlot :=
  match w with
  | .west => { x with blocksW := l }
  | .east => { x with blocksE := l }

/-- Unissued leaves of a list of blocks. -/
def unissued (l : List LeafBlock) : Nat := (l.map fun b => b.stop - b.next).sum

/-- The leaf that a wing's issuer issues next: from its first block with leaves, or the next to be reserved. -/
def LedgerSlot.nextLeaf (x : LedgerSlot) (w : Wing) : Nat :=
  match (x.blocks w).find? fun b => b.next < b.stop with
  | some b => b.next
  | none => x.next

/-- The tree cache covers a leaf (R267). -/
def LedgerSlot.covers (x : LedgerSlot) (leaf : Nat) : Bool :=
  !x.rebuilding && x.coverFrom ≤ leaf && leaf < x.coverTo && x.instances.all (leaf < ·)

/-- One leaf issued from the first block that has one. -/
def issueFrom : List LeafBlock → Option (Nat × List LeafBlock)
  | [] => none
  | b :: r => if b.next < b.stop then some (b.next, { b with next := b.next + 1 } :: r) else issueFrom r

/-- The tile of a wing's copy of the tree cache that holds a slot's nodes for a leaf (R266). -/
def State.treeTile (s : State) (w : Wing) (slot leaf : Nat) : TileId :=
  ⟨w, s.regionUnits .catalogue * tilesPerUnit + Config.treeTile slot leaf % (s.regionUnits .treeCache * tilesPerUnit)⟩

/-- The EXEC's leaf (R267, R270, R272): waits for the cache, then for a block; LEDGER_EXHAUSTED when none is left. -/
def State.tryLeaf (s : State) (n : Nat) (j : Job) (e : Exec) : State :=
  let w := galleryWing j.gallery
  let handle := match s.execLoans j (execFields j.ins) with | l :: _ => recHandle l.record | [] => 0
  match s.slotOf handle with
  | none => s.failExec n St.ledgerExhausted
  | some k =>
    let x := s.slot k
    if s.orphan w then s.endJob n St.splitOrphan
    else if unissued (x.blocks w) = 0 && x.next ≥ x.total then s.failExec n St.ledgerExhausted
    else if !x.covers (x.nextLeaf w) then
      s.setStage n j e (match e.stage with | .waitCache t => .waitCache t | _ => .waitCache s.now)
    else match issueFrom (x.blocks w) with
      | none => s.setStage n j e .waitLeaf
      | some (leaf, rest) =>
        let t := s.gateRead (s.treeTile w k leaf)
        if t.1 != St.ok then (t.2.dropTrees k).endJob n t.1 else
        let s := t.2
        let x := x.setBlocks w rest
        (s.setSlot k x).setStage n j { e with leaf := some leaf, remaining := x.total - x.seen w + unissued rest } .waitLeaf

/-- Step 5's computation in the job's view: the result, and the state after its draws and Registrar acts. Whether a Docent's job is the
supervisor's was fixed when it was placed (DEDUCED, log entry 39). -/
def State.runFn (s : State) (n : Nat) (j : Job) (e : Exec) (x : FnSpec) (d : FnDef) : ExecResult × State :=
  let f := execFields j.ins
  let ctx : Ctx :=
    { sel := f.sel, opts := f.opts, recs := (s.execLoans j f).map (·.record),
      ins := (inputBufs j f x).zipIdx.map fun p => inputBytes j e.reads p.2 p.1, outs := (outputBufs j f x).map outDest,
      coll := j.coll, pol := s.collPolicy j.coll, gallery := j.gallery, leaf := e.leaf.getD 0, remaining := e.remaining,
      curve := j.curves.get [] (f.sel - 0x80), stageLeft := j.group.map fun _ => min (32768 - j.staged) (65536 - j.memory),
      mgmt := (match j.src with | .host fn _ => s.mgmt fn | .docent _ _ _ => j.supervisor), job := n, wing := j.wing }
  let r := d.compute ctx (s.view j)
  (r.1, s.unview r.2)

/-- An instance on which the EXEC draws goes silent before its last draw: the EXEC waits for a reseed, or for the known-answer test (R365). -/
def State.runsDry (s : State) (n : Nat) (j : Job) (e : Exec) (x : FnSpec) (d : FnDef) : Bool :=
  let t := (s.runFn n j e x d).2
  ((e.rngs x).filterMap (s.rngDrbg j)).any fun g => t.overdrawn g

/-- The first output is longer than the function allows, so that it ends before any draw (R371). -/
def overlong (j : Job) (x : FnSpec) : Bool :=
  match x.outMax with
  | some n => n < (outDest ((outputBufs j (execFields j.ins) x).getD 0 none)).len
  | none => false

/-- The result is held until the engine completes, and the operands and results stand in the engines' memory. -/
def State.computeExec (s : State) (n : Nat) (j : Job) (e : Exec) (x : FnSpec) (d : FnDef) : State :=
  let r := s.runFn n j e x d
  match r.2.job n with
  | none => r.2
  | some j =>
    let ins := ((inputBufs j (execFields j.ins) x).zipIdx.map fun p => inputBytes j e.reads p.2 p.1).map fun l => (raw l, l.any (·.secret))
    let outs := r.1.outs.map fun o => (match o.key with | some k => k.bytes | none => o.bytes, o.secret || o.key.isSome)
    let of_ (b : Bool) := ((ins ++ outs).filter fun p => p.2 == b).map (·.1)
    (r.2.putJob n { j with exec := some { e with stage := .running, result := some r.1 } }).modMem n fun q m => m.operands q (of_ true) (of_ false)

/-- Every generator of an EXEC that waits for them produces as much as the EXEC draws. -/
def State.supplied (s : State) (n : Nat) (j : Job) (e : Exec) (x : FnSpec) : Bool :=
  (e.rngs x).all (s.rngReady j e.began) &&
    !(match fnDef (execFields j.ins).code with | some d => s.runsDry n j e x d | none => false)

/-- The EXEC's generators, its leaf, then its computation. -/
def State.tryCompute (s : State) (n : Nat) : State :=
  match s.job n with
  | some j =>
    match j.exec, s.specNow j, fnDef (execFields j.ins).code with
    | some e, some x, some d =>
      let ready := match e.stage with | .waitEntropy _ | .waitCache _ | .waitLeaf => true | _ => false
      if !ready || j.parked || s.isSuspended n || !(overlong j x || (e.rngs x).all (s.rngReady j e.began)) then s
      else
        let s := if x.leaf && e.leaf.isNone then s.tryLeaf n j e else s
        match s.job n with
        | some j =>
          match j.exec with
          | some e => if (x.leaf && e.leaf.isNone) || s.runsDry n j e x d then s else s.computeExec n j e x d
          | none => s
        | none => s
    | _, _, _ => s
  | none => s

/-- The EXEC of a job goes as far as it can; one whose work turns secret takes its units a second time. -/
def State.advanceExec (s : State) (n : Nat) : State := ((((s.tryUnits n).tryReads n).tryUnits n).tryReads n).tryCompute n

/-- The place of a waiting EXEC among others: class, then the time it began, then the job's number. -/
def execBefore (a b : Nat × Job) : Bool :=
  let t (j : Job) : Nat := match j.exec with | some e => e.began | none => 0
  a.2.cls < b.2.cls || (a.2.cls == b.2.cls && (t a.2 < t b.2 || (t a.2 == t b.2 && a.1 < b.1)))

def insertBy {α : Type} (lt : α → α → Bool) (a : α) : List α → List α
  | [] => [a]
  | b :: r => if lt a b then a :: b :: r else b :: insertBy lt a r

/-- The list in order. -/
def sortBy {α : Type} (lt : α → α → Bool) (l : List α) : List α := l.foldr (insertBy lt) []

/-- Every waiting EXEC goes as far as it can, the highest class first and in order of arrival. -/
def State.pump (s : State) : State :=
  if s.tamper.frozen then s
  else s.forAll (sortBy execBefore (s.jobList.filter fun p => p.2.exec.isSome)) fun s p => s.advanceExec p.1

/-- The masking generators that a running EXEC works with and that produce nothing now (R191). -/
def State.silentMasks (s : State) (j : Job) (e : Exec) : List MaskGen :=
  let rngs := match s.specNow j with | some x => e.rngs x | none => []
  ((if rngs.contains .mask then [MaskGen.gallery j.gallery] else []) ++ (if rngs.contains .clusterMask then [MaskGen.cluster j.wing] else [])).filter
    fun m => !s.maskOk m

/-- A running EXEC stalls at its next segment or batch while a masking generator of its own produces nothing (R191). -/
def State.stalled (s : State) (j : Job) (e : Exec) : Bool := !(s.silentMasks j e).isEmpty

/-! ### The start of an EXEC (R137 steps 1 to 3) -/

/-- A job's first EXEC with a loadable selector copies the curve block (R316). -/
def State.copyCurve (s : State) (j : Job) : Job :=
  let sel := (execFields j.ins).sel
  let slot := sel - 0x80
  if (execFields j.ins).code / 256 != 0x0A || !(0x80 ≤ sel && sel ≤ 0x9F) || j.curves.any (fun c => c.1 == slot) then j
  else if (s.curve slot).isEmpty then j
  else { j with curves := j.curves.set [] slot (s.curve slot) }

/-- Step 2: the loans' purposes, then their classes and selectors. -/
def loanStep (s : State) (loans : List Loan) (rules : List LoanRule) : Byte :=
  let z := loans.zip rules
  if z.any fun p => !p.2.purposes.contains p.1.purpose then St.keyPurpose
  else if z.any fun p =>
    let r := p.1.record
    !p.2.classes.contains r.cls || !(p.2.sels.isEmpty || p.2.sels.contains r.selector) ||
      s.classLen r.cls r.selector r.classWord.toNat != some r.length then St.keyClass
  else St.ok

/-- Step 3 for one input: the kind and the length. -/
def inputStep (p : InPos) (b : Buf) : Byte :=
  let kindOk := match b with
    | .host _ => true
    | .template _ => false
    | .inline _ _ => !p.hostOnly
    | .gallery _ _ _ => !p.hostOnly && !p.noGallery
  let lenOk := match p.rule with | .any => true | .exact n => b.len == n | .between lo hi => lo ≤ b.len && b.len ≤ hi
  if kindOk && lenOk then St.ok else St.badBuffer

/-- Step 3 for one output beside the inputs: the kind and the least length. -/
def outputStep (ins : List Buf) (p : OutRule) (b : Buf) : Byte :=
  let ok := match p, b with
    | .template, .template _ => true
    | .host n, .host _ => n ≤ b.len
    | .gallery n, .gallery _ _ _ => n ≤ b.len
    | .pub n, .host _ | .pub n, .gallery _ _ _ => n ≤ b.len
    | .pubAs i, .host _ | .pubAs i, .gallery _ _ _ => (ins.getD i b).len ≤ b.len
    | .hostOrTemplate n, .host _ => n ≤ b.len
    | .hostOrTemplate _, .template _ => true
    | .secret n, .host _ | .secret n, .gallery _ _ _ => n ≤ b.len
    | .secret _, .template _ => true
    | _, _ => false
  if ok then St.ok else St.badBuffer

/-- Step 3: every input and output, then the secret tags (R120). -/
def bufferStep (j : Job) (x : FnSpec) (ins outs : List Buf) : Byte :=
  if (x.ins.zip ins).any (fun p => inputStep p.1 p.2 != St.ok) then St.badBuffer
  else if (x.outs.zip outs).any (fun p => outputStep ins p.1 p.2 != St.ok) then St.badBuffer
  else if (x.ins.zip ins).any (fun p => !p.1.secretOk && ((j.gbytes p.2).getD []).any (·.secret)) then St.accessDenied
  else St.ok

/-- Units of a kind are in service for a job of wing `w` on gallery `g`, as many as an EXEC needs: one LRE suffices, since its checks may run
on the same one (R216, R444). -/
def State.inService (s : State) (w : Wing) (g : Nat) (u : Nat × Nat) : Bool :=
  (if u.1 = Kind.lre then min u.2 1 else u.2) ≤ s.capacity (resAt w g u.1)

/-- The unit kind of the capability that an EXEC misses: the keyed one, else the first kind without units enough. -/
def State.missingKind (s : State) (j : Job) (x : FnSpec) (keyedOk : Bool) : Nat :=
  if !keyedOk then (match x.prefers with | some true => Kind.keccak | _ => Kind.sha2)
  else match (j.need x).find? fun u => !s.inService j.wing j.gallery u with
    | some u => if u.1 = maskedKind then Kind.keccak else u.1
    | none => 0

/-- What an EXEC that begins leaves: the job in its EXEC, waiting for its units, and the host generator asked to reseed where the function
wants fresh randomness (R367). -/
def State.beginExec (s : State) (n : Nat) (j : Job) (x : FnSpec) : State :=
  let d := s.hostDrbg j.gallery
  let t := if x.rngs.contains .hostFresh then s.setDrbg d { s.drbg d with wanted := some ((s.drbg d).wanted.getD s.now) } else s
  let e : Exec := { stage := .waitUnit, reads := j.reads x, began := t.now, need := j.need x, slotBits := x.slotBits, secret := j.readsSecret x }
  t.putJob n { j with phase := .exec, exec := some e }

/-- The output that a function does not put into an entry is a TEMPLATE (R288). -/
def barsTemplate (x : FnSpec) (outs : List (Option Buf)) : Bool :=
  match x.noTemplate with
  | some k => (match outs.getD k none with | some (.template _) => true | _ => false)
  | none => false

/-- The EXEC of function `code` at a job's pc begins: steps 1 to 3 of R137, then its units and reads. -/
def State.beginFn (s : State) (code n : Nat) : State :=
  match s.job n with
  | none => s
  | some j0 =>
    if (execFields j0.ins).code != code then s
    else s.runIns n 0x40 fun j s =>
      let e := execFields j.ins
      let j := s.copyCurve j
      let s := s.putJob n j
      let loans := s.execLoans j e
      if code / 256 == 0x0F && !s.hasCurator (galleryWing j.gallery) then s.endJob n St.splitOrphan
      else if loans.length != (loanRegs e).length then s.badProgram n 7
      else match s.specNow j with
        | none => s.failExec n St.keyClass
        | some x =>
          let st := loanStep (s.view j) loans x.loans
          let ins := inputBufs j e x
          let outs := outputBufs j e x
          if barsTemplate x outs then s.badProgram n 5
          else if st != St.ok then s.failExec n st
          else if (ins ++ outs).any (·.isNone) then s.badProgram n 7
          else
            let st := bufferStep j x (ins.filterMap id) (outs.filterMap id)
            let keyedOk := match x.prefers with | some k => !j.readsSecret x || s.keyed j.gallery k | none => true
            if st != St.ok then s.failExec n st
            else if !keyedOk || !(j.need x).all (s.inService j.wing j.gallery) then
              let k := s.missingKind j x keyedOk
              (s.log 2 St.engineFenced (unitSrc ⟨j.gallery, k, 0⟩) (leBytes 2 code ++ [byte k, byte (b2n !keyedOk)])).endJob n St.engineFenced
            else (s.beginExec n j x).advanceExec n

end Sys2Proof.Machine
end

