-- ==== Sys2Proof/Machine/Damob.lean ====
section
/-! DEFINITION. The Damob instructions other than EXEC (R125): each is carried out by job `job` at its pc, under its condition and the
budget of R114. -/

namespace Sys2Proof.Machine

/-- Vd takes a value and the job goes on. -/
def State.setV (s : State) (n : Nat) (j : Job) (v : Word64) : State := s.advance n (j.setReg (insDst j.ins) v)

/-- The operands Va and Vb. -/
def Job.va (j : Job) : Word64 := j.reg (insSrcA j.ins)
def Job.vb (j : Job) : Word64 := j.reg (insSrcB j.ins)

/-- A three-register operation on V registers. -/
def State.aluIns (s : State) (n op : Nat) (f : Word64 → Word64 → Word64) : State := s.runIns n op fun j s => s.setV n j (f j.va j.vb)

/-! ### NOP, END, BR -/

def execInsNop (job : Nat) (s : State) : Res := .next (s.runIns job 0x00 fun j s => s.advance job j)

/-- END (R129): a status given that is neither OK nor continuable is reason 9. With a group open as well, reason 8 stands first: the spec
orders the two nowhere (DESIGN CHOICE, log entry 101). -/
def State.endIns (s : State) (n : Nat) (j : Job) : State :=
  let m := insImm j.ins
  let st := byte (m % 256)
  if j.group.isSome then s.badProgram n 8
  else if m.testBit 8 && !(st == St.ok || isContinuable st) then s.badProgram n 9
  else s.endProgram n (if m.testBit 8 then some st else none) (if m.testBit 9 then j.va else 0)

def execInsEnd (job : Nat) (s : State) : Res := .next (s.runIns job 0x01 fun j s => s.endIns job j)

def execInsBr (job : Nat) (s : State) : Res :=
  .next (s.runIns job 0x02 fun j s => s.atBoundary job j ((j.pc : Int) + 1 + brOffset j.ins).toNat)

/-! ### Moves and arithmetic -/

def execInsMovi (job : Nat) (s : State) : Res := .next (s.runIns job 0x10 fun j s => s.setV job j (w64 (insImm j.ins)))

/-- MOVHI: bits [63:40] from the immediate, [39:0] unchanged. -/
def movhi (old : Word64) (imm : Nat) : Word64 := w64 (bits64 old 0 40 + imm % 2 ^ 24 * 2 ^ 40)

def execInsMovhi (job : Nat) (s : State) : Res :=
  .next (s.runIns job 0x11 fun j s => s.setV job j (movhi (j.reg (insDst j.ins)) (insImm j.ins)))
def execInsMov (job : Nat) (s : State) : Res := .next (s.runIns job 0x12 fun j s => s.setV job j j.va)
def execInsAdd (job : Nat) (s : State) : Res := .next (s.aluIns job 0x13 fun a b => a + b)

/-- The 40-bit immediate sign-extended to 64 bits. -/
def signedImm (i : Word64) : Word64 := BitVec.ofInt 64 (signed (insImm i) 40)

def execInsAddi (job : Nat) (s : State) : Res := .next (s.runIns job 0x14 fun j s => s.setV job j (j.va + signedImm j.ins))
def execInsSub (job : Nat) (s : State) : Res := .next (s.aluIns job 0x15 fun a b => a - b)
def execInsAnd (job : Nat) (s : State) : Res := .next (s.aluIns job 0x16 fun a b => a &&& b)
def execInsOr (job : Nat) (s : State) : Res := .next (s.aluIns job 0x17 fun a b => a ||| b)
def execInsXor (job : Nat) (s : State) : Res := .next (s.aluIns job 0x18 fun a b => a ^^^ b)
def execInsShl (job : Nat) (s : State) : Res := .next (s.runIns job 0x19 fun j s => s.setV job j (j.va <<< (insImm j.ins % 64)))
def execInsShr (job : Nat) (s : State) : Res := .next (s.runIns job 0x1A fun j s => s.setV job j (j.va >>> (insImm j.ins % 64)))

def execInsCmp (job : Nat) (s : State) : Res :=
  .next (s.runIns job 0x1B fun j s => s.advance job { j with f := fCompare j.f j.va j.vb })
def execInsCmpi (job : Nat) (s : State) : Res :=
  .next (s.runIns job 0x1C fun j s => s.advance job { j with f := fCompare j.f j.va (w64 (insImm j.ins)) })

/-! ### LDP and LDB -/

/-- LDP (R116): a word beyond the block ends the job with BAD_BUFFER. -/
def State.ldpIns (s : State) (n : Nat) (j : Job) : State :=
  match j.paramWord (insImm j.ins % 512) with
  | none => s.endJob n St.badBuffer
  | some v => s.complete n (j.setReg (insDst j.ins) v) St.ok false

def execInsLdp (job : Nat) (s : State) : Res := .next (s.runIns job 0x1D fun j s => s.ldpIns job j)

/-- LDB (R132): 8 bytes of an INLINE_DATA or GALLERY buffer at Vb + off; BAD_BUFFER outside, ACCESS_DENIED on a secret byte. -/
def State.ldbIns (s : State) (n : Nat) (j : Job) : State :=
  let off := j.vb.toNat + insImm j.ins % 65536
  match j.buf (insSrcA j.ins) with
  | none => s.badProgram n 7
  | some b =>
    match j.gbytes b with
    | none => s.endJob n St.badBuffer
    | some bytes =>
      if off + 8 > b.len then s.endJob n St.badBuffer
      else
        let part := slice bytes off 8
        if secretIn part then s.endJob n St.accessDenied
        else s.complete n (j.setReg (insDst j.ins) (w64 (leNat (raw part)))) St.ok false

def execInsLdb (job : Nat) (s : State) : Res := .next (s.runIns job 0x1E fun j s => s.ldbIns job j)

/-! ### Loans (R114, R130) -/

/-- The loan of a register is returned and the register is empty. -/
def State.giveBack (s : State) (n : Nat) (j : Job) (k : Nat) : Job × State :=
  match j.loanNo k with
  | none => (j, s)
  | some l =>
    let j := { j with h := setAt j.h k none }
    (j, (s.putJob n j).returnLoan l)

/-- The handle that a LOAN or LOANP names. -/
def Job.loanHandle (j : Job) : Option Word64 :=
  if insOpcode j.ins = 0x20 then some j.va else j.paramWord (fieldAt (insImm j.ins) 5 9)

/-- Check 1 or 2 of R164 fails: those come before the pause. -/
def State.loanEarly (s : State) (coll : Nat) (w : Wing) (h : Word64) : Bool := handleColl h != coll || !handleLowZero h || !s.hasCurator w

/-- LOAN and LOANP ask for the grant: an earlier loan of Hd is returned first; nowait ends a request that a hand-over pause would hold,
and that checks 1 and 2 of R164 do not refuse. -/
def State.askLoan (s : State) (n : Nat) (j : Job) : State :=
  let d := s.giveBack n j (insDst j.ins)
  if d.2.paused && (insImm j.ins).testBit 4 && !d.2.loanEarly j.coll (galleryWing j.gallery) (j.loanHandle.getD 0) then
    d.2.complete n d.1 St.handoverPause (insCont j.ins)
  else d.2.putJob n { d.1 with phase := .loanWait }

def execInsLoan (job : Nat) (s : State) : Res := .next (s.runIns job 0x20 fun j s => s.askLoan job j)
def execInsLoanp (job : Nat) (s : State) : Res :=
  .next (s.runIns job 0x21 fun j s => if j.loanHandle.isNone then s.endJob job St.badBuffer else s.askLoan job j)

/-- The Registrar's answer to a waiting LOAN (R130, R164): it waits through a pause; a refusal completes the instruction with its
status; a grant fills Hd. A C0 job whose key is not pinned is marked (R106 condition 1). -/
def State.loanReply (s : State) (n : Nat) (j : Job) : State :=
  let w := galleryWing j.gallery
  let h := j.loanHandle.getD 0
  let purpose := insImm j.ins % 16
  let st := (s.underPolicy j.epoch).loanStatus j.coll w h purpose
  let early := s.loanEarly j.coll w h
  if s.paused && !early then
    (if (insImm j.ins).testBit 4 then s.complete n j St.handoverPause (insCont j.ins) else s)
  else if st != St.ok then s.complete n j st (insCont j.ins)
  else match s.entryOf j.coll h with
    | none => s.complete n j St.keyUnknown (insCont j.ins)
    | some r =>
      let x := s.lendRead w r
      if x.1 != St.ok then x.2.complete n j x.1 (insCont j.ins)
      else
        let s := x.2
        let g := s.grantLoan n w r
        let j := { j with h := setAt j.h (insDst j.ins) (some g.1),
                          flags := if j.cls = 0 && !r.pinned then j.flags ||| Rf.c0Unbound else j.flags }
        g.2.complete n j St.ok (insCont j.ins)

def execLoanGrant (job : Nat) (s : State) : Res :=
  .next (match s.job job with
    | none => s
    | some j =>
      if s.tamper.frozen || j.parked || !s.wingRuns j.wing || j.phase != .loanWait then s
      else match j.ending with
        | some st => s.endJob job st
        | none => s.loanReply job j)

/-- RETURN: an empty register is reason 7. -/
def State.returnIns (s : State) (n : Nat) (j : Job) : State :=
  if (j.loanNo (insDst j.ins)).isNone then s.badProgram n 7
  else
    let d := s.giveBack n j (insDst j.ins)
    d.2.advance n d.1

def execInsReturn (job : Nat) (s : State) : Res := .next (s.runIns job 0x22 fun j s => s.returnIns job j)

/-! ### Buffers (R117, R118, R131) -/

/-- Descriptors put into consecutive registers; each GALLERY one is allocated zero-filled. -/
def Job.loadBufs (j : Job) (d : Nat) : List Buf → Job
  | [] => j
  | b :: r =>
    let j := match b with
      | .gallery _ _ n => { j with b := setAt j.b d (some (.gallery j.gmem.length 0 n)), gmem := j.gmem ++ [List.replicate n (GByte.mk 0 false 0)] }
      | b => { j with b := setAt j.b d (some b) }
    j.loadBufs (d + 1) r

/-- BUF: BAD_BUFFER on a descriptor that breaks a rule; RESOURCE_EXHAUSTED when gallery memory does not suffice. -/
def State.bufIns (s : State) (n : Nat) (j : Job) : State :=
  let m := insImm j.ins
  match parseDescriptors j.params (m % 4096) (fieldAt m 12 3 + 1) with
  | none => s.endJob n St.badBuffer
  | some bs =>
    let x := j.loadBufs (insDst j.ins) bs
    if x.gmem.length != j.gmem.length && !s.memoryFits n x then s.complete n j St.resourceExhausted (insCont j.ins)
    else s.complete n x St.ok (insCont j.ins)

def execInsBuf (job : Nat) (s : State) : Res := .next (s.runIns job 0x30 fun j s => s.bufIns job j)

/-- BSLICE: length 0 is to the end; a TEMPLATE, or a slice beyond the buffer, ends the job with BAD_BUFFER. -/
def State.bsliceIns (s : State) (n : Nat) (j : Job) : State :=
  let off := fieldAt (insImm j.ins) 0 20
  let len := fieldAt (insImm j.ins) 20 20
  match j.buf (insSrcA j.ins) with
  | none => s.badProgram n 7
  | some b =>
    if off > b.len then s.endJob n St.badBuffer
    else match b.slice off (if len = 0 then b.len - off else len) with
      | none => s.endJob n St.badBuffer
      | some x => s.complete n { j with b := setAt j.b (insDst j.ins) (some x) } St.ok false

def execInsBslice (job : Nat) (s : State) : Res := .next (s.runIns job 0x31 fun j s => s.bsliceIns job j)

def execInsBlen (job : Nat) (s : State) : Res :=
  .next (s.runIns job 0x32 fun j s =>
    match j.buf (insSrcA j.ins) with
    | none => s.badProgram job 7
    | some b => s.setV job j (w64 b.len))

/-! ### Binding groups (R139 to R141) -/

def execInsBind (job : Nat) (s : State) : Res :=
  .next (s.runIns job 0x50 fun j s => if j.group.isSome then s.badProgram job 8 else s.advance job { j with group := some {} })

/-- The group's accessions are made as one act, and ENDB completes (R140). A wing that has come to reach the Registrar no more can make
none (R147). -/
def State.commitGroup (s : State) (n : Nat) (j : Job) (g : Group) : State :=
  if !g.accessions.isEmpty && !s.hasCurator (galleryWing j.gallery) then s.endJob n St.splitOrphan
  else
    let s := s.forAll g.accessions fun s p => s.commitAccession p
    let made := j.made ++ g.accessions.map fun p => recHandle p.record
    s.complete n { j with group := none, outLen := j.outLen + j.staged, made } St.ok (insCont j.ins)

/-- The writes of the release have been issued: one that failed ends the job with BAD_BUFFER, and nothing commits (R141); else the group
commits. A release that stays open can be met by a revocation or a freeze. -/
def State.releaseEnd (s : State) (n : Nat) (j : Job) (g : Group) (how : GroupRelease) : State :=
  if how == .fails && !g.staged.isEmpty then (s.putJob n { j with phase := .release }).endJob n St.badBuffer
  else if how == .stays then s.putJob n { j with phase := .release }
  else s.commitGroup n j g

/-- ENDB: a failed group is discarded with its first failing status; otherwise the staged writes, then the accessions. A wing that does not
reach the Registrar can make no accession, and the job ends with SPLIT_ORPHAN before a write (R147, R461). -/
def State.endbIns (s : State) (n : Nat) (j : Job) (how : GroupRelease) : State :=
  match j.group with
  | none => s.badProgram n 8
  | some g =>
    if g.failed != St.ok then (s.discardGroup j).complete n { j with group := none } g.failed (insCont j.ins)
    else if !g.accessions.isEmpty && !s.hasCurator (galleryWing j.gallery) then s.endJob n St.splitOrphan
    else if !g.staged.isEmpty && !s.dmaOk j then s.endJob n St.accessDenied
    else (s.issue j.wing g.staged).releaseEnd n j g how

/-- ENDB begins, or its release, once begun, goes on. -/
def execInsEndb (job : Nat) (how : GroupRelease) (s : State) : Res :=
  .next (match s.job job with
    | none => s
    | some j =>
      if j.phase == .release then
        (if s.tamper.frozen || j.parked || !s.wingRuns (galleryWing j.gallery) then s
         else match j.group with
          | some g => s.releaseEnd job j g how
          | none => s)
      else s.runIns job 0x51 fun j s => s.endbIns job j how)

/-- A job that has executed 4,096 instructions ends with reason 6 (R114). -/
def execInstructionBudgetExhausted (job : Nat) (s : State) : Res :=
  .next (match s.job job with
    | some j => if !s.tamper.frozen && s.wingRuns (galleryWing j.gallery) && j.phase == .ready && j.executed ≥ 4096 then s.badProgram job 6 else s
    | none => s)

end Sys2Proof.Machine
end

