-- ==== Sys2Proof/Machine/Conserve.lean ====
section
/-! DEFINITION. Fences of units, their error counts and spares (R443 to R454), and what a gallery reset does. -/

namespace Sys2Proof.Machine

/-- The next service generation, skipping 0 (R444). -/
def nextGen (g : Nat) : Nat := if g ≥ 65535 then 1 else g + 1

/-- CONS_CFG fields (R476). -/
def State.faultThreshold (s : State) : Nat := bits32 s.cont.cfg 0 8
def State.decaySec (s : State) : Nat := bits32 s.cont.cfg 8 8

/-! ### COMPAT page operations end -/

/-- A page's operation ends with a status (R353): its loan returns and its core is released. -/
def State.endPage (s : State) (p : Nat) (st : Byte) : State :=
  let x := s.page p
  if !x.busy then s
  else
    let s := s.setPage p { x with busy := false, done := true, status := st, loan := none, waiting := false,
                                  dout := if isSuccess st then x.dout else [] }
    let s := match x.loan with | some l => s.returnLoan l | none => s
    s.releaseUnits (pageJob p) fun _ => true

/-- A job, or a page's operation, ends with a status at once; a tree generation is discarded. -/
def State.endUser (s : State) (n : Nat) (st : Byte) : State :=
  if n ≥ 0x200000 then s.dropGens ((n - 0x200000) / 4)
  else if n ≥ 0x100000 then s.endPage (n - 0x100000) st else (s.logEnding n st).endJob n st

/-! ### Spares (R452) -/

/-- The spares order's unit_ask bit of a kind (R451). -/
def State.unitAsk (s : State) (kind : Nat) : Bool := s.tamper.spares.unitAsk.toNat.testBit kind

/-- A spare of the unit's location and kind remains. -/
def State.spareOf (s : State) (u : UnitId) : Option UnitId := (unitsOf u.loc u.kind).find? fun x => (s.unit x).svc == .spare

/-- A fenced unit asks for promotion, or its promotion is ordered (R452). -/
def State.wantSpare (s : State) (u : UnitId) : State :=
  if (s.spareOf u).isNone then s
  else if s.unitAsk u.kind then
    let x := s.unit u
    let s := s.setUnit u { x with ask := true }
    ({ s with cont := { s.cont with asks := s.cont.asks ++ [unitCode u] } }).log 2 0 (unitSrc u) [byte 0x10]
  else { s with cont := { s.cont with promoting := s.cont.promoting ++ [unitCode u] } }

/-! ### Fences (R444 to R447) -/

/-- The jobs and pages that use a unit, running or suspended in it. -/
def State.usersOf (s : State) (u : UnitId) : List Nat :=
  (s.work.grants.filter fun g => g.unit == some u && !g.idle).map (·.job)

/-- What jobs keep in a unit between two EXECs is lost with its contents. -/
def State.dropKept (s : State) (u : UnitId) : State :=
  { s with work := { s.work with grants := s.work.grants.filter fun g => !(g.unit == some u && g.idle) } }

/-- A unit that is to be fenced has been wiped before it leaves service (R322). -/
def State.wiped (s : State) (u : UnitId) : State :=
  if u.loc < 16 then s.setGal u.loc { s.gal u.loc with wiping := (s.gal u.loc).wiping.filter fun y => y != (u.kind, u.idx) } else s

/-- Jobs that use a unit: those granted it; for a masking generator or a job sequencer, every job of its gallery. -/
def State.jobsOn (s : State) (u : UnitId) : List Nat :=
  if u.loc < 16 && (u.kind == Kind.sequencer || u.kind == Kind.mask) then
    (s.jobList.filter fun p => p.2.gallery == u.loc).map (·.1)
  else s.usersOf u

/-- CONS_EVENT and CONS_EVENT_GEN latch a fence when not valid (R476). -/
def State.latchEvent (s : State) (u : UnitId) (cause gen : Nat) : State :=
  if bit32 s.cont.event 31 then s
  else { s with cont := { s.cont with event := w32 (unitCode u + cause * 2 ^ 18 + 2 ^ 31), eventGen := w32 gen } }

/-- A unit is fenced, by the Curator's order, which reaches no wing that it has lost (R22, R446): its generation and count, the records of the fence, the end of the jobs in it, the loss of its contents,
and its spare. -/
def State.fence (s : State) (u : UnitId) (cause : Nat) : State :=
  let x := s.unit u
  if !s.unitExists u || x.svc == .fenced || !s.ordersReach u.loc then s
  else
    let wasSpare := x.svc == .spare
    let gen := nextGen x.gen
    let users := s.jobsOn u
    let s := { s with cont := { s.cont with fences := sat (2 ^ 32 - 1) (s.cont.fences + 1) } }
    let s := (s.latchEvent u cause gen).log 2 St.engineFenced (unitSrc u) ([byte cause] ++ leBytes 2 gen)
    let s := ((s.forAll users fun s n => s.endUser n St.engineFenced).dropKept u).wiped u
    let s := s.setUnit u { x with svc := .fenced, gen, errors := 0, stFail := x.stFail || cause == 2, readmitting := false }
    let s := if u.kind == Kind.bfe && u.loc < 16 then
        s.setGal u.loc { s.gal u.loc with resident := none, queuedLoad := none, reload := none } else s
    let s := if u.kind == Kind.drbg then
        (match [Drbg.curator, .pool .west, .pool .east, .keyGen u.loc, .host u.loc].find? fun d => drbgUnit d == u with
          | some d => s.setDrbg d { silentAt := s.now } | none => s) else s
    let s := if u.kind == Kind.mask then s.setMaskGen (.gallery u.loc) {} else s
    if wasSpare then s else (s.wantSpare u).markC0

/-- One error is counted against a unit (R217, R448); the count that reaches fault_threshold fences it. -/
def State.countError (s : State) (u : UnitId) : State :=
  let x := s.unit u
  if !s.unitExists u || x.svc == .fenced then s
  else
    let n := sat 255 (x.errors + 1)
    let s := s.setUnit u { x with errors := n, decayAt := if x.errors = 0 then s.now else x.decayAt }
    if n ≥ s.faultThreshold then s.fence u 1 else s

/-! ### Gallery resets (R454) -/

/-- A gallery goes into reset: its jobs end with ENGINE_FENCED, its contents are lost and its entropy restarts. -/
def State.galleryDown (s : State) (g : Nat) : State :=
  let old := s
  let s := (s.endJobs (fun _ j => j.gallery == g) St.engineFenced).dropGensOn (· == g)
  let s := s.setGal g { s.gal g with inReset := true, resetOrdered := false, resident := none, queuedLoad := none, reload := none, wiping := [],
                                     ctxStore := 0 }
  (State.entropyChanged old (s.restartGalleryEntropy g)).markC0

/-- A wing's galleries lose what they hold. -/
def State.clearGalleries (s : State) (w : Wing) : State :=
  s.forAll (s.wingGalleries w) fun s g =>
    let x := s.gal g
    s.setGal g { x with resident := none, queuedLoad := none, reload := none, wiping := [], ctxStore := 0 }

/-! ### Links (R20, R457) -/

def State.link (s : State) : Link → LinkState
  | .wingLink => s.cont.wingLink
  | .curatorLink .west => s.cont.curW
  | .curatorLink .east => s.cont.curE
def State.setLink (s : State) (l : Link) (x : LinkState) : State :=
  match l with
  | .wingLink => { s with cont := { s.cont with wingLink := x } }
  | .curatorLink .west => { s with cont := { s.cont with curW := x } }
  | .curatorLink .east => { s with cont := { s.cont with curE := x } }

def allLinks : List Link := [.wingLink, .curatorLink .west, .curatorLink .east]

/-- A link's key is drawn afresh from the Curator DRBG; while that produces nothing the link has no key and is down (R19, R20). -/
def State.keyLink (s : State) (l : Link) : State :=
  let x := s.link l
  if s.drbgOk .curator then
    let d := s.drawFrom .curator 32
    d.2.setLink l { x with key := some d.1 }
  else s.setLink l { x with key := none, up := false, cleanSince := none, lastRetrain := s.runNs }

/-- The link keys and the stream sealing key are drawn once the Curator DRBG is instantiated: the links carry traffic and W0 and E0 train
(R20, R247, R377, R406). -/
def State.startLinks (s : State) : State :=
  let s := s.forAll allLinks fun s l => (s.setLink l { up := true, upAt := s.now, rxFirst := s.runNs, rxSecond := s.runNs }).keyLink l
  let d := s.drawFrom .curator 32
  let s := { d.2 with cont := { d.2.cont with linkKeys := true }, work := { d.2.work with sealKey := d.1 } }
  s.forAll [0, 2] fun s c =>
    if (s.channel c).state = 0 then s.setChannel c { s.channel c with state := 1 } else s

/-! ### Admission (R406, R463, R476) -/

def State.setAdmitted (s : State) (w : Wing) (v : Bool) : State :=
  match w with
  | .west => { s with cont := { s.cont with admittedW := v }, cat := { s.cat with deskW := v } }
  | .east => { s with cont := { s.cont with admittedE := v }, cat := { s.cat with deskE := v } }

/-- A wing's loan desk holds the CBKs, or they are wiped (R175). -/
def State.setDesk (s : State) (w : Wing) (v : Bool) : State :=
  match w with
  | .west => { s with cat := { s.cat with deskW := v } }
  | .east => { s with cat := { s.cat with deskE := v } }

def State.returning (s : State) : Wing → Bool
  | .west => s.cont.returningW
  | .east => s.cont.returningE
def State.setReturning (s : State) (w : Wing) (v : Bool) : State :=
  match w with
  | .west => { s with cont := { s.cont with returningW := v } }
  | .east => { s with cont := { s.cont with returningE := v } }
def State.setOrphan (s : State) (w : Wing) (v : Bool) : State :=
  match w with
  | .west => { s with cont := { s.cont with orphanW := v } }
  | .east => { s with cont := { s.cont with orphanE := v } }

/-- The split cause at both ports (R460, R463). -/
def State.raiseSplit (s : State) : State := s.raiseAll Cause.split

/-- Step 7 of re-admission: the wing is no orphan and accepts jobs. -/
def State.finishReturn (s : State) (w : Wing) : State :=
  (((s.setOrphan w false).setReturning w false).setAdmitted w true).raiseSplit

/-- A wing is admitted once boot is over with its images accepted (R402), its entropy is ready, its Storeroom has a channel (R377), is
initialised and current, and it reaches the Curator; one that returns completes its re-admission so. -/
def State.tryAdmit (s : State) (w : Wing) : State :=
  let storeOk := (s.storeWing w).initDone && !(s.wingChannels w).isEmpty && !(s.storeWing w).stale
  if !(s.booted && !s.boot.wingsOut && s.entropyReady w && storeOk && s.reaches w) then s
  else if s.returning w then s.finishReturn w
  else if s.orphan w then s
  else s.setAdmitted w true

end Sys2Proof.Machine
end

