-- ==== Sys2Proof/Machine/Trees.lean ====
section
/-! DEFINITION. Tree generation of the stateful keys (R265 to R267, R275, R277): what is due, the lanes that it holds as C3 work of the Registrar,
and what a generation that ends adds to a key's cache. -/

namespace Sys2Proof.Machine

/-- The slots in use with their numbers. -/
def State.activeSlots (s : State) : List (Nat × LedgerSlot) := s.ledger.slots.filter fun p => p.2.state == .active

/-! ### What is due (R266, R267) -/

/-- The first level whose next instance is due: half of its last generated instance is used (R266). -/
def LedgerSlot.dueLevel (x : LedgerSlot) : Option Nat :=
  (List.range x.heights.length).find? fun i =>
    let stop := x.instances.getD i 0
    stop < x.total && 2 * (x.lowest + x.instLeaves i) ≥ 2 * stop + x.instLeaves i

/-- The leaf below which every level has an instance. -/
def LedgerSlot.instanceTo (x : LedgerSlot) : Nat := x.instances.foldl min x.total

/-- The next window subtree is due: half of one has been consumed, its instance has been generated, and the window does not yet hold it (R266). -/
def LedgerSlot.dueSubtree (x : LedgerSlot) : Bool :=
  x.coverTo < x.instanceTo && x.lowest + x.window * x.subtree ≥ x.coverTo + (x.subtree + 1) / 2

/-- A key's cache rebuilt from next_unreserved (R267). -/
def LedgerSlot.rebuilt (x : LedgerSlot) : LedgerSlot :=
  let from_ := x.next / x.subtree * x.subtree
  { x with rebuilding := false, coverFrom := from_, coverTo := min x.total (from_ + x.window * x.subtree), instances := x.firstInstances x.next }

/-- The cache once a generation has ended. -/
def LedgerSlot.grown (x : LedgerSlot) : TreeWork → LedgerSlot
  | .subtree => { x with coverFrom := x.lowest / x.subtree * x.subtree, coverTo := min x.total (x.coverTo + x.subtree) }
  | .instance_ i => { x with instances := x.instances.set i (x.instances.getD i 0 + x.instLeaves i) }
  | .rebuild => x.rebuilt

/-- The cache once those in flight have ended. -/
def LedgerSlot.planned (x : LedgerSlot) : LedgerSlot := x.gens.foldl (fun x g => x.grown g.work) x

/-- Caches may be rebuilt: after RESTORE_END (R267); before any restore, only of a key that the catalogue holds, whose tile failed (R266). -/
def State.mayRebuild (s : State) (x : LedgerSlot) : Bool :=
  s.journal.restore == .restored || (s.journal.restore == .empty && (s.entryOf (handleColl x.handle) x.handle).isSome)

/-- What is generated next for a key: its cache anew, in ascending slot order; else the next instance of the highest level that is due, else the next
subtree; at most four at a time. -/
def State.nextWork (s : State) (n : Nat) : Option TreeWork :=
  let x := s.slot n
  if x.state != .active || x.gens.length ≥ 4 then none
  else if x.rebuilding then
    (if !x.gens.isEmpty || !s.mayRebuild x || (s.activeSlots.any fun p => p.2.rebuilding && p.1 < n) then none else some .rebuild)
  else match x.planned.dueLevel with
    | some i => some (.instance_ i)
    | none => if x.planned.dueSubtree then some .subtree else none

/-- An instance's cache fits the region (R266). -/
def State.genFits (s : State) (x : LedgerSlot) : TreeWork → Bool
  | .instance_ i => s.cacheFits (levelCache (hbsN x.selector) (x.heights.getD i 0))
  | _ => true

/-! ### Lanes (R265, R275) -/

/-- Lanes of a gallery that tree generations hold. -/
def State.genLanes (s : State) (r : Resource) : Nat := (s.work.grants.filter fun g => g.res == r && 0x200000 ≤ g.job).length

/-- A gallery has lanes free for a generation: the plain ones, of which generations hold a quarter of those in service at most, and the masked ones of the
secret derivations; no EXEC waits for either, so that generation yields to every class (R265, R275). -/
def State.genRoom (s : State) (sel g : Nat) : Bool :=
  s.galleryUp g && s.ordersReach g && (hbsLanes sel).all fun u =>
    let r := resAt (galleryWing g) g u.1
    u.2 ≤ (s.freeUnits 0x200000 3 r).length && !s.jobList.any (fun p => waitsFor p.2 r) &&
      (u.1 == maskedKind || 4 * (s.genLanes r + u.2) ≤ s.capacity r)

/-- A generation begins: it takes its lanes as C3 work. -/
def State.startGen (s : State) (n : Nat) : State :=
  let x := s.slot n
  match s.nextWork n, (List.range 16).find? (s.genRoom x.selector) with
  | some w, some g =>
    let k := ((List.range 4).find? fun k => !x.gens.any fun y => y.number == k).getD 0
    let s := s.setSlot n { x with gens := x.gens ++ [{ number := k, work := w, gallery := g }] }
    s.forAll (hbsLanes x.selector) fun s u =>
      s.forAll (List.range u.2) fun s _ => s.addGrant (genJob n k) 3 (resAt (galleryWing g) g u.1)
  | _, _ => s

/-- Generations begin for the keys that have one due, while the governor leaves C3 a share of dispatch (R40, R265). -/
def State.startGens (s : State) : State :=
  if s.stopped || s.lowPower || s.share 3 = 0 then s
  else s.forAll s.activeSlots fun s p => s.forAll (List.range 4) fun s _ => s.startGen p.1

/-- A generation ends with its slot as it leaves it: its lanes are free again. -/
def State.endTrees (s : State) (n : Nat) (g : TreeGen) (x : LedgerSlot) : State :=
  let s := s.setSlot n x
  { s with work := { s.work with grants := s.work.grants.filter fun y => y.job != genJob n g.number } }

/-- The oldest generation of a key ends: its lanes are free, and the cache has grown. -/
def State.endGen (s : State) (n : Nat) (g : TreeGen) : State :=
  s.endTrees n g { (s.slot n).grown g.work with gens := (s.slot n).gens.drop 1 }

end Sys2Proof.Machine
end

