-- ==== Sys2Proof/Machine/Compat.lean ====
section
/-! DEFINITION. The SK40 register pages (R350 to R354). -/

namespace Sys2Proof.Machine

/-! ### Pages -/

def State.pageColl (s : State) (p : Nat) : Nat := bits32 (s.pageOwner p) 0 10

/-- A function reaches a page: PF0 of its port, with FID_ROLE.compat and the page's collection, while the page is in service
(R350, R351). -/
def State.pageReachable (s : State) (f : Fn) (p : Nat) : Bool :=
  p < 64 && isPf f && bit32 (s.pageOwner p) 31 && f.port == s.pageWing p && s.compatRole f && (s.fn f).coll == some (s.pageColl p)

/-! ### A collection's limits (R76, R77) -/

/-- Operations of a collection in flight that `p` counts by their accepting wing: its C0 jobs, or its C1 to C3 jobs and its pages' operations
that the limit has admitted (R76, R353). -/
def State.collInFlight (s : State) (c : Nat) (c0 : Bool) (p : Wing → Bool) : Nat :=
  (s.jobList.filter fun x => x.2.coll == c && (x.2.cls == 0) == c0 && p x.2.wing).length + s.unwritten c0 (fun k w => k == c && p w) +
    (if c0 then 0
      else ((List.range 64).filter fun q => s.pageColl q == c && (s.page q).busy && !(s.page q).waiting && p (s.pageWing q)).length)

/-- The collection is bound to functions on both ports. -/
def State.bothPorts (s : State) (c : Nat) : Bool := [Wing.west, .east].all fun w => (portFns w).any fun f => (s.fn f).coll == some c

/-- A wing's dispatcher may admit one more operation of the collection: below its limit, or below half of it, at least 1, while the wing
link is down and the two dispatchers share it (R77). -/
def State.collRoom (s : State) (c : Nat) (c0 : Bool) (w : Wing) : Bool :=
  match s.coll c with
  | none => false
  | some x =>
    let lim := if c0 then x.c0Max else x.maxInflight
    if s.bothPorts c && !s.cont.wingLink.up then s.collInFlight c c0 (· == w) < (if lim = 0 then 0 else max 1 (lim / 2))
    else s.collInFlight c c0 (fun _ => true) < lim

/-- A staged change of the page's owner (R350), whose commit holds starts on the page during its drain (R467). -/
def State.pageStaged (s : State) (p : Nat) : Bool := (s.cfgtx.staged.get none (0x1A0900 + 4 * p)).isSome
def State.pageHeld (s : State) (p : Nat) : Bool := s.cfgtx.state = 2 && s.pageStaged p

/-- The written key, IV and windows of a page are cleared (R351). -/
def CompatPage.clear (x : CompatPage) : CompatPage :=
  { x with key := [0, 0, 0, 0, 0, 0, 0, 0], keyLoaded := false, iv := [0, 0, 0, 0], din := [], dout := [] }

/-- The written key is cleared (R354). -/
def CompatPage.clearKey (x : CompatPage) : CompatPage := { x with key := [0, 0, 0, 0, 0, 0, 0, 0], keyLoaded := false }

/-- The written keys of a port's pages are cleared. -/
def State.clearPageKeys (s : State) (w : Wing) : State :=
  s.forAll ((List.range 64).filter fun p => s.pageWing p == w) fun s p => s.setPage p (s.page p).clearKey

/-! ### Fields (R352) -/

def CompatPage.alg (x : CompatPage) : Nat := bits32 x.ctrl 0 3
def CompatPage.mode (x : CompatPage) : Nat := bits32 x.ctrl 3 2
def CompatPage.decrypt (x : CompatPage) : Bool := bit32 x.ctrl 5
def CompatPage.written (x : CompatPage) : Bool := bit32 x.ctrl 6
def CompatPage.macLen (x : CompatPage) : Nat := bits32 x.ctrl 9 5
def CompatPage.size (x : CompatPage) : Nat := bits32 x.len 0 13
def CompatPage.handle (x : CompatPage) : Word64 := w64 (x.handleLo.toNat + x.handleHi.toNat * 2 ^ 32)

/-- The key selector of an algorithm code (R331); none of a reserved code. -/
def pageSel (alg : Nat) : Option Nat :=
  match alg with | 0 => some 1 | 1 => some 2 | 2 => some 3 | 4 => some 0x11 | 5 => some 0x12 | _ => none

/-- Bytes of 32-bit registers, byte 4i in bits [7:0] of word i. -/
def wordBytes (l : List Word32) : List Byte := l.flatMap fun w => leBytes 4 w.toNat
def bytesWords : Nat → List Byte → List Word32
  | 0, _ => []
  | n + 1, l => w32 (leAt l 0 4) :: bytesWords n (l.drop 4)

/-- The data in the input window. -/
def CompatPage.data (x : CompatPage) : List Byte :=
  (List.range x.size).map fun i => byte (bits32 (x.din.get 0 (i / 4)) (8 * (i % 4)) 8)

/-- The purpose that the mode requires (R353). -/
def CompatPage.purpose (x : CompatPage) : Nat := if x.mode = 3 then Pu.macGenerate else if x.decrypt then Pu.decrypt else Pu.encrypt

/-- The lengths that an operation checks (R334). -/
def CompatPage.lengthStatus (x : CompatPage) (sel minTag : Nat) : Byte :=
  if x.size > 4096 then St.inputRange
  else if x.mode = 3 then cmacStatus sel x.macLen minTag
  else if x.mode ≤ 1 && x.size % symBlock sel != 0 then St.inputRange
  else St.ok

/-! ### An operation -/

/-- Start's own checks: the algorithm, the class, a held key. -/
def CompatPage.startStatus (x : CompatPage) : Byte :=
  match pageSel x.alg with
  | none => St.badProgram
  | some sel =>
    if x.mode = 2 && isTdeaSel sel then St.badProgram
    else if bits32 x.ctrl 7 2 = 0 then St.policyDenied
    else if x.written && !x.keyLoaded then St.keyUnknown
    else St.ok

/-- The operation takes its loan and its lengths are checked; it then waits for a core. -/
def State.beginPage (s : State) (p : Nat) : State :=
  let x := s.page p
  let c := s.pageColl p
  let w := s.pageWing p
  let sel := (pageSel x.alg).getD 0
  let go (s : State) (x : CompatPage) : State :=
    let s := s.setPage p { x with waiting := false }
    let st := x.lengthStatus sel (s.collPolicy c).minTag
    if st != St.ok then s.endPage p st else s
  if x.written then go s x
  else
    let st := s.loanStatus c w x.handle x.purpose
    if st != St.ok then s.endPage p st
    else match s.entryOf c x.handle with
      | none => s.endPage p St.keyUnknown
      | some r =>
        if r.cls != symClass sel || r.selector != sel then s.endPage p St.keyClass
        else if (s.lendRead w r).1 != St.ok then (s.lendRead w r).2.endPage p (s.lendRead w r).1
        else if r.corrupt then (s.logDelivery w r).endPage p St.storeroomIntegrity
        else
          let s := (s.lendRead w r).2
          let g := s.grantLoan (pageJob p) w r
          go g.2 { x with loan := some g.1 }

/-- A page's operation goes as far as it can: past its collection's limit, then to a core. -/
def State.advancePage (s : State) (p : Nat) : State :=
  let c := s.pageColl p
  let s := if (s.page p).busy && (s.page p).waiting && !s.paused && !s.pageHeld p && s.collRoom c false (s.pageWing p) then s.beginPage p else s
  let r := Resource.compat (s.pageWing p)
  let cls := s.pageClass p
  if s.pageWaits p && !(s.freeUnits (pageJob p) cls r).isEmpty &&
    !(s.jobList.any fun q => waitsFor q.2 r && q.2.cls < cls) && !s.clusterWaits r cls &&
    !(s.work.grants.any fun g => g.res == r && g.suspended && s.jobClass g.job ≤ cls) then
    s.addGrant (pageJob p) cls r
  else s

/-- Everything that waits for a unit goes as far as it can, tree generation last. -/
def State.pumpAll (s : State) : State :=
  if s.tamper.frozen then s
  else (s.pump.forAll (((List.range 64).filter fun p => (s.page p).busy)) fun s p => s.advancePage p).startGens

/-- COMPAT_CMD.start. While the device is frozen the operation ends with TAMPER_FROZEN. -/
def execCompatStart (f : Fn) (page : Nat) (s : State) : Res :=
  .next (let x := s.page page
    let off := 0x1000000 + 0x10000 * page + 4
    s.write f off fun s =>
    if !s.pageReachable f page || x.busy then s.regError f St.accessDenied off
    else
      let s := s.setPage page { x with busy := true, done := false, dout := [], waiting := true }
      let st := x.startStatus
      if s.tamper.frozen then s.endPage page St.tamperFrozen
      else if st != St.ok then s.endPage page st
      else s.pumpAll)

def execCompatKeyClear (f : Fn) (page : Nat) (s : State) : Res :=
  .next (let off := 0x1000000 + 0x10000 * page + 4
    s.write f off fun s => if !s.pageReachable f page then s.regError f St.accessDenied off else s.setPage page (s.page page).clearKey)

/-- A word of COMPAT_KEY (R354). -/
def execCompatKeyWrite (f : Fn) (page word : Nat) (v : Word32) (s : State) : Res :=
  .next (let x := s.page page
    let off := 0x1000000 + 0x10000 * page + 0x20 + 4 * word
    if word ≥ 8 then s
    else s.write f off fun s =>
      if !s.pageReachable f page || x.busy || !(s.collPolicy (s.pageColl page)).pageKeys then s.regError f St.accessDenied off
      else s.setPage page { x with key := setAt x.key word v, keyLoaded := true })

/-- The chaining value that an operation leaves: the last ciphertext block for CBC, the next counter for CTR (R352). -/
def CompatPage.nextIv (x : CompatPage) (sel : Nat) (out : List Byte) : List Byte :=
  let iv := wordBytes x.iv
  let n := symBlock sel
  if x.mode = 1 && x.size > 0 then
    let ct := if x.decrypt then x.data else out
    ct.drop (x.size - n) ++ iv.drop n
  else if x.mode = 2 then beBytes 16 ((beNat iv + (x.size + 15) / 16) % 2 ^ 128)
  else iv

/-- The operation's result: the output window and the next chaining value. -/
def State.pageResult (s : State) (p : Nat) : CompatPage :=
  let x := s.page p
  let sel := (pageSel x.alg).getD 0
  let key := match x.loan.bind s.loan with
    | some l => l.record.material
    | none => (wordBytes x.key).take (match sel with | 1 | 0x11 => 16 | 2 | 0x12 => 24 | _ => 32)
  let out := if x.mode = 3 then cmacOf sel x.macLen key x.data
    else Config.prim (.aes sel x.mode x.decrypt) [key, (wordBytes x.iv).take (if x.mode = 0 then 0 else symBlock sel), x.data] x.size
  let words := bytesWords ((out.length + 3) / 4) out
  { x with dout := words.zipIdx.foldl (fun t q => t.set 0 q.2 q.1) [], iv := bytesWords 4 (x.nextIv sel out) }

/-- A core ends a page's operation. -/
def execCompatOperationComplete (page : Nat) (ev : EngineEvent) (s : State) : Res :=
  .next (let x := s.page page
    let runs := s.work.grants.any fun g => g.job == pageJob page && !g.suspended
    if !x.busy || !runs || s.tamper.frozen || !s.wingRuns (s.pageWing page) || !s.maskOk (.cluster (s.pageWing page)) then s
    else match ev.trip with
      | some u =>
        if (s.usersOf u).contains (pageJob page) then
          ((s.log 2 St.faultDetected (unitSrc u) [byte page, byte ev.measure]).endPage page St.faultDetected |>.countError u).pumpAll
        else s
      | none => ((s.setPage page (s.pageResult page)).endPage page St.ok).pumpAll)

end Sys2Proof.Machine
end

