-- ==== Sys2Proof/Machine/Ledger.lean ====
section
/-! DEFINITION. The leaf ledger and the tree cache (R266 to R273, R283). -/

namespace Sys2Proof.Machine

/-- LEDGER_CFG and LEDGER_LOW fields (R283). -/
def State.blockLeaves (s : State) : Nat := 2 ^ bits32 s.ledger.cfg 0 4
def State.genWaitNs (s : State) : Nat := bits32 s.ledger.cfg 16 16 * 1000000
def State.lowPct (s : State) : Nat := bits32 s.ledger.low 0 7

/-- How many blocks an issuer may hold (R270). -/
def State.blockLimit (s : State) : Nat := if s.handover.state = 2 then 4 else 2

/-- The issuer asks for a block: it holds none, or its current block is half issued and it may hold another (R270.3). -/
def State.wantsBlock (s : State) (x : LedgerSlot) (w : Wing) : Bool :=
  match heldBlocks (x.blocks w) with
  | [] => true
  | b :: r => r.length + 1 < s.blockLimit && (s.handover.state == 2 || 2 * (b.next - b.start) ≥ b.stop - b.start)

/-! ### Counts (R272) -/

/-- The Curator's count for a key, as of the issuers' last reports. -/
def LedgerSlot.count (x : LedgerSlot) : Nat := x.total - x.next + x.reportW + x.reportE

def LedgerSlot.setReport (x : LedgerSlot) (w : Wing) (n : Nat) : LedgerSlot :=
  match w with
  | .west => { x with reportW := n }
  | .east => { x with reportE := n }

/-- A key that first falls below its threshold sets ledger_low on its collection's functions and latches its slot (R272). -/
def State.checkLow (s : State) (n : Nat) : State :=
  let x := s.slot n
  if x.state != .active || x.low || 100 * x.count ≥ s.lowPct * x.total then s
  else
    let s := s.setSlot n { x with low := true }
    let s := { s with ledger := { s.ledger with lowSlot := some (s.ledger.lowSlot.getD n) } }
    s.forAll (allFns.filter fun f => (s.fn f).coll == some (handleColl x.handle)) fun s f => s.raiseCause Cause.ledgerLow f

/-! ### Blocks -/

/-- The blocks of a wing's issuer are retired, for every key (R271). -/
def State.retireBlocks (s : State) (w : Wing) : State :=
  s.forAll (s.ledger.slots.filter fun p => !(p.2.blocks w).isEmpty) fun s p =>
    let from_ := match heldBlocks (p.2.blocks w) with | b :: _ => b.next | [] => 0
    ((s.setSlot p.1 ((p.2.setBlocks w []).setReport w 0)).log 6 0 (dieSrc (wingDie w)) (leBytes 2 p.1 ++ leBytes 8 from_)).checkLow p.1

/-- The log's list, per key, of the last two blocks granted to each wing (R271): category 6, the wing's die, slot, first leaf and count (the layout is
the model's; DESIGN CHOICE, log entry 138). -/
def State.logGranted (s : State) : State :=
  s.forAll s.activeSlots fun s p =>
    let show_ (s : State) (w : Wing) (l : List (Nat × Nat)) : State :=
      s.forAll l fun s b => s.log 6 0 (dieSrc (wingDie w)) (leBytes 2 p.1 ++ leBytes 8 b.1 ++ leBytes 2 b.2)
    show_ (show_ s .west p.2.grantedW) .east p.2.grantedE

/-- Executions that wait for a leaf of a slot on a wing. -/
def State.leafWaiters (s : State) (n : Nat) (w : Wing) : List Nat :=
  (s.jobList.filter fun p =>
    galleryWing p.2.gallery == w && (match p.2.exec with | some e => e.stage == .waitLeaf && e.leaf.isNone | none => false) &&
      (match s.execLoans p.2 (execFields p.2.ins) with | l :: _ => s.slotOf (recHandle l.record) == some n | [] => false)).map (·.1)

/-- A block granted: the log entry stands, the issuer holds it, next_unreserved has moved (R270). -/
def State.grantBlock (s : State) (w : Wing) (n : Nat) : State :=
  let x := s.slot n
  let c := min s.blockLeaves (x.total - x.next)
  let s := s.ledgerLog { slot := n, east := w == .east, start := x.next, count := c }
  let x := x.setBlocks w (heldBlocks (x.blocks w) ++ [{ start := x.next, next := x.next, stop := x.next + c }])
  let x := match w with
    | .west => { x with grantedW := (x.grantedW ++ [(x.next, c)]).drop (x.grantedW.length - 1), reportW := x.reportW + c, seenW := x.next + c }
    | .east => { x with grantedE := (x.grantedE ++ [(x.next, c)]).drop (x.grantedE.length - 1), reportE := x.reportE + c, seenE := x.next + c }
  ((s.setSlot n { x with next := x.next + c }).checkLow n)

/-- The Curator can reserve for a wing now: not during a freeze, a pause or a split, nor before the wing's re-admission (R270, R271). -/
def State.mayReserve (s : State) (w : Wing) (x : LedgerSlot) : Bool :=
  s.ledger.ready && !s.stopped && !s.paused && s.admitted w && s.reaches w && !s.orphan w && x.state == .active && x.next < x.total && s.wantsBlock x w

/-- LEAF_RESERVATION: each failed readback spends a log position; the fourth fails the reservation (R270.2). -/
def execLeafReservation (w : Wing) (slot readbackFailures : Nat) (s : State) : Res :=
  .next (if !s.mayReserve w (s.slot slot) then s
    else
      let s := s.forAll (List.range (min 4 readbackFailures)) fun s _ => s.ledgerPut none
      if readbackFailures ≥ 4 then
        (s.forAll (s.leafWaiters slot w) fun s n => s.endJob n St.faultDetected).pumpAll
      else (s.grantBlock w slot).pumpAll)

/-- Every 1 ms an issuer reports its positions, of the active keys and of those from whose blocks it still issues after a withdrawal (R271, R272). -/
def execIssuerPositionReport (w : Wing) (s : State) : Res :=
  .next (if !s.reaches w then s
    else s.forAll (s.ledger.slots.filter fun p => p.2.state == .active || !(p.2.blocks w).isEmpty) fun s p =>
      ((s.setSlot p.1 ((s.slot p.1).setReport w (unissued ((s.slot p.1).blocks w)))).checkLow p.1))

/-! ### The tree cache (R266, R267) -/

/-- The oldest of a key's tree generations can end: it is neither suspended nor stalled for want of masking randomness (R191, R275). -/
def State.genEnds (s : State) (n : Nat) (g : TreeGen) : Bool :=
  !s.stopped && !s.isSuspended (genJob n g.number) && s.maskOk (.gallery g.gallery)

/-- The first lane that a generation holds. -/
def State.genUnit (s : State) (n : Nat) (g : TreeGen) : Option UnitId := (s.work.grants.find? fun x => x.job == genJob n g.number).bind Grant.unit

/-- A check of a tree generation trips: the generation is discarded, to be repeated, and the event log and the error count of a lane that it ran on
record it (R277). -/
def State.tripGen (s : State) (n : Nat) (g : TreeGen) : State :=
  let u := s.genUnit n g
  let s := s.dropGens n
  match u with
  | some u => (s.log 2 St.faultDetected (unitSrc u) (leBytes 2 n ++ leBytes 8 (s.slot n).handle.toNat)).countError u
  | none => s

/-- The next subtree or instance has been generated: the oldest generation in flight ends. An instance that finds the region full ends with
RESOURCE_EXHAUSTED, which the event log records (R266; log entry 130). -/
def execTreeSubtreeGeneration (slot : Nat) (checkTrips : Bool) (s : State) : Res :=
  .next (let x := s.slot slot
    match x.gens with
    | [] => s.pumpAll
    | g :: _ =>
      if g.work == .rebuild || !s.genEnds slot g then s
      else if checkTrips then (s.tripGen slot g).pumpAll
      else if !s.genFits x g.work then ((s.dropGens slot).log 6 St.resourceExhausted 0 (leBytes 2 slot)).pumpAll
      else (s.endGen slot g).pumpAll)

/-- The caches of active keys are rebuilt, in ascending slot order (R267). -/
def execTreeCacheRebuild (r : CacheRebuild) (s : State) : Res :=
  .next (match (s.slot r.slot).gens with
    | [] => s.pumpAll
    | g :: _ =>
      if g.work != .rebuild || !s.genEnds r.slot g then s
      else if r.checkTrips then (s.tripGen r.slot g).pumpAll
      else (s.endGen r.slot g).pumpAll)

/-- A SIGN that has waited for its cache for gen_wait_ms ends with RESOURCE_EXHAUSTED (R267). -/
def execSignCacheWaitExpiry (job : Nat) (s : State) : Res :=
  .next (match s.job job with
    | some j =>
      match j.exec with
      | some e =>
        match e.stage with
        | .waitCache t => if s.now ≥ t + s.genWaitNs && !s.tamper.frozen then (s.failExec job St.resourceExhausted).pumpAll else s
        | _ => s
      | none => s
    | none => s)

/-! ### Registers (R283) -/

def slotCode : SlotState → Nat
  | .free => 0
  | .active => 1
  | .closed => 2
  | .reclaimable => 3

/-- LEDGER_QSTATE of a slot. -/
def LedgerSlot.qstate (x : LedgerSlot) : Word32 :=
  w32 (slotCode x.state + 4 * b2n (x.covers x.lowest) + 8 * b2n (!x.gens.isEmpty) + 16 * (heldBlocks x.blocksW).length +
    128 * (heldBlocks x.blocksE).length)

/-- The query registers latched for a slot. -/
def State.latchQuery (s : State) (n : Nat) : State :=
  let x := s.slot n
  let q : LedgerQuery := { slot := n, handle := x.handle, total := x.total, next := x.next, remain := x.count, qstate := x.qstate }
  { s with ledger := { s.ledger with query := q } }

/-- A write to LEDGER_QSLOT latches the query registers; it needs the management role. -/
def execLedgerQslotWrite (f : Fn) (v : Word32) (s : State) : Res :=
  .next (s.mgmtWrite f 0x180020 fun s => s.latchQuery (bits32 v 0 16))

/-- The value of LEDGER_LOW_SLOT. -/
def State.lowSlotWord (s : State) : Word32 := match s.ledger.lowSlot with | some n => w32 (n + 2 ^ 31) | none => 0
def State.clearLowSlot (s : State) : State := { s with ledger := { s.ledger with lowSlot := none } }

def execLedgerLowSlotRead (f : Fn) (s : State) : Res := .next (s.clearRead f 0x180010 s.lowSlotWord fun s => s.clearLowSlot)

/-! ### Boot (R269) -/

/-- The 16 bytes of a log entry in MRAM (R269). -/
def LogEntry.bytes (e : LogEntry) : List Byte :=
  let body := leBytes 2 e.slot ++ [byte (b2n e.east + 2 * b2n e.close), byte (b2n e.phase)] ++ leBytes 8 e.start ++ leBytes 2 e.count
  body ++ Config.prim .crc16 [body] 2

/-- next_unreserved of a slot from the newer valid table copy and the log entries after its position; with no valid copy, from every entry. -/
def State.rebuiltNext (s : State) (n : Nat) : Nat :=
  let l := s.ledger
  let useB := l.validB && (l.newerB || !l.validA)
  let copy : Tbl Nat := if useB then l.copyB else if l.validA then l.copyA else []
  let pos := if useB then l.posB else if l.validA then l.posA else 0
  let since := l.log.filter fun p => pos ≤ p.1 && p.1 < l.logPos
  since.foldl (fun m p => match p.2 with | some e => if e.slot = n then max m (e.start + e.count) else m | none => m) (copy.get 0 n)

/-- Boot rebuilds the ledger; LEDGER_STATUS.ready follows. -/
def execLedgerRebuild (s : State) : Res :=
  .next (if s.ledger.ready || s.boot.inReset then s
    else
      let slots := s.ledger.slots.map fun p => (p.1, { p.2 with next := max p.2.next (s.rebuiltNext p.1) })
      { s with ledger := { s.ledger with slots, ready := true } })

end Sys2Proof.Machine
end

