-- ==== Sys2Proof/Machine/Mailbox.lean ====
section
/-! DEFINITION. The Curator mailbox (R415 to R417), quorum authorisations (R409), and the transaction and hand-over state that other
events end (R470, R475). -/

namespace Sys2Proof.Machine

/-! ### Messages -/

/-- The message is over: status, reply length, and the reply written over the buffer (R415). A supervisor's parameters and reply lie in
Docent shared memory (R485). -/
def State.replyTo (s : State) (m : Sender) (st : Byte) (len : Nat) (bytes : List Byte) : State :=
  let x := s.mailbox m
  let addr := x.bufLo.toNat + x.bufHi.toNat * 2 ^ 32
  let s := if bytes.isEmpty then s else match m with
    | .pf w => s.writeHost w addr bytes
    | .supervisor w => s.docMemWrite w (.shared addr) bytes
  s.setMailbox m { s.mailbox m with busy := false, done := true, status := st, replyLen := w32 len }

/-- Codes accepted in TAMPER_HOLD (R436), and those accepted without the management role (R415). -/
def holdCodes : List Nat := [0x01, 0x02, 0x06, 0x08, 0x20, 0x21, 0x22, 0x23]
def freeCodes : List Nat := [0x01, 0x02, 0x0C]
/-- Codes accepted in recovery form (R403). -/
def recoveryCodes : List Nat := [0x0A, 0x0B]

/-- The wing that a sender's message comes through. -/
def senderWing : Sender → Wing
  | .pf w => w
  | .supervisor w => w

/-- What a message's meaning answers: a status, the reply's bytes, and the state. -/
abbrev Answer := Byte × List Byte × State

/-- The parameters as the message's length gives them. -/
def Curmb.params (x : Curmb) (params : List Byte) : List Byte := padTo (bits32 x.msg 16 16) params

/-- Why a message of a code that a sender has started is refused before its parameters count: the sender's wing is halted or the sender without the
management role (R415), recovery form (R403), TAMPER_HOLD or a freeze (R436). -/
def State.messageRefusal (s : State) (m : Sender) (code : Nat) : Option Byte :=
  if s.halted (senderWing m) then some St.accessDenied
  else if !freeCodes.contains code && code != 0x23 && !s.senderMgmt m then some St.accessDenied
  else if s.recovery && !recoveryCodes.contains code then some St.policyDenied
  else if s.tamper.hold && !holdCodes.contains code then some St.policyDenied
  else if s.tamper.frozen && !(holdCodes ++ freeCodes).contains code then some St.policyDenied
  else none

/-- The Curator can be reached by a sender. -/
def State.curatorHears (s : State) (m : Sender) : Bool :=
  s.halted (senderWing m) || s.reaches (senderWing m) || s.recovery || s.tamper.hold

/-- A message of a code that a sender has started, carried out by `f` on its parameters; `replyLen` is the reply's length, checked
against the buffer before any effect (R417). Nothing happens while no such message is in flight or the Curator is out of reach. -/
def State.message (s : State) (m : Sender) (code replyLen : Nat) (params : List Byte) (f : List Byte → State → Answer) : State :=
  let x := s.mailbox m
  let plen := bits32 x.msg 16 16
  let buf := bits32 x.bufLen 0 20
  if !x.busy || bits32 x.msg 0 8 != code || s.boot.inReset || s.cont.vote == .lost || !s.curatorHears m then s
  else match s.messageRefusal m code with
    | some st => s.replyTo m st 0 []
    | none =>
      if plen > buf then s.replyTo m St.inputRange plen []
      else if replyLen > buf then s.replyTo m St.resourceExhausted replyLen []
      else
        let r := f (x.params params) s
        r.2.2.replyTo m r.1 (if r.1 == St.ok then r.2.1.length else 0) (if r.1 == St.ok then r.2.1 else [])

/-- A refusal that changes nothing. -/
def deny (st : Byte) (s : State) : Answer := (st, [], s)

/-! ### Quorum authorisations (R409) -/

/-- The magic and version of an authorisation. -/
def authMagic : List Byte := [0x51, 0x41, 0x55, 0x31, 0x01, 0x00]

/-- The signatures of an authorisation: custodian index, algorithm, signature. -/
def authSigs : Nat → List Byte → List (Nat × Nat × List Byte)
  | 0, _ => []
  | n + 1, b => if b.length < 4 then [] else
      (byteAt b 0, byteAt b 1, slice b 4 (leAt b 2 2)) :: authSigs n (b.drop (4 + leAt b 2 2))

/-- Nonces still valid: issued within 10 minutes. -/
def nonceNs : Nat := 600000000000
def State.nonceLive (s : State) (v : List Byte) : Bool := s.boot.nonces.any fun n => n.value == v && s.now - n.at_ < nonceNs

/-- The custodians whose signatures over bytes 0 to 79 verify, one for each signature that does. -/
def verifying (custodians : List Custodian) (a : List Byte) : List Nat :=
  ((authSigs (byteAt a 76) (a.drop 80)).filter fun x =>
    match custodians[x.1]? with
    | some c => c.alg == x.2.1 && Config.primBool (.sigOk c.alg) [c.key, a.take 80, x.2.2]
    | none => false).map (·.1)

/-- A custodian set and a threshold as R409 has them: 2 to 16 custodians, and 2 of them to all. -/
def quorumOk (custodians : List Custodian) (threshold : Nat) : Bool :=
  2 ≤ threshold && threshold ≤ custodians.length && custodians.length ≤ 16

/-- An authorisation of an action over parameters as R409 lays it out, which enough distinct custodians have signed. -/
def authSigned (custodians : List Custodian) (threshold action : Nat) (params a : List Byte) : Bool :=
  a.length ≥ 80 && a.take 6 == authMagic && leAt a 6 2 == action && allZero (slice a 77 3) && 1 ≤ byteAt a 76 && byteAt a 76 ≤ 16 &&
    slice a 24 48 == Config.prim (.hash 2) [params] 48 && quorumOk custodians threshold &&
    (verifying custodians a).length ≥ threshold && decide (verifying custodians a).Nodup

/-- An authorisation of an action over parameters is valid under a custodian set and threshold: signed, its nonce live and its time not past. -/
def State.authValid (s : State) (custodians : List Custodian) (threshold action : Nat) (params a : List Byte) : Bool :=
  authSigned custodians threshold action params a && s.nonceLive (slice a 8 16) && decide (s.rtcSec ≤ leAt a 72 4)

/-- The nonce of an accepted authorisation is used. -/
def State.useNonce (s : State) (a : List Byte) : State :=
  { s with boot := { s.boot with nonces := s.boot.nonces.filter fun n => n.value != slice a 8 16 } }

/-- An act that needs a quorum: QUORUM_REQUIRED without a valid authorisation after the first `n` parameter bytes, otherwise `f` with
the nonce used where `f` accepts. -/
def State.withQuorum (s : State) (action n : Nat) (p : List Byte) (f : State → Answer) : Answer :=
  let a := p.drop (up8 n)
  if !s.authValid s.boot.custodians s.boot.threshold action (p.take n) a then deny St.quorumRequired s
  else
    let r := f s
    if r.1 == St.ok then (r.1, r.2.1, r.2.2.useNonce a) else r

/-! ### Transactions and hand-overs that an event ends -/

/-- The open transaction ends without effect, and the log records it (R470); a commit in its drain fails with the result given. -/
def State.endTransaction (s : State) (result : Byte) : State :=
  if s.cfgtx.state = 0 then s
  else
    let c := s.cfgtx
    let s := s.log 8 (if c.state = 2 then result else 0) 0 [byte c.owner]
    { s with cfgtx := { c with state := 0, result := if c.state = 2 then result else c.result, staged := [], items := [], 
                               toLoad := [], drained := false } }

/-- A hand-over under way is abandoned with a reason (R439, R475). -/
def State.abandonHandover (s : State) (reason : Nat) : State :=
  if !s.handingOver then s
  else
    let h := s.handover
    let s := { s with handover := { h with state := 5, reason, pauseUs := if h.state = 3 then (s.now - h.since) / 1000 else h.pauseUs } }
    s.log 8 0 (dieSrc .curatorDie) [0x31, byte reason]

/-- The catalogue is emptied: records, reservations, invalidated ancestors and caches (R439). -/
def State.emptyCatalogue (s : State) : State :=
  { s with cat := { s.cat with records := [], highest := [], reserved := [], replaced := [], invalidated := [], cacheW := [], cacheE := [],
                               granulesUsed := 0 } }

/-! ### Control of the keys -/

/-- The master key in MRAM is wrapped for a firmware image of a slot, in place of that slot's wrap (R408). A new SSK leaves the wraps fitting: they are
written under it (DEDUCED, log entry 145). -/
def State.wrapMaster (s : State) (slot : Nat) (meas : List Byte) : State :=
  let w : MasterWrap := { meas, key := s.store.masterKey }
  { s with boot := if slot = 0 then { s.boot with wrapA := some w } else { s.boot with wrapB := some w } }

/-- A new master key is drawn and wrapped, which the log records under category 10 (R408). -/
def State.newMaster (s : State) (slot : Nat) (m0 : List Byte) : State :=
  let d := s.drawCurator 32
  (State.wrapMaster { d.2 with store := { d.2.store with masterKey := d.1 } } slot m0).log 10 0 (dieSrc .curatorDie) [1]

/-- The master key as the wrap of the running slot gives it, where it is for the running MEAS0; otherwise a new one is drawn and wrapped, which the
log records (R408). -/
def State.unwrapMaster (s : State) : State :=
  let m0 := padTo 48 (s.boot.meas.getD 0 [])
  let slot := b2n (s.boot.slots.toNat.testBit 0)
  match if slot = 1 then s.boot.wrapB else s.boot.wrapA with
  | some w => if w.meas == m0 then { s with store := { s.store with masterKey := w.key } } else s.newMaster slot m0
  | none => s.newMaster slot m0

/-- A wing's tile key of this boot: the KDF of R173 over the master key, the boot salt and the wing (R385). -/
def tileKeyOf (master salt : List Byte) (w : Wing) : List Byte := Config.prim .kdf384 [master, salt, [byte (wingIdx w)]] 32

/-- The Curator firmware has control of the keys: the master key; a boot salt is drawn, and both wings' tile keys derived from it, so that no earlier
content can be read; the journal head (R173, R385, R406). -/
def State.unlock (s : State) : State :=
  let s := s.unwrapMaster
  let d := s.drawCurator 32
  let s := d.2
  let key (w : Wing) (x : StoreWing) : StoreWing := { x.fresh with tileKey := tileKeyOf s.store.masterKey d.1 w }
  { s with store := { s.store with west := key .west s.store.west, east := key .east s.store.east },
           journal := { s.journal with lastClosed := s.journal.head.n } }

end Sys2Proof.Machine
end

