-- ==== Sys2Proof/Machine/Tamper.lean ====
section
/-! DEFINITION. Tamper sensing, freezes, standing orders and erasure (R418 to R442). -/

namespace Sys2Proof.Machine

/-! ### The freeze (R421 to R423, R439) -/

/-- Every generator is uninstantiated and wiped (R370). -/
def State.wipeAllGenerators (s : State) : State :=
  let old := s
  let s := s.forAll [Pool.wing .west, .wing .east, .curator] fun s p => s.wipeGenerators (s.poolDrbgs p) (s.poolMasks p)
  State.entropyChanged old { s with entropy := { s.entropy with readyW := false, readyE := false } }

/-- Every job in flight ends with TAMPER_FROZEN, its record kept for the report phase (R423). -/
def State.freezeJobs (s : State) : State :=
  let n := s.jobList.length
  let s := s.forAll s.jobList fun s p => s.endJobWith p.1 St.tamperFrozen 0 0 .frozen fun _ => false
  { s with tamper := { s.tamper with jobsFrozen := n } }

/-- An open restore is abandoned and the catalogue emptied (R439). -/
def State.abandonRestore (s : State) : State :=
  if s.journal.restore == .open_ then
    let j := { s.journal with restore := .empty, applied := 0, appliedChain := [], appliedAny := false, bindings := [] }
    { s.emptyCatalogue with journal := j }
  else s

/-- A freeze detected by a die, which the Curator's application of the order follows; a device that is frozen already stays so. -/
def State.freeze (s : State) (die : Die) : State :=
  if s.tamper.frozen then s
  else
    let s := { s with tamper := { s.tamper with frozen := true, reportPhase := false, orderDue := true, freezes := sat (2 ^ 32 - 1) (s.tamper.freezes + 1) } }
    let s := ((s.emit (.freezeWires die)).freezeJobs.dropGensOn fun _ => true).markC0
    let s := s.forAll (List.range 64) fun s p => (s.endPage p St.tamperFrozen)
    let s := ((s.clearPageKeys .west).clearPageKeys .east).wipeAllGenerators
    let s := (s.retireBlocks .west).retireBlocks .east
    let s := s.setDoc .west { s.docW with frozen := true }
    let s := s.setDoc .east { s.docE with frozen := true }
    (((s.endTransaction St.policyDenied).abandonHandover 3).abandonRestore).freezeCards

/-! ### Orders and records (R430 to R433, R441) -/

/-- The class's two bits of an action word. -/
def actionOf (w : Word32) (cls : Nat) : Nat := bits32 w (2 * cls) 2

/-- The action of a class under the order in effect, for a power state 0 OFF and 1 STANDBY, in which the battery domain's armed copy holds
(R426), otherwise operating; in MANUFACTURE, DECOMMISSIONED and SCRAPPED every class freezes and reports (R431). -/
def State.action (s : State) (power cls : Nat) : Nat :=
  let t := s.tamper
  let a := actionOf (if power = 0 then t.armed.actOff else if power = 1 then t.armed.actSb else t.order.actOp) cls
  let plain := s.boot.lifecycle == .manufacture || s.boot.lifecycle == .decommissioned || s.boot.lifecycle == .scrapped
  if plain then 0 else a

/-- The state code of an event record: 0 OFF, 1 STANDBY, 2 start-up, 3 ACTIVE or IDLE. -/
def State.powerCode (s : State) : Nat :=
  if s.boot.inReset then 0 else if s.lowPower then 1 else if s.boot.stage != 5 then 2 else 3

/-- An event record of an order's sequence enters the ring of the newest 63 (R426, R441). -/
def State.tamperRecordOf (s : State) (t : Trip) (state action : Nat) (seq : Word32) : State :=
  let n := s.tamper.evSeq + 1
  let body := leBytes 4 n ++ leBytes 4 s.rtcSec ++ leBytes 4 (s.rtc % 32768) ++ [byte t.cls, t.detail, byte state, byte action] ++
    leBytes 4 t.value.toNat ++ leBytes 4 s.tamper.jobsFrozen ++ leBytes 4 seq.toNat
  let rec_ := body ++ Config.prim .crc32 [body] 4
  { s with tamper := { s.tamper with evSeq := n, ring := (rec_ :: s.tamper.ring).take 63, ringPos := (s.tamper.ringPos + 1) % 63 } }

/-- An event record under the order in effect. -/
def State.tamperRecord (s : State) (t : Trip) (state action : Nat) : State := s.tamperRecordOf t state action s.tamper.order.seq

/-- A class's latch bit, and TMP_OUT while any is set (R440). -/
def State.latchClass (s : State) (cls : Nat) : State :=
  { s with tamper := { s.tamper with latch := s.tamper.latch ||| BitVec.ofNat 16 (2 ^ cls), tmpOut := true } }

def State.setLive (s : State) (cls : Nat) : State :=
  { s with tamper := { s.tamper with live := s.tamper.live ||| BitVec.ofNat 16 (2 ^ cls) } }

/-- Classes that a sensor can trip: 7 is reserved and 6 is found at boot. -/
def sensorClass (c : Nat) : Bool := c < 6 || (8 ≤ c && c < 16)

/-- How an event record codes the action of a class (R431, R441): erased, reported only, or frozen. -/
def State.actionCode (s : State) (power cls : Nat) : Nat := match s.action power cls with | 1 => 2 | 2 => 3 | _ => 1

/-- A trip as detected now, under the order in effect (R429). -/
def State.heldTrip (s : State) (t : Trip) : HeldTrip :=
  { trip := t, state := s.powerCode, action := s.actionCode s.powerCode t.cls, orderSeq := s.tamper.order.seq }

/-- A trip whose record is still to come. -/
def State.addTrip (s : State) (h : HeldTrip) : State := { s with tamper := { s.tamper with trips := s.tamper.trips ++ [h] } }

/-- The die that a trip's detail index names: for a rail, in the order of R418, the die it supplies, VDD_W, VDDQ_DW, VDD_E and VDDQ_DE the wings'; for
a clock, a photodiode or a mesh the die, West, East, Curator; for a temperature the sensor, four on each wing and two in the battery domain; every
other sensor is the Curator die's (DESIGN CHOICE, log entry 150). -/
def tripDie (t : Trip) : Die :=
  let k := t.detail.toNat
  let at_ (w e : Bool) : Die := if w then .westDie else if e then .eastDie else .curatorDie
  match t.cls with
  | 0 => at_ (k = 0 || k = 6) (k = 1 || k = 7)
  | 1 | 2 | 4 => at_ (k = 0) (k = 1)
  | 3 => at_ (k < 4) (k < 8)
  | _ => .curatorDie

/-- The sensor of a trip works in a power state: all of them while operating; in STANDBY those of VDD_CUR, VDD_IO, the Curator's clocks, diodes and
mesh; in OFF neither rails, clocks nor diodes; the battery domain's temperature sensors, the envelope and the inputs always (R418). In THERMAL_HOLD
the wings' temperature sensors work too: R523 waits for every die's temperature. -/
def sensorOn (power : Nat) (thermal : Bool) (t : Trip) : Bool :=
  let k := t.detail.toNat
  power > 1 || match t.cls with
    | 0 => power = 1 && (k = 2 || k = 8)
    | 1 | 2 => power = 1 && tripDie t == .curatorDie
    | 3 => thermal || tripDie t == .curatorDie
    | 4 => tripDie t == .curatorDie
    | _ => true

/-- The rail monitors are armed, from 0.1 ms after the start of boot (R419). -/
def State.railsArmed (s : State) : Bool := decide (s.now ≥ s.boot.startedAt + 100000)

/-- A sensor's trip counts: its class is a sensor's, the sensor works, and the class is not ignored. -/
def State.senses (s : State) (t : Trip) : Bool :=
  sensorClass t.cls && sensorOn s.powerCode (s.power.pstate == .thermalHold) t && (t.cls != 0 || s.railsArmed) && s.action s.powerCode t.cls != 3

/-- An under-voltage on a core rail (R418, R419). -/
def underVoltage (t : Trip) : Bool := t.cls = 0 && ((t.detail.toNat < 2 && t.value.toNat < 620) || (t.detail = 2 && t.value.toNat < 680))

/-- An under-voltage freezes the device; what it was is decided 100 µs later (R419). -/
def State.railDip (s : State) (t : Trip) : State :=
  let h := s.heldTrip t
  let was := s.tamper
  let s := s.freeze (tripDie t)
  { s with tamper := { s.tamper with orderDue := was.orderDue,
                                     railDips := s.tamper.railDips ++ [{ die := tripDie t, held := h, at_ := s.now, froze := !was.frozen }] } }

/-- WAKE# of both ports after an alarm, until the link is in L0 (R530). -/
def State.assertWake (s : State) : State := { s with host := { s.host with portW := { s.host.portW with wake := true },
                                                                           portE := { s.host.portE with wake := true } } }

/-- The battery domain alone latches, records, and erases SSK as its armed copy orders; "freeze" means latch only (R431, R433). -/
def State.offAlarm (s : State) (t : Trip) : State :=
  let a := s.action 0 t.cls
  let s := ((s.latchClass t.cls).setLive t.cls).tamperRecordOf t 0 (match a with | 1 => 2 | 2 => 3 | _ => 0) s.tamper.armed.seq
  if a = 1 then { s with boot := { s.boot with ssk := none }, tamper := { s.tamper with erased := true, sskErased := true, erasing := true } } else s

/-- A sensor trips (R418, R433). In OFF the battery domain handles it. Otherwise the class is latched, the order is applied later (ORDER_APPLY), and
unless its action only reports, the device freezes; in STANDBY the Curator is woken for it. -/
def State.sensorTrip (s : State) (t : Trip) : State :=
  let power := s.powerCode
  if !s.senses t then s
  else if power = 0 then s.offAlarm t
  else if underVoltage t then s.railDip t
  else
    let report := s.action power t.cls = 2
    let s := (((s.latchClass t.cls).setLive t.cls).raiseAll Cause.tamper).addTrip (s.heldTrip t)
    let s := if power = 1 then s.assertWake else s
    if report then s else s.freeze (tripDie t)

def execTamperSensorTrip (trip : Trip) (s : State) : Res := .next (if s.boot.inReset then s else s.sensorTrip trip)

/-- A die frozen by its wires (R421): nothing changes on a device that is frozen already. -/
def execFreezeWireAssert (die : Die) (s : State) : Res := .next (if s.boot.inReset then s else s.freeze die)

/-! ### Erasure (R434) -/

/-- Steps 1 to 3 of an erase: SSK, the binding and tile keys, the caches and memories. -/
def State.eraseKeys (s : State) : State :=
  let s := { s with boot := { s.boot with ssk := none }, tamper := { s.tamper with sskErased := true } }
  let s := { s with store := { s.store with west := s.store.west.wiped, east := s.store.east.wiped, masterKey := [] } }
  let s := { s with cat := { s.cat with deskW := false, deskE := false, cacheW := [], cacheE := [] },
                    work := { s.work with progsW := [], progsE := [] } }
  let s := (s.clearGalleries .west).clearGalleries .east
  let clear (d : DocentWing) : DocentWing := { d with local_ := [], shared := [] }
  let s := (s.setDoc .west (clear s.docW)).setDoc .east (clear s.docE)
  ({ s with tamper := { s.tamper with erased := true, hold := true, erasing := true } }).markC0

/-- Step 4: MRAM zeroed, except the standing orders, the floors and the curve table. -/
def State.eraseMram (s : State) : State :=
  { s with ledger := { cfg := s.ledger.cfg, low := s.ledger.low }, cat := { s.cat with wraps := [], floorsAt := [] },
           journal := { s.journal with head := {}, slot := 0, heads := [] }, boot := { s.boot with wrapA := none, wrapB := none },
           tamper := { s.tamper with erasing := false } }

def execMramEraseComplete (s : State) : Res := .next (if s.tamper.erasing && !s.boot.inReset then s.eraseMram else s)

/-! ### The order applied, and the report (R423, R433, R440) -/

/-- The Curator can apply the order: trips wait for it, or a freeze or a boot into TAMPER_HOLD does; in TAMPER_HOLD its firmware has been loaded and
measured first (R407). -/
def State.orderPending (s : State) : Bool :=
  !s.boot.inReset && (!s.tamper.trips.isEmpty || s.tamper.orderDue) && !(s.tamper.hold && (s.boot.stage = 0 || s.recovery))

/-- The Curator applies the order to the classes that have tripped, each under the order in effect when it was detected (R429): ALERT#,
one record each, and the erase if any demands it. After a freeze the report phase begins (R423). -/
def execOrderApply (s : State) : Res :=
  .next (if !s.orderPending then s
    else
      let t := s.tamper
      let erase := t.trips.any fun h => h.action = 2
      let s := s.forAll t.trips fun s h =>
        (s.tamperRecordOf h.trip h.state h.action h.orderSeq).log 9 0 (dieSrc .curatorDie) [byte h.trip.cls, h.trip.detail, byte h.action]
      let s := { s with tamper := { s.tamper with trips := [], orderDue := false, alert := true,
                                                  reportPhase := t.reportPhase || (t.orderDue && t.frozen) } }
      if erase && !s.tamper.erased then s.eraseKeys else s)

/-! ### The battery domain (R425 to R427, R433, R442) -/

/-- An alarm in OFF or STANDBY (R433). -/
def execBatteryDomainAlarm (trip : Trip) (s : State) : Res := .next (if s.powerCode ≤ 1 then s.sensorTrip trip else s)

/-- What BBRAM and the battery domain lose below 2.0 V: SSK, the armed copy, the event ring and its header, the latches, what it records of TAMPER_HOLD
and of an erase, and the time (R425, R426, R524). The sequence goes on: it is never reset (R441). -/
def State.loseBattery (s : State) : State :=
  let t := s.tamper
  { s with boot := { s.boot with ssk := none },
           tamper := { t with latch := 0, armed := {}, ring := [], ringPos := 0, freezes := 0, hold := false, erased := false,
                              sskErased := false, tmpOut := false },
           power := { s.power with rtcBase := 0, rtcAt := s.now, rtcValid := false, lastSlew := none } }

/-- VBAT as measured; while the core supplies are absent, BBRAM keeps its contents down to 2.0 V (R425). -/
def execVbatMeasurement (millivolt : Nat) (s : State) : Res :=
  .next (
    let mv := millivolt % 4096
    let s := { s with tamper := { s.tamper with vbat := mv } }
    if s.boot.inReset && mv < 2000 then s.loseBattery else s)

/-- A region of BBRAM: its contents, zeros, and the CRC-32 over them in its last four bytes (R426). -/
def bbramRegion (size : Nat) (b : List Byte) : List Byte :=
  let body := padTo (size - 4) b
  body ++ Config.prim .crc32 [body] 4

/-- The marker that the SSK region is valid: the spec gives no value for it (DESIGN CHOICE, log entry 149). -/
def sskMarker : List Byte := [0x53, 0x53, 0x4B, 0x31]

/-- The 4 KiB of BBRAM (R426): the SSK region, zero where there is none; the armed copy; the Curator's bytes, which hold nothing; the ring's header;
and the records, the newest before the write position. -/
def State.bbram (s : State) : List Byte :=
  let t := s.tamper
  let ssk := match s.boot.ssk with | some k => bbramRegion 0x40 (leBytes 32 k ++ sskMarker) | none => zeros 0x40
  let armed := bbramRegion 0x40 (leBytes 4 t.armed.actSb.toNat ++ leBytes 4 t.armed.actOff.toNat ++ [byte t.armed.polarity.toNat, 0, 0, 0] ++
    leBytes 4 t.armed.filter.toNat ++ leBytes 4 t.armed.seq.toNat)
  let head := bbramRegion 0x20 ([byte t.ringPos] ++ leBytes 4 t.evSeq ++ leBytes 4 t.freezes)
  let slot (p : Nat) : List Byte := t.ring.getD ((t.ringPos + 62 - p) % 63) (zeros 32)
  ssk ++ armed ++ zeros 0x780 ++ head ++ (List.range 63).flatMap slot

/-- The SSK region of a BBRAM is valid: its marker and its CRC (R426, R427). -/
def sskValid (b : List Byte) : Bool := slice b 32 4 == sskMarker && slice b 60 4 == Config.prim .crc32 [b.take 60] 4

/-! ### Messages (R435 to R438) -/

/-- The management role and the state's quorum for an act of action `action`, needed in OWNED (R411). -/
def State.ownedQuorum (s : State) (action n : Nat) (p : List Byte) (f : State → Answer) : Answer :=
  if s.boot.lifecycle == .owned then s.withQuorum action n p f else f s

/-- What remains of a freeze is undone: Docents resume, dispatch resumes (R438). A report phase that is running goes on, so that every
frozen job has its record (R423). -/
def State.thaw (s : State) : State :=
  let s := { s with tamper := { s.tamper with frozen := false, lostFreeze := false } }
  let s := s.setDoc .west { s.docW with frozen := false }
  s.setDoc .east { s.docE with frozen := false }

/-- Clearance of the latches (R438): from TAMPER_HOLD boot resumes; from a freeze the device goes on. -/
def State.clearTamper (s : State) : State :=
  let s := if s.tamper.hold && s.boot.stage == 1 && s.boot.lifecycle != .scrapped then s.unlock else s
  let s := { s with tamper := { s.tamper with latch := 0, tmpOut := false, alert := false, trips := [], orderDue := false, hold := false,
                                              jobsFrozen := 0 } }
  (s.tamperRecord { cls := 0, detail := 0, value := 0 } s.powerCode 4).thaw.refetchAll

/-- Conditions that were present may have ended: which still are is a free value (R442 TAMPER_LIVE). -/
def State.conditionsEnd (s : State) : State :=
  let d := s.free
  let t := d.2.tamper
  { d.2 with tamper := { t with live := t.live &&& BitVec.ofNat 16 d.1 } }

def execTamperClear (m : Sender) (params : List Byte) (s : State) : Res :=
  .next (s.message m 0x20 0 params fun p s =>
    let s := s.conditionsEnd
    let mask := leAt p 0 4 % 2 ^ 16
    let covered := leAt p 4 4
    let t := s.tamper
    let ok := (t.latch.toNat &&& mask) == t.latch.toNat && t.evSeq ≤ covered && (t.live.toNat &&& mask) == 0 && !t.erased && t.trips.isEmpty &&
      !t.lostFreeze
    if !ok then deny St.policyDenied s
    else s.ownedQuorum 0x20 8 p fun s => (St.ok, [], s.clearTamper))

/-- An order's container and body are well formed (R428, R430, R451). -/
def orderOk (o : List Byte) : Bool :=
  let kind := byteAt o 6
  let n := leAt o 16 4
  slice o 0 6 == [0x53, 0x4F, 0x52, 0x31, 0x01, 0x00] && byteAt o 7 == 0 && allZero (slice o 20 44) && o.length ≥ 64 + n &&
    (if kind = 1 then n = 32 && allZero (slice o 77 3) && byteAt o 84 < 4 && allZero (slice o 85 11) &&
        (List.range 8).all (fun k => fieldAt (leAt o 80 4) (4 * k) 4 ≤ 4)
     else kind = 2 && n = 16 && leAt o 64 2 &&& 0x21D == leAt o 64 2 && leAt o 66 2 = 0 && byteAt o 68 < 2 && allZero (slice o 69 11))

/-- The action words follow R431. -/
def actionsOk (o : List Byte) : Bool :=
  [64, 68, 72].all fun at_ => (List.range 16).all fun c =>
    let a := fieldAt (leAt o at_ 4) (2 * c) 2
    if c = 6 || c = 7 then a = 0 else if c < 8 then a ≤ 1 else true

/-- The tamper order of a container's body. -/
def tamperOrderOf (o : List Byte) : TamperOrder :=
  { seq := w32 (leAt o 8 4), actOp := w32 (leAt o 64 4), actSb := w32 (leAt o 68 4), actOff := w32 (leAt o 72 4),
    polarity := BitVec.ofNat 8 (byteAt o 76), filter := w32 (leAt o 80 4), hostErase := (byteAt o 84).testBit 0,
    outLow := (byteAt o 84).testBit 1 }

/-- What the armed copy takes of an order (R426). -/
def TamperOrder.armedCopy (o : TamperOrder) : ArmedOrder :=
  { seq := o.seq, actSb := o.actSb, actOff := o.actOff, polarity := o.polarity, filter := o.filter }

/-- A tamper order is in effect: in MRAM and in the armed copy (R429). -/
def Tamper.putOrder (t : Tamper) (o : TamperOrder) : Tamper := { t with order := o, armed := o.armedCopy, heldOrder := none }

def sparesOrderOf (o : List Byte) : SparesOrder :=
  { seq := w32 (leAt o 8 4), unitAsk := BitVec.ofNat 16 (leAt o 64 4), channelAsk := (byteAt o 68).testBit 0 }

/-- An order in effect, or held until its not_before (R429). -/
def State.installOrder (s : State) (o : List Byte) : State :=
  let at_ := leAt o 12 4
  let now := at_ = 0 || at_ ≤ s.rtcSec
  let t := s.tamper
  if byteAt o 6 = 1 then
    { s with tamper := if now then t.putOrder (tamperOrderOf o) else { t with heldOrder := some (at_, tamperOrderOf o) } }
  else
    { s with tamper := if now then { t with spares := sparesOrderOf o, heldSpares := none } else { t with heldSpares := some (at_, sparesOrderOf o) } }

/-- The sequence of the installed order of a kind, a held one counted. -/
def State.orderSeq (s : State) (kind : Nat) : Nat :=
  let t := s.tamper
  if kind = 1 then max t.order.seq.toNat (match t.heldOrder with | some x => x.2.seq.toNat | none => 0)
  else max t.spares.seq.toNat (match t.heldSpares with | some x => x.2.seq.toNat | none => 0)

def execOrderInstall (m : Sender) (params : List Byte) (s : State) : Res :=
  .next (s.message m 0x21 0 params fun p s =>
    let n := 64 + leAt p 16 4
    if !orderOk p then deny St.inputRejected s
    else if s.boot.lifecycle != .owned || leAt p 8 4 ≤ s.orderSeq (byteAt p 6) || (byteAt p 6 = 1 && !actionsOk p) then
      deny St.policyDenied s
    else s.withQuorum 0x21 n p fun s => (St.ok, [], s.installOrder (p.take n)))

/-- The bytes of the order in effect of a kind. -/
def State.orderBytes (s : State) (kind : Nat) : List Byte :=
  let t := s.tamper
  let head (seq : Word32) (n : Nat) : List Byte :=
    [0x53, 0x4F, 0x52, 0x31, 0x01, 0x00, byte kind, 0x00] ++ leBytes 4 seq.toNat ++ zeros 4 ++ leBytes 4 n ++ zeros 44
  if kind = 1 then
    let o := t.order
    head o.seq 32 ++ leBytes 4 o.actOp.toNat ++ leBytes 4 o.actSb.toNat ++ leBytes 4 o.actOff.toNat ++ [byte o.polarity.toNat] ++ zeros 3 ++
      leBytes 4 o.filter.toNat ++ [byte (b2n o.hostErase + 2 * b2n o.outLow)] ++ zeros 11
  else
    head t.spares.seq 16 ++ leBytes 4 t.spares.unitAsk.toNat ++ [byte (b2n t.spares.channelAsk)] ++ zeros 11

/-- ORDER_READ: a kind other than the two is INPUT_RANGE. -/
def execOrderRead (m : Sender) (params : List Byte) (s : State) : Res :=
  .next (
    let kind := byteAt ((s.mailbox m).params params) 0
    s.message m 0x23 (if kind = 1 then 96 else if kind = 2 then 80 else 0) params fun _ s =>
      if kind = 1 || kind = 2 then (St.ok, s.orderBytes kind, s) else deny St.inputRange s)

/-- ERASE (R435): a freeze first, then steps 1 to 3; MRAM_ERASE_COMPLETE follows. -/
def execErase (m : Sender) (params : List Byte) (s : State) : Res :=
  .next (s.message m 0x22 0 params fun p s =>
    let go (s : State) : Answer := (St.ok, [], (s.freeze .curatorDie).eraseKeys)
    if s.tamper.order.hostErase then go s else s.ownedQuorum 0x22 0 p go)

/-- A held order of a kind takes effect at its not_before. -/
def execStandingOrderEffective (kind : Nat) (s : State) : Res :=
  .next (
    let t := s.tamper
    if kind = 1 then
      match t.heldOrder with
      | some (at_, o) => if at_ ≤ s.rtcSec then { s with tamper := t.putOrder o } else s
      | none => s
    else if kind = 2 then
      match t.heldSpares with
      | some (at_, o) => if at_ ≤ s.rtcSec then { s with tamper := { t with spares := o, heldSpares := none } } else s
      | none => s
    else s)

end Sys2Proof.Machine
end

