-- ==== Sys2Proof/Machine/Complete.lean ====
section
/-! DEFINITION. How an EXEC completes (R137 step 6, R139, R217, R337, R338), how units preempt and resume (R35, R330), wipes (R29),
and the arrival of its reads (R543). -/

namespace Sys2Proof.Machine

/-! ### Step 6 -/

/-- The outputs of a result with their buffers. -/
def outPairs (j : Job) (outs : List OutVal) : List (OutVal × Option Buf) :=
  outs.zipIdx.map fun p => (p.1, j.buf ((execFields j.ins).bd + p.2))

/-- Step 6(a): the accessions of the TEMPLATE outputs are reserved in order; a refusal releases those before it. -/
def State.reserveAll (s : State) (n : Nat) (j : Job) : List (OutVal × Option Buf) → List Pending → Except Byte (List Pending) × State
  | [], got => (.ok got, s)
  | (o, b) :: r, got =>
    match o.key, b with
    | some k, some (.template body) =>
      match s.reserveAccession n j.coll (execFields j.ins).vr body k with
      | (.ok p, s) => s.reserveAll n j r (got ++ [p])
      | (.error st, s) => (.error st, s.forAll got fun s p => s.releaseReservation p)
    | _, _ => s.reserveAll n j r got

/-- The host writes of the outputs, in window order. -/
def hostOuts (l : List (OutVal × Option Buf)) : List StagedWrite :=
  l.flatMap fun p => match p.2 with | some (.host parts) => hostWrites parts p.1.bytes | _ => []

/-- The outputs written to gallery memory. -/
def Job.galleryOuts (j : Job) (l : List (OutVal × Option Buf)) : Job :=
  l.foldl (fun j p => match p.2 with
    | some (.gallery a off _) => j.gwrite a off p.1.bytes p.1.secret p.1.mark
    | _ => j) j

def writeBytes (l : List StagedWrite) : Nat := (l.map (·.bytes.length)).sum

/-- vr receives the handle of the first key made, which is the private one of a pair (R290), or the scalar. -/
def Job.result (j : Job) (ps : List Pending) (scalar : Option Word64) : Job :=
  let vr := (execFields j.ins).vr
  let j := match ps with | p :: _ => j.setReg vr (recHandle p.record) | [] => j
  match scalar with | some v => j.setReg vr v | none => j

/-- F after a verdict and a truncated output. -/
def resultF (f : Byte) (r : ExecResult) : Byte :=
  let f := match r.verdict with | some p => fVerdict f p | none => f
  if r.truncated then fTruncated f else f

/-- The EXEC has succeeded: reservations, writes, commits, vr, S and F. -/
def State.finishExec (s : State) (n : Nat) (j : Job) (r : ExecResult) (writeFails : Bool) : State :=
  let outs := outPairs j r.outs
  let w := galleryWing j.gallery
  let makes := outs.any fun p => p.1.key.isSome
  if makes && !s.hasCurator w then s.endJob n St.splitOrphan
  else
    let a := s.reserveAll n j outs []
    match a.1 with
    | .error st => a.2.failExec n st
    | .ok ps =>
      let s := a.2
      let release (s : State) : State := s.forAll ps fun s p => s.releaseReservation p
      let writes := hostOuts outs
      let j1 := j.galleryOuts outs
      let st := if r.truncated then St.okTruncated else St.ok
      match j.group with
      | some g =>
        let j2 := { j1 with group := some { g with staged := g.staged ++ writes, accessions := g.accessions ++ ps } }
        if j2.staged > 32768 || !s.memoryFits n j2 then (release s).failExec n St.resourceExhausted
        else
          let j3 := { j2.result ps r.scalar with f := resultF j2.f r }
          ((s.putJob n j3).restUnits n).complete n j3 st (insCont j.ins)
      | none =>
        if !writes.isEmpty && !s.dmaOk j then (release s).endJob n St.accessDenied else
        let s := match r.released, j.buf (execFields j.ins).bd with
          | _ + 1, some (.host parts) =>
            let plain := (r.outs.getD 0 {}).bytes
            s.releaseSegments j.wing parts plain (segmentCount plain) none
          | _, _ => s.issue j.wing writes
        if writeFails && !writes.isEmpty then (release s).endJob n St.badBuffer
        else
          let s := s.forAll ps fun s p => s.commitAccession p
          let j3 := { j1.result ps r.scalar with f := resultF j1.f r, outLen := j1.outLen + writeBytes writes, made := j1.made ++ ps.map fun p => recHandle p.record,
                                                 flags := if r.released = 0 then j1.flags else j1.flags ||| Rf.releasedUnverified }
          ((s.putJob n j3).restUnits n).complete n j3 st (insCont j.ins)

/-- A progressive release that ends with a status after its plaintext has been written: TAG_MISMATCH, or a destination write that failed
(R337, R338). -/
def State.scrubRelease (s : State) (n : Nat) (j : Job) (r : ExecResult) (st : Byte) (fails : Option Nat) (zeroFails : Nat → Bool) : State :=
  match j.buf (execFields j.ins).bd with
  | some (.host parts) =>
    let plain := (r.outs.getD 0 {}).bytes
    if !s.dmaOk j then s.endJob n St.accessDenied else
    let c := match fails with | some k => min (k + 1) (segmentCount plain) | none => segmentCount plain
    let x := (s.releaseSegments j.wing parts plain c fails).scrub j parts plain st c fails zeroFails
    let ex := j.exec.map fun e => { e with result := none }
    (x.2.putJob n { j with exec := ex, flags := j.flags ||| x.1 }).endJob n st
  | _ => s.endJob n st

/-- What a fault of a big-number engine adds to its log record: both engines that work for the job, and its slots as the first and their count on each (R320);
the order and widths are the model's (log entry 128). -/
def State.faultSlots (s : State) (n : Nat) (u : UnitId) : List Byte :=
  if u.kind != Kind.bigNumber then []
  else
    let l := s.work.grants.filter fun g => g.job == n && !g.idle && g.res == .bigNumber u.loc
    let slots := match l with | g :: _ => g.mem.slots | [] => []
    [byte ((l.map fun g => 2 ^ g.idx).sum), byte (slots.headD 0), byte slots.length]

/-- A countermeasure of a unit that the job uses has tripped (R217): FAULT_DETECTED, the log with the unit, the function and the
countermeasure, and the unit's error count. -/
def State.tripExec (s : State) (n : Nat) (j : Job) (u : UnitId) (measure : Nat) (zeroFails : Nat → Bool) : State :=
  let s := s.log 2 St.faultDetected (unitSrc u) (leBytes 2 (execFields j.ins).code ++ leBytes 4 j.tag.toNat ++ [byte measure] ++ s.faultSlots n u)
  (s.endJobWith n St.faultDetected 0 0 .record zeroFails).countError u

/-- A computation that has found a fault by itself, as the decapsulation-key hash check of R201 does, trips the LRE on which it runs (R216,
R217): row 8 of R216. -/
def State.faultFound (s : State) (n : Nat) (j : Job) : State :=
  match s.work.grants.find? fun g => g.job == n && !g.idle && (match g.res with | .lre _ => true | _ => false) with
  | some g => match g.unit with
    | some u => s.tripExec n j u 8 fun _ => false
    | none => s.failExec n St.faultDetected
  | none => s.failExec n St.faultDetected

/-- Whether the job uses the unit: it holds it, or it loads a key through it (R295, R298). -/
def State.uses (s : State) (n : Nat) (u : UnitId) : Bool :=
  s.work.grants.any (fun g => g.job == n && g.unit == some u) ||
    (u.kind == Kind.bfe && (s.maskGalleries 0xFFFF).contains u.loc && (match s.job n with | some j => runsFn 0x0707 j.gallery j | none => false))

/-- The engines have done an EXEC's work, or a check in one of its units has tripped. A trip ends it with FAULT_DETECTED whatever status its result
holds, so a HYB.SIGN whose ML-DSA half has reached its retry limit too (R217 before R224; DESIGN CHOICE, log entry 135). -/
def execEngineOperationComplete (job : Nat) (ev : EngineEvent) (s : State) : Res :=
  .next (match s.job job with
    | some j =>
      match j.exec with
      | some e =>
        match e.result, fnDef (execFields j.ins).code with
        | some r, some d =>
          if s.tamper.frozen || j.parked || !s.wingRuns (galleryWing j.gallery) || e.stage != .running || s.isSuspended job || s.stalled j e || !d.ready job r s then s
          else match ev.trip with
            | some u => if s.uses job u then (s.tripExec job j u ev.measure ev.scrubFails.contains).pumpAll else s
            | none =>
              let r := d.finish r s
              if r.released != 0 && ev.writeFails then (s.scrubRelease job j r St.badBuffer (some ev.segment) ev.scrubFails.contains).pumpAll
              else if isSuccess r.status then (s.finishExec job j r ev.writeFails).pumpAll
              else if r.released != 0 then (s.scrubRelease job j r r.status none ev.scrubFails.contains).pumpAll
              else if r.status == St.faultDetected then (s.faultFound job j).pumpAll
              else (s.failExec job r.status).pumpAll
        | _, _ => s
      | none => s
    | none => s)

/-! ### Wipes (R29) -/

/-- A queued RESIDE takes effect where the BFE stands at a job boundary (R295). -/
def State.loadDue (s : State) (g : Nat) : State :=
  if s.tamper.frozen || (s.gal g).queuedLoad.isNone || !s.bfeIdle (s.gal g).loadBy g then s else s.setGal g (s.gal g).load

/-- A unit of a kind, the one whose wipe began first, has been wiped and may take a job. -/
def execEngineWipeComplete (gallery kind : Nat) (s : State) : Res :=
  .next (let x := s.gal gallery
    if !x.wiping.any fun y => y.1 == kind then s
    else ((s.setGal gallery { x with wiping := x.wiping.eraseP fun y => y.1 == kind }).loadDue gallery).pumpAll)

/-! ### Preemption (R35, R36, R330) -/

/-- Who waits for a resource, with its class and how many units it wants: an EXEC, or a page's operation. -/
def State.waiter (s : State) (r : Resource) (n : Nat) : Option (Nat × Nat) :=
  match s.job n with
  | some j =>
    match j.exec with
    | some e => if waitsFor j r && !j.parked then some (j.cls, ((e.need.filter fun x => resOf j x.1 == r).map (s.takes j)).sum) else none
    | none => none
  | none =>
    if n ≥ 0x100000 && s.pageWaits (n - 0x100000) && r == .compat (s.pageWing (n - 0x100000)) then some (s.pageClass (n - 0x100000), 1) else none

/-- Suspended state can be kept: 512 contexts of a pipeline, 256 of a cluster (R330); an LRE, LSU, BFE or big-number engine has a bank, a
partition or slots for each class (R189, R286, R304). -/
def State.storeFor (s : State) (g : Grant) : Bool :=
  match g.res with
  | .aes k => (s.gal k).ctxStore < 512
  | .compat _ => (s.work.grants.filter fun x => x.res == g.res && x.suspended).length < 256
  | _ => true

/-- The unit of a running grant would serve the waiter: it is one whose bank the waiter keeps, or, where the waiter keeps none, one whose bank
of its class is free. -/
def State.serves (s : State) (g : Grant) (n cls : Nat) : Bool :=
  let kept := s.kept n g.res
  if !keepsBank g.res then true
  else if kept.isEmpty then !s.work.grants.any fun x => x.unit == g.unit && x.job != n && s.jobClass x.job == cls
  else kept.any fun x => x.unit == g.unit

/-- The running grant to suspend: of the lowest class below `cls`, the most recent. -/
def State.victim (s : State) (r : Resource) (n cls : Nat) : Option Grant :=
  let l := s.work.grants.filter fun g => g.res == r && g.running && s.jobClass g.job > cls && s.serves g n cls
  l.foldl (fun b g => match b with
    | none => some g
    | some x => if s.jobClass g.job > s.jobClass x.job || (s.jobClass g.job == s.jobClass x.job && g.seq > x.seq) then some g else some x) none

def State.setSuspended (s : State) (seq : Nat) (v : Bool) (idx : Nat) : State :=
  { s with work := { s.work with grants := s.work.grants.map fun g => if g.seq = seq then { g with suspended := v, idx } else g } }

/-- A running grant is suspended; a pipeline's context goes to the context store. -/
def State.suspendGrant (s : State) (g : Grant) : State :=
  let s := s.setSuspended g.seq true g.idx
  match g.res with
  | .aes k => s.setGal k { s.gal k with ctxStore := (s.gal k).ctxStore + 1 }
  | _ => s

/-- A grant is suspended in its unit; both engines of a big-number pair yield together (R304). -/
def State.suspendWith (s : State) (g : Grant) : State :=
  match g.res with
  | .bigNumber _ => s.forAll (s.work.grants.filter fun x => x.res == g.res && x.job == g.job && x.running) fun s x => s.suspendGrant x
  | _ => s.suspendGrant g

/-- A request that the free units do not satisfy suspends a lower-class job's; free units stay held for it (R36). -/
def execJobPreemption (res : Resource) (higher : Nat) (s : State) : Res :=
  .next (if s.tamper.frozen then s
    else match s.waiter res higher with
      | none => s
      | some w =>
        match s.victim res higher w.1 with
        | none => s
        | some g => if s.suffices higher w.1 res w.2 || !s.storeFor g then s else (s.suspendWith g).pumpAll)

/-- A suspended grant may resume: its own unit is free where the state stays in the unit, both of a big-number pair (R304), else any; no higher class waits or is
suspended there, and its job holds a context. -/
def State.mayResume (s : State) (g : Grant) : Bool :=
  let cls := s.jobClass g.job
  let room := match g.res with
    | .bigNumber _ => !(s.work.grants.filter fun x => x.job == g.job && x.res == g.res && x.suspended).any s.unitBusy
    | _ => if keepsBank g.res then !s.unitBusy g else !(s.freeUnits g.job cls g.res).isEmpty
  let parked := match s.job g.job with | some j => j.parked | none => false
  room && !parked && !s.jobList.any (fun p => waitsFor p.2 g.res && p.2.cls < cls) &&
    !s.clusterWaits g.res cls && !s.work.grants.any fun x => x.res == g.res && x.suspended && s.jobClass x.job < cls

/-- A suspended grant resumes, on its own unit or on one that is free. -/
def State.resumeGrant (s : State) (g : Grant) : State :=
  if !g.suspended || !s.mayResume g then s
  else
    let idx := if keepsBank g.res then g.idx else (s.freeUnits g.job (s.jobClass g.job) g.res).headD 0
    let s := s.setSuspended g.seq false idx
    match g.res with
    | .aes k => s.setGal k { s.gal k with ctxStore := (s.gal k).ctxStore - 1 }
    | _ => s

/-- A job whose lease ran out while it was suspended ends once it is resumed (R37). -/
def State.endResumed (s : State) (n : Nat) : State :=
  match s.job n with
  | some j =>
    match j.ending with
    | some st => if j.phase == .exec && !s.isSuspended n then s.endJob n st else s
    | none => s
  | none => s

def execSuspendedJobResume (job : Nat) (s : State) : Res :=
  .next (if s.tamper.frozen then s
    else ((s.forAll (s.work.grants.filter fun g => g.job == job) fun s g => s.resumeGrant g).endResumed job).pumpAll)

/-! ### Reads (R543) -/

/-- The data of one host read of a job's EXEC; data of any other length is not that read's. -/
def execDmaReadCompletion (job read : Nat) (data : List Byte) (s : State) : Res :=
  .next (match s.job job with
    | some j =>
      match j.exec with
      | some e =>
        match e.reads[read]? with
        | some r =>
          let held := s.work.grants.any fun g => g.job == job && g.suspended && g.res == .dmaRead j.wing
          if s.tamper.frozen || e.stage != .reading || held || r.got.isSome || data.length != r.len then s
          else (s.putJob job { j with exec := some { e with reads := setAt e.reads read { r with got := some data } } }).pumpAll
        | none => s
      | none => s
    | none => s)

/-! ### Residency (R295, R296) -/

/-- A queued RESIDE takes effect at the BFE's job boundary, after the wipe of a key generation (R295). -/
def execQueuedResideLoad (gallery : Nat) (s : State) : Res := .next (s.loadDue gallery)

/-- The key that a key generation evicted is resident again. -/
def execResidentKeyReload (gallery : Nat) (s : State) : Res :=
  .next (let x := s.gal gallery
    match x.reload with
    | some key =>
      if s.tamper.frozen || !s.bfeIdle 0 gallery || x.queuedLoad.isSome then s
      else s.setGal gallery { x with resident := some key, reload := none }
    | none => s)

end Sys2Proof.Machine
end

