-- ==== Sys2Proof/Machine/StoreRows.lean ====
section
/-! DEFINITION. The Storeroom's commands (R376 to R397). -/

namespace Sys2Proof.Machine

/-- STORE_CFG fields (R397). -/
def State.patrolNs (s : State) : Nat := bits32 s.store.cfg 0 8 * 3600000000000
def State.rehomeCe (s : State) : Nat := bits32 s.store.cfg 8 4
def State.retireUe (s : State) : Nat := bits32 s.store.cfg 12 4

/-- The tile lies in a region of its wing. -/
def State.tileExists (s : State) (t : TileId) : Bool := (s.regionOf t.tile).isSome

/-- An orphan's gate may serve a read of a job: every node of the path is cached and was verified at or after the last renewal of the
job's earliest-expiring loan (R394). -/
def State.orphanReads (s : State) (t : TileId) (n : Nat) : Bool :=
  match s.job n with
  | none => false
  | some j =>
    let loans := (j.h.filterMap id).filterMap s.loan
    match loans with
    | [] => false
    | l :: r =>
      let e := r.foldl (fun a b => if b.from_ + b.leaseNs < a.from_ + a.leaseNs then b else a) l
      (pathNodes t.tile).all fun p => s.nodeHeld t.wing p.1 p.2 && e.from_ ≤ (s.node t.wing p.1 p.2).verifiedAt

/-- The job that needed the tile ends with a status. -/
def State.endNeed (s : State) (job : Option Nat) (st : Byte) : State :=
  match job with
  | some n => (s.endJob n st).pumpAll
  | none => s

/-- The ledger slot of the key that a job signs with. -/
def State.jobSlot (s : State) (job : Option Nat) : Option Nat :=
  match job.bind s.job with
  | some j => ((s.execLoans j (execFields j.ins)).head?).bind fun l => s.slotOf (recHandle l.record)
  | none => none

/-- A tree-cache tile that fails verification is discarded, and the Registrar regenerates the cache of the key that the job signs with, or of the key
whose nodes the tile holds (R266, R388). -/
def State.dropCache (s : State) (t : TileId) (job : Option Nat) : State :=
  if s.regionOf t.tile != some .treeCache then s
  else s.dropTrees ((s.jobSlot job).getD (Config.treeOwner (t.tile - s.regionUnits .catalogue * tilesPerUnit)))

/-- A tile that cannot be read from either copy: its catalogue entries cannot be lent, and the log lists their handles (R388). -/
def State.logHandles (s : State) (t : TileId) : State :=
  if s.regionOf t.tile != some .catalogue then s
  else s.forAll (s.entries.filter fun r => recordTile r == t.tile) fun s r =>
    s.log 4 St.storeroomIntegrity (dieSrc (wingDie t.wing)) (leBytes 8 (recHandle r).toNat)

/-! ### Reads -/

def execTileRead (t : TileId) (fetch : TileFetch) (job : Option Nat) (s : State) : Res :=
  .next (if !s.tileExists t || !s.gateUp t.wing then s
    else if s.orphan t.wing && !(match job with | some n => s.orphanReads t n | none => false) then s.endNeed job St.splitOrphan
    else
      let f := s.effective t fetch
      let st := (s.fetchStatus t f).1
      let s := s.recordFetch t f
      if st == St.ok then s.cachePath t
      else if st == St.storeroomMedia then (if s.peerServes t then s else s.endNeed job st)
      else (s.dropCache t job).endNeed job st)

/-- The peer's gate reads its own copy (R389): a copy that verifies repairs a tile that met an integrity failure, but not on an orphan, whose gate
writes nothing (R394); one that does not leaves both copies failed. -/
def execPeerFallbackRead (t : TileId) (fetch : TileFetch) (job : Option Nat) (s : State) : Res :=
  .next (let x := s.tile t
    let failed := x.mediaFailed || x.unlendable || (s.channel (s.channelOf t)).failed
    let p : TileId := ⟨otherWing t.wing, t.tile⟩
    if !s.mirrored t.tile || !failed || x.version = 0 then s
    else if !s.peerServes t then s.endNeed job St.storeroomMedia
    else
      let f := s.effective p fetch
      let st := (s.fetchStatus p f).1
      let s := s.recordFetch p f
      if st == St.ok then
        (if x.unlendable && !x.mediaFailed && !s.orphan t.wing && s.gateUp t.wing then ((s.cachePath p).putTile t (s.tile p).data).markRepaired t
         else s.cachePath p)
      else (s.logHandles t).endNeed job (if x.unlendable then st else St.storeroomMedia))

/-! ### The patrol (R390) -/

/-- Tiles and nodes that have been written, of both wings, and those of them that the patrol has read in this pass. -/
def State.written (s : State) : Nat × Nat :=
  let tiles := (s.store.west.tiles ++ s.store.east.tiles).filter fun p => p.2.version != 0
  let nodes := (s.store.west.nodes ++ s.store.east.nodes).filter fun p => p.2.version != 0
  (tiles.length + nodes.length, (tiles.filter (·.2.patrolled)).length + (nodes.filter (·.2.patrolled)).length)

/-- The patrol's read of one tile or node has been made and noted. -/
def State.patrolRead (s : State) (p : PatrolSpot) (r : DramRead) : State :=
  if p.level = 0 then
    let t : TileId := ⟨p.wing, p.number⟩
    let f := s.effective t { tile := r }
    let x := s.tile t
    let st := s.dramStatus p.wing 0 p.number x.version x.echo f.tile
    let s := if r.corrected then s.countCe t else s
    let s := if st == St.ok then s else s.storeFailure t st 0
    let s := if st == St.ok || st == St.storeroomMedia then s else s.dropCache t none
    s.setTile t { s.tile t with patrolled := true }
  else
    let t : TileId := ⟨p.wing, p.number * 128 ^ p.level⟩
    let x := s.node p.wing p.level p.number
    let st := s.dramStatus p.wing p.level p.number x.version x.echo r
    let s := if r.corrected then s.countCe t else s
    let s := if st == St.ok then s else s.storeFailure t st p.level
    let y := s.node p.wing p.level p.number
    s.setNode p.wing p.level p.number { y with patrolled := true, verifiedAt := if st == St.ok then s.runNs else y.verifiedAt }

/-- A patrol pass is over once every written tile and node has been read; the next one begins when the time of STORE_CFG.patrol_hours has passed
since this one began. -/
def State.endPass (s : State) : State :=
  let n := s.written
  if n.2 < n.1 then s
  else
    let clear (w : StoreWing) : StoreWing :=
      { w with tiles := w.tiles.map fun p => (p.1, { p.2 with ceThisPass := 0, patrolled := false }),
               nodes := w.nodes.map fun p => (p.1, { p.2 with patrolled := false }) }
    { s with store := { s.store with passes := (s.store.passes + 1) % 2 ^ 24, passStart := max s.now (s.store.passStart + s.patrolNs),
                                     west := clear s.store.west, east := clear s.store.east } }

/-- The patrol's read of a written tile or node: steps 1, 3 and 4 of R386, once in a pass. -/
def execPatrolScrub (p : PatrolSpot) (fetch : DramRead) (s : State) : Res :=
  .next (let seen := if p.level = 0 then (s.tile ⟨p.wing, p.number⟩).patrolled else (s.node p.wing p.level p.number).patrolled
    if s.versionAt p.wing p.level p.number = 0 || p.level > 3 || !s.gateUp p.wing || seen || s.now < s.store.passStart then s
    else (s.patrolRead p fetch).endPass)

/-! ### Writes and the counter tree (R383, R384) -/

/-- A write whose CRC error persists through four retries leaves an uncorrectable burst (R376). -/
def State.crcFailed (s : State) (t : TileId) (errors : Nat) : State := if errors ≤ 4 then s else s.mediaFailure t 0

/-- A whole-tile write: of both copies in a mirrored region; a copy on an orphan becomes stale (R394). -/
def execTileWrite (t : TileId) (data : List Byte) (store : TileStore) (s : State) : Res :=
  .next (let p : TileId := ⟨otherWing t.wing, t.tile⟩
    if !s.tileExists t || !s.gateUp t.wing || data.length > 4096 then s
    else if s.orphan t.wing then s.endNeed store.job St.splitOrphan
    else
      let s := (s.putTile t data).crcFailed t store.crcErrors
      if !s.mirrored t.tile then s
      else if s.orphan p.wing || !s.gateUp p.wing then s.setStoreWing p.wing { s.storeWing p.wing with stale := true }
      else s.putTile p data)

/-- A dirty node is written back: its version rises, and the node above is dirty in turn; of a level-3 node the Curator is asked for the root update
that the write-back needs (R384). -/
def execNodeWriteback (w : Wing) (level node : Nat) (s : State) : Res :=
  .next (let x := s.node w level node
    if x.dirtyAt.isNone || !s.gateUp w || s.orphan w || level = 0 || level > 3 then s
    else if level = 3 then
      let sw := s.storeWing w
      if !s.reaches w || sw.rootDue.contains node then s else s.setStoreWing w { sw with rootDue := sw.rootDue ++ [node] }
    else s.writeBack w level node)

/-- The Curator writes a wing's root for a level-3 write-back that has asked for it, which is then complete. -/
def execRootUpdate (w : Wing) (node : Nat) (s : State) : Res :=
  .next (if !s.gateUp w || s.orphan w || !s.reaches w || !(s.storeWing w).rootDue.contains node then s else s.writeBack w 3 node)

/-! ### Re-homing and retirement (R391, R392) -/

def StoreWing.spares (x : StoreWing) (k : Nat) : Nat := if k = 0 then x.spares0 else x.spares1
def StoreWing.setSpares (x : StoreWing) (k n : Nat) : StoreWing := if k = 0 then { x with spares0 := n } else { x with spares1 := n }

/-- Spare tiles that a wing can use on a channel: those of a channel in service that answers (R391). -/
def State.sparesOn (s : State) (w : Wing) (k : Nat) : Nat :=
  let c := s.channel (wingChannel w k)
  if c.state == 2 && !c.failed && !c.retiring then (s.storeWing w).spares k else 0

/-- A tile is to be re-homed: its corrected bursts, or a media failure that the peer's copy repairs. -/
def State.rehomeDue (s : State) (t : TileId) : Bool :=
  let x := s.tile t
  let p := s.tile ⟨otherWing t.wing, t.tile⟩
  x.version != 0 && (x.ceThisPass ≥ s.rehomeCe || (x.mediaFailed && s.peerServes t && p.version != 0 && !p.mediaFailed && !p.unlendable))

/-- Any retirement copy runs (STORE_STATUS.retiring). -/
def State.retiring (s : State) : Bool := (List.range 4).any fun c => (s.channel c).retiring

/-- Retirement starts if the wing has two channels in service and its regions fit in the other. -/
def State.startRetire (s : State) (c : Nat) : State :=
  let o := 2 * (c / 2) + (1 - c % 2)
  let units := s.regionUnits .catalogue + s.regionUnits .treeCache + s.regionUnits .docent
  let x := s.channel c
  if !s.reaches (channelWing c) then s
  else if s.channelUp c && s.channelUp o && units ≤ (s.channel o).capacityGb * 126 / 64 then
    let s := s.setChannel c { x with retiring := true, asked := false }
    { s with store := { s.store with retireBlocked := false } }
  else
    { s with store := { s.store with retireBlocked := true } }

/-- A retirement request, under the spares order's AUTO or ASK. -/
def State.requestRetire (s : State) (c : Nat) : State :=
  let x := s.channel c
  if !s.channelUp c || x.asked || s.retiring || !s.reaches (channelWing c) then s
  else if s.tamper.spares.channelAsk then (s.setChannel c { x with asked := true }).log 4 0 (dieSrc (wingDie (channelWing c))) [byte c]
  else s.startRetire c

/-- A tile is written to a spare tile on its channel, or on the wing's other one when that has none left (R391). -/
def execTileRehome (t : TileId) (s : State) : Res :=
  .next (if !s.rehomeDue t || !s.gateUp t.wing || s.orphan t.wing then s
    else
      let x := s.tile t
      let c := s.channelOf t
      let k := c % 2
      let data := if x.mediaFailed then (s.tile ⟨otherWing t.wing, t.tile⟩).data else x.data
      if s.sparesOn t.wing k = 0 && s.sparesOn t.wing (1 - k) = 0 then
        (s.log 4 0 (dieSrc (wingDie t.wing)) (storeDetail t.wing 0 t.tile)).requestRetire c
      else
        let dest := if s.sparesOn t.wing k = 0 then 1 - k else k
        let w := s.storeWing t.wing
        let s := s.setStoreWing t.wing (w.setSpares dest (w.spares dest - 1))
        let s := s.setTile t { s.tile t with home := if dest = k then x.home else some dest, ceThisPass := 0 }
        let s := s.writeTile t data
        let s := if x.mediaFailed then s.markRepaired t else s
        s.log 4 0 (dieSrc (wingDie t.wing)) (storeDetail t.wing 0 t.tile))

def execChannelRetirementRequest (c : Nat) (s : State) : Res :=
  .next (let x := s.channel c
    let recent := x.ueTimes.filter fun a => s.now - a < dayNs
    let w := channelWing c
    let noSpare := s.sparesOn w 0 = 0 && s.sparesOn w 1 = 0 &&
      (s.storeWing w).tiles.any fun p => s.rehomeDue ⟨w, p.1⟩ && s.channelOf ⟨w, p.1⟩ == c
    if c ≥ 4 || s.tamper.frozen || !(recent.length ≥ s.retireUe || noSpare) then s else s.requestRetire c)

/-- STORE_RETIRE. -/
def execStoreRetire (f : Fn) (v : Word32) (s : State) : Res :=
  .next (s.mgmtWrite f 0x170060 fun s =>
    let c := bits32 v 0 2
    if !bit32 v 31 then s
    else if !s.channelUp c || s.retiring then s.regError f St.accessDenied 0x170060
    else s.startRetire c)

/-- One tile of a retiring channel copied to the other: a failing one from the peer wing's copy in a mirrored region, and a media failure where that
does not serve (R392). -/
def State.copyOff (s : State) (c : Nat) (t : TileId) : State :=
  let x := s.tile t
  let p : TileId := ⟨otherWing t.wing, t.tile⟩
  let s1 := s.setTile t { x with home := some (1 - c % 2) }
  if !(x.mediaFailed || x.unlendable || (s.channel c).failed) then s1.writeTile t x.data
  else if s.peerServes t && (s.fetchStatus p (s.effective p {})).1 == St.ok && !(s.tile p).unlendable then s1.writeTile t (s.tile p).data
  else s1.mediaFailure t 0

/-- The copy of a channel's tiles is complete: its DRAM reset is then held low (`State.dramReset`). -/
def execRetirementCopyComplete (c : Nat) (s : State) : Res :=
  .next (let w := channelWing c
    if !(s.channel c).retiring || s.tamper.frozen || !s.gateUp w || s.orphan w then s
    else
      let due := (s.storeWing w).tiles.filter fun p => p.2.version != 0 && s.channelOf ⟨w, p.1⟩ == c
      let s := s.forAll due fun s p => s.copyOff c ⟨w, p.1⟩
      (s.setChannel c { s.channel c with retiring := false, state := 3 }).log 4 0 (dieSrc (wingDie w)) [byte c])

/-- A channel no longer answers (R389). -/
def execChannelFailure (c : Nat) (s : State) : Res :=
  .next (let x := s.channel c
    if c ≥ 4 || !s.channelUp c || x.failed then s
    else (s.setChannel c { x with failed := true }).log 4 St.storeroomMedia (dieSrc (wingDie (channelWing c))) [byte c])

/-! ### Start (R376 to R378, R380, R384) -/

/-- The first channel in service, in the order in which they train: W0, E0, then W1 and E1. -/
def State.firstChannel (s : State) : Option Nat := [0, 2, 1, 3].find? s.channelUp

/-- Two channels alike in every respect that R377 names. -/
def sameKind (x y : Channel) : Bool :=
  x.widthX8 == y.widthX8 && x.rdimm == y.rdimm && x.twoRanks == y.twoRanks && x.capacityGb == y.capacityGb && x.density == y.density

/-- What training found is supported: a rate of the five, a density of the three and a capacity of 16 to 128 GB (R376). -/
def trainingOk (x : ChannelTraining) : Bool :=
  x.trained && x.rate ≤ 4 && [16, 24, 32].contains x.density && 16 ≤ x.capacityGb && x.capacityGb ≤ 128

/-- The channels in service that differ from W0, or where that is absent from the first of the others, are absent, which the log records (R377). -/
def State.dropDiffering (s : State) : State :=
  match s.firstChannel with
  | none => s
  | some o =>
    s.forAll ((List.range 4).filter fun c => s.channelUp c && !sameKind (s.channel o) (s.channel c)) fun s c =>
      (s.setChannel c { s.channel c with state := 0 }).log 4 0 (dieSrc (wingDie (channelWing c))) [byte c]

/-- Every channel runs at the highest rate that all in service declare (R376). -/
def State.commonRate (s : State) : State :=
  let up := (List.range 4).filter s.channelUp
  let rate := up.foldl (fun r o => min r (s.channel o).top) 4
  s.forAll up fun s o => s.setChannel o { s.channel o with rate }

/-- Once W0 and E0 have trained, W1 and E1 train (R377). -/
def State.trainNext (s : State) (c : Nat) : State :=
  if c % 2 = 1 || [0, 2].any fun o => (s.channel o).state == 1 then s
  else s.forAll [1, 3] fun s o => if (s.channel o).state = 0 then s.setChannel o { s.channel o with state := 1 } else s

/-- Training of a channel: absent where it does not train, is not supported or differs from W0; otherwise in service, and every channel runs at one
rate. -/
def execChannelTrainingComplete (c : Nat) (found : ChannelTraining) (s : State) : Res :=
  .next (let x := s.channel c
    if c ≥ 4 || x.state != 1 then s
    else if !trainingOk found then (s.setChannel c { x with state := 0 }).trainNext c
    else
      let s := s.setChannel c { x with state := 2, top := found.rate, widthX8 := found.widthX8, rdimm := found.rdimm, twoRanks := found.twoRanks,
                                       capacityGb := found.capacityGb, density := found.density, failed := false }
      let w := channelWing c
      ((s.setStoreWing w ((s.storeWing w).setSpares (c % 2) (found.capacityGb * 1536))).dropDiffering.commonRate).trainNext c)

/-- A pause of a channel; above 85 degrees its DRAM is refreshed at twice the rate (R376, R378). -/
def execZqCalibration (c : ZqPause) (s : State) : Res :=
  .next (if s.channelUp c.channel then s.setChannel c.channel { s.channel c.channel with refresh2x := 85 < c.temp } else s)

/-- A wing's counter tree has been initialised. -/
def execStoreroomInitComplete (w : Wing) (s : State) : Res :=
  .next (let x := s.storeWing w
    let training := [wingChannel w 0, wingChannel w 1].any fun c => (s.channel c).state == 1
    if x.initDone || x.tileKey.isEmpty || training || (s.wingChannels w).isEmpty || s.stopped then s
    else
      let s := s.setStoreWing w { x with initDone := true }
      (if s.store.regions = 0 then s.sizeRegions else s).tryAdmit w)

/-- The mirrored tiles of a wing copied from the other (R395); one that fails there fails here as well. -/
def State.copyMirrored (s : State) (w : Wing) : State :=
  s.forAll ((s.storeWing (otherWing w)).tiles.filter fun p => s.mirrored p.1 && p.2.version != 0) fun s p =>
    let s := s.writeTile ⟨w, p.1⟩ p.2.data
    if p.2.mediaFailed || p.2.unlendable then
      s.setTile ⟨w, p.1⟩ { s.tile ⟨w, p.1⟩ with mediaFailed := p.2.mediaFailed, unlendable := p.2.unlendable } else s

def execMirrorRefreshComplete (w : Wing) (s : State) : Res :=
  .next (let x := s.storeWing w
    if !s.store.refresh || !x.stale || !x.initDone || s.tamper.frozen then s
    else
      let s := s.copyMirrored w
      let s := s.setStoreWing w { s.storeWing w with stale := false }
      ({ s with store := { s.store with refresh := false } }).tryAdmit w)

/-! ### Registers (R397) -/

def execStoreCeRead (f : Fn) (c : Nat) (s : State) : Res :=
  .next (if c ≥ 4 then s
    else s.clearRead f (0x170020 + 4 * c) (w32 (s.channel c).ce) fun s => s.setChannel c { s.channel c with ce := 0 })

def execStoreUeRead (f : Fn) (c : Nat) (s : State) : Res :=
  .next (if c ≥ 4 then s
    else s.clearRead f (0x170030 + 4 * c) (w32 (s.channel c).ue) fun s => s.setChannel c { s.channel c with ue := 0 })

def execStoreIntegRead (f : Fn) (s : State) : Res :=
  .next (s.clearRead f 0x170040 (w32 (s.store.integ + s.store.stale * 65536)) fun s =>
    { s with store := { s.store with integ := 0, stale := 0 } })

def execStoreLastfailRead (f : Fn) (s : State) : Res :=
  .next (s.clearRead f 0x170044 s.store.lastFail fun s => { s with store := { s.store with lastFail := 0 } })

end Sys2Proof.Machine
end

