-- ==== Sys2Proof/Machine/RegMap.lean ====
section
/-! DEFINITION. What the registers read as: FID, FSTAT, DBELL, ADMQ, and the device blocks DEV to GALSTAT and COMPAT (R49 to R59, R102,
R283, R350, R352, R375, R397, R414, R415, R442, R455, R476, R477, R495, R525), and the measurement blocks of R66. -/

namespace Sys2Proof.Machine

/-- A word from its fields, each with the position of its lowest bit. -/
def fields (l : List (Nat × Nat)) : Word32 := w32 ((l.map fun p => p.1 * 2 ^ p.2).sum)

/-- Word `i` of a byte string. -/
def wordAt (l : List Byte) (i : Nat) : Word32 := w32 (leAt l (4 * i) 4)

/-! ### Identity and measurements (R51, R66, R67, R414) -/

def State.variant (s : State) : Nat := if s.a12 then 0x12 else 0x16

def lifecycleCode : Lifecycle → Nat
  | .manufacture => 0
  | .provisioned => 1
  | .owned => 2
  | .decommissioned => 3
  | .scrapped => 4

/-- Measurement block 5 and block 6. -/
def State.measBlock5 (s : State) : List Byte :=
  [byte (lifecycleCode s.boot.lifecycle), byte s.boot.transfers,
    byte (b2n (s.boot.debug != 0) + 2 * b2n s.tamper.hold + 4 * b2n s.tamper.erased + 8 * b2n s.tamper.frozen), 0] ++
    leBytes 4 s.tamper.latch.toNat ++ leBytes 4 s.tamper.order.seq.toNat ++ zeros 4
def State.version (s : State) (t : Nat) : Word32 := s.boot.versions.getD t 0
def State.measBlock6 (s : State) : List Byte :=
  [byte s.variant, 0x03, 0, 0] ++ leBytes 4 (s.version 0).toNat ++ leBytes 4 (s.version 1).toNat ++ leBytes 4 (s.version 2).toNat

/-- MEAS0 to MEAS3, 48 bytes each. -/
def State.meas (s : State) (m : Nat) : List Byte := padTo 48 (s.boot.meas.getD m [])

/-- Measurement blocks 1 to 6; none of another index. -/
def State.measBlock (s : State) (i : Nat) : Option (List Byte) :=
  if 1 ≤ i && i ≤ 4 then some (s.meas (i - 1)) else if i = 5 then some s.measBlock5 else if i = 6 then some s.measBlock6 else none

def State.fidIdent (_ : State) (f : Fn) : Word32 := fields [(f.vf, 0), (b2n (!isPf f), 8), (wingIdx f.port, 9), (1, 16)]
def State.fidCollection (s : State) (f : Fn) : Word32 := match (s.fn f).coll with | some c => fields [(c, 0), (1, 31)] | none => 0
def State.fidRole (s : State) (f : Fn) : Word32 := fields [(b2n (s.mgmt f), 0), (b2n (s.compatRole f), 1)]
def State.fidLimits (s : State) (f : Fn) : Word32 := fields [(if (s.fn f).coll.isSome then 512 else 0, 0), (vectorsOf f, 16)]

def State.readFid (s : State) (f : Fn) (off : Nat) : Word32 :=
  match off with
  | 0x000 => s.fidIdent f
  | 0x004 => s.fidCollection f
  | 0x008 => s.fidRole f
  | 0x00C => s.fidLimits f
  | 0x010 => w32 s.work.epoch
  | _ => 0

/-! ### Power shares (R521, R522) -/

def State.powerCapped (s : State) : Bool := [1, 2, 3].any fun c => s.share c < 16

/-! ### FSTAT, DBELL and ADMQ (R52 to R58) -/

/-- FSTAT_STATUS (R53). handover_pending reads 1 while the request waits, and 0 in the hand-over pause itself, which bit 6 shows (DESIGN CHOICE, log
entry 134). -/
def State.fstatStatus (s : State) (f : Fn) : Word32 :=
  fields [(b2n (s.fn f).ready, 0), (b2n (s.fn f).coll.isSome, 1), (b2n s.tamper.hold, 2), (b2n s.tamper.frozen, 3), (b2n (s.orphan f.port), 4),
    (b2n (s.handover.state == 2), 5), (b2n s.paused, 6), (b2n (s.degraded f.port), 7), (b2n s.powerCapped, 8)]

def State.readFstat (s : State) (f : Fn) (off : Nat) : Word32 :=
  let x := s.fn f
  match off with
  | 0x000 => s.fstatStatus f
  | 0x004 => x.cause
  | 0x008 => x.causeEn
  | 0x00C => x.err
  | 0x010 => x.errAddr
  | 0x014 => x.qerr
  | _ => 0

/-- The two dwords of a doorbell. -/
def doorbellWord (q : Queue) (completion upper : Bool) : Word32 :=
  if upper then fields [(b2n q.stopped, 0)]
  else if completion then fields [(q.cqHead, 0), (q.cqTail, 16)] else fields [(q.sqTail, 0), (q.sqHead, 16)]

def State.readDbell (s : State) (f : Fn) (off : Nat) : Word32 :=
  if off ≥ 0x2000 then 0 else doorbellWord (s.queue f (.io (off / 16))) (off / 8 % 2 == 1) (off / 4 % 2 == 1)

def State.readAdmq (s : State) (f : Fn) (off : Nat) : Word32 :=
  let x := s.fn f
  match off with
  | 0x000 => fields [(b2n x.admEnable, 0)]
  | 0x004 => x.admDepth
  | 0x008 => x.admSqLo
  | 0x00C => x.admSqHi
  | 0x010 => x.admCqLo
  | 0x014 => x.admCqHi
  | 0x018 => x.admVector
  | 0x020 => doorbellWord x.admQ false false
  | 0x024 => doorbellWord x.admQ false true
  | 0x028 => doorbellWord x.admQ true false
  | 0x02C => doorbellWord x.admQ true true
  | _ => 0

/-! ### Device blocks -/

def State.readDev (s : State) (off : Nat) : Word32 :=
  let b := s.boot
  if 0x100 ≤ off && off < 0x200 then (if off % 64 < 48 then wordAt (s.meas ((off - 0x100) / 64)) (off % 64 / 4) else 0)
  else match off with
  | 0x000 => fields [(s.variant, 0), (3, 8)]
  | 0x004 => w32 (s.serial.toNat % 2 ^ 32)
  | 0x008 => w32 (s.serial.toNat / 2 ^ 32)
  | 0x00C => fields [(lifecycleCode b.lifecycle, 0), (b.transfers, 3), (b2n (b.debug != 0), 7), (b.vendorRevoked.toNat, 8), (b2n s.tamper.hold, 12)]
  | 0x010 => fields [(b.slots.toNat, 0), (b.stage, 4), (b.rejectA, 8), (b.rejectB, 16), (b.rejectType, 24)]
  | 0x014 => s.version 0
  | 0x018 => s.version 1
  | 0x01C => s.version 2
  | 0x020 => w32 (b.floors.getD 0 0)
  | 0x024 => w32 (b.floors.getD 1 0)
  | 0x028 => w32 (b.floors.getD 2 0)
  | 0x02C => w32 (b.floors.getD 3 0)
  | _ => 0

/-- The epochs that have running jobs, and the oldest (R469). -/
def State.runningEpochs (s : State) : List Nat := ((s.jobList.filter fun p => p.2.phase != .placed).map (·.2.epoch)).eraseDups
def State.oldestEpoch (s : State) : Nat := s.runningEpochs.foldl min s.work.epoch

/-! ### The drain set of R467 -/

/-- Programs that the items change. -/
def State.programItems (s : State) : List Nat :=
  s.cfgtx.items.filterMap fun i => match i with | .programSet n _ => some n | .programRemove n => some n | _ => none

/-- An entry at a queue's head is held back by a drain: it names a program being changed (R467). -/
def State.entryHeld (s : State) (e : List Byte) : Bool :=
  s.cfgtx.state = 2 && byteAt e 4 == 2 && s.programItems.contains (leAt e 6 2 % 1024)

/-- Entries and page starts that the drain holds. -/
def State.heldCount (s : State) : Nat :=
  (s.host.fns.map fun p => (p.2.queues.filter fun q => match q.2.heldEntry with | some e => s.entryHeld e | none => false).length).sum +
    ((List.range 64).filter fun p => s.pageHeld p && (s.page p).waiting).length

def State.microcodeItem (s : State) : Bool := s.cfgtx.items.any fun i => match i with | .imageActivate 1 _ => true | _ => false

/-- The jobs of the drain set: those that run a program being changed, those on the inactive microcode bank, and those of the oldest
epoch where a switch would leave five with running jobs. Jobs of an orphan do not count. -/
def State.drainJobs (s : State) : List Nat :=
  let five := s.runningEpochs.length ≥ 4 && !s.runningEpochs.contains s.work.epoch || s.runningEpochs.length ≥ 5
  (s.jobList.filter fun p =>
    let j := p.2
    !s.orphan j.wing && !s.orphan (galleryWing j.gallery) &&
      ((match j.progNo with | some n => s.programItems.contains n | none => false) ||
        (s.microcodeItem && j.phase != .placed && j.bank != s.work.bank) ||
        (five && j.phase != .placed && j.epoch == s.oldestEpoch))).map (·.1)

/-- Pages whose running operation is in the drain set. -/
def State.drainPages (s : State) : List Nat :=
  (List.range 64).filter fun p => s.pageStaged p && (s.page p).busy && !(s.page p).waiting

def State.cfgtxStatus (s : State) : Word32 :=
  let c := s.cfgtx
  fields [(c.state, 0), (c.owner, 2), (c.result.toNat, 8), (sat 65535 c.staged.length, 16)]

/-- CFGTX. A W1S bit written 1 acts at once and reads 0 (R8 names no clearing; DESIGN CHOICE, log entry 132). -/
def State.readCfgtx (s : State) (off : Nat) : Word32 :=
  let c := s.cfgtx
  match off with
  | 0x004 => fields [(b2n c.retire, 0)]
  | 0x008 => s.cfgtxStatus
  | 0x00C => c.failAt
  | 0x010 => c.itemsLo
  | 0x014 => c.itemsHi
  | 0x018 => c.itemsLen
  | 0x01C => c.cfg
  | 0x020 => w32 s.work.epoch
  | 0x024 => w32 s.oldestEpoch
  | 0x028 => if c.state = 2 then fields [(sat 65535 (s.drainJobs.length + s.drainPages.length), 0), (sat 65535 s.heldCount, 16)] else 0
  | _ => 0

/-- The record of a sequence in a ring whose newest is first, by its bytes. -/
def ringRecord {α : Type} (ring : List α) (newest seq : Nat) : Option α := if seq ≤ newest then ring[newest - seq]? else none

def State.readEvlog (s : State) (off : Nat) : Word32 :=
  let e := s.evlog
  if 0x100 ≤ off && off < 0x240 then
    let m := (off - 0x100) / 16
    let u := s.au (if m < 10 then .west else .east) (m % 10)
    match off % 16 with
    | 0 => u.vinfo
    | 4 => w32 (u.vaddr % 2 ^ 32)
    | 8 => w32 (u.vaddr / 2 ^ 32)
    | 12 => w32 u.vcount
    | _ => 0
  else if 0x010 ≤ off && off < 0x030 then
    match ringRecord e.ring e.newest e.sel.toNat with | some r => wordAt (logBytes r) ((off - 0x010) / 4) | none => 0
  else match off with
  | 0x000 => w32 e.newest
  | 0x004 => e.sel
  | _ => 0

def State.readTamper (s : State) (off : Nat) : Word32 :=
  let t := s.tamper
  if 0x030 ≤ off && off < 0x050 then
    match ringRecord t.ring t.evSeq t.evSel.toNat with | some r => wordAt r ((off - 0x030) / 4) | none => 0
  else match off with
  | 0x000 => fields [(b2n t.frozen, 0), (b2n t.hold, 1), (b2n t.erased, 2), (b2n t.reportPhase, 3), (b2n (t.vbat < 2500), 4)]
  | 0x004 => w32 t.latch.toNat
  | 0x008 => w32 t.live.toNat
  | 0x00C => t.order.seq
  | 0x010 => t.order.actOp
  | 0x014 => t.order.actSb
  | 0x018 => t.order.actOff
  | 0x01C => fields [(t.order.polarity.toNat, 0), (b2n t.order.hostErase, 8), (b2n t.order.outLow, 9)]
  | 0x020 => t.order.filter
  | 0x024 => w32 t.vbat
  | 0x028 => w32 t.evSeq
  | 0x02C => t.evSel
  | 0x050 => w32 t.freezes
  | _ => 0

def voteCode : VoteMode → Nat
  | .triple => 0
  | .dual => 1
  | .lost => 2

def State.consUnitState (s : State) : Word32 :=
  let u := unitOf (bits32 s.cont.unitSel 0 18)
  if !s.unitExists u then 3
  else
    let x := s.unit u
    fields [((match x.svc with | .inService => 0 | .spare => 1 | .fenced => 2), 0), (b2n x.ask, 2), (b2n s.cont.recalPass, 3), (x.errors, 4),
      (b2n x.stFail, 12), (x.gen, 16)]

/-- CONS. A W1S bit written 1 acts at once and reads 0 (R8 names no clearing; DESIGN CHOICE, log entry 132). -/
def State.readCons (s : State) (off : Nat) : Word32 :=
  let c := s.cont
  match off with
  | 0x000 =>
    fields [(voteCode c.vote, 0), (b2n c.wingLink.up, 2), (b2n c.curW.up, 3), (b2n c.curE.up, 4), (b2n c.orphanW, 5), (b2n c.orphanE, 6),
      (b2n c.admittedW, 7), (b2n c.admittedE, 8), (b2n (!c.asks.isEmpty), 9), (b2n (c.units.any fun p => match p.2 with | some x => x.readmitting | none => false), 10)]
  | 0x004 => c.cfg
  | 0x008 => s.tamper.spares.seq
  | 0x00C => fields [(s.tamper.spares.unitAsk.toNat, 0), (b2n s.tamper.spares.channelAsk, 16)]
  | 0x010 => c.event
  | 0x014 => c.eventGen
  | 0x018 => w32 c.fences
  | 0x01C => w32 c.fencedTraffic
  | 0x020 => match c.asks with | u :: _ => fields [(u, 0), (1, 31)] | [] => 0
  | 0x030 => c.unitSel
  | 0x034 => s.consUnitState
  | 0x038 => fields [(c.downWing, 0), (c.downW, 8), (c.downE, 16)]
  | _ => 0

def sourceCode : DieSource → Nat
  | .clkref => 0
  | .xtal => 1
  | .watch => 2
  | .switching _ => 3

def pstateCode : PState → Nat
  | .active => 0
  | .idle => 1
  | .standby => 2
  | .thermalHold => 3

/-- A signed temperature in eight bits. -/
def temp8 (t : Int) : Nat := (t % 256).toNat

/-- CLKPWR. A W1S bit written 1 acts at once and reads 0 (R8 names no clearing; DESIGN CHOICE, log entry 132). -/
def State.readClkpwr (s : State) (off : Nat) : Word32 :=
  let p := s.power
  match off with
  | 0x000 =>
    fields [(sourceCode p.west.source, 0), (sourceCode p.east.source, 2), (sourceCode p.curator.source, 4), (b2n p.curator.clkrefOk, 6),
      (b2n p.curator.xtalOk, 7), (s.boot.straps.toNat % 8, 8), (b2n s.watchMode, 11), (pstateCode p.pstate, 12), (b2n s.powerCapped, 14),
      (b2n p.capUnmet, 15), (b2n (p.thermal != 0), 16), (b2n p.rtcValid, 17)]
  | 0x004 => p.cfg
  | 0x008 => p.cap
  | 0x014 => w32 p.pstat
  | 0x018 => fields [(p.power, 0), (p.powerHigh, 16)]
  | 0x01C => fields [(temp8 p.tempW, 0), (temp8 p.tempE, 8), (temp8 p.tempC, 16)]
  | 0x020 => fields [(s.share 3, 0), (s.share 2, 8), (s.share 1, 16)]
  | 0x024 => fields [(p.forced, 0), (p.planned, 8), (p.watchEntries, 16), (p.gateRefusals, 24)]
  | 0x028 => p.lastSw
  | 0x02C => w32 s.rtcSec
  | 0x030 => w32 (s.rtc % 32768)
  | _ => 0

/-- The sources of a range that are isolated, bit by bit. -/
def State.isolatedBits (s : State) (first n : Nat) : Word32 :=
  w32 (((List.range n).map fun k => if (s.source (first + k)).phase == .isolated then 2 ^ k else 0).sum)

/-- Some instance of a pool is stopped (R375 stop_w, stop_e, stop_cur). -/
def State.poolStopped (s : State) (p : Pool) : Bool := (s.poolDrbgs p).any fun d => (s.drbg d).low

def State.readEntropy (s : State) (off : Nat) : Word32 :=
  let e := s.entropy
  match off with
  | 0x000 => e.cfg
  | 0x004 =>
    fields [(b2n (s.drbg .curator).inst, 0), (b2n e.readyW, 1), (b2n e.readyE, 2), (s.healthyCount (.wing .west), 3), (s.healthyCount (.wing .east), 9),
      (s.healthyCount .curator, 15), (b2n (s.poolStopped (.wing .west)), 19), (b2n (s.poolStopped (.wing .east)), 20),
      (b2n (s.drbg .curator).stopped, 21), (b2n (bit32 e.rawTest 31), 22)]
  | 0x008 => s.isolatedBits 0 32
  | 0x00C => s.isolatedBits 32 32
  | 0x010 => s.isolatedBits 64 8
  | 0x014 => e.lastFail
  | 0x01C => w32 e.waits
  | 0x020 => e.rawTest
  | 0x024 => fields [(e.rawFifo.length, 0), (b2n e.rawOverflow, 11)]
  | _ => 0

def State.channelWord (s : State) (c : Nat) : Word32 :=
  let x := s.channel c
  fields [(x.state, 0), (x.rate, 2), (b2n x.widthX8, 5), (b2n x.rdimm, 6), (b2n x.twoRanks, 7), (x.capacityGb, 8), (b2n x.failed, 16)]

/-- A wing in service whose channels are up. -/
def State.storePresent (s : State) (w : Wing) : Bool := !(s.wingChannels w).isEmpty

/-- Percent of the patrol pass complete. -/
def State.patrolPct (s : State) : Nat := if s.written.1 = 0 then 0 else 100 * s.written.2 / s.written.1

def State.readStore (s : State) (off : Nat) : Word32 :=
  let x := s.store
  let fails (w : Wing) : Bool := (s.channel (wingChannel w 0)).failed || (s.channel (wingChannel w 1)).failed
  if 0x010 ≤ off && off < 0x020 then s.channelWord ((off - 0x010) / 4)
  else if 0x020 ≤ off && off < 0x030 then w32 (s.channel ((off - 0x020) / 4)).ce
  else if 0x030 ≤ off && off < 0x040 then w32 (s.channel ((off - 0x030) / 4)).ue
  else match off with
  | 0x000 =>
    let up := [Wing.west, .east].filter s.storePresent
    fields [(b2n (!up.isEmpty && up.all fun w => (s.storeWing w).initDone), 0), (b2n s.retiring, 1), (b2n x.retireBlocked, 2), (b2n x.refresh, 3),
      (b2n (fails .west), 4), (b2n (fails .east), 5)]
  | 0x004 => x.cfg
  | 0x040 => fields [(x.integ, 0), (x.stale, 16)]
  | 0x044 => x.lastFail
  | 0x048 => x.lastFailNum
  | 0x04C => w32 (s.sparesOn .west 0 + s.sparesOn .west 1)
  | 0x050 => w32 (s.sparesOn .east 0 + s.sparesOn .east 1)
  | 0x054 => x.regions
  | 0x058 => fields [(s.patrolPct, 0), (x.passes, 8)]
  | _ => 0

def State.readLedger (s : State) (off : Nat) : Word32 :=
  let l := s.ledger
  let lo (n : Nat) : Word32 := w32 (n % 2 ^ 32)
  let hi (n : Nat) : Word32 := w32 (n / 2 ^ 32)
  match off with
  | 0x000 => l.cfg
  | 0x004 => l.low
  | 0x008 =>
    fields [((l.slots.filter fun p => p.2.state != .free).length, 0), (b2n l.ready, 17),
      (b2n (s.activeSlots.any fun p => p.2.rebuilding || !p.2.gens.isEmpty), 18), (b2n (s.handover.state == 2), 19)]
  | 0x00C => w32 l.wear
  | 0x010 => s.lowSlotWord
  | 0x020 => w32 l.query.slot
  | 0x028 => lo l.query.handle.toNat
  | 0x02C => hi l.query.handle.toNat
  | 0x030 => lo l.query.total
  | 0x034 => hi l.query.total
  | 0x038 => lo l.query.next
  | 0x03C => hi l.query.next
  | 0x040 => lo l.query.remain
  | 0x044 => hi l.query.remain
  | 0x048 => l.query.qstate
  | _ => 0

/-- A mailbox view's registers (R415). -/
def Curmb.read (x : Curmb) (off : Nat) : Word32 :=
  match off with
  | 0x004 => x.msg
  | 0x008 => x.bufLo
  | 0x00C => x.bufHi
  | 0x010 => x.bufLen
  | 0x014 => fields [(b2n x.busy, 0), (b2n x.done, 1), (x.status.toNat, 8)]
  | 0x018 => x.replyLen
  | _ => 0

/-- The gallery whose classical capability is withheld for a changed slot length: galleries are repartitioned one at a time, here in the order of
their numbers (R306; log entry 129). -/
def State.repartitioning (s : State) (g : Nat) : Bool :=
  (s.gal g).repartition.isSome && !(List.range g).any fun k => (s.gal k).repartition.isSome && s.ordersReach k

/-- The gallery can run classical jobs (R303, R306). -/
def State.classicalUp (s : State) (g : Nat) : Bool := s.serviceCount g Kind.bigNumber ≥ 2 && !s.repartitioning g

/-- Spares of a location and kind that remain. -/
def State.spareCount (s : State) (loc kind : Nat) : Nat := ((unitsOf loc kind).filter fun u => (s.unit u).svc == .spare).length

def State.galstatWord (s : State) (g : Nat) : Word32 :=
  if !s.present g then 0
  else
    let on (k : Nat) : Nat := b2n (s.serviceCount g k > 0)
    fields [(1, 0), (b2n (s.galleryUp g), 1), (on Kind.lre, 2), (on Kind.lsu, 3), (b2n (s.serviceCount g Kind.keccak > 0 || s.serviceCount g Kind.sha2 > 0), 4),
      (b2n (s.keyed g true), 5), (b2n (s.keyed g false), 6), (b2n (s.classicalUp g), 7), (on Kind.bfe, 8), (on Kind.aes, 9),
      (s.serviceCount g Kind.lre, 10), (b2n (s.spareCount g Kind.lre > 0), 13), (b2n (s.spareCount g Kind.bigNumber > 0), 14),
      (s.spareCount g Kind.keccak, 15), (s.spareCount g Kind.sha2, 19)]

def State.clusterWord (s : State) (w : Wing) : Word32 :=
  fields [(s.serviceCount (compatLoc w) Kind.compat, 0), (s.spareCount (compatLoc w) Kind.compat, 5)]

def State.readGalstat (s : State) (off : Nat) : Word32 :=
  if off < 0x040 then s.galstatWord (off / 4)
  else if 0x800 ≤ off && off < 0x840 then (let g := (off - 0x800) / 4; if s.present g then w32 (s.c0share g) else 0)
  else if 0x880 ≤ off && off < 0x8C0 then (let g := (off - 0x880) / 4; if s.present g then w32 (s.work.bnslot.get 1 g) else 0)
  else if 0x900 ≤ off && off < 0xA00 then s.pageOwner ((off - 0x900) / 4)
  else match off with
  | 0x040 => s.clusterWord .west
  | 0x044 => s.clusterWord .east
  | 0x840 => s.work.weights
  | _ => 0

def CompatPage.read (x : CompatPage) (off : Nat) : Word32 :=
  if 0x040 ≤ off && off < 0x050 then x.iv.getD ((off - 0x040) / 4) 0
  else if 0x2000 ≤ off && off < 0x3000 then x.dout.get 0 ((off - 0x2000) / 4)
  else match off with
  | 0x000 => x.ctrl
  | 0x008 => fields [(b2n x.busy, 0), (b2n x.done, 1), (b2n x.keyLoaded, 2), (x.status.toNat, 8)]
  | 0x00C => x.len
  | 0x010 => x.handleLo
  | 0x014 => x.handleHi
  | _ => 0

/-! ### BAR0 (R49, R71, R403, R520) -/

/-- What BAR0 reads at a 32-bit offset, for a function. -/
def State.readReg (s : State) (f : Fn) (off : Nat) : Word32 :=
  let block := off / 0x1000
  let o := off % 0x1000
  let key := if 0x10 ≤ block && block < 0x12 then 0x10 else if 0x1000 ≤ block then 0x1000 else block
  if !s.blockReads f.port key then 0
  else if block = 0x000 then s.readFid f o
  else if block = 0x001 then s.readFstat f o
  else if key = 0x10 then s.readDbell f (off - 0x10000)
  else if block = 0x020 then s.readAdmq f o
  else if !isPf f then 0
  else match block with
  | 0x100 => s.readDev o
  | 0x110 => s.readCfgtx o
  | 0x120 => s.readEvlog o
  | 0x130 => s.readTamper o
  | 0x140 => s.readCons o
  | 0x150 => s.readClkpwr o
  | 0x160 => s.readEntropy o
  | 0x170 => s.readStore o
  | 0x180 => s.readLedger o
  | 0x190 => (s.mailbox (.pf f.port)).read o
  | 0x1A0 => s.readGalstat o
  | _ =>
    let p := (off - 0x1000000) / 0x10000
    if off ≥ 0x1000000 && p < 64 && s.pageReachable f p then (s.page p).read (off % 0x10000) else 0

/-! ### Configuration space and BARs (R42, R43, R48, R50) -/

/-- What a function reports of itself (R43). -/
structure Identity where
  vendor : BitVec 16
  device : BitVec 16
  classCode : BitVec 24
  revision : BitVec 8
  deriving DecidableEq, Repr

/-- Device ID 0x5472 of a PF and 0x5473 of a VF, an encryption controller of class other, stepping B1. -/
def fnIdentity (f : Fn) : Identity :=
  { vendor := Config.vendorId, device := if isPf f then 0x5472 else 0x5473, classCode := 0x108000, revision := 0xB1 }

/-- How a configuration read completes: with a value, with Request Retry Status, or not at all where nothing answers. -/
inductive ConfigAnswer where
  | value (v : Word32)
  | retry
  | absent
  deriving DecidableEq, Repr, Inhabited

/-- The identity words of configuration space at offsets 0 and 8, PRESUMED (PCIe layout); Request Retry Status until the port's configuration
space is ready (R70, R406). -/
def State.configRead (s : State) (f : Fn) (off : Nat) : ConfigAnswer :=
  let i := fnIdentity f
  if !fnOk f || s.boot.inReset || (s.port f.port).perst then .absent
  else if !(s.port f.port).cfgReady then .retry
  else if !(isPf f || (s.port f.port).vfEnable) then .absent
  else match off with
    | 0x000 => .value (i.device ++ i.vendor)
    | 0x008 => .value (i.classCode ++ i.revision)
    | _ => .absent

/-- Bytes of a function's BAR0 and BAR2, 64-bit memory BARs and not prefetchable (R48). -/
def barSize (f : Fn) : Space → Nat
  | .bar0 => if isPf f then 0x4000000 else 0x100000
  | .bar2 => if isPf f then 0x10000 else 0x1000
  | _ => 0

/-- The offset of the pending bit array in BAR2 (R48). -/
def pbaOffset (f : Fn) : Nat := if isPf f then 0x8000 else 0x800

/-- What BAR2 reads at a 32-bit offset: the table's words, with the mask bit of each vector, or 32 pending bits; zero where the port answers
no such read (R71). -/
def State.bar2Read (s : State) (f : Fn) (off : Nat) : Word32 :=
  let x := s.fn f
  let n := vectorsOf f
  let base := pbaOffset f
  if s.reportOnly f.port || s.recovery || s.lowPower then 0
  else if off < 16 * n then
    (if off % 16 = 12 then w32 (b2n !(x.unmasked.contains (off / 16))) else x.msixTable.get 0 off)
  else if base ≤ off && off < base + (n + 7) / 8 then
    w32 ((x.pba.filter fun v => v / 32 == (off - base) / 4).map fun v => 2 ^ (v % 32)).sum
  else 0

/-- What a host read of a function's BAR returns, the lower word first; none is Unsupported Request, for a size or alignment that R50
forbids or a stream that is not Secure (R63). -/
def State.hostRead (s : State) (f : Fn) (sp : Space) (off size : Nat) : Option Word64 :=
  let word (o : Nat) : Word32 := match sp with | .bar0 => s.readReg f o | .bar2 => s.bar2Read f o | _ => 0
  if !s.ideOk f then none
  else if size = 4 && off % 4 = 0 then some ((word off).setWidth 64)
  else if size = 8 && off % 8 = 0 then some (word (off + 4) ++ word off)
  else none

/-- Tag width of a port's requests: 14 bits in FLIT mode, which is 64 GT/s, else 10 (R42). -/
def State.tagBits (s : State) (w : Wing) : Nat := if (s.port w).linkRate = 6 then 14 else 10

/-- A PF's Device Control: max payload size and max read request size in the codes of PCIe, to 512 and 4,096 bytes. A code beyond those
changes nothing (PRESUMED, log entry 104). -/
def State.deviceControl (s : State) (w : Wing) (v : Word64) : State :=
  let p := s.port w
  let mps := v.toNat / 32 % 8
  let mrrs := v.toNat / 4096 % 8
  s.setPort w { p with maxPayload := if mps ≤ 2 then 128 * 2 ^ mps else p.maxPayload,
                       maxReadReq := if mrrs ≤ 5 then 128 * 2 ^ mrrs else p.maxReadReq }

/-- A PF's Device Control 2: the completion timeout value, of the default or of ranges A to D. -/
def State.deviceControl2 (s : State) (w : Wing) (v : Word64) : State :=
  let c := v.toNat % 16
  if [0, 1, 2, 5, 6, 9, 10, 13, 14].contains c then s.setPort w { s.port w with ctoValue := c } else s

end Sys2Proof.Machine
end

