-- ==== Sys2Proof/Machine/Port.lean ====
section
/-! DEFINITION. What happens at the host ports: resets, bus mastering, IDE streams, and failed transfers (R62 to R64, R69, R70, R72,
R542). -/

namespace Sys2Proof.Machine

/-! ### Jobs and queues of functions -/

/-- The job was accepted from a function that `p` picks. -/
def fromFn (p : Fn → Bool) (j : Job) : Bool := match j.src with | .host f _ => p f | .docent _ _ _ => false

/-- A page's operation ends with nothing reported; its loan returns (R69). -/
def State.abortPage (s : State) (p : Nat) : State :=
  let x := s.page p
  let s := match x.loan with | some l => s.returnLoan l | none => s
  let s := s.setPage p { x with busy := false, waiting := false, loan := none, dout := [] }
  if x.busy then s.releaseUnits (pageJob p) fun _ => true else s

/-- The pages of a port. -/
def State.portPages (s : State) (w : Wing) : List Nat := (List.range 64).filter fun p => s.pageWing p == w

/-- What a reset of a PF or its port does to its pages: operations end and written keys are cleared (R354). -/
def State.resetPages (s : State) (w : Wing) : State := (s.forAll (s.portPages w) fun s p => s.abortPage p).clearPageKeys w

/-- A record that will not be written has its tag in the log (R69). -/
def State.logLost (s : State) (q : QSel) (r : Record) : State := s.log 1 r.status 0 (leBytes 4 r.tag.toNat ++ leBytes 2 (qselNum q))

/-- The held records that `p` picks are discarded. -/
def State.dropHeld (s : State) (f : Fn) (p : HeldRecord → Bool) : State :=
  let s := s.forAll ((s.fn f).heldRecords.filter p) fun s h => s.logLost h.q h.record
  s.modFn f fun x => { x with heldRecords := x.heldRecords.filter fun h => !p h }

/-- The records of frozen jobs of the sources that `p` picks will not be written (R69, R423). -/
def State.dropFrozen (s : State) (p : Src → Bool) : State :=
  let s := s.forAll (s.tamper.frozenJobs.filter fun x => p x.src) fun s x =>
    s.log 1 St.tamperFrozen 0 (leBytes 4 x.tag.toNat ++ leBytes 2 (srcQueue x.src))
  { s with tamper := { s.tamper with frozenJobs := s.tamper.frozenJobs.filter fun x => !p x.src } }

/-- The source is a queue of the function. -/
def ofFn (f : Fn) : Src → Bool
  | .host g _ => g == f
  | .docent _ _ _ => false

/-- A port's functions as its reset leaves them: only the binding stays (R44, R69). -/
def State.wipeFn (s : State) (f : Fn) : State := ((s.dropFrozen (ofFn f)).dropHeld f fun _ => true).setFn f { coll := (s.fn f).coll }

/-- A function-level reset's effect on the function's own state: queues destroyed, MSI-X and bus mastering off (R69). -/
def State.flrFn (s : State) (f : Fn) : State :=
  let s := s.abortJobs fun _ j => fromFn (· == f) j
  let s := (s.dropFrozen (ofFn f)).dropHeld f fun _ => true
  s.modFn f fun x =>
    let x := { x with queues := [], admEnable := false, admQ := {}, admCur := none, admDiscard := false }
    { x with msixEnable := false, unmasked := [], pba := [], bme := false }

/-- Functions that State holds anything of, at a port. -/
def State.knownFns (s : State) (w : Wing) : List Fn :=
  (s.host.fns.filter fun p => p.1 / 128 == wingIdx w).map fun p => ⟨w, p.1 % 128⟩

/-- The CFGTX owner code of a sender (R477). -/
def ownerCode : Sender → Nat
  | .pf .west => 0
  | .pf .east => 1
  | .supervisor .west => 2
  | .supervisor .east => 3

/-- A reset of an owner ends its transaction without effect (R470). -/
def State.endOwned (s : State) (owners : List Nat) : State :=
  if owners.contains s.cfgtx.owner then s.endTransaction s.cfgtx.result else s

/-- A port goes down: its functions' jobs are aborted and its queues, registers and streams are gone (R69); the log names the streams that
leave the Secure state (R64). The link trains again where PERST# stays deasserted, and keeps the rate and width it had until then. -/
def State.portDown (s : State) (w : Wing) : State :=
  let s := s.forAll (s.port w).ideSecure fun s k => s.log 3 0 (dieSrc (wingDie w)) [byte k]
  let s := (s.abortJobs fun _ j => fromFn (·.port == w) j).resetPages w
  let s := s.forAll (s.knownFns w) fun s f => s.wipeFn f
  let p := s.port w
  let s := s.setPort w { p with cfgReady := false, ideSecure := [], ideAssoc := [], ideStreams := [], vfEnable := false, aer := [],
                                linkPower := .l0, maxPayload := 128, maxReadReq := 512, ctoValue := 0 }
  let s := match w with
    | .west => { s with host := { s.host with spdmW := {} } }
    | .east => { s with host := { s.host with spdmE := {} } }
  s.endOwned [ownerCode (.pf w)]

def execPerstAssert (w : Wing) (s : State) : Res :=
  .next (if (s.port w).perst || s.boot.inReset then s
    else
      let s := s.portDown w
      (s.setPort w { s.port w with perst := true, linkRate := 0, linkWidth := 0 }).pumpAll)

/-- The link trains, to a generation and a width that R42 lists. -/
def execPerstDeassert (x : PortTraining) (s : State) : Res :=
  .next (let p := s.port x.port
    if !p.perst || s.boot.inReset || !(1 ≤ x.rate && x.rate ≤ 6 && [1, 2, 4, 8].contains x.width) then s
    else s.setPort x.port { p with perst := false, perstReleasedAt := s.now, linkRate := x.rate, linkWidth := x.width })

/-- Boot, or a form in which the ports answer without it, has come far enough for a port's configuration space (R70, R71, R403, R406). -/
def State.configurable (s : State) (w : Wing) : Bool :=
  s.reportOnly w || s.recovery ||
    (s.booted && s.entropyReady w && ((s.storeWing w).initDone || (s.wingChannels w).isEmpty))

def execConfigurationReady (w : Wing) (s : State) : Res :=
  .next (let p := s.port w
    if p.perst || p.cfgReady || s.boot.inReset || !s.configurable w then s
    else
      let s := s.setPort w { p with cfgReady := true }
      if s.reportOnly w || s.recovery then s
      else
        let s := if s.boot.stage = 4 then { s with boot := { s.boot with stage := 5 } } else s
        (s.forAll (portFns w) fun s f => s.setReady f true).tryAdmit w)

/-! ### Function-level resets: configuration writes, which a port that is not ready does not take (R70) -/

def State.functionReset (s : State) (f : Fn) : State :=
  let s := s.flrFn f
  if isPf f then (s.resetPages f.port).endOwned [ownerCode (.pf f.port)] else s

def execFunctionLevelReset (scope : FlrScope) (s : State) : Res :=
  .next (match scope with
    | .function f => s.configRequest f fun s => (s.functionReset f).pumpAll
    | .vfEnableCleared w =>
      s.configRequest (pf0 w) fun s =>
        let s := s.setPort w { s.port w with vfEnable := false }
        (s.forAll ((s.knownFns w).filter fun f => !isPf f) fun s f => s.flrFn f).pumpAll)

/-! ### Bus mastering (R69) -/

def execBusMasterEnableClear (f : Fn) (s : State) : Res :=
  .next (s.configRequest f fun s =>
    if !(s.fn f).bme then s
    else
      let s := s.modFn f fun x => { x with bme := false }
      (s.endJobs (fun _ j => fromFn (· == f) j) St.badBuffer).pumpAll)

/-- Vectors that are pending and no longer held back send their message. -/
def State.sendPending (s : State) (f : Fn) : State :=
  s.forAll (s.fn f).pba fun s v =>
    let x := s.fn f
    if x.msixEnable && x.bme && x.unmasked.contains v then (s.setFn f { x with pba := x.pba.filter (· != v) }).emit (.msix f v) else s

/-- A held record as it is written: its time runs to the writing (R95). -/
def HeldRecord.late (h : HeldRecord) (now : Nat) : Record := { h.record with elapsedNs := h.record.elapsedNs + (now - h.since) }

def execBusMasterEnableSet (f : Fn) (s : State) : Res :=
  .next (s.configRequest f fun s =>
    if (s.fn f).bme then s
    else
      let held := (s.fn f).heldRecords
      let s := s.modFn f fun x => { x with bme := true, heldRecords := [] }
      ((s.forAll held fun t h => t.putRecord f h.q (h.late s.now) h.irq h.c0).sendPending f).refetch f)

/-! ### IDE streams (R62 to R64) -/

/-- The job has a DMA segment in progress: its parameter block, or a read of its EXEC. -/
def Job.inDma (j : Job) : Bool :=
  (j.phase == .placed && j.paramLen != 0) || (match j.exec with | some e => e.stage == .reading && e.reads.any (·.got.isNone) | none => false)

/-- A stream leaves the Secure state: the cause at every function and the log. The jobs whose DMA uses it end at their next segment, those
with a segment in progress at that one. -/
def State.streamFail (s : State) (w : Wing) (stream : Nat) : State :=
  let p := s.port w
  let users := (p.ideAssoc.filter fun x => x.1 == stream).map (·.2)
  let p := { p with ideSecure := p.ideSecure.filter (· != stream), ideAssoc := p.ideAssoc.filter (fun x => x.1 != stream),
                    ideStreams := p.ideStreams.set {} stream {} }
  let s := ((s.setPort w p).raisePort Cause.ideFail w).log 3 0 (dieSrc (wingDie w)) [byte stream]
  s.forAll (s.jobList.filter fun x => fromFn (fun f => f.port == w && users.contains f.vf) x.2) fun s x =>
    let s := s.putJob x.1 { x.2 with streamLost := true }
    if x.2.inDma then s.endJob x.1 St.accessDenied else s

def execIdeStreamFail (w : Wing) (stream : Nat) (s : State) : Res :=
  .next (if !(s.port w).ideSecure.contains stream then s else (s.streamFail w stream).pumpAll)

/-! ### Failed transfers (R72, R91, R94, R542) -/

def failureCode : ReadFailure → Nat
  | .timeout => 1
  | .unsupportedRequest => 2
  | .completerAbort => 3
  | .poisoned => 4

/-- What AER reports of a failed read; a Completer Abort is none of its conditions. -/
def State.aerRead (s : State) (w : Wing) (kind : ReadFailure) : State :=
  let p := s.port w
  match kind with
  | .timeout => s.setPort w { p with aer := p.aer ++ [.completionTimeout] }
  | .unsupportedRequest => s.setPort w { p with aer := p.aer ++ [.unsupportedRequest] }
  | .poisoned => s.setPort w { p with aer := p.aer ++ [.poisoned] }
  | .completerAbort => s

def State.setReadFailed (s : State) (n : Nat) (x : ReadFail) : State :=
  { s with work := { s.work with readFailed := s.work.readFailed.set none n (some x) } }

/-- A read of a job failed: the first ends the job. -/
def State.jobReadFails (s : State) (n : Nat) (j : Job) (kind : ReadFailure) (addr : Nat) : State :=
  let s := (s.aerRead j.wing kind).log 1 St.badBuffer (dieSrc (wingDie j.wing)) (leBytes 4 j.tag.toNat ++ [byte (failureCode kind)] ++ leBytes 8 addr)
  ((s.setReadFailed n { port := j.wing, seq := s.evlog.newest, others := 0 }).endJob n St.badBuffer).pumpAll

/-- The log record of a job's first failed read counts the others in its last two detail bytes. -/
def State.countRead (s : State) (seq others : Nat) : State :=
  let count (r : LogRec) : LogRec := if r.seq = seq then { r with detail := r.detail.take 13 ++ leBytes 2 (sat 65535 others) } else r
  { s with evlog := { s.evlog with ring := s.evlog.ring.map count } }

/-- A further read of a job that a failure has ended: AER, and the count. -/
def State.otherReadFails (s : State) (n : Nat) (kind : ReadFailure) : State :=
  match s.work.readFailed.get none n with
  | some x => ((s.aerRead x.port kind).setReadFailed n { x with others := x.others + 1 }).countRead x.seq (x.others + 1)
  | none => s

/-- A queue error that stops the queue (R91). -/
def State.stopQueue (s : State) (f : Fn) (q : QSel) (completion : Bool) (reason : Nat) (discards : Bool) : State :=
  let x := s.queue f q
  (s.setQueue f q { x with stopped := true, firstErr := if x.firstErr = 0 then reason else x.firstErr,
                           discards := x.discards || discards }).queueError f q completion reason

def execDmaReadFailure (target : ReadTarget) (kind : ReadFailure) (s : State) : Res :=
  .next (match target with
    | .input n k =>
      match s.job n with
      | none => s.otherReadFails n kind
      | some j =>
        match j.exec.bind fun e => if e.stage == .reading then e.reads[k]? else none with
        | some r => if r.got.isSome then s else s.jobReadFails n j kind r.addr
        | none => s
    | .paramBlock n =>
      match s.job n with
      | none => s.otherReadFails n kind
      | some j => if j.phase == .placed && j.paramLen != 0 then s.jobReadFails n j kind j.paramAddr else s
    | .slot f q =>
      let x := s.queue f q
      if !fnOk f || !x.created || x.stopped || x.heldEntry.isSome || x.sqHead == x.sqTail || !(s.fn f).bme then s
      else
        let s := (s.aerRead f.port kind).stopQueue f q false 4 false
        s.log 1 St.badBuffer 0 (leBytes 2 (qselNum q) ++ [byte f.vf, byte (failureCode kind)]))

/-- Writes split into 2 KiB segments. -/
def segments (l : List StagedWrite) : List StagedWrite :=
  l.flatMap fun w => (List.range ((w.bytes.length + 2047) / 2048)).map fun k => { addr := w.addr + 2048 * k, bytes := slice w.bytes (2048 * k) 2048 }

/-- A write path failed under a job: a free number of its segments had completed; it ends with FAULT_DETECTED (R72). -/
def State.jobWriteFails (s : State) (n : Nat) (j : Job) (r : ExecResult) : State :=
  let l := segments (hostOuts (outPairs j r.outs))
  let s := if r.released = 0 then
      let d := s.free
      d.2.issue j.wing (l.take (d.1 % (l.length + 1)))
    else s
  let s := s.log 1 St.faultDetected (dieSrc (wingDie j.wing)) (leBytes 4 j.tag.toNat)
  (s.endJob n St.faultDetected).pumpAll

/-- A write path failed under the release of a job's group: the writes that were issued stand, no accession commits, and the job ends with
FAULT_DETECTED (R72, R141). -/
def State.releaseWriteFails (s : State) (n : Nat) (j : Job) : State :=
  ((s.log 1 St.faultDetected (dieSrc (wingDie j.wing)) (leBytes 4 j.tag.toNat)).endJob n St.faultDetected).pumpAll

/-- What a job's write path failed under: the release of its group with host writes, or an EXEC with host outputs that no group holds back. -/
def State.writeFault (s : State) (n : Nat) (j : Job) : State :=
  match j.phase, j.group with
  | .release, some g => if g.staged.isEmpty then s else s.releaseWriteFails n j
  | _, none =>
    match j.exec.bind fun e => if e.stage == .running then e.result else none with
    | some r => if (hostOuts (outPairs j r.outs)).isEmpty then s else s.jobWriteFails n j r
    | none => s
  | _, _ => s

def execDmaWriteInternalError (target : WriteTarget) (s : State) : Res :=
  .next (match target with
    | .job n =>
      match s.job n with
      | some j => if s.tamper.frozen then s else s.writeFault n j
      | none => s
    | .record f q =>
      let x := s.queue f q
      if !fnOk f || !x.created || !x.wrote || x.discards then s
      else
        let s := s.stopQueue f q true 5 true
        (if x.deleting then s.setQueue f q { s.queue f q with endedSilently := x.endedSilently + 1 } else s).log 1 0 0
          (leBytes 4 x.lastTag.toNat ++ leBytes 2 (qselNum q)))

def execPortUncorrectableError (w : Wing) (s : State) : Res :=
  .next (let p := s.port w
    if p.perst || s.boot.inReset then s
    else
      let s := (s.setPort w { p with aer := p.aer ++ [.uncorrectableInternal] }).log 3 0 (dieSrc (wingDie w)) [0xFF]
      ((s.abortJobs fun _ j => fromFn (·.port == w) j).forAll (s.portPages w) fun s q => s.abortPage q).pumpAll)

end Sys2Proof.Machine
end

