-- ==== Sys2Proof/Machine/Continuity.lean ====
section
/-! DEFINITION. Service continuity: fences and tests of units, spares, gallery resets, the Curator's vote, links, orphans and wing resets
(R443 to R463, R476). -/

namespace Sys2Proof.Machine

/-! ### Fences and error counts (R445, R446, R448) -/

/-- A fence ordered by the Curator; a Curator core is fenced by a vote only. -/
def execUnitFence (u : UnitId) (cause : Nat) (s : State) : Res :=
  .next (if cause = 0 || cause > 6 || u.kind == Kind.curator || s.boot.inReset || s.stopped then s else (s.fence u cause).pumpAll)

/-- Every decay_s a unit's error count falls by 1. -/
def execErrorCountDecay (u : UnitId) (s : State) : Res :=
  .next (let x := s.unit u
    if !s.unitExists u || x.errors = 0 || s.now < x.decayAt + s.decaySec * 1000000000 then s
    else s.setUnit u { x with errors := x.errors - 1, decayAt := s.now })

/-- A unit silent for 10 µs on a handshake is declared dead. -/
def execUnitHandshakeTimeout (u : UnitId) (s : State) : Res :=
  .next (if u.kind == Kind.curator || s.boot.inReset || s.stopped then s else (s.fence u 3).pumpAll)

/-! ### Tests and recalibration (R449, R450) -/

/-- A unit exchanges places with a spare, which takes its lane kind: jobs in it go on in the spare, and it becomes the spare; no generation
changes. -/
def State.exchange (s : State) (u sp : UnitId) : State :=
  let s := (s.setUnit sp { s.unit sp with svc := .inService, masked := (s.unit u).masked }).setUnit u
    { s.unit u with svc := .spare, replaced := true, masked := false }
  { s with work := { s.work with grants := s.work.grants.map fun g => if g.unit == some u then { g with idx := sp.idx } else g } }

/-- A unit that is busy and has a spare is tested or recalibrated in the spare's place; a big-number engine that holds a suspended job's slots is
instead tested in slices, since that job resumes there and nowhere else (R304, R449). -/
def State.yieldToSpare (s : State) (u : UnitId) : State :=
  match s.spareOf u with
  | some sp =>
    let stays := s.work.grants.any fun g => g.unit == some u && g.suspended && g.res == .bigNumber u.loc
    if (s.unit u).svc == .inService && !(s.usersOf u).isEmpty && !stays then s.exchange u sp else s
  | none => s

/-- A known-answer test; a unit that fails it is fenced with cause 2. -/
def execUnitKnownAnswerTest (u : UnitId) (passes : Bool) (s : State) : Res :=
  .next (let x := s.unit u
    if !s.unitExists u || x.svc == .fenced || u.kind == Kind.curator || s.boot.inReset || s.stopped then s
    else if passes then
      let s := s.yieldToSpare u
      s.setUnit u { s.unit u with stFail := false }
    else (s.fence u 2).pumpAll)

/-- recal_min in ns; 0 means runs on temperature only. -/
def State.recalNs (s : State) : Nat := bits32 s.cont.cfg 16 8 * 60000000000

/-- The highest temperature, which recalibration follows. -/
def State.hottest (s : State) : Int := max (max s.power.tempW s.power.tempE) s.power.tempC

/-- A pass is due: ordered, on its timer, or after a change of 10 °C. -/
def State.recalDue (s : State) : Bool :=
  s.cont.recalPass || (s.recalNs != 0 && s.now ≥ s.cont.recalAt + s.recalNs) || (s.hottest - s.cont.recalTemp).natAbs ≥ 10

/-- A recalibration pass reaches a unit; the pass is then over. -/
def execRecalibration (u : UnitId) (s : State) : Res :=
  .next (if !s.unitExists u || (s.unit u).svc == .fenced || !s.recalDue || s.boot.inReset then s
    else
      let s := s.yieldToSpare u
      { s with cont := { s.cont with recalPass := false, recalAt := s.now, recalTemp := s.hottest } })

def execConsRecal (f : Fn) (v : Word32) (s : State) : Res :=
  .next (s.mgmtWrite f 0x14003C fun s => if bit32 v 0 then { s with cont := { s.cont with recalPass := true } } else s)

/-! ### Spares (R452, R453) -/

/-- The promotion that comes next: the oldest ordered one whose unit the Curator's orders reach (R22). -/
def State.nextPromotion (s : State) : Option Nat := s.cont.promoting.find? fun c => s.ordersReach (unitOf c).loc

/-- A promotion: the spare takes the fenced unit's place with a new generation. -/
def execSparePromotion (u : UnitId) (s : State) : Res :=
  .next (if s.nextPromotion != some (unitCode u) || s.stopped then s
    else
      let s := { s with cont := { s.cont with promoting := s.cont.promoting.filter (· != unitCode u) } }
      match s.spareOf u with
      | none => s
      | some sp =>
        let x := s.unit sp
        let s := s.setUnit sp { x with svc := .inService, gen := nextGen x.gen, masked := (s.unit u).masked }
        (s.setUnit u { s.unit u with replaced := true, ask := false, masked := false }).pumpAll)

/-- A unit-naming CONS register: the unit must exist and be no Curator core; `go` must be set. -/
def State.consWrite (s : State) (f : Fn) (off : Nat) (v : Word32) (k : UnitId → State → State) : State :=
  s.mgmtWrite f off fun s =>
    let u := unitOf (bits32 v 0 18)
    if !bit32 v 31 then s
    else if !s.unitExists u || u.kind == Kind.curator then s.regError f St.accessDenied off
    else k u s

def execConsPromote (f : Fn) (v : Word32) (s : State) : Res :=
  .next (s.consWrite f 0x140024 v fun u s =>
    if s.cont.asks.head? != some (unitCode u) then s.regError f St.accessDenied 0x140024
    else
      let s := s.setUnit u { s.unit u with ask := false }
      { s with cont := { s.cont with asks := s.cont.asks.drop 1, promoting := s.cont.promoting ++ [unitCode u] } })

def execConsFence (f : Fn) (v : Word32) (s : State) : Res :=
  .next (s.consWrite f 0x140028 v fun u s => (s.fence u 6).pumpAll)

def execConsReadmit (f : Fn) (v : Word32) (s : State) : Res :=
  .next (s.consWrite f 0x14002C v fun u s =>
    if (s.unit u).svc == .fenced then s.setUnit u { s.unit u with readmitting := true } else s)

/-- The outcome of a re-admission's self-test. -/
def execUnitReadmitComplete (u : UnitId) (passes : Bool) (s : State) : Res :=
  .next (let x := s.unit u
    if !x.readmitting || !s.ordersReach u.loc then s
    else if !passes then s.setUnit u { x with readmitting := false, stFail := true }
    else
      let s := s.setUnit u { x with svc := if x.replaced then .spare else .inService, gen := nextGen x.gen, readmitting := false, stFail := false,
                                    replaced := false, ask := false }
      let s := { s with cont := { s.cont with asks := s.cont.asks.filter (· != unitCode u),
                                              promoting := s.cont.promoting.filter (· != unitCode u) } }
      s.pumpAll)

/-! ### Gallery resets (R454) -/

def execConsGreset (f : Fn) (v : Word32) (s : State) : Res :=
  .next (s.mgmtWrite f 0x140040 fun s =>
    let g := bits32 v 0 4
    if !bit32 v 31 then s
    else if !s.present g then s.regError f St.accessDenied 0x140040
    else s.setGal g { s.gal g with resetOrdered := true })

/-- The Curator resets a gallery: on CONS_GRESET, or where the power switch of one of its fenced units has not reported (R446). -/
def execGalleryReset (gallery : Nat) (s : State) : Res :=
  .next (let fenced := s.cont.units.any fun p => (unitOf p.1).loc == gallery && (match p.2 with | some x => x.svc == .fenced | none => false)
    if !s.present gallery || !s.ordersReach gallery || (s.gal gallery).inReset || !((s.gal gallery).resetOrdered || fenced) || s.boot.inReset then s
    else (s.galleryDown gallery).pumpAll)

def execGalleryResetComplete (gallery : Nat) (s : State) : Res :=
  .next (if !(s.gal gallery).inReset then s else (s.setGal gallery { s.gal gallery with inReset := false }).pumpAll)

/-! ### Registers and stale traffic (R21, R476) -/

def State.setEvent (s : State) (v : Word32) : State := { s with cont := { s.cont with event := v } }
def State.setFencedTraffic (s : State) (n : Nat) : State := { s with cont := { s.cont with fencedTraffic := n } }
def State.setLinkdown (s : State) (a b c : Nat) : State := { s with cont := { s.cont with downWing := a, downW := b, downE := c } }

def execConsEventRead (f : Fn) (s : State) : Res := .next (s.clearRead f 0x140010 (s.readCons 0x010) fun s => s.setEvent 0)
def execConsFencedTrafficRead (f : Fn) (s : State) : Res :=
  .next (s.clearRead f 0x14001C (s.readCons 0x01C) fun s => s.setFencedTraffic 0)
def execConsLinkdownRead (f : Fn) (s : State) : Res := .next (s.clearRead f 0x140038 (s.readCons 0x038) fun s => s.setLinkdown 0 0 0)

/-- A flit with a stale generation is dropped, counted and logged as FENCED_TRAFFIC. -/
def execStaleFlitDrop (u : UnitId) (gen : Nat) (s : State) : Res :=
  .next (if !s.unitExists u || gen == (s.unit u).gen then s
    else (s.setFencedTraffic (sat (2 ^ 32 - 1) (s.cont.fencedTraffic + 1))).log 2 0 (unitSrc u) (leBytes 2 gen))

/-! ### The Curator's vote and its loss (R456, R462) -/

def State.setVote (s : State) (v : VoteMode) : State := { s with cont := { s.cont with vote := v } }

/-- The device freezes for the loss of the Curator: no class latches, and the wings write their records. -/
def State.loseCurator (s : State) : State :=
  let s := s.freeze .curatorDie
  { s with tamper := { s.tamper with lostFreeze := true, orderDue := false, reportPhase := true } }

def execVoteDisagreement (vote : Vote) (s : State) : Res :=
  .next (if s.boot.inReset then s
    else match s.cont.vote, vote.dissenter with
    | .triple, some k =>
      if k ≥ 3 then s else (s.fence ⟨20, Kind.curator, k⟩ 4).setVote .dual
    | .dual, _ => (s.setVote .lost).loseCurator
    | _, _ => s)

def execBothWingsLost (s : State) : Res :=
  .next (let cut := s.cont.linkKeys && !s.cont.curW.up && !s.cont.curE.up
    if s.boot.inReset || s.tamper.frozen || !(cut || s.cont.vote == .lost || (s.cont.orphanW && s.cont.orphanE)) then s
    else s.loseCurator)

/-! ### Links (R457 to R459) -/

def LinkState.rx (x : LinkState) : LinkEnd → Nat
  | .first => x.rxFirst
  | .second => x.rxSecond

/-- A heartbeat sent by one end reaches the other. -/
def LinkState.beat (x : LinkState) (e : LinkEnd) (now : Nat) : LinkState :=
  match e with
  | .first => { x with rxSecond := now }
  | .second => { x with rxFirst := now }

def execHeartbeatSend (l : Link) (e : LinkEnd) (s : State) : Res :=
  .next (let x := s.link l
    if !s.cont.linkKeys || !(x.up || x.cleanSince.isSome) then s else (s.setLink l (x.beat e s.runNs)).emit (.heartbeat l e))

/-- 8 µs. -/
def linkSilenceNs : Nat := 8000

/-- A down event is counted. -/
def State.countDown (s : State) (l : Link) : State :=
  let c := s.cont
  match l with
  | .wingLink => s.setLinkdown (sat 255 (c.downWing + 1)) c.downW c.downE
  | .curatorLink .west => s.setLinkdown c.downWing (sat 255 (c.downW + 1)) c.downE
  | .curatorLink .east => s.setLinkdown c.downWing c.downW (sat 255 (c.downE + 1))

def linkCode : Link → Nat
  | .wingLink => 0
  | .curatorLink .west => 1
  | .curatorLink .east => 2

/-- What the loss of a link brings besides the count: without the wing link, jobs placed across it end. -/
def State.linkLost (s : State) (l : Link) : State :=
  match l with
  | .wingLink => s.endJobs (fun _ j => galleryWing j.gallery != j.wing) St.engineFenced
  | .curatorLink _ => s

/-- An end that has received nothing for 8 µs declares its link down. -/
def execLinkDownDeclare (l : Link) (e : LinkEnd) (s : State) : Res :=
  .next (let x := s.link l
    if !x.up || s.runNs < x.rx e + linkSilenceNs then s
    else
      let old := s
      let s := ((s.setLink l { x with up := false, cleanSince := none, lastRetrain := s.runNs }).countDown l).log 3 0 (dieSrc .curatorDie) [byte (linkCode l)]
      ((State.entropyChanged old (s.linkLost l)).markC0).pumpAll)

/-- A link that is down retrains every 1 ms; traffic then runs on it for the 10 ms of R457. -/
def execLinkRetrain (l : Link) (s : State) : Res :=
  .next (let x := s.link l
    if x.up || !s.cont.linkKeys || x.cleanSince.isSome || s.runNs < x.lastRetrain + 1000000 then s
    else if x.key.isNone then s.keyLink l
    else s.setLink l { x with cleanSince := some s.runNs, lastRetrain := s.runNs, rxFirst := s.runNs, rxSecond := s.runNs })

/-- After 10 ms of clean traffic the link is up; a silence in that time means another retraining. -/
def execLinkUpDeclare (l : Link) (s : State) : Res :=
  .next (let x := s.link l
    match x.cleanSince with
    | none => s
    | some t =>
      if s.runNs ≥ x.rxFirst + linkSilenceNs || s.runNs ≥ x.rxSecond + linkSilenceNs then
        s.setLink l { x with cleanSince := none, lastRetrain := s.runNs }
      else if x.up || s.runNs < t + 10000000 then s
      else
        let old := s
        (State.entropyChanged old (s.setLink l { x with up := true, upAt := s.now, cleanSince := none })).pumpAll)

/-! ### Orphans (R460, R461) -/

/-- A wing that cannot reach the Curator becomes an orphan. -/
def execOrphanDetect (w : Wing) (s : State) : Res :=
  .next (if s.orphan w || s.reaches w || !s.cont.linkKeys || s.boot.inReset then s
    else
      let old := s
      let s := (((s.setOrphan w true).setAdmitted w false).raiseSplit).retireBlocks w
      let s := s.setStoreWing w { s.storeWing w with stale := true }
      let s := (s.log 3 St.splitOrphan (dieSrc (wingDie w)) []).abandonHandover 2
      ((State.entropyChanged old s).markC0).pumpAll)

/-- A wing's tile key, node cache and root are wiped (R394). -/
def State.wipeGate (s : State) (w : Wing) : State :=
  s.setStoreWing w (s.storeWing w).wiped

def State.setHalted (s : State) (w : Wing) (v : Bool) : State :=
  match w with
  | .west => { s with cont := { s.cont with haltedW := v } }
  | .east => { s with cont := { s.cont with haltedE := v } }

def State.dropReady (s : State) (w : Wing) : State :=
  match w with
  | .west => { s with entropy := { s.entropy with readyW := false } }
  | .east => { s with entropy := { s.entropy with readyE := false } }

/-- The last lease has ended on an orphan: it halts. -/
def execOrphanHalt (w : Wing) (s : State) : Res :=
  .next (if !s.orphan w || s.halted w || s.returning w || s.loanList.any (fun p => p.2.wing == w && s.runNs < p.2.from_ + p.2.leaseNs) then s
    else
      let old := s
      let s := (s.endJobs (fun _ j => j.wing == w || galleryWing j.gallery == w) St.splitOrphan).dropGensOn fun g => galleryWing g == w
      let s := s.forAll (s.portPages w) fun s p => s.endPage p St.splitOrphan
      let s := State.entropyChanged old (((s.wipeGate w).wipeGenerators (s.poolDrbgs (.wing w)) (s.poolMasks (.wing w))).dropReady w)
      let s := s.setDoc w { s.doc w with running := false }
      let s := s.forAll (portFns w) fun s f => s.setReady f false
      ((s.setDesk w false).setHalted w true).pumpAll)

/-! ### Wing resets and re-admission (R69, R111, R395, R463) -/

/-- Every dirty node is written back, level by level, and the root follows (R384, R395). -/
def State.flushGate (s : State) (w : Wing) : State :=
  let level (s : State) (k : Nat) : State :=
    s.forAll ((s.storeWing w).nodes.filter fun p => p.1 / 2 ^ 29 == k && p.2.dirtyAt.isSome) fun s p => s.writeBack w k (p.1 % 2 ^ 29)
  if s.orphan w || !s.reaches w then s else [1, 2, 3].foldl level s

/-- The job runs for a wing: accepted at its port or by its Docents, or on one of its galleries. -/
def onWing (w : Wing) (j : Job) : Bool := j.wing == w || galleryWing j.gallery == w

/-- A wing's caches and dispatcher start afresh, and its program store is the other wing's. -/
def State.refillWing (s : State) (w : Wing) : State :=
  let s := s.setDisp w {}
  match w with
  | .west => { s with cat := { s.cat with cacheW := [] }, work := { s.work with progsW := s.work.progsE } }
  | .east => { s with cat := { s.cat with cacheE := [] }, work := { s.work with progsE := s.work.progsW } }

/-- A wing reset: its jobs are aborted, cross-wing jobs of the other wing end with ENGINE_FENCED, its port goes down, and its galleries,
entropy and Docents start afresh; its links get new keys (R19). -/
def State.wingDown (s : State) (w : Wing) : State :=
  let old := s
  let s := s.flushGate w
  let s := s.abortJobs fun _ j => j.wing == w
  let s := (s.endJobs (fun _ j => galleryWing j.gallery == w) St.engineFenced).dropGensOn fun g => galleryWing g == w
  let s := (s.portDown w).endOwned [ownerCode (.pf w), ownerCode (.supervisor w)]
  let s := (((s.clearGalleries w).refillWing w).retireBlocks w).restartWingEntropy w
  let s := ((s.docentReset w false).setAdmitted w false).keyLink (.curatorLink w)
  let s := s.keyLink .wingLink
  (State.entropyChanged old s).log 3 0 (dieSrc (wingDie w)) [0x80]

def execWingReset (w : Wing) (s : State) : Res :=
  .next (if s.boot.inReset || s.stopped || !s.hasCurator w then s else (s.wingDown w).pumpAll)

/-- Some path of a wing to the Curator has been up for 100 ms. -/
def State.pathStable (s : State) (w : Wing) : Bool :=
  let long (l : LinkState) : Bool := l.up && s.now ≥ l.upAt + 100000000
  long (s.curLink w) || (long s.cont.wingLink && long (s.curLink (otherWing w)))

/-- The tree of a wing starts again under a new tile key, which the Curator draws (R395); the tile map stays. -/
def State.newTree (s : State) (w : Wing) : State :=
  let d := s.drawCurator 32
  d.2.setStoreWing w { (d.2.storeWing w).fresh with tileKey := d.1, stale := true }

/-- The steps of re-admission up to the copy of the mirrored regions; the wing accepts jobs once its entropy and Storeroom are ready. -/
def execWingReadmission (w : Wing) (s : State) : Res :=
  .next (if !s.orphan w || s.returning w || !s.pathStable w || !s.drbgOk .curator || s.stopped || s.boot.inReset then s
    else
      let s := ((s.wingDown w).setHalted w false).newTree w
      let s := { s with store := { s.store with refresh := true } }
      let s := s.setDoc w { s.doc w with running := true }
      (s.setReturning w true).pumpAll)

/-! ### Banks and slots (R306, R307) -/

/-- An engine's inactive bank has been loaded, or its load failed verification. -/
def execMicrocodeBankLoad (u : UnitId) (verifies : Bool) (s : State) : Res :=
  .next (if !s.cfgtx.toLoad.contains (unitCode u) || s.stopped then s
    else
      let s := { s with cfgtx := { s.cfgtx with toLoad := s.cfgtx.toLoad.filter (· != unitCode u) } }
      if verifies then s else (s.fence u 5).pumpAll)

/-- A gallery's pair of engines holds no job: its slot memory takes the committed slot length and is wiped. -/
def execBnslotRepartition (gallery : Nat) (s : State) : Res :=
  .next (let x := s.gal gallery
    match x.repartition with
    | none => s
    | some n =>
      if !s.repartitioning gallery || !s.ordersReach gallery || s.work.grants.any (fun g => g.res == .bigNumber gallery) then s
      else (s.setGal gallery { x with slotLen := n, repartition := none, wiping := x.wiping.filter fun y => y.1 != Kind.bigNumber }).pumpAll)

end Sys2Proof.Machine
end

