-- ==== Sys2Proof/Machine/Journal.lean ====
section
/-! DEFINITION. The Registrar's acts in time: revocation orders, leases, the provenance walk, seals and checkpoints; and the journal and
restore messages (R164 to R187). -/

namespace Sys2Proof.Machine

/-! ### Revocation orders (R167, R168, R544) -/

def RevOrder.names (o : RevOrder) (coll index gen : Nat) : Bool := o.coll == coll && o.index == index && o.gen == gen

/-- The order that awaits a wing. -/
def State.setOrders (s : State) (l : List RevOrder) : State := { s with cat := { s.cat with orders := l } }

/-- What a revocation order clears on a wing: jobs and page operations with a loan of the entry, then those with a loan, or a held
reservation, whose bound ancestors include it. -/
def State.clearRevoked (s : State) (w : Wing) (coll index gen : Nat) : State :=
  let loans := s.loanList.filter fun p => p.2.wing == w
  let own := (loans.filter fun p => loanOf coll index gen p.2).map (·.2.job)
  let below := ((loans.filter fun p => p.2.coll == coll && boundTo index gen p.2.ancestors).map (·.2.job)) ++
    (s.cat.reserved.filter fun x => x.coll == coll && boundTo index gen x.ancestors &&
      (match s.job x.job with | some j => galleryWing j.gallery == w | none => false)).map (·.job)
  let s := s.forAll own fun s n => s.endUser n St.keyRevoked
  s.forAll below fun s n => s.endUser n St.keyParentInvalid

def execRevocationOrder (w : Wing) (coll index gen : Nat) (s : State) : Res :=
  .next (if !s.hasCurator w || !s.cat.orders.any fun o => o.names coll index gen && o.due.contains w then s
    else
      let s := s.clearRevoked w coll index gen
      (s.setOrders (s.cat.orders.map fun o => if o.names coll index gen then { o with due := o.due.filter (· != w) } else o)).pumpAll)

/-- A wing acknowledges, or is no longer reachable; an order that all reachable wings have acknowledged is done. -/
def execRevocationAck (w : Wing) (coll index gen : Nat) (s : State) : Res :=
  .next (
    let ack (o : RevOrder) : RevOrder :=
      if o.names coll index gen && (!o.due.contains w || !s.hasCurator w) then
        { o with due := o.due.filter (· != w), waits := o.waits.filter (· != w) }
      else o
    s.setOrders ((s.cat.orders.map ack).filter fun o => !o.waits.isEmpty))

/-! ### Leases (R165) -/

def State.setLoan (s : State) (n : Nat) (l : Loan) : State := { s with cat := { s.cat with loans := s.cat.loans.set none n (some l) } }

/-- Why a renewal is refused: the entry revoked, or a bound ancestor. -/
def State.renewalStatus (s : State) (l : Loan) : Byte :=
  if l.revoked then St.keyRevoked
  else if l.ancestors.any fun a => s.cat.invalidated.any fun x => x.coll == l.coll && x.index == a.index && x.gen == a.gen && x.revoked then
    St.keyParentInvalid
  else St.ok

def execLeaseRenewal (loan : Nat) (s : State) : Res :=
  .next (match s.loan loan with
    | none => s
    | some l =>
      if !s.hasCurator l.wing || s.runNs < l.from_ + l.leaseNs / 2 || s.tamper.frozen then s
      else
        let st := s.renewalStatus l
        if st == St.ok then s.setLoan loan { l with from_ := s.runNs } else (s.endUser l.job st).pumpAll)

/-- A lease runs out where the Curator cannot be reached; timers pause in watch mode. -/
def execLeaseExpiry (loan : Nat) (s : State) : Res :=
  .next (match s.loan loan with
    | none => s
    | some l =>
      if s.hasCurator l.wing || s.runNs < l.from_ + l.leaseNs || s.watchMode || s.tamper.frozen then s
      else match s.job l.job with
        | some j =>
          if s.isSuspended l.job && j.phase == .exec then s.putJob l.job { j with ending := some (j.ending.getD St.splitOrphan) }
          else (s.endUser l.job St.splitOrphan).pumpAll
        | none => (s.endUser l.job St.splitOrphan).pumpAll)

/-! ### The provenance walk (R172) -/

/-- A bound descendant takes its ancestor's state. -/
def State.cascade (s : State) (r : CatRecord) (revoked : Bool) : State :=
  let x := { r with state := if revoked then .revoked else .withdrawn, pinned := false }
  let s := (s.invalidateCache (entryKey r.coll r.index)).setEntry x
  let s := if revoked then s.markRevoked r.coll r.index r.gen else s
  let s := if revoked || (s.loansOf r.coll r.index r.gen).isEmpty then
      ((s.destroyMaterial x).evict (r.coll, r.index, r.gen)).closeSlotOf r true
    else s.closeSlotOf r false
  s.journalState r.coll r.index true

/-- The bound descendants that the walk has not marked. -/
def State.unmarked (s : State) (x : Invalid) : List CatRecord :=
  s.entries.filter fun r => r.coll == x.coll && boundTo x.index x.gen r.ancestors && (r.state == .active || (x.revoked && r.state == .withdrawn))

def Invalid.names (x : Invalid) (coll index gen : Nat) : Bool := x.coll == coll && x.index == index && x.gen == gen

def State.setInvalidated (s : State) (l : List Invalid) : State := { s with cat := { s.cat with invalidated := l } }

/-- The walk marks every bound descendant of an invalidated ancestor with its state. -/
def execProvenanceWalk (coll index gen : Nat) (s : State) : Res :=
  .next (match s.cat.invalidated.find? fun x => x.names coll index gen with
    | none => s
    | some x =>
      if x.walked || s.stopped then s
      else
        let s := s.forAll (s.unmarked x) fun s r => s.cascade r x.revoked
        let seal_ := if s.journal.openSeal.isEmpty then s.journal.lastClosed else s.openSeq
        s.setInvalidated (s.cat.invalidated.map fun y => if y.names coll index gen then { y with walked := true, sealSeq := seal_ } else y))

/-- The head covers the walk's changes: the pair leaves the table, unless an accession has meanwhile brought a descendant, which the walk
then marks too. -/
def execInvalidatedAncestorRelease (coll index gen : Nat) (s : State) : Res :=
  .next (match s.cat.invalidated.find? fun x => x.names coll index gen with
    | none => s
    | some x =>
      let held := s.cat.reserved.any fun r => r.coll == coll && boundTo index gen r.ancestors
      if !x.walked || s.journal.head.n < x.sealSeq || held then s
      else if (s.unmarked x).isEmpty then s.setInvalidated (s.cat.invalidated.filter fun y => !y.names coll index gen)
      else s.setInvalidated (s.cat.invalidated.map fun y => if y.names coll index gen then { y with walked := false } else y))

/-! ### Seal blocks (R151, R152, R178, R179) -/

/-- The journal key (R173). -/
def State.jk (s : State) : List Byte := Config.prim .rdsKey [[0x4A], leBytes 32 (s.boot.ssk.getD 0), leBytes 4 s.journal.head.gen] 32

/-- A CBK wrap as the journal carries it: its measurement set, and the key sealed under the key of that set (R173). -/
def State.wrapKey (s : State) (c : Nat) (meas : List Byte) : List Byte :=
  Config.prim .rdsKey [leBytes 2 c, leBytes 32 (s.boot.ssk.getD 0), meas] 32
def State.wrapBytes (s : State) (c : Nat) (x : CbkWrap) : List Byte :=
  padTo 192 x.meas ++ Config.prim .gcmSeal [s.wrapKey c x.meas, x.key] 48

/-- The wraps that a payload's tail spells. -/
def State.parseWraps (s : State) (c : Nat) (b : List Byte) : List CbkWrap :=
  (List.range (b.length / 240)).map fun k =>
    let meas := slice b (240 * k) 192
    { meas, key := Config.prim .gcmOpen [s.wrapKey c meas, slice b (240 * k + 192) 48] 32 }

/-- The payload of a COLLECTION record: number, attributes, default lease, the bound functions, the floors of a version-bound collection and the
CBK wraps of a measurement-bound one; a deleted one has binding 0xFF. -/
def State.collectionPayload (s : State) (c : Nat) (attrs : Option Collection) (bound : List Fn) (wraps : List CbkWrap) (floors : List Nat) : List Byte :=
  let a := attrs.getD { bindingMode := 0xFF, weight := 0, maxInflight := 0, c0Max := 0 }
  leBytes 2 c ++ [byte a.bindingMode, byte a.weight] ++ leBytes 2 a.maxInflight ++ leBytes 2 a.c0Max ++ leBytes 4 (s.collPolicy c).leaseMs ++
    leBytes 4 bound.length ++ (bound.flatMap fun f => [byte (wingIdx f.port), byte f.vf, 0]) ++ floors.flatMap (leBytes 4) ++
    wraps.flatMap (s.wrapBytes c)

/-- A record of a seal's body: its 8-byte header, then its payload padded to 8. -/
def sealRecord (type : Nat) (payload : List Byte) : List Byte :=
  [byte type, 0, 0, 0] ++ leBytes 4 payload.length ++ padTo (up8 payload.length) payload

def State.sealRecordBytes (s : State) : SealRecord → List Byte
  | .entry r => sealRecord 1 ((s.recordImage r).1 ++ (s.recordImage r).2)
  | .state r => sealRecord 2 ((recordInfo r).take 8 ++ slice (recordInfo r) 64 8)
  | .collection c a b w l => sealRecord 3 (s.collectionPayload c a b w l)
  | .loss m hm n => sealRecord 4 (leBytes 8 m ++ padTo 48 hm ++ leBytes 8 n)
  | .pad => sealRecord 5 (zeros 8)

/-- The clear bytes 0 to 95 of a block. -/
def State.sealHeader (s : State) (c : ClosedSeal) (len : Nat) : List Byte :=
  let h := s.journal.head
  leBytes 4 0x52414A31 ++ leBytes 2 1 ++ leBytes 2 (b2n c.checkpointBegin + 2 * b2n c.checkpointEnd + 4 * b2n c.lossAccepted) ++
    leBytes 8 c.seq ++ leBytes 4 h.gen ++ leBytes 4 c.records.length ++ leBytes 4 len ++ leBytes 4 c.rtc ++
    (if c.seq = 1 then zeros 48 else padTo 48 h.hn) ++ zeros 16

/-- The nonce of a block: its sequence, then journal_gen. -/
def blockNonce (seq gen : Nat) : List Byte := leBytes 8 seq ++ leBytes 4 gen

/-- The whole block of a closed seal. -/
def State.sealBlock (s : State) (c : ClosedSeal) : List Byte :=
  let body := c.records.flatMap s.sealRecordBytes
  let head := s.sealHeader c body.length
  head ++ Config.prim .journalSeal [s.jk, blockNonce c.seq s.journal.head.gen, head, body] (body.length + 16)

/-- H_n of a block. -/
def chainOf (block : List Byte) : List Byte := Config.prim (.hash 2) [block] 48

/-! ### Seals in time (R176, R180, R183, R184) -/

def execSealIntervalExpiry (s : State) : Res :=
  .next (let j := s.journal
    if j.openSeal.isEmpty || s.now < j.openSince + j.intervalUs * 1000 || s.stopped || s.boot.inReset then s else s.closeSeal false)

/-- Bytes written to the ring from a total offset on, in one part, or two where they wrap. -/
def State.writeRing (s : State) (bytes : List Byte) : State :=
  let j := s.journal
  let at_ := j.written % max 1 j.ringSize
  let first := min bytes.length (j.ringSize - at_)
  let s := s.writeHost j.ringPort (j.ringBase + at_) (bytes.take first)
  if first < bytes.length then s.writeHost j.ringPort j.ringBase (bytes.drop first) else s

/-- The head is written to the next of the 64 slots (R180). -/
def State.putHead (s : State) (h : JournalHead) : State :=
  let slot := (s.journal.slot + 1) % 64
  { s with journal := { s.journal with head := h, slot, heads := s.journal.heads.set none slot (some (h, true)) } }

/-- The oldest closed seal is written where the ring has room; the head then covers it, where it does not already (R186). -/
def State.sealWrite (s : State) : State :=
    match s.journal.closed with
    | [] => s
    | c :: rest =>
      let b := c.block.getD (s.sealBlock c)
      let j := s.journal
      if !s.ringReachable || b.length > j.ringSize - (j.written - j.ackedTo) then s
      else
        let s := s.writeRing b
        let cp := j.checkpoint.map fun x => if x.first = c.seq then { x with prev := padTo 48 j.head.hn } else x
        let total := j.written + b.length
        let s := { s with journal := { j with closed := rest, written := total, blockEnds := j.blockEnds ++ [total], checkpoint := cp } }
        (if c.block.isSome then s else s.putHead { j.head with n := c.seq, hn := chainOf b }).pumpAll

def execSealWrite (s : State) : Res := .next s.sealWrite

/-- Every closed seal is written, while the ring has room. -/
def State.writeSeals (s : State) : State := s.forAll s.journal.closed fun s _ => s.sealWrite

/-- The open seal closes, and it and the closed ones are written to the ring (R176, R423), though not under an erase; after the loss of the
Curator there is no one to write them (R439, R462). -/
def State.sealReport (s : State) : State := if s.tamper.erased || s.tamper.lostFreeze then s else (s.closeSeal false).writeSeals

/-- The ports write the frozen jobs' records; under freeze-and-report the open seal is closed and written (R423). A record that its port
cannot write has its tag in the log. -/
def execReportPhase (s : State) : Res :=
  .next (if !s.tamper.reportPhase then s
    else
      let s := s.forAll s.tamper.frozenJobs fun s x =>
        let r : Record := { tag := x.tag, status := St.tamperFrozen, flags := x.flags, epoch := x.epoch, elapsedNs := s.now - x.arrival }
        s.deliver x.src r x.irq (x.cls == 0)
      let s := ({ s with tamper := { s.tamper with frozenJobs := [] } }).sealReport
      { s with tamper := { s.tamper with reportPhase := false } })

/-- Closed ledger slots become reclaimable once a checkpoint that began after their close is covered (R273). -/
def State.reclaimSlots (s : State) : State :=
  s.forAll (s.ledger.slots.filter fun p => p.2.state == .closed && p.2.closedAt < s.ledger.checkpoints) fun s p => s.setSlot p.1 { p.2 with state := .reclaimable }

def execCheckpointEnd (s : State) : Res :=
  .next (let j := s.journal
    match j.checkpoint with
    | none => s
    | some x =>
      if j.head.n < x.last then s
      else
        let s := { s with journal := { j with checkpoint := none } }.putHead { j.head with c := x.first, hc1 := x.prev }
        s.reclaimSlots)

/-! ### Messages: the ring (R181 to R183) -/

/-- A journal message comes from a PF only. -/
def State.journalMessage (s : State) (m : Sender) (code replyLen : Nat) (params : List Byte) (f : List Byte → State → Answer) : State :=
  match m with
  | .pf _ => s.message m code replyLen params f
  | .supervisor _ => s.message m code 0 params fun _ s => deny St.accessDenied s

/-- A ring size is a power of two from 16 MiB to 4 GiB. -/
def ringSizeOk (n : Nat) : Bool := (List.range 9).any fun k => n == 2 ^ (24 + k)

def execJournalConfig (m : Sender) (params : List Byte) (s : State) : Res :=
  .next (s.journalMessage m 0x40 0 params fun p s =>
    let base := leAt p 0 8
    let size := leAt p 8 8
    let us := leAt p 16 4
    if base % 4096 != 0 || !ringSizeOk size || !(us = 0 || (100 ≤ us && us ≤ 10000)) || !allZero (slice p 20 4) then deny St.inputRange s
    else
      let j := s.journal
      let same := j.configured && j.ringBase = base && j.ringSize = size && j.ringPort == senderWing m
      let j := { j with ringBase := base, ringSize := size, intervalUs := if us = 0 then 1000 else us, ringPort := senderWing m, configured := true }
      let j := if same then j else { j with written := 0, ackedTo := 0, blockEnds := [] }
      (St.ok, [], { s with journal := j }))

/-- Room has been acknowledged up to a ring offset that ends a written block, or that is acknowledged already. -/
def execJournalAck (m : Sender) (params : List Byte) (s : State) : Res :=
  .next (s.journalMessage m 0x41 0 params fun p s =>
    let j := s.journal
    let off := leAt p 0 8
    let fits := j.blockEnds.filter fun e => e % max 1 j.ringSize == off
    match fits.getLast? with
    | some e => (St.ok, [], { s with journal := { j with acked := true, ackedTo := e, blockEnds := j.blockEnds.filter (e < ·) } })
    | none =>
      if j.configured && off == j.ackedTo % max 1 j.ringSize then (St.ok, [], { s with journal := { j with acked := true } })
      else deny St.inputRange s)

def restoreCode : RestoreState → Nat
  | .empty => 0
  | .open_ => 1
  | .restored => 2

def State.journalStatus (s : State) : List Byte :=
  let j := s.journal
  leBytes 8 j.head.n ++ leBytes 8 j.head.c ++ leBytes 4 j.head.gen ++ [byte (b2n j.checkpoint.isSome), byte (restoreCode j.restore), 0, 0] ++
    leBytes 8 (j.written % max 1 j.ringSize) ++ leBytes 8 (j.ackedTo % max 1 j.ringSize) ++ leBytes 4 s.waitingBytes ++ leBytes 4 s.reserveUsed ++
    padTo 48 j.head.hn ++ padTo 48 j.head.hc1

def execJournalStatus (m : Sender) (params : List Byte) (s : State) : Res :=
  .next (s.journalMessage m 0x42 144 params fun _ s => (St.ok, s.journalStatus, s))

/-! ### Restore (R181, R185 to R187) -/

def execRestoreBegin (m : Sender) (params : List Byte) (s : State) : Res :=
  .next (s.journalMessage m 0x43 0 params fun _ s =>
    let j := s.journal
    if j.restore != .empty || ((s.wingChannels .west).isEmpty && (s.wingChannels .east).isEmpty) then deny St.policyDenied s
    else (St.ok, [], { s with journal := { j with restore := .open_, applied := j.head.c - 1, appliedChain := padTo 48 j.head.hc1,
                                                  appliedAny := false, bindings := [], gone := [] } }))

/-- The records of a body: type and payload; none where it is not well formed. -/
def bodyRecords : Nat → List Byte → Option (List (Nat × List Byte))
  | 0, b => if b.isEmpty then some [] else none
  | n + 1, b =>
    let len := leAt b 4 4
    if b.length < 8 + up8 len || !allZero (slice b 1 3) || !(1 ≤ byteAt b 0 && byteAt b 0 ≤ 5) then none
    else (bodyRecords n (b.drop (8 + up8 len))).map fun l => (byteAt b 0, slice b 8 len) :: l

def stateOf : Nat → Option EntryState
  | 1 => some .active
  | 2 => some .withdrawn
  | 3 => some .revoked
  | _ => none

/-- The record that an ENTRY payload spells, its material opened under the collection's key, or kept sealed where that is not available (R174). -/
def State.parseEntry (s : State) (b : List Byte) : Option CatRecord :=
  match stateOf (fieldAt (byteAt b 64) 0 3) with
  | none => none
  | some st =>
    let h := w64 (leAt b 0 8)
    let n := leAt b 68 4
    let destroyed := (byteAt b 64).testBit 3
    let r : CatRecord :=
      { coll := handleColl h, index := handleIndex h, gen := handleGen h, purpose := fieldAt (byteAt b 8) 0 4, origin := fieldAt (byteAt b 8) 4 4,
        cls := byteAt b 9, selector := byteAt b 10, deriveBound := (byteAt b 11).testBit 0, wrapExport := (byteAt b 11).testBit 1,
        stateful := (byteAt b 11).testBit 2, clearOrigin := (byteAt b 11).testBit 3, leaseMs := leAt b 12 2, kdf := byteAt b 14,
        depth := fieldAt (byteAt b 15) 0 3,
        ancestors := (List.range (fieldAt (byteAt b 15) 3 3)).map fun k => ⟨leAt b (24 + 6 * k) 4, leAt b (28 + 6 * k) 2⟩,
        binding := fieldAt (byteAt b 15) 6 2, notBefore := leAt b 16 4, notAfter := leAt b 20 4, checkValue := slice b 48 8,
        classWord := w32 (leAt b 56 4), state := st, destroyed, pinned := (byteAt b 65).testBit 0, length := n, extent := leAt b 72 4,
        sealSeq := leAt b 76 4 }
    let ct := if n ≤ 32 then slice b 80 n ++ slice b 112 16 else slice b 128 (n + 16)
    if b.length < 128 || fieldAt (byteAt b 15) 3 3 > 4 || !(1 ≤ n && n ≤ 1048576) || r.gen = 0 || !handleLowZero h then none
    else some (if destroyed then r else s.unsealed { r with stored := some ct })

/-- Bytes of the floors in a COLLECTION payload: the four of a version-bound collection. -/
def floorBytes (b : List Byte) : Nat := if byteAt b 2 = 1 then 16 else 0

/-- A payload is well formed. -/
def State.payloadOk (s : State) (p : Nat × List Byte) : Bool :=
  match p.1 with
  | 1 => (s.parseEntry p.2).isSome
  | 2 => p.2.length == 16 && (stateOf (fieldAt (byteAt p.2 8) 0 3)).isSome
  | 3 =>
    let head := 16 + 3 * leAt p.2 12 4 + floorBytes p.2
    p.2.length ≥ head && (p.2.length - head) % 240 == 0 && leAt p.2 0 2 < 1024
  | 4 => p.2.length == 64
  | _ => allZero p.2

/-- A record of an applied block takes effect; `seq` is the block's sequence. Wraps that MRAM does not hold come back with their collection. -/
def State.applyRecord (s : State) (seq : Nat) (p : Nat × List Byte) : State :=
  let b := p.2
  match p.1 with
  | 1 =>
    match s.parseEntry b with
    | some r =>
      let old := match s.entry r.coll r.index with | some o => if o.destroyed then 0 else granules o.length | none => 0
      let new := if r.destroyed then 0 else granules r.length
      let key := entryKey r.coll r.index
      let s := (s.setEntry r).storeRecord r true
      { s with cat := { s.cat with granulesUsed := s.cat.granulesUsed - old + new,
                                   highest := s.cat.highest.set 0 key (max (s.highestGen r.coll r.index) r.gen) } }
    | none => s
  | 2 =>
    let h := w64 (leAt b 0 8)
    match s.entry (handleColl h) (handleIndex h), stateOf (fieldAt (byteAt b 8) 0 3) with
    | some r, some st =>
      if r.gen != handleGen h then s
      else
        let s := s.setEntry { r with state := st, pinned := (byteAt b 9).testBit 0, sealSeq := seq % 2 ^ 32 }
        match s.entry r.coll r.index with
        | some x => let s := if (byteAt b 8).testBit 3 then s.destroyMaterial x else s
                    match s.entry r.coll r.index with
                    | some y => s.storeRecord y false
                    | none => s
        | none => s
    | _, _ => s
  | 3 =>
    let c := leAt b 0 2
    let a : Collection := { bindingMode := byteAt b 2, weight := byteAt b 3, maxInflight := leAt b 4 2, c0Max := leAt b 6 2 }
    let fns := (List.range (leAt b 12 4)).map fun k => (⟨if byteAt b (16 + 3 * k) = 0 then .west else .east, byteAt b (17 + 3 * k)⟩ : Fn)
    let gone : Bool := byteAt b 2 = 0xFF
    let at_ := 16 + 3 * leAt b 12 4
    let floors := (List.range (floorBytes b / 4)).map fun k => leAt b (at_ + 4 * k) 4
    let old := s.cat.wraps.get [] c
    let new := (s.parseWraps c (b.drop (at_ + floorBytes b))).filter fun x => !old.any fun y => padTo 192 y.meas == x.meas
    let s := s.setColl c (if gone then none else some a)
    let s := { s with cat := { s.cat with wraps := s.cat.wraps.set [] c (if gone then [] else old ++ new), floorsAt := s.cat.floorsAt.set [] c floors } }
    { s with journal := { s.journal with bindings := (s.journal.bindings.filter fun x => x.1 != c) ++ [(c, fns)],
                                         gone := if gone then s.journal.gone ++ [c] else s.journal.gone } }
  | _ => s

/-- The checks of R185 on a block of a decrypted body, in order; the exception for a loss_accepted block. -/
def State.blockStatus (s : State) (b : List Byte) (len : Nat) (recs : Option (List (Nat × List Byte))) : Byte :=
  let j := s.journal
  let n := leAt b 24 4
  let seq := leAt b 8 8
  let prev := slice b 32 48
  let m := if j.appliedAny then j.applied else 0
  let hm := if j.appliedAny then padTo 48 j.appliedChain else zeros 48
  let loss := (byteAt b 6).testBit 2 &&
    (match recs with
      | some ((4, p) :: _) => leAt p 0 8 == m && slice p 8 48 == hm && leAt p 56 8 + 1 == seq
      | _ => false)
  if leAt b 0 4 != 0x52414A31 || leAt b 4 2 != 1 || n % 8 != 0 || n > maxBody || b.length != 112 + n || len != b.length || leAt b 16 4 != j.head.gen then
    St.inputRejected
  else if !loss && seq < j.applied + 1 then St.storeroomStale
  else if (!loss && seq > j.applied + 1) || seq > j.head.n then St.inputRange
  else if !loss && prev != padTo 48 j.appliedChain then St.storeroomStale
  else if !Config.primBool .journalTagOk [s.jk, blockNonce seq j.head.gen, b.take 96, b.drop 96] then St.tagMismatch
  else match recs with
    | none => St.inputRejected
    | some l => if l.all s.payloadOk then St.ok else St.inputRejected

def execRestoreBlock (m : Sender) (params : List Byte) (block : Option (List Byte)) (s : State) : Res :=
  .next (s.journalMessage m 0x44 12 params fun p s =>
    if s.journal.restore != .open_ then deny St.policyDenied s
    else match block with
      | none => deny St.badBuffer s
      | some b =>
        let body := Config.prim .journalOpen [s.jk, blockNonce (leAt b 8 8) s.journal.head.gen, b.take 96, b.drop 96] (leAt b 24 4)
        let recs := bodyRecords (leAt b 20 4) body
        let st := s.blockStatus b (leAt p 8 4) recs
        if st != St.ok then deny st s
        else
          let l := recs.getD []
          let s := s.forAll l fun s r => s.applyRecord (leAt b 8 8) r
          let s := { s with journal := { s.journal with applied := leAt b 8 8, appliedChain := chainOf b, appliedAny := true } }
          (St.ok, leBytes 8 (leAt b 8 8) ++ leBytes 4 l.length, s))

/-- Pinned records keep their pin in ascending handle order while they fit; the others lose it (R185). -/
def State.restorePins (s : State) : State :=
  let l := s.entries.filter (·.pinned)
  (l.foldl (fun (a : Nat × State) r =>
    let used := a.1 + cacheBytes r
    if used ≤ pinCap then (used, a.2)
    else
      (a.1, (a.2.journalRecord { r with pinned := false } false false).log 6 0 0 (leBytes 8 (recHandle r).toNat))) (0, s)).2

/-- Ancestors whose walk had not finished are in the table again (R172). -/
def State.restoreInvalid (s : State) : State :=
  s.forAll (s.entries.filter fun r => r.state != .active) fun s r =>
    let x : Invalid := { coll := r.coll, index := r.index, gen := r.gen, revoked := r.state == .revoked, walked := false, sealSeq := 0 }
    if (s.unmarked x).isEmpty || s.isInvalid r.coll r.index r.gen then s else s.setInvalidated (s.cat.invalidated ++ [x])

/-- No loan survives a reset: the material of a WITHDRAWN entry whose loans were out at the reset is destroyed
(R157, R187; DESIGN CHOICE, log entry 109). -/
def State.restoreWithdrawn (s : State) : State :=
  s.forAll (s.entries.filter fun r => r.state == .withdrawn && !r.destroyed && (s.loansOf r.coll r.index r.gen).isEmpty) fun s r => s.lastReturn r

/-- The end of restore: bindings, pins, and jobs are accepted; the next seal is the head's next; a collection whose deletion was lost has the
policy's binding again (R82, R177). Withdrawn entries whose loans were out at the
reset lose their material here (DESIGN CHOICE, log entry 109). -/
def State.endRestore (s : State) (next : Nat) : State :=
  let s := s.forAll s.journal.bindings fun s p => s.forAll p.2 fun s f => s.modFn f fun x => { x with coll := some p.1 }
  let s := { s with cat := { s.cat with unbound := s.cat.unbound.filter fun x => s.journal.gone.contains x.1 },
                    journal := { s.journal with restore := .restored, lastClosed := next, bindings := [], gone := [] } }
  s.restorePins.restoreInvalid.restoreWithdrawn

def execRestoreEnd (m : Sender) (params : List Byte) (s : State) : Res :=
  .next (s.journalMessage m 0x45 8 params fun _ s =>
    let j := s.journal
    if j.restore != .open_ then deny St.policyDenied s
    else if j.applied != j.head.n then deny St.inputRange s
    else (St.ok, leBytes 8 j.applied, s.endRestore j.head.n))

/-- Active ledger slots whose key is not in the catalogue are closed, to become reclaimable (R273). -/
def State.closeLostSlots (s : State) : State :=
  s.forAll (s.activeSlots.filter fun p => (s.entryOf (handleColl p.2.handle) p.2.handle).isNone) fun s p => s.closeSlot p.1 true

/-- The seal that ACCEPT_LOSS has closed: its block is formed and the head advances to it, before the ring takes it (R186). -/
def State.advanceLoss (s : State) : State :=
  match s.journal.closed.getLast? with
  | none => s
  | some c =>
    let b := s.sealBlock c
    let s := { s with journal := { s.journal with closed := s.journal.closed.dropLast ++ [{ c with block := some b }] } }
    s.putHead { s.journal.head with n := c.seq, hn := chainOf b }

/-- ACCEPT_LOSS: seal n + 1 with the LOSS record first, the head's advance to it, the end of restore, and a checkpoint. -/
def execAcceptLoss (m : Sender) (params : List Byte) (s : State) : Res :=
  .next (s.journalMessage m 0x46 8 params fun p s =>
    let j := s.journal
    let mm := leAt p 0 8
    let last := if j.appliedAny then j.applied else 0
    if j.restore != .open_ then deny St.policyDenied s
    else if mm != last || leAt p 8 8 != j.head.n || leAt p 16 4 != j.head.gen || mm ≥ j.head.n || !allZero (slice p 20 4) then deny St.inputRange s
    else s.withQuorum 0x11 24 p fun s =>
      let n := j.head.n
      let hm := if j.appliedAny then padTo 48 j.appliedChain else zeros 48
      let s := { s with journal := { s.journal with lastClosed := n, openSeal := [.loss mm hm n], openSince := s.now } }
      let s := (s.closeSeal true).advanceLoss
      let s := ((s.endRestore (n + 1)).closeLostSlots).log 6 0 0 (leBytes 6 (mm + 1) ++ leBytes 6 n)
      (St.ok, leBytes 8 (n + 1), s.startCheckpoint))

end Sys2Proof.Machine
end

