-- ==== Sys2Proof/Machine/Boot.lean ====
section
/-! DEFINITION. Images in flash and their acceptance, the resets of the whole device, boot, and the messages of boot, lifecycle and debug
(R69, R398 to R417, R427, R434, R533). -/

namespace Sys2Proof.Machine

def State.setBoot (s : State) (b : Boot) : State := { s with boot := b }

/-! ### Images (R399 to R402) -/

/-- Start and size of an image's slot in flash; `k` is 0 for slot A and 1 for slot B. -/
def imageBase (type k : Nat) : Nat :=
  match type with
  | 0 => 0x00010000 + 0x00400000 * k
  | 1 => 0x00810000 + 0x00800000 * k
  | 2 => 0x01810000 + 0x00400000 * k
  | _ => 0x02010000 + 0x00040000 * k
def imageSize : Nat → Nat
  | 0 => 0x00400000
  | 1 => 0x00800000
  | 2 => 0x00400000
  | _ => 0x00040000

def State.flashRead (s : State) (off n : Nat) : List Byte := Tbl.readBytes 0xFF s.boot.flash off n

/-- The 128-byte manifest of a slot. -/
def State.manifest (s : State) (type k : Nat) : List Byte := s.flashRead (imageBase type k) 128

/-- MEASn of a manifest. -/
def measOf (m : List Byte) : List Byte := Config.prim (.hash 2) [m] 48

/-- Fields of a manifest. -/
def manVersion (m : List Byte) : Word32 := w32 (leAt m 8 4)
def manSvn (m : List Byte) : Nat := leAt m 12 2
def manLength (m : List Byte) : Nat := leAt m 16 4

/-- The length of a vendor image's composite signature: ML-DSA-87, then ECDSA P-384. -/
def vendorSigLen : Nat := 4627 + 96

/-- The length of the signatures of a quorum authorisation. -/
def sigsLen : Nat → List Byte → Nat
  | 0, _ => 0
  | n + 1, b => 4 + leAt b 2 2 + sigsLen n (b.drop (4 + leAt b 2 2))

/-- A policy's authorisation in flash: what follows the manifest, and its length. -/
def State.policyAuth (s : State) (k : Nat) : List Byte :=
  let at_ := imageBase 3 k + 128
  let head := s.flashRead at_ 80
  head ++ s.flashRead (at_ + 80) (sigsLen (min 16 (byteAt head 76)) (s.flashRead (at_ + 80) (imageSize 3 - 208)))

/-- The body of a slot's image. -/
def State.imageBody (s : State) (type k : Nat) : List Byte :=
  let sig := if type = 3 then (s.policyAuth k).length else vendorSigLen
  s.flashRead (imageBase type k + 128 + sig) (manLength (s.manifest type k))

/-- The signature of a slot verifies: a vendor key that is not revoked, or for a policy a quorum of custodians, action 0x07. -/
def State.imageSigOk (s : State) (custodians : List Custodian) (threshold type k : Nat) : Bool :=
  let m := s.manifest type k
  if type = 3 then
    let a := s.policyAuth k
    authSigned custodians threshold 7 m a
  else
    !s.boot.vendorRevoked.toNat.testBit (byteAt m 5) &&
      Config.primBool .vendorSigOk [[byte (byteAt m 5)], m, s.flashRead (imageBase type k + 128) vendorSigLen]

/-- The reason a slot is rejected, 0 where it is accepted: 1 format, 2 signature, 3 stepping, 4 digest, 5 floor (R402, R414). -/
def State.imageReason (s : State) (custodians : List Custodian) (threshold type k : Nat) : Nat :=
  let m := s.manifest type k
  let formed := m.take 4 == [0x52, 0x4D, 0x46, 0x31] && byteAt m 4 == type && byteAt m 5 ≤ (if type = 3 then 0 else 3) && allZero (slice m 6 2) &&
    allZero (slice m 14 2) && allZero (m.drop 72) && manLength m + 128 ≤ imageSize type
  if !formed then 1
  else if !s.imageSigOk custodians threshold type k then 2
  else if !(leAt m 20 4).testBit 3 then 3
  else if slice m 24 48 != Config.prim (.hash 2) [s.imageBody type k] 48 then 4
  else if manSvn m < s.boot.floors.getD type 0 then 5
  else 0

/-- The slot is accepted under R402. -/
def State.imageOk (s : State) (type k : Nat) : Bool := s.imageReason s.boot.custodians s.boot.threshold type k == 0

/-- The valid directory copy of the higher sequence. -/
def State.directory (s : State) : Option DirCopy :=
  match s.boot.dirA, s.boot.dirB with
  | some a, some b => some (if b.seq > a.seq then b else a)
  | some a, none => some a
  | none, b => b

/-- The copy that a directory write goes to: the one with the lower sequence, or one that is not valid. -/
def State.olderIsB (s : State) : Bool :=
  match s.boot.dirA, s.boot.dirB with
  | some a, some b => b.seq ≤ a.seq
  | some _, none => true
  | none, _ => false

/-- The preferred slot of a type; slot A without a directory. -/
def State.preferred (s : State) (type : Nat) : Nat :=
  match s.directory with | some d => b2n (d.slotB.toNat.testBit type) | none => 0

/-- The image of a slot runs as its type: measurement, version and svn. -/
def State.runImage (s : State) (type k : Nat) : State :=
  let m := s.manifest type k
  let b := s.boot
  let slots := BitVec.ofNat 4 (setField (w32 b.slots.toNat) type 1 k).toNat
  let s := s.setBoot { b with meas := setAt b.meas type (measOf m), versions := setAt b.versions type (manVersion m), svns := setAt b.svns type (manSvn m), slots }
  if type = 1 then { s with work := { s.work with banks := setAt s.work.banks s.work.bank { version := manVersion m, meas := measOf m } } } else s

/-- A policy's body takes effect, with the custodians that it enrols, where they and its threshold are as R409 has them, and the region sizes that it
sets (R380). -/
def State.runPolicy (s : State) (k : Nat) : State :=
  let body := s.imageBody 3 k
  let s := s.runImage 3 k
  let l := (Config.policyCustodians body).map fun p => ({ alg := p.1, key := p.2 } : Custodian)
  let enrols := quorumOk l (Config.policyThreshold body)
  let b := { s.boot with policyBody := some body, policyFailed := false }
  let s := s.setBoot (if enrols then { b with custodians := l, threshold := Config.policyThreshold body } else b)
  if s.store.regions = 0 then s else s.sizeRegions

/-- The measurement sets a collection's CBK is wrapped for gain one, where the collection is measurement-bound, has its CBK, and its policy
accepts the set (R174). Earlier wraps stay beside the new one (DESIGN CHOICE, log entry 108). -/
def State.rewrap (s : State) (meas : List (List Byte)) : State :=
  let meas := meas.map (padTo 48)
  let due := s.host.colls.filter fun p =>
    (match p.2 with | some c => c.bindingMode == 0 | none => false) && s.cbkOk p.1 &&
      (match s.boot.policyBody with | some b => Config.policyAccepts b p.1 meas | none => true)
  s.forAll due fun s p =>
    let old := s.cat.wraps.get [] p.1
    match s.cbkWrap p.1 with
    | some x =>
      if old.any (·.meas == meas.flatten) then s
      else { s with cat := { s.cat with wraps := s.cat.wraps.set [] p.1 (old ++ [{ meas := meas.flatten, key := x.key }]) } }
    | none => s

/-! ### Writes to flash (R399, R405, R408) -/

def State.serialBytes (s : State) : List Byte := leBytes 8 s.serial.toNat

/-- A write into a Curator slot discards that slot's wraps. -/
def State.discardWraps (s : State) (k : Nat) : State :=
  let m0 := measOf (s.manifest 0 k)
  let s := s.setBoot (if k = 0 then { s.boot with wrapA := none } else { s.boot with wrapB := none })
  let keep (l : List CbkWrap) : List CbkWrap := l.filter fun x => x.meas.take 48 != m0
  s.forAll s.cat.wraps fun s p => { s with cat := { s.cat with wraps := s.cat.wraps.set [] p.1 (keep p.2) } }

/-- The directory copies are read again after a write that touched one. -/
def State.readDirectory (s : State) (second : Bool) : State :=
  let b := s.flashRead (if second then 0x8000 else 0) 0x8000
  let d := if Config.dirOk b then
      some { seq := Config.dirSeq b, slotB := BitVec.ofNat 4 (((List.range 4).map fun t => b2n (Config.dirSlotB b t) * 2 ^ t).sum) } else none
  s.setBoot (if second then { s.boot with dirB := d } else { s.boot with dirA := d })

/-- Bytes written to flash, with what follows from where they lie. -/
def State.flashWrite (s : State) (off : Nat) (data : List Byte) : State :=
  let touches (base size : Nat) : Bool := off < base + size && base < off + data.length
  let s := if touches (imageBase 0 0) (imageSize 0) then s.discardWraps 0 else s
  let s := if touches (imageBase 0 1) (imageSize 0) then s.discardWraps 1 else s
  let s := s.setBoot { s.boot with flash := Tbl.writeBytes 0xFF s.boot.flash off data }
  let s := if touches 0 0x8000 then s.readDirectory false else s
  if touches 0x8000 0x8000 then s.readDirectory true else s

/-- The end of the flash device (R398). -/
def State.flashTop (s : State) : Nat := s.boot.flashMib * 0x100000

/-! ### The certificate store (R399, R413) -/

/-- The certificate store holds a chain in each half, the vendor's and the owner's: its length in 4 bytes, then its DER (DESIGN CHOICE, log entry 147). -/
def certBase (owner : Bool) : Nat := if owner then 0x02110000 else 0x02090000
def certRoom : Nat := 0x80000 - 4
def State.certChain (s : State) (owner : Bool) : List Byte :=
  let n := leAt (s.flashRead (certBase owner) 4) 0 4
  if n ≤ certRoom then s.flashRead (certBase owner + 4) n else []
def State.putChain (s : State) (owner : Bool) (chain : List Byte) : State := s.flashWrite (certBase owner) (leBytes 4 chain.length ++ chain)

/-- The alias keys and certificates are issued: each certificate carries SPDM measurement blocks 1 to 6 as they stand, and stays as issued (R413).
None is formed in TAMPER_HOLD or in SCRAPPED (R407, R410). -/
def State.issueAlias (s : State) : State :=
  if s.tamper.hold || s.boot.lifecycle == .scrapped then s
  else
    let n := s.boot.aliasIssued + 1
    let blocks := (List.range 6).map fun k => (s.measBlock (k + 1)).getD []
    let cert (slot : Nat) : List Byte :=
      let ins := s.serialBytes :: blocks ++ [leBytes 4 n] ++ (if slot = 1 then [leBytes 32 (s.boot.ssk.getD 0)] else [])
      Config.prim (.aliasCert slot) ins (Config.primNat (.aliasCert slot) ins % 4096)
    s.setBoot { s.boot with aliasIssued := n, aliases := some (cert 0, cert 1) }

/-! ### Unit 9 (R412, R488) -/

/-- The register words of unit 9 as the Curator programs them for a debug level. -/
def unit9Words (level : Nat) : AccessUnit :=
  let w (off mask : Nat) : Word32 := Config.unit9 level off &&& w32 mask
  { slots := (List.range 8).map fun k => w (4 * k) 0x80000007,
    windows := (List.range 8).map fun k =>
      { base := w (0x40 + 32 * k) 0xFFFFF0FF, tgtLo := w (0x44 + 32 * k) 0xFFFFF000, tgtHi := w (0x48 + 32 * k) 0xFFFFFFFF,
        ctrl := w (0x4C + 32 * k) 0x8000FFFF } }

/-- Unit 9 of both wings as programmed for a level: 0 closed, 1 a vendor's, 2 the owner's, 3 open in full, as in MANUFACTURE. -/
def State.openUnit9 (s : State) (level : Nat) : State :=
  let put (s : State) (w : Wing) : State :=
    let u := s.au w 9
    let x := if level = 0 then {} else unit9Words level
    s.setAu w 9 { x with vinfo := u.vinfo, vaddr := u.vaddr, vcount := u.vcount }
  put (put s .west) .east

/-! ### Resets of the device (R69, R85, R406, R533) -/

/-- What a reset keeps of the boot state: fuses, BBRAM, MRAM and flash. -/
def Boot.kept (b : Boot) : Boot :=
  { flashMib := b.flashMib, flashOctal := b.flashOctal, flash := b.flash, dirA := b.dirA, dirB := b.dirB, lifecycle := b.lifecycle, transfers := b.transfers, vendorRevoked := b.vendorRevoked,
    floors := b.floors, ssk := b.ssk, journalGen := b.journalGen, wrapA := b.wrapA, wrapB := b.wrapB, custodians := b.custodians,
    threshold := b.threshold, ownerRoots := b.ownerRoots, slot1 := b.slot1,
    aliasIssued := b.aliasIssued, straps := b.straps, inReset := b.inReset }

/-- What a reset keeps of the tamper state: latches, standing orders, the event ring and what BBRAM records. A reset during a freeze boots into
TAMPER_HOLD (R424), which only clearance ends. -/
def Tamper.kept (t : Tamper) : Tamper :=
  { latch := t.latch, live := t.live, order := t.order, heldOrder := t.heldOrder, spares := t.spares, heldSpares := t.heldSpares,
    vbat := t.vbat, evSeq := t.evSeq, ring := t.ring, ringPos := t.ringPos, armed := t.armed, freezes := t.freezes, hold := t.hold || t.frozen,
    erased := t.erased, trips := t.trips, erasing := t.erasing, sskErased := t.sskErased, tmpOut := t.tmpOut }

/-- What MRAM keeps of the journal: the head of the valid slot with the highest n, the one written last among equals (R180). -/
def Journal.bootHead (j : Journal) : JournalHead :=
  let l := ((List.range 64).filterMap fun k => j.heads.get none ((j.slot + 64 - k) % 64)).filter (·.2)
  match l.map (·.1) with
  | [] => { gen := j.head.gen }
  | h :: r => r.foldl (fun a b => if b.n > a.n then b else a) h
def Journal.kept (j : Journal) : Journal := { head := j.bootHead, slot := j.slot, heads := j.heads }

/-- What MRAM keeps of a ledger slot: the issuers' blocks are retired and the tree cache is lost. -/
def LedgerSlot.kept (x : LedgerSlot) : LedgerSlot :=
  { state := x.state, handle := x.handle, total := x.total, next := x.next, heights := x.heights, selector := x.selector, closedAt := x.closedAt,
    rebuilding := x.state == .active, grantedW := x.grantedW, grantedE := x.grantedE }
def Ledger.kept (l : Ledger) : Ledger :=
  { slots := l.slots.map fun p => (p.1, p.2.kept), copyA := l.copyA, copyB := l.copyB, posA := l.posA, posB := l.posB, newerB := l.newerB, validA := l.validA, validB := l.validB,
    log := l.log, logPos := l.logPos, phase := l.phase, wear := l.wear, checkpoints := l.checkpoints }

/-- The crystal oscillator goes on; the die is clocked from its watch oscillator until a reference is judged stable again (R406, R511). -/
def ClockDie.kept (d : ClockDie) : ClockDie := { xtalStart := d.xtalStart, xtalDelayed := d.xtalDelayed }

/-- The battery domain keeps the real-time clock. -/
def Power.kept (p : Power) (a12 : Bool) : Power :=
  { west := p.west.kept, east := p.east.kept, curator := p.curator.kept, rtcBase := p.rtcBase, rtcAt := p.rtcAt, rtcValid := p.rtcValid, lastSlew := p.lastSlew, watchNs := p.watchNs, cap := if a12 then 0x0000005C else 0x00000078 }

/-- A card slot after a reset: its contacts are inactive, and the presence switch reads as before. -/
def Card.kept (c : Card) : Card := { present := c.present, state := if c.present then .present else .empty }

/-- A port after a device reset: PERST# is a pin, and the link trains again as it had (R42). -/
def PortState.kept (p : PortState) : PortState := { perst := p.perst, linkRate := p.linkRate, linkWidth := p.linkWidth }

/-- The whole device is reset: everything but fuses, BBRAM, MRAM, flash, the battery domain and the pins. -/
def State.deviceReset (s : State) : State :=
  let t : State :=
    { pending := s.pending, now := s.now, freeCtr := s.freeCtr, outbox := s.outbox, a12 := s.a12, serial := s.serial,
      host := { portW := s.host.portW.kept, portE := s.host.portE.kept, smbAddr := s.host.smbAddr },
      work := { curves := s.work.curves, streamKey := s.work.streamKey + 1 }, cat := { wraps := s.cat.wraps, floorsAt := s.cat.floorsAt, unbound := s.cat.unbound },
      journal := s.journal.kept, ledger := s.ledger.kept, boot := s.boot.kept, tamper := s.tamper.kept,
      cont := { recalAt := s.now }, docW := { timerBase := s.now, gpioIn := s.docW.gpioIn }, docE := { timerBase := s.now, gpioIn := s.docE.gpioIn },
      card0 := s.card0.kept, card1 := s.card1.kept, power := s.power.kept s.a12 }
  let held := s.host.fns.flatMap fun p => p.2.heldRecords
  (t.forAll held fun s h => s.log 1 h.record.status 0 (leBytes 4 h.record.tag.toNat ++ leBytes 2 (qselNum h.q))).logGranted

/-- The SSK region is invalid, as it is where there is no SSK (`bbram_sskValid`), and no erase is recorded: the battery supply was lost (R427). -/
def State.batteryLost (s : State) : Bool := s.boot.lifecycle != .manufacture && !s.tamper.sskErased && s.boot.ssk.isNone

/-- Class 6: latched and recorded, and the device is an erased one; the time was lost too (R427, R434, R524). -/
def State.findBatteryLoss (s : State) : State :=
  let s := ((s.latchClass 6).raiseAll Cause.tamper).tamperRecord { cls := 6, detail := 0, value := 0 } 2 0
  let s := { s with power := { s.power with rtcBase := 0, rtcAt := s.now, rtcValid := false, lastSlew := none } }
  { s with tamper := { s.tamper with erased := true, sskErased := true, erasing := true } }

/-- Boot ROM begins: XSPI_RESET#, and the flash in the mode that its SFDP table declares (R398); unit 9 open in MANUFACTURE (R412); a lost SSK is
found (R427); any latch, erase or freeze means TAMPER_HOLD, in which the order is still to be applied (R407, R424, R434). -/
def State.startBoot (s : State) : State :=
  let s := (s.setBoot { s.boot with startedAt := s.now, octal := s.boot.flashOctal }).emit .xspiReset
  let s := if s.boot.lifecycle == .manufacture then s.openUnit9 3 else s
  let s := if s.batteryLost then s.findBatteryLoss else s
  let hold := s.tamper.hold || s.tamper.latch != 0 || s.tamper.erased
  { s with tamper := { s.tamper with hold, orderDue := s.tamper.orderDue || hold } }

def execPwronRstAssert (s : State) : Res :=
  .next (let s := s.deviceReset
    s.setBoot { s.boot with inReset := true })

def execPwronRstRelease (straps : BitVec 6) (s : State) : Res :=
  .next (if !s.boot.inReset then s
    else
      let s := s.setBoot { s.boot with inReset := false, straps }
      let d : ClockDie := { xtalStart := s.now }
      let s := { s with power := { s.power with west := d, east := d, curator := d } }
      ({ s with host := { s.host with smbAddr := 0x70 + straps.toNat / 8 } }).startBoot)

/-- 100 µs after a core rail's under-voltage, whose freeze has happened: a recovered rail latches class 0; otherwise it is power loss: nothing
latches, the device is OFF, and the frozen jobs end without records (R69, R419). -/
def execRailRecoveryExpiry (die : Die) (recovered : Bool) (s : State) : Res :=
  .next (match s.tamper.railDips.find? fun d => d.die == die with
    | none => s
    | some d =>
      if s.boot.inReset || s.now < d.at_ + 100000 then s
      else
        let t := s.tamper
        let s := { s with tamper := { t with railDips := t.railDips.filter (·.die != die) } }
        if recovered then
          let s := ((s.latchClass 0).raiseAll Cause.tamper).addTrip d.held
          { s with tamper := { s.tamper with orderDue := s.tamper.orderDue || d.froze } }
        else
          let s := (if d.froze then { s with tamper := { s.tamper with frozen := false } } else s).deviceReset
          s.setBoot { s.boot with inReset := true })

/-- A device reset that a command orders. -/
def State.orderedReset (s : State) : State := (s.deviceReset).startBoot

/-! ### Boot (R402, R403, R406, R407) -/

/-- The first failing type keeps the reject fields of DEV_BOOT. -/
def State.reject (s : State) (type a b : Nat) : State :=
  let x := s.boot
  if x.rejectA != 0 || x.rejectB != 0 then s else s.setBoot { x with rejectA := a, rejectB := b, rejectType := type }

/-- The slot that is accepted, the preferred one first, and the reject fields. -/
def State.chooseSlot (s : State) (type : Nat) : Option Nat × State :=
  let why (k : Nat) : Nat := s.imageReason s.boot.custodians s.boot.threshold type k
  let p := s.preferred type
  let o := 1 - p
  if why p = 0 then (some p, s)
  else if why o = 0 then (some o, if p = 0 then s.reject type (why 0) 0 else s.reject type 0 (why 1))
  else (none, s.reject type (why 0) (why 1))

def State.bootStage (s : State) (n : Nat) : State := s.setBoot { s.boot with stage := n }

def State.setRunning (s : State) (v : Bool) : State :=
  let s := s.setDoc .west { s.docW with running := v }
  s.setDoc .east { s.docE with running := v }

/-- Every image is in: the first epoch opens and the alias certificates are issued (R413, R469). Boot is complete, stage 5, once a port's
configuration space is ready (R406, R414). -/
def State.endBoot (s : State) : State :=
  let s := { s with work := { s.work with epoch := 1 } }
  (((s.bootStage 4).issueAlias).tryAdmit .west).tryAdmit .east

/-- The Curator firmware's acceptance, which arms BBRAM's copy of the order again (DESIGN CHOICE, log entry 149); neither slot accepted means recovery form. No key is derived in TAMPER_HOLD or in SCRAPPED (R407, R410). -/
def State.bootFirmware (s : State) : State :=
  match s.chooseSlot 0 with
  | (none, s) => s.bootStage 15
  | (some k, s) =>
    let s := (s.runImage 0 k).bootStage 1
    let s := { s with tamper := { s.tamper with armed := s.tamper.order.armedCopy } }
    if s.tamper.hold || s.boot.lifecycle == .scrapped then s else s.unlock

/-- An image that the Curator firmware loads; without an acceptable one no wing is admitted. -/
def State.bootImage (s : State) (type : Nat) : State :=
  match s.chooseSlot type with
  | (none, s) => s.setBoot { s.boot with wingsOut := true }
  | (some k, s) => s.runImage type k

/-- The owner policy: none is installed outside OWNED, and a failing one leaves the device unowned in effect. -/
def State.bootPolicy (s : State) : State :=
  if s.boot.lifecycle != .owned then s
  else match s.chooseSlot 3 with
    | (none, s) => s.setBoot { s.boot with policyFailed := true }
    | (some k, s) => s.runPolicy k

/-- BOOT_IMAGE_ACCEPT: the types in turn, the firmware once link keys are drawn and the ledger is rebuilt; nothing after it in TAMPER_HOLD. -/
def execBootImageAccept (type : Nat) (s : State) : Res :=
  .next (let b := s.boot
    if b.inReset then s
    else if type = 0 then (if b.stage != 0 || !s.cont.linkKeys || !s.ledger.ready then s else s.bootFirmware)
    else if s.tamper.hold || type > 3 || b.stage != type then s
    else if type = 1 then (s.bootImage 1).bootStage 2
    else if type = 2 then
      let s := (s.bootImage 2).bootStage 3
      s.setRunning (!s.boot.wingsOut)
    else s.bootPolicy.endBoot)

/-! ### Messages of identity and authority (R409, R415, R416) -/

/-- A hand-over refuses messages that change the lifecycle, a floor or a slot preference (R411). -/
def State.unlessHandover (s : State) (f : State → Answer) : Answer := if s.handingOver then deny St.handoverPause s else f s

/-- IDENTITY: the public key of DeviceID; blown RDS fuses read as ones. -/
def execIdentity (m : Sender) (params : List Byte) (s : State) : Res :=
  .next (s.message m 0x01 105 params fun _ s =>
    let rds := if s.boot.lifecycle == .scrapped then [[0xFF]] else []
    (St.ok, s.serialBytes ++ [0x04] ++ Config.prim .deviceIdPub (s.serialBytes :: rds) 96, s))

/-- The newest 16 nonces are kept. -/
def addNonce {α : Type} (l : List α) (x : α) : List α := (l ++ [x]).drop (l.length + 1 - 16)

def execNonce (m : Sender) (params : List Byte) (s : State) : Res :=
  .next (s.message m 0x02 20 params fun _ s =>
    let d := s.drawCurator 16
    let s := d.2
    let s := s.setBoot { s.boot with nonces := addNonce s.boot.nonces { value := d.1, at_ := s.now } }
    (St.ok, d.1 ++ leBytes 4 (s.rtcSec + 600), s))

def execNonceExpiry (index : Nat) (s : State) : Res :=
  .next (match s.boot.nonces[index]? with
    | none => s
    | some n => if s.now < n.at_ + nonceNs then s else s.setBoot { s.boot with nonces := s.boot.nonces.eraseIdx index })

/-- QUORUM_SUBMIT: actions 0x10 and 0x12, in effect until not_after and for an hour at most. -/
def execQuorumSubmit (m : Sender) (params : List Byte) (s : State) : Res :=
  .next (s.message m 0x03 0 params fun p s =>
    let n := leAt p 0 4
    let a := p.drop (up8 (4 + n))
    let action := leAt a 6 2
    if !((action = 0x10 && n = 2) || (action = 0x12 && n = 1)) then deny St.inputRange s
    else s.withQuorum action (4 + n) p fun s =>
      let x : Authorisation := { action, param := leAt p 4 n % 1024, until_ := min (leAt a 72 4) (s.rtcSec + 3600) }
      (St.ok, [], s.setBoot { s.boot with auths := s.boot.auths ++ [x] }))

def execQuorumAuthorisationExpiry (index : Nat) (s : State) : Res :=
  .next (match s.boot.auths[index]? with
    | none => s
    | some a => if s.rtcSec ≤ a.until_ then s else s.setBoot { s.boot with auths := s.boot.auths.eraseIdx index })

/-! ### Messages of the lifecycle (R410, R411) -/

/-- A sealing key drawn from the Curator DRBG (R365); while that is stopped its messages end with ENTROPY_UNAVAILABLE (R367; log entry 125). -/
def State.drawSsk (s : State) : State :=
  let d := s.drawFrom .curator 32
  let s := { d.2 with tamper := { d.2.tamper with sskErased := false } }
  s.setBoot { s.boot with ssk := some (leNat d.1) }

/-- A journal that starts again: the catalogue and the collections are empty, and restore has not begun (R173, R181). -/
def State.freshJournal (s : State) : State :=
  let gen := s.boot.journalGen + 1
  let s := (s.emptyCatalogue).setBoot { s.boot with journalGen := gen }
  let fns := s.host.fns.map fun p => p.1
  let s := s.forAll fns fun s k => s.modFn ⟨if k < 128 then .west else .east, k % 128⟩ fun x => { x with coll := none }
  { s with journal := { head := { gen }, heads := [(0, some ({ gen }, true))] }, cat := { s.cat with wraps := [], floorsAt := [], unbound := [] }, host := { s.host with colls := [] } }

/-- The K custodian entries of TAKE_OWNERSHIP, and the bytes they take. -/
def parseCustodians : Nat → List Byte → List Custodian × Nat
  | 0, _ => ([], 0)
  | k + 1, b =>
    let n := leAt b 2 2
    let r := parseCustodians k (b.drop (up8 (4 + n)))
    ({ alg := byteAt b 0, key := slice b 4 n } :: r.1, up8 (4 + n) + r.2)

def execTakeOwnership (m : Sender) (params : List Byte) (s : State) : Res :=
  let csr := Config.primNat .csr [s.serialBytes] % 65536
  .next (s.message m 0x04 (4 + csr) params fun p s => s.unlessHandover fun s =>
    let k := byteAt p 0
    let thr := byteAt p 1
    let slot := byteAt p 2
    let c := leAt p 4 4
    let first := up8 (8 + c)
    let l := parseCustodians k (p.drop first)
    let n := first + l.2
    let a := p.drop (up8 n)
    if s.boot.lifecycle != .provisioned then deny St.policyDenied s
    else if !(2 ≤ k && k ≤ 16 && 2 ≤ thr && thr ≤ k && slot ≤ 1 && byteAt p 3 = 0) || l.1.any (fun x => !(x.alg = 1 || x.alg = 2)) then
      deny St.inputRange s
    else if !s.authValid l.1 thr 0x01 (p.take n) a then deny St.quorumRequired s
    else if s.imageReason l.1 thr 3 slot != 0 then deny St.inputRejected s
    else if !s.drbgOk .curator then deny St.entropyUnavailable s
    else
      let s := ((s.useNonce a).drawSsk).freshJournal
      let s := s.setBoot { s.boot with lifecycle := .owned, custodians := l.1, threshold := thr, ownerRoots := slice p 8 c }
      let s := (s.runPolicy slot).issueAlias
      (St.ok, leBytes 4 csr ++ Config.prim .csr [s.serialBytes, leBytes 32 (s.boot.ssk.getD 0)] csr, s))

/-- CERT_INSTALL: the chain of SPDM slot 1, which the certificate store holds; one that does not fit there is RESOURCE_EXHAUSTED (log entry 147). -/
def execCertInstall (m : Sender) (params : List Byte) (s : State) : Res :=
  .next (s.message m 0x05 0 params fun p s =>
    let chain := slice p 8 (leAt p 4 4)
    if s.boot.lifecycle != .owned then deny St.policyDenied s
    else if byteAt p 0 != 1 || !allZero (slice p 1 3) || p.length < 8 + leAt p 4 4 then deny St.inputRange s
    else if !Config.primBool .certChainOk [s.boot.ownerRoots, chain, s.serialBytes, leBytes 32 (s.boot.ssk.getD 0)] then deny St.inputRejected s
    else if chain.length > certRoom then deny St.resourceExhausted s
    else (St.ok, [], (s.putChain true chain).setBoot { (s.putChain true chain).boot with slot1 := true }))

/-- The default standing orders (R429). -/
def State.defaultOrders (s : State) : State :=
  { s with tamper := { s.tamper.putOrder {} with spares := {}, heldSpares := none } }

/-- An erased device that is decommissioned or scrapped leaves TAMPER_HOLD (R434); a scrapped one derives no key (R410). -/
def State.leaveErased (s : State) : State :=
  if !s.tamper.erased then s
  else
    let s := { s with tamper := { s.tamper with erased := false, erasing := false, hold := false, latch := 0, tmpOut := false, alert := false, trips := [], orderDue := false } }
    if s.boot.lifecycle == .scrapped then s.thaw
    else
      let s := s.thaw.unlock
      { s with cat := { s.cat with deskW := s.cont.admittedW, deskE := s.cont.admittedE } }

/-- DECOMMISSION: SSK destroyed; policy, CBK wraps and ledger wiped; slot 1 emptied. -/
def execDecommission (m : Sender) (params : List Byte) (s : State) : Res :=
  .next (s.message m 0x06 0 params fun p s => s.unlessHandover fun s =>
    if s.boot.lifecycle != .owned then deny St.policyDenied s
    else if p.take 8 != s.serialBytes then deny St.inputRange s
    else s.withQuorum 0x02 8 p fun s =>
      let s := s.freshJournal
      let s := s.setBoot { s.boot with lifecycle := .decommissioned, ssk := none, policyBody := none, policyFailed := false, custodians := [],
                                       threshold := 0, ownerRoots := [], slot1 := false, auths := [], meas := setAt s.boot.meas 3 [] }
      let s := { s with ledger := { cfg := s.ledger.cfg, low := s.ledger.low, wear := s.ledger.wear, ready := s.ledger.ready } }
      let s := { s with tamper := { s.tamper with sskErased := true } }
      (St.ok, [], (s.defaultOrders).leaveErased))

/-- A vendor debug token over a challenge's nonce, the serial and the level (R412, R416). -/
def State.tokenOk (s : State) (level : Nat) (nonce token : List Byte) : Bool :=
  s.boot.challenges.any (fun c => c.1 == level && c.2.value == nonce) &&
    Config.primBool .debugTokenOk [nonce, s.serialBytes, [byte level], token]
def State.useChallenge (s : State) (nonce : List Byte) : State :=
  s.setBoot { s.boot with challenges := s.boot.challenges.filter fun c => c.2.value != nonce }

/-- The fields that TRANSFER, PROVISION and DEBUG_UNLOCK share: nonce, level, zeros, token. -/
def tokenForm (level : Nat) (p : List Byte) : Bool := byteAt p 16 == level && allZero (slice p 17 7)

def execTransfer (m : Sender) (params : List Byte) (s : State) : Res :=
  .next (s.message m 0x07 0 params fun p s => s.unlessHandover fun s =>
    if s.boot.lifecycle != .decommissioned then deny St.policyDenied s
    else if !tokenForm 0x80 p then deny St.inputRange s
    else if s.boot.transfers ≥ 15 then deny St.resourceExhausted s
    else if !s.tokenOk 0x80 (p.take 16) (slice p 24 96) then deny St.accessDenied s
    else if !s.drbgOk .curator then deny St.entropyUnavailable s
    else
      let s := (((s.useChallenge (p.take 16)).drawSsk).freshJournal).defaultOrders
      let s := s.setBoot { s.boot with lifecycle := .provisioned, transfers := s.boot.transfers + 1 }
      (St.ok, [], { s with work := { s.work with curves := [] } }))

/-- SCRAP: no key is ever derived again. -/
def execScrap (m : Sender) (params : List Byte) (s : State) : Res :=
  .next (s.message m 0x08 0 params fun p s => s.unlessHandover fun s =>
    if s.boot.lifecycle == .scrapped then deny St.policyDenied s
    else if p.take 8 != s.serialBytes then deny St.inputRange s
    else s.ownedQuorum 0x03 8 p fun s =>
      (St.ok, [], (s.setBoot { s.boot with lifecycle := .scrapped, aliases := none }).leaveErased))

/-- PROVISION: SSK drawn, the DeviceID certificate written, the test paths closed. -/
def execProvision (m : Sender) (params : List Byte) (s : State) : Res :=
  .next (s.message m 0x0F 0 params fun p s => s.unlessHandover fun s =>
    let n := leAt p 120 4
    if s.boot.lifecycle != .manufacture then deny St.policyDenied s
    else if !tokenForm 0x81 p || p.length < 124 + n then deny St.inputRange s
    else if !s.tokenOk 0x81 (p.take 16) (slice p 24 96) then deny St.accessDenied s
    else if n > certRoom then deny St.resourceExhausted s
    else if !s.drbgOk .curator then deny St.entropyUnavailable s
    else
      let s := (((s.useChallenge (p.take 16)).drawSsk).putChain false (slice p 124 n)).openUnit9 0
      (St.ok, [], s.setBoot { s.boot with lifecycle := .provisioned }))

/-! ### Floors and flash (R404, R405, R408) -/

def execFloorRaise (m : Sender) (params : List Byte) (s : State) : Res :=
  .next (s.message m 0x09 0 params fun p s => s.unlessHandover fun s =>
    let t := byteAt p 0
    let v := leAt p 2 2
    if t > 3 || byteAt p 1 != 0 then deny St.inputRange s
    else if v < s.boot.floors.getD t 0 || v > s.boot.svns.getD t 0 then deny St.policyDenied s
    else s.ownedQuorum 0x04 4 p fun s => (St.ok, [], s.setBoot { s.boot with floors := setAt s.boot.floors t v }))

/-- The image of a slot runs: its type has been accepted at boot, from this slot. -/
def State.slotRuns (s : State) (type k : Nat) : Bool :=
  let b := s.boot
  let loaded := b.stage != 15 && b.stage > type && (type != 3 || b.policyBody.isSome) && !(b.versions.getD type 0 == 0 && (b.meas.getD type []).isEmpty)
  loaded && b2n (b.slots.toNat.testBit type) == k

/-- Ranges that FLASH_WRITE may write: slots not running, the applications, the older directory copy, and the certificate store. -/
def State.writable (s : State) (off : Nat) : Bool :=
  if off < 0x8000 then !s.olderIsB
  else if off < 0x10000 then s.olderIsB
  else if off ≥ 0x02090000 then true
  else
    let slot := (List.range 4).flatMap fun t => [(t, 0), (t, 1)]
    match slot.find? fun x => imageBase x.1 x.2 ≤ off && off < imageBase x.1 x.2 + imageSize x.1 with
    | some x => !s.slotRuns x.1 x.2
    | none => false

def execFlashWrite (m : Sender) (params : List Byte) (s : State) : Res :=
  .next (s.message m 0x0A 0 params fun p s =>
    let off := leAt p 0 4
    let n := leAt p 4 4
    if off % 4096 != 0 || n % 4096 != 0 || !allZero (slice p 8 8) || p.length < 16 + n then deny St.inputRange s
    else if off + n > s.flashTop || !((List.range (n / 4096)).all fun k => s.writable (off + 4096 * k)) then deny St.accessDenied s
    else
      let go (s : State) : Answer := (St.ok, [], s.flashWrite off (slice p 16 n))
      if n != 0 && off < 0x02190000 && 0x02090000 < off + n then s.ownedQuorum 0x07 (16 + n) p go else go s)

/-- The directory prefers a slot: a new copy replaces the older one. -/
def State.preferSlot (s : State) (type k : Nat) : State :=
  let old := s.directory.getD { seq := 0, slotB := 0 }
  let d : DirCopy := { seq := old.seq + 1, slotB := BitVec.ofNat 4 (setField (w32 old.slotB.toNat) type 1 k).toNat }
  let second := s.olderIsB
  let bytes := (List.range 0x8000).map fun i => Config.dirByte d.seq d.slotB.toNat i
  let flash := Tbl.writeBytes 0xFF s.boot.flash (if second then 0x8000 else 0) bytes
  s.setBoot (if second then { s.boot with dirB := some d, flash } else { s.boot with dirA := some d, flash })

/-- SLOT_PREFER; for Curator firmware the image is checked and the wraps for its MEAS0 are written first. -/
def execSlotPrefer (m : Sender) (params : List Byte) (s : State) : Res :=
  .next (s.message m 0x0B 0 params fun p s => s.unlessHandover fun s =>
    let t := byteAt p 0
    let k := byteAt p 1
    if t > 3 || k > 1 then deny St.inputRange s
    else if t != 0 then (St.ok, [], s.preferSlot t k)
    else if !s.imageOk 0 k then deny St.inputRejected s
    else if s.recovery then (St.ok, [], s.preferSlot t k)
    else
      let m0 := measOf (s.manifest 0 k)
      let s := s.wrapMaster k m0
      (St.ok, [], (s.rewrap [m0, s.meas 1, s.meas 2, s.meas 3]).preferSlot t k))

/-! ### Debug (R412, R416, R488) -/

def execDebugChallenge (m : Sender) (params : List Byte) (s : State) : Res :=
  .next (s.message m 0x0C 24 params fun p s =>
    let level := byteAt p 0
    if !(level = 0x01 || level = 0x80 || level = 0x81) then deny St.inputRange s
    else
      let d := s.drawCurator 16
      let s := d.2
      let s := s.setBoot { s.boot with challenges := addNonce s.boot.challenges (level, { value := d.1, at_ := s.now }) }
      (St.ok, d.1 ++ s.serialBytes, s))

/-- Debug at a level, 0 when locked; unit 9 of both wings follows. -/
def State.setDebug (s : State) (level : Nat) : State :=
  (s.setBoot { s.boot with debug := level }).openUnit9 level

def execDebugUnlock (m : Sender) (params : List Byte) (s : State) : Res :=
  .next (s.message m 0x0D 0 params fun p s =>
    let level := byteAt p 16
    let vendor := s.boot.lifecycle == .provisioned || s.boot.lifecycle == .decommissioned
    if !allZero (slice p 17 7) then deny St.inputRange s
    else if level = 1 && vendor then
      if s.tokenOk 1 (p.take 16) (slice p 24 96) then (St.ok, [], (s.useChallenge (p.take 16)).setDebug 1) else deny St.accessDenied s
    else if level = 2 && s.boot.lifecycle == .owned then
      if !allZero (p.take 16) then deny St.inputRange s else s.withQuorum 0x05 24 p fun s => (St.ok, [], s.setDebug 2)
    else if level = 1 || level = 2 then deny St.policyDenied s
    else deny St.inputRange s)

def execDebugLock (m : Sender) (params : List Byte) (s : State) : Res :=
  .next (s.message m 0x0E 0 params fun _ s => (St.ok, [], s.setDebug 0))

end Sys2Proof.Machine
end

