-- ==== Sys2Proof/Machine/HostRegs.lean ====
section
/-! DEFINITION. Host register writes (R8, R47 to R61), fields of access type TX (R464), doorbells (R55 to R57, R91) and interrupts
(R54, R60, R61, R104). -/

namespace Sys2Proof.Machine

/-! ### Fields of access type TX (R102, R283, R306, R350, R375, R397, R464, R476, R525) -/

/-- The writable bits of a TX register at a BAR0 offset; none where the offset holds no TX field. -/
def txMask (off : Nat) : Option Word32 :=
  if 0x1A0800 ≤ off && off < 0x1A0840 then some 0x00000007
  else if 0x1A0880 ≤ off && off < 0x1A08C0 then some 0x00000003
  else if 0x1A0900 ≤ off && off < 0x1A0A00 then some 0x800007FF
  else match off with
  | 0x1A0840 => some 0x00FFFFFF
  | 0x180000 => some 0xFFFF000F
  | 0x180004 => some 0x0000007F
  | 0x160000 => some 0x003F0FFF
  | 0x160020 => some 0x8000001F
  | 0x170004 => some 0x0000FFFF
  | 0x140004 => some 0x00FFFFFF
  | 0x150004 => some 0x0000FF01
  | _ => none

/-- The register belongs to a gallery that the variant lacks: it ignores staged values (R102). -/
def State.txAbsent (s : State) (off : Nat) : Bool :=
  ((0x1A0800 ≤ off && off < 0x1A0840) || (0x1A0880 ≤ off && off < 0x1A08C0)) && !s.present (off % 0x40 / 4)

/-- The CFGTX owner code of a writer (R477); none of a VF. -/
def txCode : TxWriter → Option Nat
  | .host f => if isPf f then some (ownerCode (.pf f.port)) else none
  | .supervisor w => some (ownerCode (.supervisor w))

/-- The writer owns the open transaction. -/
def State.ownsTx (s : State) (by_ : TxWriter) : Bool := s.cfgtx.state = 1 && txCode by_ == some s.cfgtx.owner

/-- The owner's last write, from which idle_s counts (R470). -/
def State.touchTx (s : State) : State := { s with cfgtx := { s.cfgtx with lastWrite := s.now } }

/-- A value staged for a TX register; a later one replaces it. -/
def State.stage (s : State) (off : Nat) (v : Word32) : State :=
  { s with cfgtx := { s.cfgtx with staged := s.cfgtx.staged.set none off (some v) } }

/-- A supervisor may work on the transaction: its wing's Docents run, not frozen, and its messages reach the Curator (R22, R464). -/
def State.supervisorUp (s : State) (w : Wing) : Bool :=
  (s.doc w).running && !(s.doc w).frozen && !s.boot.inReset && !s.halted w && s.hasCurator w

/-- A write to a TX register that has passed the role check. -/
def State.txWrite (s : State) (by_ : TxWriter) (off : Nat) (v : Word32) : State :=
  match txMask off with
  | none => s
  | some m =>
    if !s.ownsTx by_ then
      match by_ with
      | .host f => s.regError f St.configLocked off
      | .supervisor _ => s
    else if s.txAbsent off then s.touchTx
    else (s.stage off (v &&& m)).touchTx

def execTxFieldWrite (by_ : TxWriter) (off : Nat) (v : Word32) (s : State) : Res :=
  .next (match by_ with
    | .host f => if (txMask off).isNone then s else s.mgmtWrite f off fun s => s.txWrite (.host f) off v
    | .supervisor w => if !s.supervisorUp w then s else s.txWrite (.supervisor w) off v)

/-! ### The admin queue's registers (R58, R59) -/

/-- A register of the ADMQ block with a value; offsets with behaviour of their own are not among them. -/
def FnState.setAdmq (x : FnState) (o : Nat) (v : Word32) : FnState :=
  match o with
  | 0x004 => { x with admDepth := v &&& 0x00001FFF }
  | 0x008 => { x with admSqLo := v &&& 0xFFFFF000 }
  | 0x00C => { x with admSqHi := v }
  | 0x010 => { x with admCqLo := v &&& 0xFFFFF000 }
  | 0x014 => { x with admCqHi := v }
  | 0x018 => { x with admVector := v &&& 0x000001FF }
  | _ => x

def State.admqWrite (s : State) (f : Fn) (off : Nat) (v : Word32) : State :=
  let o := off % 0x1000
  if !(4 ≤ o && o ≤ 0x018) then s
  else if (s.fn f).admEnable then s.regError f St.accessDenied off
  else s.modFn f fun x => x.setAdmq o v

/-! ### The Curator mailbox (R415, R485) -/

/-- Message codes that the part defines. -/
def knownCodes : List Nat := (List.range 15).map (· + 1) ++ [0x20, 0x21, 0x22, 0x23, 0x30, 0x31, 0x40, 0x41, 0x42, 0x43, 0x44, 0x45, 0x46]

/-- A parameter register of a mailbox view with a value. -/
def Curmb.setReg (x : Curmb) (o : Nat) (v : Word32) : Curmb :=
  match o with
  | 0x004 => { x with msg := v &&& 0xFFFF00FF }
  | 0x008 => { x with bufLo := v &&& 0xFFFFFFC0 }
  | 0x00C => { x with bufHi := v }
  | 0x010 => { x with bufLen := v &&& 0x000FFFFF }
  | _ => x

/-- go starts a message, which its own row carries out; a code the spec does not define is refused as any other, and otherwise completes with a
status the spec does not state. -/
def State.curmbGo (s : State) (m : Sender) : State :=
  let x := s.mailbox m
  if x.busy then s
  else
    let s := s.setMailbox m { x with busy := true, done := false }
    if knownCodes.contains (bits32 x.msg 0 8) then s
    else match s.messageRefusal m (bits32 x.msg 0 8) with
      | some st => s.replyTo m st 0 []
      | none => let d := s.free
                d.2.replyTo m (byte d.1) 0 []

/-- A write to a mailbox view: go, or a parameter register, which `denied` meets while a message is in flight. -/
def State.curmbWrite (s : State) (m : Sender) (o : Nat) (v : Word32) (denied : State → State) : State :=
  if o = 0 then (if bit32 v 0 then s.curmbGo m else s)
  else if !(4 ≤ o && o ≤ 0x010) then s
  else if (s.mailbox m).busy then denied s
  else s.setMailbox m ((s.mailbox m).setReg o v)

/-! ### CFGTX, EVLOG, TAMPER and CONS registers (R442, R476, R477, R495) -/

/-- A register that only the owner of an open transaction may write. -/
def Cfgtx.setReg (c : Cfgtx) (o : Nat) (v : Word32) : Cfgtx :=
  match o with
  | 0x004 => { c with retire := bit32 v 0 }
  | 0x010 => { c with itemsLo := v }
  | 0x014 => { c with itemsHi := v }
  | 0x018 => { c with itemsLen := v &&& 0x007FFFFF }
  | _ => c

def State.cfgtxWrite (s : State) (f : Fn) (off : Nat) (v : Word32) : State :=
  let o := off % 0x1000
  if o = 0x01C then { s with cfgtx := { s.cfgtx with cfg := v &&& 0x03FF03FF } }
  else if !([0x004, 0x010, 0x014, 0x018].contains o) then s
  else if !s.ownsTx (.host f) then s.regError f St.configLocked off
  else ({ s with cfgtx := s.cfgtx.setReg o v }).touchTx

/-- CONS_UNITSEL: a unit of an absent gallery, or a Curator core, is refused. -/
def State.unitSelWrite (s : State) (f : Fn) (off : Nat) (v : Word32) : State :=
  let u := unitOf (bits32 v 0 18)
  if (u.loc < 16 && !s.present u.loc) || (u.loc == 20 && u.kind == Kind.curator) then s.regError f St.accessDenied off
  else { s with cont := { s.cont with unitSel := v &&& 0x0003FFFF } }

/-- A write to a device block by a PF with the management role. -/
def State.deviceWrite (s : State) (f : Fn) (off : Nat) (v : Word32) : State :=
  match off / 0x1000 with
  | 0x110 => s.cfgtxWrite f off v
  | 0x120 => if off % 0x1000 = 0x004 then { s with evlog := { s.evlog with sel := v } } else s
  | 0x130 => if off % 0x1000 = 0x02C then { s with tamper := { s.tamper with evSel := v } } else s
  | 0x140 => if off % 0x1000 = 0x030 then s.unitSelWrite f off v else s
  | _ => s

/-! ### SK40 pages (R351, R352) -/

def CompatPage.setReg (x : CompatPage) (o : Nat) (v : Word32) : CompatPage :=
  if 0x040 ≤ o && o < 0x050 then { x with iv := setAt x.iv ((o - 0x040) / 4) v }
  else if 0x1000 ≤ o && o < 0x2000 then { x with din := x.din.set 0 ((o - 0x1000) / 4) v }
  else match o with
  | 0x000 => { x with ctrl := v &&& 0x00003FFF }
  | 0x00C => { x with len := v &&& 0x00001FFF }
  | 0x010 => { x with handleLo := v }
  | 0x014 => { x with handleHi := v }
  | _ => x

/-- An offset of a page that holds a read-only register: COMPAT_STATUS or the output window. -/
def compatRo (o : Nat) : Bool := o == 0x008 || (0x2000 ≤ o && o < 0x3000)

def State.compatWrite (s : State) (f : Fn) (off : Nat) (v : Word32) : State :=
  let p := (off - 0x1000000) / 0x10000
  if p ≥ 64 then s
  else if !s.pageReachable f p || (s.page p).busy || compatRo (off % 0x10000) then s.regError f St.accessDenied off
  else s.setPage p ((s.page p).setReg (off % 0x10000) v)

/-! ### BAR0 (R49, R50) -/

/-- The device-scope blocks DEV to GALSTAT, but for CURMB, whose registers any PF may write. -/
def deviceBlock (block : Nat) : Bool := 0x100 ≤ block && block ≤ 0x1A0 && block % 0x10 == 0 && block != 0x190

/-- The read-only registers of a block, by offset (R51, R52, R283, R375, R397, R414, R415, R442, R455, R476, R477, R495, R525). -/
def roRegister (block o : Nat) : Bool :=
  match block with
  | 0x000 => o ≤ 0x010
  | 0x001 => o == 0x000
  | 0x100 => o ≤ 0x02C || (0x100 ≤ o && o < 0x200 && o % 64 < 48)
  | 0x110 => [0x008, 0x00C, 0x020, 0x024, 0x028].contains o
  | 0x120 => o == 0x000 || (0x010 ≤ o && o < 0x030) || (0x100 ≤ o && o < 0x240 && o % 16 != 0)
  | 0x130 => (o ≤ 0x050 && o != 0x02C)
  | 0x140 => [0x000, 0x008, 0x00C, 0x014, 0x018, 0x020, 0x034].contains o
  | 0x150 => [0x000, 0x014, 0x018, 0x01C, 0x020, 0x028, 0x02C, 0x030].contains o
  | 0x160 => [0x004, 0x008, 0x00C, 0x010, 0x01C, 0x024].contains o
  | 0x170 => [0x000, 0x010, 0x014, 0x018, 0x01C, 0x048, 0x04C, 0x050, 0x054, 0x058].contains o
  | 0x180 => o == 0x008 || o == 0x00C || (0x028 ≤ o && o ≤ 0x048)
  | 0x190 => o == 0x014 || o == 0x018
  | 0x1A0 => o < 0x048
  | _ => false

/-- A 32-bit write at an aligned BAR0 offset, to a register without behaviour of its own. A write to a read-only register is dropped and
recorded (R72). -/
def State.bar0Write (s : State) (f : Fn) (off : Nat) (v : Word32) : State :=
  let block := off / 0x1000
  if !s.blockWrites f.port block then s
  else if roRegister block (off % 0x1000) && (isPf f || block ≤ 1) then s.regError f St.accessDenied off
  else if block = 0x020 then s.admqWrite f off v
  else if !isPf f then s
  else if block = 0x190 then s.curmbWrite (.pf f.port) (off % 0x1000) v fun s => s.regError f St.accessDenied off
  else if deviceBlock block then
    if !s.mgmt f then s.regError f St.accessDenied off
    else if (txMask off).isSome then s.txWrite (.host f) off v
    else s.deviceWrite f off v
  else if 0x1000000 ≤ off then s.compatWrite f off v
  else s

/-! ### The MSI-X table (R48, R60, R61) -/

/-- BAR2 takes writes: not in report-only form, in recovery form or in low power (R71, R403, R520). -/
def State.tableWrites (s : State) (w : Wing) : Bool := !s.reportOnly w && !s.recovery && !s.lowPower

/-- A 32-bit write to the MSI-X table: address and data words, or a vector's mask. -/
def State.msixWrite (s : State) (f : Fn) (off : Nat) (v : Word32) : State :=
  if off ≥ 16 * vectorsOf f || !s.tableWrites f.port then s
  else if off % 16 = 12 then
    let n := off / 16
    let rest := (s.fn f).unmasked.filter (· != n)
    (s.modFn f fun x => { x with unmasked := if bit32 v 0 then rest else n :: rest }).sendPending f
  else s.modFn f fun x => { x with msixTable := x.msixTable.set 0 off v }

/-- A write of 4 or 8 aligned bytes, the lower word first; any other completes with Unsupported Request (R50). -/
def State.sizedWrite (s : State) (f : Fn) (off size : Nat) (v : Word64) (w : State → Nat → Word32 → State) : State :=
  if size = 4 && off % 4 = 0 then w s off (v.setWidth 32)
  else if size = 8 && off % 8 = 0 then w (w s off (v.setWidth 32)) (off + 4) ((v >>> 32).setWidth 32)
  else s.emit (.unsupported f)

/-! ### FSTAT (R52, R54) -/

/-- Cause bits cleared; an event that coincides with the clear latches again. -/
def execFstatCauseClear (f : Fn) (v coincident : Word32) (s : State) : Res :=
  .next (s.write f 0x1004 fun s =>
    let s := s.modFn f fun x => { x with cause := x.cause &&& ~~~v }
    s.forAll ((List.range 11).filter fun k => bit32 coincident k) fun s k => s.raiseCause k f)

def execFstatCauseEnWrite (f : Fn) (v : Word32) (s : State) : Res :=
  .next (s.write f 0x1008 fun s =>
    let x := s.fn f
    let v := v &&& causeMask
    let s := s.setFn f { x with causeEn := v }
    if v &&& ~~~x.causeEn &&& x.cause = 0 then s else s.sendMsix f 0)

def execFstatErrRead (f : Fn) (s : State) : Res :=
  .next (s.sideRead f 0x100C (s.fn f).err fun s => s.modFn f fun x => { x with err := 0 })

def execFstatErrAddrRead (f : Fn) (s : State) : Res :=
  .next (s.sideRead f 0x1010 (s.fn f).errAddr fun s => s.modFn f fun x => { x with errAddr := 0 })

def execFstatQerrRead (f : Fn) (s : State) : Res :=
  .next (s.sideRead f 0x1014 (s.fn f).qerr fun s => s.modFn f fun x => { x with qerr := 0, qerrHeld := false })

/-! ### Doorbells (R45, R55 to R57, R90, R91) -/

/-- Free completion slots that an arriving entry's bound can count on: none while an event of condition 2 or 3 is in effect (R106). -/
def State.c0Slots (s : State) (w : Wing) (free : Nat) : Nat := if s.c0Disturbed || s.degraded w then 0 else free

/-- Doorbell arrivals of `n` new entries, of which those within the free completion slots find one. -/
def newArrivals (n free now : Nat) : List (Nat × Nat × Bool) :=
  ([(min n free, now, true), (n - free, now, false)] : List (Nat × Nat × Bool)).filter fun r => r.1 != 0

/-- The new submission tail. -/
def State.setTail (s : State) (f : Fn) (sel : QSel) (index : Nat) : State :=
  let q := s.queue f sel
  let ahead := ringCount q.depth q.sqHead q.sqTail
  let free := s.c0Slots f.port (q.depth - 1 - s.slotsHeld f sel - ahead)
  let was := q.sqHead == q.sqTail
  let s := s.setQueue f sel { q with sqTail := index, arrivals := q.arrivals ++ newArrivals (ringCount q.depth q.sqTail index) free s.now }
  if was then s.fetchHead f sel else s

/-- Why a doorbell write is ignored with a queue error: 2 for an absent queue, 6 for a stopped one, 1 for an index out of range. -/
def State.doorbellReason (s : State) (f : Fn) (sel : QSel) (index : Nat) : Option Nat :=
  let q := s.queue f sel
  if !q.created || (sel != .admin && (s.fn f).coll.isNone) then some 2
  else if q.stopped then some 6
  else if index ≥ q.depth then some 1
  else none

/-- The BAR0 offset of a queue's doorbell. -/
def doorbellOff (sel : QSel) (completion : Bool) : Nat :=
  match sel with
  | .io q => 0x10000 + 16 * q + 8 * b2n completion
  | .admin => 0x20020 + 8 * b2n completion

/-- A doorbell write of a function that accepts doorbells. -/
def State.doorbell (s : State) (f : Fn) (sel : QSel) (completion : Bool) (index : Nat) (k : State → State) : State :=
  let beyond : Bool := match sel with | .io q => decide (q ≥ 512) | .admin => false
  if beyond then s
  else s.write f (doorbellOff sel completion) fun s =>
    if !(s.fn f).ready then s
    else match s.doorbellReason f sel index with
      | some r =>
        let q := s.queue f sel
        let s := if q.created && q.firstErr = 0 then s.setQueue f sel { q with firstErr := r } else s
        s.queueError f sel completion r
      | none => k s

def execSubmissionDoorbell (f : Fn) (q : QSel) (index : BitVec 16) (s : State) : Res :=
  .next (s.doorbell f q false index.toNat fun s => s.setTail f q index.toNat)

/-- A completion head within the records written; past the tail it is ignored with reason 3. A slot freed in the admin ring lets the next
command be read (R83). -/
def execCompletionDoorbell (f : Fn) (q : QSel) (index : BitVec 16) (s : State) : Res :=
  .next (s.doorbell f q true index.toNat fun s =>
    let x := s.queue f q
    if ringCount x.depth x.cqHead index.toNat > ringCount x.depth x.cqHead x.cqTail then
      (s.setQueue f q { x with firstErr := if x.firstErr = 0 then 3 else x.firstErr }).queueError f q true 3
    else
      let s := s.setQueue f q { x with cqHead := index.toNat }
      if q == .admin then s.fetchHead f q else s)

/-! ### Enabling and disabling the admin queue (R58, R59, R84) -/

/-- The admin rings as the registers give them. -/
def FnState.admRings (x : FnState) : Queue :=
  { created := true, depth := x.admDepth.toNat, sqBase := x.admSqLo.toNat + x.admSqHi.toNat * 2 ^ 32,
    cqBase := x.admCqLo.toNat + x.admCqHi.toNat * 2 ^ 32, vector := x.admVector.toNat }

def execAdmqEnable (f : Fn) (s : State) : Res :=
  .next (s.write f 0x20000 fun s =>
    let x := s.fn f
    if !x.ready || x.admEnable then s
    else if x.admDepth.toNat < 2 || x.admDepth.toNat > 4096 then s.regError f St.inputRange 0x20000
    else s.setFn f { x with admEnable := true, admQ := x.admRings })

/-- Commands not begun are discarded; the one in progress goes on, and its record will be discarded. -/
def execAdmqDisable (f : Fn) (s : State) : Res :=
  .next (s.write f 0x20000 fun s =>
    if !(s.fn f).admEnable then s
    else
      let s := s.dropHeld f fun h => h.q == .admin
      s.modFn f fun x => { x with admEnable := false, admQ := {}, admDiscard := x.admCur.isSome })

/-! ### MSI-X and moderation (R61, R104) -/

def execMsixUnmask (f : Fn) (vector : Nat) (s : State) : Res :=
  .next (s.access f fun s =>
    if vector ≥ vectorsOf f || !s.tableWrites f.port || (s.fn f).unmasked.contains vector then s
    else (s.modFn f fun x => { x with unmasked := vector :: x.unmasked }).sendPending f)

def execModerationTimerExpiry (f : Fn) (q : Nat) (s : State) : Res :=
  .next (let x := s.queue f (.io q)
    if !x.created || x.unsignalled = 0 || s.now < x.modStart + 1000 * x.timerUs then s
    else (s.setQueue f (.io q) { x with unsignalled := 0 }).sendMsix f x.vector)

end Sys2Proof.Machine
end

