-- ==== Sys2Proof/Machine/Admin.lean ====
section
/-! DEFINITION. The admin commands (R75 to R92): collections, bindings and queues. -/

namespace Sys2Proof.Machine

/-! ### The frame of a command (R79 to R84) -/

/-- From whom a command is accepted (R80). -/
inductive AdmFrom where
  | identify | mgmt | bound
  deriving DecidableEq, Repr

/-- How a command ends: with a record's status, result and output_length, or later. -/
inductive AdmEnd where
  | record (st : Byte) (result : Word64) (len : Nat) (s : State)
  | later (s : State)

/-- Success without a result, and a failure, which changes no state. -/
def AdmEnd.done (s : State) : AdmEnd := .record St.ok 0 0 s
def AdmEnd.fail (st : Byte) (s : State) : AdmEnd := .record st 0 0 s

/-- Bytes 5 to 7, and the parameter bytes that no field uses, are zero. -/
def entryClean (e : List Byte) (used : List (Nat × Nat)) : Bool :=
  allZero (slice e 5 3) && (List.range 48).all fun k => e.getD (16 + k) 0 == 0 || used.any fun r => r.1 ≤ 16 + k && 16 + k < r.1 + r.2

/-- The record of the command in progress, unless its queue was disabled meanwhile (R84); the next command may begin. -/
def State.admRecord (s : State) (f : Fn) (tag : Word32) (st : Byte) (result : Word64) (len : Nat) : State :=
  let x := s.fn f
  let r : Record := { tag, status := st, outputLength := len, epoch := s.work.epoch, result, elapsedNs := s.now - x.admArrival }
  let s := s.setFn f { x with admCur := none, admDiscard := false }
  (if x.admDiscard then s else s.putRecord f .admin r true true).fetchHead f .admin

/-- What a command of an opcode breaks first of R81's rules above POLICY_DENIED that do not depend on its parameters. -/
def State.admStatus (s : State) (f : Fn) (from_ : AdmFrom) (used : List (Nat × Nat)) (e : List Byte) : Byte :=
  let role : Bool := match from_ with
    | .identify => true
    | .mgmt => s.mgmt f
    | .bound => (s.fn f).coll.isSome
  if !entryClean e used then St.badProgram
  else if !role then St.accessDenied
  else if leAt e 8 8 % 64 != 0 then St.inputRange
  else St.ok

/-- A command of an opcode is barred whatever it names: by the owner policy (R81), or by a freeze, under which the device accepts the identify
kind and DEVICE_RESET (R424, R462). -/
def State.admBarred (s : State) (op : Nat) (from_ : AdmFrom) : Bool :=
  s.devPolicy.forbidAdmin.contains op || (s.tamper.frozen && from_ != .identify && op != 0x86)

/-- The command ends with INPUT_RANGE, whose row of R81 comes before POLICY_DENIED. -/
def AdmEnd.outOfRange : AdmEnd → Bool
  | .record st _ _ _ => st == St.inputRange
  | .later _ => false

/-- The command of an opcode that a function has in progress, carried out by `k` on its entry. Nothing happens while no such command is in
progress. -/
def State.admin (s : State) (f : Fn) (op : Nat) (from_ : AdmFrom) (used : List (Nat × Nat)) (k : List Byte → State → AdmEnd) : State :=
  match (s.fn f).admCur with
  | none => s
  | some e =>
    if byteAt e 4 != op || s.boot.inReset then s
    else
      let tag := w32 (leAt e 0 4)
      let st := s.admStatus f from_ used e
      if st != St.ok then s.admRecord f tag st 0 0
      else if s.admBarred op from_ && !(k e s).outOfRange then s.admRecord f tag St.policyDenied 0 0
      else match k e s with
        | .record st result len s => s.admRecord f tag st result len
        | .later s => s

/-- Bytes written to a command's data buffer. -/
def State.admWrite (s : State) (f : Fn) (e bytes : List Byte) (fails : Bool) : AdmEnd :=
  if leAt e 8 8 = 0 then .fail St.inputRange s
  else if fails || !(s.fn f).bme then .fail St.badBuffer s
  else .record St.ok 0 bytes.length (s.writeHost f.port (leAt e 8 8) bytes)

/-! ### IDENTIFY (R86) -/

/-- The I/O queues a function has created. -/
def FnState.created (x : FnState) : List Nat := (x.queues.filter fun p => p.2.created).map (·.1)

/-- Queues created on the device. -/
def State.queueCount (s : State) : Nat := (s.host.fns.map fun p => p.2.created.length).sum

def State.identifyBytes (s : State) (f : Fn) : List Byte :=
  let x := s.fn f
  let word (v : Word32) : List Byte := leBytes 4 v.toNat
  let attrs := match x.coll.bind s.coll with
    | none => zeros 12
    | some c => leBytes 4 (c.weight + c.bindingMode * 256) ++ leBytes 4 (c.maxInflight + c.c0Max * 65536) ++
        leBytes 4 (s.collInFlight (x.coll.getD 0) false (fun _ => true) + s.collInFlight (x.coll.getD 0) true (fun _ => true) * 65536)
  padTo 4096 (word (s.fidIdent f) ++ word (s.fidCollection f) ++ word (s.fidRole f) ++ word (s.fidLimits f) ++ leBytes 4 s.work.epoch ++
    attrs ++ leBytes 4 s.queueCount ++ leBytes 64 ((x.created.map fun q => 2 ^ q).sum) ++ s.measBlock6)

def execIdentify (f : Fn) (dmaFails : Bool) (s : State) : Res :=
  .next (s.admin f 0x80 .identify [] fun e s => s.admWrite f e (s.identifyBytes f) dmaFails)

/-! ### Collections (R75, R77, R82, R173) -/

/-- Collection number and attributes of a command, in range but for byte 18. -/
def collParams (e : List Byte) : Option (Nat × Nat × Nat × Nat) :=
  let c := leAt e 16 2
  let w := byteAt e 19
  let mi := leAt e 20 2
  let c0 := leAt e 22 2
  if c ≤ 1023 && 1 ≤ w && 1 ≤ mi && mi ≤ 4096 && c0 ≤ 1024 then some (c, w, mi, c0) else none

def collFields : List (Nat × Nat) := [(16, 8)]

/-- The CBK of a new collection: 256 random bits wrapped for the measurements now running, or the floors recorded (R173). The bits are not
drawn while the Curator DRBG is stopped (R367): CREATE_COLLECTION then ends with ENTROPY_UNAVAILABLE (log entry 125). -/
def State.newBinding (s : State) (c mode : Nat) : State :=
  match mode with
  | 0 =>
    let d := s.drawFrom .curator 32
    { d.2 with cat := { d.2.cat with wraps := d.2.cat.wraps.set [] c [{ meas := s.measSet.flatten, key := d.1 }] } }
  | 1 => { s with cat := { s.cat with floorsAt := s.cat.floorsAt.set [] c s.boot.floors } }
  | _ => s

/-- A collection's attributes as they now stand enter the open seal (R176, R179). -/
def State.journalColl (s : State) (c : Nat) : State := s.journalAdd (.collection c (s.coll c) (s.boundFns c) (s.cat.wraps.get [] c) (s.cat.floorsAt.get [] c)) false

def execCreateCollection (f : Fn) (s : State) : Res :=
  .next (s.admin f 0x81 .mgmt collFields fun e s =>
    let mode := byteAt e 18
    match collParams e with
    | none => .fail St.inputRange s
    | some (c, w, mi, c0) =>
      if mode > 2 then .fail St.inputRange s
      else if (s.coll c).isSome then .fail St.policyDenied s
      else if mode = 0 && !s.drbgOk .curator then .fail St.entropyUnavailable s
      else
        let s := s.setColl c (some { bindingMode := mode, weight := w, maxInflight := mi, c0Max := c0 })
        .done ((s.newBinding c mode).journalColl c))

/-- A record that keeps its collection from being deleted (R82). -/
def CatRecord.live (r : CatRecord) : Bool := r.state == EntryState.active || (r.state == EntryState.withdrawn && !r.destroyed)

def execDeleteCollection (f : Fn) (s : State) : Res :=
  .next (s.admin f 0x82 .mgmt [(16, 2)] fun e s =>
    let c := leAt e 16 2
    if c > 1023 then .fail St.inputRange s
    else if (s.coll c).isNone || s.entries.any (fun r => r.coll == c && r.live) || !(s.boundFns c).isEmpty then .fail St.policyDenied s
    else
      let s := s.setColl c none
      let cat := { s.cat with wraps := s.cat.wraps.set [] c [], floorsAt := s.cat.floorsAt.set [] c [], unbound := s.cat.unbound ++ [(c, s.boot.policyBody.getD [])] }
      .done (({ s with cat }).journalColl c))

def execSetCollectionLimits (f : Fn) (s : State) : Res :=
  .next (s.admin f 0x83 .mgmt collFields fun e s =>
    match collParams e with
    | none => .fail St.inputRange s
    | some (c, w, mi, c0) =>
      if byteAt e 18 != 0xFF then .fail St.inputRange s
      else match s.coll c with
        | none => .fail St.policyDenied s
        | some x => .done (((s.setColl c (some { x with weight := w, maxInflight := mi, c0Max := c0 })).journalColl c).markC0.pumpAll))

/-! ### Bindings (R44, R80) -/

/-- The function that bytes 16 and 17 name. -/
def targetFn (e : List Byte) : Option Fn :=
  if byteAt e 16 ≤ 1 && byteAt e 17 ≤ 127 then some ⟨if byteAt e 16 = 0 then .west else .east, byteAt e 17⟩ else none

def execBindFunction (f : Fn) (s : State) : Res :=
  .next (s.admin f 0x84 .mgmt [(16, 4)] fun e s =>
    let c := leAt e 18 2
    match targetFn e with
    | none => .fail St.inputRange s
    | some t =>
      if c > 1023 then .fail St.inputRange s
      else if (s.coll c).isNone || (s.fn t).coll.isSome || !(s.fn t).created.isEmpty then .fail St.policyDenied s
      else .done ((s.modFn t fun x => { x with coll := some c }).journalColl c))

def execUnbindFunction (f : Fn) (s : State) : Res :=
  .next (s.admin f 0x85 .mgmt [(16, 2)] fun e s =>
    match targetFn e with
    | none => .fail St.inputRange s
    | some t =>
      match (s.fn t).coll with
      | none => .fail St.policyDenied s
      | some c =>
        if !(s.fn t).created.isEmpty then .fail St.policyDenied s
        else .done ((s.modFn t fun x => { x with coll := none }).journalColl c))

/-! ### DEVICE_RESET (R85) -/

def execDeviceReset (f : Fn) (s : State) : Res :=
  .next (if s.recovery then (if s.portAnswers f.port && s.mgmt f then s.orderedReset else s)
    else s.admin f 0x86 .mgmt [(16, 8)] fun e s =>
      if w64 (leAt e 16 8) != s.serial then .fail St.inputRange s else .later s.orderedReset)

/-! ### Queues (R87, R88, R91, R92, R104) -/

/-- mod_count and mod_time_us are in range (R88). -/
def moderationOk (count us : Nat) : Bool := us ≤ 1000 && (us != 0 || count ≤ 1)

/-- The queue that CREATE_QUEUE asks for, in range. -/
def newQueue (f : Fn) (e : List Byte) : Option (Nat × Queue) :=
  let q := leAt e 16 2
  let depth := leAt e 20 4
  let sq := leAt e 24 8
  let cq := leAt e 32 8
  let mask := byteAt e 42
  if q ≤ 511 && 2 ≤ depth && depth ≤ 65536 && sq % 4096 == 0 && cq % 4096 == 0 && leAt e 40 2 < vectorsOf f && 1 ≤ mask && mask ≤ 15 &&
      moderationOk (byteAt e 43) (leAt e 44 2) then
    some (q, { created := true, depth, sqBase := sq, cqBase := cq, vector := leAt e 40 2, classMask := mask, modCount := byteAt e 43,
               modTimeUs := leAt e 44 2 })
  else none

def execCreateQueue (f : Fn) (s : State) : Res :=
  .next (s.admin f 0x88 .bound [(16, 2), (20, 26)] fun e s =>
    match newQueue f e with
    | none => .fail St.inputRange s
    | some (q, x) =>
      if (s.queue f (.io q)).created then .fail St.policyDenied s
      else if s.queueCount ≥ 4096 || (s.fn f).created.length ≥ 512 then .fail St.resourceExhausted s
      else .done (s.setQueue f (.io q) x))

/-- The queue is gone; records of it that wait to be written are discarded and counted with the jobs that ended silently (R69, R92). -/
def State.removeQueue (s : State) (f : Fn) (q : Nat) : Nat × State :=
  let src := Src.host f (.io q)
  let n := (s.queue f (.io q)).endedSilently + ((s.fn f).heldRecords.filter fun h => h.q == .io q).length +
    (s.tamper.frozenJobs.filter fun x => x.src == src).length
  (n, (((s.dropFrozen (· == src)).dropHeld f fun h => h.q == .io q).setQueue f (.io q) {}))

/-- Consumption stops; abort mode ends the jobs and deletes the queue, drain mode waits. -/
def execDeleteQueue (f : Fn) (s : State) : Res :=
  .next (s.admin f 0x89 .bound [(16, 3)] fun e s =>
    let q := leAt e 16 2
    let x := s.queue f (.io q)
    if q > 511 || byteAt e 18 > 1 then .fail St.inputRange s
    else if !x.created then .fail St.policyDenied s
    else if x.deleting then .later s
    else
      let s := s.setQueue f (.io q) { x with deleting := true, heldEntry := none, deleteTag := w32 (leAt e 0 4) }
      if byteAt e 18 = 0 then .later s
      else
        let s := s.abortJobs fun _ j => j.src == .host f (.io q)
        let r := s.removeQueue f q
        .record St.ok (w64 r.1) 0 r.2.pumpAll)

/-- The last job of a draining queue has written its record. -/
def execDeleteQueueDrainComplete (f : Fn) (q : Nat) (s : State) : Res :=
  .next (let x := s.queue f (.io q)
    if !x.deleting || s.inFlight (.host f (.io q)) != 0 || s.boot.inReset then s
    else
      let r := s.removeQueue f q
      r.2.admRecord f x.deleteTag St.ok (w64 r.1) 0)

def execSetModeration (f : Fn) (s : State) : Res :=
  .next (s.admin f 0x8A .bound [(16, 3), (20, 2)] fun e s =>
    let q := leAt e 16 2
    let x := s.queue f (.io q)
    if q > 511 || !moderationOk (byteAt e 18) (leAt e 20 2) then .fail St.inputRange s
    else if !x.created then .fail St.policyDenied s
    else .done (s.setQueue f (.io q) { x with modCount := byteAt e 18, modTimeUs := leAt e 20 2 }))

/-- The 64 bytes of GET_QUEUE_STATE (R87). -/
def State.queueStateBytes (s : State) (f : Fn) (q : Nat) : List Byte :=
  let x := s.queue f (.io q)
  if !x.created then padTo 64 (leBytes 2 q)
  else
    padTo 64 (leBytes 2 q ++ [byte (1 + 2 * b2n x.stopped + 4 * b2n x.deleting), byte x.classMask] ++ leBytes 4 x.depth ++
      leBytes 8 x.sqBase ++ leBytes 8 x.cqBase ++ leBytes 2 x.vector ++ [byte x.modCount, 0] ++ leBytes 2 x.modTimeUs ++ zeros 2 ++
      leBytes 2 x.sqTail ++ leBytes 2 x.sqHead ++ leBytes 2 x.cqTail ++ leBytes 2 x.cqHead ++ leBytes 4 (s.queueInFlight f (.io q)) ++
      [byte x.firstErr, byte (b2n x.phase), 0, 0] ++ leBytes 4 x.lastTag.toNat ++ leBytes 4 x.lastEpoch)

def execGetQueueState (f : Fn) (dmaFails : Bool) (s : State) : Res :=
  .next (s.admin f 0x8B .identify [(16, 2)] fun e s =>
    if leAt e 16 2 > 511 then .fail St.inputRange s
    else s.admWrite f e (s.queueStateBytes f (leAt e 16 2)) dmaFails)

end Sys2Proof.Machine
end

