-- ==== Sys2Proof/Machine/Attest.lean ====
section
/-! DEFINITION. The SPDM responder, its measurements and IDE key management (R62, R65 to R68, R413), and the SMBus management path (R73,
R74). The codes of the standards are those of DMTF DSP0274, DSP0236 and of PCIe DOE: PRESUMED, the spec names the messages only. -/

namespace Sys2Proof.Machine

/-! ### Chains and answers -/

def State.spdmOf (s : State) : SpdmVia → Spdm
  | .doe .west => s.host.spdmW
  | .doe .east => s.host.spdmE
  | .mctp => s.host.spdmM
def State.setSpdm (s : State) (via : SpdmVia) (x : Spdm) : State :=
  match via with
  | .doe .west => { s with host := { s.host with spdmW := x } }
  | .doe .east => { s with host := { s.host with spdmE := x } }
  | .mctp => { s with host := { s.host with spdmM := x } }

/-- The alias keys exist: boot has formed them and they were not withheld (R407, R413). -/
def State.aliased (s : State) : Bool := s.boot.aliases.isSome

/-- The certificate chain of a slot, where the slot is present: the chain of the certificate store, then the alias certificate as issued
(R66, R413). -/
def State.chain (s : State) (slot : Nat) : Option (List Byte) :=
  let leaf := s.boot.aliases.getD ([], [])
  match slot with
  | 0 => if (s.certChain false).isEmpty then none else some (s.certChain false ++ leaf.1)
  | 1 => if !s.boot.slot1 || (s.certChain true).isEmpty then none else some (s.certChain true ++ leaf.2)
  | _ => none

/-! Error codes of the ERROR response. -/
namespace SpdmErr
def invalidRequest : Byte := 0x01
def busy : Byte := 0x03
def unexpectedRequest : Byte := 0x04
def unspecified : Byte := 0x05
def unsupportedRequest : Byte := 0x07
def responseTooLarge : Byte := 0x0D
end SpdmErr

def State.spdmError (s : State) (via : SpdmVia) (err : Byte) : State := s.emit (.spdm via 0x7F err [])

/-- Bytes that a DOE data object of 64 KiB leaves for a message's payload, after the object's header and the message's (R65). -/
def doeRoom : Nat := 65536 - 8 - 4

/-- An answer; one that no data object of the DOE mailbox can hold is an error. -/
def State.spdmOk (s : State) (via : SpdmVia) (code : Byte) (payload : List Byte) : State :=
  if via != .mctp && payload.length > doeRoom then s.spdmError via SpdmErr.responseTooLarge else s.emit (.spdm via code 0 payload)

/-- An answer signed with the alias key of a slot. -/
def State.spdmSigned (s : State) (via : SpdmVia) (code : Byte) (slot : Nat) (payload : List Byte) : State :=
  match s.chain slot with
  | none => s.spdmError via SpdmErr.invalidRequest
  | some c =>
    if !s.aliased then s.spdmError via SpdmErr.unspecified
    else s.spdmOk via code (payload ++ Config.prim (.spdmSign slot) [c, payload] 96)

/-- The request comes in the order that SPDM needs: version, capabilities, algorithms first. -/
def Spdm.negotiated (x : Spdm) : Bool := x.version && x.caps && x.algs

/-- An IDE stream is programmed: Secure, for the functions of a range and the address blocks, with a key set from the wing's DRBG, which is
then in use; programming the other set of a Secure stream refreshes its keys (R62). -/
def State.ideProgram (s : State) (w : Wing) (stream first last : Nat) (k1 : Bool) (blocks : List (Nat × Nat)) : State :=
  let d := s.drawFrom (s.poolDrbg w) 32
  let s := d.2
  let p := s.port w
  let x := p.ideStreams.get {} stream
  let x := if k1 then { x with k1 := d.1, useK1 := true, blocks } else { x with k0 := d.1, useK1 := false, blocks }
  let fns := (List.range 128).filter fun v => first ≤ v && v ≤ last
  s.setPort w { p with ideSecure := p.ideSecure.filter (· != stream) ++ [stream],
                       ideAssoc := (p.ideAssoc.filter fun a => a.1 != stream) ++ (fns.map fun v => (stream, v)),
                       ideStreams := p.ideStreams.set {} stream x }

/-- Requests of a secure session, which the DOE mailbox alone carries. -/
def State.spdmSession (s : State) (via : SpdmVia) (req : SpdmReq) : State :=
  let x := s.spdmOf via
  match via with
  | .mctp => s.spdmError via SpdmErr.unsupportedRequest
  | .doe w =>
    match req with
    | .keyExchange slot mutualAuth =>
      if !x.negotiated then s.spdmError via SpdmErr.unexpectedRequest
      else if mutualAuth || (s.chain slot).isNone then s.spdmError via SpdmErr.invalidRequest
      else if !s.aliased then s.spdmError via SpdmErr.unspecified
      else if !s.drbgOk (s.poolDrbg w) then s.spdmError via SpdmErr.busy
      else
        let d := s.drawFrom (s.poolDrbg w) 48
        (d.2.setSpdm via { x with keyed := true, session := false }).spdmSigned via 0x64 slot (Config.prim .spdmKey [d.1] 96)
    | .finish =>
      if !x.keyed then s.spdmError via SpdmErr.unexpectedRequest else (s.setSpdm via { x with session := true }).spdmOk via 0x65 []
    | .heartbeat => if x.session then s.spdmOk via 0x68 [] else s.spdmError via SpdmErr.unexpectedRequest
    | .keyUpdate => if x.session then s.spdmOk via 0x69 [] else s.spdmError via SpdmErr.unexpectedRequest
    | .endSession =>
      if x.session then (s.setSpdm via { x with keyed := false, session := false }).spdmOk via 0x6C [] else s.spdmError via SpdmErr.unexpectedRequest
    | .ideProgram stream first last k1 blocks =>
      if !x.session then s.spdmError via SpdmErr.unexpectedRequest
      else if stream ≥ 16 || last < first || last > 127 || blocks.length > 4 then s.spdmError via SpdmErr.invalidRequest
      else if !s.drbgOk (s.poolDrbg w) then s.spdmError via SpdmErr.busy
      else (s.ideProgram w stream first last k1 blocks).spdmOk via 0x7E []
    | .ideStop stream =>
      if !x.session then s.spdmError via SpdmErr.unexpectedRequest
      else if !(s.port w).ideSecure.contains stream then s.spdmError via SpdmErr.invalidRequest
      else ((s.streamFail w stream).pumpAll).spdmOk via 0x7E []
    | _ => s.spdmError via SpdmErr.unsupportedRequest

/-- The algorithms offered, and no other: ECDSA on NIST P-384 and SHA-384, then the tables of DHE secp384r1 and AES-256-GCM (R65). -/
def offeredAlgs : List Byte := leBytes 4 0x80 ++ leBytes 4 2 ++ [0x02, 0x20] ++ leBytes 2 0x10 ++ [0x03, 0x20] ++ leBytes 2 2

/-- An SPDM request answered. -/
def State.spdm (s : State) (via : SpdmVia) (req : SpdmReq) : State :=
  let x := s.spdmOf via
  match req with
  | .getVersion => (s.setSpdm via { version := true }).spdmOk via 0x04 [0x10, 0x11, 0x12]
  | .getCapabilities =>
    if !x.version then s.spdmError via SpdmErr.unexpectedRequest
    else
      let flags := if via == .mctp then 0x16 else 0x62D6
      (s.setSpdm via { x with caps := true, algs := false }).spdmOk via 0x61 (leBytes 4 flags)
  | .negotiateAlgorithms =>
    if !x.caps then s.spdmError via SpdmErr.unexpectedRequest else (s.setSpdm via { x with algs := true }).spdmOk via 0x63 offeredAlgs
  | .getDigests =>
    if !x.negotiated then s.spdmError via SpdmErr.unexpectedRequest
    else
      let l := [0, 1].filter fun k => (s.chain k).isSome
      s.spdmOk via 0x01 ([byte (l.map (2 ^ ·)).sum] ++ l.flatMap fun k => Config.prim (.hash 2) [(s.chain k).getD []] 48)
  | .getCertificate slot =>
    if !x.negotiated then s.spdmError via SpdmErr.unexpectedRequest
    else match s.chain slot with
      | none => s.spdmError via SpdmErr.invalidRequest
      | some c => s.spdmOk via 0x02 ([byte slot] ++ c)
  | .challenge slot =>
    if !x.negotiated then s.spdmError via SpdmErr.unexpectedRequest
    else
      let all := (List.range 6).flatMap fun k => (s.measBlock (k + 1)).getD []
      s.spdmSigned via 0x03 slot ([byte slot] ++ Config.prim (.hash 2) [all] 48)
  | .discovery => match via with
    | .doe _ => s.spdmOk via 0x00 [0x00, 0x01, 0x02]
    | .mctp => s.spdmError via SpdmErr.unsupportedRequest
  | .pskExchange | .getEncapsulatedRequest | .other _ => s.spdmError via SpdmErr.unsupportedRequest
  | r => s.spdmSession via r

/-- The DOE mailbox of a port answers: its configuration space is ready. -/
def State.doeUp (s : State) (w : Wing) : Bool := (s.port w).cfgReady && !s.boot.inReset && !s.lowPower

def execDoeSpdmRequest (w : Wing) (req : SpdmReq) (s : State) : Res := .next (if s.doeUp w then s.spdm (.doe w) req else s)

/-- GET_MEASUREMENTS: the number of blocks for index 0, every block for 0xFF; signed with the alias key of a slot where the request asks
for it (R65); Busy across a hand-over window. -/
def State.measurements (s : State) (via : SpdmVia) (index : Nat) (sign : Option Nat) : State :=
  let block (i : Nat) : List Byte := match s.measBlock i with | some b => [byte i] ++ b | none => []
  let answer (b : List Byte) : State := match sign with | some slot => s.spdmSigned via 0x60 slot b | none => s.spdmOk via 0x60 b
  if index = 0 then answer [6]
  else if index = 0xFF then answer ((List.range 6).flatMap fun k => block (k + 1))
  else if (s.measBlock index).isNone then s.spdmError via SpdmErr.invalidRequest
  else answer (block index)

def execGetMeasurements (via : SpdmVia) (index : Nat) (ask : MeasAsk) (s : State) : Res :=
  .next (
    let up := match via with | .doe w => s.doeUp w | .mctp => !s.boot.inReset
    if !up then s
    else if ask.spansHandover then s.spdmError via SpdmErr.busy
    else if !(s.spdmOf via).negotiated then s.spdmError via SpdmErr.unexpectedRequest
    else s.measurements via index ask.sign)

/-! ### MCTP over SMBus (R74) -/

def endpointIdx : Endpoint → Nat
  | .curator => 0
  | .wing .west => 1
  | .wing .east => 2

def State.mctp (s : State) (ep : Endpoint) (ok : Bool) (payload : List Byte) : State := s.emit (.mctp ep ok payload)

/-- MCTP control: the endpoint identifier set and read, the version and the message types supported. -/
def execMctpControl (ep : Endpoint) (msg : List Byte) (s : State) : Res :=
  .next (
    let k := endpointIdx ep
    if s.boot.inReset then s
    else match byteAt msg 1 with
      | 0x01 =>
        let eid := byteAt msg 3
        if eid = 0 || eid = 0xFF then s.mctp ep true [0x02]
        else ({ s with host := { s.host with eids := setAt s.host.eids k (byte eid) } }).mctp ep true [0x00, 0x00, byte eid, 0x00]
      | 0x02 => s.mctp ep true [0x00, s.host.eids.getD k 0, 0x00, 0x00]
      | 0x04 => s.mctp ep true [0x00, 0x01, 0xF1, 0xF3, 0xF1, 0x00]
      | 0x05 => s.mctp ep true (if k = 0 then [0x00, 0x03, 0x00, 0x05, 0x7E] else [0x00, 0x02, 0x00, 0x7E])
      | _ => s.mctp ep true [0x05])

/-- SPDM at the Curator endpoint; the wing endpoints do not take it. -/
def execMctpSpdm (ep : Endpoint) (req : SpdmReq) (s : State) : Res :=
  .next (if s.boot.inReset then s
    else match ep with
      | .curator => s.spdm .mctp req
      | .wing _ => s.mctp ep false [])

/-- What a read of FSTAT clears (R52). -/
def State.fstatReadClear (s : State) (f : Fn) (off : Nat) : State :=
  match off with
  | 0x00C => s.modFn f fun x => { x with err := 0 }
  | 0x010 => s.modFn f fun x => { x with errAddr := 0 }
  | 0x014 => s.modFn f fun x => { x with qerr := 0, qerrHeld := false }
  | _ => s

/-- A register read of DEV, FSTAT, EVLOG or GALSTAT; any other block is not answered. -/
def execMctpRegisterRead (ep : Endpoint) (f : Fn) (off : Nat) (s : State) : Res :=
  .next (
    let o := off % 0x1000
    let v : Option Word32 := match off / 0x1000 with
      | 0x001 => if fnOk f then some (s.readFstat f o) else none
      | 0x100 => some (s.readDev o)
      | 0x120 => some (s.readEvlog o)
      | 0x1A0 => some (s.readGalstat o)
      | _ => none
    if s.boot.inReset then s
    else match v with
      | none => s.mctp ep false []
      | some x => if off / 0x1000 = 1 then (s.mctp ep true (leBytes 4 x.toNat)).fstatReadClear f o else s.mctp ep true (leBytes 4 x.toNat))

/-- Device reset over SMBus: the Curator endpoint, with the device-reset right. -/
def execMctpDeviceReset (ep : Endpoint) (s : State) : Res :=
  .next (if s.boot.inReset then s
    else match ep with
      | .curator => if s.devPolicy.smbReset then s.orderedReset else s.mctp ep false []
      | .wing _ => s.mctp ep false [])

end Sys2Proof.Machine
end

