-- ==== Sys2Proof/Machine/Placement.lean ====
section
/-! DEFINITION. Dispatch (R25 stages 2 to 4, R34, R76, R90, R93, R94, R100 to R103, R106 to R112): submission entries, arbitration,
placement and the start of a program. -/

namespace Sys2Proof.Machine

/-! ### Submission entries (R93) -/

structure Entry where
  tag : Word32
  type : Nat
  cls : Nat
  irq : Bool
  ordered : Bool
  localWing : Bool
  reserved : Nat
  program : Nat
  /-- bytes 8 to 15: address bits [63:6] and param_len -/
  param : Nat
  body : List Byte
  deriving DecidableEq, Repr

def parseEntry (b : List Byte) : Entry :=
  let c := byteAt b 5
  { tag := w32 (leAt b 0 4), type := byteAt b 4, cls := c % 4, irq := c.testBit 2, ordered := c.testBit 3, localWing := c.testBit 4,
    reserved := c / 32, program := leAt b 6 2, param := leAt b 8 8, body := padTo 48 (slice b 16 48) }

/-- The six 64-bit words of the body. -/
def Entry.words (e : Entry) : List Word64 := (List.range 6).map fun k => w64 (leAt e.body (8 * k) 8)

def Entry.barrier (e : Entry) : Bool := e.type == 3
def Entry.library (e : Entry) : Bool := e.type == 2

/-- The parameter block's length; 0 where the address field, bits [63:6], is zero. -/
def Entry.paramLen (e : Entry) : Nat := if e.param / 64 = 0 then 0 else (e.param % 64 + 1) * 64

/-- R94's second row: type, count and reserved bits. -/
def Entry.formOk (e : Entry) : Bool :=
  e.reserved == 0 && (match e.type with
    | 1 => 1 ≤ e.program && e.program ≤ 6 && allZero (e.body.drop (8 * e.program))
    | 2 => e.program < 1024
    | 3 => e.program == 0 && allZero e.body
    | _ => false)

/-! ### Queue heads that the dispatcher sees -/

structure Head where
  src : Src
  coll : Nat
  classMask : Nat
  bytes : List Byte
  arrival : Nat
  /-- a completion slot was free when it arrived -/
  slotFree : Bool
  /-- place in the round robin of queues -/
  key : Nat
  /-- jobs of the queue in flight -/
  flight : Nat
  /-- a completion slot is free -/
  room : Bool
  unbound : Bool
  barrierAt : Option Nat
  deriving DecidableEq, Repr

def Head.entry (h : Head) : Entry := parseEntry h.bytes
def Head.cls (h : Head) : Nat := h.entry.cls

/-- The arrival of the entry at a queue's head. -/
def headArrival (q : Queue) (now : Nat) : Nat × Bool := match q.arrivals with | r :: _ => (r.2.1, r.2.2) | [] => (now, true)

/-- The arrivals once that entry is consumed. -/
def popArrival : List (Nat × Nat × Bool) → List (Nat × Nat × Bool)
  | [] => []
  | (n, t, b) :: r => if n ≤ 1 then r else (n - 1, t, b) :: r

def mkHead (src : Src) (coll mask key : Nat) (bytes : List Byte) (q : Queue) (depth flight now : Nat) : Head :=
  let a := headArrival q now
  { src, coll, classMask := mask, bytes, arrival := a.1, slotFree := a.2, key, flight,
    room := ringCount depth q.cqHead q.cqTail + flight < depth - 1, unbound := q.unbound, barrierAt := q.barrierAt }

/-- The fetched entries of a wing's host queues. -/
def State.hostHeads (s : State) (w : Wing) : List Head :=
  (s.knownFns w).flatMap fun f =>
    let x := s.fn f
    match x.coll with
    | none => []
    | some c =>
      if !x.bme || (s.coll c).isNone then []
      else x.queues.filterMap fun p => match p.2.heldEntry with
        | none => none
        | some e =>
          if !p.2.created || p.2.stopped || p.2.deleting then none
          else some (mkHead (.host f (.io p.1)) c p.2.classMask (512 * f.vf + p.1) e p.2 p.2.depth (s.queueInFlight f (.io p.1)) s.now)

/-- The entries at the heads of a wing's internal queues, read through their cores' access units (R481). -/
def State.docHeads (s : State) (w : Wing) : List Head × State :=
  (s.doc w).queues.foldl (fun r p =>
    let core := p.1 / 16
    let q := p.1 % 16
    let d := p.2
    if !d.on || d.q.sqHead = d.q.sqTail || (s.coll d.coll).isNone then r
    else match s.auCheck w core .read (d.sqAddr + 64 * d.q.sqHead) 64 false with
      | .error _ => r
      | .ok t =>
        if !s.targetOpen w t then r else
        let b := r.2.docMemRead w t 64
        let h := mkHead (.docent w core q) d.coll d.classMask (0x20000 + p.1) b.1 d.q d.depth (s.inFlight (.docent w core q)) s.now
        (r.1 ++ [h], b.2)) ([], s)

/-! ### Checks and placement -/

/-- The programs in a wing's store (R109). -/
def State.progs (s : State) : Wing → Tbl (List Word64)
  | .west => s.work.progsW
  | .east => s.work.progsE

/-- The status with which an entry is rejected (R94). -/
def State.entryReject (s : State) (w : Wing) (h : Head) : Option Byte :=
  let e := h.entry
  if s.orphan w then some St.splitOrphan
  else if !e.formOk then some St.badProgram
  else if e.library && ((s.progs w).get [] e.program).isEmpty then some St.badProgram
  else if !h.classMask.testBit e.cls || (e.cls == 0 && (match s.coll h.coll with | some c => c.c0Max == 0 | none => true)) then some St.policyDenied
  else none

/-- The program's instructions as the entry names them. -/
def State.entryProgram (s : State) (w : Wing) (e : Entry) : List Word64 :=
  if e.library then (s.progs w).get [] e.program else e.words.take e.program

/-- What the functions of a program need of a gallery. -/
def State.needs (s : State) (p : List Word64) : List FnSpec :=
  p.filterMap fun i => if insOpcode i == 0x40 then s.execSpec (execFields i) 0 else none

/-- A gallery can run a function for a job of wing `w`: every unit in service, and the keyed capability it demands. -/
def State.canRun (s : State) (w : Wing) (g : Nat) (x : FnSpec) : Bool :=
  (x.units.all fun u => if u.1 = Kind.bigNumber then s.classicalUp g else s.inService w g u) &&
  (match x.keyed with | some k => s.keyed g k | none => true)

/-- Jobs of a gallery that hold a context. -/
def State.contextsHeld (s : State) (g : Nat) : List (Nat × Job) := s.jobList.filter fun p => p.2.gallery == g && !p.2.parked

/-- A job context of the class can be had: C0 within its reservation, since what it lends is reclaimed; another class while one of the 256
is free and no job waits for its context back (R34, R101). -/
def State.contextFree (s : State) (g : Nat) (c0 : Bool) : Bool :=
  let l := s.contextsHeld g
  if c0 then (l.filter fun p => p.2.cls == 0).length < 16 * s.c0share g
  else l.length < 256 && !s.jobList.any fun p => p.2.gallery == g && p.2.parked

/-- A context that C0 had lent is reclaimed where all 256 are held: the job of the lowest class that was placed last waits, suspended in
its units, for another (R34, log entry 79). -/
def State.reclaim (s : State) (g : Nat) : State :=
  let l := (s.contextsHeld g).filter fun p => p.2.cls != 0
  let last := l.foldl (fun b p => match b with
    | none => some p
    | some x => if p.2.cls > x.2.cls || (p.2.cls == x.2.cls && p.1 > x.1) then some p else some x) (none : Option (Nat × Job))
  match last with
  | some p =>
    if (s.contextsHeld g).length < 256 then s
    else (s.forAll (s.work.grants.filter fun g => g.job == p.1 && g.running) fun s g => s.suspendGrant g).putJob p.1 { p.2 with parked := true }
  | none => s

/-- The galleries that a job with these functions may be placed on: of its own wing, or of the other when none qualifies and the job may cross
(R25, R27, R101); those with the keyed capability where a function prefers it (R234). -/
def State.placesFor (s : State) (w : Wing) (e : Entry) (needs : List FnSpec) : List Nat :=
  let fit (g : Nat) : Bool := s.galleryUp g && s.contextFree g (e.cls == 0) && needs.all (s.canRun w g)
  let near := (s.wingGalleries w).filter fit
  let o := otherWing w
  let cross := !e.localWing && s.cont.wingLink.up && s.admitted o && !s.orphan o && !s.halted o
  let l := if near.isEmpty && cross then (s.wingGalleries o).filter fit else near
  let pref := l.filter fun g => needs.all fun x => match x.prefers with | some k => s.keyed g k | none => true
  if pref.isEmpty then l else pref

def State.places (s : State) (w : Wing) (e : Entry) : List Nat := s.placesFor w e (s.needs (s.entryProgram w e))

/-- The ordered rule: nothing of the queue is in flight (R103). -/
def Head.inOrder (h : Head) : Bool := !(h.entry.ordered || h.entry.barrier) || h.flight == 0

/-- The collection's limit for the entry's class is not reached; a C0 entry of a collection whose limit is 0 is rejected instead (R94). -/
def State.limitOk (s : State) (w : Wing) (h : Head) : Bool :=
  s.collRoom h.coll (h.cls == 0) w || (h.cls == 0 && (match s.coll h.coll with | some c => c.c0Max == 0 | none => true))

/-- Jobs in flight in the whole part, and its contexts: 256 for each gallery that the variant has (R78). -/
def State.deviceInFlight (s : State) : Nat := s.jobList.length + s.unwritten true (fun _ _ => true) + s.unwritten false fun _ _ => true
def State.contexts (s : State) : Nat := 256 * s.galleries.length

/-- The entry can be consumed now (R76, R78, R90, R103, R467): one that starts no job asks for a completion slot, a context and its collection's
limit like any other, and for no function. -/
def State.consumable (s : State) (w : Wing) (h : Head) : Bool :=
  h.room && h.inOrder && s.limitOk w h && s.deviceInFlight < s.contexts &&
    (if (s.entryReject w h).isSome || h.entry.barrier then !(s.placesFor w h.entry []).isEmpty
     else !s.entryHeld h.bytes && !(s.places w h.entry).isEmpty)

/-! ### Consumption -/

/-- The queue's state after its head is consumed; a job's number is kept, with the epoch that its start will latch again (R87). -/
def Queue.pop (q : Queue) (depth now : Nat) (job : Option (Nat × Nat)) (barrier : Bool) : Queue :=
  { q with sqHead := (q.sqHead + 1) % max 1 depth, heldEntry := none, arrivals := popArrival q.arrivals, unbound := false,
           lastJob := (job.getD (q.lastJob, 0)).1, lastEpoch := (job.getD (0, q.lastEpoch)).2, barrierAt := if barrier then some now else q.barrierAt }

def State.popHead (s : State) (h : Head) (job : Bool) : State :=
  let e := h.entry
  let epoch := if job then some (s.work.nextJob - 1, s.work.epoch) else none
  match h.src with
  | .host f sel =>
    let q := s.queue f sel
    (s.setQueue f sel (q.pop q.depth s.now epoch e.barrier)).fetchHead f sel
  | .docent w c q =>
    let d := s.docQueue w c q
    s.setDocQueue w c q { d with q := d.q.pop d.depth s.now epoch e.barrier }

/-- A C0 job breaks condition 2, 3, 4, 5 or 8 as it is consumed (R106, R107). -/
def State.c0Breaks (s : State) (w : Wing) (h : Head) : Bool :=
  let n := s.c0InFlight fun _ => true
  let behind : Bool := match h.barrierAt with | some t => decide (h.arrival ≤ t) | none => false
  s.degraded w || s.c0Disturbed || h.unbound || n + 1 > s.c0Contexts || h.classMask != 1 || h.entry.ordered || behind || !h.slotFree

/-- A record for an entry that starts no job: a rejection, or a BARRIER's OK. -/
def State.entryRecord (s : State) (h : Head) (st : Byte) : State :=
  let e := h.entry
  s.deliver h.src { tag := e.tag, status := st, epoch := s.work.epoch, elapsedNs := s.now - h.arrival } e.irq (e.cls == 0)

/-- A queue of a Docent core is the supervisor's: no application enabled it. -/
def State.superQueue (s : State) : Src → Bool
  | .host _ _ => false
  | .docent w c q => !bit32 (s.docQueue w c q).ctrl 1

/-- The job that an entry becomes on a gallery. -/
def Head.job (h : Head) (w : Wing) (g epoch : Nat) (flags : BitVec 16) : Job :=
  let e := h.entry
  { src := h.src, coll := h.coll, tag := e.tag, cls := e.cls, irq := e.irq, wing := w, gallery := g, c0Ctx := e.cls == 0, epoch,
    arrival := h.arrival, progNo := if e.library then some e.program else none, prog := if e.library then [] else e.words.take e.program,
    paramAddr := e.param / 64 * 64, paramLen := e.paramLen, flags,
    v := if e.library then e.words ++ List.replicate 10 0 else List.replicate 16 0 }

/-- The job placed on one of the galleries that qualify; which one the spec leaves open. A parameter block that no
Secure stream may carry ends it (R63). -/
def State.place (s : State) (w : Wing) (h : Head) : State :=
  let l := s.places w h.entry
  let d := s.free
  let g := l.getD (d.1 % max 1 l.length) 0
  let flags : BitVec 16 := if h.cls == 0 && s.c0Breaks w h then Rf.c0Unbound else 0
  let n := s.work.nextJob
  let s := (if h.cls == 0 then d.2.reclaim g else d.2).putJob n { h.job w g s.work.epoch flags with supervisor := s.superQueue h.src }
  let s := ({ s with work := { s.work with nextJob := n + 1 } }).setIdle (galleryWing g) false
  if h.entry.paramLen = 0 then s
  else if s.dmaOk (h.job w g s.work.epoch flags) then s.readHost w (h.entry.param / 64 * 64) h.entry.paramLen (.paramBlock n)
  else s.endJob n St.accessDenied

/-- The entry is consumed: rejected, ended at once as a BARRIER, or placed. -/
def State.consume (s : State) (w : Wing) (h : Head) : State :=
  match s.entryReject w h with
  | some st => (s.popHead h false).entryRecord h st
  | none => if h.entry.barrier then (s.popHead h false).entryRecord h St.ok else ((s.place w h).popHead h true).markC0

/-! ### Arbitration (R100) -/

/-- C0 heads that their limit blocks, and heads that a drain holds, will not be bound (R106 condition 4, R468). -/
def State.markHeads (s : State) (w : Wing) (l : List Head) : State :=
  s.forAll (l.filter fun h => s.entryHeld h.bytes || (h.cls == 0 && !s.collRoom h.coll true w)) fun s h =>
    match h.src with
    | .host f sel => s.setQueue f sel { s.queue f sel with unbound := true }
    | .docent w c q => let d := s.docQueue w c q; s.setDocQueue w c q { d with q := { d.q with unbound := true } }

/-- The class served by weighted fair share among those with a consumable entry, and the credits after. -/
def fairClass (weights : Word32) (credit : List Nat) (has : Nat → Bool) : Nat × List Nat :=
  let w (c : Nat) : Nat := bits32 weights (8 * (c - 1)) 8
  let cr (c : Nat) : Nat := if has c then credit.getD (c - 1) 0 + w c else 0
  let best := [1, 2, 3].foldl (fun b c => if has c && (b = 0 || cr c > cr b) then c else b) 0
  let total := ([1, 2, 3].map fun c => if has c then w c else 0).sum
  (best, [1, 2, 3].map fun c => if c = best then cr c - total else cr c)

/-- The next number after `last` in a round robin. -/
def nextAfter (l : List Nat) (last : Nat) : Nat :=
  match (sortBy (fun a b => decide (a < b)) l).find? (· > last) with
  | some x => x
  | none => l.foldl min (l.headD 0)

/-- The collection served by deficit round robin in a class, and the state with its deficit. -/
def State.pickColl (s : State) (w : Wing) (cls : Nat) (colls : List Nat) : Nat × State :=
  let d := s.disp w
  let k := 4 * wingIdx w + cls
  let left (c : Nat) : Nat := match s.coll c with | some x => x.deficit.getD k 0 | none => 0
  let last := d.lastColl.getD cls 0
  let stay := colls.contains last && left last > 0
  let c := if stay then last else nextAfter colls last
  let s := s.setDisp w { d with lastColl := setAt d.lastColl cls c }
  match s.coll c with
  | none => (c, s)
  | some x => (c, s.setColl c (some { x with deficit := setAt x.deficit k (if stay then left c - 1 else x.weight - 1) }))

/-- The queue of a collection that the round robin serves in a class, and its entry consumed. -/
def State.serveQueue (s : State) (w : Wing) (cls coll : Nat) (l : List Head) : State :=
  let d := s.disp w
  let k := nextAfter (l.map (·.key)) (d.lastQueue.get 0 (4 * coll + cls))
  match l.find? fun h => h.key == k with
  | none => s
  | some h => (s.setDisp w { d with lastQueue := d.lastQueue.set 0 (4 * coll + cls) k }).consume w h

/-- A class is served: a collection, then a queue of it. -/
def State.serveClass (s : State) (w : Wing) (cls : Nat) (l : List Head) : State :=
  let l := l.filter fun h => h.cls == cls
  let p := s.pickColl w cls (l.map (·.coll)).eraseDups
  p.2.serveQueue w cls p.1 (l.filter fun h => h.coll == p.1)

/-- One dispatch slot over the consumable entries: C0 first, else the fair share among the other classes. -/
def State.dispatchSlot (s : State) (w : Wing) (l : List Head) : State :=
  let d := s.disp w
  let s := s.setDisp w { d with slot := (d.slot + 1) % 16 }
  if l.any fun h => h.cls == 0 then s.serveClass w 0 l
  else
    let l := l.filter fun h => d.slot < s.share h.cls
    if l.isEmpty then s
    else
      let c := fairClass s.work.weights d.credit fun c => l.any fun h => h.cls == c
      (s.setDisp w { s.disp w with credit := c.2 }).serveClass w c.1 l

/-- The wing's dispatcher consumes entries: neither frozen, held, in low power or draining for it, nor in watch mode (R424, R515, R520); an
orphan's consumes them to reject them. -/
def State.dispatchOn (s : State) (w : Wing) : Bool :=
  !s.boot.inReset && !s.stopped && !s.lowPower && s.power.draining.isNone && !s.reportOnly w && !s.recovery && !s.watchMode &&
    (s.admitted w || s.orphan w)

/-- What the dispatcher sees: the heads of a wing's queues that can be consumed, and the state with those that a limit or a drain holds
marked. -/
def State.seen (s : State) (w : Wing) : List Head × State :=
  let dh := s.docHeads w
  let heads := s.hostHeads w ++ dh.1
  let s := dh.2.markHeads w heads
  (heads.filter (s.consumable w), s)

/-- One dispatch decision. -/
def State.dispatch (s : State) (w : Wing) : State :=
  if !s.dispatchOn w then s
  else
    let p := s.seen w
    if p.1.isEmpty then p.2 else p.2.dispatchSlot w p.1

def execDispatchDecision (w : Wing) (s : State) : Res := .next (s.dispatch w)

/-! ### Fetched entries (R79, R90) -/

/-- The opcodes of R80. -/
def adminOpcodes : List Nat := [0x80, 0x81, 0x82, 0x83, 0x84, 0x85, 0x86, 0x88, 0x89, 0x8A, 0x8B]

/-- An admin entry begins; an unknown opcode ends at once with BAD_PROGRAM. One fetched while the completion ring is full is not begun and
stays at the head, which a completion doorbell asks for again: the spec does not say (DESIGN CHOICE, log entry 102). -/
def State.beginAdmin (s : State) (f : Fn) (entry : List Byte) : State :=
  let q := s.queue f .admin
  if s.slotsHeld f .admin ≥ q.depth - 1 then s
  else
    let a := headArrival q s.now
    let s := s.setQueue f .admin (q.pop q.depth s.now none false)
    let s := s.modFn f fun x => { x with admCur := some entry, admArrival := a.1 }
    if adminOpcodes.contains (byteAt entry 4) then s else s.admRecord f (w32 (leAt entry 0 4)) St.badProgram 0 0

/-- An entry fetched: an admin command begins; an entry of an I/O queue is held for arbitration, and consumed where no other waits. -/
def execEntryFetchComplete (f : Fn) (q : QSel) (entry : List Byte) (s : State) : Res :=
  .next (let x := s.queue f q
    if entry.length != 64 || !fnOk f || !x.created || x.stopped || x.deleting || x.heldEntry.isSome || x.sqHead == x.sqTail || !(s.fn f).bme ||
      s.boot.inReset || s.lowPower then s
    else match q with
      | .admin => if (s.fn f).admCur.isSome then s else s.beginAdmin f entry
      | .io _ =>
        let s := s.setQueue f q { x with heldEntry := some entry }
        if (s.hostHeads f.port).length = 1 then s.dispatch f.port else s)

/-! ### Program start (R25 stage 4, R110, R112, R116, R146) -/

/-- The context as the sequencer sets it for a program: the library program from the gallery's own store, the parameter block's copy, the
epoch and the microcode bank. -/
def State.startContext (s : State) (j : Job) (block : List Byte) : Job :=
  let prog := match j.progNo with
    | some n => (s.progs (galleryWing j.gallery)).get [] n
    | none => j.prog
  { j with prog, params := block, epoch := s.work.epoch, bank := s.work.bank }

/-- The epoch that a job latched shows as its queue's where no later job of the queue has been consumed (R87). -/
def Queue.latch (q : Queue) (n epoch : Nat) : Queue := if q.lastJob = n then { q with lastEpoch := epoch } else q
def State.latchEpoch (s : State) (n : Nat) (src : Src) : State :=
  match src with
  | .host f sel => s.setQueue f sel ((s.queue f sel).latch n s.work.epoch)
  | .docent w c q => let d := s.docQueue w c q; s.setDocQueue w c q { d with q := d.q.latch n s.work.epoch }

/-- An uncorrectable fetch error in a library slot of a wing's store: the slot is reloaded from the other wing's copy (R109). -/
def State.reloadSlot (s : State) (w : Wing) (n : Nat) : State :=
  match w with
  | .west => { s with work := { s.work with progsW := s.work.progsW.set [] n (s.work.progsE.get [] n) } }
  | .east => { s with work := { s.work with progsE := s.work.progsE.set [] n (s.work.progsW.get [] n) } }

/-- The program starts. A fetch of a library program that met an uncorrectable error ends the job (R109). A context that does not fit gallery
memory ends the job before the static checks: the spec orders the two nowhere (DESIGN CHOICE, log entry 80). -/
def execProgramStart (job : Nat) (fetch : ProgramFetch) (s : State) : Res :=
  .next (match s.job job with
    | none => s
    | some j =>
      if j.phase != .placed || j.parked || fetch.block.length != j.paramLen || s.tamper.frozen || !s.wingRuns (galleryWing j.gallery) then s
      else
        let j := s.startContext j fetch.block
        let s := (s.latchEpoch job j.src).putJob job j
        if fetch.fails && j.progNo.isSome then
          (s.reloadSlot (galleryWing j.gallery) (j.progNo.getD 0)).endJob job St.faultDetected
        else if !s.memoryFits job j then s.endJob job St.resourceExhausted
        else if j.prog.isEmpty then s.endJob job St.badProgram
        else match s.staticFailure j.prog with
          | some (k, reason) => (s.putJob job { j with pc := k }).badProgram job reason
          | none => s.atBoundary job j 0)

end Sys2Proof.Machine
end

