-- ==== Sys2Proof/Machine/Change.lean ====
section
/-! DEFINITION. Configuration transactions (R464 to R472, R477) and the Curator firmware hand-over (R473 to R475). -/

namespace Sys2Proof.Machine

/-! ### Begin, abort, idle (R464, R470, R477) -/

/-- A write of CFGTX_CTRL that `k` carries out: a PF needs the management role, a supervisor a running cluster. -/
def State.txControl (s : State) (by_ : TxWriter) (k : State → State) : State :=
  match by_ with
  | .host f => s.mgmtWrite f 0x110000 k
  | .supervisor w => if !s.supervisorUp w then s else k s

/-- The write is ignored, and a host function's FSTAT_ERR records CONFIG_LOCKED. -/
def State.txLocked (s : State) (by_ : TxWriter) : State :=
  match by_ with
  | .host f => s.regError f St.configLocked 0x110000
  | .supervisor _ => s

def execCfgtxBegin (by_ : TxWriter) (s : State) : Res :=
  .next (s.txControl by_ fun s =>
    match txCode by_ with
    | none => s
    | some c =>
      if s.cfgtx.state != 0 then s.txLocked by_
      else { s with cfgtx := { s.cfgtx with state := 1, owner := c, staged := [], items := [], lastWrite := s.now } })

/-- The transaction ends without effect; nothing is held any more. -/
def State.abortTx (s : State) : State := (s.endTransaction s.cfgtx.result).pumpAll

def execCfgtxAbort (by_ : TxWriter) (s : State) : Res :=
  .next (s.txControl by_ fun s => if s.cfgtx.state = 0 || txCode by_ != some s.cfgtx.owner then s.txLocked by_ else s.abortTx)

/-- CFGTX_CFG's times in nanoseconds. -/
def Cfgtx.drainNs (c : Cfgtx) : Nat := bits32 c.cfg 0 10 * 1000000
def Cfgtx.idleNs (c : Cfgtx) : Nat := bits32 c.cfg 16 10 * 1000000000

def execCfgtxIdleExpiry (s : State) : Res :=
  .next (if s.cfgtx.state != 1 || s.now < s.cfgtx.lastWrite + s.cfgtx.idleNs then s else s.abortTx)

/-! ### The item list (R465) -/

/-- An item as it stands in the list: its type and payload. -/
structure RawItem where
  type : Nat
  payload : List Byte
  deriving DecidableEq, Repr

/-- The items of a list, at most `n`; none where a header breaks R465, with the index of the failing item. -/
def rawItems : Nat → Nat → List Byte → Except Nat (List RawItem)
  | _, _, [] => .ok []
  | 0, k, _ => .error k
  | n + 1, k, l =>
    let len := leAt l 4 4
    if l.length < 8 + len || !allZero (slice l 1 3) then .error k
    else match rawItems n (k + 1) (l.drop (8 + len)) with
      | .ok r => .ok ({ type := byteAt l 0, payload := slice l 8 len } :: r)
      | .error j => .error j

/-- A well-formed item; the authorisation that follows a policy activation is kept apart. -/
def parseItem (x : RawItem) : Option CfgItem :=
  let p := x.payload
  match x.type with
  | 1 =>
    let n := leAt p 2 2
    if p.length = 8 + 8 * n && 1 ≤ n && n ≤ 256 && leAt p 0 2 < 1024 && allZero (slice p 4 4) then
      some (.programSet (leAt p 0 2) ((List.range n).map fun k => w64 (leAt p (8 + 8 * k) 8)))
    else none
  | 2 => if p.length = 8 && leAt p 0 2 < 1024 && allZero (p.drop 2) then some (.programRemove (leAt p 0 2)) else none
  | 3 => if p.length > 8 && isLoadable (byteAt p 0) && allZero (slice p 1 7) then some (.curveSet (byteAt p 0) (p.drop 8)) else none
  | 4 => if p.length = 8 && isLoadable (byteAt p 0) && allZero (p.drop 1) then some (.curveRemove (byteAt p 0)) else none
  | 5 =>
    if p.length ≥ 8 && 1 ≤ byteAt p 0 && byteAt p 0 ≤ 3 && byteAt p 1 ≤ 1 && allZero (slice p 2 6) && (byteAt p 0 == 3 || p.length == 8) then
      some (.imageActivate (byteAt p 0) (byteAt p 1))
    else none
  | _ => none

/-! ### Validation (R373, R466) -/

/-- A failed check: the result, and CFGTX_FAILAT. -/
abbrev TxFail := Byte × Word32

def itemAt (k : Nat) : Word32 := w32 (k + 2 ^ 31)

/-- The first failing item of a list under a check. -/
def firstItem {α : Type} (l : List α) (check : α → Byte) : Option TxFail :=
  (l.zipIdx.find? fun p => check p.1 != St.ok).map fun p => (check p.1, itemAt p.2)

/-- A staged value within its register's stated range. -/
def State.stagedOk (s : State) (off : Nat) (v : Word32) : Bool :=
  let f := bits32 v
  let within (lo hi x : Nat) : Bool := lo ≤ x && x ≤ hi
  if 0x1A0800 ≤ off && off < 0x1A0840 then within 1 4 (f 0 3)
  else if 0x1A0880 ≤ off && off < 0x1A08C0 then f 0 2 ≤ 2
  else if 0x1A0900 ≤ off && off < 0x1A0A00 then true
  else match off with
  | 0x1A0840 => within 1 255 (f 0 8) && within 1 255 (f 8 8) && within 1 255 (f 16 8)
  | 0x180000 => within 4 12 (f 0 4) && within 1 10000 (f 16 16)
  | 0x180004 => within 1 50 (f 0 7)
  | 0x160000 => within 1 1000 (f 0 12) && within 20 (if s.a12 then 28 else 36) (f 16 6)
  | 0x160020 => f 0 5 ≤ 17
  | 0x170004 => within 1 168 (f 0 8) && within 1 15 (f 8 4) && within 1 15 (f 12 4)
  | 0x140004 => within 1 255 (f 0 8) && within 1 255 (f 8 8)
  | 0x150004 => within 1 255 (f 8 8)
  | _ => true

/-- The staged registers with their values, in the order of their offsets. -/
def Cfgtx.values (c : Cfgtx) : List (Nat × Word32) := c.staged.filterMap fun p => p.2.map fun v => (p.1, v)

/-- Check 4: the list's registers, every item's form, the staged values, CFGTX_CFG. -/
def State.check4 (s : State) (items : List Byte) : Except TxFail (List (RawItem × CfgItem)) :=
  let c := s.cfgtx
  if c.itemsLen.toNat > 4194304 then .error (St.inputRange, 0x110018)
  else if c.itemsLo.toNat % 64 != 0 then .error (St.inputRange, 0x110010)
  else match rawItems 1024 0 items with
    | .error k => .error (St.inputRange, itemAt k)
    | .ok l =>
      let parsed := l.filterMap fun x => (parseItem x).map fun i => (x, i)
      match firstItem l fun x => if (parseItem x).isSome then St.ok else St.inputRange with
      | some e => .error e
      | none =>
        match c.values.find? fun p => !s.stagedOk p.1 p.2 with
        | some p => .error (St.inputRange, w32 p.1)
        | none =>
          let drain := bits32 c.cfg 0 10
          let idle := bits32 c.cfg 16 10
          if drain = 0 || drain > 1000 || idle = 0 || idle > 1000 then .error (St.inputRange, 0x11001C) else .ok parsed

/-- Check 5 for one item. -/
def State.check5 (s : State) (i : CfgItem) : Byte :=
  match i with
  | .programSet _ p => if (s.staticFailure p).isNone then St.ok else St.badProgram
  | _ => St.ok

/-- A program number is present in the store. -/
def State.hasProgram (s : State) (n : Nat) : Bool := !(s.work.progsW.get [] n).isEmpty || !(s.work.progsE.get [] n).isEmpty

/-- Check 6 for one item. -/
def State.check6 (s : State) (i : CfgItem) (bases : List Byte × List Byte) : Byte :=
  match i with
  | .curveSet sel b =>
    if (s.curveCheck b bases.1 bases.2).isSome then St.curveParamsRejected
    else if s.work.curves.get {} (sel - 0x80) != ({} : CurveSlot) then St.policyDenied
    else St.ok
  | .programRemove n => if s.hasProgram n then St.ok else St.policyDenied
  | .curveRemove sel => if (s.curve (sel - 0x80)).isEmpty then St.policyDenied else St.ok
  | _ => St.ok

/-- The region sizes of a policy's body fit every wing that has a channel in service; a policy that sets none fits (R380). -/
def State.policyFits (s : State) (body : List Byte) : Bool :=
  match (Config.devPolicy body).regions with
  | none => true
  | some r => [Wing.west, .east].all fun w => (s.wingChannels w).isEmpty || s.regionsFit w r

/-- Check 7 for one item: the image, and for a policy its region sizes, and the authorisation of action 0x07 after the item's eight parameter
bytes. -/
def State.check7 (s : State) (x : RawItem × CfgItem) : Byte :=
  match x.2 with
  | .imageActivate t k =>
    if !s.imageOk t k || (t = 3 && !s.policyFits (s.imageBody 3 k)) then St.inputRejected
    else if t = 3 && !s.authValid s.boot.custodians s.boot.threshold 0x07 (x.1.payload.take 8) (x.1.payload.drop 8) then St.quorumRequired
    else St.ok
  | _ => St.ok

/-- The state with a group under raw-sample test, whose sources then count for no pool (R373). -/
def State.withGroup (s : State) (g : Nat) : State := { s with entropy := { s.entropy with rawTest := w32 (g + 2 ^ 31) } }

/-- A commit of ENTROPY_RAWTEST.enable: the lifecycle, the authorisation in effect, and what the pools would keep (R373). -/
def State.rawStatus (s : State) : Byte :=
  match s.cfgtx.staged.get none 0x160020 with
  | none => St.ok
  | some v =>
    let g := bits32 v 0 5
    let t := s.withGroup g
    let short := [Pool.wing .west, .wing .east, .curator].any fun p => (rawGroup g).any (s.feeds · p) && t.healthyCount p < poolMin p
    let auth := s.boot.auths.any fun a => a.action == 0x12 && a.param == g && s.rtcSec ≤ a.until_
    if !bit32 v 31 then St.ok
    else match s.boot.lifecycle with
      | .decommissioned | .scrapped => St.policyDenied
      | .manufacture => if short then St.policyDenied else St.ok
      | _ => if !auth then St.quorumRequired else if short then St.policyDenied else St.ok

/-- The item at a place of the list sets the curve of a slot that an earlier item has set: a slot is written once (R316). -/
def repeatsCurve (l : List (RawItem × CfgItem)) (k : Nat) : Bool :=
  match l[k]? with
  | some (_, .curveSet sel _) => (l.take k).any fun y => match y.2 with | .curveSet sel' _ => sel' == sel | _ => false
  | _ => false

/-- The bases that the checks of a list's curves draw, by item (R315). -/
def State.drawBases (s : State) (items : List Byte) : List (List Byte × List Byte) × State :=
  match s.check4 items with
  | .error _ => ([], s)
  | .ok l => l.foldl (fun r x => match x.2 with
      | .curveSet _ b =>
        let d2 := r.2.drawCurator (basesLen b)
        let d6 := d2.2.drawCurator (basesLen b)
        (r.1 ++ [(d2.1, d6.1)], d6.2)
      | _ => (r.1 ++ [([], [])], r.2)) ([], s)

/-- Checks 4 to 7 in order, over the list's bytes: the first failure, or the items. -/
def State.validate (s : State) (items : List Byte) (bases : List (List Byte × List Byte)) : Except TxFail (List (RawItem × CfgItem)) :=
  match s.check4 items with
  | .error e => .error e
  | .ok l =>
    match firstItem l fun x => s.check5 x.2 with
    | some e => .error e
    | none => match firstItem l.zipIdx fun x => if repeatsCurve l x.2 then St.policyDenied else s.check6 x.1.2 (bases.getD x.2 ([], [])) with
      | some e => .error e
      | none => match firstItem l s.check7 with
        | some e => .error e
        | none => if s.rawStatus == St.ok then .ok l else .error (s.rawStatus, 0x160020)

/-! ### Commit (R466 to R468) -/

/-- A commit has failed: the result and CFGTX_FAILAT; the transaction returns to idle, or stays open where a hand-over is the reason. -/
def State.failCommit (s : State) (st : Byte) (at_ : Word32) : State :=
  let s := { s with cfgtx := { s.cfgtx with result := st, failAt := at_, state := if st == St.handoverPause then 1 else 0, items := [],
                                            toLoad := [], drained := false,
                                            staged := if st == St.handoverPause then s.cfgtx.staged else [] } }
  s.log 8 st 0 (leBytes 4 at_.toNat)

/-- The failing program's record in the event log: program number, instruction index, opcode and reason (R146). -/
def State.logProgram (s : State) (l : List CfgItem) : State :=
  match l.findSome? fun i => match i with
    | .programSet n p => (s.staticFailure p).map fun f => (n, f.1, insOpcode (p.getD f.1 0), f.2)
    | _ => none with
  | some (n, k, op, r) => s.log 8 St.badProgram 0 (leBytes 2 n ++ leBytes 2 k ++ [byte op, byte r])
  | none => s

/-- The big-number engines whose inactive bank a microcode activation loads, spares included (R307). -/
def State.bankUnits (s : State) : List Nat := s.galleries.flatMap fun g => ((unitsOf g Kind.bigNumber).filter fun u => (s.unit u).svc != .fenced).map unitCode

/-- Jobs and page operations of the drain set end with EPOCH_RETIRED at their next boundary (R468). -/
def State.retireDrain (s : State) : State :=
  let s := s.forAll s.drainJobs fun s n => s.endAtBoundary n St.epochRetired
  s.forAll s.drainPages fun s p => s.endPage p St.epochRetired

/-- Heads that the drain now holds are marked: a C0 job of one is not bound (R468). -/
def State.markDrained (s : State) : State :=
  s.forAll ([Wing.west, .east].flatMap s.knownFns) fun s f =>
    s.modFn f fun x => { x with queues := x.queues.map fun p =>
      (p.1, match p.2.heldEntry with | some e => if s.entryHeld e then { p.2 with unbound := true } else p.2 | none => p.2) }

/-- The drain begins. -/
def State.beginDrain (s : State) (l : List (RawItem × CfgItem)) : State :=
  let items := l.map (·.2)
  let s := { s with cfgtx := { s.cfgtx with state := 2, items, commitAt := s.runNs, drained := false, toLoad := [] } }
  let s := s.forAll l fun s x => match x.2 with | .imageActivate 3 _ => s.useNonce (x.1.payload.drop 8) | _ => s
  let s := s.markDrained
  if s.cfgtx.retire then s.retireDrain.pumpAll else s

/-- The list as read at commit; a transaction without one has an empty list. -/
def Cfgtx.listBytes (c : Cfgtx) (items : Option (List Byte)) : Option (List Byte) :=
  if c.itemsLen = 0 then some [] else items.map (padTo c.itemsLen.toNat)

def execCfgtxCommit (by_ : TxWriter) (items : Option (List Byte)) (s : State) : Res :=
  .next (s.txControl by_ fun s =>
    if !s.ownsTx by_ then s.txLocked by_
    else if s.stopped then s.failCommit St.policyDenied 0
    else if s.handingOver then s.failCommit St.handoverPause 0
    else match s.cfgtx.listBytes items with
      | none => s.failCommit St.badBuffer 0
      | some b =>
        let d := s.drawBases b
        let s := d.2
        match s.validate b d.1 with
        | .error e => ((if e.1 == St.badProgram then s.logProgram (match s.check4 b with | .ok l => l.map (·.2) | .error _ => []) else s).failCommit
            e.1 e.2).pumpAll
        | .ok l => s.beginDrain l)

/-- The drain set is empty. -/
def State.drainEmpty (s : State) : Bool := s.drainJobs.isEmpty && s.drainPages.isEmpty

def execCfgtxDrainTimeout (s : State) : Res :=
  .next (let c := s.cfgtx
    if c.state != 2 || c.retire || c.drained || s.drainEmpty || s.runNs < c.commitAt + c.drainNs then s
    else (s.failCommit St.epochBusy 0).pumpAll)

/-! ### The switch (R307, R350, R374, R469, R472) -/

/-- Raw-sample test as committed: an earlier group returns to start-up, a new one leaves its pools (R373, R374). -/
def State.applyRawTest (s : State) (v : Word32) : State :=
  let s := if bit32 s.entropy.rawTest 31 then s.endRawTest else s
  { s with entropy := { s.entropy with rawTest := v, rawFifo := [], rawBits := [], rawOverflow := false } }

/-- A gallery's slot length as committed; its engines are then repartitioned. -/
def State.applySlot (s : State) (g n : Nat) : State :=
  let s := { s with work := { s.work with bnslot := s.work.bnslot.set 1 g n } }
  if (s.gal g).slotLen = n then s.setGal g { s.gal g with repartition := none }
  else s.setGal g { s.gal g with repartition := some n }

/-- A page's owner as committed; a change clears its key, IV and windows. -/
def State.applyOwner (s : State) (p : Nat) (v : Word32) : State :=
  let old := s.pageOwner p
  let s := { s with work := { s.work with compatOwn := s.work.compatOwn.set 0 p v } }
  if old = v then s else s.setPage p (s.page p).clear

/-- A staged value takes effect. -/
def State.applyStaged (s : State) (off : Nat) (v : Word32) : State :=
  if 0x1A0800 ≤ off && off < 0x1A0840 then
    { s with work := { s.work with c0share := s.work.c0share.set 2 ((off - 0x1A0800) / 4) v.toNat } }
  else if 0x1A0880 ≤ off && off < 0x1A08C0 then s.applySlot ((off - 0x1A0880) / 4) v.toNat
  else if 0x1A0900 ≤ off && off < 0x1A0A00 then s.applyOwner ((off - 0x1A0900) / 4) v
  else match off with
  | 0x1A0840 => { s with work := { s.work with weights := v } }
  | 0x180000 => { s with ledger := { s.ledger with cfg := v } }
  | 0x180004 => { s with ledger := { s.ledger with low := v } }
  | 0x160000 => { s with entropy := { s.entropy with cfg := v } }
  | 0x160020 => s.applyRawTest v
  | 0x170004 => { s with store := { s.store with cfg := v } }
  | 0x140004 => { s with cont := { s.cont with cfg := v } }
  | 0x150004 => { s with power := { s.power with cfg := v } }
  | _ => s

/-- A program in the stores of the wings that the Curator reaches, and of one that returns, whose store has been filled (R109, R463). -/
def State.setProgram (s : State) (n : Nat) (p : List Word64) : State :=
  let put (w : Wing) (t : Tbl (List Word64)) : Tbl (List Word64) := if s.orphan w && !s.returning w then t else t.set [] n p
  { s with work := { s.work with progsW := put .west s.work.progsW, progsE := put .east s.work.progsE } }

def State.setCurve (s : State) (slot : Nat) (x : CurveSlot) : State := { s with work := { s.work with curves := s.work.curves.set {} slot x } }

/-- Docent cores of the wings that the Curator reaches restart under a new supervisor. -/
def State.restartDocents (s : State) : State :=
  s.forAll [Wing.west, .east] fun s w =>
    if s.orphan w then s
    else
      let s := s.docentReset w false
      s.setDoc w { s.doc w with running := true }

/-- The policy that a switch replaces stays for the jobs of the epochs up to now; policies of epochs that no job runs in are dropped (R472). -/
def State.keepPolicy (s : State) : State :=
  let old := s.work.policies.filter fun p => p.1 ≥ s.oldestEpoch
  { s with work := { s.work with policies := old ++ [(s.work.epoch, s.boot.policyBody)] } }

/-- An item takes effect. -/
def State.applyItem (s : State) (i : CfgItem) : State :=
  match i with
  | .programSet n p => s.setProgram n p
  | .programRemove n => s.setProgram n []
  | .curveSet sel b => s.setCurve (sel - 0x80) { block := b }
  | .curveRemove sel => s.setCurve (sel - 0x80) { s.work.curves.get {} (sel - 0x80) with retired := true }
  | .imageActivate 1 k => ({ s with work := { s.work with bank := 1 - s.work.bank } }).runImage 1 k
  | .imageActivate 2 k => (s.runImage 2 k).restartDocents
  | .imageActivate _ k => s.keepPolicy.runPolicy k

/-- The measurement set after the items (R174). -/
def State.newMeas (s : State) (l : List CfgItem) : List (List Byte) :=
  l.foldl (fun m i => match i with | .imageActivate t k => setAt m t (measOf (s.manifest t k)) | _ => m) s.measSet

def changesMeas (l : List CfgItem) : Bool := l.any fun i => match i with | .imageActivate _ _ => true | _ => false

/-- The switch: rewraps first, then every staged value and item at once, in a new epoch. -/
def State.switch (s : State) : State :=
  let old := s
  let c := s.cfgtx
  let images := changesMeas c.items
  let s := if images then s.rewrap (s.newMeas c.items) else s
  let s := s.forAll c.values fun s p => s.applyStaged p.1 p.2
  let s := (s.forAll c.items fun s i => s.applyItem i).markC0
  let s := if s.boot.meas == old.boot.meas then s else s.issueAlias
  let s := { s with work := { s.work with epoch := s.work.epoch + 1 },
                    cfgtx := { s.cfgtx with state := 0, result := St.ok, failAt := 0, staged := [], items := [], drained := false } }
  let s := (State.entropyChanged old s).log 8 St.ok 0 (leBytes 4 s.work.epoch)
  (s.raiseAll Cause.epochCommit).pumpAll

/-- The drain set is empty: an activation of microcode now loads the inactive banks, and then the switch follows; any other commit switches
at once. -/
def execCfgtxDrainComplete (s : State) : Res :=
  .next (if s.cfgtx.state != 2 || !s.drainEmpty || s.stopped then s
    else if s.microcodeItem && !s.cfgtx.drained then { s with cfgtx := { s.cfgtx with drained := true, toLoad := s.bankUnits } }
    else if !s.cfgtx.toLoad.isEmpty then s
    else s.switch)

/-! ### Hand-over (R473 to R475) -/

/-- HANDOVER_BEGIN once its parameters and the device's state allow it: preparation begins. -/
def State.beginHandover (s : State) (k lead : Nat) : Answer :=
  let m := s.manifest 0 k
  (St.ok, [], { s with handover := { state := 1, reason := 0, slot := k, leadMs := if lead = 0 then 50 else lead, since := s.now,
                                     pauseUs := s.handover.pauseUs, newMeas := measOf m, newVersion := manVersion m, newSvn := manSvn m } })

/-- The running Curator firmware's slot. -/
def State.curatorSlot (s : State) : Nat := b2n (s.boot.slots.toNat.testBit 0)

def execHandoverBegin (m : Sender) (params : List Byte) (s : State) : Res :=
  .next (s.message m 0x30 0 params fun p s =>
    let k := byteAt p 0
    let lead := leAt p 1 2
    let rest (s : State) : Answer :=
      if s.cfgtx.state = 2 then deny St.epochBusy s
      else if s.handingOver then deny St.handoverPause s
      else s.beginHandover k lead
    if k > 1 || !(lead = 0 || (10 ≤ lead && lead ≤ 1000)) then deny St.inputRange s
    else if !s.imageOk 0 k then deny St.inputRejected s
    else if k = s.curatorSlot || s.stopped || s.cont.orphanW || s.cont.orphanE then deny St.policyDenied s
    else if s.devPolicy.handoverQuorum then s.withQuorum 0x13 3 p rest
    else rest s)

def execHandoverStatus (m : Sender) (params : List Byte) (s : State) : Res :=
  .next (s.message m 0x31 8 params fun _ s =>
    (St.ok, [byte s.handover.state, byte s.handover.reason, 0, 0] ++ leBytes 4 s.handover.pauseUs, s))

/-- Preparation has ended. -/
def execHandoverPending (s : State) : Res :=
  .next (if s.handover.state != 1 then s
    else
      let s := { s with handover := { s.handover with state := 2, since := s.now } }
      s.markC0.raiseAll Cause.handoverPending)

/-- lead_ms has passed: new loans pause. -/
def execHandoverPauseStart (s : State) : Res :=
  .next (if s.handover.state != 2 || s.now < s.handover.since + 1000000 * s.handover.leadMs then s
    else { s with handover := { s.handover with state := 3, since := s.now } })

/-- A hand-over starts the new firmware on all three Curator cores, a fenced one again with a new generation (R444, R456). -/
def State.restartCores (s : State) : State :=
  let s := { s with cont := { s.cont with vote := .triple } }
  s.forAll [0, 1, 2] fun s k =>
    let u : UnitId := ⟨20, Kind.curator, k⟩
    let x := s.unit u
    if x.svc == .fenced then s.setUnit u { x with svc := .inService, gen := nextGen x.gen, stFail := false } else s

/-- The new firmware takes control: the standby wraps become current, the directory prefers its slot, MEAS0 and the certificates change. -/
def State.takeOver (s : State) : State :=
  let h := s.handover
  let s := s.rewrap [h.newMeas, s.meas 1, s.meas 2, s.meas 3]
  let s := s.wrapMaster h.slot h.newMeas
  let b := s.boot
  let slots := BitVec.ofNat 4 (setField (w32 b.slots.toNat) 0 1 h.slot).toNat
  let s := s.setBoot { b with meas := setAt b.meas 0 h.newMeas, versions := setAt b.versions 0 h.newVersion, svns := setAt b.svns 0 h.newSvn, slots }
  let s := (s.issueAlias.preferSlot 0 h.slot).restartCores
  { s with handover := { h with state := 4, pauseUs := (s.now - h.since) / 1000 } }

/-- The start checks' outcome ends the pause. -/
def execHandoverSwitch (startChecksPass : Bool) (s : State) : Res :=
  .next (if s.handover.state != 3 || s.boot.inReset then s
    else
      let s := if startChecksPass then s.takeOver else s.abandonHandover 1
      (s.raiseAll Cause.handoverDone).pumpAll)

end Sys2Proof.Machine
end

