-- ==== Sys2Proof/Machine/Docents.lean ====
section
/-! DEFINITION. The Docents' queues, fixed slots and access units, the debug port, and the test port (R412, R478 to R495). -/

namespace Sys2Proof.Machine

/-! ### Access unit registers (R487 to R489) -/

/-- The address of a register of an access unit. -/
def auAddr (unit off : Nat) : Nat := 0x11000000 + 0x1000 * unit + off

/-- Cacheable (R488). -/
def Window.cacheable (x : Window) : Bool := bit32 x.ctrl 5
/-- The slot or window is locked (R489). -/
def Window.locked (x : Window) : Bool := bit32 x.ctrl 31

/-- Two ranges share an address. -/
def rangesMeet (a n b m : Nat) : Bool := a < b + m && b < a + n

/-- The target range lies within its target (R486, R487). -/
def State.targetOk (s : State) (unit : Nat) (x : Window) : Bool :=
  match x.kind with
  | 0 => if unit < 8 then decide (x.target + x.size ≤ 2 ^ 18) else decide (x.target < 2 ^ 43 && x.target % 2 ^ 40 + x.size ≤ 2 ^ 18)
  | 1 => decide (x.target + x.size ≤ 2 ^ 23)
  | 2 => !x.cacheable && s.devPolicy.hostWindows
  | 3 => decide (x.target + x.size ≤ s.regionUnits .docent * 2 ^ 29)
  | _ => false

/-- A window may be in service: its size and base are legal, it meets no other enabled window of its unit and not the fixed range, and
its target is whole (R486, R487). -/
def State.windowOk (s : State) (w : Wing) (unit k : Nat) (x : Window) : Bool :=
  let lg := bits32 x.ctrl 10 6
  let others := ((s.au w unit).windows.zipIdx.filter fun p => p.2 != k && p.1.enabled).map Prod.fst
  decide (12 ≤ lg && lg ≤ 36) && x.addr % x.size == 0 && !rangesMeet x.addr x.size 0x10000000 0x03000000 &&
    !(others.any fun y => rangesMeet x.addr x.size y.addr y.size) && s.targetOk unit x

/-- One register word of a window replaced; `r` is the word's number. -/
def Window.setWord (x : Window) (r : Nat) (v : Word32) : Window :=
  match r with
  | 0 => { x with base := v &&& 0xFFFFF0FF }
  | 1 => { x with tgtLo := v &&& 0xFFFFF000 }
  | 2 => { x with tgtHi := v }
  | _ => { x with ctrl := v &&& 0x8000FFFF }

def State.setWindow (s : State) (w : Wing) (unit k : Nat) (x : Window) : State :=
  let u := s.au w unit
  s.setAu w unit { u with windows := setAt u.windows k x }

/-- A write to a window's register: a locked one is a violation of the writing master; an enable that R487 refuses leaves the window
disabled and is a violation in its unit; a write that would so change an enabled window is refused whole. -/
def State.windowWrite (s : State) (w : Wing) (master unit off : Nat) (v : Word32) : State :=
  let k := (off - 0x040) / 0x20
  let r := (off - 0x040) % 0x20 / 4
  let x := (s.au w unit).windows.getD k {}
  let y := x.setWord r v
  if r > 3 then s
  else if x.locked then s.violation w master 3 1 false (8 + k) (auAddr unit off)
  else if !y.enabled || s.windowOk w unit k y then s.setWindow w unit k y
  else
    let s := if x.enabled then s else s.setWindow w unit k { y with ctrl := y.ctrl &&& 0xFFFFFFFE }
    s.violation w unit 4 1 false (8 + k) (auAddr unit off)

/-- valid re-armed (R491). -/
def State.vinfoClear (s : State) (w : Wing) (unit : Nat) (v : Word32) : State :=
  let u := s.au w unit
  if bit32 v 0 then s.setAu w unit { u with vinfo := u.vinfo &&& 0xFFFFFFFE } else s

/-- A write to a register of a unit by a master that may write it. -/
def State.auRegWrite (s : State) (w : Wing) (master unit off : Nat) (v : Word32) : State :=
  let u := s.au w unit
  if off % 4 != 0 then s
  else if off < 0x020 then
    let k := off / 4
    if bit32 (u.slots.getD k 0) 31 then s.violation w master 3 1 false k (auAddr unit off)
    else s.setAu w unit { u with slots := setAt u.slots k (v &&& 0x80000007) }
  else if 0x040 ≤ off && off < 0x140 then s.windowWrite w master unit off v
  else if off = 0x140 then s.vinfoClear w unit v
  else s

/-- A register of a unit, and the state after the read: AU_VCOUNT is cleared by it. -/
def State.auRegRead (s : State) (w : Wing) (unit off : Nat) : Word32 × State :=
  let u := s.au w unit
  if off < 0x020 then (u.slots.getD (off / 4) 0, s)
  else if 0x040 ≤ off && off < 0x140 then
    let x := u.windows.getD ((off - 0x040) / 0x20) {}
    (match (off - 0x040) % 0x20 / 4 with | 0 => x.base | 1 => x.tgtLo | 2 => x.tgtHi | 3 => x.ctrl | _ => 0, s)
  else match off with
  | 0x140 => (u.vinfo, s)
  | 0x144 => (w32 (u.vaddr % 2 ^ 32), s)
  | 0x148 => (w32 (u.vaddr / 2 ^ 32), s)
  | 0x14C => (w32 u.vcount, s.setAu w unit { u with vcount := 0 })
  | _ => (0, s)

/-- The master may write the unit's registers (R488). -/
def mayWriteUnit (master unit : Nat) : Bool := (unit == master && master < 8) || (master == 0 && unit == 8)

/-- A Docent master can act: the part is out of reset, the wing's cores and clocks run, and nothing has
halted them (R406, R480, R515). -/
def State.docentUp (s : State) (w : Wing) : Bool := !s.boot.inReset && (s.doc w).running && !(s.doc w).frozen && !s.lowPower && s.wingRuns w

/-- A Docent core runs: it is not fenced either (R446). -/
def State.coreUp (s : State) (w : Wing) (core : Nat) : Bool :=
  s.docentUp w && (s.unit ⟨match w with | .west => 18 | .east => 19, Kind.docent, core⟩).svc != .fenced

/-- A master of a wing acts: the debug port whenever the part is out of reset. -/
def State.masterUp (s : State) (w : Wing) (master : Nat) : Bool :=
  if master = 9 then !s.boot.inReset else if master < 8 then s.coreUp w master else s.docentUp w

def execAuRegisterWrite (w : Wing) (master unit off : Nat) (v : Word32) (s : State) : Res :=
  .next (if master > 9 || unit > 9 || off ≥ 0x1000 || !s.masterUp w master then s
    else if !mayWriteUnit master unit then s.violation w master 3 1 false 31 (auAddr unit off)
    else s.auRegWrite w master unit off v)

def execAuVinfoClear (w : Wing) (master : Nat) (v : Word32) (s : State) : Res :=
  .next (if master > 8 || !s.docentUp w then s else s.vinfoClear w master v)

/-- The count read by the unit's own core (core 0 for unit 8) and cleared. -/
def execAuVcountRead (w : Wing) (master : Nat) (s : State) : Res :=
  .next (if master > 9 || !s.masterUp w master then s
    else
      let r := s.auRegRead w master 0x14C
      r.2.emit (.access w master false (leBytes 4 r.1.toNat)))

def execEvlogVinfoClear (f : Fn) (m : Nat) (v : Word32) (s : State) : Res :=
  .next (if m ≥ 20 then s
    else s.mgmtWrite f (0x120100 + 16 * m) fun s => s.vinfoClear (if m < 10 then .west else .east) (m % 10) v)

/-! ### Internal queues (R481 to R483) -/

/-- A Docent core of the wing. -/
def coreOk (core : Nat) : Bool := core < 8

/-- The supervisor may enable the queue: its depth is legal and the owner policy grants the collection to the core. -/
def State.dqEnableOk (s : State) (w : Wing) (core : Nat) (ctrl : Word32) : Bool :=
  let lg := bits32 ctrl 16 11
  decide (1 ≤ lg && lg ≤ 10) && (s.collPolicy (bits32 ctrl 6 10)).cores.contains (8 * wingIdx w + core)

/-- A write to a queue register: while the queue is enabled only clearing enable has an effect, and it takes the queue out of service;
an enable that is not granted is dropped and logged. -/
def State.dqWrite (s : State) (w : Wing) (core q off : Nat) (v : Word32) : State :=
  let d := s.docQueue w core q
  let v27 := v &&& 0x07FFFFFF
  if d.on then
    if off = 0x10 && !bit32 v 0 then
      (s.loseDocRecords fun x => x == .docent w core q).setDocQueue w core q { d with ctrl := d.ctrl &&& 0xFFFFFFFE, q := {} }
    else s
  else match off with
  | 0x00 => s.setDocQueue w core q { d with sqLo := v &&& 0xFFFFFFC0 }
  | 0x04 => s.setDocQueue w core q { d with sqHi := v }
  | 0x08 => s.setDocQueue w core q { d with cqLo := v &&& 0xFFFFFFE0 }
  | 0x0C => s.setDocQueue w core q { d with cqHi := v }
  | 0x10 =>
    if !bit32 v 0 then s.setDocQueue w core q { d with ctrl := v27 }
    else if s.dqEnableOk w core v then s.setDocQueue w core q { d with ctrl := v27, q := {} }
    else (s.setDocQueue w core q { d with ctrl := v27 &&& 0x07FFFFFE }).log 7 St.accessDenied (dieSrc (wingDie w)) [byte core, byte q]
  | _ => s

/-- A queue register as it reads. -/
def DocQueue.reg (d : DocQueue) (off : Nat) : Word32 :=
  match off with
  | 0x00 => d.sqLo
  | 0x04 => d.sqHi
  | 0x08 => d.cqLo
  | 0x0C => d.cqHi
  | 0x10 => d.ctrl
  | _ => 0

def execDqCtrlWrite (w : Wing) (core q off : Nat) (v : Word32) (s : State) : Res :=
  .next (if !coreOk core || q ≥ 16 || !s.coreUp w core then s else s.dqWrite w core q off v)

/-- The CSRs of a queue that is not enabled, or not granted to U mode, raise an illegal-instruction exception. -/
def State.csrAllowed (s : State) (w : Wing) (core q : Nat) (user : Bool) : Bool :=
  let d := s.docQueue w core q
  q < 16 && d.on && (!user || bit32 d.ctrl 1)

/-- The status of a core's last tail write, CSR 0x820. -/
def State.setCsr (s : State) (w : Wing) (core st : Nat) : State :=
  s.setDoc w { s.doc w with csr := (s.doc w).csr.set 0 core st }

/-- A tail write is refused: past the ring, past the head, or beyond the completion slots (R483). -/
def DocQueue.tailRefused (d : DocQueue) (inFlight tail : Nat) : Bool :=
  let have_ := ringCount d.depth d.q.sqHead d.q.sqTail
  let want := ringCount d.depth d.q.sqHead tail
  decide (tail ≥ d.depth) || decide (want < have_) || decide (want + inFlight > d.depth - 1)

/-- The tail moved; the entry that then stands at the head of an empty ring is read through the core's access unit. -/
def State.dqTail (s : State) (w : Wing) (core q tail : Nat) : State :=
  let d := s.docQueue w core q
  let x := d.q
  let inFl := s.inFlight (.docent w core q)
  let free := s.c0Slots w (d.depth - 1 - (ringCount d.depth x.cqHead x.cqTail + inFl) - ringCount d.depth x.sqHead x.sqTail)
  let arr := newArrivals (ringCount d.depth x.sqTail tail) free s.now
  let s := (s.setCsr w core 0).setDocQueue w core q { d with q := { x with sqTail := tail, arrivals := x.arrivals ++ arr } }
  if x.sqHead = x.sqTail && tail != x.sqTail then (s.ringTarget w core .read (d.sqAddr + 64 * x.sqHead) 64).2 else s

def execDocentSqTailWrite (w : Wing) (core q : Nat) (user : Bool) (tail : BitVec 16) (s : State) : Res :=
  .next (if !coreOk core || !s.coreUp w core then s
    else if !s.csrAllowed w core q user then s.emit (.illegalCsr w core)
    else if (s.docQueue w core q).tailRefused (s.inFlight (.docent w core q)) tail.toNat then s.setCsr w core St.queueFull.toNat
    else s.dqTail w core q tail.toNat)

/-- A completion head within the records written. -/
def execDocentCqHeadWrite (w : Wing) (core q : Nat) (user : Bool) (head : BitVec 16) (s : State) : Res :=
  .next (if !coreOk core || !s.coreUp w core then s
    else if !s.csrAllowed w core q user then s.emit (.illegalCsr w core)
    else
      let d := s.docQueue w core q
      let n := ringCount d.depth d.q.cqHead head.toNat
      if head.toNat ≥ d.depth || n > ringCount d.depth d.q.cqHead d.q.cqTail then s
      else s.setDocQueue w core q { d with q := { d.q with cqHead := head.toNat } })

/-- A Docent cluster reset of a wing (R479). -/
def execDocentClusterReset (w : Wing) (s : State) : Res :=
  .next (if s.boot.inReset then s else s.docentReset w false)

/-! ### Fixed slots (R485) -/

def cardStateCode : CardState → Nat
  | .empty => 0
  | .present => 1
  | .activating => 2
  | .active => 3
  | .sleep => 4
  | .deactivating => 5

/-- CARD_STATUS (R509). -/
def Card.status (c : Card) : Word32 :=
  w32 (cardStateCode c.state + 8 * b2n c.present + 16 * c.cls + 64 * b2n c.inverse + 128 * c.clkStopMode + 512 * b2n c.busy)

/-- A card register; the read of CARD_RESULT clears it. -/
def State.cardRegRead (s : State) (n off : Nat) : Word32 × State :=
  let c := s.card n
  if 0x040 ≤ off && off < 0x064 then (w32 (leAt c.atr (off - 0x040) 4), s)
  else if 0x100 ≤ off && off < 0x200 then (w32 (leNat (Tbl.readBytes 0 c.data (off - 0x100) 4)), s)
  else match off with
  | 0x000 => (c.ctrl, s)
  | 0x008 => (c.status, s)
  | 0x00C => (c.result, s.setCard n { c with result := 0 })
  | 0x010 => (c.hdr, s)
  | 0x014 => (c.p3, s)
  | 0x018 => (c.sw, s)
  | 0x01C => (c.params, s)
  | 0x020 => (c.irqEn, s)
  | 0x024 => (c.irq, s)
  | 0x064 => (w32 c.atr.length, s)
  | _ => (0, s)

/-- The commands of CARD_CMD that a write starts, lowest bit first. -/
def State.cardCmd (s : State) (n : Nat) (v : Word32) : State :=
  let go (s : State) (k : Nat) (f : State → Nat → State) : State := if bit32 v k then f s n else s
  let s := go (go (go s 0 State.cardActivate) 1 State.cardDeactivate) 2 State.cardWarmReset
  go (go (go (go s 3 State.cardStart) 4 State.cardClkStop) 5 State.cardWake) 6 State.cardAbort

/-- Bytes stored into CARD_DATA. -/
def State.cardDataWrite (s : State) (n off : Nat) (bytes : List Byte) : State :=
  let c := s.card n
  s.setCard n { c with data := Tbl.writeBytes 0 c.data (off - 0x100) (bytes.take (0x200 - off)) }

def State.cardRegWrite (s : State) (n off : Nat) (v : Word32) : State :=
  let c := s.card n
  match off with
  | 0x000 => s.setCard n { c with ctrl := v &&& 0x001F3FF7 }
  | 0x004 => s.cardCmd n v
  | 0x010 => s.setCard n { c with hdr := v }
  | 0x014 => s.setCard n { c with p3 := v &&& 0x000001FF }
  | 0x020 => s.setCard n { c with irqEn := v &&& 0x00000007 }
  | 0x024 => s.setCard n { c with irq := c.irq &&& ~~~v }
  | _ => s

/-- GPIO_IN (R541): a driven pin reads what drives it. -/
def DocentWing.gpioLevels (d : DocentWing) : BitVec 8 :=
  let driven := d.gpioOe &&& ~~~(d.gpioOd &&& d.gpioOut)
  (d.gpioIn &&& ~~~driven) ||| (d.gpioOut &&& driven)

def DocentWing.gpioRead (d : DocentWing) (off : Nat) : Word32 :=
  match off with
  | 0x000 => w32 d.gpioLevels.toNat
  | 0x004 => w32 d.gpioOut.toNat
  | 0x008 => w32 d.gpioOe.toNat
  | 0x00C => w32 d.gpioOd.toNat
  | 0x010 => w32 d.gpioPull.toNat
  | 0x014 => w32 d.gpioIrqEn.toNat
  | 0x018 => w32 d.gpioIrq.toNat
  | _ => 0

def DocentWing.gpioWrite (d : DocentWing) (off : Nat) (v : Word32) : DocentWing :=
  match off with
  | 0x004 => { d with gpioOut := v.setWidth 8 }
  | 0x008 => { d with gpioOe := v.setWidth 8 }
  | 0x00C => { d with gpioOd := v.setWidth 8 }
  | 0x010 => { d with gpioPull := v.setWidth 8 }
  | 0x014 => { d with gpioIrqEn := v.setWidth 16 }
  | 0x018 => { d with gpioIrq := d.gpioIrq &&& ~~~(v.setWidth 16) }
  | _ => d

/-- TIMER's 64-bit counter at 100 MHz (R485). -/
def DocentWing.timerCount (d : DocentWing) (now : Nat) : Nat := (now - d.timerBase) / 10 % 2 ^ 64

/-- TIMER: the counter at 0x00, compare k at 0x10 + 8k, the interrupts at 0x50, write 1 to clear; offsets of the model's choice. -/
def DocentWing.timerRead (d : DocentWing) (now off : Nat) : Word32 :=
  if 0x010 ≤ off && off < 0x050 then w32 (d.compares.getD ((off - 0x010) / 8) 0 / (if off % 8 = 0 then 1 else 2 ^ 32))
  else match off with
  | 0x000 => w32 (d.timerCount now)
  | 0x004 => w32 (d.timerCount now / 2 ^ 32)
  | 0x050 => w32 d.timerIrq.toNat
  | _ => 0

def DocentWing.timerWrite (d : DocentWing) (off : Nat) (v : Word32) : DocentWing :=
  if 0x010 ≤ off && off < 0x050 then
    let k := (off - 0x010) / 8
    let x := d.compares.getD k 0
    { d with compares := setAt d.compares k (if off % 8 = 0 then x / 2 ^ 32 * 2 ^ 32 + v.toNat else x % 2 ^ 32 + v.toNat * 2 ^ 32) }
  else if off = 0x050 then { d with timerIrq := d.timerIrq &&& ~~~(v.setWidth 8) }
  else d

/-- The RTC slot: seconds at 0x00, the sub-second count at 0x04, the compare seconds at 0x08 and its interrupt at 0x0C; offsets of the
model's choice (R524). -/
def State.rtcRead (s : State) (w : Wing) (off : Nat) : Word32 :=
  match off with
  | 0x000 => w32 s.rtcSec
  | 0x004 => w32 (s.rtc % 32768)
  | 0x008 => w32 (s.doc w).rtcCompare
  | 0x00C => w32 (b2n (s.doc w).rtcIrq)
  | _ => 0

def DocentWing.rtcWrite (d : DocentWing) (off : Nat) (v : Word32) : DocentWing :=
  match off with
  | 0x008 => { d with rtcCompare := v.toNat }
  | 0x00C => { d with rtcIrq := d.rtcIrq && !bit32 v 0 }
  | _ => d

/-- The aligned word of a slot, and the state after the read. SMB and XSPI have registers that the spec does not lay out: free values. -/
def State.slotRead (s : State) (w : Wing) (n off : Nat) : Word32 × State :=
  match n with
  | 0 | 1 => s.cardRegRead n off
  | 3 => ((s.doc w).gpioRead off, s)
  | 5 => ((s.doc w).timerRead s.now off, s)
  | 6 => ((s.mailbox (.supervisor w)).read off, s)
  | 7 => (s.rtcRead w off, s)
  | _ => let d := s.free; (w32 d.1, d.2)

def State.slotWrite (s : State) (w : Wing) (n off : Nat) (v : Word32) : State :=
  match n with
  | 0 | 1 => s.cardRegWrite n off v
  | 3 => s.setDoc w ((s.doc w).gpioWrite off v)
  | 5 => s.setDoc w ((s.doc w).timerWrite off v)
  | 6 => s.curmbWrite (.supervisor w) off v id
  | 7 => s.setDoc w ((s.doc w).rtcWrite off v)
  | _ => s

/-! ### Accesses of the masters (R484, R490 to R493) -/

/-- The aligned words that an access touches, by their byte offsets. -/
def touchedWords (off len : Nat) : List Nat := (List.range ((off % 4 + len + 3) / 4)).map fun i => off / 4 * 4 + 4 * i

/-- Bytes read as words, the lower address first. -/
def State.readWords (s : State) (off len : Nat) (rd : State → Nat → Word32 × State) : List Byte × State :=
  let r := (touchedWords off len).foldl (fun r o => let x := rd r.2 o; (r.1 ++ leBytes 4 x.1.toNat, x.2)) (([] : List Byte), s)
  (slice r.1 (off % 4) len, r.2)

/-- Bytes stored as words, the lower address first; a word that the access does not cover whole is not written. -/
def State.writeWords (s : State) (off : Nat) (bytes : List Byte) (wr : State → Nat → Word32 → State) : State :=
  s.forAll (touchedWords off bytes.length) fun s o =>
    if off ≤ o && o + 4 ≤ off + bytes.length then wr s o (w32 (leAt bytes (o - off) 4)) else s

/-- What a Storeroom-window access meets at the gate (R386, R388, R394, R492): the status it fails with, none when it passes. A whole
tile is written without reading it. -/
def State.storeFail (s : State) (w : Wing) (off len : Nat) (write : Bool) (gate : GateOutcome) : Option Byte :=
  let whole := write && off % 4096 == 0 && len % 4096 == 0
  if s.orphan w then some St.storeroomStale
  else if !s.gateUp w then some St.storeroomIntegrity
  else match gate with
  | .media => if whole then none else some St.storeroomMedia
  | .integrity => some St.storeroomIntegrity
  | .stale => some St.storeroomStale
  | .ok => if s.docentSpanFails w off len write then some St.storeroomMedia else none

/-- A Storeroom-window access has failed: it is counted, latched and logged as any failure of the tile, and so is the master (R388, R492). On an orphan,
or at a gate that accepts no access, no tile is read, and only the log names it. -/
def State.docentFailure (s : State) (w : Wing) (master off : Nat) (st : Byte) : State :=
  let s := if s.orphan w || !s.gateUp w then s else s.storeFailure ⟨w, s.docentBase + off / 4096⟩ st 0
  s.log 4 st (dieSrc (wingDie w)) [byte master]

/-- The access is performed at its target: the data it returns, whether it ended with an error, and the state after. -/
def State.docPerform (s : State) (w : Wing) (master : Nat) (a : Access) (gate : GateOutcome) (t : DocTarget) : List Byte × Bool × State :=
  let data := padTo a.len a.data
  let write := a.op == .write
  let ran (r : List Byte × State) : List Byte × Bool × State := (r.1, false, r.2)
  let done (s : State) : List Byte × Bool × State := ([], false, s)
  match t with
  | .slot n off =>
    if !write then ran (s.readWords off a.len fun s o => s.slotRead w n o)
    else if n < 2 && 0x100 ≤ off && off < 0x200 then done (s.cardDataWrite n off data)
    else done (s.writeWords off data fun s o v => s.slotWrite w n o v)
  | .auReg unit off =>
    if !write then ran (s.readWords off a.len fun s o => s.auRegRead w unit o)
    else done (s.writeWords off data fun s o v => s.auRegWrite w master unit o v)
  | .dqReg off =>
    if !write then ran (s.readWords off a.len fun s o => ((s.docQueue w master (o / 0x20)).reg (o % 0x20), s))
    else done (s.writeWords off data fun s o v => s.dqWrite w master (o / 0x20) (o % 0x20) v)
  | .store off =>
    match s.storeFail w off a.len write gate with
    | some st => (if write then [] else zeros a.len, true, s.docentFailure w master off st)
    | none => if write then done (s.docMemWrite w t data) else ran (s.docMemRead w t a.len)
  | t => if write then done (s.docMemWrite w t data) else ran (s.docMemRead w t a.len)

/-- An access of a master, checked against its unit before it leaves the master; a violation returns zero with an error, or is dropped
with one. -/
def State.masterAccess (s : State) (w : Wing) (master : Nat) (a : Access) (gate : GateOutcome) : State :=
  let user := a.user && master < 8
  match s.auCheck w master a.op a.addr a.len user with
  | .error (kind, index) =>
    (s.violation w master kind (opCode a.op) user index a.addr).emit (.access w master true (if a.op == .write then [] else zeros a.len))
  | .ok t =>
    let r := s.docPerform w master a gate t
    r.2.2.emit (.access w master r.2.1 r.1)

def execDocentAccess (w : Wing) (core : Nat) (acc : Access) (gate : GateOutcome) (s : State) : Res :=
  .next (if !coreOk core || acc.len = 0 || !s.coreUp w core then s else s.masterAccess w core acc gate)

/-- One burst, of at most 256 bytes; a whole tile's transfer counts as one for R492. -/
def execDocentDmaBurst (w : Wing) (acc : Access) (gate : GateOutcome) (s : State) : Res :=
  .next (let sizeOk := decide (0 < acc.len && acc.len ≤ 256) || (acc.len == 4096 && acc.addr % 4096 == 0)
    if !sizeOk || acc.op == .fetch || !s.docentUp w then s else s.masterAccess w 8 acc gate)

def execDebugPortAccess (w : Wing) (acc : Access) (gate : GateOutcome) (s : State) : Res :=
  .next (if acc.len = 0 || !s.masterUp w 9 then s else s.masterAccess w 9 acc gate)

/-! ### The test port (R412, R535) -/

/-- The lifecycle and debug state allow the instruction. -/
def State.jtagAllowed (s : State) (ins : JtagIns) : Bool :=
  let m := s.boot.lifecycle == .manufacture
  match ins with
  | .idcode | .bypass | .samplePreload => true
  | .extest => m || s.boot.lifecycle == .scrapped
  | .scanTest => m
  | .docentDebug | .wingRegisters => m || s.boot.debug != 0
  | .nonKeyMemory => m || s.boot.debug == 1

def execJtagInstruction (ins : JtagIns) (s : State) : Res :=
  .next (s.emit (.jtag (s.jtagAllowed ins) (if ins == .idcode then 0x35472F3B else 0)))

end Sys2Proof.Machine
end

