-- ==== Sys2Proof/Machine/Clocks.lean ====
section
/-! DEFINITION. Clock sources and switch-over (R510 to R517), power states (R518 to R520, R523), the governor and the thermal throttle
(R521, R522), the real-time clock (R524), CLKPWR writes (R525), core supplies (R534), the Docent pins and timers (R485, R541), and
the ports' link power (R42, R530). -/

namespace Sys2Proof.Machine

/-! ### Sources (R511 to R515) -/

def ClockDie.ok (d : ClockDie) : ClockSource → Bool
  | .clkref => d.clkrefOk
  | .xtal => d.xtalOk
  | .watch => true

/-- The switch that the selection demands: its target, and whether it is forced. A failed source means XTAL after CLKREF, and watch mode
otherwise; out of watch mode a die moves to a stable reference, CLKREF first. -/
def ClockDie.wanted (d : ClockDie) : Option (ClockSource × Bool) :=
  match d.source with
  | .clkref => if d.clkrefOk then none else some (if d.xtalOk then .xtal else .watch, true)
  | .xtal => if d.xtalOk then none else some (.watch, true)
  | .switching t => if d.ok t then none else some (.watch, true)
  | .watch => if d.clkrefOk then some (.clkref, false) else if d.xtalOk then some (.xtal, false) else none

/-- The code of a source in CLKPWR_LASTSW; a switch in progress counts from the source it goes to. -/
def sourceNum : ClockSource → Nat
  | .clkref => 0
  | .xtal => 1
  | .watch => 2

def DieSource.num : DieSource → Nat
  | .clkref => 0
  | .xtal => 1
  | .watch => 2
  | .switching t => sourceNum t

/-- A die begins a switch: its domains stop, and restart at PLL lock; watch mode needs no PLL. The Curator die's switches are those that
CLKPWR_SWITCHES and CLKPWR_LASTSW show. -/
def State.switchDie (s : State) (die : Die) (dest : ClockSource) (forced : Bool) : State :=
  let d := s.clockDie die
  let s := if die != .curatorDie then s
    else
      let p := s.power
      { s with power := { p with forced := sat 255 (p.forced + b2n forced), planned := sat 255 (p.planned + b2n (!forced)),
                                 watchEntries := sat 255 (p.watchEntries + b2n (dest == .watch)),
                                 lastSw := w32 (d.source.num + 4 * sourceNum dest + 16 * b2n forced) } }
  s.setClockDie die { d with source := if dest == .watch then .watch else .switching dest }

/-- The forced switch away from a source that has failed, if the die used it. -/
def State.leaveFailed (s : State) (die : Die) : State :=
  match (s.clockDie die).wanted with
  | some (dest, true) => s.switchDie die dest true
  | _ => s

/-- A reference has failed at a die; a failed crystal is restarted. Recorded with the Curator die as source. -/
def State.refFailed (s : State) (die : Die) (src : ClockSource) : State :=
  let d := s.clockDie die
  let was := d.ok src || d.source.num == sourceNum src
  let s := match src with
    | .clkref => s.setClockDie die { d with clkrefOk := false }
    | .xtal => s.setClockDie die { d with xtalOk := false, xtalDelayed := false, xtalStart := s.now }
    | .watch => s
  let s := if die == .curatorDie && was && src != .watch then s.log 2 0 (dieSrc .curatorDie) [byte (sourceNum src)] else s
  s.leaveFailed die

def execReferenceMissing (die : Die) (src : ClockSource) (s : State) : Res :=
  .next (if s.boot.inReset || src == .watch then s else s.refFailed die src)

/-- A clean window of CLKREF, or of XTAL after its start delay, judges it stable. -/
def ClockDie.judge (d : ClockDie) (src : ClockSource) (now : Nat) : ClockDie :=
  match src with
  | .clkref => if d.clkrefOk then d else { d with clkrefOk := true, clkrefSince := now }
  | .xtal => if d.xtalDelayed then { d with xtalOk := true } else d
  | .watch => d

/-- The class 1 trip of a die's clocks; its detail is the die's index (R418, R441). -/
def clockTrip (die : Die) : Trip := { cls := 1, detail := byte (match die with | .westDie => 0 | .eastDie => 1 | .curatorDie => 2), value := 0 }

/-- One window's check of one reference: slow is a failure (of a crystal within its start delay nothing is judged), fast is class 1. -/
def State.checkRef (s : State) (die : Die) (src : ClockSource) (permille : Nat) : State :=
  let d := s.clockDie die
  if permille < 900 then (if src == .xtal && !d.xtalDelayed then s else s.refFailed die src)
  else if permille > 1100 then s.sensorTrip (clockTrip die)
  else s.setClockDie die (d.judge src s.now)

def execFrequencyWindow (die : Die) (win : ClockWindow) (s : State) : Res :=
  .next (if s.boot.inReset then s
    else
      let s := (s.checkRef die .clkref win.clkrefPermille).checkRef die .xtal win.xtalPermille
      if win.watchMhz < 30 || win.watchMhz > 70 then s.sensorTrip (clockTrip die) else s)

/-- The strapped XTAL start delay in ns (R511). -/
def State.xtalDelayNs (s : State) : Nat := 500000 * 2 ^ (s.boot.straps.toNat % 8)

def execXtalStartDelayExpiry (die : Die) (s : State) : Res :=
  .next (let d := s.clockDie die
    if s.boot.inReset || d.xtalDelayed || s.now < d.xtalStart + s.xtalDelayNs then s
    else s.setClockDie die { d with xtalDelayed := true })

/-- The die makes the switch that its selection demands. -/
def execClockSwitch (die : Die) (dest : ClockSource) (forced : Bool) (s : State) : Res :=
  .next (if !s.boot.inReset && (s.clockDie die).wanted == some (dest, forced) then s.switchDie die dest forced else s)

/-- The domains restart on the new reference. -/
def execPllLock (die : Die) (pauseUs : Nat) (s : State) : Res :=
  .next (let d := s.clockDie die
    let run (src : DieSource) : State :=
      let s := s.setClockDie die { d with source := src }
      if die == .curatorDie then { s with power := { s.power with lastSw := setField s.power.lastSw 16 16 (sat 65535 pauseUs) } } else s
    match d.source with
    | .switching .clkref => if d.clkrefOk then run .clkref else s
    | .switching .xtal => if d.xtalOk then run .xtal else s
    | _ => s)

/-- A die on XTAL returns to a stable CLKREF. -/
def State.revertDie (s : State) (die : Die) : State :=
  let d := s.clockDie die
  if d.source == .xtal && d.clkrefOk then s.switchDie die .clkref false else s

def execClkpwrRevert (f : Fn) (s : State) : Res :=
  .next (s.mgmtWrite f 0x15000C fun s => ((s.revertDie .westDie).revertDie .eastDie).revertDie .curatorDie)

def execAutoRevert (die : Die) (s : State) : Res :=
  .next (if !s.boot.inReset && bit32 s.power.cfg 0 && s.now ≥ (s.clockDie die).clkrefSince + 100000000 then s.revertDie die else s)

/-! ### Power states (R518 to R520, R523) -/

/-- Time from which a wing has been without jobs. -/
def State.quietSince (s : State) (w : Wing) : Nat := match w with | .west => s.power.quietW | .east => s.power.quietE

/-- Some job runs on a wing's galleries. -/
def State.wingBusy (s : State) (w : Wing) : Bool := s.jobList.any fun p => galleryWing p.2.gallery == w

/-- A self-test of a re-admission runs on a wing, and holds its domain on. -/
def State.selfTesting (s : State) (w : Wing) : Bool :=
  s.cont.units.any fun p => match p.2 with
    | some x => x.readmitting && (unitOf p.1).loc < 16 && galleryWing (unitOf p.1).loc == w
    | none => false

/-- CLKPWR_CFG.idle_us in ns; 0 acts as 1. -/
def State.idleNs (s : State) : Nat := 1000 * max 1 (bits32 s.power.cfg 8 8)

/-- A request to gate a domain is refused while a child is on. -/
def execWingIdleEntry (w : Wing) (s : State) : Res :=
  .next (if s.boot.inReset || s.lowPower || s.wingBusy w || s.now < s.quietSince w + s.idleNs then s
    else if s.selfTesting w then { s with power := { s.power with gateRefusals := sat 255 (s.power.gateRefusals + 1) } }
    else s.setIdle w true)

/-- A write to CLKPWR_PSTATE, the one that low power takes. -/
def State.pstateWrite (s : State) (f : Fn) (k : State → State) : State :=
  s.access f fun s =>
    if !isPf f || s.reportOnly f.port || s.recovery then s
    else if !s.mgmt f then s.regError f St.accessDenied 0x150010
    else k s

/-- The states in which a STANDBY request is refused. -/
def State.standbyBarred (s : State) : Bool :=
  s.stopped || s.handingOver || s.cfgtx.state != 0 || [Wing.west, .east].any fun w => s.orphan w || s.returning w

/-- Tj of the hottest die. -/
def State.allBelow (s : State) (t : Int) : Bool := decide (s.hottest < t)

def State.setPstat (s : State) (n : Nat) (draining : Option Nat) : State := { s with power := { s.power with pstat := n, draining } }

def State.setPstate (s : State) (p : PState) : State := { s with power := { s.power with pstate := p, idleW := false, idleE := false } }

/-- From THERMAL_HOLD a request is obeyed once every die is below 90 °C. -/
def execStandbyRequest (f : Fn) (s : State) : Res :=
  .next (s.pstateWrite f fun s =>
    match s.power.pstate with
    | .standby => s.setPstat 0 none
    | .thermalHold => if s.allBelow 90 then (s.setPstate .standby).setPstat 0 none else s.setPstat 4 none
    | _ =>
      if s.power.draining.isSome then s
      else if s.standbyBarred then s.setPstat 3 none
      else s.setPstat 1 (some s.now))

/-- Jobs, or page operations, are in flight. -/
def State.workInFlight (s : State) : Bool := !s.jobList.isEmpty || (List.range 64).any fun p => (s.page p).busy

def execStandbyDrainTimeout (s : State) : Res :=
  .next (match s.power.draining with
    | some t => if s.now ≥ t + 100000000 && s.workInFlight then s.setPstat 2 none else s
    | none => s)

/-- The wings' memories that STANDBY wipes, with the tree work in them, and their links in L1.2; the gates' nodes are written back and the cards
deactivated. -/
def State.gateWings (s : State) : State :=
  let s := ((s.flushGate .west).flushGate .east).deactivateCards.dropGensOn fun _ => true
  let s := (s.clearGalleries .west).clearGalleries .east
  let s := s.setPort .west { s.port .west with linkPower := .l12 }
  s.setPort .east { s.port .east with linkPower := .l12 }

def State.enterStandby (s : State) : State :=
  let s := (s.closeSeal false).writeSeals
  (s.gateWings.setPstate .standby).setPstat 0 none

/-- The request is carried out once nothing is in flight; a state that bars it has meanwhile refused it. -/
def execStandbyEntry (s : State) : Res :=
  .next (if s.power.draining.isNone || s.boot.inReset then s
    else if s.standbyBarred then s.setPstat 3 none
    else if s.workInFlight then s
    else s.enterStandby)

/-- The wings come up: the entropy chain starts again (R370). -/
def State.wake (s : State) : State :=
  let s := s.setPstate .active
  (State.entropyChanged s ({ s with power := { s.power with quietW := s.now, quietE := s.now } }).restartEntropy).setPstat 0 none

def execActiveRequest (f : Fn) (s : State) : Res :=
  .next (s.pstateWrite f fun s =>
    match s.power.pstate with
    | .standby => s.wake
    | .thermalHold => if s.allBelow 90 then s.wake else s.setPstat 4 none
    | _ => s.setPstat 0 none)

/-! ### Governor and thermal throttle (R40, R521 to R523) -/

/-- The cap in 10 mW units, within the variant's range. -/
def State.capLimit (s : State) : Nat := 50 * max 50 (min (if s.a12 then 92 else 120) (bits32 s.power.cap 0 8))

/-- One sixteenth taken from the lowest class that has one left; shares are those of C1, C2, C3. -/
def lowerShares (l : List Nat) : List Nat :=
  let c (k : Nat) : Nat := l.getD k 16
  if c 2 > 0 then [c 0, c 1, c 2 - 1] else if c 1 > 0 then [c 0, c 1 - 1, 0] else [c 0 - 1, 0, 0]

/-- One sixteenth given back, in the reverse order. -/
def raiseShares (l : List Nat) : List Nat :=
  let c (k : Nat) : Nat := l.getD k 16
  if c 0 < 16 then [c 0 + 1, c 1, c 2] else if c 1 < 16 then [c 0, c 1 + 1, c 2] else [c 0, c 1, min 16 (c 2 + 1)]

/-- The mean of estimates. -/
def meanOf (l : List Nat) : Nat := l.sum / l.length

/-- CLKPWR_POWER after an estimate, one each 10 µs: the mean of the last 100, and the highest mean of ten (R521, R525). -/
def Power.estimated (p : Power) (k : Nat) : Power :=
  let l := (k :: p.estimates).take 100
  { p with estimates := l, power := sat 65535 (meanOf l), powerHigh := max p.powerHigh (sat 65535 (meanOf (l.take 10))) }

/-- An estimate: the shares move by one step; with none left the cap cannot be met. -/
def execPowerEstimate (mw10 : Nat) (s : State) : Res :=
  .next (if s.boot.inReset then s
    else
      let p := s.power
      let above := decide (mw10 > s.capLimit)
      let unmet := above && p.capShare.all (· == 0)
      let capShare := if above then lowerShares p.capShare else raiseShares p.capShare
      { s with power := { p.estimated mw10 with capShare, capUnmet := unmet } })

/-- Every job ends, the wings are gated, and the Curator goes on. -/
def State.enterThermalHold (s : State) : State :=
  let t := s.hottest
  let die : Die := if s.power.tempW = t then .westDie else if s.power.tempE = t then .eastDie else .curatorDie
  let s := s.forAll s.jobList fun s x => s.endJobWith x.1 St.engineFenced 0 0 .record fun _ => true
  let s := s.forAll (List.range 64) fun s p => s.endPage p St.engineFenced
  let s := s.log 2 0 (dieSrc die) [byte (t % 256).toNat]
  let s := if s.power.draining.isSome then s.setPstat 4 none else s
  s.gateWings.setPstate .thermalHold

def execThermalSample (west east curator : Int) (s : State) : Res :=
  .next (if s.boot.inReset then s
    else
      let s := { s with power := { s.power with tempW := west, tempE := east, tempC := curator } }
      if s.allBelow 105 || s.power.pstate == .thermalHold then s else s.enterThermalHold)

/-- One step each millisecond, by the hotter wing. -/
def execThermalThrottleStep (s : State) : Res :=
  .next (let p := s.power
    let tj := max p.tempW p.tempE
    if s.boot.inReset || s.now < p.thermalAt + 1000000 then s
    else
      let n := if tj ≥ 95 then min 48 (p.thermal + 1) else if tj ≤ 92 then p.thermal - 1 else p.thermal
      { s with power := { p with thermal := n, thermalAt := s.now } })

/-- CLKPWR_CAP is LIVE, and the governor's boundary is its next estimate, POWER_ESTIMATE (R8; DESIGN CHOICE, log entry 133). -/
def execClkpwrCapWrite (f : Fn) (v : Word32) (s : State) : Res :=
  .next (s.mgmtWrite f 0x150008 fun s => { s with power := { s.power with cap := v &&& 0x000000FF } })

def execClkpwrSwitchesRead (f : Fn) (s : State) : Res :=
  .next (s.clearRead f 0x150024 (s.readClkpwr 0x024) fun s =>
    { s with power := { s.power with forced := 0, planned := 0, watchEntries := 0, gateRefusals := 0 } })

/-! ### The real-time clock (R524) -/

/-- The RTC at a value, in units of 1/32,768 s. -/
def State.setRtc (s : State) (n : Nat) : State := { s with power := { s.power with rtcBase := n, rtcAt := s.now } }

/-- CLKPWR_RTC_SET is permitted. -/
def State.rtcSettable (s : State) : Bool :=
  match s.boot.lifecycle with
  | .manufacture | .provisioned | .decommissioned => true
  | .owned => !s.power.rtcValid
  | .scrapped => false

def execClkpwrRtcSet (f : Fn) (v : Word32) (s : State) : Res :=
  .next (s.mgmtWrite f 0x150034 fun s =>
    if !s.rtcSettable then s.regError f St.accessDenied 0x150034
    else
      let s := s.setRtc (32768 * v.toNat)
      { s with power := { s.power with rtcValid := true, lastSlew := none } })

/-- An offset of at most 1,000 ms, once in 3,600 s. -/
def execClkpwrRtcSlew (f : Fn) (v : Word32) (s : State) : Res :=
  .next (s.mgmtWrite f 0x150038 fun s =>
    let ms := signed (bits32 v 0 12) 12
    let soon := match s.power.lastSlew with | some t => decide (s.rtcSec < t + 3600) | none => false
    if ms < -1000 || ms > 1000 || soon then s.regError f St.accessDenied 0x150038
    else
      let s := s.setRtc ((s.rtc : Int) + ms * 32768 / 1000).toNat
      { s with power := { s.power with lastSlew := some s.rtcSec } })

/-! ### Core supplies (R534) -/

def State.avsSetPoint (s : State) (w : Wing) : Nat := match w with | .west => s.power.avsW | .east => s.power.avsE
def State.avsHeld (s : State) (w : Wing) : Bool := match w with | .west => s.power.avsHoldW | .east => s.power.avsHoldE
def State.avsTime (s : State) (w : Wing) : Nat := match w with | .west => s.power.avsAtW | .east => s.power.avsAtE

/-- The set point, whether it is held, and the time of the last write. -/
def State.setAvs (s : State) (w : Wing) (mv : Nat) (held : Bool) : State :=
  match w with
  | .west => { s with power := { s.power with avsW := mv, avsHoldW := held, avsAtW := s.now } }
  | .east => { s with power := { s.power with avsE := mv, avsHoldE := held, avsAtE := s.now } }

/-- A Voltage write within the range, the step and the rate; a fault or a missing answer is logged and holds the last acknowledged one. -/
def execAvsVoltageWrite (w : Wing) (millivolt : Nat) (answer : AvsAnswer) (s : State) : Res :=
  .next (let now := s.avsSetPoint w
    let legal := decide (700 ≤ millivolt && millivolt ≤ 850 && millivolt ≤ now + 10 && now ≤ millivolt + 10)
    if s.boot.inReset || s.avsHeld w || !legal || s.now < s.avsTime w + 50000 then s
    else
      let s := s.emit (.avs w millivolt)
      match answer with
      | .acknowledged => s.setAvs w millivolt false
      | .fault => (s.setAvs w now true).log 2 0 (dieSrc (wingDie w)) [1]
      | .missing => (s.setAvs w now true).log 2 0 (dieSrc (wingDie w)) [2])

/-! ### Pins and timers of the Docents (R485, R524, R541) -/

def execGpioWrite (w : Wing) (out oe : BitVec 8) (s : State) : Res :=
  .next (if !s.docentUp w then s else s.setDoc w { s.doc w with gpioOut := out, gpioOe := oe })

/-- An edge at a pin: its level, and the edge's interrupt bit. -/
def execGpioEdge (w : Wing) (pin : Nat) (rising : Bool) (s : State) : Res :=
  .next (if pin ≥ 8 || s.boot.inReset || s.lowPower then s
    else
      let d := s.doc w
      let m : BitVec 8 := BitVec.ofNat 8 (2 ^ pin)
      let bit : BitVec 16 := BitVec.ofNat 16 (2 ^ (if rising then pin else 8 + pin))
      s.setDoc w { d with gpioIn := if rising then d.gpioIn ||| m else d.gpioIn &&& ~~~m, gpioIrq := d.gpioIrq ||| bit })

def execGpioIrqClear (w : Wing) (v : Word32) (s : State) : Res :=
  .next (if !s.docentUp w then s
    else s.setDoc w { s.doc w with gpioIrq := (s.doc w).gpioIrq &&& ~~~(v.setWidth 16) })

/-- The counter stands at compare value `k`. -/
def execTimerCompare (w : Wing) (k : Nat) (s : State) : Res :=
  .next (let d := s.doc w
    if k ≥ 8 || s.boot.inReset || d.timerCount s.now != d.compares.getD k 0 then s
    else s.setDoc w { d with timerIrq := d.timerIrq ||| BitVec.ofNat 8 (2 ^ k) })

def execRtcCompare (w : Wing) (s : State) : Res :=
  .next (if s.boot.inReset || s.rtcSec != (s.doc w).rtcCompare then s else s.setDoc w { s.doc w with rtcIrq := true })

/-! ### Links (R42, R530) -/

/-- The link's power state; in L0 a WAKE# is released. STANDBY holds the link in L1.2. -/
def execLinkPowerStateChange (w : Wing) (dest : LinkPower) (s : State) : Res :=
  .next (let p := s.port w
    if !s.portAnswers w || s.lowPower then s
    else s.setPort w { p with linkPower := dest, wake := p.wake && dest != .l0 })

end Sys2Proof.Machine
end

