-- ==== Sys2Proof/Machine/EngineRows.lean ====
section
/-! DEFINITION. The engine functions as commands: each begins the EXEC of its function at job `job`'s pc (R133, R137). What the
functions compute is described in Lattice, Hybrid, Hash, HashSig, CodeBased, Classical, Symmetric and CatFns. -/

namespace Sys2Proof.Machine

def execMlkemKeygen (job : Nat) (s : State) : Res := .next (s.beginFn 0x0101 job)
def execMlkemEncaps (job : Nat) (s : State) : Res := .next (s.beginFn 0x0102 job)
def execMlkemDecaps (job : Nat) (s : State) : Res := .next (s.beginFn 0x0103 job)
def execMlkemEncapsk (job : Nat) (s : State) : Res := .next (s.beginFn 0x0104 job)
def execMlkemExportek (job : Nat) (s : State) : Res := .next (s.beginFn 0x0105 job)
def execMlkemImportek (job : Nat) (s : State) : Res := .next (s.beginFn 0x0106 job)

def execMldsaKeygen (job : Nat) (s : State) : Res := .next (s.beginFn 0x0201 job)
def execMldsaSign (job : Nat) (s : State) : Res := .next (s.beginFn 0x0202 job)
def execMldsaVerify (job : Nat) (s : State) : Res := .next (s.beginFn 0x0203 job)
def execMldsaVerifyx (job : Nat) (s : State) : Res := .next (s.beginFn 0x0204 job)
def execMldsaExportpk (job : Nat) (s : State) : Res := .next (s.beginFn 0x0205 job)
def execMldsaImportpk (job : Nat) (s : State) : Res := .next (s.beginFn 0x0206 job)

def execFndsaKeygen (job : Nat) (s : State) : Res := .next (s.beginFn 0x0301 job)
def execFndsaSign (job : Nat) (s : State) : Res := .next (s.beginFn 0x0302 job)
def execFndsaVerify (job : Nat) (s : State) : Res := .next (s.beginFn 0x0303 job)
def execFndsaVerifyx (job : Nat) (s : State) : Res := .next (s.beginFn 0x0304 job)
def execFndsaExportpk (job : Nat) (s : State) : Res := .next (s.beginFn 0x0305 job)
def execFndsaImportpk (job : Nat) (s : State) : Res := .next (s.beginFn 0x0306 job)

def execSlhdsaKeygen (job : Nat) (s : State) : Res := .next (s.beginFn 0x0401 job)
def execSlhdsaSign (job : Nat) (s : State) : Res := .next (s.beginFn 0x0402 job)
def execSlhdsaVerify (job : Nat) (s : State) : Res := .next (s.beginFn 0x0403 job)
def execSlhdsaVerifyx (job : Nat) (s : State) : Res := .next (s.beginFn 0x0404 job)
def execSlhdsaExportpk (job : Nat) (s : State) : Res := .next (s.beginFn 0x0405 job)
def execSlhdsaImportpk (job : Nat) (s : State) : Res := .next (s.beginFn 0x0406 job)

def execLmsKeygen (job : Nat) (s : State) : Res := .next (s.beginFn 0x0501 job)
def execLmsSign (job : Nat) (s : State) : Res := .next (s.beginFn 0x0502 job)
def execLmsVerify (job : Nat) (s : State) : Res := .next (s.beginFn 0x0503 job)
def execLmsVerifyx (job : Nat) (s : State) : Res := .next (s.beginFn 0x0504 job)
def execLmsExportpk (job : Nat) (s : State) : Res := .next (s.beginFn 0x0505 job)
def execLmsImportpk (job : Nat) (s : State) : Res := .next (s.beginFn 0x0506 job)

def execXmssKeygen (job : Nat) (s : State) : Res := .next (s.beginFn 0x0601 job)
def execXmssSign (job : Nat) (s : State) : Res := .next (s.beginFn 0x0602 job)
def execXmssVerify (job : Nat) (s : State) : Res := .next (s.beginFn 0x0603 job)
def execXmssVerifyx (job : Nat) (s : State) : Res := .next (s.beginFn 0x0604 job)
def execXmssExportpk (job : Nat) (s : State) : Res := .next (s.beginFn 0x0605 job)
def execXmssImportpk (job : Nat) (s : State) : Res := .next (s.beginFn 0x0606 job)

def execMcelieceKeygen (job : Nat) (s : State) : Res := .next (s.beginFn 0x0701 job)
def execMcelieceEncaps (job : Nat) (s : State) : Res := .next (s.beginFn 0x0702 job)
def execMcelieceDecaps (job : Nat) (s : State) : Res := .next (s.beginFn 0x0703 job)
def execMcelieceEncapsk (job : Nat) (s : State) : Res := .next (s.beginFn 0x0704 job)
def execMcelieceExportpk (job : Nat) (s : State) : Res := .next (s.beginFn 0x0705 job)
def execMcelieceImportpk (job : Nat) (s : State) : Res := .next (s.beginFn 0x0706 job)
def execMcelieceReside (job : Nat) (s : State) : Res := .next (s.beginFn 0x0707 job)

def execHqcKeygen (job : Nat) (s : State) : Res := .next (s.beginFn 0x0801 job)
def execHqcEncaps (job : Nat) (s : State) : Res := .next (s.beginFn 0x0802 job)
def execHqcDecaps (job : Nat) (s : State) : Res := .next (s.beginFn 0x0803 job)
def execHqcEncapsk (job : Nat) (s : State) : Res := .next (s.beginFn 0x0804 job)
def execHqcExportpk (job : Nat) (s : State) : Res := .next (s.beginFn 0x0805 job)
def execHqcImportpk (job : Nat) (s : State) : Res := .next (s.beginFn 0x0806 job)

def execRsaKeygen (job : Nat) (s : State) : Res := .next (s.beginFn 0x0901 job)
def execRsaSign (job : Nat) (s : State) : Res := .next (s.beginFn 0x0902 job)
def execRsaVerify (job : Nat) (s : State) : Res := .next (s.beginFn 0x0903 job)
def execRsaVerifyx (job : Nat) (s : State) : Res := .next (s.beginFn 0x0904 job)
def execRsaDecrypt (job : Nat) (s : State) : Res := .next (s.beginFn 0x0905 job)
def execRsaEncrypt (job : Nat) (s : State) : Res := .next (s.beginFn 0x0906 job)
def execRsaExportpk (job : Nat) (s : State) : Res := .next (s.beginFn 0x0907 job)
def execRsaImportpk (job : Nat) (s : State) : Res := .next (s.beginFn 0x0908 job)

def execEcKeygen (job : Nat) (s : State) : Res := .next (s.beginFn 0x0A01 job)
def execEcSign (job : Nat) (s : State) : Res := .next (s.beginFn 0x0A02 job)
def execEcVerify (job : Nat) (s : State) : Res := .next (s.beginFn 0x0A03 job)
def execEcVerifyx (job : Nat) (s : State) : Res := .next (s.beginFn 0x0A04 job)
def execEcEphagree (job : Nat) (s : State) : Res := .next (s.beginFn 0x0A05 job)
def execEcAgree (job : Nat) (s : State) : Res := .next (s.beginFn 0x0A06 job)
def execEcExportpk (job : Nat) (s : State) : Res := .next (s.beginFn 0x0A07 job)
def execEcImportpk (job : Nat) (s : State) : Res := .next (s.beginFn 0x0A08 job)
def execEcCurvecheck (job : Nat) (s : State) : Res := .next (s.beginFn 0x0A09 job)

def execDigestHash (job : Nat) (s : State) : Res := .next (s.beginFn 0x0B01 job)
def execDigestCshake (job : Nat) (s : State) : Res := .next (s.beginFn 0x0B02 job)
def execDigestHmac (job : Nat) (s : State) : Res := .next (s.beginFn 0x0B03 job)
def execDigestHmacverify (job : Nat) (s : State) : Res := .next (s.beginFn 0x0B04 job)
def execDigestKmac (job : Nat) (s : State) : Res := .next (s.beginFn 0x0B05 job)
def execDigestKmacverify (job : Nat) (s : State) : Res := .next (s.beginFn 0x0B06 job)
def execDigestHkdf (job : Nat) (s : State) : Res := .next (s.beginFn 0x0B07 job)
def execDigestKdf108 (job : Nat) (s : State) : Res := .next (s.beginFn 0x0B08 job)
def execDigestSbegin (job : Nat) (s : State) : Res := .next (s.beginFn 0x0B10 job)
def execDigestScont (job : Nat) (s : State) : Res := .next (s.beginFn 0x0B11 job)
def execDigestSend (job : Nat) (s : State) : Res := .next (s.beginFn 0x0B12 job)

def execAesEncrypt (job : Nat) (s : State) : Res := .next (s.beginFn 0x0C01 job)
def execAesDecrypt (job : Nat) (s : State) : Res := .next (s.beginFn 0x0C02 job)
def execAesCmac (job : Nat) (s : State) : Res := .next (s.beginFn 0x0C03 job)
def execAesCmacverify (job : Nat) (s : State) : Res := .next (s.beginFn 0x0C04 job)
def execAesAeadseal (job : Nat) (s : State) : Res := .next (s.beginFn 0x0C05 job)
def execAesAeadopen (job : Nat) (s : State) : Res := .next (s.beginFn 0x0C06 job)

def execPayPinxlate (job : Nat) (s : State) : Res := .next (s.beginFn 0x0D01 job)
def execPayDukptxlate (job : Nat) (s : State) : Res := .next (s.beginFn 0x0D02 job)
def execPayDukptderive (job : Nat) (s : State) : Res := .next (s.beginFn 0x0D03 job)
def execPayDukptik (job : Nat) (s : State) : Res := .next (s.beginFn 0x0D04 job)
def execPayKbexport (job : Nat) (s : State) : Res := .next (s.beginFn 0x0D05 job)
def execPayKbimport (job : Nat) (s : State) : Res := .next (s.beginFn 0x0D06 job)

def execRandBytes (job : Nat) (s : State) : Res := .next (s.beginFn 0x0E01 job)

def execCatGenerate (job : Nat) (s : State) : Res := .next (s.beginFn 0x0F01 job)
def execCatImportClear (job : Nat) (s : State) : Res := .next (s.beginFn 0x0F02 job)
def execCatUnwrap (job : Nat) (s : State) : Res := .next (s.beginFn 0x0F03 job)
def execCatWrap (job : Nat) (s : State) : Res := .next (s.beginFn 0x0F04 job)
def execCatWithdraw (job : Nat) (s : State) : Res := .next (s.beginFn 0x0F05 job)
def execCatRevoke (job : Nat) (s : State) : Res := .next (s.beginFn 0x0F06 job)
def execCatPin (job : Nat) (s : State) : Res := .next (s.beginFn 0x0F07 job)
def execCatInfo (job : Nat) (s : State) : Res := .next (s.beginFn 0x0F08 job)
def execCatSync (job : Nat) (s : State) : Res := .next (s.beginFn 0x0F09 job)
def execCatCheckpoint (job : Nat) (s : State) : Res := .next (s.beginFn 0x0F0A job)

def execHybKexcombine (job : Nat) (s : State) : Res := .next (s.beginFn 0x1001 job)
def execHybSign (job : Nat) (s : State) : Res := .next (s.beginFn 0x1002 job)
def execHybVerify (job : Nat) (s : State) : Res := .next (s.beginFn 0x1003 job)
def execHybVerifyx (job : Nat) (s : State) : Res := .next (s.beginFn 0x1004 job)

end Sys2Proof.Machine
end

