-- ==== Sys2Proof/Machine/EntropyRows.lean ====
section
/-! DEFINITION. The entropy chain's commands (R358 to R375). -/

namespace Sys2Proof.Machine

/-- The sources sample: the device is out of reset and not in a low-power state (R369, R520). -/
def State.sampling (s : State) : Bool := !s.boot.inReset && !s.lowPower

/-- The pool that serves a DRBG instance or a masking generator. -/
def drbgPool : Drbg → Pool
  | .curator => .curator
  | .pool w => .wing w
  | .keyGen g | .host g => .wing (galleryWing g)
def maskPool : MaskGen → Pool
  | .gallery g => .wing (galleryWing g)
  | .cluster w => .wing w

/-- What follows once requests may have been served: waiting jobs go on, and the first instantiation of the Curator DRBG keys the links
(R20, R369). -/
def State.served (s : State) : State :=
  let s := s.pumpAll
  if s.drbgOk .curator && !s.cont.linkKeys then s.startLinks else s

/-! ### Sources -/

/-- A sample; the loss of a source lets what waits be looked at again. -/
def execSourceSample (source : Nat) (bit : Bool) (s : State) : Res :=
  .next (if !s.sampling then s
    else if (s.source source).fails bit then (s.sample source bit).served
    else s.sample source bit)

def execBalanceAdjustment (source : Nat) (s : State) : Res :=
  .next (if !s.sampling || !s.sourceExists source then s else (s.balance source).served)

/-- A source that has passed its start-up test counts as healthy (R361). -/
def execSourceStartupComplete (source : Nat) (s : State) : Res :=
  .next (let x := s.source source
    if !s.sampling || !s.sourceExists source || x.phase != .startup || !x.startupDone then s
    else (State.entropyChanged s (s.setSource source { x with phase := .healthy })).served)

def execConditionedBlock (pool : Pool) (s : State) : Res :=
  .next (if !s.sampling then s else (s.formBlock pool).served)

/-! ### Generators (R365) -/

/-- The instance is on this variant. -/
def State.drbgExists (s : State) (d : Drbg) : Bool := s.unitExists (drbgUnit d)
def State.maskExists (s : State) : MaskGen → Bool
  | .gallery g => s.present g
  | .cluster _ => true

/-- Half of an instance's interval has passed. -/
def State.halfInterval (s : State) (x : DrbgState) : Bool :=
  x.requests ≥ drbgIntervalRequests / 2 || s.now - x.reseededAt ≥ drbgIntervalNs / 2
def State.fullInterval (s : State) (x : DrbgState) : Bool := x.requests ≥ drbgIntervalRequests || s.now - x.reseededAt ≥ drbgIntervalNs

def execDrbgReseedRequest (d : Drbg) (s : State) : Res :=
  .next (let x := s.drbg d
    if !x.inst || x.wanted.isSome || !s.halfInterval x then s
    else ((s.setDrbg d { x with wanted := some s.now }).serve (drbgPool d)).served)

def execDrbgIntervalExpiry (d : Drbg) (s : State) : Res :=
  .next (let x := s.drbg d
    if !x.inst || !s.fullInterval x then s
    else s.setDrbg d { x with stopped := true, wanted := some (x.wanted.getD s.now), silentAt := if x.stopped then x.silentAt else s.now })

/-- 2^24 and 2^25 cycles of ENG in ns. -/
def maskReseedNs : Nat := 10485760
def maskStopNs : Nat := 20971520

def execMaskingGeneratorReseed (m : MaskGen) (s : State) : Res :=
  .next (let x := s.maskGen m
    if !x.seeded || x.wanted.isSome || s.now - x.reseededAt < maskReseedNs then s
    else ((s.setMaskGen m { x with wanted := some s.now }).serve (maskPool m)).served)

def execMaskingGeneratorStop (m : MaskGen) (s : State) : Res :=
  .next (let x := s.maskGen m
    if !x.seeded || s.now - x.reseededAt < maskStopNs then s
    else s.setMaskGen m { x with stopped := true, wanted := some (x.wanted.getD s.now) })

/-- Jobs whose EXEC waits to draw from an instance. -/
def State.drawers (s : State) (d : Drbg) : List Nat :=
  (s.jobList.filter fun p =>
    (match p.2.exec with | some e => (match e.stage with | .waitEntropy _ => true | _ => false) | none => false) &&
      (match s.specNow p.2 with | some x => x.rngs.any fun r => s.rngDrbg p.2 r == some d | none => false)).map (·.1)

/-- A known-answer test: an instance that fails is fenced, and the job drawing from it ends with FAULT_DETECTED. -/
def execDrbgKnownAnswerTest (d : Drbg) (passes : Bool) (s : State) : Res :=
  .next (let x := s.drbg d
    if !s.drbgExists d || (s.unit (drbgUnit d)).svc == .fenced || s.boot.inReset || s.tamper.frozen then s
    else if passes then ((s.setDrbg d { x with calls := 0, tested := true }).serve (drbgPool d)).served
    else
      let s := s.forAll (s.drawers d) fun s n => s.endJob n St.faultDetected
      (s.fence (drbgUnit d) 2).pumpAll)

/-! ### Waits and readiness (R368, R369) -/

/-- The wait budget has run out: the job ends with ENTROPY_UNAVAILABLE, and ENTROPY_WAITS counts it. -/
def State.entropyEnds (s : State) (n : Nat) : State :=
  let s := { s with entropy := { s.entropy with waits := sat (2 ^ 32 - 1) (s.entropy.waits + 1) } }
  ((s.logEnding n St.entropyUnavailable).endJob n St.entropyUnavailable).pumpAll

/-- Since when an EXEC that began at `began` has stalled on a masking generator: since its stop point (R365). -/
def State.maskSince (s : State) (m : MaskGen) (began : Nat) : Nat :=
  let x := s.maskGen m
  max began (if x.seeded then x.reseededAt + maskStopNs else 0)

/-- Since when an EXEC that began at `began` waits for an instance: since that went silent (R368). -/
def State.silentSince (s : State) (j : Job) (began : Nat) (r : Rng) : Nat :=
  match s.rngDrbg j r with
  | some d => max began (s.drbg d).silentAt
  | none => match r with
    | .mask => s.maskSince (.gallery j.gallery) began
    | .clusterMask => s.maskSince (.cluster j.wing) began
    | _ => began

/-- A generator that an EXEC draws on has been silent for the budget while the EXEC waits for the tree cache or a leaf. -/
def State.dryFor (s : State) (j : Job) (e : Exec) (x : FnSpec) : Bool :=
  (e.rngs x).any fun r => !s.rngReady j e.began r && s.now ≥ s.silentSince j e.began r + s.waitBudgetNs

/-- An EXEC that has waited for a generator for the budget, or has stalled on a masking generator for it, ends with ENTROPY_UNAVAILABLE
(R191, R368). -/
def execEntropyWaitExpiry (job : Nat) (s : State) : Res :=
  .next (match s.job job with
    | some j =>
      match j.exec, s.specNow j with
      | some e, some x =>
        match e.stage with
        | .waitEntropy t =>
          if s.tamper.frozen || s.now < t + s.waitBudgetNs || s.supplied job j e x then s
          else s.entropyEnds job
        | .waitCache _ | .waitLeaf => if s.tamper.frozen || !s.dryFor j e x then s else s.entropyEnds job
        | .running =>
          if s.tamper.frozen || !(s.silentMasks j e).any (fun m => s.now ≥ s.maskSince m e.began + s.waitBudgetNs) then s
          else s.entropyEnds job
        | _ => s
      | _, _ => s
    | none => s)

/-- Every source, masking generator and instance of a wing has completed its start. -/
def State.wingStarted (s : State) (w : Wing) : Bool :=
  (s.wingGalleries w).all (fun g => (List.range 4).all fun i => (s.source (4 * g + i)).phase != .startup) &&
    (s.poolMasks (.wing w)).all (fun m => (s.maskGen m).seeded) &&
    (s.poolDrbgs (.wing w)).all fun d => (s.drbg d).inst || (s.unit (drbgUnit d)).svc == .fenced

def State.setEntropyReady (s : State) (w : Wing) : State :=
  match w with
  | .west => { s with entropy := { s.entropy with readyW := true } }
  | .east => { s with entropy := { s.entropy with readyE := true } }

def execWingEntropyReady (w : Wing) (s : State) : Res :=
  .next (if s.entropyReady w || !s.reaches w || !s.wingStarted w || !s.sampling then s
    else ((State.entropyChanged s (s.setEntropyReady w)).tryAdmit w).pumpAll)

/-! ### Registers (R362, R374, R375) -/

/-- ENTROPY_READMIT: an isolated source starts again under the start-up test. -/
def execEntropyReadmit (f : Fn) (v : Word32) (s : State) : Res :=
  .next (s.mgmtWrite f 0x160018 fun s =>
    let k := bits32 v 0 7
    if !bit32 v 31 || !s.sourceExists k || (s.source k).phase != .isolated then s
    else s.setSource k { trim := (s.source k).trim })

def State.setLastFail (s : State) (v : Word32) : State := { s with entropy := { s.entropy with lastFail := v } }
def State.setRawFifo (s : State) (l : List Word32) : State := { s with entropy := { s.entropy with rawFifo := l } }

def execEntropyLastfailRead (f : Fn) (s : State) : Res :=
  .next (s.clearRead f 0x160014 s.entropy.lastFail fun s => s.setLastFail 0)

def execEntropyRawdataRead (f : Fn) (s : State) : Res :=
  .next (s.clearRead f 0x160028 (s.entropy.rawFifo.headD 0) fun s => s.setRawFifo (s.entropy.rawFifo.drop 1))

end Sys2Proof.Machine
end

