-- ==== Sys2Proof/Machine/Registers.lean ====
section
/-! DEFINITION. A host register write (R8, R48 to R50): each aligned word of it goes to its register, which may have a command of its own. -/

namespace Sys2Proof.Machine

/-- The state after a meaning, which for a register write is always a next one. -/
def afterRes (r : Res) (s : State) : State := match r with | .next t => t | _ => s

/-- CFGTX_CTRL as a host writes it: begin, else commit, else abort (R477). An item list comes by DMA with the command CFGTX_COMMIT; this
write commits only a transaction without one. -/
def State.cfgtxCtrlWrite (s : State) (f : Fn) (v : Word32) : State :=
  if bit32 v 0 then afterRes (execCfgtxBegin (.host f) s) s
  else if bit32 v 1 then (if s.cfgtx.itemsLen = 0 then afterRes (execCfgtxCommit (.host f) (some []) s) s else s)
  else if bit32 v 2 then afterRes (execCfgtxAbort (.host f) s) s
  else s

/-- A word of a COMPAT page with a command of its own: COMPAT_CMD, or a key word (R351, R354). A write that sets key_clear and start clears the key
first, so that the operation starts with none (DESIGN CHOICE, log entry 43). -/
def State.pageOwnWrite (s : State) (f : Fn) (page o : Nat) (v : Word32) : Option State :=
  if o = 4 then
    some (let s := if bit32 v 1 then afterRes (execCompatKeyClear f page s) s else s
          if bit32 v 0 then afterRes (execCompatStart f page s) s else s)
  else if 0x20 ≤ o && o < 0x40 then some (afterRes (execCompatKeyWrite f page ((o - 0x20) / 4) v s) s)
  else none

/-- A word of a queue's doorbell (R56). -/
def State.doorbellWrite (s : State) (f : Fn) (off : Nat) (v : Word32) : Option State :=
  let o := off - 0x10000
  let q := QSel.io (o / 16)
  match o % 16 with
  | 0 => some (afterRes (execSubmissionDoorbell f q (v.setWidth 16) s) s)
  | 8 => some (afterRes (execCompletionDoorbell f q (v.setWidth 16) s) s)
  | _ => none

/-- A word write to a register whose write has a command of its own. -/
def State.ownWrite (s : State) (f : Fn) (off : Nat) (v : Word32) : Option State :=
  if 0x10000 ≤ off && off < 0x12000 then s.doorbellWrite f off v
  else if 0x1000000 ≤ off && off < 0x1400000 then s.pageOwnWrite f ((off - 0x1000000) / 0x10000) (off % 0x10000) v
  else if 0x120100 ≤ off && off < 0x120240 && off % 16 = 0 then some (afterRes (execEvlogVinfoClear f ((off - 0x120100) / 16) v s) s)
  else match off with
    | 0x001004 => some (afterRes (execFstatCauseClear f v 0 s) s)
    | 0x001008 => some (afterRes (execFstatCauseEnWrite f v s) s)
    | 0x020000 => some (afterRes (if bit32 v 0 then execAdmqEnable f s else execAdmqDisable f s) s)
    | 0x020020 => some (afterRes (execSubmissionDoorbell f .admin (v.setWidth 16) s) s)
    | 0x020028 => some (afterRes (execCompletionDoorbell f .admin (v.setWidth 16) s) s)
    | 0x110000 => some (s.cfgtxCtrlWrite f v)
    | 0x140024 => some (afterRes (execConsPromote f v s) s)
    | 0x140028 => some (afterRes (execConsFence f v s) s)
    | 0x14002C => some (afterRes (execConsReadmit f v s) s)
    | 0x14003C => some (afterRes (execConsRecal f v s) s)
    | 0x140040 => some (afterRes (execConsGreset f v s) s)
    | 0x150008 => some (afterRes (execClkpwrCapWrite f v s) s)
    | 0x15000C => some (if bit32 v 0 then afterRes (execClkpwrRevert f s) s else s)
    | 0x150010 =>
      some (match bits32 v 0 2 with
        | 0 => afterRes (execActiveRequest f s) s
        | 2 => afterRes (execStandbyRequest f s) s
        | _ => s)
    | 0x150034 => some (afterRes (execClkpwrRtcSet f v s) s)
    | 0x150038 => some (afterRes (execClkpwrRtcSlew f v s) s)
    | 0x160018 => some (afterRes (execEntropyReadmit f v s) s)
    | 0x170060 => some (afterRes (execStoreRetire f v s) s)
    | 0x180020 => some (afterRes (execLedgerQslotWrite f v s) s)
    | _ => none

/-- A word write at BAR0: the register's own command, or the plain write. -/
def State.wordWrite (s : State) (f : Fn) (off : Nat) (v : Word32) : State := (s.ownWrite f off v).getD (s.bar0Write f off v)

/-- A register write of the host: within the BAR (R48), of a size and alignment that R50 allows. A port that is not ready answers no
configuration write (R70). -/
def execRegisterWrite (f : Fn) (sp : Space) (off size : Nat) (v : Word64) (s : State) : Res :=
  .next (match sp with
    | .bar0 => if off ≥ barSize f sp then s else s.access f fun s => s.sizedWrite f off size v fun s off v => s.wordWrite f off v
    | .bar2 => if off ≥ barSize f sp then s else s.access f fun s => s.sizedWrite f off size v fun s off v => s.msixWrite f off v
    | .msixEnable => s.configRequest f fun s => (s.modFn f fun x => { x with msixEnable := v.getLsbD 0 }).sendPending f
    | .vfEnable =>
      s.configRequest f fun s => if !isPf f || !v.getLsbD 0 then s else s.setPort f.port { s.port f.port with vfEnable := true }
    | .deviceControl => s.configRequest f fun s => if isPf f then s.deviceControl f.port v else s
    | .deviceControl2 => s.configRequest f fun s => if isPf f then s.deviceControl2 f.port v else s)

end Sys2Proof.Machine
end

