-- ==== Sys2Proof/Machine/Dispatch.lean ====
section
/-! DEFINITION. The one place that gives each command its meaning: one arm per constructor, each a direct call. -/

namespace Sys2Proof.Machine

/-- The effect of a command on everything but the queue. -/
def exec (i : Instr) (s : State) : Host.Outcome State Fault Refusal :=
  match i with
  -- Host registers (02_host_ports.md)
  | .registerWrite f sp off size v => Sys2Proof.Machine.execRegisterWrite f sp off size v s
  | .txFieldWrite by_ off v => Sys2Proof.Machine.execTxFieldWrite by_ off v s
  | .submissionDoorbell f q index => Sys2Proof.Machine.execSubmissionDoorbell f q index s
  | .completionDoorbell f q index => Sys2Proof.Machine.execCompletionDoorbell f q index s
  | .fstatCauseClear f v coincident => Sys2Proof.Machine.execFstatCauseClear f v coincident s
  | .fstatCauseEnWrite f v => Sys2Proof.Machine.execFstatCauseEnWrite f v s
  | .fstatErrRead f => Sys2Proof.Machine.execFstatErrRead f s
  | .fstatErrAddrRead f => Sys2Proof.Machine.execFstatErrAddrRead f s
  | .fstatQerrRead f => Sys2Proof.Machine.execFstatQerrRead f s
  | .admqEnable f => Sys2Proof.Machine.execAdmqEnable f s
  | .admqDisable f => Sys2Proof.Machine.execAdmqDisable f s
  | .msixUnmask f vector => Sys2Proof.Machine.execMsixUnmask f vector s
  | .moderationTimerExpiry f q => Sys2Proof.Machine.execModerationTimerExpiry f q s
  -- Admin commands (03_collections_and_queues.md); `dmaFails` says that the DMA to data_addr failed (R81)
  | .identify f dmaFails => Sys2Proof.Machine.execIdentify f dmaFails s
  | .createCollection f => Sys2Proof.Machine.execCreateCollection f s
  | .deleteCollection f => Sys2Proof.Machine.execDeleteCollection f s
  | .setCollectionLimits f => Sys2Proof.Machine.execSetCollectionLimits f s
  | .bindFunction f => Sys2Proof.Machine.execBindFunction f s
  | .unbindFunction f => Sys2Proof.Machine.execUnbindFunction f s
  | .deviceReset f => Sys2Proof.Machine.execDeviceReset f s
  | .createQueue f => Sys2Proof.Machine.execCreateQueue f s
  | .deleteQueue f => Sys2Proof.Machine.execDeleteQueue f s
  | .deleteQueueDrainComplete f q => Sys2Proof.Machine.execDeleteQueueDrainComplete f q s
  | .setModeration f => Sys2Proof.Machine.execSetModeration f s
  | .getQueueState f dmaFails => Sys2Proof.Machine.execGetQueueState f dmaFails s
  -- Port events
  | .perstAssert w => Sys2Proof.Machine.execPerstAssert w s
  | .perstDeassert x => Sys2Proof.Machine.execPerstDeassert x s
  | .configurationReady w => Sys2Proof.Machine.execConfigurationReady w s
  | .functionLevelReset scope => Sys2Proof.Machine.execFunctionLevelReset scope s
  | .busMasterEnableClear f => Sys2Proof.Machine.execBusMasterEnableClear f s
  | .busMasterEnableSet f => Sys2Proof.Machine.execBusMasterEnableSet f s
  | .ideStreamFail w stream => Sys2Proof.Machine.execIdeStreamFail w stream s
  | .dmaReadCompletion job read data => Sys2Proof.Machine.execDmaReadCompletion job read data s
  | .dmaReadFailure target kind => Sys2Proof.Machine.execDmaReadFailure target kind s
  | .dmaWriteInternalError target => Sys2Proof.Machine.execDmaWriteInternalError target s
  | .portUncorrectableError w => Sys2Proof.Machine.execPortUncorrectableError w s
  | .doeSpdmRequest w req => Sys2Proof.Machine.execDoeSpdmRequest w req s
  | .getMeasurements via index ask => Sys2Proof.Machine.execGetMeasurements via index ask s
  | .mctpControl ep msg => Sys2Proof.Machine.execMctpControl ep msg s
  | .mctpSpdm ep req => Sys2Proof.Machine.execMctpSpdm ep req s
  | .mctpRegisterRead ep f off => Sys2Proof.Machine.execMctpRegisterRead ep f off s
  | .mctpDeviceReset ep => Sys2Proof.Machine.execMctpDeviceReset ep s
  -- Dispatch
  | .dispatchDecision w => Sys2Proof.Machine.execDispatchDecision w s
  | .entryFetchComplete f q entry => Sys2Proof.Machine.execEntryFetchComplete f q entry s
  | .programStart job fetch => Sys2Proof.Machine.execProgramStart job fetch s
  -- Damob instructions: job j executes the instruction at its pc (04_damob_reference.md)
  | .insNop job => Sys2Proof.Machine.execInsNop job s
  | .insEnd job => Sys2Proof.Machine.execInsEnd job s
  | .insBr job => Sys2Proof.Machine.execInsBr job s
  | .insMovi job => Sys2Proof.Machine.execInsMovi job s
  | .insMovhi job => Sys2Proof.Machine.execInsMovhi job s
  | .insMov job => Sys2Proof.Machine.execInsMov job s
  | .insAdd job => Sys2Proof.Machine.execInsAdd job s
  | .insAddi job => Sys2Proof.Machine.execInsAddi job s
  | .insSub job => Sys2Proof.Machine.execInsSub job s
  | .insAnd job => Sys2Proof.Machine.execInsAnd job s
  | .insOr job => Sys2Proof.Machine.execInsOr job s
  | .insXor job => Sys2Proof.Machine.execInsXor job s
  | .insShl job => Sys2Proof.Machine.execInsShl job s
  | .insShr job => Sys2Proof.Machine.execInsShr job s
  | .insCmp job => Sys2Proof.Machine.execInsCmp job s
  | .insCmpi job => Sys2Proof.Machine.execInsCmpi job s
  | .insLdp job => Sys2Proof.Machine.execInsLdp job s
  | .insLdb job => Sys2Proof.Machine.execInsLdb job s
  | .insLoan job => Sys2Proof.Machine.execInsLoan job s
  | .insLoanp job => Sys2Proof.Machine.execInsLoanp job s
  | .loanGrant job => Sys2Proof.Machine.execLoanGrant job s
  | .insReturn job => Sys2Proof.Machine.execInsReturn job s
  | .insBuf job => Sys2Proof.Machine.execInsBuf job s
  | .insBslice job => Sys2Proof.Machine.execInsBslice job s
  | .insBlen job => Sys2Proof.Machine.execInsBlen job s
  | .insBind job => Sys2Proof.Machine.execInsBind job s
  | .insEndb job how => Sys2Proof.Machine.execInsEndb job how s
  | .instructionBudgetExhausted job => Sys2Proof.Machine.execInstructionBudgetExhausted job s
  | .engineOperationComplete job ev => Sys2Proof.Machine.execEngineOperationComplete job ev s
  | .engineWipeComplete gallery kind => Sys2Proof.Machine.execEngineWipeComplete gallery kind s
  | .jobPreemption res higher => Sys2Proof.Machine.execJobPreemption res higher s
  | .suspendedJobResume job => Sys2Proof.Machine.execSuspendedJobResume job s
  -- Engine functions: job j begins the EXEC at its pc
  | .mlkemKeygen job => Sys2Proof.Machine.execMlkemKeygen job s
  | .mlkemEncaps job => Sys2Proof.Machine.execMlkemEncaps job s
  | .mlkemDecaps job => Sys2Proof.Machine.execMlkemDecaps job s
  | .mlkemEncapsk job => Sys2Proof.Machine.execMlkemEncapsk job s
  | .mlkemExportek job => Sys2Proof.Machine.execMlkemExportek job s
  | .mlkemImportek job => Sys2Proof.Machine.execMlkemImportek job s
  | .mldsaKeygen job => Sys2Proof.Machine.execMldsaKeygen job s
  | .mldsaSign job => Sys2Proof.Machine.execMldsaSign job s
  | .mldsaVerify job => Sys2Proof.Machine.execMldsaVerify job s
  | .mldsaVerifyx job => Sys2Proof.Machine.execMldsaVerifyx job s
  | .mldsaExportpk job => Sys2Proof.Machine.execMldsaExportpk job s
  | .mldsaImportpk job => Sys2Proof.Machine.execMldsaImportpk job s
  | .fndsaKeygen job => Sys2Proof.Machine.execFndsaKeygen job s
  | .fndsaSign job => Sys2Proof.Machine.execFndsaSign job s
  | .fndsaVerify job => Sys2Proof.Machine.execFndsaVerify job s
  | .fndsaVerifyx job => Sys2Proof.Machine.execFndsaVerifyx job s
  | .fndsaExportpk job => Sys2Proof.Machine.execFndsaExportpk job s
  | .fndsaImportpk job => Sys2Proof.Machine.execFndsaImportpk job s
  | .hybKexcombine job => Sys2Proof.Machine.execHybKexcombine job s
  | .hybSign job => Sys2Proof.Machine.execHybSign job s
  | .hybVerify job => Sys2Proof.Machine.execHybVerify job s
  | .hybVerifyx job => Sys2Proof.Machine.execHybVerifyx job s
  | .digestHash job => Sys2Proof.Machine.execDigestHash job s
  | .digestCshake job => Sys2Proof.Machine.execDigestCshake job s
  | .digestHmac job => Sys2Proof.Machine.execDigestHmac job s
  | .digestHmacverify job => Sys2Proof.Machine.execDigestHmacverify job s
  | .digestKmac job => Sys2Proof.Machine.execDigestKmac job s
  | .digestKmacverify job => Sys2Proof.Machine.execDigestKmacverify job s
  | .digestHkdf job => Sys2Proof.Machine.execDigestHkdf job s
  | .digestKdf108 job => Sys2Proof.Machine.execDigestKdf108 job s
  | .digestSbegin job => Sys2Proof.Machine.execDigestSbegin job s
  | .digestScont job => Sys2Proof.Machine.execDigestScont job s
  | .digestSend job => Sys2Proof.Machine.execDigestSend job s
  | .slhdsaKeygen job => Sys2Proof.Machine.execSlhdsaKeygen job s
  | .slhdsaSign job => Sys2Proof.Machine.execSlhdsaSign job s
  | .slhdsaVerify job => Sys2Proof.Machine.execSlhdsaVerify job s
  | .slhdsaVerifyx job => Sys2Proof.Machine.execSlhdsaVerifyx job s
  | .slhdsaExportpk job => Sys2Proof.Machine.execSlhdsaExportpk job s
  | .slhdsaImportpk job => Sys2Proof.Machine.execSlhdsaImportpk job s
  | .lmsKeygen job => Sys2Proof.Machine.execLmsKeygen job s
  | .lmsSign job => Sys2Proof.Machine.execLmsSign job s
  | .lmsVerify job => Sys2Proof.Machine.execLmsVerify job s
  | .lmsVerifyx job => Sys2Proof.Machine.execLmsVerifyx job s
  | .lmsExportpk job => Sys2Proof.Machine.execLmsExportpk job s
  | .lmsImportpk job => Sys2Proof.Machine.execLmsImportpk job s
  | .xmssKeygen job => Sys2Proof.Machine.execXmssKeygen job s
  | .xmssSign job => Sys2Proof.Machine.execXmssSign job s
  | .xmssVerify job => Sys2Proof.Machine.execXmssVerify job s
  | .xmssVerifyx job => Sys2Proof.Machine.execXmssVerifyx job s
  | .xmssExportpk job => Sys2Proof.Machine.execXmssExportpk job s
  | .xmssImportpk job => Sys2Proof.Machine.execXmssImportpk job s
  -- The leaf ledger and the tree cache (08_hash_signatures_and_ledger.md)
  | .leafReservation w slot readbackFailures => Sys2Proof.Machine.execLeafReservation w slot readbackFailures s
  | .issuerPositionReport w => Sys2Proof.Machine.execIssuerPositionReport w s
  | .treeSubtreeGeneration slot checkTrips => Sys2Proof.Machine.execTreeSubtreeGeneration slot checkTrips s
  | .treeCacheRebuild r => Sys2Proof.Machine.execTreeCacheRebuild r s
  | .signCacheWaitExpiry job => Sys2Proof.Machine.execSignCacheWaitExpiry job s
  | .ledgerQslotWrite f v => Sys2Proof.Machine.execLedgerQslotWrite f v s
  | .ledgerLowSlotRead f => Sys2Proof.Machine.execLedgerLowSlotRead f s
  -- Code-based and classical engines
  | .mcelieceKeygen job => Sys2Proof.Machine.execMcelieceKeygen job s
  | .mcelieceEncaps job => Sys2Proof.Machine.execMcelieceEncaps job s
  | .mcelieceDecaps job => Sys2Proof.Machine.execMcelieceDecaps job s
  | .mcelieceEncapsk job => Sys2Proof.Machine.execMcelieceEncapsk job s
  | .mcelieceExportpk job => Sys2Proof.Machine.execMcelieceExportpk job s
  | .mcelieceImportpk job => Sys2Proof.Machine.execMcelieceImportpk job s
  | .mcelieceReside job => Sys2Proof.Machine.execMcelieceReside job s
  | .queuedResideLoad gallery => Sys2Proof.Machine.execQueuedResideLoad gallery s
  | .residentKeyReload gallery => Sys2Proof.Machine.execResidentKeyReload gallery s
  | .hqcKeygen job => Sys2Proof.Machine.execHqcKeygen job s
  | .hqcEncaps job => Sys2Proof.Machine.execHqcEncaps job s
  | .hqcDecaps job => Sys2Proof.Machine.execHqcDecaps job s
  | .hqcEncapsk job => Sys2Proof.Machine.execHqcEncapsk job s
  | .hqcExportpk job => Sys2Proof.Machine.execHqcExportpk job s
  | .hqcImportpk job => Sys2Proof.Machine.execHqcImportpk job s
  | .rsaKeygen job => Sys2Proof.Machine.execRsaKeygen job s
  | .rsaSign job => Sys2Proof.Machine.execRsaSign job s
  | .rsaVerify job => Sys2Proof.Machine.execRsaVerify job s
  | .rsaVerifyx job => Sys2Proof.Machine.execRsaVerifyx job s
  | .rsaDecrypt job => Sys2Proof.Machine.execRsaDecrypt job s
  | .rsaEncrypt job => Sys2Proof.Machine.execRsaEncrypt job s
  | .rsaExportpk job => Sys2Proof.Machine.execRsaExportpk job s
  | .rsaImportpk job => Sys2Proof.Machine.execRsaImportpk job s
  | .ecKeygen job => Sys2Proof.Machine.execEcKeygen job s
  | .ecSign job => Sys2Proof.Machine.execEcSign job s
  | .ecVerify job => Sys2Proof.Machine.execEcVerify job s
  | .ecVerifyx job => Sys2Proof.Machine.execEcVerifyx job s
  | .ecEphagree job => Sys2Proof.Machine.execEcEphagree job s
  | .ecAgree job => Sys2Proof.Machine.execEcAgree job s
  | .ecExportpk job => Sys2Proof.Machine.execEcExportpk job s
  | .ecImportpk job => Sys2Proof.Machine.execEcImportpk job s
  | .ecCurvecheck job => Sys2Proof.Machine.execEcCurvecheck job s
  -- Symmetric, payment, random and catalogue functions
  | .aesEncrypt job => Sys2Proof.Machine.execAesEncrypt job s
  | .aesDecrypt job => Sys2Proof.Machine.execAesDecrypt job s
  | .aesCmac job => Sys2Proof.Machine.execAesCmac job s
  | .aesCmacverify job => Sys2Proof.Machine.execAesCmacverify job s
  | .aesAeadseal job => Sys2Proof.Machine.execAesAeadseal job s
  | .aesAeadopen job => Sys2Proof.Machine.execAesAeadopen job s
  | .payPinxlate job => Sys2Proof.Machine.execPayPinxlate job s
  | .payDukptxlate job => Sys2Proof.Machine.execPayDukptxlate job s
  | .payDukptderive job => Sys2Proof.Machine.execPayDukptderive job s
  | .payDukptik job => Sys2Proof.Machine.execPayDukptik job s
  | .payKbexport job => Sys2Proof.Machine.execPayKbexport job s
  | .payKbimport job => Sys2Proof.Machine.execPayKbimport job s
  | .randBytes job => Sys2Proof.Machine.execRandBytes job s
  | .catGenerate job => Sys2Proof.Machine.execCatGenerate job s
  | .catImportClear job => Sys2Proof.Machine.execCatImportClear job s
  | .catUnwrap job => Sys2Proof.Machine.execCatUnwrap job s
  | .catWrap job => Sys2Proof.Machine.execCatWrap job s
  | .catWithdraw job => Sys2Proof.Machine.execCatWithdraw job s
  | .catRevoke job => Sys2Proof.Machine.execCatRevoke job s
  | .catPin job => Sys2Proof.Machine.execCatPin job s
  | .catInfo job => Sys2Proof.Machine.execCatInfo job s
  | .catSync job => Sys2Proof.Machine.execCatSync job s
  | .catCheckpoint job => Sys2Proof.Machine.execCatCheckpoint job s
  -- The Registrar's acts
  | .revocationOrder w coll index gen => Sys2Proof.Machine.execRevocationOrder w coll index gen s
  | .revocationAck w coll index gen => Sys2Proof.Machine.execRevocationAck w coll index gen s
  | .leaseRenewal loan => Sys2Proof.Machine.execLeaseRenewal loan s
  | .leaseExpiry loan => Sys2Proof.Machine.execLeaseExpiry loan s
  | .provenanceWalk coll index gen => Sys2Proof.Machine.execProvenanceWalk coll index gen s
  | .invalidatedAncestorRelease coll index gen => Sys2Proof.Machine.execInvalidatedAncestorRelease coll index gen s
  | .sealIntervalExpiry => Sys2Proof.Machine.execSealIntervalExpiry s
  | .sealWrite => Sys2Proof.Machine.execSealWrite s
  | .checkpointEnd => Sys2Proof.Machine.execCheckpointEnd s
  -- Journal and restore messages; the parameters are the bytes read from the sender's buffer
  | .journalConfig m params => Sys2Proof.Machine.execJournalConfig m params s
  | .journalAck m params => Sys2Proof.Machine.execJournalAck m params s
  | .journalStatus m params => Sys2Proof.Machine.execJournalStatus m params s
  | .restoreBegin m params => Sys2Proof.Machine.execRestoreBegin m params s
  | .restoreBlock m params block => Sys2Proof.Machine.execRestoreBlock m params block s
  | .restoreEnd m params => Sys2Proof.Machine.execRestoreEnd m params s
  | .acceptLoss m params => Sys2Proof.Machine.execAcceptLoss m params s
  -- Boot, lifecycle and debug messages (14_boot_lifecycle_attestation.md)
  | .identity m params => Sys2Proof.Machine.execIdentity m params s
  | .nonce m params => Sys2Proof.Machine.execNonce m params s
  | .nonceExpiry index => Sys2Proof.Machine.execNonceExpiry index s
  | .quorumSubmit m params => Sys2Proof.Machine.execQuorumSubmit m params s
  | .quorumAuthorisationExpiry index => Sys2Proof.Machine.execQuorumAuthorisationExpiry index s
  | .takeOwnership m params => Sys2Proof.Machine.execTakeOwnership m params s
  | .certInstall m params => Sys2Proof.Machine.execCertInstall m params s
  | .decommission m params => Sys2Proof.Machine.execDecommission m params s
  | .transfer m params => Sys2Proof.Machine.execTransfer m params s
  | .scrap m params => Sys2Proof.Machine.execScrap m params s
  | .floorRaise m params => Sys2Proof.Machine.execFloorRaise m params s
  | .flashWrite m params => Sys2Proof.Machine.execFlashWrite m params s
  | .slotPrefer m params => Sys2Proof.Machine.execSlotPrefer m params s
  | .debugChallenge m params => Sys2Proof.Machine.execDebugChallenge m params s
  | .debugUnlock m params => Sys2Proof.Machine.execDebugUnlock m params s
  | .debugLock m params => Sys2Proof.Machine.execDebugLock m params s
  | .provision m params => Sys2Proof.Machine.execProvision m params s
  | .pwronRstAssert => Sys2Proof.Machine.execPwronRstAssert s
  | .pwronRstRelease straps => Sys2Proof.Machine.execPwronRstRelease straps s
  | .bootImageAccept type => Sys2Proof.Machine.execBootImageAccept type s
  | .ledgerRebuild => Sys2Proof.Machine.execLedgerRebuild s
  -- Entropy (12_entropy.md)
  | .sourceSample source bit => Sys2Proof.Machine.execSourceSample source bit s
  | .balanceAdjustment source => Sys2Proof.Machine.execBalanceAdjustment source s
  | .sourceStartupComplete source => Sys2Proof.Machine.execSourceStartupComplete source s
  | .conditionedBlock pool => Sys2Proof.Machine.execConditionedBlock pool s
  | .drbgReseedRequest d => Sys2Proof.Machine.execDrbgReseedRequest d s
  | .drbgIntervalExpiry d => Sys2Proof.Machine.execDrbgIntervalExpiry d s
  | .maskingGeneratorReseed m => Sys2Proof.Machine.execMaskingGeneratorReseed m s
  | .maskingGeneratorStop m => Sys2Proof.Machine.execMaskingGeneratorStop m s
  | .drbgKnownAnswerTest d passes => Sys2Proof.Machine.execDrbgKnownAnswerTest d passes s
  | .entropyWaitExpiry job => Sys2Proof.Machine.execEntropyWaitExpiry job s
  | .wingEntropyReady w => Sys2Proof.Machine.execWingEntropyReady w s
  | .entropyReadmit f v => Sys2Proof.Machine.execEntropyReadmit f v s
  | .entropyLastfailRead f => Sys2Proof.Machine.execEntropyLastfailRead f s
  | .entropyRawdataRead f => Sys2Proof.Machine.execEntropyRawdataRead f s
  -- Storeroom (13_storeroom.md)
  | .tileRead t fetch job => Sys2Proof.Machine.execTileRead t fetch job s
  | .tileWrite t data job => Sys2Proof.Machine.execTileWrite t data job s
  | .nodeWriteback w level node => Sys2Proof.Machine.execNodeWriteback w level node s
  | .rootUpdate w node => Sys2Proof.Machine.execRootUpdate w node s
  | .peerFallbackRead t fetch job => Sys2Proof.Machine.execPeerFallbackRead t fetch job s
  | .patrolScrub t fetch => Sys2Proof.Machine.execPatrolScrub t fetch s
  | .tileRehome t => Sys2Proof.Machine.execTileRehome t s
  | .channelRetirementRequest c => Sys2Proof.Machine.execChannelRetirementRequest c s
  | .storeRetire f v => Sys2Proof.Machine.execStoreRetire f v s
  | .retirementCopyComplete c => Sys2Proof.Machine.execRetirementCopyComplete c s
  | .channelFailure c => Sys2Proof.Machine.execChannelFailure c s
  | .channelTrainingComplete c found => Sys2Proof.Machine.execChannelTrainingComplete c found s
  | .zqCalibration c => Sys2Proof.Machine.execZqCalibration c s
  | .storeroomInitComplete w => Sys2Proof.Machine.execStoreroomInitComplete w s
  | .mirrorRefreshComplete w => Sys2Proof.Machine.execMirrorRefreshComplete w s
  | .storeCeRead f c => Sys2Proof.Machine.execStoreCeRead f c s
  | .storeUeRead f c => Sys2Proof.Machine.execStoreUeRead f c s
  | .storeIntegRead f => Sys2Proof.Machine.execStoreIntegRead f s
  | .storeLastfailRead f => Sys2Proof.Machine.execStoreLastfailRead f s
  -- Tamper and standing orders (15_tamper_and_standing_orders.md)
  | .tamperSensorTrip trip => Sys2Proof.Machine.execTamperSensorTrip trip s
  | .railRecoveryExpiry die recovered => Sys2Proof.Machine.execRailRecoveryExpiry die recovered s
  | .freezeWireAssert die => Sys2Proof.Machine.execFreezeWireAssert die s
  | .orderApply => Sys2Proof.Machine.execOrderApply s
  | .reportPhase => Sys2Proof.Machine.execReportPhase s
  | .mramEraseComplete => Sys2Proof.Machine.execMramEraseComplete s
  | .batteryDomainAlarm trip => Sys2Proof.Machine.execBatteryDomainAlarm trip s
  | .tamperClear m params => Sys2Proof.Machine.execTamperClear m params s
  | .orderInstall m params => Sys2Proof.Machine.execOrderInstall m params s
  | .erase m params => Sys2Proof.Machine.execErase m params s
  | .orderRead m params => Sys2Proof.Machine.execOrderRead m params s
  | .standingOrderEffective kind => Sys2Proof.Machine.execStandingOrderEffective kind s
  -- Service continuity (16_conservation_and_change.md)
  | .unitFence u cause => Sys2Proof.Machine.execUnitFence u cause s
  | .errorCountDecay u => Sys2Proof.Machine.execErrorCountDecay u s
  | .unitHandshakeTimeout u => Sys2Proof.Machine.execUnitHandshakeTimeout u s
  | .unitKnownAnswerTest u passes => Sys2Proof.Machine.execUnitKnownAnswerTest u passes s
  | .recalibration u => Sys2Proof.Machine.execRecalibration u s
  | .consRecal f v => Sys2Proof.Machine.execConsRecal f v s
  | .sparePromotion u => Sys2Proof.Machine.execSparePromotion u s
  | .consPromote f v => Sys2Proof.Machine.execConsPromote f v s
  | .consFence f v => Sys2Proof.Machine.execConsFence f v s
  | .consReadmit f v => Sys2Proof.Machine.execConsReadmit f v s
  | .unitReadmitComplete u passes => Sys2Proof.Machine.execUnitReadmitComplete u passes s
  | .consGreset f v => Sys2Proof.Machine.execConsGreset f v s
  | .galleryReset gallery => Sys2Proof.Machine.execGalleryReset gallery s
  | .galleryResetComplete gallery => Sys2Proof.Machine.execGalleryResetComplete gallery s
  | .consEventRead f => Sys2Proof.Machine.execConsEventRead f s
  | .consFencedTrafficRead f => Sys2Proof.Machine.execConsFencedTrafficRead f s
  | .consLinkdownRead f => Sys2Proof.Machine.execConsLinkdownRead f s
  | .staleFlitDrop u gen => Sys2Proof.Machine.execStaleFlitDrop u gen s
  | .voteDisagreement vote => Sys2Proof.Machine.execVoteDisagreement vote s
  | .heartbeatSend l e => Sys2Proof.Machine.execHeartbeatSend l e s
  | .linkDownDeclare l e => Sys2Proof.Machine.execLinkDownDeclare l e s
  | .linkRetrain l => Sys2Proof.Machine.execLinkRetrain l s
  | .linkUpDeclare l => Sys2Proof.Machine.execLinkUpDeclare l s
  | .orphanDetect w => Sys2Proof.Machine.execOrphanDetect w s
  | .orphanHalt w => Sys2Proof.Machine.execOrphanHalt w s
  | .bothWingsLost => Sys2Proof.Machine.execBothWingsLost s
  | .wingReadmission w => Sys2Proof.Machine.execWingReadmission w s
  | .wingReset w => Sys2Proof.Machine.execWingReset w s
  | .cfgtxBegin by_ => Sys2Proof.Machine.execCfgtxBegin by_ s
  | .cfgtxCommit by_ items => Sys2Proof.Machine.execCfgtxCommit by_ items s
  | .cfgtxAbort by_ => Sys2Proof.Machine.execCfgtxAbort by_ s
  | .cfgtxDrainComplete => Sys2Proof.Machine.execCfgtxDrainComplete s
  | .cfgtxDrainTimeout => Sys2Proof.Machine.execCfgtxDrainTimeout s
  | .cfgtxIdleExpiry => Sys2Proof.Machine.execCfgtxIdleExpiry s
  | .microcodeBankLoad u verifies => Sys2Proof.Machine.execMicrocodeBankLoad u verifies s
  | .bnslotRepartition gallery => Sys2Proof.Machine.execBnslotRepartition gallery s
  | .handoverBegin m params => Sys2Proof.Machine.execHandoverBegin m params s
  | .handoverStatus m params => Sys2Proof.Machine.execHandoverStatus m params s
  | .handoverPending => Sys2Proof.Machine.execHandoverPending s
  | .handoverPauseStart => Sys2Proof.Machine.execHandoverPauseStart s
  | .handoverSwitch startChecksPass => Sys2Proof.Machine.execHandoverSwitch startChecksPass s
  -- Docents and access units (17_docents_and_access.md)
  | .docentClusterReset w => Sys2Proof.Machine.execDocentClusterReset w s
  | .docentSqTailWrite w core q user tail => Sys2Proof.Machine.execDocentSqTailWrite w core q user tail s
  | .docentCqHeadWrite w core q user head => Sys2Proof.Machine.execDocentCqHeadWrite w core q user head s
  | .dqCtrlWrite w core q off v => Sys2Proof.Machine.execDqCtrlWrite w core q off v s
  | .docentAccess w core acc gate => Sys2Proof.Machine.execDocentAccess w core acc gate s
  | .docentDmaBurst w acc gate => Sys2Proof.Machine.execDocentDmaBurst w acc gate s
  | .debugPortAccess w acc gate => Sys2Proof.Machine.execDebugPortAccess w acc gate s
  | .auRegisterWrite w master unit off v => Sys2Proof.Machine.execAuRegisterWrite w master unit off v s
  | .auVinfoClear w master v => Sys2Proof.Machine.execAuVinfoClear w master v s
  | .auVcountRead w master => Sys2Proof.Machine.execAuVcountRead w master s
  | .evlogVinfoClear f m v => Sys2Proof.Machine.execEvlogVinfoClear f m v s
  | .jtagInstruction ins => Sys2Proof.Machine.execJtagInstruction ins s
  -- Custodian cards (18_card_interface.md)
  | .cardInsertion slot => Sys2Proof.Machine.execCardInsertion slot s
  | .cardRemoval slot => Sys2Proof.Machine.execCardRemoval slot s
  | .cardActivate slot => Sys2Proof.Machine.execCardActivate slot s
  | .cardDeactivate slot => Sys2Proof.Machine.execCardDeactivate slot s
  | .cardWarmReset slot => Sys2Proof.Machine.execCardWarmReset slot s
  | .cardStart slot => Sys2Proof.Machine.execCardStart slot s
  | .cardClkStop slot => Sys2Proof.Machine.execCardClkStop slot s
  | .cardWake slot => Sys2Proof.Machine.execCardWake slot s
  | .cardAbort slot => Sys2Proof.Machine.execCardAbort slot s
  | .cardCharacterReceive slot b parityOk => Sys2Proof.Machine.execCardCharacterReceive slot b parityOk s
  | .cardVccTimeout slot => Sys2Proof.Machine.execCardVccTimeout slot s
  | .cardAtrTimeout slot => Sys2Proof.Machine.execCardAtrTimeout slot s
  | .cardClassBRetry slot => Sys2Proof.Machine.execCardClassBRetry slot s
  | .cardWaitingTimeExpiry slot => Sys2Proof.Machine.execCardWaitingTimeExpiry slot s
  | .cardDeactivationComplete slot => Sys2Proof.Machine.execCardDeactivationComplete slot s
  | .cardResultRead slot => Sys2Proof.Machine.execCardResultRead slot s
  | .cardIrqClear slot v => Sys2Proof.Machine.execCardIrqClear slot v s
  -- Clocks and power (19_clocks_and_power.md)
  | .referenceMissing die src => Sys2Proof.Machine.execReferenceMissing die src s
  | .frequencyWindow die win => Sys2Proof.Machine.execFrequencyWindow die win s
  | .xtalStartDelayExpiry die => Sys2Proof.Machine.execXtalStartDelayExpiry die s
  | .clockSwitch die dest forced => Sys2Proof.Machine.execClockSwitch die dest forced s
  | .pllLock die pauseUs => Sys2Proof.Machine.execPllLock die pauseUs s
  | .clkpwrRevert f => Sys2Proof.Machine.execClkpwrRevert f s
  | .autoRevert die => Sys2Proof.Machine.execAutoRevert die s
  | .wingIdleEntry w => Sys2Proof.Machine.execWingIdleEntry w s
  | .standbyRequest f => Sys2Proof.Machine.execStandbyRequest f s
  | .standbyDrainTimeout => Sys2Proof.Machine.execStandbyDrainTimeout s
  | .standbyEntry => Sys2Proof.Machine.execStandbyEntry s
  | .activeRequest f => Sys2Proof.Machine.execActiveRequest f s
  | .powerEstimate mw10 => Sys2Proof.Machine.execPowerEstimate mw10 s
  | .thermalSample west east curator => Sys2Proof.Machine.execThermalSample west east curator s
  | .thermalThrottleStep => Sys2Proof.Machine.execThermalThrottleStep s
  | .clkpwrCapWrite f v => Sys2Proof.Machine.execClkpwrCapWrite f v s
  | .clkpwrSwitchesRead f => Sys2Proof.Machine.execClkpwrSwitchesRead f s
  | .clkpwrRtcSet f v => Sys2Proof.Machine.execClkpwrRtcSet f v s
  | .clkpwrRtcSlew f v => Sys2Proof.Machine.execClkpwrRtcSlew f v s
  | .avsVoltageWrite w millivolt answer => Sys2Proof.Machine.execAvsVoltageWrite w millivolt answer s
  | .gpioWrite w out oe => Sys2Proof.Machine.execGpioWrite w out oe s
  | .gpioEdge w pin rising => Sys2Proof.Machine.execGpioEdge w pin rising s
  | .gpioIrqClear w v => Sys2Proof.Machine.execGpioIrqClear w v s
  -- SK40 register pages (11_symmetric_and_payment.md)
  | .compatStart f page => Sys2Proof.Machine.execCompatStart f page s
  | .compatKeyClear f page => Sys2Proof.Machine.execCompatKeyClear f page s
  | .compatKeyWrite f page word v => Sys2Proof.Machine.execCompatKeyWrite f page word v s
  | .compatOperationComplete page ev => Sys2Proof.Machine.execCompatOperationComplete page ev s
  | .cardCharacterSent slot errorSignal => Sys2Proof.Machine.execCardCharacterSent slot errorSignal s
  | .timerCompare w k => Sys2Proof.Machine.execTimerCompare w k s
  | .rtcCompare w => Sys2Proof.Machine.execRtcCompare w s
  | .vbatMeasurement millivolt => Sys2Proof.Machine.execVbatMeasurement millivolt s
  | .linkPowerStateChange w dest => Sys2Proof.Machine.execLinkPowerStateChange w dest s

end Sys2Proof.Machine
end

