-- ==== Sys2Proof/WellFormed.lean ====
section
/-! DEFINITION. Which commands are well formed: every function, queue, gallery, unit, register or slot that a command names is one the
spec gives the part, and every byte string has the length that the spec gives it. The meanings take any command: one that is not well
formed has no effect. -/

namespace Sys2Proof

/-- PF0, or VF1 to VF127 (R44). -/
def Fn.wf (f : Fn) : Bool := f.vf ≤ 127

/-- An I/O queue 0 to 511, or the admin queue (R55). -/
def QSel.wf : QSel → Bool
  | .io q => q < 512
  | .admin => true

/-- The fields of the 18-bit identifier (R443). -/
def UnitId.wf (u : UnitId) : Bool := u.loc < 32 && u.kind < 32 && u.idx < 256

/-- A tile number fits a wing's largest Storeroom (R381, R397: STORE_LASTFAIL_NUM has 29 bits). -/
def TileId.wf (t : TileId) : Bool := t.tile < 2 ^ 29

/-- A gallery of R14. -/
def Resource.wf : Resource → Bool
  | .lre g | .lsu g | .keccak g | .maskedKeccak g | .sha2 g | .bigNumber g | .bfe g | .aes g => g < 16
  | .dmaRead _ | .compat _ => true

def ReadTarget.wf : ReadTarget → Bool
  | .slot f q => f.wf && q.wf
  | .input _ _ | .paramBlock _ => true

def WriteTarget.wf : WriteTarget → Bool
  | .record f q => f.wf && q.wf
  | .job _ => true

def FlrScope.wf : FlrScope → Bool
  | .function f => f.wf
  | .vfEnableCleared _ => true

def TxWriter.wf : TxWriter → Bool
  | .host f => f.wf
  | .supervisor _ => true

/-- A generator of a gallery that R365 lists. -/
def Drbg.wf : Drbg → Bool
  | .keyGen g | .host g => g < 16
  | .curator | .pool _ => true

def MaskGen.wf : MaskGen → Bool
  | .gallery g => g < 16
  | .cluster _ => true

/-- A tamper class other than 6, found at boot, and 7, reserved (R418). -/
def Trip.wf (t : Trip) : Bool := t.cls < 16 && t.cls != 6 && t.cls != 7

/-- An access of 1 byte or more whose address lies in the 40-bit space (R486), with its data when it stores. -/
def Access.wf (a : Access) : Bool := 0 < a.len && a.addr + a.len ≤ 2 ^ 40 && (a.op != .write || a.data.length == a.len)

def EngineEvent.wf (e : EngineEvent) : Bool := match e.trip with
  | some u => u.wf
  | none => true

/-- Streams are 0 to 15 and functions 0 to 127 (R62). -/
def SpdmReq.wf : SpdmReq → Bool
  | .ideProgram stream first last _ blocks => stream < 16 && first ≤ last && last ≤ 127 && blocks.length ≤ 4
  | .ideStop stream => stream < 16
  | .discovery | .getVersion | .getCapabilities | .negotiateAlgorithms | .getDigests | .getCertificate _ | .challenge _ | .keyExchange _ _
  | .finish | .heartbeat | .keyUpdate | .endSession | .pskExchange | .getEncapsulatedRequest | .other _ => true

/-- The command is well formed. -/
def Instr.wf : Instr → Bool
  | .registerWrite f _ off size _ => f.wf && (size == 4 || size == 8) && off % size == 0
  | .txFieldWrite by_ _ _ => by_.wf
  | .submissionDoorbell f q _ => f.wf && q.wf
  | .completionDoorbell f q _ => f.wf && q.wf
  | .fstatCauseClear f _ _ => f.wf
  | .fstatCauseEnWrite f _ => f.wf
  | .fstatErrRead f => f.wf
  | .fstatErrAddrRead f => f.wf
  | .fstatQerrRead f => f.wf
  | .admqEnable f => f.wf
  | .admqDisable f => f.wf
  | .msixUnmask f vector => f.wf && vector < 256
  | .moderationTimerExpiry f q => f.wf && q < 512
  | .identify f _ => f.wf
  | .createCollection f => f.wf
  | .deleteCollection f => f.wf
  | .setCollectionLimits f => f.wf
  | .bindFunction f => f.wf
  | .unbindFunction f => f.wf
  | .deviceReset f => f.wf
  | .createQueue f => f.wf
  | .deleteQueue f => f.wf
  | .deleteQueueDrainComplete f q => f.wf && q < 512
  | .setModeration f => f.wf
  | .getQueueState f _ => f.wf
  | .perstAssert _ => true
  | .perstDeassert x => 1 ≤ x.rate && x.rate ≤ 6 && [1, 2, 4, 8].contains x.width
  | .configurationReady _ => true
  | .functionLevelReset scope => scope.wf
  | .busMasterEnableClear f => f.wf
  | .busMasterEnableSet f => f.wf
  | .ideStreamFail _ stream => stream < 16
  | .dmaReadCompletion _ _ _ => true
  | .dmaReadFailure target _ => target.wf
  | .dmaWriteInternalError target => target.wf
  | .portUncorrectableError _ => true
  | .doeSpdmRequest _ req => req.wf
  | .getMeasurements _ index ask => (index ≤ 6 || index == 255) && ask.sign.all (· ≤ 1)
  | .mctpControl _ _ => true
  | .mctpSpdm _ req => req.wf
  | .mctpRegisterRead _ f _ => f.wf
  | .mctpDeviceReset _ => true
  | .dispatchDecision _ => true
  | .entryFetchComplete f q entry => f.wf && q.wf && entry.length == 64
  | .programStart _ _ => true
  | .insNop _ => true
  | .insEnd _ => true
  | .insBr _ => true
  | .insMovi _ => true
  | .insMovhi _ => true
  | .insMov _ => true
  | .insAdd _ => true
  | .insAddi _ => true
  | .insSub _ => true
  | .insAnd _ => true
  | .insOr _ => true
  | .insXor _ => true
  | .insShl _ => true
  | .insShr _ => true
  | .insCmp _ => true
  | .insCmpi _ => true
  | .insLdp _ => true
  | .insLdb _ => true
  | .insLoan _ => true
  | .insLoanp _ => true
  | .loanGrant _ => true
  | .insReturn _ => true
  | .insBuf _ => true
  | .insBslice _ => true
  | .insBlen _ => true
  | .insBind _ => true
  | .insEndb _ _ => true
  | .instructionBudgetExhausted _ => true
  | .engineOperationComplete _ ev => ev.wf
  | .engineWipeComplete gallery kind => gallery < 16 && kind < 32
  | .jobPreemption res _ => res.wf
  | .suspendedJobResume _ => true
  | .mlkemKeygen _ => true
  | .mlkemEncaps _ => true
  | .mlkemDecaps _ => true
  | .mlkemEncapsk _ => true
  | .mlkemExportek _ => true
  | .mlkemImportek _ => true
  | .mldsaKeygen _ => true
  | .mldsaSign _ => true
  | .mldsaVerify _ => true
  | .mldsaVerifyx _ => true
  | .mldsaExportpk _ => true
  | .mldsaImportpk _ => true
  | .fndsaKeygen _ => true
  | .fndsaSign _ => true
  | .fndsaVerify _ => true
  | .fndsaVerifyx _ => true
  | .fndsaExportpk _ => true
  | .fndsaImportpk _ => true
  | .hybKexcombine _ => true
  | .hybSign _ => true
  | .hybVerify _ => true
  | .hybVerifyx _ => true
  | .digestHash _ => true
  | .digestCshake _ => true
  | .digestHmac _ => true
  | .digestHmacverify _ => true
  | .digestKmac _ => true
  | .digestKmacverify _ => true
  | .digestHkdf _ => true
  | .digestKdf108 _ => true
  | .digestSbegin _ => true
  | .digestScont _ => true
  | .digestSend _ => true
  | .slhdsaKeygen _ => true
  | .slhdsaSign _ => true
  | .slhdsaVerify _ => true
  | .slhdsaVerifyx _ => true
  | .slhdsaExportpk _ => true
  | .slhdsaImportpk _ => true
  | .lmsKeygen _ => true
  | .lmsSign _ => true
  | .lmsVerify _ => true
  | .lmsVerifyx _ => true
  | .lmsExportpk _ => true
  | .lmsImportpk _ => true
  | .xmssKeygen _ => true
  | .xmssSign _ => true
  | .xmssVerify _ => true
  | .xmssVerifyx _ => true
  | .xmssExportpk _ => true
  | .xmssImportpk _ => true
  | .leafReservation _ slot _ => slot < 65536
  | .issuerPositionReport _ => true
  | .treeSubtreeGeneration slot _ => slot < 65536
  | .treeCacheRebuild r => r.slot < 65536
  | .signCacheWaitExpiry _ => true
  | .ledgerQslotWrite f _ => f.wf
  | .ledgerLowSlotRead f => f.wf
  | .mcelieceKeygen _ => true
  | .mcelieceEncaps _ => true
  | .mcelieceDecaps _ => true
  | .mcelieceEncapsk _ => true
  | .mcelieceExportpk _ => true
  | .mcelieceImportpk _ => true
  | .mcelieceReside _ => true
  | .queuedResideLoad gallery => gallery < 16
  | .residentKeyReload gallery => gallery < 16
  | .hqcKeygen _ => true
  | .hqcEncaps _ => true
  | .hqcDecaps _ => true
  | .hqcEncapsk _ => true
  | .hqcExportpk _ => true
  | .hqcImportpk _ => true
  | .rsaKeygen _ => true
  | .rsaSign _ => true
  | .rsaVerify _ => true
  | .rsaVerifyx _ => true
  | .rsaDecrypt _ => true
  | .rsaEncrypt _ => true
  | .rsaExportpk _ => true
  | .rsaImportpk _ => true
  | .ecKeygen _ => true
  | .ecSign _ => true
  | .ecVerify _ => true
  | .ecVerifyx _ => true
  | .ecEphagree _ => true
  | .ecAgree _ => true
  | .ecExportpk _ => true
  | .ecImportpk _ => true
  | .ecCurvecheck _ => true
  | .aesEncrypt _ => true
  | .aesDecrypt _ => true
  | .aesCmac _ => true
  | .aesCmacverify _ => true
  | .aesAeadseal _ => true
  | .aesAeadopen _ => true
  | .payPinxlate _ => true
  | .payDukptxlate _ => true
  | .payDukptderive _ => true
  | .payDukptik _ => true
  | .payKbexport _ => true
  | .payKbimport _ => true
  | .randBytes _ => true
  | .catGenerate _ => true
  | .catImportClear _ => true
  | .catUnwrap _ => true
  | .catWrap _ => true
  | .catWithdraw _ => true
  | .catRevoke _ => true
  | .catPin _ => true
  | .catInfo _ => true
  | .catSync _ => true
  | .catCheckpoint _ => true
  | .revocationOrder _ coll index gen => coll ≤ 1023 && index < 2 ^ 32 && gen < 65536
  | .revocationAck _ coll index gen => coll ≤ 1023 && index < 2 ^ 32 && gen < 65536
  | .leaseRenewal _ => true
  | .leaseExpiry _ => true
  | .provenanceWalk coll index gen => coll ≤ 1023 && index < 2 ^ 32 && gen < 65536
  | .invalidatedAncestorRelease coll index gen => coll ≤ 1023 && index < 2 ^ 32 && gen < 65536
  | .sealIntervalExpiry => true
  | .sealWrite => true
  | .checkpointEnd => true
  | .journalConfig _ _ => true
  | .journalAck _ _ => true
  | .journalStatus _ _ => true
  | .restoreBegin _ _ => true
  | .restoreBlock _ _ _ => true
  | .restoreEnd _ _ => true
  | .acceptLoss _ _ => true
  | .identity _ _ => true
  | .nonce _ _ => true
  | .nonceExpiry _ => true
  | .quorumSubmit _ _ => true
  | .quorumAuthorisationExpiry _ => true
  | .takeOwnership _ _ => true
  | .certInstall _ _ => true
  | .decommission _ _ => true
  | .transfer _ _ => true
  | .scrap _ _ => true
  | .floorRaise _ _ => true
  | .flashWrite _ _ => true
  | .slotPrefer _ _ => true
  | .debugChallenge _ _ => true
  | .debugUnlock _ _ => true
  | .debugLock _ _ => true
  | .provision _ _ => true
  | .pwronRstAssert => true
  | .pwronRstRelease _ => true
  | .bootImageAccept type => type ≤ 3
  | .ledgerRebuild => true
  | .sourceSample source _ => source < 72
  | .balanceAdjustment source => source < 72
  | .sourceStartupComplete source => source < 72
  | .conditionedBlock _ => true
  | .drbgReseedRequest d => d.wf
  | .drbgIntervalExpiry d => d.wf
  | .maskingGeneratorReseed m => m.wf
  | .maskingGeneratorStop m => m.wf
  | .drbgKnownAnswerTest d _ => d.wf
  | .entropyWaitExpiry _ => true
  | .wingEntropyReady _ => true
  | .entropyReadmit f _ => f.wf
  | .entropyLastfailRead f => f.wf
  | .entropyRawdataRead f => f.wf
  | .tileRead t _ _ => t.wf
  | .tileWrite t data _ => t.wf && data.length == 4096
  | .nodeWriteback _ level _ => (1 ≤ level && level ≤ 3)
  | .rootUpdate _ _ => true
  | .peerFallbackRead t _ _ => t.wf
  | .patrolScrub t _ => t.level ≤ 3 && t.number < 2 ^ 29
  | .tileRehome t => t.wf
  | .channelRetirementRequest c => c < 4
  | .storeRetire f _ => f.wf
  | .retirementCopyComplete c => c < 4
  | .channelFailure c => c < 4
  | .channelTrainingComplete c _ => c < 4
  | .zqCalibration c => c.channel < 4
  | .storeroomInitComplete _ => true
  | .mirrorRefreshComplete _ => true
  | .storeCeRead f c => f.wf && c < 4
  | .storeUeRead f c => f.wf && c < 4
  | .storeIntegRead f => f.wf
  | .storeLastfailRead f => f.wf
  | .tamperSensorTrip trip => trip.wf
  | .railRecoveryExpiry _ _ => true
  | .freezeWireAssert _ => true
  | .orderApply => true
  | .reportPhase => true
  | .mramEraseComplete => true
  | .batteryDomainAlarm trip => trip.wf
  | .tamperClear _ _ => true
  | .orderInstall _ _ => true
  | .erase _ _ => true
  | .orderRead _ _ => true
  | .standingOrderEffective kind => (kind == 1 || kind == 2)
  | .unitFence u cause => u.wf && (1 ≤ cause && cause ≤ 6)
  | .errorCountDecay u => u.wf
  | .unitHandshakeTimeout u => u.wf
  | .unitKnownAnswerTest u _ => u.wf
  | .recalibration u => u.wf
  | .consRecal f _ => f.wf
  | .sparePromotion u => u.wf
  | .consPromote f _ => f.wf
  | .consFence f _ => f.wf
  | .consReadmit f _ => f.wf
  | .unitReadmitComplete u _ => u.wf
  | .consGreset f _ => f.wf
  | .galleryReset gallery => gallery < 16
  | .galleryResetComplete gallery => gallery < 16
  | .consEventRead f => f.wf
  | .consFencedTrafficRead f => f.wf
  | .consLinkdownRead f => f.wf
  | .staleFlitDrop u gen => u.wf && gen < 65536
  | .voteDisagreement _ => true
  | .heartbeatSend _ _ => true
  | .linkDownDeclare _ _ => true
  | .linkRetrain _ => true
  | .linkUpDeclare _ => true
  | .orphanDetect _ => true
  | .orphanHalt _ => true
  | .bothWingsLost => true
  | .wingReadmission _ => true
  | .wingReset _ => true
  | .cfgtxBegin by_ => by_.wf
  | .cfgtxCommit by_ _ => by_.wf
  | .cfgtxAbort by_ => by_.wf
  | .cfgtxDrainComplete => true
  | .cfgtxDrainTimeout => true
  | .cfgtxIdleExpiry => true
  | .microcodeBankLoad u _ => u.wf
  | .bnslotRepartition gallery => gallery < 16
  | .handoverBegin _ _ => true
  | .handoverStatus _ _ => true
  | .handoverPending => true
  | .handoverPauseStart => true
  | .handoverSwitch _ => true
  | .docentClusterReset _ => true
  | .docentSqTailWrite _ core q _ _ => core < 8 && q < 16
  | .docentCqHeadWrite _ core q _ _ => core < 8 && q < 16
  | .dqCtrlWrite _ core q off _ => core < 8 && q < 16 && off < 0x20
  | .docentAccess _ core acc _ => core < 8 && acc.wf
  | .docentDmaBurst _ acc _ => acc.wf
  | .debugPortAccess _ acc _ => acc.wf
  | .auRegisterWrite _ master unit off _ => master ≤ 9 && unit ≤ 9 && off < 0x1000
  | .auVinfoClear _ master _ => master ≤ 9
  | .auVcountRead _ master => master ≤ 9
  | .evlogVinfoClear f m _ => f.wf && m < 20
  | .jtagInstruction _ => true
  | .cardInsertion slot => slot < 2
  | .cardRemoval slot => slot < 2
  | .cardActivate slot => slot < 2
  | .cardDeactivate slot => slot < 2
  | .cardWarmReset slot => slot < 2
  | .cardStart slot => slot < 2
  | .cardClkStop slot => slot < 2
  | .cardWake slot => slot < 2
  | .cardAbort slot => slot < 2
  | .cardCharacterReceive slot _ _ => slot < 2
  | .cardVccTimeout slot => slot < 2
  | .cardAtrTimeout slot => slot < 2
  | .cardClassBRetry slot => slot < 2
  | .cardWaitingTimeExpiry slot => slot < 2
  | .cardDeactivationComplete slot => slot < 2
  | .cardResultRead slot => slot < 2
  | .cardIrqClear slot _ => slot < 2
  | .referenceMissing _ src => src != .watch
  | .frequencyWindow _ _ => true
  | .xtalStartDelayExpiry _ => true
  | .clockSwitch _ _ _ => true
  | .pllLock _ _ => true
  | .clkpwrRevert f => f.wf
  | .autoRevert _ => true
  | .wingIdleEntry _ => true
  | .standbyRequest f => f.wf
  | .standbyDrainTimeout => true
  | .standbyEntry => true
  | .activeRequest f => f.wf
  | .powerEstimate _ => true
  | .thermalSample _ _ _ => true
  | .thermalThrottleStep => true
  | .clkpwrCapWrite f _ => f.wf
  | .clkpwrSwitchesRead f => f.wf
  | .clkpwrRtcSet f _ => f.wf
  | .clkpwrRtcSlew f _ => f.wf
  | .avsVoltageWrite _ _ _ => true
  | .gpioWrite _ _ _ => true
  | .gpioEdge _ pin _ => pin < 8
  | .gpioIrqClear _ _ => true
  | .compatStart f page => f.wf && page < 64
  | .compatKeyClear f page => f.wf && page < 64
  | .compatKeyWrite f page word _ => f.wf && page < 64 && word < 8
  | .compatOperationComplete page ev => page < 64 && ev.wf
  | .cardCharacterSent slot _ => slot < 2
  | .timerCompare _ k => k < 8
  | .rtcCompare _ => true
  | .vbatMeasurement _ => true
  | .linkPowerStateChange _ _ => true

end Sys2Proof
end

