-- ==== Sys2Proof/Safety.lean ====
section
/-! DEFINITION. What counts as a sound state of the SK72, in the terms that claims use: the memories in their canonical form, the event
log and the tamper ring within their size and in sequence, and the queue of well-formed commands. -/

namespace Sys2Proof.Machine

/-! ### Memories -/

/-- A wing's Docent memories are in canonical form (R478). -/
def DocentWing.memWf (d : DocentWing) : Bool := Tbl.wf 0#8 d.local_ && Tbl.wf 0#8 d.shared

/-- Every byte memory of the part is in canonical form: the Docent memories, the card slots' data buffers and the boot flash. -/
def State.memWf (s : State) : Bool :=
  s.docW.memWf && s.docE.memWf && Tbl.wf 0#8 s.card0.data && Tbl.wf 0#8 s.card1.data && Tbl.wf 255#8 s.boot.flash

/-! ### Logs -/

/-- The ring holds consecutive sequences, the newest first (R495). -/
def seqsDown : Nat → List LogRec → Bool
  | _, [] => true
  | n, r :: l => r.seq == n && n != 0 && seqsDown (n - 1) l

/-- The event log: at most 4,096 records, of consecutive sequences down from EVLOG_NEWEST (R495). -/
def EvLog.wf (l : EvLog) : Bool := decide (l.ring.length ≤ 4096) && seqsDown l.newest l.ring

/-- The tamper ring holds at most 63 records (R426). -/
def Tamper.wf (t : Tamper) : Bool := decide (t.ring.length ≤ 63)

/-- The invariant of every state that a run reaches, and that every step keeps. -/
def State.Inv (s : State) : Prop := s.memWf = true ∧ s.evlog.wf = true ∧ s.tamper.wf = true

/-! ### The part and its queue -/

/-- Every command that waits is well formed. -/
def State.queueWf (s : State) : Prop := ∀ c ∈ s.pending, c.wf = true

/-- What no command of the outside changes: the part's serial number and variant, and the queue of commands; the model's clock moves only
on an empty queue; sequences of tamper records never restart (R441); what has been sent stays sent. -/
structure Keeps (s t : State) : Prop where
  pending : t.pending = s.pending
  a12 : t.a12 = s.a12
  serial : t.serial = s.serial
  now : t.now = s.now
  evSeq : s.tamper.evSeq ≤ t.tamper.evSeq
  outbox : s.outbox <:+ t.outbox
  inv : s.Inv → t.Inv

/-! ### When a command takes its effect

Each of these says, of a state and operands alone, that the common rules of a kind of command let it through to its own effect. -/

/-- A function's access reaches its registers: the function exists, its port answers, a VF is enabled, and a Secure stream carries the
access where its collection needs one (R45, R63, R70). -/
structure Reaches (s : State) (f : Fn) : Prop where
  fn : fnOk f = true
  port : s.portAnswers f.port = true
  vf : isPf f = true ∨ (s.port f.port).vfEnable = true
  ide : s.ideOk f = true

/-- A write at a BAR0 offset reaches a block that takes writes (R45, R71, R403, R520). -/
structure Writes (s : State) (f : Fn) (off : Nat) : Prop extends Reaches s f where
  block : s.blockWrites f.port (off / 0x1000) = true

/-- A write by a PF that holds the management role (R47), on a wing that has the Curator's authority or in a form that boot or TAMPER_HOLD gives
a port (R22). -/
structure Manages (s : State) (f : Fn) (off : Nat) : Prop extends Writes s f off where
  pf : isPf f = true
  path : (s.hasCurator f.port || s.recovery || s.tamper.hold) = true
  role : s.mgmt f = true

/-- A read at a BAR0 offset reaches a block that answers reads (R45, R71, R403, R520). -/
structure Reads (s : State) (f : Fn) (off : Nat) : Prop extends Reaches s f where
  block : s.blockReads f.port (off / 0x1000) = true

/-- The same of a device-scope register, which a PF reads. -/
structure ReadsPf (s : State) (f : Fn) (off : Nat) : Prop extends Reads s f off where
  pf : isPf f = true

/-- An admin command of an opcode is in progress, and none of R81's rules that do not depend on its parameters stops it, nor the owner policy or
a freeze. -/
structure AdminRuns (s : State) (f : Fn) (o : Nat) (from_ : AdmFrom) (used : List (Nat × Nat)) (e : List Byte) : Prop where
  cur : (s.fn f).admCur = some e
  op : byteAt e 4 = o
  up : s.boot.inReset = false
  rules : s.admStatus f from_ used e = St.ok
  open_ : s.admBarred o from_ = false

/-- A mailbox message of a code is in flight, and none of the rules common to all messages refuses it (R475 to R477). -/
structure Heard (s : State) (m : Sender) (c replyLen : Nat) : Prop where
  busy : (s.mailbox m).busy = true
  code : bits32 (s.mailbox m).msg 0 8 = c
  up : s.boot.inReset = false
  vote : s.cont.vote ≠ .lost
  running : s.halted (senderWing m) = false
  path : s.reaches (senderWing m) = true ∨ s.recovery = true ∨ s.tamper.hold = true
  role : freeCodes.contains c = true ∨ c = 0x23 ∨ s.senderMgmt m = true
  recovery : s.recovery = true → recoveryCodes.contains c = true
  hold : s.tamper.hold = true → holdCodes.contains c = true
  frozen : s.tamper.frozen = true → (holdCodes ++ freeCodes).contains c = true
  params : bits32 (s.mailbox m).msg 16 16 ≤ bits32 (s.mailbox m).bufLen 0 20
  reply : replyLen ≤ bits32 (s.mailbox m).bufLen 0 20

/-- A job stands at an instruction of an opcode, whose condition holds, and nothing keeps it from executing (R105 to R114). -/
structure StandsAt (s : State) (n o : Nat) (j : Job) : Prop where
  job : s.job n = some j
  thawed : s.tamper.frozen = false
  runs : s.wingRuns (galleryWing j.gallery) = true
  held : j.parked = false
  ready : j.phase = .ready
  inside : j.pc < j.prog.length
  op : insOpcode j.ins = o
  budget : j.executed < 4096
  goes : j.ending = none
  cond : condHolds (insCond j.ins) j.st j.f = true

/-- The job once its instruction is counted. -/
def Job.counted (j : Job) : Job := { j with executed := j.executed + 1 }

/-- The job that an EXEC works with: its instruction counted and the curve it names copied (R316). -/
def State.begunJob (s : State) (n : Nat) (j : Job) : Job := (s.putJob n j.counted).copyCurve j.counted

/-- The state in which an EXEC is checked. -/
def State.begun (s : State) (n : Nat) (j : Job) : State := (s.putJob n j.counted).putJob n (s.begunJob n j)

/-- A job stands at an EXEC of a function whose selector, options, loans and buffers are as the function wants them, and whose engines are
in service (R119, R123, R146). -/
structure Begins (s : State) (n c : Nat) (j : Job) (x : FnSpec) : Prop where
  stands : StandsAt s n 0x40 j
  code : (execFields j.ins).code = c
  path : c / 256 = 0x0F → (s.begun n j).hasCurator (galleryWing j.gallery) = true
  loans : ((s.begun n j).execLoans (s.begunJob n j) (execFields j.ins)).length = (loanRegs (execFields j.ins)).length
  spec : (s.begun n j).specNow (s.begunJob n j) = some x
  outs : barsTemplate x (outputBufs (s.begunJob n j) (execFields j.ins) x) = false
  loan : loanStep ((s.begun n j).view (s.begunJob n j)) ((s.begun n j).execLoans (s.begunJob n j) (execFields j.ins)) x.loans = St.ok
  bufs : (inputBufs (s.begunJob n j) (execFields j.ins) x ++ outputBufs (s.begunJob n j) (execFields j.ins) x).any (·.isNone) = false
  buffers : bufferStep (s.begunJob n j) x ((inputBufs (s.begunJob n j) (execFields j.ins) x).filterMap id)
    ((outputBufs (s.begunJob n j) (execFields j.ins) x).filterMap id) = St.ok
  keyed : ∀ k, x.prefers = some k → (s.begunJob n j).readsSecret x = true → (s.begun n j).keyed j.gallery k = true
  units : (((s.begunJob n j).need x).all fun u => (s.begun n j).inService j.wing j.gallery u) = true

end Sys2Proof.Machine
end

