-- ==== Sys2Proof/Certificates/Slice0/Obligations.lean ====
section
/-! DEFINITION. The statements about the SK72 model that the provers are asked for. A statement that rests on a choice of the model
says so and names the entry of the assumption log. -/

open Host
open Sys2Proof Sys2Proof.Machine


/-- A step carries out the command at the front of the queue. For every command and state with that command at the front of the queue,
the step answers what the command answers on the state with the rest of the queue. -/
def Obligations.StepRunsFrontCommand : Prop :=
  ∀ (c : Instr) (rest : List Instr) (s : State), s.pending = c :: rest → step s = exec c { s with pending := rest }

/-- On an empty queue a nanosecond passes and nothing else. The tick of the model clock on an empty queue is the choice of the model
(log 2): the step on an empty queue advances `now` by one, and the count of the time spent in watch mode by one while a die is in watch
mode, and changes nothing else. -/
def Obligations.IdleStepPassesTime : Prop :=
  ∀ s : State, s.pending = [] → step s =
    .next { s with now := s.now + 1, power := { s.power with watchNs := if s.watchMode then s.power.watchNs + 1 else s.power.watchNs } }

/-- Every step keeps the memories canonical and the logs sound. From every state in which the Docent memories, the card buffers and
the boot flash are in canonical form, the event log holds consecutive sequences within its size and the tamper ring is within its
size, every step that answers a next state answers one in which all of that holds again. The canonical form of the memories is the
choice of the model (log 9). -/
def Obligations.StepKeepsInvariant : Prop :=
  ∀ s t : State, s.Inv → step s = .next t → t.Inv

/-- The state after reset holds the invariant. The state after reset has its memories in canonical form, its logs empty and no command
waiting. -/
def Obligations.ResetHoldsInvariant : Prop :=
  State.reset.Inv ∧ State.reset.queueWf ∧ State.reset.pending = []

/-- No command ends in a fault or a refusal. For every command of the table, well formed or not, and every state, the command answers
a next state. -/
def Obligations.EveryCommandAnswers : Prop :=
  ∀ (c : Instr) (s : State), ∃ t, exec c s = .next t

/-- A command changes neither the queue, nor the clock, nor the part. Whatever the command, the queue of waiting commands, the clock
of the model, the serial number and the variant of the part are unchanged by its effect. -/
def Obligations.CommandsKeepQueueClockAndSerial : Prop :=
  ∀ (c : Instr) (s t : State), exec c s = .next t →
    t.pending = s.pending ∧ t.now = s.now ∧ t.serial = s.serial ∧ t.a12 = s.a12

/-- A step takes exactly the front command from the queue. After every step the queue is what stood behind its front command (log 2:
the queue is the interface of the model). -/
def Obligations.StepTakesOneCommand : Prop :=
  ∀ s t : State, step s = .next t → t.pending = s.pending.tail

/-- What has been sent stays sent, and tamper sequences never fall. After every step the outbox ends with what it held before, newest
first, and the sequence of the newest tamper record is not lower than before. -/
def Obligations.SentStaysSentAndSequencesGrow : Prop :=
  ∀ s t : State, step s = .next t → s.outbox <:+ t.outbox ∧ s.tamper.evSeq ≤ t.tamper.evSeq

/-- A register write reaches its block, or is staged in the open transaction. A host write of 4 aligned bytes within the BAR stores its
word, or is dropped and recorded with ACCESS_DENIED where a PF names a read-only register; one of
8 aligned bytes stores its low word at the offset and its high word 4 above; a write of any other size or alignment is answered as
Unsupported Request and stores nothing; one beyond the BAR has no effect. A write at BAR2 goes to the MSI-X table, and the MSI-X
Enable and VF Enable bits and the two device control registers of
configuration space are set by their own writes. A write to a field of the configuration transaction by the owner of
the open transaction is staged, masked to the bits of the field, and restarts the idle time; by a management PF that does not own
it, it is recorded as CONFIG_LOCKED and changes no staged value; by a supervisor that does not own it, it has no effect. -/
def Obligations.RegisterWritesReachTheirBlockOrTransaction : Prop :=
  (∀ (f : Fn) (off : Nat) (v : Word64) (s : State),
      (Reaches s f → off < barSize f .bar0 → off % 4 = 0 → exec (.registerWrite f .bar0 off 4 v) s = .next (s.wordWrite f off (v.setWidth 32))) ∧
      (Reaches s f → off < barSize f .bar0 → off % 8 = 0 → exec (.registerWrite f .bar0 off 8 v) s =
        .next ((s.wordWrite f off (v.setWidth 32)).wordWrite f (off + 4) ((v >>> 32).setWidth 32))) ∧
      (Reaches s f → off < barSize f .bar0 → off % 4 = 0 → isPf f = true → s.blockWrites f.port (off / 0x1000) = true →
        roRegister (off / 0x1000) (off % 0x1000) = true →
        exec (.registerWrite f .bar0 off 4 v) s = .next (s.regError f St.accessDenied off)) ∧
      (∀ size, Reaches s f → off < barSize f .bar0 → ¬ (size = 4 ∧ off % 4 = 0) → ¬ (size = 8 ∧ off % 8 = 0) →
        exec (.registerWrite f .bar0 off size v) s = .next (s.emit (.unsupported f))) ∧
      (∀ size, barSize f .bar0 ≤ off → exec (.registerWrite f .bar0 off size v) s = .next s) ∧
      (Reaches s f → off < barSize f .bar2 → off % 4 = 0 →
        exec (.registerWrite f .bar2 off 4 v) s = .next (s.msixWrite f off (v.setWidth 32))) ∧
      (fnOk f = true → s.portAnswers f.port = true → exec (.registerWrite f .msixEnable off 4 v) s =
        .next ((s.modFn f fun x => { x with msixEnable := v.getLsbD 0 }).sendPending f)) ∧
      (isPf f = true → s.portAnswers f.port = true →
        (v.getLsbD 0 = true → exec (.registerWrite f .vfEnable off 4 v) s =
          .next (s.setPort f.port { s.port f.port with vfEnable := true })) ∧
        exec (.registerWrite f .deviceControl off 4 v) s = .next (s.deviceControl f.port v) ∧
        exec (.registerWrite f .deviceControl2 off 4 v) s = .next (s.deviceControl2 f.port v))) ∧
  (∀ (f : Fn) (w : Wing) (off : Nat) (v m : Word32) (s : State), txMask off = some m →
      (Manages s f off → s.ownsTx (.host f) = true → s.txAbsent off = false →
        exec (.txFieldWrite (.host f) off v) s = .next ((s.stage off (v &&& m)).touchTx)) ∧
      (Manages s f off → s.ownsTx (.host f) = false →
        exec (.txFieldWrite (.host f) off v) s = .next (s.regError f St.configLocked off)) ∧
      (s.supervisorUp w = true → s.ownsTx (.supervisor w) = true → s.txAbsent off = false →
        exec (.txFieldWrite (.supervisor w) off v) s = .next ((s.stage off (v &&& m)).touchTx)) ∧
      (s.supervisorUp w = true → s.ownsTx (.supervisor w) = false →
        exec (.txFieldWrite (.supervisor w) off v) s = .next s))

/-- A doorbell moves its ring, or is reported in FSTAT_QERR. A submission doorbell of a ready function, in range for a queue that
exists and is not stopped, sets the tail and starts the fetch of entries; a completion doorbell sets the head if it lies within
the records written, asks for the next admin entry where it is the admin ring's, and is ignored with reason 3 otherwise; a doorbell that names no queue, a stopped queue or an index outside
the ring changes nothing but the error registers. -/
def Obligations.DoorbellsMoveTheRings : Prop :=
  ∀ (f : Fn) (q : QSel) (index : BitVec 16) (s : State), (∀ n, q = .io n → n < 512) → (s.fn f).ready = true →
    (Writes s f (doorbellOff q false) → s.doorbellReason f q index.toNat = none →
      exec (.submissionDoorbell f q index) s = .next (s.setTail f q index.toNat)) ∧
    (∀ r, Writes s f (doorbellOff q false) → s.doorbellReason f q index.toNat = some r →
      exec (.submissionDoorbell f q index) s =
        .next ((if (s.queue f q).created && (s.queue f q).firstErr = 0 then s.setQueue f q { s.queue f q with firstErr := r } else s).queueError f q false r)) ∧
    (Writes s f (doorbellOff q true) → s.doorbellReason f q index.toNat = none →
      ringCount (s.queue f q).depth (s.queue f q).cqHead index.toNat ≤ ringCount (s.queue f q).depth (s.queue f q).cqHead (s.queue f q).cqTail →
      exec (.completionDoorbell f q index) s =
        .next (let t := s.setQueue f q { s.queue f q with cqHead := index.toNat }
               if q = .admin then t.fetchHead f q else t)) ∧
    (Writes s f (doorbellOff q true) → s.doorbellReason f q index.toNat = none →
      ringCount (s.queue f q).depth (s.queue f q).cqHead (s.queue f q).cqTail < ringCount (s.queue f q).depth (s.queue f q).cqHead index.toNat →
      exec (.completionDoorbell f q index) s =
        .next ((s.setQueue f q { s.queue f q with firstErr := if (s.queue f q).firstErr = 0 then 3 else (s.queue f q).firstErr }).queueError f q true 3))

/-- The FSTAT error registers clear on a read, and cause bits clear by writing one. A read of each of the three error registers that
reaches the block answers the value held and clears that register; clearing FSTAT_QERR lets the next doorbell error be captured. A
write to FSTAT_CAUSE clears the bits written as one, and an event that coincides with the clear latches again; a write to
FSTAT_CAUSE_EN keeps the implemented bits and sends vector 0 exactly when it enables a cause that is latched. -/
def Obligations.FstatRegistersClearAndCausesLatch : Prop :=
  (∀ (f : Fn) (s : State),
      (Reads s f 0x100C → exec (.fstatErrRead f) s = .next ((s.emit (.readValue f 0x100C (s.fn f).err)).modFn f fun x => { x with err := 0 })) ∧
      (Reads s f 0x1010 → exec (.fstatErrAddrRead f) s =
        .next ((s.emit (.readValue f 0x1010 (s.fn f).errAddr)).modFn f fun x => { x with errAddr := 0 })) ∧
      (Reads s f 0x1014 → exec (.fstatQerrRead f) s =
        .next ((s.emit (.readValue f 0x1014 (s.fn f).qerr)).modFn f fun x => { x with qerr := 0, qerrHeld := false }))) ∧
  (∀ (f : Fn) (v c : Word32) (s : State),
      (Writes s f 0x1004 → exec (.fstatCauseClear f v c) s =
        .next ((s.modFn f fun x => { x with cause := x.cause &&& ~~~v }).forAll ((List.range 11).filter fun k => bit32 c k) fun s k => s.raiseCause k f)) ∧
      (Writes s f 0x1008 → (v &&& causeMask) &&& ~~~(s.fn f).causeEn &&& (s.fn f).cause = 0 →
        exec (.fstatCauseEnWrite f v) s = .next (s.setFn f { s.fn f with causeEn := v &&& causeMask })) ∧
      (Writes s f 0x1008 → (v &&& causeMask) &&& ~~~(s.fn f).causeEn &&& (s.fn f).cause ≠ 0 →
        exec (.fstatCauseEnWrite f v) s = .next ((s.setFn f { s.fn f with causeEn := v &&& causeMask }).sendMsix f 0)))

/-- The admin queue is enabled and disabled, and interrupts are sent and moderated. A ready function whose admin queue is disabled
enables it with empty rings of the programmed depth when that depth lies from 2 to 4,096; any other depth is recorded as
INPUT_RANGE and leaves it disabled; disabling an enabled one drops its held records and its rings and discards the record of the
command in progress. A write that unmasks a masked vector of a function makes it send its pending messages; when the moderation
time of a queue has passed since its first unsignalled record, the queue signals its vector and counts no unsignalled record. -/
def Obligations.AdminQueueEnablesAndInterrupts : Prop :=
  (∀ (f : Fn) (s : State),
      (Writes s f 0x20000 → (s.fn f).ready = true → (s.fn f).admEnable = false → 2 ≤ (s.fn f).admDepth.toNat → (s.fn f).admDepth.toNat ≤ 4096 →
        exec (.admqEnable f) s = .next (s.setFn f { s.fn f with admEnable := true, admQ := (s.fn f).admRings })) ∧
      (Writes s f 0x20000 → (s.fn f).ready = true → (s.fn f).admEnable = false →
        ((s.fn f).admDepth.toNat < 2 ∨ 4096 < (s.fn f).admDepth.toNat) → exec (.admqEnable f) s = .next (s.regError f St.inputRange 0x20000)) ∧
      (Writes s f 0x20000 → (s.fn f).admEnable = true → exec (.admqDisable f) s =
        .next ((s.dropHeld f fun h => h.q == .admin).modFn f fun x => { x with admEnable := false, admQ := {}, admDiscard := x.admCur.isSome }))) ∧
  (∀ (f : Fn) (n q : Nat) (s : State),
      (Reaches s f → n < vectorsOf f → s.tableWrites f.port = true → (s.fn f).unmasked.contains n = false →
        exec (.msixUnmask f n) s = .next ((s.modFn f fun x => { x with unmasked := n :: x.unmasked }).sendPending f)) ∧
      ((s.queue f (.io q)).created = true → (s.queue f (.io q)).unsignalled ≠ 0 →
        (s.queue f (.io q)).modStart + 1000 * (s.queue f (.io q)).timerUs ≤ s.now →
        exec (.moderationTimerExpiry f q) s =
          .next ((s.setQueue f (.io q) { s.queue f (.io q) with unsignalled := 0 }).sendMsix f (s.queue f (.io q)).vector)))

/-- The commands on collections and bindings complete. With no rule common to all admin commands broken: CREATE_COLLECTION of a number
in range and not in use gives the collection its attributes and its binding, or fails with
ENTROPY_UNAVAILABLE, a status of the model (log 125), where the binding needs a key and the generator of the Curator does not serve; DELETE_COLLECTION of one without live entries and
without bound functions removes it with its wraps, floors and owner-policy binding; SET_COLLECTION_LIMITS replaces its weight and its two limits;
BIND_FUNCTION binds a function that is bound to none and has no queue; UNBIND_FUNCTION ends the binding of a function without
queues; each writes its attributes to the journal and completes with an OK record. IDENTIFY and GET_QUEUE_STATE write their bytes
to the data buffer, in requests of the port's payload size, and complete with their length. -/
def Obligations.AdminCollectionCommandsComplete : Prop :=
  ∀ (f : Fn) (e : List Byte) (s : State),
    (∀ c w mi c0, AdminRuns s f 0x81 .mgmt collFields e → collParams e = some (c, w, mi, c0) → byteAt e 18 ≤ 2 → s.coll c = none →
      (byteAt e 18 ≠ 0 ∨ s.drbgOk .curator = true → exec (.createCollection f) s = .next
        ((((s.setColl c (some { bindingMode := byteAt e 18, weight := w, maxInflight := mi, c0Max := c0 })).newBinding c (byteAt e 18)).journalColl c).admRecord
          f (w32 (leAt e 0 4)) St.ok 0 0)) ∧
      (byteAt e 18 = 0 → s.drbgOk .curator = false → exec (.createCollection f) s = .next
        (s.admRecord f (w32 (leAt e 0 4)) St.entropyUnavailable 0 0))) ∧
    (AdminRuns s f 0x82 .mgmt [(16, 2)] e → leAt e 16 2 ≤ 1023 → (s.coll (leAt e 16 2)).isSome = true →
      (s.entries.any fun r => r.coll == leAt e 16 2 && r.live) = false → s.boundFns (leAt e 16 2) = [] →
      exec (.deleteCollection f) s = .next
        (let t := s.setColl (leAt e 16 2) none
         let cat := { t.cat with wraps := t.cat.wraps.set [] (leAt e 16 2) [], floorsAt := t.cat.floorsAt.set [] (leAt e 16 2) [],
                                 unbound := t.cat.unbound ++ [(leAt e 16 2, t.boot.policyBody.getD [])] }
         ({ t with cat }).journalColl (leAt e 16 2) |>.admRecord f (w32 (leAt e 0 4)) St.ok 0 0)) ∧
    (∀ c w mi c0 x, AdminRuns s f 0x83 .mgmt collFields e → collParams e = some (c, w, mi, c0) → byteAt e 18 = 0xFF → s.coll c = some x →
      exec (.setCollectionLimits f) s = .next
        ((((s.setColl c (some { x with weight := w, maxInflight := mi, c0Max := c0 })).journalColl c).markC0.pumpAll).admRecord f (w32 (leAt e 0 4)) St.ok 0 0)) ∧
    (∀ t, AdminRuns s f 0x84 .mgmt [(16, 4)] e → targetFn e = some t → leAt e 18 2 ≤ 1023 → (s.coll (leAt e 18 2)).isSome = true →
      (s.fn t).coll = none → (s.fn t).created = [] →
      exec (.bindFunction f) s = .next
        (((s.modFn t fun x => { x with coll := some (leAt e 18 2) }).journalColl (leAt e 18 2)).admRecord f (w32 (leAt e 0 4)) St.ok 0 0)) ∧
    (∀ t c, AdminRuns s f 0x85 .mgmt [(16, 2)] e → targetFn e = some t → (s.fn t).coll = some c → (s.fn t).created = [] →
      exec (.unbindFunction f) s = .next
        (((s.modFn t fun x => { x with coll := none }).journalColl c).admRecord f (w32 (leAt e 0 4)) St.ok 0 0)) ∧
    (AdminRuns s f 0x80 .identify [] e → leAt e 8 8 ≠ 0 → (s.fn f).bme = true →
      exec (.identify f false) s = .next
        ((s.writeHost f.port (leAt e 8 8) (s.identifyBytes f)).admRecord f (w32 (leAt e 0 4)) St.ok 0 (s.identifyBytes f).length)) ∧
    (AdminRuns s f 0x8B .identify [(16, 2)] e → leAt e 16 2 ≤ 511 → leAt e 8 8 ≠ 0 → (s.fn f).bme = true →
      exec (.getQueueState f false) s = .next
        ((s.writeHost f.port (leAt e 8 8) (s.queueStateBytes f (leAt e 16 2))).admRecord f (w32 (leAt e 0 4)) St.ok 0
          (s.queueStateBytes f (leAt e 16 2)).length))

/-- The commands on queues complete, and DEVICE_RESET resets. CREATE_QUEUE with a legal entry, of a queue not in use and within the
two totals, creates it; DELETE_QUEUE in drain mode stops its consumption and answers later, DELETE_QUEUE in abort mode ends its
jobs and removes it at once; the end of a drain removes the queue and writes the record of its deletion; SET_MODERATION sets count
and time; DEVICE_RESET with the serial number of the device carries out the ordered reset, as does the device reset of a management function in
the recovery form, which has no admin queues (log 148). -/
def Obligations.AdminQueueCommandsComplete : Prop :=
  ∀ (f : Fn) (e : List Byte) (s : State),
    (∀ q x, AdminRuns s f 0x88 .bound [(16, 2), (20, 26)] e → newQueue f e = some (q, x) → (s.queue f (.io q)).created = false →
      s.queueCount < 4096 → (s.fn f).created.length < 512 →
      exec (.createQueue f) s = .next ((s.setQueue f (.io q) x).admRecord f (w32 (leAt e 0 4)) St.ok 0 0)) ∧
    (AdminRuns s f 0x89 .bound [(16, 3)] e → leAt e 16 2 ≤ 511 → byteAt e 18 = 0 → (s.queue f (.io (leAt e 16 2))).created = true →
      (s.queue f (.io (leAt e 16 2))).deleting = false →
      exec (.deleteQueue f) s = .next (s.setQueue f (.io (leAt e 16 2))
        { s.queue f (.io (leAt e 16 2)) with deleting := true, heldEntry := none, deleteTag := w32 (leAt e 0 4) })) ∧
    (AdminRuns s f 0x89 .bound [(16, 3)] e → leAt e 16 2 ≤ 511 → byteAt e 18 = 1 → (s.queue f (.io (leAt e 16 2))).created = true →
      (s.queue f (.io (leAt e 16 2))).deleting = false →
      exec (.deleteQueue f) s = .next
        (let t := (s.setQueue f (.io (leAt e 16 2))
            { s.queue f (.io (leAt e 16 2)) with deleting := true, heldEntry := none, deleteTag := w32 (leAt e 0 4) }).abortJobs
              fun _ j => j.src == .host f (.io (leAt e 16 2))
         (t.removeQueue f (leAt e 16 2)).2.pumpAll.admRecord f (w32 (leAt e 0 4)) St.ok (w64 (t.removeQueue f (leAt e 16 2)).1) 0)) ∧
    (∀ q, (s.queue f (.io q)).deleting = true → s.inFlight (.host f (.io q)) = 0 → s.boot.inReset = false →
      exec (.deleteQueueDrainComplete f q) s = .next
        ((s.removeQueue f q).2.admRecord f (s.queue f (.io q)).deleteTag St.ok (w64 (s.removeQueue f q).1) 0)) ∧
    (AdminRuns s f 0x8A .bound [(16, 3), (20, 2)] e → leAt e 16 2 ≤ 511 → moderationOk (byteAt e 18) (leAt e 20 2) = true →
      (s.queue f (.io (leAt e 16 2))).created = true →
      exec (.setModeration f) s = .next ((s.setQueue f (.io (leAt e 16 2))
        { s.queue f (.io (leAt e 16 2)) with modCount := byteAt e 18, modTimeUs := leAt e 20 2 }).admRecord f (w32 (leAt e 0 4)) St.ok 0 0)) ∧
    (s.recovery = false → AdminRuns s f 0x86 .mgmt [(16, 8)] e → w64 (leAt e 16 8) = s.serial → exec (.deviceReset f) s = .next s.orderedReset) ∧
    (s.recovery = true → s.portAnswers f.port = true → s.mgmt f = true → exec (.deviceReset f) s = .next s.orderedReset)

/-- An admin command that breaks a common rule changes nothing and completes with that status. For each of the eleven admin commands,
outside the recovery form, which has no admin queues: where the entry in progress names the command and one of the rules common to all admin commands gives a status other than OK, the
command only writes a record of that status with result and length zero; where none does, but the owner policy or a freeze bars the
command, and its parameters are in range (here those of GET_QUEUE_STATE, IDENTIFY and DEVICE_RESET), the record is POLICY_DENIED. -/
def Obligations.AdminCommonRulesRefuse : Prop :=
  ∀ (f : Fn) (e : List Byte) (fails : Bool) (s : State), (s.fn f).admCur = some e → s.boot.inReset = false → s.recovery = false →
    ∀ p ∈ [(Instr.identify f fails, 0x80, AdmFrom.identify, []), (.createCollection f, 0x81, .mgmt, collFields),
        (.deleteCollection f, 0x82, .mgmt, [(16, 2)]), (.setCollectionLimits f, 0x83, .mgmt, collFields),
        (.bindFunction f, 0x84, .mgmt, [(16, 4)]), (.unbindFunction f, 0x85, .mgmt, [(16, 2)]), (.deviceReset f, 0x86, .mgmt, [(16, 8)]),
        (.createQueue f, 0x88, .bound, [(16, 2), (20, 26)]), (.deleteQueue f, 0x89, .bound, [(16, 3)]),
        (.setModeration f, 0x8A, .bound, [(16, 3), (20, 2)]), (.getQueueState f fails, 0x8B, .identify, [(16, 2)])],
      byteAt e 4 = p.2.1 →
        (s.admStatus f p.2.2.1 p.2.2.2 e ≠ St.ok →
          exec p.1 s = .next (s.admRecord f (w32 (leAt e 0 4)) (s.admStatus f p.2.2.1 p.2.2.2 e) 0 0)) ∧
        (s.admStatus f p.2.2.1 p.2.2.2 e = St.ok → s.admBarred p.2.1 p.2.2.1 = true →
          (p.2.1 = 0x80 ∨ (p.2.1 = 0x8B ∧ leAt e 16 2 ≤ 511) ∨ (p.2.1 = 0x86 ∧ w64 (leAt e 16 8) = s.serial)) →
          (p.2.1 = 0x86 ∨ leAt e 8 8 ≠ 0) →
          exec p.1 s = .next (s.admRecord f (w32 (leAt e 0 4)) St.policyDenied 0 0))

/-- Port resets, configuration, bus mastering and IDE streams act. PERST# asserted at a port takes it and its link down and aborts what came from
it; its release trains the link at a rate and a width of R42 and starts the wait for configuration; when configuration is ready the functions of the port become ready, unless the
port answers in report-only or recovery form, and the boot stage is ready; a request to the configuration of a function whose port is not ready is
answered with Request Retry Status; a function-level reset resets one function, and clearing VF Enable resets every VF;
clearing Bus Master Enable ends the jobs of a function with BAD_BUFFER, setting it writes the held records with the time they waited, sends the messages that
pend and asks again for the heads of the function's queues; the failure of a Secure stream ends what it carried; an uncorrectable error at a port is reported, logged, and aborts what came from the port. -/
def Obligations.PortResetsAndConfiguration : Prop :=
  ∀ (w : Wing) (f : Fn) (s : State), s.boot.inReset = false →
    ((s.port w).perst = false → exec (.perstAssert w) s =
      .next (let t := s.portDown w; (t.setPort w { t.port w with perst := true, linkRate := 0, linkWidth := 0 }).pumpAll)) ∧
    (∀ rate width, (s.port w).perst = true → 1 ≤ rate → rate ≤ 6 → [1, 2, 4, 8].contains width = true → exec (.perstDeassert ⟨w, rate, width⟩) s =
      .next (s.setPort w { s.port w with perst := false, perstReleasedAt := s.now, linkRate := rate, linkWidth := width })) ∧
    ((s.port w).perst = false → (s.port w).cfgReady = false → s.configurable w = true → exec (.configurationReady w) s =
      .next (let t := s.setPort w { s.port w with cfgReady := true }
             if t.reportOnly w || t.recovery then t
             else ((if t.boot.stage = 4 then { t with boot := { t.boot with stage := 5 } } else t).forAll (portFns w)
               fun t f => t.setReady f true).tryAdmit w)) ∧
    (fnOk f = true → (s.port f.port).perst = false → (s.port f.port).cfgReady = false →
      ∀ c ∈ [Instr.functionLevelReset (.function f), .busMasterEnableClear f, .busMasterEnableSet f], exec c s = .next (s.emit (.retry f))) ∧
    (fnOk f = true → s.portAnswers f.port = true → exec (.functionLevelReset (.function f)) s = .next (s.functionReset f).pumpAll) ∧
    (s.portAnswers w = true → exec (.functionLevelReset (.vfEnableCleared w)) s =
      .next (let t := s.setPort w { s.port w with vfEnable := false }
             (t.forAll ((t.knownFns w).filter fun f => !isPf f) fun t f => t.flrFn f).pumpAll)) ∧
    (fnOk f = true → s.portAnswers f.port = true → (s.fn f).bme = true → exec (.busMasterEnableClear f) s =
      .next ((s.modFn f fun x => { x with bme := false }).endJobs (fun _ j => fromFn (· == f) j) St.badBuffer).pumpAll) ∧
    (fnOk f = true → s.portAnswers f.port = true → (s.fn f).bme = false → exec (.busMasterEnableSet f) s =
      .next ((((s.modFn f fun x => { x with bme := true, heldRecords := [] }).forAll (s.fn f).heldRecords
        fun t h => t.putRecord f h.q (h.late s.now) h.irq h.c0).sendPending f).refetch f)) ∧
    (∀ n, (s.port w).ideSecure.contains n = true → exec (.ideStreamFail w n) s = .next (s.streamFail w n).pumpAll) ∧
    ((s.port w).perst = false → exec (.portUncorrectableError w) s =
      .next (let t := (s.setPort w { s.port w with aer := (s.port w).aer ++ [.uncorrectableInternal] }).log 3 0 (dieSrc (wingDie w)) [0xFF]
             ((t.abortJobs fun _ j => fromFn (·.port == w) j).forAll (t.portPages w) fun t q => t.abortPage q).pumpAll))

/-- The data of a host read is taken, and a failed transfer is reported. The data of one host read of an EXEC in its reading stage is
stored with the read and the work goes on; a failed read of an input or of a parameter block ends the job as the failure demands;
a failed read of a queue slot stops the queue with reason 4 and logs it; a failed write of a record stops the completion side with
reason 5 and logs the record's tag, and where the queue is being deleted counts its job among those whose record was discarded; a failed
write of outputs, of an EXEC or of the release of a group, ends the job with FAULT_DETECTED, and inside a group nothing has been written. -/
def Obligations.DmaCompletionsAndFailures : Prop :=
  ∀ (n k : Nat) (j : Job) (e : Exec) (r : ReadReq) (data : List Byte) (kind : ReadFailure) (f : Fn) (q : QSel) (s : State),
    (s.job n = some j → j.exec = some e → e.reads[k]? = some r → s.tamper.frozen = false → e.stage = .reading →
      (s.work.grants.any fun g => g.job == n && g.suspended && g.res == .dmaRead j.wing) = false → r.got = none → data.length = r.len →
      exec (.dmaReadCompletion n k data) s =
        .next (s.putJob n { j with exec := some { e with reads := setAt e.reads k { r with got := some data } } }).pumpAll) ∧
    (s.job n = some j → j.exec = some e → e.stage = .reading → e.reads[k]? = some r → r.got = none →
      exec (.dmaReadFailure (.input n k) kind) s = .next (s.jobReadFails n j kind r.addr)) ∧
    (s.job n = some j → j.phase = .placed → j.paramLen ≠ 0 →
      exec (.dmaReadFailure (.paramBlock n) kind) s = .next (s.jobReadFails n j kind j.paramAddr)) ∧
    (fnOk f = true → (s.queue f q).created = true → (s.queue f q).stopped = false → (s.queue f q).heldEntry = none →
      (s.queue f q).sqHead ≠ (s.queue f q).sqTail → (s.fn f).bme = true → exec (.dmaReadFailure (.slot f q) kind) s =
        .next (((s.aerRead f.port kind).stopQueue f q false 4 false).log 1 St.badBuffer 0 (leBytes 2 (qselNum q) ++ [byte f.vf, byte (failureCode kind)]))) ∧
    (fnOk f = true → (s.queue f q).created = true → (s.queue f q).wrote = true → (s.queue f q).discards = false →
      exec (.dmaWriteInternalError (.record f q)) s = .next (
        (let t := s.stopQueue f q true 5 true
         if (s.queue f q).deleting then t.setQueue f q { t.queue f q with endedSilently := (s.queue f q).endedSilently + 1 } else t).log 1 0 0
          (leBytes 4 (s.queue f q).lastTag.toNat ++ leBytes 2 (qselNum q)))) ∧
    (∀ x, s.job n = some j → j.exec = some e → e.stage = .running → e.result = some x → hostOuts (outPairs j x.outs) ≠ [] →
      j.group = none → s.tamper.frozen = false → exec (.dmaWriteInternalError (.job n)) s = .next (s.jobWriteFails n j x)) ∧
    (∀ g, s.job n = some j → j.phase = .release → j.group = some g → g.staged ≠ [] → s.tamper.frozen = false →
      exec (.dmaWriteInternalError (.job n)) s = .next (s.releaseWriteFails n j)) ∧
    (∀ g, s.job n = some j → j.phase ≠ .release → j.group = some g → exec (.dmaWriteInternalError (.job n)) s = .next s)

/-- SPDM and MCTP requests are answered at their endpoints. An SPDM request at a DOE mailbox that is up, or at the Curator endpoint
over MCTP, is answered by the responder; GET_MEASUREMENTS answers the measurements once the version has been negotiated, BUSY when
a hand-over lies in its span, and UNEXPECTED_REQUEST before; MCTP control messages set and read the endpoint identifier; a
register read answers the word of DEV, FSTAT, EVLOG or GALSTAT; a device reset is carried out at the Curator endpoint where the
policy allows it. The codes of the protocols are taken from their standards (log 42). -/
def Obligations.SpdmAndMctpRequestsAnswer : Prop :=
  ∀ (w : Wing) (req : SpdmReq) (via : SpdmVia) (index : Nat) (sign : Option Nat) (ep : Endpoint) (s : State), s.boot.inReset = false →
    (s.doeUp w = true → exec (.doeSpdmRequest w req) s = .next (s.spdm (.doe w) req)) ∧
    ((∀ v, via = .doe v → s.doeUp v = true) → (s.spdmOf via).negotiated = true →
      exec (.getMeasurements via index ⟨sign, false⟩) s = .next (s.measurements via index sign)) ∧
    ((∀ v, via = .doe v → s.doeUp v = true) → exec (.getMeasurements via index ⟨sign, true⟩) s = .next (s.spdmError via SpdmErr.busy)) ∧
    ((∀ v, via = .doe v → s.doeUp v = true) → (s.spdmOf via).negotiated = false →
      exec (.getMeasurements via index ⟨sign, false⟩) s = .next (s.spdmError via SpdmErr.unexpectedRequest)) ∧
    (∀ msg, byteAt msg 1 = 0x01 → byteAt msg 3 ≠ 0 → byteAt msg 3 ≠ 0xFF → exec (.mctpControl ep msg) s =
      .next (({ s with host := { s.host with eids := setAt s.host.eids (endpointIdx ep) (byte (byteAt msg 3)) } }).mctp ep true
        [0x00, 0x00, byte (byteAt msg 3), 0x00])) ∧
    (∀ msg, byteAt msg 1 = 0x02 → exec (.mctpControl ep msg) s =
      .next (s.mctp ep true [0x00, s.host.eids.getD (endpointIdx ep) 0, 0x00, 0x00])) ∧
    (exec (.mctpSpdm .curator req) s = .next (s.spdm .mctp req) ∧ exec (.mctpSpdm (.wing w) req) s = .next (s.mctp (.wing w) false [])) ∧
    (∀ f off, off / 0x1000 = 0x100 → exec (.mctpRegisterRead ep f off) s =
      .next (s.mctp ep true (leBytes 4 (s.readDev (off % 0x1000)).toNat))) ∧
    (∀ f off, off / 0x1000 = 0x001 → fnOk f = true → exec (.mctpRegisterRead ep f off) s =
      .next ((s.mctp ep true (leBytes 4 (s.readFstat f (off % 0x1000)).toNat)).fstatReadClear f (off % 0x1000))) ∧
    (s.devPolicy.smbReset = true → exec (.mctpDeviceReset .curator) s = .next s.orderedReset) ∧
    (s.devPolicy.smbReset = false → exec (.mctpDeviceReset .curator) s = .next (s.mctp .curator false []))

/-- Entries are fetched, dispatched and started. A fetched entry of an I/O queue of a running queue is held for arbitration, and the
dispatcher takes it at once where it is the only entry held by the wing; a fetched entry of the admin queue begins the command
when none is in progress. Where the dispatcher of a wing runs and some entry can be consumed, of C0 or of a class within its share of
this slot, a dispatch decision consumes one such entry, and one of C0 if any is; but for the counters of the arbitration it is
consumed in the state the dispatcher saw. Where one C0 entry alone can be consumed it is that one, and its collection's deficit and the
round robins move on; where none can, only the marks of entries that wait are made, and where the dispatcher does not run, nothing
changes. A program whose parameter block
has arrived, whose contexts fit and whose instructions pass the static checks, stands at its first instruction with registers as
R106 gives them, its queue noting the epoch it latched; one whose fetch from the library meets an uncorrectable error reloads the slot from the other wing and ends with
FAULT_DETECTED. -/
def Obligations.EntriesArePlacedAndProgramsStart : Prop :=
  (∀ (w : Wing) (s : State) (l : List Head) (t : State), s.seen w = (l, t) →
      (s.dispatchOn w = false → exec (.dispatchDecision w) s = .next s) ∧
      (s.dispatchOn w = true → l = [] → exec (.dispatchDecision w) s = .next t) ∧
      (s.dispatchOn w = true → (∃ h ∈ l, h.cls = 0 ∨ (t.disp w).slot < t.share h.cls) →
        ∃ h ∈ l, ∃ u : State, exec (.dispatchDecision w) s = .next (u.consume w h) ∧
          u = { t with host := { t.host with dispW := u.host.dispW, dispE := u.host.dispE, colls := u.host.colls } } ∧
          ((l.any fun g => g.cls == 0) = true → h.cls = 0) ∧
          ((l.any fun g => g.cls == 0) = false → (t.disp w).slot < t.share h.cls)) ∧
      (∀ h x k, s.dispatchOn w = true → l = [h] → h.cls = 0 → t.coll h.coll = some x → k = 4 * wingIdx w →
        ∃ u : State, exec (.dispatchDecision w) s = .next (u.consume w h) ∧
          (u.disp w).slot = ((t.disp w).slot + 1) % 16 ∧ (u.disp w).lastQueue = (t.disp w).lastQueue.set 0 (4 * h.coll) h.key ∧
          (u.disp w).lastColl = setAt (t.disp w).lastColl 0 h.coll ∧
          (let left := x.deficit.getD k 0
           let d := setAt x.deficit k (if (t.disp w).lastColl.getD 0 0 = h.coll ∧ 0 < left then left - 1 else x.weight - 1)
           u.coll h.coll = some { x with deficit := d }))) ∧
  (∀ (f : Fn) (e : List Byte) (s : State),
      (∀ q, e.length = 64 → fnOk f = true → (s.queue f q).created = true → (s.queue f q).stopped = false → (s.queue f q).deleting = false →
        (s.queue f q).heldEntry = none → (s.queue f q).sqHead ≠ (s.queue f q).sqTail → (s.fn f).bme = true → s.boot.inReset = false →
        s.lowPower = false →
        (q = .admin → (s.fn f).admCur = none → exec (.entryFetchComplete f q e) s = .next (s.beginAdmin f e)) ∧
        (q ≠ .admin → exec (.entryFetchComplete f q e) s =
          .next (let t := s.setQueue f q { s.queue f q with heldEntry := some e }
                 if (t.hostHeads f.port).length = 1 then t.dispatch f.port else t))) ∧
      (∀ n j, s.job n = some j → j.phase = .placed → j.parked = false → e.length = j.paramLen → s.tamper.frozen = false →
        s.wingRuns (galleryWing j.gallery) = true →
        let t := s.latchEpoch n j.src
        ((t.putJob n (s.startContext j e)).memoryFits n (s.startContext j e) = true → (s.startContext j e).prog ≠ [] →
          (t.putJob n (s.startContext j e)).staticFailure (s.startContext j e).prog = none →
          exec (.programStart n ⟨e, false⟩) s =
            .next ((t.putJob n (s.startContext j e)).atBoundary n (s.startContext j e) 0)) ∧
        (∀ k, j.progNo = some k → exec (.programStart n ⟨e, true⟩) s =
          .next (((t.putJob n (s.startContext j e)).reloadSlot (galleryWing j.gallery) k).endJob n St.faultDetected))))

/-- The register instructions write their destination, and a job goes on, ends or skips at a boundary. A job that stands at one of the
eleven register instructions, whose condition holds, counts the instruction, writes to the destination register the value the
instruction defines (shifts take the low six bits of the immediate; MOVHI replaces bits 63 to 40), and goes on; CMP and CMPI write
EQ and LTU of F; NOP writes nothing. Where no end waits, an instruction that completes with a status puts the job at the next
instruction with that status, and past the last instruction the program ends; a failed status that may not continue ends the job
with it; a branch goes to its target; an instruction whose condition does not hold only moves the job on; a job that has executed
4,096 instructions ends with reason 6. -/
def Obligations.DamobRegisterInstructions : Prop :=
  (∀ (n : Nat) (j : Job) (s : State),
      (∀ p ∈ [(Instr.insMovi n, 0x10, w64 (insImm j.ins)), (.insMovhi n, 0x11, movhi (j.reg (insDst j.ins)) (insImm j.ins)),
          (.insMov n, 0x12, j.reg (insSrcA j.ins)), (.insAdd n, 0x13, j.reg (insSrcA j.ins) + j.reg (insSrcB j.ins)),
          (.insAddi n, 0x14, j.reg (insSrcA j.ins) + signedImm j.ins), (.insSub n, 0x15, j.reg (insSrcA j.ins) - j.reg (insSrcB j.ins)),
          (.insAnd n, 0x16, j.reg (insSrcA j.ins) &&& j.reg (insSrcB j.ins)), (.insOr n, 0x17, j.reg (insSrcA j.ins) ||| j.reg (insSrcB j.ins)),
          (.insXor n, 0x18, j.reg (insSrcA j.ins) ^^^ j.reg (insSrcB j.ins)), (.insShl n, 0x19, j.reg (insSrcA j.ins) <<< (insImm j.ins % 64)),
          (.insShr n, 0x1A, j.reg (insSrcA j.ins) >>> (insImm j.ins % 64))],
        StandsAt s n p.2.1 j → exec p.1 s = .next ((s.putJob n j.counted).advance n (j.counted.setReg (insDst j.ins) p.2.2))) ∧
      (StandsAt s n 0x00 j → exec (.insNop n) s = .next ((s.putJob n j.counted).advance n j.counted)) ∧
      (StandsAt s n 0x1B j → exec (.insCmp n) s = .next ((s.putJob n j.counted).advance n
        { j.counted with f := fCompare j.f (j.reg (insSrcA j.ins)) (j.reg (insSrcB j.ins)) })) ∧
      (StandsAt s n 0x1C j → exec (.insCmpi n) s = .next ((s.putJob n j.counted).advance n
        { j.counted with f := fCompare j.f (j.reg (insSrcA j.ins)) (w64 (insImm j.ins)) }))) ∧
  (∀ (n : Nat) (j : Job) (s : State),
      (∀ pc, j.ending = none → pc < j.prog.length → s.atBoundary n j pc = s.putJob n { j with pc, phase := .ready, exec := none }) ∧
      (∀ pc, j.ending = none → j.prog.length ≤ pc →
        s.atBoundary n j pc = (s.putJob n { j with pc, phase := .ready, exec := none }).endProgram n none 0) ∧
      (∀ st, j.ending = some st → ∀ pc, s.atBoundary n j pc = (s.putJob n { j with pc, phase := .ready, exec := none }).endJob n st) ∧
      (∀ st cont, isSuccess st = true ∨ (isContinuable st = true ∧ cont = true) → s.complete n j st cont = s.atBoundary n { j with st } (j.pc + 1)) ∧
      (∀ st cont, isSuccess st = false → ¬ (isContinuable st = true ∧ cont = true) →
        s.complete n j st cont = (s.putJob n { j with st }).endJob n st) ∧
      (StandsAt s n 0x02 j → exec (.insBr n) s =
        .next ((s.putJob n j.counted).atBoundary n j.counted ((j.pc : Int) + 1 + brOffset j.ins).toNat)) ∧
      (s.job n = some j → s.tamper.frozen = false → s.wingRuns (galleryWing j.gallery) = true → j.parked = false → j.phase = .ready →
        j.pc < j.prog.length → j.executed < 4096 → j.ending = none → insOpcode j.ins = 0x00 → condHolds (insCond j.ins) j.st j.f = false →
        exec (.insNop n) s = .next (s.advance n j.counted)) ∧
      (s.job n = some j → s.tamper.frozen = false → s.wingRuns (galleryWing j.gallery) = true → j.phase = .ready → 4096 ≤ j.executed →
        exec (.instructionBudgetExhausted n) s = .next (s.badProgram n 6)))

/-- Parameter and buffer loads, buffer registers and groups do what the spec says. LDP loads the parameter word it names; LDB loads
eight bytes of a buffer that holds them, none of them secret; BUF parses its descriptors into the buffer registers; BSLICE cuts
the window it names; BLEN writes the length of a buffer; BIND opens a group where none is open; ENDB of a group that has not
failed and whose accessions reach the Registrar issues the staged writes, commits the accessions and adds the staged length to the
output length, with accessions on an orphan it ends the job with SPLIT_ORPHAN, a write of it that fails ends the job with BAD_BUFFER
and commits nothing, and between its writes and its commit the job stands in its release; BLEN of an empty register and BIND inside a group
end with the reason R117 gives. -/
def Obligations.DamobLoadsBuffersAndGroups : Prop :=
  ∀ (n : Nat) (j : Job) (s : State),
    (∀ v, StandsAt s n 0x1D j → j.paramWord (insImm j.ins % 512) = some v →
      exec (.insLdp n) s = .next ((s.putJob n j.counted).complete n (j.counted.setReg (insDst j.ins) v) St.ok false)) ∧
    (StandsAt s n 0x1D j → j.paramWord (insImm j.ins % 512) = none → exec (.insLdp n) s = .next ((s.putJob n j.counted).endJob n St.badBuffer)) ∧
    (∀ b bytes, StandsAt s n 0x1E j → j.buf (insSrcA j.ins) = some b → j.gbytes b = some bytes →
      (j.reg (insSrcB j.ins)).toNat + insImm j.ins % 65536 + 8 ≤ b.len →
      secretIn (slice bytes ((j.reg (insSrcB j.ins)).toNat + insImm j.ins % 65536) 8) = false →
      exec (.insLdb n) s = .next ((s.putJob n j.counted).complete n
        (j.counted.setReg (insDst j.ins) (w64 (leNat (raw (slice bytes ((j.reg (insSrcB j.ins)).toNat + insImm j.ins % 65536) 8))))) St.ok false)) ∧
    (∀ bs, StandsAt s n 0x30 j → parseDescriptors j.params (insImm j.ins % 4096) (fieldAt (insImm j.ins) 12 3 + 1) = some bs →
      (j.counted.loadBufs (insDst j.ins) bs).gmem.length = j.gmem.length →
      exec (.insBuf n) s = .next ((s.putJob n j.counted).complete n (j.counted.loadBufs (insDst j.ins) bs) St.ok (insCont j.ins))) ∧
    (∀ b x, StandsAt s n 0x31 j → j.buf (insSrcA j.ins) = some b → fieldAt (insImm j.ins) 0 20 ≤ b.len →
      b.slice (fieldAt (insImm j.ins) 0 20) (if fieldAt (insImm j.ins) 20 20 = 0 then b.len - fieldAt (insImm j.ins) 0 20 else fieldAt (insImm j.ins) 20 20) = some x →
      exec (.insBslice n) s = .next ((s.putJob n j.counted).complete n { j.counted with b := setAt j.b (insDst j.ins) (some x) } St.ok false)) ∧
    (∀ b, StandsAt s n 0x32 j → j.buf (insSrcA j.ins) = some b →
      exec (.insBlen n) s = .next ((s.putJob n j.counted).advance n (j.counted.setReg (insDst j.ins) (w64 b.len)))) ∧
    (StandsAt s n 0x32 j → j.buf (insSrcA j.ins) = none → exec (.insBlen n) s = .next ((s.putJob n j.counted).badProgram n 7)) ∧
    (StandsAt s n 0x50 j → j.group = none → exec (.insBind n) s = .next ((s.putJob n j.counted).advance n { j.counted with group := some {} })) ∧
    (StandsAt s n 0x50 j → j.group ≠ none → exec (.insBind n) s = .next ((s.putJob n j.counted).badProgram n 8)) ∧
    (∀ g r, StandsAt s n 0x51 j → j.group = some g → g.failed = St.ok → g.accessions ≠ [] → s.hasCurator (galleryWing j.gallery) = false →
      exec (.insEndb n r) s = .next ((s.putJob n j.counted).endJob n St.splitOrphan)) ∧
    (∀ g, StandsAt s n 0x51 j → j.group = some g → g.failed = St.ok →
      (g.accessions = [] ∨ s.hasCurator (galleryWing j.gallery) = true) → (g.staged = [] ∨ s.dmaOk j = true) →
      exec (.insEndb n .done) s = .next ((((s.putJob n j.counted).issue j.wing g.staged).forAll g.accessions fun t p => t.commitAccession p).complete n
        { j.counted with group := none, outLen := j.outLen + j.counted.staged, made := j.made ++ g.accessions.map fun p => recHandle p.record }
        St.ok (insCont j.ins)) ∧
      exec (.insEndb n .stays) s = .next (((s.putJob n j.counted).issue j.wing g.staged).putJob n { j.counted with phase := .release }) ∧
      (g.staged ≠ [] → exec (.insEndb n .fails) s =
        .next ((((s.putJob n j.counted).issue j.wing g.staged).putJob n { j.counted with phase := .release }).endJob n St.badBuffer))) ∧
    (∀ g, s.job n = some j → j.phase = .release → j.group = some g → s.tamper.frozen = false → j.parked = false →
      s.wingRuns (galleryWing j.gallery) = true → (g.accessions = [] ∨ s.hasCurator (galleryWing j.gallery) = true) →
      exec (.insEndb n .done) s = .next ((s.forAll g.accessions fun t p => t.commitAccession p).complete n
        { j with group := none, outLen := j.outLen + j.staged, made := j.made ++ g.accessions.map fun p => recHandle p.record }
        St.ok (insCont j.ins)))

/-- END, LOAN, LOANP, RETURN and the answer to a loan request do what the spec says. END outside a group ends the program with its
status and result; LOAN and LOANP give back what the handle register holds and ask the Registrar, unless a hand-over pause turns
the request away at once; the Registrar grants the loan of a key that all its checks allow, and the handle register then names it;
RETURN of a register that holds a loan gives it back. -/
def Obligations.DamobEndsAndLoans : Prop :=
  ∀ (n : Nat) (j : Job) (s : State),
    (StandsAt s n 0x01 j → j.group = none → (insImm j.ins).testBit 8 = false → exec (.insEnd n) s =
      .next ((s.putJob n j.counted).endProgram n none (if (insImm j.ins).testBit 9 then j.reg (insSrcA j.ins) else 0))) ∧
    (StandsAt s n 0x01 j → j.group = none → (insImm j.ins).testBit 8 = true →
      (byte (insImm j.ins % 256) = St.ok ∨ isContinuable (byte (insImm j.ins % 256)) = true) → exec (.insEnd n) s =
      .next ((s.putJob n j.counted).endProgram n (some (byte (insImm j.ins % 256))) (if (insImm j.ins).testBit 9 then j.reg (insSrcA j.ins) else 0))) ∧
    (StandsAt s n 0x20 j → exec (.insLoan n) s = .next ((s.putJob n j.counted).askLoan n j.counted)) ∧
    (StandsAt s n 0x21 j → j.loanHandle.isSome = true → exec (.insLoanp n) s = .next ((s.putJob n j.counted).askLoan n j.counted)) ∧
    (StandsAt s n 0x21 j → j.loanHandle = none → exec (.insLoanp n) s = .next ((s.putJob n j.counted).endJob n St.badBuffer)) ∧
    (s.job n = some j → s.tamper.frozen = false → j.parked = false → s.wingRuns j.wing = true → j.phase = .loanWait → j.ending = none →
      exec (.loanGrant n) s = .next (s.loanReply n j)) ∧
    (∀ st, s.job n = some j → s.tamper.frozen = false → j.parked = false → s.wingRuns j.wing = true → j.phase = .loanWait → j.ending = some st →
      exec (.loanGrant n) s = .next (s.endJob n st)) ∧
    (StandsAt s n 0x22 j → (j.loanNo (insDst j.ins)).isSome = true → exec (.insReturn n) s =
      .next (((s.putJob n j.counted).giveBack n j.counted (insDst j.ins)).2.advance n ((s.putJob n j.counted).giveBack n j.counted (insDst j.ins)).1)) ∧
    (StandsAt s n 0x22 j → j.loanNo (insDst j.ins) = none → exec (.insReturn n) s = .next ((s.putJob n j.counted).badProgram n 7))

/-- The ML-KEM, ML-DSA, FN-DSA and hybrid functions begin. The twenty-two functions of the lattice engines and the hybrid
constructions. Each of them, for a job that stands at an EXEC of its code whose selector, options, loans and buffers are as its
description wants them and whose engines are in service, begins: the instruction is counted, the job takes the reads and the units
that the description asks for, and the EXEC goes as far as its units, generators and reads let it. -/
def Obligations.LatticeAndHybridFunctionsBegin : Prop :=
  ∀ (n : Nat) (j : Job) (x : FnSpec) (s : State),
    ∀ p ∈ [(Instr.mlkemKeygen n, 0x0101), (.mlkemEncaps n, 0x0102), (.mlkemDecaps n, 0x0103), (.mlkemEncapsk n, 0x0104),
        (.mlkemExportek n, 0x0105), (.mlkemImportek n, 0x0106), (.mldsaKeygen n, 0x0201), (.mldsaSign n, 0x0202),
        (.mldsaVerify n, 0x0203), (.mldsaVerifyx n, 0x0204), (.mldsaExportpk n, 0x0205), (.mldsaImportpk n, 0x0206),
        (.fndsaKeygen n, 0x0301), (.fndsaSign n, 0x0302), (.fndsaVerify n, 0x0303), (.fndsaVerifyx n, 0x0304),
        (.fndsaExportpk n, 0x0305), (.fndsaImportpk n, 0x0306), (.hybKexcombine n, 0x1001), (.hybSign n, 0x1002),
        (.hybVerify n, 0x1003), (.hybVerifyx n, 0x1004)],
      Begins s n p.2 j x → exec p.1 s = .next (((s.begun n j).beginExec n (s.begunJob n j) x).advanceExec n)

/-- The SLH-DSA, LMS, XMSS and DIGEST functions begin. The twenty-nine functions of the hash array and the signatures built on it.
Each of them, for a job that stands at an EXEC of its code whose selector, options, loans and buffers are as its description wants
them and whose engines are in service, begins: the instruction is counted, the job takes the reads and the units that the
description asks for, and the EXEC goes as far as its units, generators and reads let it. -/
def Obligations.HashFunctionsBegin : Prop :=
  ∀ (n : Nat) (j : Job) (x : FnSpec) (s : State),
    ∀ p ∈ [(Instr.slhdsaKeygen n, 0x0401), (.slhdsaSign n, 0x0402), (.slhdsaVerify n, 0x0403), (.slhdsaVerifyx n, 0x0404),
        (.slhdsaExportpk n, 0x0405), (.slhdsaImportpk n, 0x0406), (.lmsKeygen n, 0x0501), (.lmsSign n, 0x0502),
        (.lmsVerify n, 0x0503), (.lmsVerifyx n, 0x0504), (.lmsExportpk n, 0x0505), (.lmsImportpk n, 0x0506),
        (.xmssKeygen n, 0x0601), (.xmssSign n, 0x0602), (.xmssVerify n, 0x0603), (.xmssVerifyx n, 0x0604),
        (.xmssExportpk n, 0x0605), (.xmssImportpk n, 0x0606), (.digestHash n, 0x0B01), (.digestCshake n, 0x0B02),
        (.digestHmac n, 0x0B03), (.digestHmacverify n, 0x0B04), (.digestKmac n, 0x0B05), (.digestKmacverify n, 0x0B06),
        (.digestHkdf n, 0x0B07), (.digestKdf108 n, 0x0B08), (.digestSbegin n, 0x0B10), (.digestScont n, 0x0B11),
        (.digestSend n, 0x0B12)],
      Begins s n p.2 j x → exec p.1 s = .next (((s.begun n j).beginExec n (s.begunJob n j) x).advanceExec n)

/-- The Classic McEliece, HQC, RSA and elliptic-curve functions begin. The thirty functions of the code-based and classical engines.
Each of them, for a job that stands at an EXEC of its code whose selector, options, loans and buffers are as its description wants
them and whose engines are in service, begins: the instruction is counted, the job takes the reads and the units that the
description asks for, and the EXEC goes as far as its units, generators and reads let it. -/
def Obligations.CodeBasedAndClassicalFunctionsBegin : Prop :=
  ∀ (n : Nat) (j : Job) (x : FnSpec) (s : State),
    ∀ p ∈ [(Instr.mcelieceKeygen n, 0x0701), (.mcelieceEncaps n, 0x0702), (.mcelieceDecaps n, 0x0703),
        (.mcelieceEncapsk n, 0x0704), (.mcelieceExportpk n, 0x0705), (.mcelieceImportpk n, 0x0706),
        (.mcelieceReside n, 0x0707), (.hqcKeygen n, 0x0801), (.hqcEncaps n, 0x0802), (.hqcDecaps n, 0x0803),
        (.hqcEncapsk n, 0x0804), (.hqcExportpk n, 0x0805), (.hqcImportpk n, 0x0806), (.rsaKeygen n, 0x0901),
        (.rsaSign n, 0x0902), (.rsaVerify n, 0x0903), (.rsaVerifyx n, 0x0904), (.rsaDecrypt n, 0x0905),
        (.rsaEncrypt n, 0x0906), (.rsaExportpk n, 0x0907), (.rsaImportpk n, 0x0908), (.ecKeygen n, 0x0A01),
        (.ecSign n, 0x0A02), (.ecVerify n, 0x0A03), (.ecVerifyx n, 0x0A04), (.ecEphagree n, 0x0A05), (.ecAgree n, 0x0A06),
        (.ecExportpk n, 0x0A07), (.ecImportpk n, 0x0A08), (.ecCurvecheck n, 0x0A09)],
      Begins s n p.2 j x → exec p.1 s = .next (((s.begun n j).beginExec n (s.begunJob n j) x).advanceExec n)

/-- The AES, payment, random and catalogue functions begin. The twenty-three functions of the symmetric cores, the payment block, the
random source and the catalogue. Each of them, for a job that stands at an EXEC of its code whose selector, options, loans and
buffers are as its description wants them and whose engines are in service, begins: the instruction is counted, the job takes the
reads and the units that the description asks for, and the EXEC goes as far as its units, generators and reads let it. -/
def Obligations.SymmetricAndCatalogueFunctionsBegin : Prop :=
  ∀ (n : Nat) (j : Job) (x : FnSpec) (s : State),
    ∀ p ∈ [(Instr.aesEncrypt n, 0x0C01), (.aesDecrypt n, 0x0C02), (.aesCmac n, 0x0C03), (.aesCmacverify n, 0x0C04),
        (.aesAeadseal n, 0x0C05), (.aesAeadopen n, 0x0C06), (.payPinxlate n, 0x0D01), (.payDukptxlate n, 0x0D02),
        (.payDukptderive n, 0x0D03), (.payDukptik n, 0x0D04), (.payKbexport n, 0x0D05), (.payKbimport n, 0x0D06),
        (.randBytes n, 0x0E01), (.catGenerate n, 0x0F01), (.catImportClear n, 0x0F02), (.catUnwrap n, 0x0F03),
        (.catWrap n, 0x0F04), (.catWithdraw n, 0x0F05), (.catRevoke n, 0x0F06), (.catPin n, 0x0F07), (.catInfo n, 0x0F08),
        (.catSync n, 0x0F09), (.catCheckpoint n, 0x0F0A)],
      Begins s n p.2 j x → exec p.1 s = .next (((s.begun n j).beginExec n (s.begunJob n j) x).advanceExec n)

/-- An EXEC that lacks a loan, a description, a purpose or a buffer fails in the order of the checks. For every function code: where a
handle register that the EXEC names holds no loan, the job ends with reason 7; where the selector or the options are not those of
the function, the EXEC fails with KEY_CLASS; where an output is a template that the function bars, the job ends with reason 5; where a loan does not give the purpose or the class wanted, it fails with that
status; where a buffer register is empty, the job ends with reason 7; a catalogue function on a wing without the Curator's authority
ends the job with SPLIT_ORPHAN. -/
def Obligations.EngineFunctionsRefuse : Prop :=
  ∀ (n c : Nat) (j : Job) (s : State), StandsAt s n 0x40 j → (execFields j.ins).code = c →
    (c / 256 = 0x0F → (s.begun n j).hasCurator (galleryWing j.gallery) = false → s.beginFn c n = (s.begun n j).endJob n St.splitOrphan) ∧
    ((c / 256 = 0x0F → (s.begun n j).hasCurator (galleryWing j.gallery) = true) →
      (((s.begun n j).execLoans (s.begunJob n j) (execFields j.ins)).length ≠ (loanRegs (execFields j.ins)).length →
        s.beginFn c n = (s.begun n j).badProgram n 7) ∧
      (((s.begun n j).execLoans (s.begunJob n j) (execFields j.ins)).length = (loanRegs (execFields j.ins)).length →
        ((s.begun n j).specNow (s.begunJob n j) = none → s.beginFn c n = (s.begun n j).failExec n St.keyClass) ∧
        (∀ x, (s.begun n j).specNow (s.begunJob n j) = some x → barsTemplate x (outputBufs (s.begunJob n j) (execFields j.ins) x) = true →
          s.beginFn c n = (s.begun n j).badProgram n 5) ∧
        (∀ x, (s.begun n j).specNow (s.begunJob n j) = some x → barsTemplate x (outputBufs (s.begunJob n j) (execFields j.ins) x) = false →
          loanStep ((s.begun n j).view (s.begunJob n j)) ((s.begun n j).execLoans (s.begunJob n j) (execFields j.ins)) x.loans ≠ St.ok →
          s.beginFn c n = (s.begun n j).failExec n
            (loanStep ((s.begun n j).view (s.begunJob n j)) ((s.begun n j).execLoans (s.begunJob n j) (execFields j.ins)) x.loans)) ∧
        (∀ x, (s.begun n j).specNow (s.begunJob n j) = some x → barsTemplate x (outputBufs (s.begunJob n j) (execFields j.ins) x) = false →
          loanStep ((s.begun n j).view (s.begunJob n j)) ((s.begun n j).execLoans (s.begunJob n j) (execFields j.ins)) x.loans = St.ok →
          (inputBufs (s.begunJob n j) (execFields j.ins) x ++ outputBufs (s.begunJob n j) (execFields j.ins) x).any (·.isNone) = true →
          s.beginFn c n = (s.begun n j).badProgram n 7)))

/-- An engine that completes finishes, fails or trips the EXEC, and wipes, preemptions and resident keys follow. When the engine of a
running EXEC that is neither suspended nor stalled completes, the EXEC finishes with its result if the status is a success, fails
with that status otherwise, and records the unit where its own check found a fault; plaintext released in segments is overwritten with zeros where a segment cannot be written or the tag does
not fit; a check of one of its units that trips ends it with FAULT_DETECTED, logs the unit, the function,
the check and the slots and counts the error; a wiped unit may take a job again, once a key that waits for it is loaded; a waiting job of a higher
class suspends the job whose unit it takes, with all the big-number engines of that job; a suspended job resumes, and ends there where
a status waits; a queued key, or one that a key generation evicted, becomes resident once the engine is free. -/
def Obligations.EngineEventsFinishJobs : Prop :=
  ∀ (n : Nat) (j : Job) (e : Exec) (r : ExecResult) (d : FnDef) (ev : EngineEvent) (s : State),
    (s.job n = some j → j.exec = some e → e.result = some r → fnDef (execFields j.ins).code = some d → s.tamper.frozen = false → j.parked = false →
      s.wingRuns (galleryWing j.gallery) = true → e.stage = .running → s.isSuspended n = false → s.stalled j e = false → d.ready n r s = true →
      (ev.trip = none → ((d.finish r s).released = 0 ∨ ev.writeFails = false) → isSuccess (d.finish r s).status = true →
        exec (.engineOperationComplete n ev) s = .next (s.finishExec n j (d.finish r s) ev.writeFails).pumpAll) ∧
      (ev.trip = none → (d.finish r s).released = 0 → (d.finish r s).status = St.faultDetected → exec (.engineOperationComplete n ev) s =
        .next (s.faultFound n j).pumpAll) ∧
      (ev.trip = none → (d.finish r s).released = 0 → isSuccess (d.finish r s).status = false → (d.finish r s).status ≠ St.faultDetected →
        exec (.engineOperationComplete n ev) s = .next (s.failExec n (d.finish r s).status).pumpAll) ∧
      (ev.trip = none → (d.finish r s).released ≠ 0 → ev.writeFails = true → exec (.engineOperationComplete n ev) s =
        .next (s.scrubRelease n j (d.finish r s) St.badBuffer (some ev.segment) ev.scrubFails.contains).pumpAll) ∧
      (ev.trip = none → (d.finish r s).released ≠ 0 → ev.writeFails = false → isSuccess (d.finish r s).status = false →
        exec (.engineOperationComplete n ev) s =
          .next (s.scrubRelease n j (d.finish r s) (d.finish r s).status none ev.scrubFails.contains).pumpAll) ∧
      (∀ u, ev.trip = some u → s.uses n u = true → exec (.engineOperationComplete n ev) s =
        .next (let t := s.log 2 St.faultDetected (unitSrc u) (leBytes 2 (execFields j.ins).code ++ leBytes 4 j.tag.toNat ++ [byte ev.measure] ++
                 s.faultSlots n u)
               ((t.endJobWith n St.faultDetected 0 0 .record ev.scrubFails.contains).countError u).pumpAll)) ∧
      (∀ u, ev.trip = some u → s.uses n u = false → exec (.engineOperationComplete n ev) s = .next s)) ∧
    (∀ g k, (s.gal g).wipingKind k = true → exec (.engineWipeComplete g k) s =
      .next ((s.setGal g { s.gal g with wiping := (s.gal g).wiping.eraseP fun y => y.1 == k }).loadDue g).pumpAll) ∧
    (∀ res higher w g, s.tamper.frozen = false → s.waiter res higher = some w → s.victim res higher w.1 = some g →
      s.suffices higher w.1 res w.2 = false → s.storeFor g = true → exec (.jobPreemption res higher) s =
      .next (match g.res with
        | .bigNumber _ => s.forAll (s.work.grants.filter fun (x : Grant) => x.res == g.res && x.job == g.job && x.running) fun s x => s.suspendGrant x
        | .aes k => (let t := s.setSuspended g.seq true g.idx
                     t.setGal k { t.gal k with ctxStore := (t.gal k).ctxStore + 1 })
        | _ => s.setSuspended g.seq true g.idx).pumpAll) ∧
    (s.tamper.frozen = false → exec (.suspendedJobResume n) s =
      .next (let t := s.forAll (s.work.grants.filter fun g => g.job == n) fun s g => s.resumeGrant g
             (match t.job n with
              | some j =>
                match j.ending with
                | some st => if j.phase = JobPhase.exec ∧ t.isSuspended n = false then t.endJob n st else t
                | none => t
              | none => t).pumpAll)) ∧
    (∀ g key, (s.gal g).queuedLoad = some key → s.tamper.frozen = false → s.bfeIdle (s.gal g).loadBy g = true →
      exec (.queuedResideLoad g) s = .next (s.setGal g { s.gal g with resident := key, queuedLoad := none, reload := none })) ∧
    (∀ g key, (s.gal g).reload = some key → (s.gal g).queuedLoad = none → s.tamper.frozen = false → s.bfeIdle 0 g = true →
      exec (.residentKeyReload g) s = .next (s.setGal g { s.gal g with resident := some key, reload := none }))

/-- A compatibility page takes its key, starts, completes and clears its key. Through the function that the page belongs to: a key
word written to an idle page whose policy allows page keys is stored and marks the key loaded; a start of an idle page makes it
busy, clears its done flag and its output, and either ends at once with the status of a failed check or waits for a core; clearing
the key clears it; any of these where the page is not reachable is recorded as ACCESS_DENIED. A page whose core completes ends
with OK and its result, and a core whose check trips ends it with FAULT_DETECTED, logs it and counts the error. -/
def Obligations.CompatPagesOperate : Prop :=
  ∀ (f : Fn) (p k : Nat) (v : Word32) (ev : EngineEvent) (s : State),
    (k < 8 → Writes s f (0x1000000 + 0x10000 * p + 0x20 + 4 * k) → s.pageReachable f p = true → (s.page p).busy = false →
      (s.collPolicy (s.pageColl p)).pageKeys = true → exec (.compatKeyWrite f p k v) s =
      .next (s.setPage p { s.page p with key := setAt (s.page p).key k v, keyLoaded := true })) ∧
    (k < 8 → Writes s f (0x1000000 + 0x10000 * p + 0x20 + 4 * k) → (s.pageReachable f p = false ∨ (s.page p).busy = true ∨
      (s.collPolicy (s.pageColl p)).pageKeys = false) → exec (.compatKeyWrite f p k v) s =
      .next (s.regError f St.accessDenied (0x1000000 + 0x10000 * p + 0x20 + 4 * k))) ∧
    (Writes s f (0x1000000 + 0x10000 * p + 4) → s.pageReachable f p = true → exec (.compatKeyClear f p) s =
      .next (s.setPage p (s.page p).clearKey)) ∧
    (Writes s f (0x1000000 + 0x10000 * p + 4) → s.pageReachable f p = true → (s.page p).busy = false → s.tamper.frozen = false →
      exec (.compatStart f p) s = .next (let t := s.setPage p { s.page p with busy := true, done := false, dout := [], waiting := true }
        if (s.page p).startStatus = St.ok then t.pumpAll else t.endPage p (s.page p).startStatus)) ∧
    (Writes s f (0x1000000 + 0x10000 * p + 4) → (s.pageReachable f p = false ∨ (s.page p).busy = true) → exec (.compatStart f p) s =
      .next (s.regError f St.accessDenied (0x1000000 + 0x10000 * p + 4))) ∧
    ((s.page p).busy = true → (s.work.grants.any fun g => g.job == pageJob p && !g.suspended) = true → s.tamper.frozen = false →
      s.wingRuns (s.pageWing p) = true → s.maskOk (.cluster (s.pageWing p)) = true →
      (ev.trip = none → exec (.compatOperationComplete p ev) s = .next ((s.setPage p (s.pageResult p)).endPage p St.ok).pumpAll) ∧
      (∀ u, ev.trip = some u → (s.usersOf u).contains (pageJob p) = true → exec (.compatOperationComplete p ev) s =
        .next (((s.log 2 St.faultDetected (unitSrc u) [byte p, byte ev.measure]).endPage p St.faultDetected).countError u).pumpAll))

/-- Leaf blocks, tree caches and the ledger registers act. A leaf reservation that is due spends a log position for each failed
readback, and grants the block, or after four failures ends the waiting jobs with FAULT_DETECTED; the issuers of a reachable wing
report their positions, of withdrawn keys too while they hold blocks; the oldest tree generation in flight of a key, where it neither is
suspended nor waits for masks, ends by extending the window of the cache or the instances of its level, and gives up its lanes; an instance
that does not fit the cache region, and a generation whose check trips, drop the key's generations and are logged, the latter with the
error of the lane counted; a rebuild starts the cache at the next leaf; a SIGN whose wait for the cache is over fails with RESOURCE_EXHAUSTED; LEDGER_QSLOT latches the query registers,
LEDGER_LOW_SLOT clears on read, and the rebuilt ledger is ready. -/
def Obligations.LedgerCommands : Prop :=
  ∀ (w : Wing) (k n : Nat) (f : Fn) (v : Word32) (s : State),
    (∀ fails, s.mayReserve w (s.slot k) = true → fails < 4 → exec (.leafReservation w k fails) s =
      .next (((s.forAll (List.range fails) fun s _ => s.ledgerPut none).grantBlock w k).pumpAll)) ∧
    (∀ fails, s.mayReserve w (s.slot k) = true → 4 ≤ fails → exec (.leafReservation w k fails) s =
      .next (let t := s.forAll (List.range 4) fun s _ => s.ledgerPut none
             (t.forAll (t.leafWaiters k w) fun t n => t.endJob n St.faultDetected).pumpAll)) ∧
    (s.reaches w = true → exec (.issuerPositionReport w) s =
      .next (s.forAll (s.ledger.slots.filter fun p => p.2.state == .active || !(p.2.blocks w).isEmpty) fun s p =>
        ((s.setSlot p.1 ((s.slot p.1).setReport w (unissued ((s.slot p.1).blocks w)))).checkLow p.1))) ∧
    (∀ g rest, (s.slot k).gens = g :: rest → s.genEnds k g = true →
      (g.work = .subtree → exec (.treeSubtreeGeneration k false) s =
        .next (s.endTrees k g { s.slot k with gens := rest, coverFrom := (s.slot k).lowest / (s.slot k).subtree * (s.slot k).subtree,
                                              coverTo := min (s.slot k).total ((s.slot k).coverTo + (s.slot k).subtree) }).pumpAll) ∧
      (∀ i, g.work = .instance_ i → s.genFits (s.slot k) g.work = true → exec (.treeSubtreeGeneration k false) s =
        .next (s.endTrees k g { s.slot k with gens := rest,
                                              instances := (s.slot k).instances.set i ((s.slot k).instances.getD i 0 + (s.slot k).instLeaves i) }).pumpAll) ∧
      (∀ i, g.work = .instance_ i → s.genFits (s.slot k) g.work = false → exec (.treeSubtreeGeneration k false) s =
        .next ((s.dropGens k).log 6 St.resourceExhausted 0 (leBytes 2 k)).pumpAll) ∧
      (∀ u, g.work ≠ .rebuild → s.genUnit k g = some u → exec (.treeSubtreeGeneration k true) s =
        .next (((s.dropGens k).log 2 St.faultDetected (unitSrc u) (leBytes 2 k ++ leBytes 8 (s.slot k).handle.toNat)).countError u).pumpAll) ∧
      (g.work = .rebuild → exec (.treeCacheRebuild ⟨k, false⟩) s =
        .next (s.endTrees k g { s.slot k with gens := rest, rebuilding := false,
                                              coverFrom := (s.slot k).next / (s.slot k).subtree * (s.slot k).subtree,
                                              coverTo := min (s.slot k).total ((s.slot k).next / (s.slot k).subtree * (s.slot k).subtree +
                                                (s.slot k).window * (s.slot k).subtree),
                                              instances := (s.slot k).firstInstances (s.slot k).next }).pumpAll) ∧
      (∀ u, g.work = .rebuild → s.genUnit k g = some u → exec (.treeCacheRebuild ⟨k, true⟩) s =
        .next (((s.dropGens k).log 2 St.faultDetected (unitSrc u) (leBytes 2 k ++ leBytes 8 (s.slot k).handle.toNat)).countError u).pumpAll)) ∧
    (∀ j e t, s.job n = some j → j.exec = some e → e.stage = .waitCache t → t + s.genWaitNs ≤ s.now → s.tamper.frozen = false →
      exec (.signCacheWaitExpiry n) s = .next (s.failExec n St.resourceExhausted).pumpAll) ∧
    (Manages s f 0x180020 → exec (.ledgerQslotWrite f v) s = .next (s.latchQuery (bits32 v 0 16))) ∧
    (ReadsPf s f 0x180010 → exec (.ledgerLowSlotRead f) s = .next (s.emit (.readValue f 0x180010 s.lowSlotWord)).clearLowSlot) ∧
    (s.ledger.ready = false → s.boot.inReset = false → exec .ledgerRebuild s =
      .next { s with ledger := { s.ledger with slots := s.ledger.slots.map fun p => (p.1, { p.2 with next := max p.2.next (s.rebuiltNext p.1) }), ready := true } })

/-- Revocations, leases and provenance walks act, and seals and checkpoints are written. A wing with the Curator's authority clears what a
revocation order names and no longer owes it; an acknowledgement removes the wing from the waits of the order, and an order
without waits is done; a lease renews at its half when the Registrar allows it and ends the user otherwise, and runs out with
SPLIT_ORPHAN where the Curator's authority is lost, a suspended user once it resumes; the walk marks every bound descendant; an
invalidated ancestor leaves the table once its walk is sealed. An open seal closes when its interval has passed; the oldest closed
seal that fits a reachable ring is written to it and the head, in the next of its 64 slots, then names it; a checkpoint
whose last seal the head covers ends, and the head then names it. -/
def Obligations.RegistrarAndSealsAct : Prop :=
  (∀ (w : Wing) (c i g n : Nat) (l : Loan) (x : Invalid) (s : State),
      (s.hasCurator w = true → (s.cat.orders.any fun o => o.names c i g && o.due.contains w) = true → exec (.revocationOrder w c i g) s =
        .next (let t := s.clearRevoked w c i g
               (t.setOrders (t.cat.orders.map fun o => if o.names c i g then { o with due := o.due.filter (· != w) } else o)).pumpAll)) ∧
      (exec (.revocationAck w c i g) s = .next (s.setOrders ((s.cat.orders.map fun o =>
        if o.names c i g && (!o.due.contains w || !s.hasCurator w) then { o with due := o.due.filter (· != w), waits := o.waits.filter (· != w) } else o).filter
          fun o => !o.waits.isEmpty))) ∧
      (s.loan n = some l → s.hasCurator l.wing = true → l.from_ + l.leaseNs / 2 ≤ s.runNs → s.tamper.frozen = false →
        (s.renewalStatus l = St.ok → exec (.leaseRenewal n) s = .next (s.setLoan n { l with from_ := s.runNs })) ∧
        (s.renewalStatus l ≠ St.ok → exec (.leaseRenewal n) s = .next (s.endUser l.job (s.renewalStatus l)).pumpAll)) ∧
      (s.loan n = some l → s.hasCurator l.wing = false → l.from_ + l.leaseNs ≤ s.runNs → s.watchMode = false → s.tamper.frozen = false →
        ((∀ j, s.job l.job = some j → s.isSuspended l.job = false ∨ j.phase ≠ .exec) →
          exec (.leaseExpiry n) s = .next (s.endUser l.job St.splitOrphan).pumpAll) ∧
        (∀ j, s.job l.job = some j → s.isSuspended l.job = true → j.phase = .exec → exec (.leaseExpiry n) s =
          .next (s.putJob l.job { j with ending := some (j.ending.getD St.splitOrphan) }))) ∧
      ((s.cat.invalidated.find? fun x => x.names c i g) = some x → x.walked = false → s.stopped = false → exec (.provenanceWalk c i g) s =
        .next (let t := s.forAll (s.unmarked x) fun s r => s.cascade r x.revoked
               let q := if t.journal.openSeal.isEmpty then t.journal.lastClosed else t.openSeq
               t.setInvalidated (t.cat.invalidated.map fun y => if y.names c i g then { y with walked := true, sealSeq := q } else y))) ∧
      ((s.cat.invalidated.find? fun x => x.names c i g) = some x → x.walked = true → x.sealSeq ≤ s.journal.head.n →
        (s.cat.reserved.any fun r => r.coll == c && boundTo i g r.ancestors) = false → s.unmarked x = [] →
        exec (.invalidatedAncestorRelease c i g) s = .next (s.setInvalidated (s.cat.invalidated.filter fun y => !y.names c i g)))) ∧
  (∀ s : State,
      (s.journal.openSeal ≠ [] → s.journal.openSince + s.journal.intervalUs * 1000 ≤ s.now → s.stopped = false → s.boot.inReset = false →
        exec .sealIntervalExpiry s = .next (s.closeSeal false)) ∧
      (∀ c rest b, s.journal.closed = c :: rest → b = c.block.getD (s.sealBlock c) → s.ringReachable = true →
        b.length ≤ s.journal.ringSize - (s.journal.written - s.journal.ackedTo) → exec .sealWrite s =
        .next (let j := s.journal
               let cp := j.checkpoint.map fun x => if x.first = c.seq then { x with prev := padTo 48 j.head.hn } else x
               let j := { j with closed := rest, written := j.written + b.length, blockEnds := j.blockEnds ++ [j.written + b.length], checkpoint := cp }
               let h := { j.head with n := c.seq, hn := chainOf b }
               let k := (j.slot + 1) % 64
               let j := if c.block.isSome then j else { j with head := h, slot := k, heads := j.heads.set none k (some (h, true)) }
               ({ s.writeRing b with journal := j }).pumpAll)) ∧
      (s.journal.closed = [] ∨ s.ringReachable = false → exec .sealWrite s = .next s) ∧
      (∀ x, s.journal.checkpoint = some x → x.last ≤ s.journal.head.n → exec .checkpointEnd s =
        .next (let j := { s.journal with checkpoint := none }
               let h := { j.head with c := x.first, hc1 := x.prev }
               let k := (j.slot + 1) % 64
               ({ s with journal := { j with head := h, slot := k, heads := j.heads.set none k (some (h, true)) } }).reclaimSlots)))

/-- The journal and restore messages act. From a PF that is heard: JOURNAL_CONFIG with a legal ring sets it, and a ring other than the
one in use starts unwritten; JOURNAL_ACK of an offset that ends a written block acknowledges the ring up to it; JOURNAL_STATUS
replies the status; RESTORE_BEGIN outside a restore with an admitted channel opens one; RESTORE_BLOCK of the next block applies
its records and replies their number; RESTORE_END once the head is reached ends the restore; ACCEPT_LOSS with its quorum closes
the lost seals and moves the head past them. The same messages from a supervisor are refused with ACCESS_DENIED. -/
def Obligations.JournalMessages : Prop :=
  ∀ (w : Wing) (ps p : List Byte) (s : State), p = (s.mailbox (.pf w)).params ps →
    (Heard s (.pf w) 0x40 0 → leAt p 0 8 % 4096 = 0 → ringSizeOk (leAt p 8 8) = true → (leAt p 16 4 = 0 ∨ (100 ≤ leAt p 16 4 ∧ leAt p 16 4 ≤ 10000)) →
      allZero (slice p 20 4) = true → exec (.journalConfig (.pf w) ps) s =
      .next (let j := s.journal
             let same := j.configured && j.ringBase = leAt p 0 8 && j.ringSize = leAt p 8 8 && j.ringPort == w
             let j := { j with ringBase := leAt p 0 8, ringSize := leAt p 8 8, intervalUs := if leAt p 16 4 = 0 then 1000 else leAt p 16 4, ringPort := w, configured := true }
             ({ s with journal := if same then j else { j with written := 0, ackedTo := 0, blockEnds := [] } }).replyTo (.pf w) St.ok 0 [])) ∧
    (∀ e, Heard s (.pf w) 0x41 0 → (s.journal.blockEnds.filter fun e => e % max 1 s.journal.ringSize == leAt p 0 8).getLast? = some e →
      exec (.journalAck (.pf w) ps) s = .next (({ s with journal := { s.journal with acked := true, ackedTo := e, blockEnds := s.journal.blockEnds.filter (e < ·) } }).replyTo
        (.pf w) St.ok 0 [])) ∧
    (Heard s (.pf w) 0x42 144 → exec (.journalStatus (.pf w) ps) s = .next (s.replyTo (.pf w) St.ok s.journalStatus.length s.journalStatus)) ∧
    (Heard s (.pf w) 0x43 0 → s.journal.restore = .empty → ((s.wingChannels .west).isEmpty && (s.wingChannels .east).isEmpty) = false →
      exec (.restoreBegin (.pf w) ps) s =
      .next (let j := { s.journal with restore := .open_, applied := s.journal.head.c - 1, appliedChain := padTo 48 s.journal.head.hc1 }
             let j := { j with appliedAny := false, bindings := [], gone := [] }
             ({ s with journal := j }).replyTo (.pf w) St.ok 0 [])) ∧
    (∀ b l, Heard s (.pf w) 0x44 12 → s.journal.restore = .open_ →
      bodyRecords (leAt b 20 4) (Config.prim .journalOpen [s.jk, blockNonce (leAt b 8 8) s.journal.head.gen, b.take 96, b.drop 96] (leAt b 24 4)) = some l →
      s.blockStatus b (leAt p 8 4) (some l) = St.ok → exec (.restoreBlock (.pf w) ps (some b)) s =
      .next (let t := s.forAll l fun s r => s.applyRecord (leAt b 8 8) r
             ({ t with journal := { t.journal with applied := leAt b 8 8, appliedChain := chainOf b, appliedAny := true } }).replyTo (.pf w) St.ok
               (leBytes 8 (leAt b 8 8) ++ leBytes 4 l.length).length (leBytes 8 (leAt b 8 8) ++ leBytes 4 l.length))) ∧
    (Heard s (.pf w) 0x45 8 → s.journal.restore = .open_ → s.journal.applied = s.journal.head.n → exec (.restoreEnd (.pf w) ps) s =
      .next ((s.endRestore s.journal.head.n).replyTo (.pf w) St.ok (leBytes 8 s.journal.applied).length (leBytes 8 s.journal.applied))) ∧
    (Heard s (.pf w) 0x46 8 → s.journal.restore = .open_ → leAt p 0 8 = (if s.journal.appliedAny then s.journal.applied else 0) →
      leAt p 8 8 = s.journal.head.n → leAt p 16 4 = s.journal.head.gen → leAt p 0 8 < s.journal.head.n → allZero (slice p 20 4) = true →
      s.authValid s.boot.custodians s.boot.threshold 0x11 (p.take 24) (p.drop (up8 24)) = true → exec (.acceptLoss (.pf w) ps) s =
      .next (let n := s.journal.head.n
             let hm := if s.journal.appliedAny then padTo 48 s.journal.appliedChain else zeros 48
             let t := { s with journal := { s.journal with lastClosed := n, openSeal := [.loss (leAt p 0 8) hm n], openSince := s.now } }
             let t := ((((t.closeSeal true).advanceLoss).endRestore (n + 1)).closeLostSlots).log 6 0 0 (leBytes 6 (leAt p 0 8 + 1) ++ leBytes 6 n)
             (t.startCheckpoint.useNonce (p.drop (up8 24))).replyTo (.pf w) St.ok (leBytes 8 (n + 1)).length (leBytes 8 (n + 1)))) ∧
    (∀ c ∈ [(Instr.journalConfig (.supervisor w) ps, 0x40), (.journalAck (.supervisor w) ps, 0x41), (.journalStatus (.supervisor w) ps, 0x42),
        (.restoreBegin (.supervisor w) ps, 0x43), (.restoreBlock (.supervisor w) ps none, 0x44), (.restoreEnd (.supervisor w) ps, 0x45),
        (.acceptLoss (.supervisor w) ps, 0x46)],
      Heard s (.supervisor w) c.2 0 → exec c.1 s = .next (s.replyTo (.supervisor w) St.accessDenied 0 []))

/-- The lifecycle moves only as its messages say. From a sender that is heard and outside a hand-over: TAKE_OWNERSHIP of a PROVISIONED
part, with custodians and a threshold in range, their authorisation and a policy that they signed, makes it OWNED; DECOMMISSION of
an OWNED one with its serial number and its quorum makes it DECOMMISSIONED, without storage root, policy, custodians, owner roots
and chain; TRANSFER of a DECOMMISSIONED one with a vendor token makes it PROVISIONED and counts; PROVISION of a part in
MANUFACTURE with a vendor token makes it PROVISIONED, with its certificate in the flash; each of the two fails with
ENTROPY_UNAVAILABLE, a status of the model (log 125), where the generator of the Curator does not serve; SCRAP makes any other part SCRAPPED, without alias certificates, an OWNED one with
its quorum. Each message in another state of the lifecycle is refused with POLICY_DENIED. -/
def Obligations.LifecycleMessages : Prop :=
  ∀ (m : Sender) (ps p : List Byte) (s : State), p = (s.mailbox m).params ps → s.handingOver = false →
    (Heard s m 0x06 0 → s.boot.lifecycle = .owned → p.take 8 = s.serialBytes →
      s.authValid s.boot.custodians s.boot.threshold 0x02 (p.take 8) (p.drop (up8 8)) = true → exec (.decommission m ps) s =
      .next (let t := s.freshJournal
             let b := { t.boot with lifecycle := .decommissioned, ssk := none, policyBody := none, policyFailed := false, custodians := [], threshold := 0 }
             let b := { b with ownerRoots := [], slot1 := false, auths := [], meas := setAt t.boot.meas 3 [] }
             let t := t.setBoot b
             let t := { t with ledger := { cfg := t.ledger.cfg, low := t.ledger.low, wear := t.ledger.wear, ready := t.ledger.ready },
                               tamper := { t.tamper with sskErased := true } }
             ((t.defaultOrders.leaveErased).useNonce (p.drop (up8 8))).replyTo m St.ok 0 [])) ∧
    (Heard s m 0x07 0 → s.boot.lifecycle = .decommissioned → tokenForm 0x80 p = true → s.boot.transfers < 15 →
      s.tokenOk 0x80 (p.take 16) (slice p 24 96) = true →
      (s.drbgOk .curator = true → exec (.transfer m ps) s =
      .next (let t := (((s.useChallenge (p.take 16)).drawSsk).freshJournal).defaultOrders
             let t := t.setBoot { t.boot with lifecycle := .provisioned, transfers := t.boot.transfers + 1 }
             ({ t with work := { t.work with curves := [] } }).replyTo m St.ok 0 [])) ∧
      (s.drbgOk .curator = false → exec (.transfer m ps) s = .next (s.replyTo m St.entropyUnavailable 0 []))) ∧
    (Heard s m 0x0F 0 → s.boot.lifecycle = .manufacture → tokenForm 0x81 p = true → 124 + leAt p 120 4 ≤ p.length →
      s.tokenOk 0x81 (p.take 16) (slice p 24 96) = true → leAt p 120 4 ≤ certRoom →
      (s.drbgOk .curator = true → exec (.provision m ps) s =
      .next (let t := (((s.useChallenge (p.take 16)).drawSsk).putChain false (slice p 124 (leAt p 120 4))).openUnit9 0
             (t.setBoot { t.boot with lifecycle := .provisioned }).replyTo m St.ok 0 [])) ∧
      (s.drbgOk .curator = false → exec (.provision m ps) s = .next (s.replyTo m St.entropyUnavailable 0 []))) ∧
    (Heard s m 0x08 0 → s.boot.lifecycle ≠ .scrapped → s.boot.lifecycle ≠ .owned → p.take 8 = s.serialBytes → exec (.scrap m ps) s =
      .next (((s.setBoot { s.boot with lifecycle := .scrapped, aliases := none }).leaveErased).replyTo m St.ok 0 [])) ∧
    (Heard s m 0x08 0 → s.boot.lifecycle = .owned → p.take 8 = s.serialBytes →
      s.authValid s.boot.custodians s.boot.threshold 0x03 (p.take 8) (p.drop (up8 8)) = true → exec (.scrap m ps) s =
      .next ((((s.setBoot { s.boot with lifecycle := .scrapped, aliases := none }).leaveErased).useNonce (p.drop (up8 8))).replyTo m St.ok 0 [])) ∧
    (∀ c ∈ [(Instr.takeOwnership m ps, 0x04, 4 + Config.primNat .csr [s.serialBytes] % 65536, Lifecycle.provisioned), (.decommission m ps, 0x06, 0, .owned),
        (.transfer m ps, 0x07, 0, .decommissioned), (.provision m ps, 0x0F, 0, .manufacture)],
      Heard s m c.2.1 c.2.2.1 → s.boot.lifecycle ≠ c.2.2.2 → exec c.1 s = .next (s.replyTo m St.policyDenied 0 [])) ∧
    (∀ k l n, Heard s m 0x04 (4 + Config.primNat .csr [s.serialBytes] % 65536) → s.boot.lifecycle = .provisioned → byteAt p 0 = k →
      parseCustodians k (p.drop (up8 (8 + leAt p 4 4))) = (l, n) → 2 ≤ k → k ≤ 16 → 2 ≤ byteAt p 1 → byteAt p 1 ≤ k → byteAt p 2 ≤ 1 → byteAt p 3 = 0 →
      (l.any fun x => !(x.alg = 1 || x.alg = 2)) = false →
      s.authValid l (byteAt p 1) 0x01 (p.take (up8 (8 + leAt p 4 4) + n)) (p.drop (up8 (up8 (8 + leAt p 4 4) + n))) = true →
      s.imageReason l (byteAt p 1) 3 (byteAt p 2) = 0 → s.drbgOk .curator = true → exec (.takeOwnership m ps) s =
      .next (let t := ((s.useNonce (p.drop (up8 (up8 (8 + leAt p 4 4) + n)))).drawSsk).freshJournal
             let t := t.setBoot { t.boot with lifecycle := .owned, custodians := l, threshold := byteAt p 1, ownerRoots := slice p 8 (leAt p 4 4) }
             let t := (t.runPolicy (byteAt p 2)).issueAlias
             let csr := Config.primNat .csr [s.serialBytes] % 65536
             let bytes := leBytes 4 csr ++ Config.prim .csr [t.serialBytes, leBytes 32 (t.boot.ssk.getD 0)] csr
             t.replyTo m St.ok bytes.length bytes))

/-- Identity, nonces, quorums and debug levels answer. From a sender that is heard: IDENTITY replies the serial number and the public
key; NONCE draws 16 bytes, keeps them and replies them with their end; a nonce leaves after its time and an authorisation after
its own; QUORUM_SUBMIT of an action that the custodians authorise keeps it until its end; CERT_INSTALL of a valid chain on an
OWNED part installs it; DEBUG_CHALLENGE of a level draws a challenge; DEBUG_UNLOCK sets the level that the lifecycle allows, by
token or by quorum; DEBUG_LOCK sets level 0. -/
def Obligations.IdentityNoncesAndDebugMessages : Prop :=
  ∀ (m : Sender) (ps p : List Byte) (k : Nat) (s : State), p = (s.mailbox m).params ps →
    (Heard s m 0x01 105 → s.boot.lifecycle ≠ .scrapped → exec (.identity m ps) s =
      .next (let b := s.serialBytes ++ [0x04] ++ Config.prim .deviceIdPub [s.serialBytes] 96
             s.replyTo m St.ok b.length b)) ∧
    (Heard s m 0x02 20 → exec (.nonce m ps) s =
      .next (let t := (s.drawCurator 16).2
             let t := t.setBoot { t.boot with nonces := addNonce t.boot.nonces { value := (s.drawCurator 16).1, at_ := t.now } }
             t.replyTo m St.ok ((s.drawCurator 16).1 ++ leBytes 4 (t.rtcSec + 600)).length ((s.drawCurator 16).1 ++ leBytes 4 (t.rtcSec + 600)))) ∧
    (∀ x, s.boot.nonces[k]? = some x → x.at_ + nonceNs ≤ s.now → exec (.nonceExpiry k) s =
      .next (s.setBoot { s.boot with nonces := s.boot.nonces.eraseIdx k })) ∧
    (∀ x, s.boot.auths[k]? = some x → x.until_ < s.rtcSec → exec (.quorumAuthorisationExpiry k) s =
      .next (s.setBoot { s.boot with auths := s.boot.auths.eraseIdx k })) ∧
    (∀ n a c, Heard s m 0x03 0 → leAt p 0 4 = n → p.drop (up8 (4 + n)) = a → leAt a 6 2 = c → ((c = 0x10 ∧ n = 2) ∨ (c = 0x12 ∧ n = 1)) →
      s.authValid s.boot.custodians s.boot.threshold c (p.take (4 + n)) a = true → exec (.quorumSubmit m ps) s =
      .next (let x : Authorisation := { action := c, param := leAt p 4 n % 1024, until_ := min (leAt a 72 4) (s.rtcSec + 3600) }
             ((s.setBoot { s.boot with auths := s.boot.auths ++ [x] }).useNonce a).replyTo m St.ok 0 [])) ∧
    (Heard s m 0x05 0 → s.boot.lifecycle = .owned → byteAt p 0 = 1 → allZero (slice p 1 3) = true → 8 + leAt p 4 4 ≤ p.length →
      Config.primBool .certChainOk [s.boot.ownerRoots, slice p 8 (leAt p 4 4), s.serialBytes, leBytes 32 (s.boot.ssk.getD 0)] = true →
      (slice p 8 (leAt p 4 4)).length ≤ certRoom → exec (.certInstall m ps) s =
      .next (let t := s.putChain true (slice p 8 (leAt p 4 4))
             (t.setBoot { t.boot with slot1 := true }).replyTo m St.ok 0 [])) ∧
    (Heard s m 0x0C 24 → (byteAt p 0 = 0x01 ∨ byteAt p 0 = 0x80 ∨ byteAt p 0 = 0x81) → exec (.debugChallenge m ps) s =
      .next (let t := (s.drawCurator 16).2
             let t := t.setBoot { t.boot with challenges := addNonce t.boot.challenges (byteAt p 0, { value := (s.drawCurator 16).1, at_ := t.now }) }
             t.replyTo m St.ok ((s.drawCurator 16).1 ++ t.serialBytes).length ((s.drawCurator 16).1 ++ t.serialBytes))) ∧
    (Heard s m 0x0D 0 → allZero (slice p 17 7) = true → byteAt p 16 = 1 → (s.boot.lifecycle = .provisioned ∨ s.boot.lifecycle = .decommissioned) →
      s.tokenOk 1 (p.take 16) (slice p 24 96) = true → exec (.debugUnlock m ps) s =
      .next (((s.useChallenge (p.take 16)).setDebug 1).replyTo m St.ok 0 [])) ∧
    (Heard s m 0x0D 0 → allZero (slice p 17 7) = true → byteAt p 16 = 2 → s.boot.lifecycle = .owned → allZero (p.take 16) = true →
      s.authValid s.boot.custodians s.boot.threshold 0x05 (p.take 24) (p.drop (up8 24)) = true → exec (.debugUnlock m ps) s =
      .next (((s.setDebug 2).useNonce (p.drop (up8 24))).replyTo m St.ok 0 [])) ∧
    (Heard s m 0x0E 0 → exec (.debugLock m ps) s = .next ((s.setDebug 0).replyTo m St.ok 0 []))

/-- Floors rise, flash is written and slots are preferred. From a sender that is heard: FLOOR_RAISE to a version between the floor and
the running one, with the quorum of an OWNED part, raises that floor; FLASH_WRITE of whole sectors inside the flash, none of them
in an image that runs, writes them, and the owner region needs its quorum; SLOT_PREFER of types 1 to 3 sets the preferred slot,
and of type 0 checks the image and first writes the wraps for its measurement. -/
def Obligations.FlashAndSlotMessages : Prop :=
  ∀ (m : Sender) (ps p : List Byte) (s : State), p = (s.mailbox m).params ps →
    (Heard s m 0x09 0 → s.handingOver = false → byteAt p 0 ≤ 3 → byteAt p 1 = 0 → s.boot.floors.getD (byteAt p 0) 0 ≤ leAt p 2 2 →
      leAt p 2 2 ≤ s.boot.svns.getD (byteAt p 0) 0 → s.boot.lifecycle = .owned →
      s.authValid s.boot.custodians s.boot.threshold 0x04 (p.take 4) (p.drop (up8 4)) = true → exec (.floorRaise m ps) s =
      .next (((s.setBoot { s.boot with floors := setAt s.boot.floors (byteAt p 0) (leAt p 2 2) }).useNonce (p.drop (up8 4))).replyTo m St.ok 0 [])) ∧
    (Heard s m 0x09 0 → s.handingOver = false → byteAt p 0 ≤ 3 → byteAt p 1 = 0 → leAt p 2 2 < s.boot.floors.getD (byteAt p 0) 0 →
      exec (.floorRaise m ps) s = .next (s.replyTo m St.policyDenied 0 [])) ∧
    (Heard s m 0x0A 0 → leAt p 0 4 % 4096 = 0 → leAt p 4 4 % 4096 = 0 → allZero (slice p 8 8) = true → 16 + leAt p 4 4 ≤ p.length →
      leAt p 0 4 + leAt p 4 4 ≤ s.flashTop → ((List.range (leAt p 4 4 / 4096)).all fun k => s.writable (leAt p 0 4 + 4096 * k)) = true →
      (leAt p 4 4 = 0 ∨ 0x02190000 ≤ leAt p 0 4 ∨ leAt p 0 4 + leAt p 4 4 ≤ 0x02090000) → exec (.flashWrite m ps) s =
      .next ((s.flashWrite (leAt p 0 4) (slice p 16 (leAt p 4 4))).replyTo m St.ok 0 [])) ∧
    (Heard s m 0x0A 0 → leAt p 0 4 % 4096 = 0 → leAt p 4 4 % 4096 = 0 → allZero (slice p 8 8) = true → 16 + leAt p 4 4 ≤ p.length →
      leAt p 0 4 + leAt p 4 4 ≤ s.flashTop → ((List.range (leAt p 4 4 / 4096)).all fun k => s.writable (leAt p 0 4 + 4096 * k)) = true →
      leAt p 4 4 ≠ 0 → leAt p 0 4 < 0x02190000 → 0x02090000 < leAt p 0 4 + leAt p 4 4 → s.boot.lifecycle = .owned →
      s.authValid s.boot.custodians s.boot.threshold 0x07 (p.take (16 + leAt p 4 4)) (p.drop (up8 (16 + leAt p 4 4))) = true →
      exec (.flashWrite m ps) s = .next (((s.flashWrite (leAt p 0 4) (slice p 16 (leAt p 4 4))).useNonce (p.drop (up8 (16 + leAt p 4 4)))).replyTo m St.ok 0 [])) ∧
    (Heard s m 0x0B 0 → s.handingOver = false → 1 ≤ byteAt p 0 → byteAt p 0 ≤ 3 → byteAt p 1 ≤ 1 → exec (.slotPrefer m ps) s =
      .next ((s.preferSlot (byteAt p 0) (byteAt p 1)).replyTo m St.ok 0 [])) ∧
    (Heard s m 0x0B 0 → s.handingOver = false → byteAt p 0 = 0 → byteAt p 1 = 1 → s.imageOk 0 1 = true → s.recovery = false →
      exec (.slotPrefer m ps) s =
      .next (let m0 := measOf (s.manifest 0 1)
             let t := s.wrapMaster 1 m0
             ((t.rewrap [m0, t.meas 1, t.meas 2, t.meas 3]).preferSlot 0 1).replyTo m St.ok 0 []))

/-- A hand-over goes through its phases and ends with the new firmware or without it. HANDOVER_BEGIN of the other slot, with an image
that is accepted, a lead time in range, no drain and no hand-over in progress, and its quorum where the policy asks for one,
starts the preparation; its end announces the hand-over; after the lead time new loans pause; the outcome of the start checks
switches to the new firmware or abandons the hand-over, and all functions are told; HANDOVER_STATUS replies state, reason and
pause. -/
def Obligations.HandoversRunTheirPhases : Prop :=
  ∀ (m : Sender) (ps p : List Byte) (s : State), p = (s.mailbox m).params ps →
    (Heard s m 0x30 0 → byteAt p 0 ≤ 1 → (leAt p 1 2 = 0 ∨ (10 ≤ leAt p 1 2 ∧ leAt p 1 2 ≤ 1000)) → s.imageOk 0 (byteAt p 0) = true →
      byteAt p 0 ≠ s.curatorSlot → s.stopped = false → s.cont.orphanW = false → s.cont.orphanE = false → s.cfgtx.state ≠ 2 → s.handingOver = false →
      s.devPolicy.handoverQuorum = false → exec (.handoverBegin m ps) s =
      .next (let h : Handover := { state := 1, reason := 0, slot := byteAt p 0, leadMs := if leAt p 1 2 = 0 then 50 else leAt p 1 2, since := s.now, pauseUs := s.handover.pauseUs }
             let h := { h with newMeas := measOf (s.manifest 0 (byteAt p 0)), newVersion := manVersion (s.manifest 0 (byteAt p 0)), newSvn := manSvn (s.manifest 0 (byteAt p 0)) }
             ({ s with handover := h }).replyTo m St.ok 0 [])) ∧
    (Heard s m 0x31 8 → exec (.handoverStatus m ps) s =
      .next (let b := [byte s.handover.state, byte s.handover.reason, 0, 0] ++ leBytes 4 s.handover.pauseUs
             s.replyTo m St.ok b.length b)) ∧
    (s.handover.state = 1 → exec .handoverPending s =
      .next ((({ s with handover := { s.handover with state := 2, since := s.now } }).markC0).raiseAll Cause.handoverPending)) ∧
    (s.handover.state = 2 → s.handover.since + 1000000 * s.handover.leadMs ≤ s.now → exec .handoverPauseStart s =
      .next { s with handover := { s.handover with state := 3, since := s.now } }) ∧
    (s.handover.state = 3 → s.boot.inReset = false → exec (.handoverSwitch true) s = .next (s.takeOver.raiseAll Cause.handoverDone).pumpAll) ∧
    (s.handover.state = 3 → s.boot.inReset = false → exec (.handoverSwitch false) s =
      .next ((s.abandonHandover 1).raiseAll Cause.handoverDone).pumpAll)

/-- Sources sample, are balanced and start, and pools form blocks. While the sources sample: a sample among the 128 that a starting
source discards is only counted; one that makes a test fail isolates the source with that test; one of a healthy source that fails
none goes to every pool that the source gives it to; a source under the raw-data test leaves its sample there as well, or a gap while it is
discarded; 4,096 samples with too many ones lower the trim by one, and a third adjustment at
an end isolates the source; a source whose start-up test is complete counts as healthy; a pool with 1,024 raw bits forms a block of
256 bits of them, the SHA-256 of those bits, and serves the requests that wait; and a wing whose chain is ready reports so and may be
admitted. -/
def Obligations.SourcesAndPoolsSample : Prop :=
  ∀ (k : Nat) (bit : Bool) (x : Source) (s u : State), s.sampling = true → s.sourceExists k = true → s.source k = x →
    (k < 64 → (s.gal (k / 4)).inReset = false) →
    (x.phase = .startup → x.samples < 128 → u = (if s.underTest k then s.rawGap else s) → exec (.sourceSample k bit) s =
      .next (u.setSource k { x with samples := x.samples + 1, ones := x.ones + b2n bit, sinceAdj := x.sinceAdj + 1 })) ∧
    (∀ y, y = Source.count { x with samples := x.samples + 1, ones := x.ones + b2n bit, sinceAdj := x.sinceAdj + 1 } bit →
      u = (if s.underTest k then s.rawSample k bit else s) →
      x.phase = .healthy ∨ (x.phase = .startup ∧ 128 ≤ x.samples ∧ x.samples < 1152) → y.failure ≠ 0 →
      exec (.sourceSample k bit) s = .next ((u.setSource k y).isolate k y.failure).served) ∧
    (∀ y, y = Source.count { x with samples := x.samples + 1, ones := x.ones + b2n bit, sinceAdj := x.sinceAdj + 1 } bit →
      u = (if s.underTest k then s.rawSample k bit else s) → x.phase = .healthy → y.failure = 0 → exec (.sourceSample k bit) s =
      .next ((u.setSource k y).forAll ([Pool.wing .west, .wing .east, .curator].filter fun p => (u.setSource k y).gives p k)
        fun s p => s.contribute k bit p)) ∧
    (x.phase = .healthy → 4096 ≤ x.sinceAdj → x.sinceAdj / 2 < x.ones → 1 < x.trim → exec (.balanceAdjustment k) s =
      .next (s.setSource k { x with trim := x.trim - 1, saturated := 0, ones := 0, sinceAdj := 0 }).served) ∧
    (x.phase = .healthy → 4096 ≤ x.sinceAdj → x.sinceAdj / 2 < x.ones → x.trim ≤ 1 → x.saturated ≥ 2 → exec (.balanceAdjustment k) s =
      .next ((s.setSource k { x with trim := 0, saturated := x.saturated + 1, ones := 0, sinceAdj := 0 }).isolate k 4).served) ∧
    (x.phase = .startup → 1152 ≤ x.samples → exec (.sourceStartupComplete k) s =
      .next (State.entropyChanged s (s.setSource k { x with phase := .healthy })).served) ∧
    (∀ (p : Pool) (b : List Byte), 1024 ≤ (s.pool p).taken.length → b = Config.prim (.hash 1) [packBits (s.pool p).taken] 32 →
      exec (.conditionedBlock p) s =
      .next (let y := s.pool p
             let t := s.setPool p { y with taken := [], contributors := [], blocks := y.blocks ++ [(b.take 16, y.contributors), (b.drop 16, y.contributors)] }
             ((t.takeBits p 1024).serve p).served)) ∧
    (∀ w : Wing, s.entropyReady w = false → s.reaches w = true → s.wingStarted w = true → exec (.wingEntropyReady w) s =
      .next (((State.entropyChanged s (s.setEntropyReady w)).tryAdmit w).pumpAll))

/-- Generators reseed, stop and are tested, and the entropy registers act. A DRBG instance asks for a reseed after half of its
interval and stops at its end, a masking generator after its two times; a known-answer test that passes clears the call count and
one that fails ends the drawing jobs with FAULT_DETECTED and fences the unit; an EXEC that has waited for its budget for a generator, before
its engine starts, at a tree cache or a leaf, or while its masking generator is silent, ends with ENTROPY_UNAVAILABLE, is counted and
logged. ENTROPY_READMIT starts an isolated source again, a read of ENTROPY_LASTFAIL clears it, and one
of ENTROPY_RAWDATA takes the oldest word. -/
def Obligations.GeneratorsReseedAndRegistersClear : Prop :=
  ∀ (d : Drbg) (m : MaskGen) (f : Fn) (v : Word32) (n : Nat) (s : State),
    ((s.drbg d).inst = true → (s.drbg d).wanted = none → (32768 ≤ (s.drbg d).requests ∨ drbgIntervalNs / 2 ≤ s.now - (s.drbg d).reseededAt) →
      exec (.drbgReseedRequest d) s = .next (((s.setDrbg d { s.drbg d with wanted := some s.now }).serve (drbgPool d)).served)) ∧
    ((s.drbg d).inst = true → (65536 ≤ (s.drbg d).requests ∨ drbgIntervalNs ≤ s.now - (s.drbg d).reseededAt) → exec (.drbgIntervalExpiry d) s =
      .next (s.setDrbg d { s.drbg d with stopped := true, wanted := some ((s.drbg d).wanted.getD s.now),
                                         silentAt := if (s.drbg d).stopped then (s.drbg d).silentAt else s.now })) ∧
    ((s.maskGen m).seeded = true → (s.maskGen m).wanted = none → maskReseedNs ≤ s.now - (s.maskGen m).reseededAt → exec (.maskingGeneratorReseed m) s =
      .next (((s.setMaskGen m { s.maskGen m with wanted := some s.now }).serve (maskPool m)).served)) ∧
    ((s.maskGen m).seeded = true → maskStopNs ≤ s.now - (s.maskGen m).reseededAt → exec (.maskingGeneratorStop m) s =
      .next (s.setMaskGen m { s.maskGen m with stopped := true, wanted := some ((s.maskGen m).wanted.getD s.now) })) ∧
    (s.drbgExists d = true → (s.unit (drbgUnit d)).svc ≠ .fenced → s.boot.inReset = false → s.tamper.frozen = false →
      exec (.drbgKnownAnswerTest d true) s = .next (((s.setDrbg d { s.drbg d with calls := 0, tested := true }).serve (drbgPool d)).served) ∧
      exec (.drbgKnownAnswerTest d false) s =
        .next (((s.forAll (s.drawers d) fun s n => s.endJob n St.faultDetected).fence (drbgUnit d) 2).pumpAll)) ∧
    (∀ j e x u, s.job n = some j → j.exec = some e → s.specNow j = some x → s.tamper.frozen = false →
      u = ({ s with entropy := { s.entropy with waits := min (s.entropy.waits + 1) (2 ^ 32 - 1) } }).logEnding n St.entropyUnavailable →
      (∀ t, e.stage = .waitEntropy t → t + s.waitBudgetNs ≤ s.now → s.supplied n j e x = false →
        exec (.entropyWaitExpiry n) s = .next (u.endJob n St.entropyUnavailable).pumpAll) ∧
      (∀ t, e.stage = .waitCache t → s.dryFor j e x = true →
        exec (.entropyWaitExpiry n) s = .next (u.endJob n St.entropyUnavailable).pumpAll) ∧
      (e.stage = .waitLeaf → s.dryFor j e x = true →
        exec (.entropyWaitExpiry n) s = .next (u.endJob n St.entropyUnavailable).pumpAll) ∧
      (∀ g, e.stage = .running → g ∈ s.silentMasks j e → s.maskSince g e.began + s.waitBudgetNs ≤ s.now →
        exec (.entropyWaitExpiry n) s = .next (u.endJob n St.entropyUnavailable).pumpAll)) ∧
    (Manages s f 0x160018 → bit32 v 31 = true → s.sourceExists (bits32 v 0 7) = true → (s.source (bits32 v 0 7)).phase = .isolated →
      exec (.entropyReadmit f v) s = .next (s.setSource (bits32 v 0 7) { trim := (s.source (bits32 v 0 7)).trim })) ∧
    (ReadsPf s f 0x160014 → exec (.entropyLastfailRead f) s =
      .next ((s.emit (.readValue f 0x160014 s.entropy.lastFail)).setLastFail 0)) ∧
    (ReadsPf s f 0x160028 → exec (.entropyRawdataRead f) s =
      .next ((s.emit (.readValue f 0x160028 (s.entropy.rawFifo.headD 0))).setRawFifo (s.entropy.rawFifo.drop 1)))

/-- Power-on reset holds the part and its release boots it image by image. PWRON_RST# asserted resets the device and holds it; its
release samples the straps, starts the oscillators and begins the boot; each image is then taken in its turn: the firmware once
the link keys are drawn and the ledger stands, the bank image, the wing image, with which the wings run unless one failed, and the
policy, which ends the boot. -/
def Obligations.BootRunsItsImages : Prop :=
  ∀ (v : BitVec 6) (s : State),
    exec .pwronRstAssert s = .next (s.deviceReset.setBoot { s.deviceReset.boot with inReset := true }) ∧
    (s.boot.inReset = true → exec (.pwronRstRelease v) s =
      .next (let t := s.setBoot { s.boot with inReset := false, straps := v }
             let d : ClockDie := { xtalStart := t.now }
             let t := { t with power := { t.power with west := d, east := d, curator := d } }
             ({ t with host := { t.host with smbAddr := 0x70 + v.toNat / 8 } }).startBoot)) ∧
    (s.boot.inReset = false → s.boot.stage = 0 → s.cont.linkKeys = true → s.ledger.ready = true → exec (.bootImageAccept 0) s = .next s.bootFirmware) ∧
    (s.boot.inReset = false → s.tamper.hold = false → s.boot.stage = 1 → exec (.bootImageAccept 1) s = .next ((s.bootImage 1).bootStage 2)) ∧
    (s.boot.inReset = false → s.tamper.hold = false → s.boot.stage = 2 → exec (.bootImageAccept 2) s =
      .next (let t := (s.bootImage 2).bootStage 3
             t.setRunning (!t.boot.wingsOut))) ∧
    (s.boot.inReset = false → s.tamper.hold = false → s.boot.stage = 3 → exec (.bootImageAccept 3) s = .next (s.bootPolicy.endBoot))

/-- A sensor trip latches and freezes, the order is applied, and the report follows. A trip that a sensor in service senses, outside OFF,
latches its class, raises the tamper cause, waits for the order with the power state, the action and the sequence of the order in effect
at its detection, asserts WAKE in STANDBY, and freezes the device unless its action is a report; an under-voltage freezes it and waits
for the rail; in OFF the class is latched and recorded, and an action of erasing destroys the root. The freeze wires freeze a running
device; ORDER_APPLY records every
waiting trip with those, raises ALERT# and erases the keys if an action demands it, and a freeze goes on to its report; the report phase
delivers the frozen jobs and writes the seals; a finished MRAM erase takes effect; a rail that recovers
latches class 0 and one that does not loses the power; and BBRAM loses its contents below 2.0 V while the core supplies are absent. -/
def Obligations.TamperFreezesAndReports : Prop :=
  ∀ (t : Trip) (die : Die) (mv : Nat) (s : State),
    (s.boot.inReset = false ∨ 2000 ≤ mv % 4096 → exec (.vbatMeasurement mv) s = .next { s with tamper := { s.tamper with vbat := mv % 4096 } }) ∧
    (s.boot.inReset = true → mv % 4096 < 2000 → exec (.vbatMeasurement mv) s =
      .next { s with boot := { s.boot with ssk := none },
                     tamper := { s.tamper with vbat := mv % 4096, latch := 0, armed := {}, ring := [], ringPos := 0, freezes := 0, hold := false,
                                               erased := false, sskErased := false, tmpOut := false },
                     power := { s.power with rtcBase := 0, rtcAt := s.now, rtcValid := false, lastSlew := none } }) ∧
    (s.powerCode = 0 → s.senses t = true → exec (.batteryDomainAlarm t) s =
      .next (let a := s.action 0 t.cls
             let u := ((s.latchClass t.cls).setLive t.cls).tamperRecordOf t 0 (if a = 1 then 2 else if a = 2 then 3 else 0) s.tamper.armed.seq
             if a = 1 then { u with boot := { u.boot with ssk := none }, tamper := { u.tamper with erased := true, sskErased := true, erasing := true } }
             else u)) ∧
    (2 ≤ s.powerCode → exec (.batteryDomainAlarm t) s = .next s) ∧
    (s.powerCode = 1 → s.boot.inReset = false → exec (.batteryDomainAlarm t) s = exec (.tamperSensorTrip t) s) ∧
    (s.boot.inReset = false → s.powerCode ≠ 0 → s.senses t = true → underVoltage t = true → exec (.tamperSensorTrip t) s = .next (s.railDip t)) ∧
    (s.boot.inReset = false → s.powerCode ≠ 0 → s.senses t = true → underVoltage t = false →
      ∀ u v, u = (((s.latchClass t.cls).setLive t.cls).raiseAll Cause.tamper).addTrip (s.heldTrip t) →
        v = (if s.powerCode = 1 then u.assertWake else u) →
        (s.action s.powerCode t.cls = 2 → exec (.tamperSensorTrip t) s = .next v) ∧
        (s.action s.powerCode t.cls ≠ 2 → exec (.tamperSensorTrip t) s = .next (v.freeze (tripDie t)))) ∧
    (s.senses t = false → exec (.tamperSensorTrip t) s = .next s) ∧
    (s.boot.inReset = false →
    (exec (.freezeWireAssert die) s = .next (s.freeze die)) ∧
    (s.tamper.frozen = true → s.freeze die = s) ∧
    (s.heldTrip t =
       { trip := t, state := s.powerCode, orderSeq := s.tamper.order.seq,
         action := if s.action s.powerCode t.cls = 1 then 2 else if s.action s.powerCode t.cls = 2 then 3 else 1 }) ∧
    (∀ h : HeldTrip, s.addTrip h = { s with tamper := { s.tamper with trips := s.tamper.trips ++ [h] } }) ∧
    (∀ l : List HeldTrip, s.tamper.trips = l → (l ≠ [] ∨ s.tamper.orderDue = true) →
      (s.tamper.hold = false ∨ (s.boot.stage ≠ 0 ∧ s.recovery = false)) → exec .orderApply s =
      .next (let u := s.forAll l fun s x =>
               (s.tamperRecordOf x.trip x.state x.action x.orderSeq).log 9 0 (dieSrc .curatorDie) [byte x.trip.cls, x.trip.detail, byte x.action]
             let u := { u with tamper := { u.tamper with trips := [], orderDue := false, alert := true,
                                                         reportPhase := s.tamper.reportPhase || (s.tamper.orderDue && s.tamper.frozen) } }
             if l.any (fun x => x.action = 2) = true ∧ u.tamper.erased = false then u.eraseKeys else u)) ∧
    (s.tamper.reportPhase = true → exec .reportPhase s =
      .next (let u := s.forAll s.tamper.frozenJobs fun u x =>
               u.deliver x.src { tag := x.tag, status := St.tamperFrozen, flags := x.flags, epoch := x.epoch, elapsedNs := u.now - x.arrival } x.irq (x.cls == 0)
             let u := ({ u with tamper := { u.tamper with frozenJobs := [] } }).sealReport
             { u with tamper := { u.tamper with reportPhase := false } })) ∧
    (s.tamper.erasing = true → exec .mramEraseComplete s = .next s.eraseMram) ∧
    (∀ d, s.tamper.railDips.find? (fun d => d.die == die) = some d → d.at_ + 100000 ≤ s.now →
      (exec (.railRecoveryExpiry die true) s =
        .next (let u := { s with tamper := { s.tamper with railDips := s.tamper.railDips.filter (·.die != die) } }
               let u := ((u.latchClass 0).raiseAll Cause.tamper).addTrip d.held
               { u with tamper := { u.tamper with orderDue := u.tamper.orderDue || d.froze } })) ∧
      (exec (.railRecoveryExpiry die false) s =
        .next (let u := { s with tamper := { s.tamper with railDips := s.tamper.railDips.filter (·.die != die) } }
               let u := (if d.froze then { u with tamper := { u.tamper with frozen := false } } else u).deviceReset
               u.setBoot { u.boot with inReset := true }))))

/-- Standing orders are installed, read and take effect, a tamper is cleared and keys are erased, only. From a sender that is heard:
TAMPER_CLEAR that covers every latched class and every record, with no condition that still lives, no erased keys, no trip that
waits and no freeze for the loss of the Curator, clears under the quorum of an OWNED part; ORDER_INSTALL of a newer order on an OWNED part with its quorum installs it, and
one on another part is refused with POLICY_DENIED; ORDER_READ replies the order of its kind; ERASE freezes and erases, without a
quorum where the order lets the host erase. A held order takes effect at its time. -/
def Obligations.StandingOrdersAndTamperMessages : Prop :=
  ∀ (m : Sender) (ps p : List Byte) (s : State), p = (s.mailbox m).params ps →
    (∀ u, u = s.conditionsEnd → Heard s m 0x20 0 → (u.tamper.latch.toNat &&& (leAt p 0 4 % 2 ^ 16)) = u.tamper.latch.toNat →
      u.tamper.evSeq ≤ leAt p 4 4 → (u.tamper.live.toNat &&& (leAt p 0 4 % 2 ^ 16)) = 0 → u.tamper.erased = false → u.tamper.trips = [] →
      u.tamper.lostFreeze = false →
      (u.boot.lifecycle ≠ .owned → exec (.tamperClear m ps) s = .next (u.clearTamper.replyTo m St.ok 0 [])) ∧
      (u.boot.lifecycle = .owned → u.authValid u.boot.custodians u.boot.threshold 0x20 (p.take 8) (p.drop (up8 8)) = true →
        exec (.tamperClear m ps) s = .next ((u.clearTamper.useNonce (p.drop (up8 8))).replyTo m St.ok 0 []))) ∧
    (∀ n, n = 64 + leAt p 16 4 → Heard s m 0x21 0 → orderOk p = true →
      (s.boot.lifecycle ≠ .owned → exec (.orderInstall m ps) s = .next (s.replyTo m St.policyDenied 0 [])) ∧
      (s.boot.lifecycle = .owned → s.orderSeq (byteAt p 6) < leAt p 8 4 → (byteAt p 6 = 1 → actionsOk p = true) →
        s.authValid s.boot.custodians s.boot.threshold 0x21 (p.take n) (p.drop (up8 n)) = true → exec (.orderInstall m ps) s =
        .next (((s.installOrder (p.take n)).useNonce (p.drop (up8 n))).replyTo m St.ok 0 []))) ∧
    (Heard s m 0x23 96 → byteAt p 0 = 1 → exec (.orderRead m ps) s = .next (s.replyTo m St.ok (s.orderBytes 1).length (s.orderBytes 1))) ∧
    (Heard s m 0x23 80 → byteAt p 0 = 2 → exec (.orderRead m ps) s = .next (s.replyTo m St.ok (s.orderBytes 2).length (s.orderBytes 2))) ∧
    (Heard s m 0x22 0 → s.tamper.order.hostErase = true → exec (.erase m ps) s = .next ((s.freeze .curatorDie).eraseKeys.replyTo m St.ok 0 [])) ∧
    (Heard s m 0x22 0 → s.tamper.order.hostErase = false → s.boot.lifecycle = .owned →
      s.authValid s.boot.custodians s.boot.threshold 0x22 (p.take 0) (p.drop (up8 0)) = true → exec (.erase m ps) s =
      .next (((s.freeze .curatorDie).eraseKeys.useNonce (p.drop (up8 0))).replyTo m St.ok 0 [])) ∧
    (∀ t o, s.tamper.heldOrder = some (t, o) → t ≤ s.rtcSec → exec (.standingOrderEffective 1) s =
      .next { s with tamper := { s.tamper with order := o, armed := o.armedCopy, heldOrder := none } }) ∧
    (∀ t o, s.tamper.heldSpares = some (t, o) → t ≤ s.rtcSec → exec (.standingOrderEffective 2) s =
      .next { s with tamper := { s.tamper with spares := o, heldSpares := none } })

/-- Tiles are read, written, written back and scrubbed. On a wing whose gate is up: a verified read of a tile caches its path, and one
that fails for good ends the job that needs it with the status of what it met, the tree-cache nodes read with it being made again; a write
gives the tile its new content, its tag and its echo and raises its version, on both wings in a mirrored region, and makes the copy of a
peer that cannot take it stale; a dirty node is written
back with a higher version and makes its parent dirty, one of level 3 once the Curator takes its root; a mirrored tile that failed
is served, and repaired, from the peer, or its job ends with STOREROOM_MEDIA; and a scrub of a tile or node that the pass has not met reads
it, and may end the pass. -/
def Obligations.TilesAreReadAndWritten : Prop :=
  ∀ (t : TileId) (x : TileFetch) (d : List Byte) (w : TileStore) (n : Nat) (s : State), s.tileExists t = true → s.gateUp t.wing = true →
    (s.orphan t.wing = false → (s.fetchStatus t (s.effective t x)).1 = St.ok → exec (.tileRead t x none) s =
      .next ((s.recordFetch t (s.effective t x)).cachePath t)) ∧
    (∀ st, s.orphan t.wing = false → (s.fetchStatus t (s.effective t x)).1 = st → (st = St.storeroomIntegrity ∨ st = St.storeroomStale) →
      exec (.tileRead t x (some n)) s = .next ((((s.recordFetch t (s.effective t x)).dropCache t (some n)).endJob n st).pumpAll)) ∧
    (s.orphan t.wing = false → (s.fetchStatus t (s.effective t x)).1 = St.storeroomMedia →
      ((s.recordFetch t (s.effective t x)).peerServes t = false → exec (.tileRead t x (some n)) s =
        .next ((s.recordFetch t (s.effective t x)).endJob n St.storeroomMedia).pumpAll) ∧
      ((s.recordFetch t (s.effective t x)).peerServes t = true → exec (.tileRead t x (some n)) s = .next (s.recordFetch t (s.effective t x)))) ∧
    (s.orphan t.wing = true → exec (.tileRead t x none) s = .next s) ∧
    (s.orphan t.wing = true → s.orphanReads t n = false → exec (.tileRead t x (some n)) s = .next ((s.endJob n St.splitOrphan).pumpAll)) ∧
    (∀ u, u = (if w.crcErrors ≤ 4 then s.putTile t d else (s.putTile t d).mediaFailure t 0) → d.length ≤ 4096 → s.orphan t.wing = false →
      (u.mirrored t.tile = false → exec (.tileWrite t d w) s = .next u) ∧
      (u.mirrored t.tile = true → u.orphan (otherWing t.wing) = false → u.gateUp (otherWing t.wing) = true →
        exec (.tileWrite t d w) s = .next (u.putTile ⟨otherWing t.wing, t.tile⟩ d)) ∧
      (u.mirrored t.tile = true → (u.orphan (otherWing t.wing) = true ∨ u.gateUp (otherWing t.wing) = false) →
        exec (.tileWrite t d w) s = .next (u.setStoreWing (otherWing t.wing) { u.storeWing (otherWing t.wing) with stale := true }))) ∧
    ((s.channel (s.channelOf t)).retiring = false → s.putTile t d =
      (let v := (s.tile t).version + 1
       ((s.setTile t { s.tile t with version := v, data := padTo 4096 d, echo := v, tag := s.sealTag t.wing 0 t.tile v (padTo 4096 d),
                                     mediaFailed := false, unlendable := false }).cachePath t).dirtyNode t.wing 1 (t.tile / 128))) ∧
    (∀ l k y, s.node t.wing l k = y → y.dirtyAt ≠ none → s.orphan t.wing = false → (l = 1 ∨ l = 2) → exec (.nodeWriteback t.wing l k) s =
      .next (let v := y.version + 1
             let u := s.setNode t.wing l k { y with version := v, dirtyAt := none, verifiedAt := s.runNs, echo := v,
                                                    tag := s.sealTag t.wing l k v (s.nodeBytes t.wing l k) }
             u.dirtyNode t.wing (l + 1) (k / 128))) ∧
    (∀ k, (s.node t.wing 3 k).dirtyAt ≠ none → s.orphan t.wing = false → s.reaches t.wing = true → (s.storeWing t.wing).rootDue.contains k = false →
      exec (.nodeWriteback t.wing 3 k) s =
        .next (s.setStoreWing t.wing { s.storeWing t.wing with rootDue := (s.storeWing t.wing).rootDue ++ [k] })) ∧
    (∀ k y, s.node t.wing 3 k = y → s.orphan t.wing = false → s.reaches t.wing = true → (s.storeWing t.wing).rootDue.contains k = true →
      exec (.rootUpdate t.wing k) s =
      .next (let v := y.version + 1
             (s.setNode t.wing 3 k { y with version := v, dirtyAt := none, verifiedAt := s.runNs, echo := v,
                                            tag := s.sealTag t.wing 3 k v (s.nodeBytes t.wing 3 k) }).setRoot t.wing k v)) ∧
    (s.mirrored t.tile = true → (s.tile t).mediaFailed = true → (s.tile t).version ≠ 0 → s.peerServes t = false →
      exec (.peerFallbackRead t x (some n)) s = .next ((s.endJob n St.storeroomMedia).pumpAll)) ∧
    (∀ p u, p = ⟨otherWing t.wing, t.tile⟩ → u = (s.recordFetch p (s.effective p x)).cachePath p → s.mirrored t.tile = true → (s.tile t).unlendable = true →
      (s.tile t).mediaFailed = false → (s.tile t).version ≠ 0 → s.peerServes t = true → (s.fetchStatus p (s.effective p x)).1 = St.ok →
      (s.recordFetch p (s.effective p x)).orphan t.wing = false → (s.recordFetch p (s.effective p x)).gateUp t.wing = true →
      exec (.peerFallbackRead t x none) s = .next ((u.putTile t ((s.recordFetch p (s.effective p x)).tile p).data).markRepaired t)) ∧
    (∀ (l k : Nat) (r : DramRead), l ≤ 3 → s.versionAt t.wing l k ≠ 0 → s.store.passStart ≤ s.now →
      (if l = 0 then (s.tile ⟨t.wing, k⟩).patrolled else (s.node t.wing l k).patrolled) = false →
      exec (.patrolScrub ⟨t.wing, l, k⟩ r) s = .next (s.patrolRead ⟨t.wing, l, k⟩ r).endPass)

/-- Storeroom channels train, tiles are re-homed and channels are retired. A training channel that does not train, or whose DIMM is of
no capacity, density or rate that the part takes, is absent; one that trains comes into service with its spares, those that differ from the
first in service are left out and all run at the lowest rate, and the second channel of each wing trains after the first; a wing with a
tile key, a channel in
service and none in training is initialised and may be admitted; and a finished mirror refresh copies the mirrored tiles and ends
the staleness. A tile whose corrected bursts reached the limit moves to a spare of its channel with a new version, and the spare
is used up; the uncorrectable bursts of a day make a retirement request; STORE_RETIRE of a channel in service starts its
retirement, and of another is refused with ACCESS_DENIED; a finished copy moves the tiles of the channel to its peer and retires it; a channel
that fails is marked and
logged; ZQ calibration doubles the refresh
above 85 degrees (that it is this row is the choice of the model, log 52); and reads of STORE_CE, STORE_UE, STORE_INTEG and STORE_LASTFAIL clear what they
return. -/
def Obligations.ChannelsTrainMoveAndRetire : Prop :=
  (∀ (c : Nat) (x : ChannelTraining) (w : Wing) (s : State),
      (c < 4 → (s.channel c).state = 1 →
        ¬ (x.trained = true ∧ x.rate ≤ 4 ∧ (x.density = 16 ∨ x.density = 24 ∨ x.density = 32) ∧ 16 ≤ x.capacityGb ∧ x.capacityGb ≤ 128) →
        exec (.channelTrainingComplete c x) s = .next ((s.setChannel c { s.channel c with state := 0 }).trainNext c)) ∧
      (c < 4 → (s.channel c).state = 1 → x.trained = true → x.rate ≤ 4 → (x.density = 16 ∨ x.density = 24 ∨ x.density = 32) →
        16 ≤ x.capacityGb → x.capacityGb ≤ 128 → exec (.channelTrainingComplete c x) s =
        .next (let y := { s.channel c with state := 2, top := x.rate, widthX8 := x.widthX8, rdimm := x.rdimm, twoRanks := x.twoRanks }
               let u := s.setChannel c { y with capacityGb := x.capacityGb, density := x.density, failed := false }
               let u := u.setStoreWing (channelWing c) ((u.storeWing (channelWing c)).setSpares (c % 2) (x.capacityGb * 1536))
               (u.dropDiffering.commonRate).trainNext c)) ∧
      (∀ o, s.firstChannel = some o → s.dropDiffering =
        s.forAll ((List.range 4).filter fun c => s.channelUp c && !sameKind (s.channel o) (s.channel c)) fun u c =>
          (u.setChannel c { u.channel c with state := 0 }).log 4 0 (dieSrc (wingDie (channelWing c))) [byte c]) ∧
      (s.commonRate =
        s.forAll ((List.range 4).filter s.channelUp) fun u o =>
          u.setChannel o { u.channel o with rate := ((List.range 4).filter s.channelUp).foldl (fun r o => min r (s.channel o).top) 4 }) ∧
      ((s.storeWing w).initDone = false → (s.storeWing w).tileKey ≠ [] → (s.channel (wingChannel w 0)).state ≠ 1 → (s.channel (wingChannel w 1)).state ≠ 1 →
        s.wingChannels w ≠ [] → s.stopped = false → exec (.storeroomInitComplete w) s =
        .next (let u := s.setStoreWing w { s.storeWing w with initDone := true }
               (if u.store.regions = 0 then u.sizeRegions else u).tryAdmit w)) ∧
      (s.store.refresh = true → (s.storeWing w).stale = true → (s.storeWing w).initDone = true → s.tamper.frozen = false →
        exec (.mirrorRefreshComplete w) s =
        .next (let u := s.copyMirrored w
               let u := u.setStoreWing w { u.storeWing w with stale := false }
               ({ u with store := { u.store with refresh := false } }).tryAdmit w))) ∧
  (∀ (t : TileId) (c : Nat) (f : Fn) (v : Word32) (s : State),
      (s.rehomeDue t = true → s.gateUp t.wing = true → s.orphan t.wing = false → (s.tile t).mediaFailed = false →
        s.sparesOn t.wing (s.channelOf t % 2) ≠ 0 → exec (.tileRehome t) s =
        .next (let w := s.storeWing t.wing
               let k := s.channelOf t % 2
               let u := s.setStoreWing t.wing (w.setSpares k (w.spares k - 1))
               let u := (u.setTile t { u.tile t with home := (s.tile t).home, ceThisPass := 0 }).writeTile t (s.tile t).data
               u.log 4 0 (dieSrc (wingDie t.wing)) (storeDetail t.wing 0 t.tile))) ∧
      (s.rehomeDue t = true → s.gateUp t.wing = true → s.orphan t.wing = false → s.sparesOn t.wing 0 = 0 → s.sparesOn t.wing 1 = 0 →
        exec (.tileRehome t) s =
        .next ((s.log 4 0 (dieSrc (wingDie t.wing)) (storeDetail t.wing 0 t.tile)).requestRetire (s.channelOf t))) ∧
      (c < 4 → s.tamper.frozen = false → s.retireUe ≤ ((s.channel c).ueTimes.filter fun a => s.now - a < dayNs).length →
        exec (.channelRetirementRequest c) s = .next (s.requestRetire c)) ∧
      (Manages s f 0x170060 → bit32 v 31 = true → s.retiring = false → s.channelUp (bits32 v 0 2) = true → exec (.storeRetire f v) s =
        .next (s.startRetire (bits32 v 0 2))) ∧
      (Manages s f 0x170060 → bit32 v 31 = true → (s.channelUp (bits32 v 0 2) = false ∨ s.retiring = true) → exec (.storeRetire f v) s =
        .next (s.regError f St.accessDenied 0x170060)) ∧
      (∀ u, (s.channel c).retiring = true → s.tamper.frozen = false → s.gateUp (channelWing c) = true → s.orphan (channelWing c) = false →
        u = s.forAll ((s.storeWing (channelWing c)).tiles.filter fun p => p.2.version != 0 && s.channelOf ⟨channelWing c, p.1⟩ == c)
          (fun u p => u.copyOff c ⟨channelWing c, p.1⟩) → exec (.retirementCopyComplete c) s =
        .next ((u.setChannel c { u.channel c with retiring := false, state := 3 }).log 4 0 (dieSrc (wingDie (channelWing c))) [byte c])) ∧
      (c < 4 → s.channelUp c = true → (s.channel c).failed = false → exec (.channelFailure c) s =
        .next ((s.setChannel c { s.channel c with failed := true }).log 4 St.storeroomMedia (dieSrc (wingDie (channelWing c))) [byte c])) ∧
      (∀ k, exec (.zqCalibration ⟨c, k⟩) s =
        .next (if s.channelUp c = true then s.setChannel c { s.channel c with refresh2x := decide (85 < k) } else s)) ∧
      (c < 4 → ReadsPf s f (0x170020 + 4 * c) → exec (.storeCeRead f c) s =
        .next (let u := s.emit (.readValue f (0x170020 + 4 * c) (w32 (s.channel c).ce))
               u.setChannel c { u.channel c with ce := 0 })) ∧
      (c < 4 → ReadsPf s f (0x170030 + 4 * c) → exec (.storeUeRead f c) s =
        .next (let u := s.emit (.readValue f (0x170030 + 4 * c) (w32 (s.channel c).ue))
               u.setChannel c { u.channel c with ue := 0 })) ∧
      (ReadsPf s f 0x170040 → exec (.storeIntegRead f) s =
        .next (let u := s.emit (.readValue f 0x170040 (w32 (s.store.integ + s.store.stale * 65536)))
               { u with store := { u.store with integ := 0, stale := 0 } })) ∧
      (ReadsPf s f 0x170044 → exec (.storeLastfailRead f) s =
        .next (let u := s.emit (.readValue f 0x170044 s.store.lastFail)
               { u with store := { u.store with lastFail := 0 } })))

/-- Units are fenced, tested, replaced and re-admitted. Outside reset and low power: a fence, and a handshake that times out, fences
the unit, which then has a new generation, no errors and no service; an error count falls by one after its time; a known-answer
test that passes clears the failed test and one that fails fences the unit; a due recalibration pass is counted as run; the oldest
promotion that the Curator can reach puts the spare in the fenced unit's place with a new generation, as a masked lane where that was one; and a re-admission that passes returns the unit with a
new generation, as the spare where its place was filled, and one that fails leaves it fenced. -/
def Obligations.UnitsAreFencedTestedAndReplaced : Prop :=
  ∀ (u : UnitId) (c : Nat) (x : UnitState) (s : State), s.boot.inReset = false → s.stopped = false → u.kind ≠ Kind.curator → s.unit u = x →
    (1 ≤ c → c ≤ 6 → exec (.unitFence u c) s = .next ((s.fence u c).pumpAll)) ∧
    (exec (.unitHandshakeTimeout u) s = .next ((s.fence u 3).pumpAll)) ∧
    (x.svc = .fenced → s.fence u c = s) ∧
    (s.unitExists u = true → x.errors ≠ 0 → x.decayAt + s.decaySec * 1000000000 ≤ s.now → exec (.errorCountDecay u) s =
      .next (s.setUnit u { x with errors := x.errors - 1, decayAt := s.now })) ∧
    (s.unitExists u = true → x.svc ≠ .fenced → exec (.unitKnownAnswerTest u false) s = .next ((s.fence u 2).pumpAll) ∧
      exec (.unitKnownAnswerTest u true) s = .next ((s.yieldToSpare u).setUnit u { (s.yieldToSpare u).unit u with stFail := false })) ∧
    (s.unitExists u = true → x.svc ≠ .fenced → s.recalDue = true → exec (.recalibration u) s =
      .next (let t := s.yieldToSpare u
             { t with cont := { t.cont with recalPass := false, recalAt := t.now, recalTemp := t.hottest } })) ∧
    (∀ t sp, s.cont.promoting.find? (fun c => s.ordersReach (unitOf c).loc) = some (unitCode u) →
      t = { s with cont := { s.cont with promoting := s.cont.promoting.filter (· != unitCode u) } } → t.spareOf u = some sp → exec (.sparePromotion u) s =
      .next (let r := t.setUnit sp { t.unit sp with svc := .inService, gen := nextGen (t.unit sp).gen, masked := (t.unit u).masked }
             (r.setUnit u { r.unit u with replaced := true, ask := false, masked := false }).pumpAll)) ∧
    (x.readmitting = true → s.ordersReach u.loc = true → exec (.unitReadmitComplete u false) s = .next (s.setUnit u { x with readmitting := false, stFail := true })) ∧
    (x.readmitting = true → s.ordersReach u.loc = true → exec (.unitReadmitComplete u true) s =
      .next (let y := { x with svc := if x.replaced then .spare else .inService, gen := nextGen x.gen, readmitting := false, stFail := false }
             let t := s.setUnit u { y with replaced := false, ask := false }
             let k := { t.cont with asks := t.cont.asks.filter (· != unitCode u), promoting := t.cont.promoting.filter (· != unitCode u) }
             ({ t with cont := k }).pumpAll)) ∧
    (nextGen 65535 = 1 ∧ ∀ g, g < 65535 → nextGen g = g + 1)

/-- The conservation registers and gallery resets act. A management write to CONS_FENCE fences the unit with cause 6, CONS_READMIT
begins the self-test of a fenced one, CONS_PROMOTE of the oldest asking unit orders its promotion and of another records
ACCESS_DENIED, CONS_RECAL orders a pass, CONS_GRESET of a gallery orders its reset; an ordered reset takes the gallery down and
its completion brings it back; a read of CONS_EVENT, CONS_FENCED_TRAFFIC and CONS_LINKDOWN clears it; a flit with a stale
generation is dropped, counted and logged; a loaded bank leaves the list and a failed one fences its unit; and a drained pair of
big-number engines whose turn it is takes its slot length, its slots wiped. -/
def Obligations.ConservationRegistersAndGalleryResets : Prop :=
  ∀ (f : Fn) (v : Word32) (u : UnitId) (g : Nat) (s : State), u = unitOf (bits32 v 0 18) → s.stopped = false →
    (Manages s f 0x140028 → bit32 v 31 = true → u.kind ≠ Kind.curator → s.unitExists u = true → exec (.consFence f v) s = .next ((s.fence u 6).pumpAll)) ∧
    (Manages s f 0x14002C → bit32 v 31 = true → u.kind ≠ Kind.curator → s.unitExists u = true → (s.unit u).svc = .fenced → exec (.consReadmit f v) s =
      .next (s.setUnit u { s.unit u with readmitting := true })) ∧
    (∀ l, Manages s f 0x140024 → bit32 v 31 = true → u.kind ≠ Kind.curator → s.unitExists u = true → s.cont.asks = unitCode u :: l → exec (.consPromote f v) s =
      .next (let t := s.setUnit u { s.unit u with ask := false }
             { t with cont := { t.cont with asks := t.cont.asks.drop 1, promoting := t.cont.promoting ++ [unitCode u] } })) ∧
    (Manages s f 0x140024 → bit32 v 31 = true → u.kind ≠ Kind.curator → s.unitExists u = true → s.cont.asks.head? ≠ some (unitCode u) →
      exec (.consPromote f v) s = .next (s.regError f St.accessDenied 0x140024)) ∧
    (Manages s f 0x14003C → bit32 v 0 = true → exec (.consRecal f v) s = .next { s with cont := { s.cont with recalPass := true } }) ∧
    (Manages s f 0x140040 → bit32 v 31 = true → s.present (bits32 v 0 4) = true → exec (.consGreset f v) s =
      .next (s.setGal (bits32 v 0 4) { s.gal (bits32 v 0 4) with resetOrdered := true })) ∧
    (s.present g = true → s.ordersReach g = true → (s.gal g).inReset = false → (s.gal g).resetOrdered = true → s.boot.inReset = false →
      exec (.galleryReset g) s =
      .next ((s.galleryDown g).pumpAll)) ∧
    ((s.gal g).inReset = true → exec (.galleryResetComplete g) s = .next ((s.setGal g { s.gal g with inReset := false }).pumpAll)) ∧
    (ReadsPf s f 0x140010 → exec (.consEventRead f) s = .next ((s.emit (.readValue f 0x140010 (s.readCons 0x010))).setEvent 0)) ∧
    (ReadsPf s f 0x14001C → exec (.consFencedTrafficRead f) s = .next ((s.emit (.readValue f 0x14001C (s.readCons 0x01C))).setFencedTraffic 0)) ∧
    (ReadsPf s f 0x140038 → exec (.consLinkdownRead f) s = .next ((s.emit (.readValue f 0x140038 (s.readCons 0x038))).setLinkdown 0 0 0)) ∧
    (s.unitExists u = true → g ≠ (s.unit u).gen → exec (.staleFlitDrop u g) s =
      .next ((s.setFencedTraffic (min (s.cont.fencedTraffic + 1) (2 ^ 32 - 1))).log 2 0 (unitSrc u) (leBytes 2 g))) ∧
    (s.cfgtx.toLoad.contains (unitCode u) = true →
      exec (.microcodeBankLoad u true) s = .next { s with cfgtx := { s.cfgtx with toLoad := s.cfgtx.toLoad.filter (· != unitCode u) } } ∧
      exec (.microcodeBankLoad u false) s =
        .next ((State.fence { s with cfgtx := { s.cfgtx with toLoad := s.cfgtx.toLoad.filter (· != unitCode u) } } u 5).pumpAll)) ∧
    (∀ n, (s.gal g).repartition = some n → s.repartitioning g = true → s.ordersReach g = true →
      (s.work.grants.any fun x => x.res == .bigNumber g) = false → exec (.bnslotRepartition g) s =
      .next (let y := (s.gal g).wiping.filter fun y => y.1 != Kind.bigNumber
             (s.setGal g { s.gal g with slotLen := n, repartition := none, wiping := y }).pumpAll))

/-- Links, the Curator's vote, orphans and wing resets act. Outside reset: a dissenting core is fenced and the vote is dual, and a
second dissent loses the Curator, as does the loss of both wings; a heartbeat goes out on a link that carries traffic; a link
whose end has heard nothing for 8 µs is down, counted and logged; a link that is down retrains after 1 ms and is up after 10 ms of
clean traffic, after a key was drawn where it has none; a wing that cannot reach the Curator becomes an orphan and its copy stale; an orphan whose last lease ended halts and its loan desk forgets its keys;
an ordered reset of a wing that reaches the Curator takes it down; and an orphan whose path is stable begins its re-admission with a new tree. -/
def Obligations.LinksVotesAndSplits : Prop :=
  ∀ (w : Wing) (l : Link) (e : LinkEnd) (k : Nat) (o : Vote) (s : State), s.boot.inReset = false →
    (s.cont.vote = .triple → o.dissenter = some k → k < 3 → exec (.voteDisagreement o) s = .next ((s.fence ⟨20, Kind.curator, k⟩ 4).setVote .dual)) ∧
    (s.cont.vote = .dual → exec (.voteDisagreement o) s = .next (s.setVote .lost).loseCurator) ∧
    (s.tamper.frozen = false → (s.cont.vote = .lost ∨ (s.cont.orphanW = true ∧ s.cont.orphanE = true) ∨
      (s.cont.linkKeys = true ∧ s.cont.curW.up = false ∧ s.cont.curE.up = false)) → exec .bothWingsLost s = .next s.loseCurator) ∧
    (s.cont.linkKeys = true → (s.link l).up = true → exec (.heartbeatSend l e) s =
      .next ((s.setLink l ((s.link l).beat e s.runNs)).emit (.heartbeat l e))) ∧
    ((s.link l).up = true → (s.link l).rx e + 8000 ≤ s.runNs → exec (.linkDownDeclare l e) s =
      .next (let t := (s.setLink l { s.link l with up := false, cleanSince := none, lastRetrain := s.runNs }).countDown l
             let t := t.log 3 0 (dieSrc .curatorDie) [byte (linkCode l)]
             ((State.entropyChanged s (t.linkLost l)).markC0).pumpAll)) ∧
    ((s.link l).up = false → s.cont.linkKeys = true → (s.link l).cleanSince = none → (s.link l).lastRetrain + 1000000 ≤ s.runNs →
      ((s.link l).key ≠ none → exec (.linkRetrain l) s =
        .next (s.setLink l { s.link l with cleanSince := some s.runNs, lastRetrain := s.runNs, rxFirst := s.runNs, rxSecond := s.runNs })) ∧
      ((s.link l).key = none → s.drbgOk .curator = true → exec (.linkRetrain l) s =
        .next (let t := (s.drawFrom .curator 32).2
               t.setLink l { s.link l with key := some (s.drawFrom .curator 32).1 }))) ∧
    (∀ t, (s.link l).cleanSince = some t → s.runNs < (s.link l).rxFirst + 8000 → s.runNs < (s.link l).rxSecond + 8000 → (s.link l).up = false →
      t + 10000000 ≤ s.runNs → exec (.linkUpDeclare l) s =
      .next ((State.entropyChanged s (s.setLink l { s.link l with up := true, upAt := s.now, cleanSince := none })).pumpAll)) ∧
    (s.orphan w = false → s.reaches w = false → s.cont.linkKeys = true → exec (.orphanDetect w) s =
      .next (let t := (((s.setOrphan w true).setAdmitted w false).raiseSplit).retireBlocks w
             let t := t.setStoreWing w { t.storeWing w with stale := true }
             let t := (t.log 3 St.splitOrphan (dieSrc (wingDie w)) []).abandonHandover 2
             ((State.entropyChanged s t).markC0).pumpAll)) ∧
    (s.orphan w = true → s.halted w = false → s.returning w = false → (∀ p ∈ s.loanList, p.2.wing = w → p.2.from_ + p.2.leaseNs ≤ s.runNs) → exec (.orphanHalt w) s =
      .next (let t := (s.endJobs (fun _ j => j.wing == w || galleryWing j.gallery == w) St.splitOrphan).dropGensOn fun g => galleryWing g == w
             let t := t.forAll (t.portPages w) fun t p => t.endPage p St.splitOrphan
             let t := State.entropyChanged s (((t.wipeGate w).wipeGenerators (t.poolDrbgs (.wing w)) (t.poolMasks (.wing w))).dropReady w)
             let t := t.setDoc w { t.doc w with running := false }
             (((t.forAll (portFns w) fun t f => t.setReady f false).setDesk w false).setHalted w true).pumpAll)) ∧
    (s.stopped = false → s.hasCurator w = true → exec (.wingReset w) s = .next ((s.wingDown w).pumpAll)) ∧
    (s.orphan w = true → s.returning w = false → s.pathStable w = true → s.drbgOk .curator = true → s.stopped = false → exec (.wingReadmission w) s =
      .next (let t := ((s.wingDown w).setHalted w false).newTree w
             let t := { t with store := { t.store with refresh := true } }
             ((t.setDoc w { t.doc w with running := true }).setReturning w true).pumpAll))

/-- A configuration transaction begins, commits, drains and ends. From a host function that manages, or a supervisor whose cluster
runs and reaches the Curator (log 62): BEGIN of an idle transaction opens it for its sender, and of an open one is refused with CONFIG_LOCKED; ABORT by the owner
ends it without effect; COMMIT by the owner, with the random bases that a curve's checks draw, begins the drain where the list passes
every check and ends with its result where it fails one; an open transaction left idle for its time ends; a drain set that is not empty at its time ends the commit with
EPOCH_BUSY; and an empty drain set without microcode to load makes the switch. -/
def Obligations.TransactionsBeginCommitAndEnd : Prop :=
  ∀ (b : TxWriter) (l : Option (List Byte)) (s : State),
    (∀ f, b = .host f → Manages s f 0x110000) → (∀ w, b = .supervisor w → s.supervisorUp w = true) → s.boot.inReset = false →
    (∀ c, s.cfgtx.state = 0 → txCode b = some c → exec (.cfgtxBegin b) s =
      .next { s with cfgtx := { s.cfgtx with state := 1, owner := c, staged := [], items := [], lastWrite := s.now } }) ∧
    (∀ f, b = .host f → s.cfgtx.state ≠ 0 → (txCode b).isSome = true → exec (.cfgtxBegin b) s = .next (s.regError f St.configLocked 0x110000)) ∧
    (s.cfgtx.state ≠ 0 → txCode b = some s.cfgtx.owner → exec (.cfgtxAbort b) s = .next ((s.endTransaction s.cfgtx.result).pumpAll)) ∧
    (s.ownsTx b = false → ∀ f, b = .host f → exec (.cfgtxCommit b l) s = .next (s.regError f St.configLocked 0x110000)) ∧
    (∀ x i d, s.ownsTx b = true → s.stopped = false → s.handingOver = false → s.cfgtx.listBytes l = some x → s.drawBases x = d →
      d.2.validate x d.1 = .ok i → exec (.cfgtxCommit b l) s = .next (d.2.beginDrain i)) ∧
    (∀ x st at_ d, s.ownsTx b = true → s.stopped = false → s.handingOver = false → s.cfgtx.listBytes l = some x → s.drawBases x = d →
      d.2.validate x d.1 = .error (st, at_) → st ≠ St.badProgram → exec (.cfgtxCommit b l) s = .next ((d.2.failCommit st at_).pumpAll)) ∧
    (s.ownsTx b = true → s.stopped = false → s.handingOver = true → exec (.cfgtxCommit b l) s = .next (s.failCommit St.handoverPause 0)) ∧
    (s.cfgtx.state = 1 → s.cfgtx.lastWrite + bits32 s.cfgtx.cfg 16 10 * 1000000000 ≤ s.now → exec .cfgtxIdleExpiry s =
      .next ((s.endTransaction s.cfgtx.result).pumpAll)) ∧
    (s.cfgtx.state = 2 → s.cfgtx.retire = false → s.cfgtx.drained = false → s.drainEmpty = false →
      s.cfgtx.commitAt + bits32 s.cfgtx.cfg 0 10 * 1000000 ≤ s.runNs → exec .cfgtxDrainTimeout s = .next ((s.failCommit St.epochBusy 0).pumpAll)) ∧
    (s.cfgtx.state = 2 → s.drainEmpty = true → s.stopped = false → s.microcodeItem = false → s.cfgtx.toLoad = [] → exec .cfgtxDrainComplete s =
      .next s.switch)

/-- Docent queues, access units, violations and the test port operate. While a wing's Docents run and the core is not fenced: a tail that passes no limit is
taken and one that does answers QUEUE_FULL; a completion head within the records written is taken; the CSRs of a queue that is off
raise an illegal-instruction exception; a disabled queue takes its registers, an enable that is not granted is dropped and
logged, and a queue that is disabled keeps its registers and loses the records held for it; the CSRs of a core that is fenced or stands do nothing; a unit's register is written only by its own master, another's write is a violation; a violation count is read and
cleared; a violation capture is armed again, also through the log mirror; a cluster reset resets the cluster; and the test port
answers what the lifecycle allows. -/
def Obligations.DocentQueuesAndUnitsOperate : Prop :=
  ∀ (w : Wing) (c q n off : Nat) (user : Bool) (t : BitVec 16) (v : Word32) (f : Fn) (i : JtagIns) (s : State),
    (c < 8 → s.coreUp w c = true → s.csrAllowed w c q user = true → (s.docQueue w c q).tailRefused (s.inFlight (.docent w c q)) t.toNat = false →
      exec (.docentSqTailWrite w c q user t) s = .next (s.dqTail w c q t.toNat)) ∧
    (c < 8 → s.coreUp w c = true → s.csrAllowed w c q user = true → (s.docQueue w c q).tailRefused (s.inFlight (.docent w c q)) t.toNat = true →
      exec (.docentSqTailWrite w c q user t) s = .next (s.setCsr w c St.queueFull.toNat)) ∧
    (c < 8 → s.coreUp w c = true → s.csrAllowed w c q user = false →
      exec (.docentSqTailWrite w c q user t) s = .next (s.emit (.illegalCsr w c)) ∧ exec (.docentCqHeadWrite w c q user t) s = .next (s.emit (.illegalCsr w c))) ∧
    (∀ d, d = s.docQueue w c q → c < 8 → s.coreUp w c = true → s.csrAllowed w c q user = true → t.toNat < d.depth →
      ringCount d.depth d.q.cqHead t.toNat ≤ ringCount d.depth d.q.cqHead d.q.cqTail → exec (.docentCqHeadWrite w c q user t) s =
      .next (s.setDocQueue w c q { d with q := { d.q with cqHead := t.toNat } })) ∧
    (∀ d, d = s.docQueue w c q → c < 8 → q < 16 → s.coreUp w c = true → d.on = false →
      exec (.dqCtrlWrite w c q 0 v) s = .next (s.setDocQueue w c q { d with sqLo := v &&& 0xFFFFFFC0 }) ∧
      (bit32 v 0 = true → s.dqEnableOk w c v = true → exec (.dqCtrlWrite w c q 0x10 v) s =
        .next (s.setDocQueue w c q { d with ctrl := v &&& 0x07FFFFFF, q := {} })) ∧
      (bit32 v 0 = true → s.dqEnableOk w c v = false → exec (.dqCtrlWrite w c q 0x10 v) s =
        .next ((s.setDocQueue w c q { d with ctrl := v &&& 0x07FFFFFF &&& 0x07FFFFFE }).log 7 St.accessDenied (dieSrc (wingDie w)) [byte c, byte q]))) ∧
    (∀ d, d = s.docQueue w c q → c < 8 → q < 16 → s.coreUp w c = true → d.on = true → bit32 v 0 = false → exec (.dqCtrlWrite w c q 0x10 v) s =
      .next ((s.loseDocRecords fun x => x == .docent w c q).setDocQueue w c q { d with ctrl := d.ctrl &&& 0xFFFFFFFE, q := {} })) ∧
    (c < 8 → s.coreUp w c = false → exec (.docentSqTailWrite w c q user t) s = .next s ∧ exec (.docentCqHeadWrite w c q user t) s = .next s) ∧
    (n < 8 → off < 8 → s.coreUp w n = true → bit32 ((s.au w n).slots.getD off 0) 31 = false → exec (.auRegisterWrite w n n (4 * off) v) s =
      .next (s.setAu w n { s.au w n with slots := setAt (s.au w n).slots off (v &&& 0x80000007) })) ∧
    (n < 8 → c < 10 → off < 0x1000 → s.coreUp w n = true → mayWriteUnit n c = false → exec (.auRegisterWrite w n c off v) s =
      .next (s.violation w n 3 1 false 31 (0x11000000 + 0x1000 * c + off))) ∧
    (n ≤ 8 → s.docentUp w = true → bit32 v 0 = true → exec (.auVinfoClear w n v) s =
      .next (s.setAu w n { s.au w n with vinfo := (s.au w n).vinfo &&& 0xFFFFFFFE })) ∧
    (n ≤ 8 → s.masterUp w n = true → exec (.auVcountRead w n) s =
      .next ((s.setAu w n { s.au w n with vcount := 0 }).emit (.access w n false (leBytes 4 (w32 (s.au w n).vcount).toNat)))) ∧
    (n < 20 → Manages s f (0x120100 + 16 * n) → exec (.evlogVinfoClear f n v) s =
      .next (s.vinfoClear (if n < 10 then .west else .east) (n % 10) v)) ∧
    (s.boot.inReset = false → exec (.docentClusterReset w) s = .next (s.docentReset w false)) ∧
    (exec (.jtagInstruction i) s = .next (s.emit (.jtag (s.jtagAllowed i) (if i == .idcode then 0x35472F3B else 0))))

/-- A Docent master reaches only what its access unit lets through. An access of a core, a DMA burst of at most 256 bytes or one tile,
and a debug access go to the target that the unit's check gives: a read of shared memory answers its bytes and changes nothing
else, a write stores them; an access that the check refuses is a violation of the master, answered with an error and zeros; and a
store that a tile read fails answers an error and is counted and logged as the failure of that tile. -/
def Obligations.DocentMastersAccessMemory : Prop :=
  ∀ (w : Wing) (c : Nat) (x : Access) (g : GateOutcome) (s : State), x.len ≠ 0 →
    (∀ m, (m = c ∧ c < 8 ∧ s.coreUp w c = true) →
      (∀ o, s.auCheck w m x.op x.addr x.len (x.user && m < 8) = .ok (.shared o) → x.op = .read → exec (.docentAccess w c x g) s =
        .next (s.emit (.access w m false (Tbl.readBytes 0 (s.doc w).shared o x.len)))) ∧
      (∀ o, s.auCheck w m x.op x.addr x.len (x.user && m < 8) = .ok (.shared o) → x.op = .write → exec (.docentAccess w c x g) s =
        .next ((s.setDoc w { s.doc w with shared := Tbl.writeBytes 0 (s.doc w).shared o (padTo x.len x.data) }).emit (.access w m false []))) ∧
      (∀ k i, s.auCheck w m x.op x.addr x.len (x.user && m < 8) = .error (k, i) → x.op = .read → exec (.docentAccess w c x g) s =
        .next ((s.violation w m k 0 (x.user && m < 8) i x.addr).emit (.access w m true (zeros x.len))))) ∧
    (∀ o, s.docentUp w = true → (x.len ≤ 256 ∨ (x.len = 4096 ∧ x.addr % 4096 = 0)) → s.auCheck w 8 x.op x.addr x.len false = .ok (.shared o) →
      (x.op = .write → exec (.docentDmaBurst w x g) s =
        .next ((s.setDoc w { s.doc w with shared := Tbl.writeBytes 0 (s.doc w).shared o (padTo x.len x.data) }).emit (.access w 8 false []))) ∧
      (x.op = .read → exec (.docentDmaBurst w x g) s = .next (s.emit (.access w 8 false (Tbl.readBytes 0 (s.doc w).shared o x.len))))) ∧
    (∀ o, s.boot.inReset = false → s.auCheck w 9 x.op x.addr x.len false = .ok (.local_ c o) → x.op = .read → exec (.debugPortAccess w x g) s =
      .next (s.emit (.access w 9 false (Tbl.readBytes 0 (s.doc w).local_ (c * 2 ^ 18 + o) x.len)))) ∧
    (∀ o st, s.coreUp w c = true → c < 8 → s.auCheck w c x.op x.addr x.len (x.user && c < 8) = .ok (.store o) → x.op = .read →
      s.storeFail w o x.len false g = some st → exec (.docentAccess w c x g) s =
      .next (let t := if s.orphan w || !s.gateUp w then s else s.storeFailure ⟨w, s.docentBase + o / 4096⟩ st 0
             (t.log 4 st (dieSrc (wingDie w)) [byte c]).emit (.access w c true (zeros x.len))))

/-- What is stored in a memory of the part is read back, and no other byte changes. In a state whose memories are in canonical form,
bytes stored in a wing's shared or local memory, in a card's data buffer or in the boot flash are read back, and every address
outside them reads as before. -/
def Obligations.StoredBytesAreReadBack : Prop :=
  ∀ (w : Wing) (c n o a : Nat) (l : List Byte) (s : State), s.Inv →
    (((s.docMemWrite w (.shared o) l).docMemRead w (.shared o) l.length).1 = l ∧
      ((a < o ∨ o + l.length ≤ a) → Tbl.get 0 ((s.docMemWrite w (.shared o) l).doc w).shared a = Tbl.get 0 (s.doc w).shared a)) ∧
    (((s.docMemWrite w (.local_ c o) l).docMemRead w (.local_ c o) l.length).1 = l ∧
      ((a < c * 2 ^ 18 + o ∨ c * 2 ^ 18 + o + l.length ≤ a) → Tbl.get 0 ((s.docMemWrite w (.local_ c o) l).doc w).local_ a = Tbl.get 0 (s.doc w).local_ a)) ∧
    (n < 2 → 0x100 ≤ o → o + l.length ≤ 0x200 →
      Tbl.readBytes 0 ((s.cardDataWrite n o l).card n).data (o - 0x100) l.length = l ∧
      ((a < o - 0x100 ∨ o - 0x100 + l.length ≤ a) → Tbl.get 0 ((s.cardDataWrite n o l).card n).data a = Tbl.get 0 (s.card n).data a)) ∧
    (Tbl.readBytes 0xFF (s.flashWrite o l).boot.flash o l.length = l ∧
      ((a < o ∨ o + l.length ≤ a) → Tbl.get 0xFF (s.flashWrite o l).boot.flash a = Tbl.get 0xFF s.boot.flash a))

/-- The card slots take insertions, removals and commands. In slots 0 and 1: an insertion makes the card present, and a removal ends a
running command with CARD_GONE and deactivates; ACTIVATE of a present card powers it up, class C first unless class_mode says B,
and without a card ends with NO_CARD; DEACTIVATE of an idle slot ends with OK and drives the contacts low; WARM_RESET of an active
card begins a new ATR; START in ACTIVE or SLEEP sends the first header byte, and elsewhere ends with NOT_ACTIVE; CLK_STOP of an
active card that allows it goes to SLEEP and WAKE comes back; ABORT while the slot waits ends the command with ABORTED, and while
it sends waits for the character; a busy slot ignores every other command; CARD_RESULT clears on a read and CARD_IRQ by a write of
ones. -/
def Obligations.CardSlotsTakeTheirCommands : Prop :=
  ∀ (n : Nat) (c : Card) (v : Word32) (s : State), n < 2 → s.card n = c →
    (c.present = false → exec (.cardInsertion n) s =
      .next (s.setCard n { c with present := true, irq := c.irq ||| 2, state := if c.state = .empty then .present else c.state })) ∧
    (c.present = true → c.busy = true → c.state ≠ .present → exec (.cardRemoval n) s =
      .next (s.setCard n { (Card.finish { c with present := false, irq := c.irq ||| 6 } Cr.cardGone).toDeactivating s.now with next := 0 })) ∧
    (c.present = true → c.busy = false → c.state = .present → exec (.cardRemoval n) s =
      .next (s.setCard n { c with present := false, irq := c.irq ||| 6, state := .empty, next := 0 })) ∧
    (c.busy = false → c.present = true → c.state = .present → exec (.cardActivate n) s =
      .next (s.cardPowerUp n { c with ppsFailed := false, triedB := c.classMode = 1 } (if c.classMode = 1 then 2 else 1))) ∧
    (c.busy = false → c.present = false → exec (.cardActivate n) s = .next (s.setCard n (c.finish Cr.noCard))) ∧
    (c.busy = false → exec (.cardDeactivate n) s = .next (s.setCard n ((c.finish Cr.ok).toDeactivating s.now))) ∧
    (c.busy = false → c.state = .active → exec (.cardWarmReset n) s =
      .next (let x := { c with state := .activating, busy := true, phase := .atr, atr := [], ppsGot := [], ppsFailed := false, sent := 0, got := 0 }
             s.setCard n { x with repeats := 0, params := 0x000A0011, since := s.now })) ∧
    (c.busy = false → (c.state = .active ∨ c.state = .sleep) → exec (.cardStart n) s =
      .next (let x := { c with busy := true, phase := .header, state := .active, sent := 0, got := 0, procSeen := false, swSeen := false }
             (s.setCard n { x with repeats := 0, aborting := false, since := s.now }).emit (.cardChar n (byte (bits32 c.hdr 0 8))))) ∧
    (c.busy = false → c.state ≠ .active → c.state ≠ .sleep → exec (.cardStart n) s = .next (s.setCard n (c.finish Cr.notActive))) ∧
    (c.busy = false → c.state = .active → c.clkStopMode ≠ 0 → exec (.cardClkStop n) s = .next (s.setCard n { c.finish Cr.ok with state := .sleep })) ∧
    (c.busy = false → c.state = .sleep → exec (.cardWake n) s = .next (s.setCard n { c.finish Cr.ok with state := .active })) ∧
    ((c.state = .active ∨ c.state = .activating) → c.toSend = none → exec (.cardAbort n) s = .next (s.setCard n (c.fail Cr.aborted s.now))) ∧
    ((c.state = .active ∨ c.state = .activating) → c.toSend ≠ none → exec (.cardAbort n) s = .next (s.setCard n { c with aborting := true })) ∧
    (c.busy = true → ∀ i ∈ [Instr.cardActivate n, .cardWarmReset n, .cardStart n, .cardClkStop n, .cardWake n], exec i s = .next s) ∧
    (exec (.cardResultRead n) s = .next ((s.setCard n { c with result := 0 }).emit (.access .west 0 false (leBytes 4 c.result.toNat)))) ∧
    (exec (.cardIrqClear n v) s = .next (s.setCard n { c with irq := c.irq &&& ~~~v }))

/-- The card slots exchange characters and keep times. In a busy slot: a procedure byte 0x60 keeps waiting, INS sends or takes the
data, and SW1 waits for SW2, which ends the TPDU with OK and its status words; a received data byte is stored in the buffer; a
parity error is answered with the error signal until the retries end the command with PARITY; a character sent moves to the next
header byte; VCC not in its window within 1 ms ends with VCC_FAULT, a missing ATR with NO_ATR, class B follows once VCC has been
off, and a waiting time that has passed ends a TPDU with TIMEOUT; a finished deactivation leaves the slot PRESENT or EMPTY. -/
def Obligations.CardCharactersAndTimes : Prop :=
  ∀ (n : Nat) (c : Card) (b : Byte) (s : State), n < 2 → s.card n = c →
    (c.busy = true → c.aborting = false → c.phase = .proc → b = 0x60 → exec (.cardCharacterReceive n b true) s =
      .next (s.setCard n { c with repeats := 0, procSeen := true, since := s.now })) ∧
    (c.busy = true → c.aborting = false → c.phase = .proc → (b.toNat / 16 = 6 ∨ b.toNat / 16 = 9) → b ≠ 0x60 → b ≠ c.ins → b ≠ c.ins ^^^ 0xFF →
      exec (.cardCharacterReceive n b true) s =
      .next (s.setCard n { c with repeats := 0, procSeen := true, since := s.now, swSeen := true, sw1 := b, phase := .sw2 })) ∧
    (c.busy = true → c.aborting = false → c.phase = .sw2 → c.endAfter = false → exec (.cardCharacterReceive n b true) s =
      .next (s.setCard n (Card.finish { c with repeats := 0, sw := w32 (c.sw1.toNat + b.toNat * 256 + c.got % 512 * 65536) } Cr.ok))) ∧
    (c.busy = true → c.aborting = false → c.phase = .data true → c.receives = true → exec (.cardCharacterReceive n b true) s =
      .next (s.setCard n { c with repeats := 0, data := Tbl.set 0 c.data (c.got % 256) b, got := c.got + 1, since := s.now, phase := .proc })) ∧
    (c.busy = true → c.phase = .proc → c.repeats < c.retries → exec (.cardCharacterReceive n b false) s =
      .next ((s.setCard n { c with repeats := c.repeats + 1, since := s.now }).emit (.cardError n))) ∧
    (c.busy = true → c.phase = .proc → c.retries ≤ c.repeats → exec (.cardCharacterReceive n b false) s =
      .next (s.setCard n (c.fail Cr.parity s.now))) ∧
    (c.busy = true → c.aborting = false → c.phase = .header → c.sent < 3 → exec (.cardCharacterSent n false) s =
      .next ((s.setCard n { c with sent := c.sent + 1, repeats := 0, since := s.now }).emit (.cardChar n (byte (bits32 c.hdr (8 * (c.sent + 1)) 8))))) ∧
    (c.busy = true → c.aborting = false → c.phase = .header → c.sent = 4 → exec (.cardCharacterSent n false) s =
      .next (s.setCard n { c with sent := 5, repeats := 0, phase := .proc, since := s.now })) ∧
    (c.busy = true → c.aborting = false → c.phase = .header → c.sent < 5 → c.retries ≤ c.repeats → exec (.cardCharacterSent n true) s =
      .next (s.setCard n (c.fail Cr.parity s.now))) ∧
    (c.phase = .vcc → c.since + 1000000 ≤ s.now → exec (.cardVccTimeout n) s = .next (s.setCard n (c.fail Cr.vccFault s.now))) ∧
    (c.phase = .atr → c.atr ≠ [] → c.since + 9600 * 372 * c.clkNs ≤ s.now → exec (.cardAtrTimeout n) s = .next (s.setCard n (c.noAtr Cr.noAtr s.now))) ∧
    (c.cls = 2 → c.noAtr Cr.noAtr s.now = c.fail Cr.noAtr s.now) ∧
    (c.phase = .offHold → c.present = true → c.since + 10000000 ≤ s.now → exec (.cardClassBRetry n) s = .next (s.cardPowerUp n { c with triedB := true } 2)) ∧
    (c.inTpdu = true → c.since + c.wtNs ≤ s.now → exec (.cardWaitingTimeExpiry n) s = .next (s.setCard n (c.fail Cr.timeout s.now))) ∧
    (c.state = .deactivating → c.next = 0 → exec (.cardDeactivationComplete n) s =
      .next ((s.emit (.cardPower n false 0)).setCard n { c with state := if c.present = true then .present else .empty, phase := .idle, busy := false, cls := 0, next := 0 }))

/-- Clock sources are judged and switched, and pins, timers and link power act. Outside reset: a crystal's start delay passes; a
missing reference of a die that runs on CLKREF moves it to a stable XTAL, else to watch mode; a frequency window far off judges as
the fields say; a die makes the switch that its selection demands and runs again at PLL lock on the new source; and a die on XTAL
returns to a stable CLKREF on CLKPWR_CMD.revert, or by itself after 100 ms where auto_revert is set. That a failure applies the
forced switch at once is the model's reading (log 23). GPIO_WRITE of a running cluster sets the outputs and their enables; an edge
at a pin sets its level and the bit of its direction; writing ones clears interrupt bits; a counter that stands at its compare
value, and the clock of time at its compare second, set their interrupts; and a change of a link's power state is taken, L0
releasing WAKE#. The offsets of the TIMER and RTC slots are the model's choice (log 22). -/
def Obligations.ClocksPinsTimersAndLinksAct : Prop :=
  (∀ (d : Die) (x : ClockDie) (p : Nat) (f : Fn) (s : State), s.clockDie d = x →
      (s.boot.inReset = false → x.xtalDelayed = false → x.xtalStart + 500000 * 2 ^ (s.boot.straps.toNat % 8) ≤ s.now → exec (.xtalStartDelayExpiry d) s =
        .next (s.setClockDie d { x with xtalDelayed := true })) ∧
      (s.boot.inReset = false → exec (.referenceMissing d .clkref) s = .next (s.refFailed d .clkref) ∧ exec (.referenceMissing d .xtal) s = .next (s.refFailed d .xtal)) ∧
      (d ≠ .curatorDie → x.source = .clkref → x.xtalOk = true →
        s.refFailed d .clkref = (s.setClockDie d { x with clkrefOk := false }).setClockDie d { x with clkrefOk := false, source := .switching .xtal }) ∧
      (d ≠ .curatorDie → x.source = .clkref → x.xtalOk = false →
        s.refFailed d .clkref = (s.setClockDie d { x with clkrefOk := false }).setClockDie d { x with clkrefOk := false, source := .watch }) ∧
      (∀ w : ClockWindow, s.boot.inReset = false → 30 ≤ w.watchMhz → w.watchMhz ≤ 70 → exec (.frequencyWindow d w) s =
        .next ((s.checkRef d .clkref w.clkrefPermille).checkRef d .xtal w.xtalPermille)) ∧
      (900 ≤ p → p ≤ 1100 → s.checkRef d .clkref p = s.setClockDie d (x.judge .clkref s.now)) ∧
      (∀ t b, s.boot.inReset = false → x.wanted = some (t, b) → exec (.clockSwitch d t b) s = .next (s.switchDie d t b)) ∧
      (x.source = .switching .clkref → x.clkrefOk = true → d ≠ .curatorDie → exec (.pllLock d p) s = .next (s.setClockDie d { x with source := .clkref })) ∧
      (x.source = .switching .xtal → x.xtalOk = true → d = .curatorDie → exec (.pllLock d p) s =
        .next (let t := s.setClockDie d { x with source := .xtal }
               { t with power := { t.power with lastSw := setField t.power.lastSw 16 16 (min p 65535) } })) ∧
      (Manages s f 0x15000C → exec (.clkpwrRevert f) s = .next (((s.revertDie .westDie).revertDie .eastDie).revertDie .curatorDie)) ∧
      (x.source = .xtal → x.clkrefOk = true → s.revertDie d = s.switchDie d .clkref false) ∧
      (s.boot.inReset = false → bit32 s.power.cfg 0 = true → x.clkrefSince + 100000000 ≤ s.now → exec (.autoRevert d) s = .next (s.revertDie d))) ∧
  (∀ (w : Wing) (k : Nat) (a b : BitVec 8) (v : Word32) (d : DocentWing) (l : LinkPower) (s : State), s.doc w = d →
      (s.docentUp w = true → exec (.gpioWrite w a b) s = .next (s.setDoc w { d with gpioOut := a, gpioOe := b })) ∧
      (k < 8 → s.boot.inReset = false → s.lowPower = false →
        exec (.gpioEdge w k true) s = .next (s.setDoc w { d with gpioIn := d.gpioIn ||| BitVec.ofNat 8 (2 ^ k), gpioIrq := d.gpioIrq ||| BitVec.ofNat 16 (2 ^ k) }) ∧
        exec (.gpioEdge w k false) s =
          .next (s.setDoc w { d with gpioIn := d.gpioIn &&& ~~~(BitVec.ofNat 8 (2 ^ k)), gpioIrq := d.gpioIrq ||| BitVec.ofNat 16 (2 ^ (8 + k)) })) ∧
      (s.docentUp w = true → exec (.gpioIrqClear w v) s = .next (s.setDoc w { d with gpioIrq := d.gpioIrq &&& ~~~(v.setWidth 16) })) ∧
      (k < 8 → s.boot.inReset = false → d.timerCount s.now = d.compares.getD k 0 → exec (.timerCompare w k) s =
        .next (s.setDoc w { d with timerIrq := d.timerIrq ||| BitVec.ofNat 8 (2 ^ k) })) ∧
      (s.boot.inReset = false → s.rtcSec = d.rtcCompare → exec (.rtcCompare w) s = .next (s.setDoc w { d with rtcIrq := true })) ∧
      (s.portAnswers w = true → s.lowPower = false → exec (.linkPowerStateChange w l) s =
        .next (s.setPort w { s.port w with linkPower := l, wake := (s.port w).wake && l != .l0 })))

/-- Power states, the governor, the thermal throttle, the clock of time and the supplies act. A quiet wing goes to IDLE after its
time; STANDBY is refused where R520 bars it, else drains, is refused after 100 ms if work remains and is entered once none does,
and an ACTIVE request wakes; an estimate above the cap takes one sixteenth from the lowest class and one below gives one back, and
CLKPWR_POWER holds the mean of the last hundred and the highest mean of ten; a temperature below 105 °C is kept and one at it enters THERMAL_HOLD; the throttle moves one step each millisecond; CLKPWR_CAP,
SWITCHES, RTC_SET and RTC_SLEW act; and a legal AVSBus write that is acknowledged moves the set point. That a governor step is one
sixteenth an estimate is the model's choice (log 23). -/
def Obligations.PowerStatesThrottlesAndTime : Prop :=
  ∀ (w : Wing) (f : Fn) (v : Word32) (k : Nat) (s : State),
    (s.boot.inReset = false → s.lowPower = false → s.wingBusy w = false → s.selfTesting w = false →
      s.quietSince w + 1000 * max 1 (bits32 s.power.cfg 8 8) ≤ s.now → exec (.wingIdleEntry w) s = .next (s.setIdle w true)) ∧
    (Reaches s f → isPf f = true → s.reportOnly f.port = false → s.recovery = false → s.mgmt f = true → (s.power.pstate = .active ∨ s.power.pstate = .idle) →
      (s.power.draining = none → s.standbyBarred = true → exec (.standbyRequest f) s = .next (s.setPstat 3 none)) ∧
      (s.power.draining = none → s.standbyBarred = false → exec (.standbyRequest f) s = .next (s.setPstat 1 (some s.now))) ∧
      (exec (.activeRequest f) s = .next (s.setPstat 0 none))) ∧
    (Reaches s f → isPf f = true → s.reportOnly f.port = false → s.recovery = false → s.mgmt f = true → s.power.pstate = .standby →
      exec (.activeRequest f) s = .next s.wake) ∧
    (Reaches s f → isPf f = true → s.reportOnly f.port = false → s.recovery = false → s.mgmt f = true → s.power.pstate = .thermalHold → 90 ≤ s.hottest →
      exec (.activeRequest f) s = .next (s.setPstat 4 none)) ∧
    (∀ t, s.power.draining = some t → t + 100000000 ≤ s.now → s.workInFlight = true → exec .standbyDrainTimeout s = .next (s.setPstat 2 none)) ∧
    (∀ t, s.power.draining = some t → s.boot.inReset = false → s.standbyBarred = false → s.workInFlight = false → exec .standbyEntry s = .next s.enterStandby) ∧
    (s.boot.inReset = false → s.capLimit < k → s.power.capShare = [16, 16, 16] → exec (.powerEstimate k) s =
      .next { s with power := { s.power.estimated k with capShare := [16, 16, 15], capUnmet := false } }) ∧
    (s.boot.inReset = false → k ≤ s.capLimit → s.power.capShare = [16, 16, 15] → exec (.powerEstimate k) s =
      .next { s with power := { s.power.estimated k with capShare := [16, 16, 16], capUnmet := false } }) ∧
    (∀ l, l = (k :: s.power.estimates).take 100 → s.power.estimated k = { s.power with
      estimates := l, power := sat 65535 (l.sum / l.length), powerHigh := max s.power.powerHigh (sat 65535 ((l.take 10).sum / (l.take 10).length)) }) ∧
    (∀ a b c u, s.boot.inReset = false → u = { s with power := { s.power with tempW := a, tempE := b, tempC := c } } →
      (a < 105 → b < 105 → c < 105 → exec (.thermalSample a b c) s = .next u) ∧
      ((105 ≤ a ∨ 105 ≤ b ∨ 105 ≤ c) → s.power.pstate ≠ .thermalHold → exec (.thermalSample a b c) s = .next u.enterThermalHold)) ∧
    (s.boot.inReset = false → s.power.thermalAt + 1000000 ≤ s.now →
      (95 ≤ max s.power.tempW s.power.tempE → exec .thermalThrottleStep s =
        .next { s with power := { s.power with thermal := min 48 (s.power.thermal + 1), thermalAt := s.now } }) ∧
      (max s.power.tempW s.power.tempE ≤ 92 → exec .thermalThrottleStep s =
        .next { s with power := { s.power with thermal := s.power.thermal - 1, thermalAt := s.now } })) ∧
    (Manages s f 0x150008 → exec (.clkpwrCapWrite f v) s = .next { s with power := { s.power with cap := v &&& 0x000000FF } }) ∧
    (ReadsPf s f 0x150024 → exec (.clkpwrSwitchesRead f) s =
      .next (let t := s.emit (.readValue f 0x150024 (s.readClkpwr 0x024))
             { t with power := { t.power with forced := 0, planned := 0, watchEntries := 0, gateRefusals := 0 } })) ∧
    (Manages s f 0x150034 → s.rtcSettable = true → exec (.clkpwrRtcSet f v) s =
      .next (let t := s.setRtc (32768 * v.toNat)
             { t with power := { t.power with rtcValid := true, lastSlew := none } })) ∧
    (Manages s f 0x150034 → s.rtcSettable = false → exec (.clkpwrRtcSet f v) s = .next (s.regError f St.accessDenied 0x150034)) ∧
    (∀ m, m = signed (bits32 v 0 12) 12 → Manages s f 0x150038 → s.power.lastSlew = none →
      (-1000 ≤ m → m ≤ 1000 → exec (.clkpwrRtcSlew f v) s =
        .next (let t := s.setRtc ((s.rtc : Int) + m * 32768 / 1000).toNat
               { t with power := { t.power with lastSlew := some t.rtcSec } })) ∧
      ((m < -1000 ∨ 1000 < m) → exec (.clkpwrRtcSlew f v) s = .next (s.regError f St.accessDenied 0x150038))) ∧
    (s.boot.inReset = false → s.avsHeld w = false → 700 ≤ k → k ≤ 850 → k ≤ s.avsSetPoint w + 10 → s.avsSetPoint w ≤ k + 10 → s.avsTime w + 50000 ≤ s.now →
      exec (.avsVoltageWrite w k .acknowledged) s = .next ((s.emit (.avs w k)).setAvs w k false))

/-- Disabling the admin queue discards the commands not begun and the record of the one in progress. A write that clears
ADMQ_CTRL.enable empties the rings, so that no command that has not begun is ever fetched or recorded, and marks the record of the
command in progress; that command still completes its effect; and its record, once marked, is not written. R84. -/
def Obligations.DisablingDiscardsTheAdminRecord : Prop :=
  ∀ (f : Fn) (o n : Nat) (u : List (Nat × Nat)) (e : List Byte) (k : List Byte → State → AdmEnd) (i : AdmFrom) (g : Word32) (st : Byte) (r : Word64) (s : State),
    (Writes s f 0x20000 → (s.fn f).admEnable = true → exec (.admqDisable f) s =
      .next ((s.dropHeld f fun h => h.q == .admin).modFn f fun x => { x with admEnable := false, admQ := {}, admDiscard := x.admCur.isSome })) ∧
    (AdminRuns s f o i u e → s.admin f o i u k = match k e s with
      | .record a b c t => t.admRecord f (w32 (leAt e 0 4)) a b c
      | .later t => t) ∧
    ((s.fn f).admDiscard = true → s.admRecord f g st r n = (s.setFn f { s.fn f with admCur := none, admDiscard := false }).fetchHead f .admin) ∧
    ((s.fn f).admQ = {} → s.fetchHead f .admin = s)

/-- An access unit captures only its first violation until it is armed again. While valid is 0 a violation latches AU_VINFO with valid
1 and AU_VADDR, is counted, and enters one event-log record; while it is 1 a violation is only counted; writing 1 to valid, in the
unit or through the EVLOG mirror, clears valid; and the mirror shows what the unit holds. R491. -/
def Obligations.ViolationsAreCapturedOnce : Prop :=
  ∀ (w : Wing) (m k o i a n : Nat) (user : Bool) (x : AccessUnit) (f : Fn) (v : Word32) (s : State), s.au w m = x →
    (bit32 x.vinfo 0 = false → s.violation w m k o user i a =
      (s.setAu w m { x with vcount := min (x.vcount + 1) (2 ^ 32 - 1), vinfo := w32 (1 + k * 2 + o * 16 + b2n user * 64 + i * 128), vaddr := a % 2 ^ 40 }).log
        7 St.accessDenied (dieSrc (wingDie w)) (leBytes 4 (w32 (1 + k * 2 + o * 16 + b2n user * 64 + i * 128)).toNat ++ leBytes 8 (a % 2 ^ 40) ++
          [byte (10 * wingIdx w + m)])) ∧
    bit32 (w32 (1 + k * 2 + o * 16 + b2n user * 64 + i * 128)) 0 = true ∧
    (bit32 x.vinfo 0 = true → s.violation w m k o user i a = s.setAu w m { x with vcount := min (x.vcount + 1) (2 ^ 32 - 1) }) ∧
    (m ≤ 8 → s.docentUp w = true → bit32 v 0 = true → exec (.auVinfoClear w m v) s = .next (s.setAu w m { x with vinfo := x.vinfo &&& 0xFFFFFFFE })) ∧
    bit32 (x.vinfo &&& 0xFFFFFFFE) 0 = false ∧
    (∀ y, n < 10 → y = s.au .west n → s.readEvlog (0x100 + 16 * n) = y.vinfo ∧
      (Manages s f (0x120100 + 16 * n) → bit32 v 0 = true → exec (.evlogVinfoClear f n v) s = .next (s.setAu .west n { y with vinfo := y.vinfo &&& 0xFFFFFFFE }))) ∧
    (∀ y, n < 10 → y = s.au .east n → s.readEvlog (0x100 + 16 * (10 + n)) = y.vinfo ∧
      (Manages s f (0x120100 + 16 * (10 + n)) → bit32 v 0 = true →
        exec (.evlogVinfoClear f (10 + n) v) s = .next (s.setAu .east n { y with vinfo := y.vinfo &&& 0xFFFFFFFE })))

/-- ERASE freezes first, erases at once, and needs the role and in OWNED the quorum or host_erase. From a sender that is heard and
holds the role: outside OWNED, or under an order that sets host_erase, ERASE freezes the device, carries out R434 up to its last
step and replies OK; in OWNED otherwise it needs the authorisation of action 0x22, and without it replies QUORUM_REQUIRED; a
sender without the role is answered ACCESS_DENIED; and when the reply is written step 4 has still to begin. R435. -/
def Obligations.EraseNeedsItsAuthority : Prop :=
  ∀ (m : Sender) (ps p : List Byte) (s : State), p = (s.mailbox m).params ps →
    (Heard s m 0x22 0 → (s.tamper.order.hostErase = true ∨ s.boot.lifecycle ≠ .owned) → exec (.erase m ps) s =
      .next (((s.freeze .curatorDie).eraseKeys).replyTo m St.ok 0 [])) ∧
    (Heard s m 0x22 0 → s.tamper.order.hostErase = false → s.boot.lifecycle = .owned →
      s.authValid s.boot.custodians s.boot.threshold 0x22 (p.take 0) (p.drop (up8 0)) = true → exec (.erase m ps) s =
      .next ((((s.freeze .curatorDie).eraseKeys).useNonce (p.drop (up8 0))).replyTo m St.ok 0 [])) ∧
    (Heard s m 0x22 0 → s.tamper.order.hostErase = false → s.boot.lifecycle = .owned →
      s.authValid s.boot.custodians s.boot.threshold 0x22 (p.take 0) (p.drop (up8 0)) = false → exec (.erase m ps) s =
      .next (s.replyTo m St.quorumRequired 0 [])) ∧
    ((s.mailbox m).busy = true → bits32 (s.mailbox m).msg 0 8 = 0x22 → s.boot.inReset = false → s.cont.vote ≠ .lost → s.halted (senderWing m) = false →
      s.reaches (senderWing m) = true → s.senderMgmt m = false → exec (.erase m ps) s = .next (s.replyTo m St.accessDenied 0 [])) ∧
    ((s.freeze .curatorDie).tamper.frozen = true ∧ s.eraseKeys.tamper.erasing = true ∧ s.eraseKeys.tamper.erased = true ∧ s.eraseKeys.boot.ssk = none) ∧
    (s.eraseKeys.ledger = s.ledger ∧ s.eraseKeys.journal = s.journal ∧ s.eraseKeys.boot.wrapA = s.boot.wrapA ∧ s.eraseKeys.boot.wrapB = s.boot.wrapB)

/-- After reset the registers read as their tables give. At reset LEDGER_CFG, LEDGER_LOW, ENTROPY_CFG, STORE_CFG, CONS_CFG, CFGTX_CFG,
CLKPWR_CFG, CLKPWR_THROTTLE, the TAMPER action and filter words, GALSTAT_WEIGHTS, GALSTAT_C0SHARE, GALSTAT_BNSLOT, the cluster
words, ADMQ_DEPTH, CARD_CTRL and GPIO_PULL hold the reset values of their tables, no queue exists, the log is empty and no command
waits. -/
def Obligations.ResetLeavesTheRegistersTheSpecGives : Prop :=
  State.reset.readLedger 0x000 = 0x00320008 ∧ State.reset.readLedger 0x004 = 0x0000000A ∧ State.reset.readEntropy 0x000 = 0x00180014 ∧
  State.reset.readStore 0x004 = 0x00002418 ∧ State.reset.readCons 0x004 = 0x003C3C08 ∧ State.reset.readCfgtx 0x01C = 0x000A000A ∧
  State.reset.readClkpwr 0x004 = 0x00000A00 ∧ State.reset.readClkpwr 0x020 = 0x00101010 ∧
  State.reset.readTamper 0x010 = 0x00000400 ∧ State.reset.readTamper 0x014 = 0x00000400 ∧ State.reset.readTamper 0x018 = 0x00000400 ∧
  State.reset.readTamper 0x020 = 0x22222222 ∧ State.reset.readGalstat 0x840 = 0x00010410 ∧
  (∀ g, g < 16 → State.reset.readGalstat (0x800 + 4 * g) = 2 ∧ State.reset.readGalstat (0x880 + 4 * g) = 1) ∧
  State.reset.readGalstat 0x040 = 0x00000050 ∧ State.reset.readGalstat 0x044 = 0x00000050 ∧
  (∀ f, (State.reset.fn f).admDepth = 0x40 ∧ (State.reset.fn f).cause = 0 ∧ (State.reset.fn f).queues = []) ∧
  State.reset.card0.ctrl = 0x00042190 ∧ State.reset.card1.ctrl = 0x00042190 ∧ State.reset.docW.gpioPull = 0xFF ∧ State.reset.docE.gpioPull = 0xFF ∧
  State.reset.evlog.newest = 0 ∧ State.reset.pending = []

/-- A card command changes its own slot and nothing else of the part. Each of the eighteen card commands, wherever it answers, leaves
everything but the two card slots and what is sent out as it was, leaves the other slot as it was, and all but a received
character leave the slot's data buffer; on a slot that does not exist nothing changes at all. -/
def Obligations.CardCommandsTouchOnlyTheirSlot : Prop :=
  ∀ (n : Nat) (b : Byte) (p : Bool) (v : Word32) (s t : State) (i : Instr),
    i ∈ [Instr.cardInsertion n, .cardRemoval n, .cardActivate n, .cardDeactivate n, .cardWarmReset n, .cardStart n, .cardClkStop n, .cardWake n, .cardAbort n,
      .cardCharacterReceive n b p, .cardCharacterSent n p, .cardVccTimeout n, .cardAtrTimeout n, .cardClassBRetry n, .cardWaitingTimeExpiry n,
      .cardDeactivationComplete n, .cardResultRead n, .cardIrqClear n v] →
    exec i s = .next t →
      t = { s with card0 := t.card0, card1 := t.card1, outbox := t.outbox } ∧ (n = 0 → t.card1 = s.card1) ∧ (n = 1 → t.card0 = s.card0) ∧ (2 ≤ n → t = s) ∧
      (i ≠ .cardCharacterReceive n b p → ∀ k, (t.card k).data = (s.card k).data)

/-- A command of one block leaves every other block as it was. Wherever they answer: the pin, timer and Docent register commands
change only the wing's Docents and none of their memories; clock, power and thermal steps change only the power block; generators'
expiries change only the entropy chain; a root update and a node written back change only the Storeroom; nonce and authorisation
expiries change only the boot block and not the flash; a measurement of VBAT, where it does not lose BBRAM, and a standing order taking effect change only the
tamper block; and error decay and the retraining of a link that has its key change only the Conservator, where a link without one may
also draw its key from the Curator's generator. -/
def Obligations.OneBlockCommandsTouchOnlyTheirBlock : Prop :=
  ∀ (w : Wing) (d : Die) (k m : Nat) (a b : BitVec 8) (v : Word32) (r : Drbg) (g : MaskGen) (u : UnitId) (l : Link) (s t : State) (i : Instr), exec i s = .next t →
    (i ∈ [Instr.gpioWrite w a b, .gpioEdge w k true, .gpioEdge w k false, .gpioIrqClear w v, .timerCompare w k, .rtcCompare w, .auVinfoClear w k v] →
      t = { s with docW := t.docW, docE := t.docE } ∧ t.doc (otherWing w) = s.doc (otherWing w) ∧ (t.doc w).local_ = (s.doc w).local_ ∧
        (t.doc w).shared = (s.doc w).shared) ∧
    (i ∈ [Instr.xtalStartDelayExpiry d, .pllLock d k, .autoRevert d, .powerEstimate k, .thermalThrottleStep, .standbyDrainTimeout] →
      t = { s with power := t.power }) ∧
    (i ∈ [Instr.drbgIntervalExpiry r, .maskingGeneratorStop g] → t = { s with entropy := t.entropy }) ∧
    (i ∈ [Instr.nodeWriteback w k m, .rootUpdate w k] → t = { s with store := t.store }) ∧
    (i ∈ [Instr.nonceExpiry k, .quorumAuthorisationExpiry k] → t = { s with boot := t.boot } ∧ t.boot.flash = s.boot.flash) ∧
    (i = .standingOrderEffective k ∨ (i = .vbatMeasurement k ∧ (s.boot.inReset = false ∨ 2000 ≤ k % 4096)) → t = { s with tamper := t.tamper }) ∧
    (i = .errorCountDecay u ∨ (i = .linkRetrain l ∧ (s.link l).key ≠ none) → t = { s with cont := t.cont }) ∧
    (i = .linkRetrain l → t = { s with cont := t.cont, entropy := t.entropy })
end

