-- ==== Sys2Proof/Laws/Bbram.lean ====
section
/-! SUPPORT. The SSK region of the BBRAM that the model shows is valid exactly where the state holds an SSK (R426, R427). -/

namespace Sys2Proof.Machine

theorem leBytes_length (n v : Nat) : (leBytes n v).length = n := by
  induction n generalizing v with
  | zero => rfl
  | succ n ih => simp [leBytes, ih]

theorem prim_length (p : Config.Prim) (l : List (List Byte)) (n : Nat) : (Config.prim p l n).length = n := by simp [Config.prim]

/-- What a region holds before its CRC. -/
def regionBody (size : Nat) (b : List Byte) : List Byte := padTo (size - 4) b

theorem regionBody_length {size : Nat} {b : List Byte} (h : b.length ≤ size - 4) : (regionBody size b).length = size - 4 := by
  unfold regionBody padTo zeros
  rw [List.length_append, List.length_take, List.length_replicate]
  omega

theorem slice_left {α : Type} (a b : List α) (n k : Nat) (h : n + k ≤ a.length) : slice (a ++ b) n k = slice a n k := by
  unfold slice
  rw [List.drop_append_of_le_length (by omega), List.take_append_of_le_length (by rw [List.length_drop]; omega)]

theorem slice_right {α : Type} (a b : List α) (k : Nat) : slice (a ++ b) a.length k = b.take k := by
  unfold slice
  rw [List.drop_left]

/-- The SSK region of the shown BBRAM passes the check of boot ROM exactly where the state holds an SSK. -/
theorem bbram_sskValid (s : State) : sskValid s.bbram = s.boot.ssk.isSome := by
  unfold State.bbram
  dsimp only
  generalize zeros 0x780 = z
  cases s.boot.ssk with
  | none =>
    dsimp only
    unfold sskValid
    rw [List.append_assoc, List.append_assoc, List.append_assoc, slice_left _ _ 32 4 (by decide)]
    have : (slice (zeros 64) 32 4 == sskMarker) = false := by decide
    rw [this]
    rfl
  | some k =>
    dsimp only
    have hl : (leBytes 32 k ++ sskMarker).length = 36 := by rw [List.length_append, leBytes_length]; rfl
    have hb : (regionBody 0x40 (leBytes 32 k ++ sskMarker)).length = 60 := regionBody_length (by omega)
    have hr : bbramRegion 0x40 (leBytes 32 k ++ sskMarker) =
        regionBody 0x40 (leBytes 32 k ++ sskMarker) ++ Config.prim .crc32 [regionBody 0x40 (leBytes 32 k ++ sskMarker)] 4 := rfl
    have hm : slice (regionBody 0x40 (leBytes 32 k ++ sskMarker)) 32 4 = sskMarker := by
      unfold regionBody padTo
      rw [List.take_of_length_le (by omega), slice_left _ _ 32 4 (by omega)]
      have h32 : (leBytes 32 k).length = 32 := leBytes_length 32 k
      rw [show slice (leBytes 32 k ++ sskMarker) 32 4 = slice (leBytes 32 k ++ sskMarker) (leBytes 32 k).length 4 by rw [h32], slice_right]
      rfl
    unfold sskValid
    rw [hr]
    generalize hB : regionBody 0x40 (leBytes 32 k ++ sskMarker) = B at hb hm ⊢
    rw [List.append_assoc, List.append_assoc, List.append_assoc, List.append_assoc, slice_left B _ 32 4 (by omega), hm,
      List.take_append_of_le_length (by omega), List.take_of_length_le (by omega)]
    have hc : slice (B ++ (Config.prim .crc32 [B] 4 ++ (bbramRegion 64 (leBytes 4 s.tamper.armed.actSb.toNat ++
        leBytes 4 s.tamper.armed.actOff.toNat ++ [byte s.tamper.armed.polarity.toNat, 0, 0, 0] ++ leBytes 4 s.tamper.armed.filter.toNat ++
        leBytes 4 s.tamper.armed.seq.toNat) ++ (z ++ (bbramRegion 32 ([byte s.tamper.ringPos] ++ leBytes 4 s.tamper.evSeq ++
        leBytes 4 s.tamper.freezes) ++ List.flatMap (fun p => s.tamper.ring.getD ((s.tamper.ringPos + 62 - p) % 63) (zeros 32))
        (List.range 63)))))) 60 4 = Config.prim .crc32 [B] 4 := by
      rw [show (60 : Nat) = B.length by omega, slice_right, List.take_append_of_le_length (by rw [prim_length]),
        List.take_of_length_le (by rw [prim_length])]
    rw [hc]
    simp

end Sys2Proof.Machine
end

