-- ==== Sys2Proof/Laws/Commands.lean ====
section
/-! SUPPORT. What the common rules of a kind of command answer once they let it through: one lemma per kind. -/

set_option linter.all false

namespace Sys2Proof.Machine

theorem State.access_of {s : State} {f : Fn} (h : Reaches s f) (k : State → State) : s.access f k = k s := by
  have hv := h.vf
  simp [State.access, h.fn, h.port, h.ide]
  intro h1 h2
  simp [h1, h2] at hv

theorem State.write_of {s : State} {f : Fn} {off : Nat} (h : Writes s f off) (k : State → State) : s.write f off k = k s := by
  simp [State.write, State.access_of h.toReaches, h.block]

theorem State.mgmtWrite_of {s : State} {f : Fn} {off : Nat} (h : Manages s f off) (k : State → State) : s.mgmtWrite f off k = k s := by
  simp only [State.mgmtWrite, State.write_of h.toWrites, h.pf, h.role, h.path, Bool.not_true, Bool.or_self, Bool.false_eq_true, if_false]

theorem State.sideRead_of {s : State} {f : Fn} {off : Nat} (h : Reads s f off) (v : Word32) (k : State → State) :
    s.sideRead f off v k = k (s.emit (.readValue f off v)) := by
  simp [State.sideRead, State.access_of h.toReaches, h.block]

theorem State.clearRead_of {s : State} {f : Fn} {off : Nat} (h : ReadsPf s f off) (v : Word32) (k : State → State) :
    s.clearRead f off v k = k (s.emit (.readValue f off v)) := by
  simp [State.clearRead, State.sideRead_of h.toReads, h.pf]

theorem State.admin_of {s : State} {f : Fn} {o : Nat} {from_ : AdmFrom} {used : List (Nat × Nat)} {e : List Byte}
    (h : AdminRuns s f o from_ used e) (k : List Byte → State → AdmEnd) :
    s.admin f o from_ used k = match k e s with
      | .record st result len t => t.admRecord f (w32 (leAt e 0 4)) st result len
      | .later t => t := by
  simp only [State.admin, h.cur, h.op, h.up, h.rules, h.open_]
  cases k e s <;> simp

/-- A message that is heard meets none of the refusals that R415, R403 and R438 give whatever its parameters. -/
theorem State.messageRefusal_of {s : State} {m : Sender} {c n : Nat} (h : Heard s m c n) : s.messageRefusal m c = none := by
  have h4 := h.role
  have h5 := h.recovery
  have h6 := h.hold
  have h7 := h.frozen
  unfold State.messageRefusal
  rw [if_neg (by simp [h.running]), if_neg (by rcases h4 with h | h | h <;> simp only [h] <;> simp),
    if_neg (by cases hr : s.recovery <;> simp_all), if_neg (by cases hr : s.tamper.hold <;> simp_all),
    if_neg (by cases hr : s.tamper.frozen <;> simp_all)]

theorem State.curatorHears_of {s : State} {m : Sender} {c n : Nat} (h : Heard s m c n) : s.curatorHears m = true := by
  unfold State.curatorHears
  rcases h.path with h | h | h <;> simp [h]

theorem State.message_of {s : State} {m : Sender} {c n : Nat} (h : Heard s m c n) (params : List Byte) (f : List Byte → State → Answer) :
    s.message m c n params f =
      let r := f ((s.mailbox m).params params) s
      r.2.2.replyTo m r.1 (if r.1 == St.ok then r.2.1.length else 0) (if r.1 == St.ok then r.2.1 else []) := by
  have h1 := h.params
  have h2 := h.reply
  have h8 := h.vote
  unfold State.message
  simp only [h.busy, h.code, h.up, State.curatorHears_of h]
  have e1 : (s.cont.vote == VoteMode.lost) = false := by simpa using h8
  rw [if_neg (by simp [e1]), State.messageRefusal_of h]
  dsimp only
  rw [if_neg (by omega), if_neg (by omega)]

theorem State.runIns_of {s : State} {n o : Nat} {j : Job} (h : StandsAt s n o j) (f : Job → State → State) :
    s.runIns n o f = f j.counted (s.putJob n j.counted) := by
  have h1 := h.inside
  have h2 := h.budget
  have e1 : ¬ j.pc ≥ j.prog.length := by omega
  have e2 : ¬ j.executed ≥ 4096 := by omega
  have e3 : (j.phase != JobPhase.ready) = false := by simp [h.ready]
  unfold State.runIns
  rw [h.job]
  dsimp only
  rw [if_neg (by simp [h.thawed, h.runs, h.held, h.op, e3]; omega)]
  split
  · rename_i hg
    rw [h.goes] at hg
    cases hg
  · exact if_pos h.cond

theorem State.beginFn_of {s : State} {n c : Nat} {j : Job} {x : FnSpec} (h : Begins s n c j x) :
    s.beginFn c n = ((s.begun n j).beginExec n (s.begunJob n j) x).advanceExec n := by
  unfold State.beginFn
  rw [h.stands.job]
  dsimp only
  rw [if_neg (by simp [h.code]), State.runIns_of h.stands]
  have hg : (s.begunJob n j).gallery = j.gallery := by
    unfold State.begunJob State.copyCurve
    dsimp only
    split
    · rfl
    · split <;> rfl
  have hw : (s.begunJob n j).wing = j.wing := by
    unfold State.begunJob State.copyCurve
    dsimp only
    split
    · rfl
    · split <;> rfl
  have hl := h.loans
  have hk := h.keyed
  have hu := h.units
  have hp := h.path
  have hi : j.counted.ins = j.ins := rfl
  have hc : j.counted.gallery = j.gallery := rfl
  simp only [hi, hc]
  show (if _ then _ else _) = _
  rw [if_neg (by
    intro hh
    simp only [Bool.and_eq_true, beq_iff_eq, Bool.not_eq_true'] at hh
    have h1 := hp hh.1
    have h2 : (s.begun n j).hasCurator (galleryWing (s.begunJob n j).gallery) = false := hh.2
    rw [hg, h1] at h2
    cases h2)]
  rw [if_neg (by
    intro hh
    have h2 : (((s.begun n j).execLoans (s.begunJob n j) (execFields j.ins)).length != (loanRegs (execFields j.ins)).length) = true := hh
    rw [hl] at h2
    simp at h2)]
  have hs : ((s.putJob n j.counted).putJob n ((s.putJob n j.counted).copyCurve j.counted)).specNow
      ((s.putJob n j.counted).copyCurve j.counted) = some x := h.spec
  rw [hs]
  dsimp only
  rw [if_neg (by
    intro hh
    have h2 : barsTemplate x (outputBufs (s.begunJob n j) (execFields j.ins) x) = true := hh
    rw [h.outs] at h2
    cases h2)]
  rw [if_neg (by
    intro hh
    have h2 : (loanStep ((s.begun n j).view (s.begunJob n j)) ((s.begun n j).execLoans (s.begunJob n j) (execFields j.ins)) x.loans !=
      St.ok) = true := hh
    rw [h.loan] at h2
    exact absurd h2 (by decide))]
  rw [if_neg (by
    intro hh
    have h2 : (inputBufs (s.begunJob n j) (execFields j.ins) x ++ outputBufs (s.begunJob n j) (execFields j.ins) x).any (·.isNone) = true := hh
    rw [h.bufs] at h2
    cases h2)]
  rw [if_neg (by
    intro hh
    have h2 : (bufferStep (s.begunJob n j) x ((inputBufs (s.begunJob n j) (execFields j.ins) x).filterMap id)
      ((outputBufs (s.begunJob n j) (execFields j.ins) x).filterMap id) != St.ok) = true := hh
    rw [h.buffers] at h2
    exact absurd h2 (by decide))]
  rw [if_neg (by
    have h1 : (match x.prefers with
        | some k => !(s.begunJob n j).readsSecret x || (s.begun n j).keyed (s.begunJob n j).gallery k
        | none => true) = true := by
      split
      · rename_i k hk'
        cases hr : (s.begunJob n j).readsSecret x
        · rfl
        · rw [hg, hk k hk' hr]; rfl
      · rfl
    intro hh
    have h2 : (!(match x.prefers with
        | some k => !(s.begunJob n j).readsSecret x || (s.begun n j).keyed (s.begunJob n j).gallery k
        | none => true) || !((s.begunJob n j).need x).all ((s.begun n j).inService (s.begunJob n j).wing (s.begunJob n j).gallery)) = true := hh
    have h3 : ((s.begunJob n j).need x).all ((s.begun n j).inService (s.begunJob n j).wing (s.begunJob n j).gallery) = true := by
      rw [hg, hw]; exact hu
    rw [h1, h3] at h2
    cases h2)]
  rfl

end Sys2Proof.Machine
end

