-- ==== Sys2Proof/Laws/Frame.lean ====
section
/-! SUPPORT. What the C0 marks of R107 leave alone: a running job's flags and the arrival marks of waiting entries change, and
nothing that holds keys, leaves, seals or the tamper state does. -/

open Host

namespace Sys2Proof.Machine

/-- What no act of a loop changes, the loop does not change. -/
theorem State.forAll_same {α β : Type} (get : State → β) {f : State → α → State} (hf : ∀ s x, get (f s x) = get s) (l : List α) (s : State) :
    get (s.forAll l f) = get s := by
  unfold State.forAll
  induction l generalizing s with
  | nil => rfl
  | cons a l ih => exact (ih _).trans (hf s a)

/-- Spoiling the arrival marks of a wing's queues changes host queues and Docent queues only. -/
theorem State.spoilQueues_same {β : Type} (get : State → β) (hq : ∀ s f q x, get (State.setQueue s f q x) = get s)
    (hd : ∀ s w c q x, get (State.setDocQueue s w c q x) = get s) (s : State) (w : Wing) : get (s.spoilQueues w) = get s := by
  unfold State.spoilQueues
  refine (State.forAll_same get (fun s p => hd _ _ _ _ _) _ _).trans ?_
  exact State.forAll_same get (fun s p => State.forAll_same get (fun s q => hq _ _ _ _) _ _) _ _

/-- Marking the C0 jobs whose bound no longer holds changes jobs, host queues and Docent queues only. -/
theorem State.markC0_same {β : Type} (get : State → β) (hj : ∀ s j x, get (State.putJob s j x) = get s)
    (hq : ∀ s f q x, get (State.setQueue s f q x) = get s) (hd : ∀ s w c q x, get (State.setDocQueue s w c q x) = get s) (s : State) :
    get s.markC0 = get s := by
  unfold State.markC0
  refine (State.forAll_same get (fun s w => ?_) _ _).trans (State.forAll_same get (fun s p => ?_) _ _)
  · split
    · exact State.spoilQueues_same get hq hd s w
    · rfl
  · split
    · exact hj _ _ _
    · rfl

/-- The C0 marks leave the boot block, the ledger, the journal, the catalogue, the Storeroom and the tamper state as they were. -/
theorem State.markC0_keyState (s : State) :
    s.markC0.boot = s.boot ∧ s.markC0.ledger = s.ledger ∧ s.markC0.journal = s.journal ∧ s.markC0.cat = s.cat ∧ s.markC0.store = s.store ∧
      s.markC0.tamper = s.tamper := by
  have q : ∀ s f q x, (State.setQueue s f q x).boot = s.boot ∧ (State.setQueue s f q x).ledger = s.ledger ∧ (State.setQueue s f q x).journal = s.journal ∧
      (State.setQueue s f q x).cat = s.cat ∧ (State.setQueue s f q x).store = s.store ∧ (State.setQueue s f q x).tamper = s.tamper := by
    intro s f q x; cases q <;> exact ⟨rfl, rfl, rfl, rfl, rfl, rfl⟩
  have d : ∀ s w c q x, (State.setDocQueue s w c q x).boot = s.boot ∧ (State.setDocQueue s w c q x).ledger = s.ledger ∧
      (State.setDocQueue s w c q x).journal = s.journal ∧ (State.setDocQueue s w c q x).cat = s.cat ∧ (State.setDocQueue s w c q x).store = s.store ∧
      (State.setDocQueue s w c q x).tamper = s.tamper := by
    intro s w c q x; cases w <;> exact ⟨rfl, rfl, rfl, rfl, rfl, rfl⟩
  exact ⟨State.markC0_same State.boot (fun _ _ _ => rfl) (fun _ _ _ _ => (q _ _ _ _).1) (fun _ _ _ _ _ => (d _ _ _ _ _).1) s,
    State.markC0_same State.ledger (fun _ _ _ => rfl) (fun _ _ _ _ => (q _ _ _ _).2.1) (fun _ _ _ _ _ => (d _ _ _ _ _).2.1) s,
    State.markC0_same State.journal (fun _ _ _ => rfl) (fun _ _ _ _ => (q _ _ _ _).2.2.1) (fun _ _ _ _ _ => (d _ _ _ _ _).2.2.1) s,
    State.markC0_same State.cat (fun _ _ _ => rfl) (fun _ _ _ _ => (q _ _ _ _).2.2.2.1) (fun _ _ _ _ _ => (d _ _ _ _ _).2.2.2.1) s,
    State.markC0_same State.store (fun _ _ _ => rfl) (fun _ _ _ _ => (q _ _ _ _).2.2.2.2.1) (fun _ _ _ _ _ => (d _ _ _ _ _).2.2.2.2.1) s,
    State.markC0_same State.tamper (fun _ _ _ => rfl) (fun _ _ _ _ => (q _ _ _ _).2.2.2.2.2) (fun _ _ _ _ _ => (d _ _ _ _ _).2.2.2.2.2) s⟩

end Sys2Proof.Machine
end

