-- ==== Sys2Proof/Laws/Table.lean ====
section
/-! SUPPORT. Sparse tables: reading after writing, and the canonical form. -/

namespace Sys2Proof.Machine

theorem Tbl.wfFrom_mono {α : Type} [DecidableEq α] {d : α} {t : Tbl α} {lo k : Nat} (h : Tbl.wfFrom d (some k) t = true) (hk : lo ≤ k) :
    Tbl.wfFrom d (some lo) t = true := by
  cases t with
  | nil => rfl
  | cons p r =>
    obtain ⟨a, v⟩ := p
    simp only [Tbl.wfFrom, Bool.and_eq_true, decide_eq_true_eq] at h ⊢
    exact ⟨⟨by omega, h.1.2⟩, h.2⟩

theorem Tbl.wfFrom_none {α : Type} [DecidableEq α] {d : α} {t : Tbl α} {k : Nat} (h : Tbl.wfFrom d (some k) t = true) :
    Tbl.wfFrom d none t = true := by
  cases t with
  | nil => rfl
  | cons p r =>
    obtain ⟨a, v⟩ := p
    simp only [Tbl.wfFrom, Bool.and_eq_true, decide_eq_true_eq] at h ⊢
    exact ⟨⟨trivial, h.1.2⟩, h.2⟩

theorem Tbl.set_wfFrom {α : Type} [DecidableEq α] {d v : α} {k lo : Nat} {t : Tbl α} (h : Tbl.wfFrom d (some lo) t = true) (hk : lo < k) :
    Tbl.wfFrom d (some lo) (t.set d k v) = true := by
  induction t generalizing lo with
  | nil => by_cases hv : v = d <;> simp [Tbl.set, Tbl.wfFrom, hv, hk]
  | cons p r ih =>
    obtain ⟨a, u⟩ := p
    simp only [Tbl.wfFrom, Bool.and_eq_true, decide_eq_true_eq] at h
    simp only [Tbl.set]
    split
    · split
      · simp [Tbl.wfFrom, h]
      · rename_i h1 h2
        simp [Tbl.wfFrom, h, h1, h2, hk]
    · split
      · rename_i h1 h2
        subst h2
        split
        · exact Tbl.wfFrom_mono h.2 (by omega)
        · rename_i h3
          simp [Tbl.wfFrom, h, h3]
      · rename_i h1 h2
        simp only [Tbl.wfFrom, Bool.and_eq_true, decide_eq_true_eq]
        exact ⟨⟨h.1.1, h.1.2⟩, ih h.2 (by omega)⟩

/-- A write keeps the canonical form. -/
theorem Tbl.set_wf {α : Type} [DecidableEq α] {d v : α} {k : Nat} {t : Tbl α} (h : Tbl.wf d t = true) : Tbl.wf d (t.set d k v) = true := by
  unfold Tbl.wf at h ⊢
  cases t with
  | nil => by_cases hv : v = d <;> simp [Tbl.set, Tbl.wfFrom, hv]
  | cons p r =>
    obtain ⟨a, u⟩ := p
    simp only [Tbl.wfFrom, Bool.and_eq_true, decide_eq_true_eq] at h
    simp only [Tbl.set]
    split
    · split
      · simp [Tbl.wfFrom, h]
      · rename_i h1 h2
        simp [Tbl.wfFrom, h, h1, h2]
    · split
      · rename_i h1 h2
        subst h2
        split
        · exact Tbl.wfFrom_none h.2
        · rename_i h3
          simp [Tbl.wfFrom, h, h3]
      · rename_i h1 h2
        simp only [Tbl.wfFrom, Bool.and_eq_true, decide_eq_true_eq]
        exact ⟨⟨trivial, h.1.2⟩, Tbl.set_wfFrom h.2 (by omega)⟩

/-- A store of bytes keeps the canonical form. -/
theorem Tbl.writeBytes_wf {d : Byte} {bs : List Byte} {t : Tbl Byte} {a : Nat} (h : Tbl.wf d t = true) :
    Tbl.wf d (Tbl.writeBytes d t a bs) = true := by
  induction bs generalizing t a with
  | nil => exact h
  | cons b bs ih => exact ih (Tbl.set_wf h)

theorem Tbl.get_of_wfFrom {α : Type} [DecidableEq α] {d : α} {t : Tbl α} {lo k : Nat} (h : Tbl.wfFrom d (some lo) t = true) (hk : k ≤ lo) :
    t.get d k = d := by
  induction t generalizing lo with
  | nil => rfl
  | cons p r ih =>
    obtain ⟨a, u⟩ := p
    simp only [Tbl.wfFrom, Bool.and_eq_true, decide_eq_true_eq] at h
    simp only [Tbl.get]
    rw [if_neg (by omega)]
    exact ih h.2 (by omega)

/-- Reading another key after a write gives what it gave before. -/
theorem Tbl.get_set_ne {α : Type} [DecidableEq α] {d v : α} {k i : Nat} (t : Tbl α) (h : i ≠ k) : (t.set d k v).get d i = t.get d i := by
  induction t with
  | nil => by_cases hv : v = d <;> simp [Tbl.set, Tbl.get, hv, h]
  | cons p r ih =>
    obtain ⟨a, u⟩ := p
    simp only [Tbl.set]
    split
    · split
      · rfl
      · simp [Tbl.get, h]
    · split
      · rename_i h1 h2
        subst h2
        split <;> simp [Tbl.get, h]
      · simp [Tbl.get, ih]

/-- Reading the key written gives the value written, in a canonical table. -/
theorem Tbl.get_set_eq {α : Type} [DecidableEq α] {d v : α} {k : Nat} {t : Tbl α} (h : Tbl.wf d t = true) : (t.set d k v).get d k = v := by
  unfold Tbl.wf at h
  generalize hlo : (none : Option Nat) = lo at h
  have hl : ∀ l, lo = some l → l < k ∨ True := fun _ _ => Or.inr trivial
  clear hlo hl
  induction t generalizing lo with
  | nil => by_cases hv : v = d <;> simp [Tbl.set, Tbl.get, hv]
  | cons p r ih =>
    obtain ⟨a, u⟩ := p
    simp only [Tbl.wfFrom, Bool.and_eq_true, decide_eq_true_eq] at h
    simp only [Tbl.set]
    split
    · rename_i h1
      split
      · rename_i h2
        subst h2
        simp only [Tbl.get]
        rw [if_neg (by omega)]
        exact Tbl.get_of_wfFrom h.2 (by omega)
      · simp [Tbl.get]
    · split
      · rename_i h1 h2
        subst h2
        split
        · rename_i h3
          subst h3
          exact Tbl.get_of_wfFrom h.2 (by omega)
        · simp [Tbl.get]
      · rename_i h1 h2
        simp only [Tbl.get]
        rw [if_neg h2]
        exact ih _ h.2

end Sys2Proof.Machine
end

