-- ==== Sys2Proof/Laws/Keeps.lean ====
section
/-! SUPPORT. The relation `Keeps`: it composes, and the plain changes of State keep it. -/

set_option linter.all false

namespace Sys2Proof.Machine

theorem Keeps.refl (s : State) : Keeps s s := ⟨rfl, rfl, rfl, rfl, Nat.le_refl _, List.suffix_refl _, id⟩

theorem Keeps.trans {s t u : State} (h : Keeps s t) (k : Keeps t u) : Keeps s u :=
  ⟨k.pending.trans h.pending, k.a12.trans h.a12, k.serial.trans h.serial, k.now.trans h.now, Nat.le_trans h.evSeq k.evSeq,
   h.outbox.trans k.outbox, fun x => k.inv (h.inv x)⟩

/-- A change that touches none of what `Keeps` speaks of. -/
theorem Keeps.upd {s x t : State} (h : Keeps s x) (h1 : t.pending = x.pending) (h2 : t.a12 = x.a12) (h3 : t.serial = x.serial)
    (h4 : t.now = x.now) (h5 : t.outbox = x.outbox) (h6 : t.evlog.ring = x.evlog.ring) (h7 : t.evlog.newest = x.evlog.newest)
    (h8 : t.tamper.ring = x.tamper.ring) (h9 : t.tamper.evSeq = x.tamper.evSeq) (h10 : t.docW.local_ = x.docW.local_)
    (h11 : t.docW.shared = x.docW.shared) (h12 : t.docE.local_ = x.docE.local_) (h13 : t.docE.shared = x.docE.shared)
    (h14 : t.card0.data = x.card0.data) (h15 : t.card1.data = x.card1.data) (h16 : t.boot.flash = x.boot.flash) : Keeps s t := by
  refine h.trans ⟨h1, h2, h3, h4, Nat.le_of_eq h9.symm, h5 ▸ List.suffix_refl _, fun i => ?_⟩
  simp only [State.Inv, State.memWf, DocentWing.memWf, EvLog.wf, Tamper.wf] at i ⊢
  rw [h6, h7, h8, h10, h11, h12, h13, h14, h15, h16]
  exact i

/-- A record update that touches none of it. -/
theorem Keeps.record {s x : State} {freeCtr : Nat} {host : HostSide} {work : Work} {cat : Catalogue} {journal : Journal} {ledger : Ledger} {entropy : Entropy} {store : Storeroom} {boot : Boot} {tamper : Tamper} {cont : Continuity} {cfgtx : Cfgtx} {handover : Handover} {docW : DocentWing} {docE : DocentWing} {card0 : Card} {card1 : Card} {power : Power} {evlog : EvLog}
    (h : Keeps s x) (h6 : evlog.ring = x.evlog.ring) (h7 : evlog.newest = x.evlog.newest) (h8 : tamper.ring = x.tamper.ring)
    (h9 : tamper.evSeq = x.tamper.evSeq) (h10 : docW.local_ = x.docW.local_) (h11 : docW.shared = x.docW.shared)
    (h12 : docE.local_ = x.docE.local_) (h13 : docE.shared = x.docE.shared) (h14 : card0.data = x.card0.data)
    (h15 : card1.data = x.card1.data) (h16 : boot.flash = x.boot.flash) :
    Keeps s (State.mk x.pending x.now freeCtr x.outbox x.a12 x.serial host work cat journal ledger entropy store boot tamper cont cfgtx handover docW docE card0 card1 power evlog) :=
  h.upd rfl rfl rfl rfl rfl h6 h7 h8 h9 h10 h11 h12 h13 h14 h15 h16

/-- A change of memories: what is stored stays canonical. -/
theorem Keeps.mem {s x t : State} (h : Keeps s x) (h1 : t.pending = x.pending) (h2 : t.a12 = x.a12) (h3 : t.serial = x.serial)
    (h4 : t.now = x.now) (h5 : t.outbox = x.outbox) (h6 : t.evlog = x.evlog) (h8 : t.tamper = x.tamper)
    (h10 : x.memWf = true → t.memWf = true) : Keeps s t := by
  refine h.trans ⟨h1, h2, h3, h4, Nat.le_of_eq (by rw [h8]), h5 ▸ List.suffix_refl _, fun i => ?_⟩
  exact ⟨h10 i.1, by rw [h6]; exact i.2.1, by rw [h8]; exact i.2.2⟩

theorem Keeps.ite {s a b : State} {p : Prop} [Decidable p] (ha : Keeps s a) (hb : Keeps s b) : Keeps s (if p then a else b) := by
  split <;> assumption

/-- A fold of changes. -/
theorem Keeps.forAll {α : Type} {s0 : State} {f : State → α → State} (hf : ∀ s x, Keeps s0 s → Keeps s0 (f s x)) (l : List α) {s : State}
    (h : Keeps s0 s) : Keeps s0 (s.forAll l f) := by
  unfold State.forAll
  induction l generalizing s with
  | nil => exact h
  | cons a l ih => exact ih (hf s a h)

/-- A part of State is replaced. -/
theorem Keeps.setDoc {s x : State} (h : Keeps s x) (w : Wing) (d : DocentWing) (hd : x.memWf = true → d.memWf = true) :
    Keeps s (x.setDoc w d) := by
  refine h.mem ?_ ?_ ?_ ?_ ?_ ?_ ?_ (fun m => ?_) <;> cases w <;> first | rfl | skip
  all_goals
    simp only [State.memWf, State.setDoc, Bool.and_eq_true] at m ⊢
    simp only [m, hd (by simp only [State.memWf, Bool.and_eq_true, m, and_self])]
    simp

theorem State.memWf_doc {s : State} (h : s.memWf = true) (w : Wing) : (s.doc w).memWf = true := by
  simp only [State.memWf, Bool.and_eq_true] at h
  cases w <;> simp [State.doc, h]

/-- A change of a wing's Docent state other than its memories. -/
theorem Keeps.setDoc' {s x : State} (h : Keeps s x) (w : Wing) (d : DocentWing) (h1 : d.local_ = (x.doc w).local_)
    (h2 : d.shared = (x.doc w).shared) : Keeps s (x.setDoc w d) := by
  refine h.setDoc w d fun m => ?_
  have := State.memWf_doc m w
  unfold DocentWing.memWf at this ⊢
  rw [h1, h2]; exact this

theorem State.memWf_card {s : State} (h : s.memWf = true) (n : Nat) : Tbl.wf 0#8 (s.card n).data = true := by
  simp only [State.memWf, Bool.and_eq_true] at h
  unfold State.card
  split <;> simp [h]

theorem Keeps.setCard {s x : State} (h : Keeps s x) (n : Nat) (c : Card) (hc : x.memWf = true → Tbl.wf 0#8 c.data = true) :
    Keeps s (x.setCard n c) := by
  unfold State.setCard
  split
  · refine h.mem rfl rfl rfl rfl rfl rfl rfl (fun m => ?_)
    have := hc m
    simp only [State.memWf, Bool.and_eq_true] at m ⊢
    simp [m, this]
  · split
    · refine h.mem rfl rfl rfl rfl rfl rfl rfl (fun m => ?_)
      have := hc m
      simp only [State.memWf, Bool.and_eq_true] at m ⊢
      simp [m, this]
    · exact h

theorem Keeps.setCard' {s x : State} (h : Keeps s x) (n : Nat) (c : Card) (m : Nat) (hc : c.data = (x.card m).data) : Keeps s (x.setCard n c) :=
  h.setCard n c fun w => by rw [hc]; exact State.memWf_card w m

theorem Keeps.emit {s x : State} (h : Keeps s x) (o : Out) : Keeps s (x.emit o) :=
  h.trans ⟨rfl, rfl, rfl, rfl, Nat.le_refl _, List.suffix_cons _ _, id⟩

theorem seqsDown_take (n k : Nat) (l : List LogRec) (h : seqsDown n l = true) : seqsDown n (l.take k) = true := by
  induction l generalizing n k with
  | nil => simp [seqsDown]
  | cons r l ih =>
    cases k with
    | zero => rfl
    | succ k =>
      simp only [seqsDown, List.take_succ_cons, Bool.and_eq_true] at h ⊢
      exact ⟨h.1, ih _ _ h.2⟩

theorem Keeps.log {s x : State} (h : Keeps s x) (c : Nat) (st : Byte) (src : Nat) (d : List Byte) : Keeps s (x.log c st src d) := by
  refine h.trans ⟨rfl, rfl, rfl, rfl, Nat.le_refl _, List.suffix_refl _, fun i => ⟨i.1, ?_, i.2.2⟩⟩
  have i := i.2.1
  simp only [EvLog.wf, Bool.and_eq_true, decide_eq_true_eq] at i
  simp only [State.log, EvLog.wf, Bool.and_eq_true, decide_eq_true_eq, List.length_take]
  refine ⟨by omega, ?_⟩
  refine seqsDown_take _ _ _ ?_
  simp [seqsDown, i.2]

/-! ### Folds, ends and choices -/

/-- The state in which an administrative command ends. -/
def AdmEnd.state : AdmEnd → State
  | .record _ _ _ s => s
  | .later s => s

theorem Keeps.iteA {s : State} {a b : AdmEnd} {p : Prop} [Decidable p] (ha : Keeps s a.state) (hb : Keeps s b.state) :
    Keeps s (if p then a else b).state := by
  split <;> assumption

theorem Keeps.foldl {α : Type} {s0 : State} {f : State → α → State} (hf : ∀ s x, Keeps s0 s → Keeps s0 (f s x)) (l : List α) {s : State}
    (h : Keeps s0 s) : Keeps s0 (l.foldl f s) := by
  induction l generalizing s with
  | nil => exact h
  | cons a l ih => exact ih (hf s a h)

theorem Keeps.foldl2 {α β : Type} {s0 : State} {f : β × State → α → β × State} (hf : ∀ a x, Keeps s0 a.2 → Keeps s0 (f a x).2) (l : List α)
    {a : β × State} (h : Keeps s0 a.2) : Keeps s0 (l.foldl f a).2 := by
  induction l generalizing a with
  | nil => exact h
  | cons x l ih => exact ih (hf a x h)

theorem Keeps.ite2 {α : Type} {s : State} {a b : α × State} {p : Prop} [Decidable p] (ha : Keeps s a.2) (hb : Keeps s b.2) :
    Keeps s (if p then a else b).2 := by
  split <;> assumption

theorem Keeps.ite3 {α β : Type} {s : State} {a b : α × β × State} {p : Prop} [Decidable p] (ha : Keeps s a.2.2) (hb : Keeps s b.2.2) :
    Keeps s (if p then a else b).2.2 := by
  split <;> assumption


/-! ### Card slots -/

/-- A card slot whose data buffer is in canonical form. -/
structure CardOk (s0 : State) (c : Card) : Prop where
  ok : s0.Inv → Tbl.wf 0#8 c.data = true

theorem CardOk.card {s0 s : State} (h : Keeps s0 s) (n : Nat) : CardOk s0 (s.card n) :=
  ⟨fun i => State.memWf_card (h.inv i).1 n⟩

theorem CardOk.empty {s0 : State} {ctrl : Word32} {state : CardState} {present : Bool} {cls : Nat} {inverse : Bool} {clkStopMode : Nat} {busy : Bool} {phase : CardPhase} {result : Word32} {hdr : Word32} {p3 : Word32} {sw : Word32} {params : Word32} {irqEn : Word32} {irq : Word32} {atr : List Byte} {sent : Nat} {got : Nat} {procSeen : Bool} {swSeen : Bool} {sw1 : Byte} {repeats : Nat} {ppsGot : List Byte} {ppsFailed : Bool} {triedB : Bool} {since : Nat} {aborting : Bool} {endAfter : Bool} {next : Nat} :
    CardOk s0 (Card.mk ctrl state present cls inverse clkStopMode busy phase result hdr p3 sw params irqEn irq atr [] sent got procSeen swSeen sw1 repeats ppsGot ppsFailed triedB since aborting endAfter next) := ⟨fun _ => rfl⟩

/-- A change of a card slot other than its data. -/
theorem CardOk.record {s0 : State} {c : Card} {ctrl : Word32} {state : CardState} {present : Bool} {cls : Nat} {inverse : Bool} {clkStopMode : Nat} {busy : Bool} {phase : CardPhase} {result : Word32} {hdr : Word32} {p3 : Word32} {sw : Word32} {params : Word32} {irqEn : Word32} {irq : Word32} {atr : List Byte} {sent : Nat} {got : Nat} {procSeen : Bool} {swSeen : Bool} {sw1 : Byte} {repeats : Nat} {ppsGot : List Byte} {ppsFailed : Bool} {triedB : Bool} {since : Nat} {aborting : Bool} {endAfter : Bool} {next : Nat}
    (h : CardOk s0 c) : CardOk s0 (Card.mk ctrl state present cls inverse clkStopMode busy phase result hdr p3 sw params irqEn irq atr c.data sent got procSeen swSeen sw1 repeats ppsGot ppsFailed triedB since aborting endAfter next) := ⟨h.ok⟩

theorem CardOk.setData {s0 : State} {c : Card} {ctrl : Word32} {state : CardState} {present : Bool} {cls : Nat} {inverse : Bool} {clkStopMode : Nat} {busy : Bool} {phase : CardPhase} {result : Word32} {hdr : Word32} {p3 : Word32} {sw : Word32} {params : Word32} {irqEn : Word32} {irq : Word32} {atr : List Byte} {sent : Nat} {got : Nat} {procSeen : Bool} {swSeen : Bool} {sw1 : Byte} {repeats : Nat} {ppsGot : List Byte} {ppsFailed : Bool} {triedB : Bool} {since : Nat} {aborting : Bool} {endAfter : Bool} {next : Nat} {k : Nat} {b : Byte}
    (h : CardOk s0 c) : CardOk s0 (Card.mk ctrl state present cls inverse clkStopMode busy phase result hdr p3 sw params irqEn irq atr (Tbl.set 0 c.data k b) sent got procSeen swSeen sw1 repeats ppsGot ppsFailed triedB since aborting endAfter next) := ⟨fun i => Tbl.set_wf (h.ok i)⟩

theorem CardOk.writeData {s0 : State} {c : Card} {ctrl : Word32} {state : CardState} {present : Bool} {cls : Nat} {inverse : Bool} {clkStopMode : Nat} {busy : Bool} {phase : CardPhase} {result : Word32} {hdr : Word32} {p3 : Word32} {sw : Word32} {params : Word32} {irqEn : Word32} {irq : Word32} {atr : List Byte} {sent : Nat} {got : Nat} {procSeen : Bool} {swSeen : Bool} {sw1 : Byte} {repeats : Nat} {ppsGot : List Byte} {ppsFailed : Bool} {triedB : Bool} {since : Nat} {aborting : Bool} {endAfter : Bool} {next : Nat} {k : Nat} {b : List Byte}
    (h : CardOk s0 c) : CardOk s0 (Card.mk ctrl state present cls inverse clkStopMode busy phase result hdr p3 sw params irqEn irq atr (Tbl.writeBytes 0 c.data k b) sent got procSeen swSeen sw1 repeats ppsGot ppsFailed triedB since aborting endAfter next) := ⟨fun i => Tbl.writeBytes_wf (h.ok i)⟩

theorem Keeps.setCardOk {s0 x : State} {n : Nat} {c : Card} (h : Keeps s0 x) (hc : CardOk s0 c) : Keeps s0 (x.setCard n c) := by
  refine ⟨?_, ?_, ?_, ?_, ?_, ?_, fun i => ((Keeps.refl x).setCard n c fun _ => hc.ok i).inv (h.inv i)⟩
  all_goals
    unfold State.setCard
    split
    · first | exact h.pending | exact h.a12 | exact h.serial | exact h.now | exact h.evSeq | exact h.outbox
    · split <;> first | exact h.pending | exact h.a12 | exact h.serial | exact h.now | exact h.evSeq | exact h.outbox

/-! ### A wing's Docent state -/

/-- A wing's Docent state whose memories are in canonical form. -/
structure DocOk (s0 : State) (c : DocentWing) : Prop where
  ok : s0.Inv → c.memWf = true

theorem DocOk.doc {s0 s : State} (h : Keeps s0 s) (w : Wing) : DocOk s0 (s.doc w) := ⟨fun i => State.memWf_doc (h.inv i).1 w⟩
theorem DocOk.docW {s0 s : State} (h : Keeps s0 s) : DocOk s0 s.docW := DocOk.doc h .west
theorem DocOk.docE {s0 s : State} (h : Keeps s0 s) : DocOk s0 s.docE := DocOk.doc h .east

theorem DocOk.empty {s0 : State} {units : Tbl AccessUnit} {queues : Tbl DocQueue} {csr : Tbl Nat} {running : Bool} {frozen : Bool} {timerBase : Nat} {compares : List Nat} {timerIrq : BitVec 8} {rtcCompare : Nat} {rtcIrq : Bool} {gpioIn : BitVec 8} {gpioOut : BitVec 8} {gpioOe : BitVec 8} {gpioOd : BitVec 8} {gpioPull : BitVec 8} {gpioIrqEn : BitVec 16} {gpioIrq : BitVec 16} {curmb : Curmb} :
    DocOk s0 (DocentWing.mk [] [] units queues csr running frozen timerBase compares timerIrq rtcCompare rtcIrq gpioIn gpioOut gpioOe gpioOd gpioPull gpioIrqEn gpioIrq curmb) := ⟨fun _ => rfl⟩

/-- A change of a wing's Docent state other than its memories. -/
theorem DocOk.record {s0 : State} {c : DocentWing} {units : Tbl AccessUnit} {queues : Tbl DocQueue} {csr : Tbl Nat} {running : Bool} {frozen : Bool} {timerBase : Nat} {compares : List Nat} {timerIrq : BitVec 8} {rtcCompare : Nat} {rtcIrq : Bool} {gpioIn : BitVec 8} {gpioOut : BitVec 8} {gpioOe : BitVec 8} {gpioOd : BitVec 8} {gpioPull : BitVec 8} {gpioIrqEn : BitVec 16} {gpioIrq : BitVec 16} {curmb : Curmb}
    (h : DocOk s0 c) : DocOk s0 (DocentWing.mk c.local_ c.shared units queues csr running frozen timerBase compares timerIrq rtcCompare rtcIrq gpioIn gpioOut gpioOe gpioOd gpioPull gpioIrqEn gpioIrq curmb) := ⟨h.ok⟩

/-- Bytes stored in the Docents' own memories. -/
theorem DocOk.writeLocal {s0 : State} {c : DocentWing} {a : Nat} {b : List Byte} (h : DocOk s0 c) :
    DocOk s0 { c with local_ := Tbl.writeBytes 0 c.local_ a b } := by
  refine ⟨fun i => ?_⟩
  have := h.ok i
  unfold DocentWing.memWf at this ⊢
  rw [Bool.and_eq_true] at this ⊢
  exact ⟨Tbl.writeBytes_wf this.1, this.2⟩

/-- Bytes stored in the wing's shared memory. -/
theorem DocOk.writeShared {s0 : State} {c : DocentWing} {a : Nat} {b : List Byte} (h : DocOk s0 c) :
    DocOk s0 { c with shared := Tbl.writeBytes 0 c.shared a b } := by
  refine ⟨fun i => ?_⟩
  have := h.ok i
  unfold DocentWing.memWf at this ⊢
  rw [Bool.and_eq_true] at this ⊢
  exact ⟨this.1, Tbl.writeBytes_wf this.2⟩

theorem Keeps.setDocOk {s0 x : State} {w : Wing} {d : DocentWing} (h : Keeps s0 x) (hd : DocOk s0 d) : Keeps s0 (x.setDoc w d) := by
  refine ⟨?_, ?_, ?_, ?_, ?_, ?_, fun i => ((Keeps.refl x).setDoc w d fun _ => hd.ok i).inv (h.inv i)⟩ <;> cases w <;>
    first | exact h.pending | exact h.a12 | exact h.serial | exact h.now | exact h.evSeq | exact h.outbox


/-! ### The boot flash -/

/-- A boot state whose flash is in canonical form. -/
structure BootOk (s0 : State) (c : Boot) : Prop where
  ok : s0.Inv → Tbl.wf 255#8 c.flash = true

theorem State.memWf_flash {s : State} (h : s.memWf = true) : Tbl.wf 255#8 s.boot.flash = true := by
  simp only [State.memWf, Bool.and_eq_true] at h
  exact h.2

theorem BootOk.boot {s0 s : State} (h : Keeps s0 s) : BootOk s0 s.boot := ⟨fun i => State.memWf_flash (h.inv i).1⟩

/-- A change of the boot state other than its flash. -/
theorem BootOk.record {s0 : State} {c : Boot} {flashMib : Nat} {flashOctal : Bool} {octal : Bool} {dirA : Option DirCopy} {dirB : Option DirCopy} {wingsOut : Bool} {lifecycle : Lifecycle} {transfers : Nat} {vendorRevoked : BitVec 4} {debug : Nat} {stage : Nat} {slots : BitVec 4} {rejectA : Nat} {rejectB : Nat} {rejectType : Nat} {versions : List Word32} {svns : List Nat} {floors : List Nat} {meas : List (List Byte)} {policyBody : Option (List Byte)} {policyFailed : Bool} {ssk : Option Nat} {journalGen : Nat} {wrapA : Option MasterWrap} {wrapB : Option MasterWrap} {custodians : List Custodian} {threshold : Nat} {nonces : List Nonce} {challenges : List (Nat × Nonce)} {auths : List Authorisation} {ownerRoots : List Byte} {slot1 : Bool} {aliasIssued : Nat} {aliases : Option (List Byte × List Byte)} {startedAt : Nat} {straps : BitVec 6} {inReset : Bool}
    (h : BootOk s0 c) : BootOk s0 (Boot.mk flashMib flashOctal octal c.flash dirA dirB wingsOut lifecycle transfers vendorRevoked debug stage slots rejectA rejectB rejectType versions svns floors meas policyBody policyFailed ssk journalGen wrapA wrapB custodians threshold nonces challenges auths ownerRoots slot1 aliasIssued aliases startedAt straps inReset) := ⟨h.ok⟩

/-- Bytes programmed into the flash. -/
theorem BootOk.write {s0 : State} {c : Boot} {flashMib : Nat} {flashOctal : Bool} {octal : Bool} {dirA : Option DirCopy} {dirB : Option DirCopy} {wingsOut : Bool} {lifecycle : Lifecycle} {transfers : Nat} {vendorRevoked : BitVec 4} {debug : Nat} {stage : Nat} {slots : BitVec 4} {rejectA : Nat} {rejectB : Nat} {rejectType : Nat} {versions : List Word32} {svns : List Nat} {floors : List Nat} {meas : List (List Byte)} {policyBody : Option (List Byte)} {policyFailed : Bool} {ssk : Option Nat} {journalGen : Nat} {wrapA : Option MasterWrap} {wrapB : Option MasterWrap} {custodians : List Custodian} {threshold : Nat} {nonces : List Nonce} {challenges : List (Nat × Nonce)} {auths : List Authorisation} {ownerRoots : List Byte} {slot1 : Bool} {aliasIssued : Nat} {aliases : Option (List Byte × List Byte)} {startedAt : Nat} {straps : BitVec 6} {inReset : Bool} {a : Nat} {b : List Byte}
    (h : BootOk s0 c) : BootOk s0 (Boot.mk flashMib flashOctal octal (Tbl.writeBytes 0xFF c.flash a b) dirA dirB wingsOut lifecycle transfers vendorRevoked debug stage slots rejectA rejectB rejectType versions svns floors meas policyBody policyFailed ssk journalGen wrapA wrapB custodians threshold nonces challenges auths ownerRoots slot1 aliasIssued aliases startedAt straps inReset) := ⟨fun i => Tbl.writeBytes_wf (h.ok i)⟩

/-- A new boot state. -/
theorem Keeps.setBootOk {s0 x : State} {b : Boot} (h : Keeps s0 x) (hb : BootOk s0 b) : Keeps s0 { x with boot := b } := by
  refine ⟨h.pending, h.a12, h.serial, h.now, h.evSeq, h.outbox, fun i => ⟨?_, (h.inv i).2⟩⟩
  have := (h.inv i).1
  simp only [State.memWf, Bool.and_eq_true] at this ⊢
  exact ⟨this.1, hb.ok i⟩

end Sys2Proof.Machine
end

