-- ==== Sys2Proof/Laws/KeepsOps.lean ====
section
/-! SUPPORT. What the named operations and the Storeroom do keeps what `Keeps` says: one lemma per operation. -/

set_option linter.all false

open Host

namespace Sys2Proof.Machine

theorem State.setFn_keeps {s0 s : State} (H : Keeps s0 s) (f : Fn) (x : FnState) :
    Keeps s0 (State.setFn s f x) := by
  unfold State.setFn
  repeat' first
    | (with_reducible assumption) | (intro) | (with_reducible apply Keeps.ite2) | (with_reducible apply Keeps.ite)
    | (fail_if_no_progress ((with_reducible apply Keeps.record) <;> first | with_reducible rfl | skip)) | split | (dsimp only)

theorem State.modFn_keeps {s0 s : State} (H : Keeps s0 s) (f : Fn) (g : FnState → FnState) :
    Keeps s0 (State.modFn s f g) := by
  unfold State.modFn
  repeat' first
    | (with_reducible assumption) | (intro) | (with_reducible apply State.setFn_keeps) | (with_reducible apply Keeps.ite2)
    | (with_reducible apply Keeps.ite)
    | (fail_if_no_progress ((with_reducible apply Keeps.record) <;> first | with_reducible rfl | skip)) | split | (dsimp only)

theorem State.setPort_keeps {s0 s : State} (H : Keeps s0 s) (w : Wing) (p : PortState) :
    Keeps s0 (State.setPort s w p) := by
  unfold State.setPort
  repeat' first
    | (with_reducible assumption) | (intro) | (with_reducible apply Keeps.ite2) | (with_reducible apply Keeps.ite)
    | (fail_if_no_progress ((with_reducible apply Keeps.record) <;> first | with_reducible rfl | skip)) | split | (dsimp only)

theorem State.setDisp_keeps {s0 s : State} (H : Keeps s0 s) (w : Wing) (d : Dispatcher) :
    Keeps s0 (State.setDisp s w d) := by
  unfold State.setDisp
  repeat' first
    | (with_reducible assumption) | (intro) | (with_reducible apply Keeps.ite2) | (with_reducible apply Keeps.ite)
    | (fail_if_no_progress ((with_reducible apply Keeps.record) <;> first | with_reducible rfl | skip)) | split | (dsimp only)

theorem State.setColl_keeps {s0 s : State} (H : Keeps s0 s) (c : Nat) (x : Option Collection) :
    Keeps s0 (State.setColl s c x) := by
  unfold State.setColl
  repeat' first
    | (with_reducible assumption) | (intro) | (with_reducible apply Keeps.ite2) | (with_reducible apply Keeps.ite)
    | (fail_if_no_progress ((with_reducible apply Keeps.record) <;> first | with_reducible rfl | skip)) | split | (dsimp only)

theorem State.setJob_keeps {s0 s : State} (H : Keeps s0 s) (j : Nat) (x : Option Job) :
    Keeps s0 (State.setJob s j x) := by
  unfold State.setJob
  repeat' first
    | (with_reducible assumption) | (intro) | (with_reducible apply Keeps.ite2) | (with_reducible apply Keeps.ite)
    | (fail_if_no_progress ((with_reducible apply Keeps.record) <;> first | with_reducible rfl | skip)) | split | (dsimp only)

theorem State.putJob_keeps {s0 s : State} (H : Keeps s0 s) (j : Nat) (x : Job) :
    Keeps s0 (State.putJob s j x) := by
  unfold State.putJob
  repeat' first
    | (with_reducible assumption) | (intro) | (with_reducible apply State.setJob_keeps) | (with_reducible apply Keeps.ite2)
    | (with_reducible apply Keeps.ite)
    | (fail_if_no_progress ((with_reducible apply Keeps.record) <;> first | with_reducible rfl | skip)) | split | (dsimp only)

theorem State.setGal_keeps {s0 s : State} (H : Keeps s0 s) (g : Nat) (x : Gallery) :
    Keeps s0 (State.setGal s g x) := by
  unfold State.setGal
  repeat' first
    | (with_reducible assumption) | (intro) | (with_reducible apply Keeps.ite2) | (with_reducible apply Keeps.ite)
    | (fail_if_no_progress ((with_reducible apply Keeps.record) <;> first | with_reducible rfl | skip)) | split | (dsimp only)

theorem State.setPage_keeps {s0 s : State} (H : Keeps s0 s) (p : Nat) (x : CompatPage) :
    Keeps s0 (State.setPage s p x) := by
  unfold State.setPage
  repeat' first
    | (with_reducible assumption) | (intro) | (with_reducible apply Keeps.ite2) | (with_reducible apply Keeps.ite)
    | (fail_if_no_progress ((with_reducible apply Keeps.record) <;> first | with_reducible rfl | skip)) | split | (dsimp only)

theorem State.setSlot_keeps {s0 s : State} (H : Keeps s0 s) (n : Nat) (x : LedgerSlot) :
    Keeps s0 (State.setSlot s n x) := by
  unfold State.setSlot
  repeat' first
    | (with_reducible assumption) | (intro) | (with_reducible apply Keeps.ite2) | (with_reducible apply Keeps.ite)
    | (fail_if_no_progress ((with_reducible apply Keeps.record) <;> first | with_reducible rfl | skip)) | split | (dsimp only)

theorem State.setStoreWing_keeps {s0 s : State} (H : Keeps s0 s) (w : Wing) (x : StoreWing) :
    Keeps s0 (State.setStoreWing s w x) := by
  unfold State.setStoreWing
  repeat' first
    | (with_reducible assumption) | (intro) | (with_reducible apply Keeps.ite2) | (with_reducible apply Keeps.ite)
    | (fail_if_no_progress ((with_reducible apply Keeps.record) <;> first | with_reducible rfl | skip)) | split | (dsimp only)

theorem State.setMailbox_keeps {s0 s : State} (H : Keeps s0 s) (m : Sender) (x : Curmb) :
    Keeps s0 (State.setMailbox s m x) := by
  unfold State.setMailbox
  repeat' first
    | (with_reducible assumption) | (intro) | (with_reducible apply Keeps.setDocOk) | (with_reducible apply DocOk.doc)
    | (with_reducible apply DocOk.docW) | (with_reducible apply DocOk.docE)
    | (fail_if_no_progress (with_reducible apply DocOk.record)) | (with_reducible apply Keeps.ite2)
    | (with_reducible apply Keeps.ite)
    | (fail_if_no_progress ((with_reducible apply Keeps.record) <;> first | with_reducible rfl | skip)) | split | (dsimp only)

theorem State.setClockDie_keeps {s0 s : State} (H : Keeps s0 s) (d : Die) (x : ClockDie) :
    Keeps s0 (State.setClockDie s d x) := by
  unfold State.setClockDie
  repeat' first
    | (with_reducible assumption) | (intro) | (with_reducible apply Keeps.ite2) | (with_reducible apply Keeps.ite)
    | (fail_if_no_progress ((with_reducible apply Keeps.record) <;> first | with_reducible rfl | skip)) | split | (dsimp only)

theorem State.setIdle_keeps {s0 s : State} (H : Keeps s0 s) (w : Wing) (v : Bool) :
    Keeps s0 (State.setIdle s w v) := by
  unfold State.setIdle
  repeat' first
    | (with_reducible assumption) | (intro) | (with_reducible apply Keeps.ite2) | (with_reducible apply Keeps.ite)
    | (fail_if_no_progress ((with_reducible apply Keeps.record) <;> first | with_reducible rfl | skip)) | split | (dsimp only)

theorem State.free_keeps {s0 s : State} (H : Keeps s0 s)  :
    Keeps s0 (State.free s).2 := by
  unfold State.free
  repeat' first
    | (with_reducible assumption) | (intro) | (with_reducible apply Keeps.ite2) | (with_reducible apply Keeps.ite)
    | (fail_if_no_progress ((with_reducible apply Keeps.record) <;> first | with_reducible rfl | skip)) | split | (dsimp only)

theorem State.freeBytes_keeps {s0 s : State} (H : Keeps s0 s) (n : Nat) :
    Keeps s0 (State.freeBytes s n).2 := by
  unfold State.freeBytes
  repeat' first
    | (with_reducible assumption) | (intro) | (with_reducible apply Keeps.ite2) | (with_reducible apply Keeps.ite)
    | (fail_if_no_progress ((with_reducible apply Keeps.record) <;> first | with_reducible rfl | skip)) | split | (dsimp only)

theorem State.writeHost_keeps {s0 s : State} (H : Keeps s0 s) (w : Wing) (addr : Nat) (bytes : List Byte) :
    Keeps s0 (State.writeHost s w addr bytes) := by
  unfold State.writeHost
  repeat' first
    | (with_reducible assumption) | (intro) | (with_reducible apply Keeps.forAll) | (with_reducible apply Keeps.emit)
    | (with_reducible apply Keeps.ite2) | (with_reducible apply Keeps.ite)
    | (fail_if_no_progress ((with_reducible apply Keeps.record) <;> first | with_reducible rfl | skip)) | split | (dsimp only)

theorem State.readHost_keeps {s0 s : State} (H : Keeps s0 s) (w : Wing) (addr : Nat) (len : Nat) (target : ReadTarget) :
    Keeps s0 (State.readHost s w addr len target) := by
  unfold State.readHost
  repeat' first
    | (with_reducible assumption) | (intro) | (with_reducible apply Keeps.forAll) | (with_reducible apply Keeps.emit)
    | (with_reducible apply Keeps.ite2) | (with_reducible apply Keeps.ite)
    | (fail_if_no_progress ((with_reducible apply Keeps.record) <;> first | with_reducible rfl | skip)) | split | (dsimp only)

theorem State.sendMsix_keeps {s0 s : State} (H : Keeps s0 s) (f : Fn) (v : Nat) :
    Keeps s0 (State.sendMsix s f v) := by
  unfold State.sendMsix
  repeat' first
    | (with_reducible assumption) | (intro) | (with_reducible apply State.setFn_keeps) | (with_reducible apply Keeps.emit)
    | (with_reducible apply Keeps.ite2) | (with_reducible apply Keeps.ite)
    | (fail_if_no_progress ((with_reducible apply Keeps.record) <;> first | with_reducible rfl | skip)) | split | (dsimp only)

theorem State.raiseCause_keeps {s0 s : State} (H : Keeps s0 s) (bit : Nat) (f : Fn) :
    Keeps s0 (State.raiseCause s bit f) := by
  unfold State.raiseCause
  repeat' first
    | (with_reducible assumption) | (intro) | (with_reducible apply State.setFn_keeps)
    | (with_reducible apply State.sendMsix_keeps) | (with_reducible apply Keeps.ite2) | (with_reducible apply Keeps.ite)
    | (fail_if_no_progress ((with_reducible apply Keeps.record) <;> first | with_reducible rfl | skip)) | split | (dsimp only)

theorem State.raisePort_keeps {s0 s : State} (H : Keeps s0 s) (bit : Nat) (w : Wing) :
    Keeps s0 (State.raisePort s bit w) := by
  unfold State.raisePort
  repeat' first
    | (with_reducible assumption) | (intro) | (with_reducible apply State.raiseCause_keeps) | (with_reducible apply Keeps.forAll)
    | (with_reducible apply Keeps.ite2) | (with_reducible apply Keeps.ite)
    | (fail_if_no_progress ((with_reducible apply Keeps.record) <;> first | with_reducible rfl | skip)) | split | (dsimp only)

theorem State.raiseAll_keeps {s0 s : State} (H : Keeps s0 s) (bit : Nat) :
    Keeps s0 (State.raiseAll s bit) := by
  unfold State.raiseAll
  repeat' first
    | (with_reducible assumption) | (intro) | (with_reducible apply State.raiseCause_keeps) | (with_reducible apply Keeps.forAll)
    | (with_reducible apply Keeps.ite2) | (with_reducible apply Keeps.ite)
    | (fail_if_no_progress ((with_reducible apply Keeps.record) <;> first | with_reducible rfl | skip)) | split | (dsimp only)

theorem State.regError_keeps {s0 s : State} (H : Keeps s0 s) (f : Fn) (status : Byte) (off : Nat) :
    Keeps s0 (State.regError s f status off) := by
  unfold State.regError
  repeat' first
    | (with_reducible assumption) | (intro) | (with_reducible apply State.raiseCause_keeps)
    | (with_reducible apply State.setFn_keeps) | (with_reducible apply Keeps.ite2) | (with_reducible apply Keeps.ite)
    | (fail_if_no_progress ((with_reducible apply Keeps.record) <;> first | with_reducible rfl | skip)) | split | (dsimp only)

theorem State.queueError_keeps {s0 s : State} (H : Keeps s0 s) (f : Fn) (q : QSel) (completion : Bool) (reason : Nat) :
    Keeps s0 (State.queueError s f q completion reason) := by
  unfold State.queueError
  repeat' first
    | (with_reducible assumption) | (intro) | (with_reducible apply State.raiseCause_keeps)
    | (with_reducible apply State.setFn_keeps) | (with_reducible apply Keeps.ite2) | (with_reducible apply Keeps.ite)
    | (fail_if_no_progress ((with_reducible apply Keeps.record) <;> first | with_reducible rfl | skip)) | split | (dsimp only)

theorem State.underPolicy_keeps {s0 s : State} (H : Keeps s0 s) (epoch : Nat) :
    Keeps s0 (State.underPolicy s epoch) := by
  unfold State.underPolicy
  repeat' first
    | (with_reducible assumption) | (intro) | (with_reducible apply Keeps.ite2) | (with_reducible apply Keeps.ite)
    | (fail_if_no_progress ((with_reducible apply Keeps.record) <;> first | with_reducible rfl | skip)) | split | (dsimp only)

theorem State.configRequest_keeps {s0 s : State} (H : Keeps s0 s) (f : Fn) (k : State → State) (hk : ∀ x, Keeps s0 x → Keeps s0 (k x)) :
    Keeps s0 (State.configRequest s f k) := by
  unfold State.configRequest
  repeat' first
    | (with_reducible assumption) | (intro) | (with_reducible apply hk) | (with_reducible apply Keeps.emit)
    | (with_reducible apply Keeps.ite2) | (with_reducible apply Keeps.ite)
    | (fail_if_no_progress ((with_reducible apply Keeps.record) <;> first | with_reducible rfl | skip)) | split | (dsimp only)

theorem State.access_keeps {s0 s : State} (H : Keeps s0 s) (f : Fn) (k : State → State) (hk : ∀ x, Keeps s0 x → Keeps s0 (k x)) :
    Keeps s0 (State.access s f k) := by
  unfold State.access
  repeat' first
    | (with_reducible assumption) | (intro) | (with_reducible apply hk) | (with_reducible apply Keeps.emit)
    | (with_reducible apply Keeps.ite2) | (with_reducible apply Keeps.ite)
    | (fail_if_no_progress ((with_reducible apply Keeps.record) <;> first | with_reducible rfl | skip)) | split | (dsimp only)

theorem State.write_keeps {s0 s : State} (H : Keeps s0 s) (f : Fn) (off : Nat) (k : State → State) (hk : ∀ x, Keeps s0 x → Keeps s0 (k x)) :
    Keeps s0 (State.write s f off k) := by
  unfold State.write
  repeat' first
    | (with_reducible assumption) | (intro) | (with_reducible apply State.access_keeps) | (with_reducible apply hk)
    | (with_reducible apply Keeps.ite2) | (with_reducible apply Keeps.ite)
    | (fail_if_no_progress ((with_reducible apply Keeps.record) <;> first | with_reducible rfl | skip)) | split | (dsimp only)

theorem State.mgmtWrite_keeps {s0 s : State} (H : Keeps s0 s) (f : Fn) (off : Nat) (k : State → State) (hk : ∀ x, Keeps s0 x → Keeps s0 (k x)) :
    Keeps s0 (State.mgmtWrite s f off k) := by
  unfold State.mgmtWrite
  repeat' first
    | (with_reducible assumption) | (intro) | (with_reducible apply State.write_keeps)
    | (with_reducible apply State.regError_keeps) | (with_reducible apply hk) | (with_reducible apply Keeps.ite2)
    | (with_reducible apply Keeps.ite)
    | (fail_if_no_progress ((with_reducible apply Keeps.record) <;> first | with_reducible rfl | skip)) | split | (dsimp only)

theorem State.sideRead_keeps {s0 s : State} (H : Keeps s0 s) (f : Fn) (off : Nat) (v : Word32) (k : State → State) (hk : ∀ x, Keeps s0 x → Keeps s0 (k x)) :
    Keeps s0 (State.sideRead s f off v k) := by
  unfold State.sideRead
  repeat' first
    | (with_reducible assumption) | (intro) | (with_reducible apply State.access_keeps) | (with_reducible apply hk)
    | (with_reducible apply Keeps.emit) | (with_reducible apply Keeps.ite2) | (with_reducible apply Keeps.ite)
    | (fail_if_no_progress ((with_reducible apply Keeps.record) <;> first | with_reducible rfl | skip)) | split | (dsimp only)

theorem State.clearRead_keeps {s0 s : State} (H : Keeps s0 s) (f : Fn) (off : Nat) (v : Word32) (k : State → State) (hk : ∀ x, Keeps s0 x → Keeps s0 (k x)) :
    Keeps s0 (State.clearRead s f off v k) := by
  unfold State.clearRead
  repeat' first
    | (with_reducible assumption) | (intro) | (with_reducible apply State.sideRead_keeps) | (with_reducible apply hk)
    | (with_reducible apply Keeps.ite2) | (with_reducible apply Keeps.ite)
    | (fail_if_no_progress ((with_reducible apply Keeps.record) <;> first | with_reducible rfl | skip)) | split | (dsimp only)

theorem State.setQueue_keeps {s0 s : State} (H : Keeps s0 s) (f : Fn) (sel : QSel) (x : Queue) :
    Keeps s0 (State.setQueue s f sel x) := by
  unfold State.setQueue
  repeat' first
    | (with_reducible assumption) | (intro) | (with_reducible apply State.modFn_keeps) | (with_reducible apply Keeps.ite2)
    | (with_reducible apply Keeps.ite)
    | (fail_if_no_progress ((with_reducible apply Keeps.record) <;> first | with_reducible rfl | skip)) | split | (dsimp only)

theorem State.fetchHead_keeps {s0 s : State} (H : Keeps s0 s) (f : Fn) (sel : QSel) :
    Keeps s0 (State.fetchHead s f sel) := by
  unfold State.fetchHead
  repeat' first
    | (with_reducible assumption) | (intro) | (with_reducible apply Keeps.emit) | (with_reducible apply Keeps.ite2)
    | (with_reducible apply Keeps.ite)
    | (fail_if_no_progress ((with_reducible apply Keeps.record) <;> first | with_reducible rfl | skip)) | split | (dsimp only)

theorem State.refetch_keeps {s0 s : State} (H : Keeps s0 s) (f : Fn) :
    Keeps s0 (State.refetch s f) := by
  unfold State.refetch
  repeat' first
    | (with_reducible assumption) | (intro) | (with_reducible apply State.fetchHead_keeps) | (with_reducible apply Keeps.forAll)
    | (with_reducible apply Keeps.ite2) | (with_reducible apply Keeps.ite)
    | (fail_if_no_progress ((with_reducible apply Keeps.record) <;> first | with_reducible rfl | skip)) | split | (dsimp only)

theorem State.refetchAll_keeps {s0 s : State} (H : Keeps s0 s)  :
    Keeps s0 (State.refetchAll s) := by
  unfold State.refetchAll
  repeat' first
    | (with_reducible assumption) | (intro) | (with_reducible apply State.refetch_keeps) | (with_reducible apply Keeps.forAll)
    | (with_reducible apply Keeps.ite2) | (with_reducible apply Keeps.ite)
    | (fail_if_no_progress ((with_reducible apply Keeps.record) <;> first | with_reducible rfl | skip)) | split | (dsimp only)

theorem State.setDocQueue_keeps {s0 s : State} (H : Keeps s0 s) (w : Wing) (core : Nat) (q : Nat) (x : DocQueue) :
    Keeps s0 (State.setDocQueue s w core q x) := by
  unfold State.setDocQueue
  repeat' first
    | (with_reducible assumption) | (intro) | (with_reducible apply Keeps.setDocOk) | (with_reducible apply DocOk.doc)
    | (fail_if_no_progress (with_reducible apply DocOk.record)) | (with_reducible apply Keeps.ite2)
    | (with_reducible apply Keeps.ite)
    | (fail_if_no_progress ((with_reducible apply Keeps.record) <;> first | with_reducible rfl | skip)) | split | (dsimp only)

theorem State.signalRecord_keeps {s0 s : State} (H : Keeps s0 s) (f : Fn) (sel : QSel) (irq : Bool) (atOnce : Bool) :
    Keeps s0 (State.signalRecord s f sel irq atOnce) := by
  unfold State.signalRecord
  repeat' first
    | (with_reducible assumption) | (intro) | (with_reducible apply State.sendMsix_keeps)
    | (with_reducible apply State.setQueue_keeps) | (with_reducible apply Keeps.ite2) | (with_reducible apply Keeps.ite)
    | (fail_if_no_progress ((with_reducible apply Keeps.record) <;> first | with_reducible rfl | skip)) | split | (dsimp only)

theorem State.putRecord_keeps {s0 s : State} (H : Keeps s0 s) (f : Fn) (sel : QSel) (r : Record) (irq : Bool) (atOnce : Bool) :
    Keeps s0 (State.putRecord s f sel r irq atOnce) := by
  unfold State.putRecord
  repeat' first
    | (with_reducible assumption) | (intro) | (with_reducible apply State.setQueue_keeps)
    | (with_reducible apply State.modFn_keeps) | (with_reducible apply State.signalRecord_keeps)
    | (with_reducible apply Keeps.emit) | (with_reducible apply Keeps.log) | (with_reducible apply Keeps.ite2)
    | (with_reducible apply Keeps.ite)
    | (fail_if_no_progress ((with_reducible apply Keeps.record) <;> first | with_reducible rfl | skip)) | split | (dsimp only)

theorem State.setReady_keeps {s0 s : State} (H : Keeps s0 s) (f : Fn) (v : Bool) :
    Keeps s0 (State.setReady s f v) := by
  unfold State.setReady
  repeat' first
    | (with_reducible assumption) | (intro) | (with_reducible apply State.raiseCause_keeps)
    | (with_reducible apply State.modFn_keeps) | (with_reducible apply Keeps.ite2) | (with_reducible apply Keeps.ite)
    | (fail_if_no_progress ((with_reducible apply Keeps.record) <;> first | with_reducible rfl | skip)) | split | (dsimp only)

theorem State.view_keeps {s0 s : State} (H : Keeps s0 s) (j : Job) :
    Keeps s0 (State.view s j) := by
  unfold State.view
  repeat' first
    | (with_reducible assumption) | (intro) | (with_reducible apply State.underPolicy_keeps) | (with_reducible apply Keeps.forAll)
    | (with_reducible apply Keeps.ite2) | (with_reducible apply Keeps.ite)
    | (fail_if_no_progress ((with_reducible apply Keeps.record) <;> first | with_reducible rfl | skip)) | split | (dsimp only)

theorem State.unview_keeps {s0 t : State} (H : Keeps s0 t) (s : State) :
    Keeps s0 (State.unview s t) := by
  unfold State.unview
  repeat' first
    | (with_reducible assumption) | (intro) | (with_reducible apply Keeps.ite2) | (with_reducible apply Keeps.ite)
    | (fail_if_no_progress ((with_reducible apply Keeps.record) <;> first | with_reducible rfl | skip)) | split | (dsimp only)

theorem State.setDrbg_keeps {s0 s : State} (H : Keeps s0 s) (d : Drbg) (x : DrbgState) :
    Keeps s0 (State.setDrbg s d x) := by
  unfold State.setDrbg
  repeat' first
    | (with_reducible assumption) | (intro) | (with_reducible apply Keeps.ite2) | (with_reducible apply Keeps.ite)
    | (fail_if_no_progress ((with_reducible apply Keeps.record) <;> first | with_reducible rfl | skip)) | split | (dsimp only)

theorem State.setMaskGen_keeps {s0 s : State} (H : Keeps s0 s) (m : MaskGen) (x : MaskState) :
    Keeps s0 (State.setMaskGen s m x) := by
  unfold State.setMaskGen
  repeat' first
    | (with_reducible assumption) | (intro) | (with_reducible apply Keeps.ite2) | (with_reducible apply Keeps.ite)
    | (fail_if_no_progress ((with_reducible apply Keeps.record) <;> first | with_reducible rfl | skip)) | split | (dsimp only)

theorem State.drawFrom_keeps {s0 s : State} (H : Keeps s0 s) (d : Drbg) (n : Nat) :
    Keeps s0 (State.drawFrom s d n).2 := by
  unfold State.drawFrom
  repeat' first
    | (with_reducible assumption) | (intro) | (with_reducible apply State.setDrbg_keeps) | (with_reducible apply Keeps.ite2)
    | (with_reducible apply Keeps.ite)
    | (fail_if_no_progress ((with_reducible apply Keeps.record) <;> first | with_reducible rfl | skip)) | split | (dsimp only)

theorem State.drawCurator_keeps {s0 s : State} (H : Keeps s0 s) (n : Nat) :
    Keeps s0 (State.drawCurator s n).2 := by
  unfold State.drawCurator
  repeat' first
    | (with_reducible assumption) | (intro) | (with_reducible apply State.drawFrom_keeps)
    | (with_reducible apply State.freeBytes_keeps) | (with_reducible apply Keeps.ite2) | (with_reducible apply Keeps.ite)
    | (fail_if_no_progress ((with_reducible apply Keeps.record) <;> first | with_reducible rfl | skip)) | split
    | (rename_i h; have hs := congrArg Prod.snd h; dsimp only at hs; subst hs)
    | (rename_i h _; have hs := congrArg Prod.snd h; dsimp only at hs; subst hs) | (dsimp only)

theorem State.setUnit_keeps {s0 s : State} (H : Keeps s0 s) (u : UnitId) (x : UnitState) :
    Keeps s0 (State.setUnit s u x) := by
  unfold State.setUnit
  repeat' first
    | (with_reducible assumption) | (intro) | (with_reducible apply Keeps.ite2) | (with_reducible apply Keeps.ite)
    | (fail_if_no_progress ((with_reducible apply Keeps.record) <;> first | with_reducible rfl | skip)) | split | (dsimp only)

theorem State.setChannel_keeps {s0 s : State} (H : Keeps s0 s) (c : Nat) (x : Channel) :
    Keeps s0 (State.setChannel s c x) := by
  unfold State.setChannel
  repeat' first
    | (with_reducible assumption) | (intro) | (with_reducible apply Keeps.ite2) | (with_reducible apply Keeps.ite)
    | (fail_if_no_progress ((with_reducible apply Keeps.record) <;> first | with_reducible rfl | skip)) | split | (dsimp only)

theorem State.setTile_keeps {s0 s : State} (H : Keeps s0 s) (t : TileId) (x : Tile) :
    Keeps s0 (State.setTile s t x) := by
  unfold State.setTile
  repeat' first
    | (with_reducible assumption) | (intro) | (with_reducible apply State.setStoreWing_keeps) | (with_reducible apply Keeps.ite2)
    | (with_reducible apply Keeps.ite)
    | (fail_if_no_progress ((with_reducible apply Keeps.record) <;> first | with_reducible rfl | skip)) | split | (dsimp only)

theorem State.setNode_keeps {s0 s : State} (H : Keeps s0 s) (w : Wing) (level : Nat) (n : Nat) (x : Node) :
    Keeps s0 (State.setNode s w level n x) := by
  unfold State.setNode
  repeat' first
    | (with_reducible assumption) | (intro) | (with_reducible apply State.setStoreWing_keeps) | (with_reducible apply Keeps.ite2)
    | (with_reducible apply Keeps.ite)
    | (fail_if_no_progress ((with_reducible apply Keeps.record) <;> first | with_reducible rfl | skip)) | split | (dsimp only)

theorem State.setRoot_keeps {s0 s : State} (H : Keeps s0 s) (w : Wing) (n : Nat) (version : Nat) :
    Keeps s0 (State.setRoot s w n version) := by
  unfold State.setRoot
  repeat' first
    | (with_reducible assumption) | (intro) | (with_reducible apply State.setStoreWing_keeps) | (with_reducible apply Keeps.ite2)
    | (with_reducible apply Keeps.ite)
    | (fail_if_no_progress ((with_reducible apply Keeps.record) <;> first | with_reducible rfl | skip)) | split | (dsimp only)

theorem State.dirtyNode_keeps {s0 s : State} (H : Keeps s0 s) (w : Wing) (level : Nat) (n : Nat) :
    Keeps s0 (State.dirtyNode s w level n) := by
  unfold State.dirtyNode
  repeat' first
    | (with_reducible assumption) | (intro) | (with_reducible apply State.setNode_keeps)
    | (with_reducible apply State.setStoreWing_keeps) | (with_reducible apply Keeps.ite2) | (with_reducible apply Keeps.ite)
    | (fail_if_no_progress ((with_reducible apply Keeps.record) <;> first | with_reducible rfl | skip)) | split | (dsimp only)

theorem State.writeBack_keeps {s0 s : State} (H : Keeps s0 s) (w : Wing) (level : Nat) (n : Nat) :
    Keeps s0 (State.writeBack s w level n) := by
  unfold State.writeBack
  repeat' first
    | (with_reducible assumption) | (intro) | (with_reducible apply State.setNode_keeps)
    | (with_reducible apply State.setRoot_keeps) | (with_reducible apply State.dirtyNode_keeps) | (with_reducible apply Keeps.ite2)
    | (with_reducible apply Keeps.ite)
    | (fail_if_no_progress ((with_reducible apply Keeps.record) <;> first | with_reducible rfl | skip)) | split | (dsimp only)

theorem State.evictNode_keeps {s0 s : State} (H : Keeps s0 s) (w : Wing) :
    Keeps s0 (State.evictNode s w) := by
  unfold State.evictNode
  repeat' first
    | (with_reducible assumption) | (intro) | (with_reducible apply State.writeBack_keeps)
    | (with_reducible apply State.setStoreWing_keeps) | (with_reducible apply Keeps.ite2) | (with_reducible apply Keeps.ite)
    | (fail_if_no_progress ((with_reducible apply Keeps.record) <;> first | with_reducible rfl | skip)) | split | (dsimp only)

theorem State.cachePath_keeps {s0 s : State} (H : Keeps s0 s) (t : TileId) :
    Keeps s0 (State.cachePath s t) := by
  unfold State.cachePath
  repeat' first
    | (with_reducible assumption) | (intro) | (with_reducible apply State.setNode_keeps)
    | (with_reducible apply State.setStoreWing_keeps) | (with_reducible apply State.evictNode_keeps)
    | (with_reducible apply Keeps.forAll) | (with_reducible apply Keeps.ite2) | (with_reducible apply Keeps.ite)
    | (fail_if_no_progress ((with_reducible apply Keeps.record) <;> first | with_reducible rfl | skip)) | split | (dsimp only)

theorem State.writeTile_keeps {s0 s : State} (H : Keeps s0 s) (t : TileId) (data : List Byte) :
    Keeps s0 (State.writeTile s t data) := by
  unfold State.writeTile
  repeat' first
    | (with_reducible assumption) | (intro) | (with_reducible apply State.setTile_keeps)
    | (with_reducible apply State.dirtyNode_keeps) | (with_reducible apply State.cachePath_keeps)
    | (with_reducible apply Keeps.ite2) | (with_reducible apply Keeps.ite)
    | (fail_if_no_progress ((with_reducible apply Keeps.record) <;> first | with_reducible rfl | skip)) | split | (dsimp only)

theorem State.moveHome_keeps {s0 s : State} (H : Keeps s0 s) (t : TileId) :
    Keeps s0 (State.moveHome s t) := by
  unfold State.moveHome
  repeat' first
    | (with_reducible assumption) | (intro) | (with_reducible apply State.setTile_keeps) | (with_reducible apply Keeps.ite2)
    | (with_reducible apply Keeps.ite)
    | (fail_if_no_progress ((with_reducible apply Keeps.record) <;> first | with_reducible rfl | skip)) | split | (dsimp only)

theorem State.putTile_keeps {s0 s : State} (H : Keeps s0 s) (t : TileId) (data : List Byte) :
    Keeps s0 (State.putTile s t data) := by
  unfold State.putTile
  repeat' first
    | (with_reducible assumption) | (intro) | (with_reducible apply State.writeTile_keeps)
    | (with_reducible apply State.moveHome_keeps) | (with_reducible apply Keeps.ite2) | (with_reducible apply Keeps.ite)
    | (fail_if_no_progress ((with_reducible apply Keeps.record) <;> first | with_reducible rfl | skip)) | split | (dsimp only)

theorem State.writeSpan_keeps {s0 s : State} (H : Keeps s0 s) (w : Wing) (off : Nat) (bytes : List Byte) :
    Keeps s0 (State.writeSpan s w off bytes) := by
  unfold State.writeSpan
  repeat' first
    | (with_reducible assumption) | (intro) | (with_reducible apply State.putTile_keeps) | (with_reducible apply Keeps.forAll)
    | (with_reducible apply Keeps.ite2) | (with_reducible apply Keeps.ite)
    | (fail_if_no_progress ((with_reducible apply Keeps.record) <;> first | with_reducible rfl | skip)) | split | (dsimp only)

theorem State.docentWrite_keeps {s0 s : State} (H : Keeps s0 s) (w : Wing) (off : Nat) (bytes : List Byte) :
    Keeps s0 (State.docentWrite s w off bytes) := by
  unfold State.docentWrite
  repeat' first
    | (with_reducible assumption) | (intro) | (with_reducible apply State.writeSpan_keeps) | (with_reducible apply Keeps.ite2)
    | (with_reducible apply Keeps.ite)
    | (fail_if_no_progress ((with_reducible apply Keeps.record) <;> first | with_reducible rfl | skip)) | split | (dsimp only)

theorem State.writeMirrored_keeps {s0 s : State} (H : Keeps s0 s) (off : Nat) (bytes : List Byte) :
    Keeps s0 (State.writeMirrored s off bytes) := by
  unfold State.writeMirrored
  repeat' first
    | (with_reducible assumption) | (intro) | (with_reducible apply State.setStoreWing_keeps)
    | (with_reducible apply State.writeSpan_keeps) | (with_reducible apply Keeps.forAll) | (with_reducible apply Keeps.ite2)
    | (with_reducible apply Keeps.ite)
    | (fail_if_no_progress ((with_reducible apply Keeps.record) <;> first | with_reducible rfl | skip)) | split | (dsimp only)

theorem State.sizeRegions_keeps {s0 s : State} (H : Keeps s0 s)  :
    Keeps s0 (State.sizeRegions s) := by
  unfold State.sizeRegions
  repeat' first
    | (with_reducible assumption) | (intro) | (with_reducible apply State.writeTile_keeps) | (with_reducible apply Keeps.forAll)
    | (with_reducible apply Keeps.ite2) | (with_reducible apply Keeps.ite)
    | (fail_if_no_progress ((with_reducible apply Keeps.record) <;> first | with_reducible rfl | skip)) | split | (dsimp only)

theorem State.latchFail_keeps {s0 s : State} (H : Keeps s0 s) (kind : Nat) (w : Wing) (level : Nat) (num : Nat) :
    Keeps s0 (State.latchFail s kind w level num) := by
  unfold State.latchFail
  repeat' first
    | (with_reducible assumption) | (intro) | (with_reducible apply Keeps.ite2) | (with_reducible apply Keeps.ite)
    | (fail_if_no_progress ((with_reducible apply Keeps.record) <;> first | with_reducible rfl | skip)) | split | (dsimp only)

theorem State.markRepaired_keeps {s0 s : State} (H : Keeps s0 s) (t : TileId) :
    Keeps s0 (State.markRepaired s t) := by
  unfold State.markRepaired
  repeat' first
    | (with_reducible assumption) | (intro) | (with_reducible apply Keeps.ite2) | (with_reducible apply Keeps.ite)
    | (fail_if_no_progress ((with_reducible apply Keeps.record) <;> first | with_reducible rfl | skip)) | split | (dsimp only)

theorem State.countCe_keeps {s0 s : State} (H : Keeps s0 s) (t : TileId) :
    Keeps s0 (State.countCe s t) := by
  unfold State.countCe
  repeat' first
    | (with_reducible assumption) | (intro) | (with_reducible apply State.setTile_keeps)
    | (with_reducible apply State.setChannel_keeps) | (with_reducible apply Keeps.ite2) | (with_reducible apply Keeps.ite)
    | (fail_if_no_progress ((with_reducible apply Keeps.record) <;> first | with_reducible rfl | skip)) | split | (dsimp only)

theorem State.countUe_keeps {s0 s : State} (H : Keeps s0 s) (t : TileId) :
    Keeps s0 (State.countUe s t) := by
  unfold State.countUe
  repeat' first
    | (with_reducible assumption) | (intro) | (with_reducible apply State.setChannel_keeps) | (with_reducible apply Keeps.ite2)
    | (with_reducible apply Keeps.ite)
    | (fail_if_no_progress ((with_reducible apply Keeps.record) <;> first | with_reducible rfl | skip)) | split | (dsimp only)

theorem State.mediaFailure_keeps {s0 s : State} (H : Keeps s0 s) (t : TileId) (level : Nat) :
    Keeps s0 (State.mediaFailure s t level) := by
  unfold State.mediaFailure
  repeat' first
    | (with_reducible assumption) | (intro) | (with_reducible apply State.latchFail_keeps)
    | (with_reducible apply State.countUe_keeps) | (with_reducible apply State.setTile_keeps) | (with_reducible apply Keeps.log)
    | (with_reducible apply Keeps.ite2) | (with_reducible apply Keeps.ite)
    | (fail_if_no_progress ((with_reducible apply Keeps.record) <;> first | with_reducible rfl | skip)) | split | (dsimp only)

theorem State.integrityFailure_keeps {s0 s : State} (H : Keeps s0 s) (t : TileId) (stale_ : Bool) (level : Nat) :
    Keeps s0 (State.integrityFailure s t stale_ level) := by
  unfold State.integrityFailure
  repeat' first
    | (with_reducible assumption) | (intro) | (with_reducible apply State.latchFail_keeps)
    | (with_reducible apply State.setTile_keeps) | (with_reducible apply Keeps.log) | (with_reducible apply Keeps.ite2)
    | (with_reducible apply Keeps.ite)
    | (fail_if_no_progress ((with_reducible apply Keeps.record) <;> first | with_reducible rfl | skip)) | split | (dsimp only)

theorem State.storeFailure_keeps {s0 s : State} (H : Keeps s0 s) (t : TileId) (st : Byte) (level : Nat) :
    Keeps s0 (State.storeFailure s t st level) := by
  unfold State.storeFailure
  repeat' first
    | (with_reducible assumption) | (intro) | (with_reducible apply State.mediaFailure_keeps)
    | (with_reducible apply State.integrityFailure_keeps) | (with_reducible apply Keeps.ite2) | (with_reducible apply Keeps.ite)
    | (fail_if_no_progress ((with_reducible apply Keeps.record) <;> first | with_reducible rfl | skip)) | split | (dsimp only)

theorem State.recordFetch_keeps {s0 s : State} (H : Keeps s0 s) (t : TileId) (f : TileFetch) :
    Keeps s0 (State.recordFetch s t f) := by
  unfold State.recordFetch
  repeat' first
    | (with_reducible assumption) | (intro) | (with_reducible apply State.countCe_keeps)
    | (with_reducible apply State.storeFailure_keeps) | (with_reducible apply Keeps.forAll) | (with_reducible apply Keeps.ite2)
    | (with_reducible apply Keeps.ite)
    | (fail_if_no_progress ((with_reducible apply Keeps.record) <;> first | with_reducible rfl | skip)) | split | (dsimp only)

theorem State.gateRead_keeps {s0 s : State} (H : Keeps s0 s) (t : TileId) :
    Keeps s0 (State.gateRead s t).2 := by
  unfold State.gateRead
  repeat' first
    | (with_reducible assumption) | (intro) | (with_reducible apply State.recordFetch_keeps)
    | (with_reducible apply State.cachePath_keeps) | (with_reducible apply Keeps.ite2) | (with_reducible apply Keeps.ite)
    | (fail_if_no_progress ((with_reducible apply Keeps.record) <;> first | with_reducible rfl | skip)) | split | (dsimp only)

theorem State.gateReads_keeps {s0 s : State} (H : Keeps s0 s) (u0 : List TileId) :
    Keeps s0 (State.gateReads s u0).2 := by
  induction u0 generalizing s with
  | nil => exact H
  | cons t r ih =>
    unfold State.gateReads
    repeat' first
      | (with_reducible assumption) | (with_reducible apply ih) | (with_reducible apply State.gateRead_keeps)
      | (with_reducible apply Keeps.ite2) | (dsimp only)

end Sys2Proof.Machine
end

