-- ==== Sys2Proof/Laws/KeepsFns.lean ====
section
/-! SUPPORT. What the engines and the Registrar do keeps what `Keeps` says: one lemma per operation. -/

set_option linter.all false

open Host

namespace Sys2Proof.Machine

theorem failed_keeps {s0 s : State} (H : Keeps s0 s) (st : Byte) :
    Keeps s0 (failed st s).2 := by
  unfold failed
  repeat' first
    | (with_reducible assumption) | (intro) | (with_reducible apply Keeps.ite2) | (with_reducible apply Keeps.ite)
    | (fail_if_no_progress ((with_reducible apply Keeps.record) <;> first | with_reducible rfl | skip)) | split | (dsimp only)

theorem verdict_keeps {s0 s : State} (H : Keeps s0 s) (pass : Bool) :
    Keeps s0 (verdict pass s).2 := by
  unfold verdict
  repeat' first
    | (with_reducible assumption) | (intro) | (with_reducible apply Keeps.ite2) | (with_reducible apply Keeps.ite)
    | (fail_if_no_progress ((with_reducible apply Keeps.record) <;> first | with_reducible rfl | skip)) | split | (dsimp only)

theorem pubOut_keeps {s0 s : State} (H : Keeps s0 s) (outs : List (List Byte)) :
    Keeps s0 (pubOut outs s).2 := by
  unfold pubOut
  repeat' first
    | (with_reducible assumption) | (intro) | (with_reducible apply Keeps.ite2) | (with_reducible apply Keeps.ite)
    | (fail_if_no_progress ((with_reducible apply Keeps.record) <;> first | with_reducible rfl | skip)) | split | (dsimp only)

theorem withOut_keeps {s0 s : State} (H : Keeps s0 s) (o : Except Byte OutVal) (f : OutVal → List OutVal) :
    Keeps s0 (withOut o f s).2 := by
  unfold withOut
  repeat' first
    | (with_reducible assumption) | (intro) | (with_reducible apply failed_keeps) | (with_reducible apply Keeps.ite2)
    | (with_reducible apply Keeps.ite)
    | (fail_if_no_progress ((with_reducible apply Keeps.record) <;> first | with_reducible rfl | skip)) | split
    | (rename_i h; have hs := congrArg Prod.snd h; dsimp only at hs; subst hs)
    | (rename_i h _; have hs := congrArg Prod.snd h; dsimp only at hs; subst hs) | (dsimp only)

theorem Ctx.draw_keeps {s0 s : State} (H : Keeps s0 s) (c : Ctx) (n : Nat) :
    Keeps s0 (Ctx.draw c n s).2 := by
  unfold Ctx.draw
  repeat' first
    | (with_reducible assumption) | (intro) | (with_reducible apply State.drawFrom_keeps) | (with_reducible apply Keeps.ite2)
    | (with_reducible apply Keeps.ite)
    | (fail_if_no_progress ((with_reducible apply Keeps.record) <;> first | with_reducible rfl | skip)) | split
    | (rename_i h; have hs := congrArg Prod.snd h; dsimp only at hs; subst hs)
    | (rename_i h _; have hs := congrArg Prod.snd h; dsimp only at hs; subst hs) | (dsimp only)

theorem mlkemEncapsulate_keeps {s0 s : State} (H : Keeps s0 s) (c : Ctx) (ek : List Byte) :
    Keeps s0 (mlkemEncapsulate c ek s).2 := by
  unfold mlkemEncapsulate
  repeat' first
    | (with_reducible assumption) | (intro) | (with_reducible apply Ctx.draw_keeps) | (with_reducible apply withOut_keeps)
    | (with_reducible apply Keeps.ite2) | (with_reducible apply Keeps.ite)
    | (fail_if_no_progress ((with_reducible apply Keeps.record) <;> first | with_reducible rfl | skip)) | split
    | (rename_i h; have hs := congrArg Prod.snd h; dsimp only at hs; subst hs)
    | (rename_i h _; have hs := congrArg Prod.snd h; dsimp only at hs; subst hs) | (dsimp only)

theorem mldsaSignature_keeps {s0 s : State} (H : Keeps s0 s) (c : Ctx) (sel : Nat) (opts : Nat) (key : CatRecord) (msg : List Byte) (ctx : List Byte) :
    Keeps s0 (mldsaSignature c sel opts key msg ctx s).2 := by
  unfold mldsaSignature
  repeat' first
    | (with_reducible assumption) | (intro) | (with_reducible apply Ctx.draw_keeps) | (with_reducible apply Keeps.ite2)
    | (with_reducible apply Keeps.ite)
    | (fail_if_no_progress ((with_reducible apply Keeps.record) <;> first | with_reducible rfl | skip)) | split
    | (rename_i h; have hs := congrArg Prod.snd h; dsimp only at hs; subst hs)
    | (rename_i h _; have hs := congrArg Prod.snd h; dsimp only at hs; subst hs) | (dsimp only)

theorem fndsaAttempts_keeps {s0 u1 : State} (H : Keeps s0 u1) (c : Ctx) (u0 : Nat) :
    Keeps s0 (fndsaAttempts c u0 u1).2 := by
  induction u0 generalizing u1 with
  | zero => exact H
  | succ k ih =>
    unfold fndsaAttempts
    repeat' first
      | (with_reducible assumption) | (with_reducible apply ih) | (with_reducible apply Ctx.draw_keeps) | (with_reducible apply failed_keeps)
      | (with_reducible apply Keeps.ite2) | (with_reducible apply Keeps.ite) | split | (dsimp only)

theorem State.dropGens_keeps {s0 s : State} (H : Keeps s0 s) (n : Nat) :
    Keeps s0 (State.dropGens s n) := by
  unfold State.dropGens
  repeat' first
    | (with_reducible assumption) | (intro) | (with_reducible apply State.setSlot_keeps) | (with_reducible apply Keeps.ite2)
    | (with_reducible apply Keeps.ite)
    | (fail_if_no_progress ((with_reducible apply Keeps.record) <;> first | with_reducible rfl | skip)) | split | (dsimp only)

theorem State.dropTrees_keeps {s0 s : State} (H : Keeps s0 s) (n : Nat) :
    Keeps s0 (State.dropTrees s n) := by
  unfold State.dropTrees
  repeat' first
    | (with_reducible assumption) | (intro) | (with_reducible apply State.setSlot_keeps)
    | (with_reducible apply State.dropGens_keeps) | (with_reducible apply Keeps.ite2) | (with_reducible apply Keeps.ite)
    | (fail_if_no_progress ((with_reducible apply Keeps.record) <;> first | with_reducible rfl | skip)) | split | (dsimp only)

theorem State.dropGensOn_keeps {s0 s : State} (H : Keeps s0 s) (p : Nat → Bool) :
    Keeps s0 (State.dropGensOn s p) := by
  unfold State.dropGensOn
  repeat' first
    | (with_reducible assumption) | (intro) | (with_reducible apply State.dropGens_keeps) | (with_reducible apply Keeps.forAll)
    | (with_reducible apply Keeps.ite2) | (with_reducible apply Keeps.ite)
    | (fail_if_no_progress ((with_reducible apply Keeps.record) <;> first | with_reducible rfl | skip)) | split | (dsimp only)

theorem mceEncapsulate_keeps {s0 s : State} (H : Keeps s0 s) (c : Ctx) (pk : List Byte) :
    Keeps s0 (mceEncapsulate c pk s).2 := by
  unfold mceEncapsulate
  repeat' first
    | (with_reducible assumption) | (intro) | (with_reducible apply Ctx.draw_keeps) | (with_reducible apply withOut_keeps)
    | (with_reducible apply Keeps.ite2) | (with_reducible apply Keeps.ite)
    | (fail_if_no_progress ((with_reducible apply Keeps.record) <;> first | with_reducible rfl | skip)) | split
    | (rename_i h; have hs := congrArg Prod.snd h; dsimp only at hs; subst hs)
    | (rename_i h _; have hs := congrArg Prod.snd h; dsimp only at hs; subst hs) | (dsimp only)

theorem State.reside_keeps {s0 s : State} (H : Keeps s0 s) (n : Nat) (g : Nat) (key : Option (Nat × Nat × Nat)) :
    Keeps s0 (State.reside s n g key) := by
  unfold State.reside
  repeat' first
    | (with_reducible assumption) | (intro) | (with_reducible apply State.setGal_keeps) | (with_reducible apply Keeps.ite2)
    | (with_reducible apply Keeps.ite)
    | (fail_if_no_progress ((with_reducible apply Keeps.record) <;> first | with_reducible rfl | skip)) | split | (dsimp only)

theorem State.unreside_keeps {s0 s : State} (H : Keeps s0 s) (n : Nat) (g : Nat) (key : Nat × Nat × Nat) :
    Keeps s0 (State.unreside s n g key) := by
  unfold State.unreside
  repeat' first
    | (with_reducible assumption) | (intro) | (with_reducible apply State.setGal_keeps) | (with_reducible apply State.reside_keeps)
    | (with_reducible apply Keeps.ite2) | (with_reducible apply Keeps.ite)
    | (fail_if_no_progress ((with_reducible apply Keeps.record) <;> first | with_reducible rfl | skip)) | split | (dsimp only)

theorem hqcEncapsulate_keeps {s0 s : State} (H : Keeps s0 s) (c : Ctx) (pk : List Byte) :
    Keeps s0 (hqcEncapsulate c pk s).2 := by
  unfold hqcEncapsulate
  repeat' first
    | (with_reducible assumption) | (intro) | (with_reducible apply Ctx.draw_keeps) | (with_reducible apply withOut_keeps)
    | (with_reducible apply Keeps.ite2) | (with_reducible apply Keeps.ite)
    | (fail_if_no_progress ((with_reducible apply Keeps.record) <;> first | with_reducible rfl | skip)) | split
    | (rename_i h; have hs := congrArg Prod.snd h; dsimp only at hs; subst hs)
    | (rename_i h _; have hs := congrArg Prod.snd h; dsimp only at hs; subst hs) | (dsimp only)

theorem State.setEntry_keeps {s0 s : State} (H : Keeps s0 s) (r : CatRecord) :
    Keeps s0 (State.setEntry s r) := by
  unfold State.setEntry
  repeat' first
    | (with_reducible assumption) | (intro) | (with_reducible apply Keeps.ite2) | (with_reducible apply Keeps.ite)
    | (fail_if_no_progress ((with_reducible apply Keeps.record) <;> first | with_reducible rfl | skip)) | split | (dsimp only)

theorem State.writeCatalogue_keeps {s0 s : State} (H : Keeps s0 s) (off : Nat) (bytes : List Byte) :
    Keeps s0 (State.writeCatalogue s off bytes) := by
  unfold State.writeCatalogue
  repeat' first
    | (with_reducible assumption) | (intro) | (with_reducible apply State.writeMirrored_keeps) | (with_reducible apply Keeps.ite2)
    | (with_reducible apply Keeps.ite)
    | (fail_if_no_progress ((with_reducible apply Keeps.record) <;> first | with_reducible rfl | skip)) | split | (dsimp only)

theorem State.storeRecord_keeps {s0 s : State} (H : Keeps s0 s) (r : CatRecord) (whole : Bool) :
    Keeps s0 (State.storeRecord s r whole) := by
  unfold State.storeRecord
  repeat' first
    | (with_reducible assumption) | (intro) | (with_reducible apply State.writeCatalogue_keeps) | (with_reducible apply Keeps.ite2)
    | (with_reducible apply Keeps.ite)
    | (fail_if_no_progress ((with_reducible apply Keeps.record) <;> first | with_reducible rfl | skip)) | split | (dsimp only)

theorem State.lendRead_keeps {s0 s : State} (H : Keeps s0 s) (w : Wing) (r : CatRecord) :
    Keeps s0 (State.lendRead s w r).2 := by
  unfold State.lendRead
  repeat' first
    | (with_reducible assumption) | (intro) | (with_reducible apply State.gateReads_keeps) | (with_reducible apply Keeps.ite2)
    | (with_reducible apply Keeps.ite)
    | (fail_if_no_progress ((with_reducible apply Keeps.record) <;> first | with_reducible rfl | skip)) | split
    | (rename_i h; have hs := congrArg Prod.snd h; dsimp only at hs; subst hs)
    | (rename_i h _; have hs := congrArg Prod.snd h; dsimp only at hs; subst hs) | (dsimp only)

theorem State.touchCache_keeps {s0 s : State} (H : Keeps s0 s) (w : Wing) (key : Nat) :
    Keeps s0 (State.touchCache s w key) := by
  unfold State.touchCache
  repeat' first
    | (with_reducible assumption) | (intro) | (with_reducible apply Keeps.ite2) | (with_reducible apply Keeps.ite)
    | (fail_if_no_progress ((with_reducible apply Keeps.record) <;> first | with_reducible rfl | skip)) | split | (dsimp only)

theorem State.trimCaches_keeps {s0 s : State} (H : Keeps s0 s)  :
    Keeps s0 (State.trimCaches s) := by
  unfold State.trimCaches
  repeat' first
    | (with_reducible assumption) | (intro) | (with_reducible apply Keeps.ite2) | (with_reducible apply Keeps.ite)
    | (fail_if_no_progress ((with_reducible apply Keeps.record) <;> first | with_reducible rfl | skip)) | split | (dsimp only)

theorem State.invalidateCache_keeps {s0 s : State} (H : Keeps s0 s) (key : Nat) :
    Keeps s0 (State.invalidateCache s key) := by
  unfold State.invalidateCache
  repeat' first
    | (with_reducible assumption) | (intro) | (with_reducible apply Keeps.ite2) | (with_reducible apply Keeps.ite)
    | (fail_if_no_progress ((with_reducible apply Keeps.record) <;> first | with_reducible rfl | skip)) | split | (dsimp only)

theorem State.closeSeal_keeps {s0 s : State} (H : Keeps s0 s) (loss : Bool) :
    Keeps s0 (State.closeSeal s loss) := by
  unfold State.closeSeal
  repeat' first
    | (with_reducible assumption) | (intro) | (with_reducible apply Keeps.ite2) | (with_reducible apply Keeps.ite)
    | (fail_if_no_progress ((with_reducible apply Keeps.record) <;> first | with_reducible rfl | skip)) | split | (dsimp only)

theorem State.sealRoom_keeps {s0 s : State} (H : Keeps s0 s) (r : SealRecord) :
    Keeps s0 (State.sealRoom s r) := by
  unfold State.sealRoom
  repeat' first
    | (with_reducible assumption) | (intro) | (with_reducible apply State.closeSeal_keeps) | (with_reducible apply Keeps.ite2)
    | (with_reducible apply Keeps.ite)
    | (fail_if_no_progress ((with_reducible apply Keeps.record) <;> first | with_reducible rfl | skip)) | split | (dsimp only)

theorem State.journalAdd_keeps {s0 s : State} (H : Keeps s0 s) (r : SealRecord) (deaccession : Bool) :
    Keeps s0 (State.journalAdd s r deaccession) := by
  unfold State.journalAdd
  repeat' first
    | (with_reducible assumption) | (intro) | (with_reducible apply State.sealRoom_keeps)
    | (with_reducible apply State.closeSeal_keeps) | (with_reducible apply Keeps.ite2) | (with_reducible apply Keeps.ite)
    | (fail_if_no_progress ((with_reducible apply Keeps.record) <;> first | with_reducible rfl | skip)) | split | (dsimp only)

theorem State.journalRecord_keeps {s0 s : State} (H : Keeps s0 s) (r : CatRecord) (whole : Bool) (deaccession : Bool) :
    Keeps s0 (State.journalRecord s r whole deaccession) := by
  unfold State.journalRecord
  repeat' first
    | (with_reducible assumption) | (intro) | (with_reducible apply State.sealRoom_keeps)
    | (with_reducible apply State.journalAdd_keeps) | (with_reducible apply State.storeRecord_keeps)
    | (with_reducible apply State.trimCaches_keeps) | (with_reducible apply State.setEntry_keeps)
    | (with_reducible apply State.invalidateCache_keeps) | (with_reducible apply Keeps.ite2) | (with_reducible apply Keeps.ite)
    | (fail_if_no_progress ((with_reducible apply Keeps.record) <;> first | with_reducible rfl | skip)) | split | (dsimp only)

theorem State.journalState_keeps {s0 s : State} (H : Keeps s0 s) (coll : Nat) (index : Nat) (deaccession : Bool) :
    Keeps s0 (State.journalState s coll index deaccession) := by
  unfold State.journalState
  repeat' first
    | (with_reducible assumption) | (intro) | (with_reducible apply State.journalRecord_keeps) | (with_reducible apply Keeps.ite2)
    | (with_reducible apply Keeps.ite)
    | (fail_if_no_progress ((with_reducible apply Keeps.record) <;> first | with_reducible rfl | skip)) | split | (dsimp only)

theorem State.ledgerPut_keeps {s0 s : State} (H : Keeps s0 s) (e : Option LogEntry) :
    Keeps s0 (State.ledgerPut s e) := by
  unfold State.ledgerPut
  repeat' first
    | (with_reducible assumption) | (intro) | (with_reducible apply Keeps.ite2) | (with_reducible apply Keeps.ite)
    | (fail_if_no_progress ((with_reducible apply Keeps.record) <;> first | with_reducible rfl | skip)) | split | (dsimp only)

theorem State.ledgerLog_keeps {s0 s : State} (H : Keeps s0 s) (e : LogEntry) :
    Keeps s0 (State.ledgerLog s e) := by
  unfold State.ledgerLog
  repeat' first
    | (with_reducible assumption) | (intro) | (with_reducible apply State.ledgerPut_keeps) | (with_reducible apply Keeps.ite2)
    | (with_reducible apply Keeps.ite)
    | (fail_if_no_progress ((with_reducible apply Keeps.record) <;> first | with_reducible rfl | skip)) | split | (dsimp only)

theorem State.closeSlot_keeps {s0 s : State} (H : Keeps s0 s) (n : Nat) (retire : Bool) :
    Keeps s0 (State.closeSlot s n retire) := by
  unfold State.closeSlot
  repeat' first
    | (with_reducible assumption) | (intro) | (with_reducible apply State.dropGens_keeps)
    | (with_reducible apply State.ledgerLog_keeps) | (with_reducible apply State.setSlot_keeps) | (with_reducible apply Keeps.ite2)
    | (with_reducible apply Keeps.ite)
    | (fail_if_no_progress ((with_reducible apply Keeps.record) <;> first | with_reducible rfl | skip)) | split | (dsimp only)

theorem State.closeSlotOf_keeps {s0 s : State} (H : Keeps s0 s) (r : CatRecord) (retire : Bool) :
    Keeps s0 (State.closeSlotOf s r retire) := by
  unfold State.closeSlotOf
  repeat' first
    | (with_reducible assumption) | (intro) | (with_reducible apply State.closeSlot_keeps) | (with_reducible apply Keeps.ite2)
    | (with_reducible apply Keeps.ite)
    | (fail_if_no_progress ((with_reducible apply Keeps.record) <;> first | with_reducible rfl | skip)) | split | (dsimp only)

theorem State.evict_keeps {s0 s : State} (H : Keeps s0 s) (key : Nat × Nat × Nat) :
    Keeps s0 (State.evict s key) := by
  unfold State.evict
  repeat' first
    | (with_reducible assumption) | (intro) | (with_reducible apply State.setGal_keeps) | (with_reducible apply Keeps.forAll)
    | (with_reducible apply Keeps.ite2) | (with_reducible apply Keeps.ite)
    | (fail_if_no_progress ((with_reducible apply Keeps.record) <;> first | with_reducible rfl | skip)) | split | (dsimp only)

theorem State.destroyMaterial_keeps {s0 s : State} (H : Keeps s0 s) (r : CatRecord) :
    Keeps s0 (State.destroyMaterial s r) := by
  unfold State.destroyMaterial
  repeat' first
    | (with_reducible assumption) | (intro) | (with_reducible apply State.setEntry_keeps) | (with_reducible apply Keeps.ite2)
    | (with_reducible apply Keeps.ite)
    | (fail_if_no_progress ((with_reducible apply Keeps.record) <;> first | with_reducible rfl | skip)) | split | (dsimp only)

theorem State.lastReturn_keeps {s0 s : State} (H : Keeps s0 s) (r : CatRecord) :
    Keeps s0 (State.lastReturn s r) := by
  unfold State.lastReturn
  repeat' first
    | (with_reducible assumption) | (intro) | (with_reducible apply State.journalState_keeps)
    | (with_reducible apply State.closeSlotOf_keeps) | (with_reducible apply State.evict_keeps)
    | (with_reducible apply State.destroyMaterial_keeps) | (with_reducible apply Keeps.ite2) | (with_reducible apply Keeps.ite)
    | (fail_if_no_progress ((with_reducible apply Keeps.record) <;> first | with_reducible rfl | skip)) | split | (dsimp only)

theorem State.lastReplaced_keeps {s0 s : State} (H : Keeps s0 s) (l : Loan) :
    Keeps s0 (State.lastReplaced s l) := by
  unfold State.lastReplaced
  repeat' first
    | (with_reducible assumption) | (intro) | (with_reducible apply State.closeSlotOf_keeps)
    | (with_reducible apply State.evict_keeps) | (with_reducible apply Keeps.ite2) | (with_reducible apply Keeps.ite)
    | (fail_if_no_progress ((with_reducible apply Keeps.record) <;> first | with_reducible rfl | skip)) | split | (dsimp only)

theorem State.returnLoan_keeps {s0 s : State} (H : Keeps s0 s) (n : Nat) :
    Keeps s0 (State.returnLoan s n) := by
  unfold State.returnLoan
  repeat' first
    | (with_reducible assumption) | (intro) | (with_reducible apply State.lastReturn_keeps)
    | (with_reducible apply State.lastReplaced_keeps) | (with_reducible apply Keeps.ite2) | (with_reducible apply Keeps.ite)
    | (fail_if_no_progress ((with_reducible apply Keeps.record) <;> first | with_reducible rfl | skip)) | split | (dsimp only)

theorem State.invalidate_keeps {s0 s : State} (H : Keeps s0 s) (r : CatRecord) (revoked : Bool) :
    Keeps s0 (State.invalidate s r revoked) := by
  unfold State.invalidate
  repeat' first
    | (with_reducible assumption) | (intro) | (with_reducible apply Keeps.ite2) | (with_reducible apply Keeps.ite)
    | (fail_if_no_progress ((with_reducible apply Keeps.record) <;> first | with_reducible rfl | skip)) | split | (dsimp only)

theorem State.withdrawEntry_keeps {s0 s : State} (H : Keeps s0 s) (r : CatRecord) (seal_ : Bool) :
    Keeps s0 (State.withdrawEntry s r seal_) := by
  unfold State.withdrawEntry
  repeat' first
    | (with_reducible assumption) | (intro) | (with_reducible apply State.invalidate_keeps)
    | (with_reducible apply State.setEntry_keeps) | (with_reducible apply State.invalidateCache_keeps)
    | (with_reducible apply State.closeSlotOf_keeps) | (with_reducible apply State.evict_keeps)
    | (with_reducible apply State.destroyMaterial_keeps) | (with_reducible apply State.journalState_keeps)
    | (with_reducible apply Keeps.ite2) | (with_reducible apply Keeps.ite)
    | (fail_if_no_progress ((with_reducible apply Keeps.record) <;> first | with_reducible rfl | skip)) | split | (dsimp only)

theorem State.markRevoked_keeps {s0 s : State} (H : Keeps s0 s) (coll : Nat) (index : Nat) (gen : Nat) :
    Keeps s0 (State.markRevoked s coll index gen) := by
  unfold State.markRevoked
  repeat' first
    | (with_reducible assumption) | (intro) | (with_reducible apply Keeps.forAll) | (with_reducible apply Keeps.ite2)
    | (with_reducible apply Keeps.ite)
    | (fail_if_no_progress ((with_reducible apply Keeps.record) <;> first | with_reducible rfl | skip)) | split | (dsimp only)

theorem State.revokeEntry_keeps {s0 s : State} (H : Keeps s0 s) (r : CatRecord) (job : Option Nat) :
    Keeps s0 (State.revokeEntry s r job) := by
  unfold State.revokeEntry
  repeat' first
    | (with_reducible assumption) | (intro) | (with_reducible apply State.markRevoked_keeps)
    | (with_reducible apply State.invalidate_keeps) | (with_reducible apply State.setEntry_keeps)
    | (with_reducible apply State.invalidateCache_keeps) | (with_reducible apply State.closeSlotOf_keeps)
    | (with_reducible apply State.evict_keeps) | (with_reducible apply State.destroyMaterial_keeps)
    | (with_reducible apply State.closeSeal_keeps) | (with_reducible apply State.journalState_keeps)
    | (with_reducible apply Keeps.forAll) | (with_reducible apply Keeps.emit) | (with_reducible apply Keeps.ite2)
    | (with_reducible apply Keeps.ite)
    | (fail_if_no_progress ((with_reducible apply Keeps.record) <;> first | with_reducible rfl | skip)) | split | (dsimp only)

theorem State.chooseIndex_keeps {s0 s : State} (H : Keeps s0 s) (coll : Nat) :
    Keeps s0 (State.chooseIndex s coll).2 := by
  unfold State.chooseIndex
  repeat' first
    | (with_reducible assumption) | (intro) | (with_reducible apply State.free_keeps) | (with_reducible apply Keeps.ite2)
    | (with_reducible apply Keeps.ite)
    | (fail_if_no_progress ((with_reducible apply Keeps.record) <;> first | with_reducible rfl | skip)) | split
    | (rename_i h; have hs := congrArg Prod.snd h; dsimp only at hs; subst hs)
    | (rename_i h _; have hs := congrArg Prod.snd h; dsimp only at hs; subst hs) | (dsimp only)

theorem State.voidSlot_keeps {s0 s : State} (H : Keeps s0 s) (n : Nat) :
    Keeps s0 (State.voidSlot s n) := by
  unfold State.voidSlot
  repeat' first
    | (with_reducible assumption) | (intro) | (with_reducible apply Keeps.ite2) | (with_reducible apply Keeps.ite)
    | (fail_if_no_progress ((with_reducible apply Keeps.record) <;> first | with_reducible rfl | skip)) | split | (dsimp only)

theorem State.takeSlot_keeps {s0 s : State} (H : Keeps s0 s) (h : Word64) (cls : Nat) (sel : Nat) (cw : Nat) :
    Keeps s0 (State.takeSlot s h cls sel cw) := by
  unfold State.takeSlot
  repeat' first
    | (with_reducible assumption) | (intro) | (with_reducible apply State.setSlot_keeps)
    | (with_reducible apply State.voidSlot_keeps) | (with_reducible apply Keeps.ite2) | (with_reducible apply Keeps.ite)
    | (fail_if_no_progress ((with_reducible apply Keeps.record) <;> first | with_reducible rfl | skip)) | split | (dsimp only)

theorem State.reserveAccession_keeps {s0 s : State} (H : Keeps s0 s) (job : Nat) (coll : Nat) (vr : Nat) (body : List Byte) (k : KeyMaterial) :
    Keeps s0 (State.reserveAccession s job coll vr body k).2 := by
  unfold State.reserveAccession
  repeat' first
    | (with_reducible assumption) | (intro) | (with_reducible apply State.view_keeps)
    | (with_reducible apply State.chooseIndex_keeps) | (with_reducible apply State.takeSlot_keeps)
    | (with_reducible apply Keeps.log) | (with_reducible apply Keeps.ite2) | (with_reducible apply Keeps.ite)
    | (fail_if_no_progress ((with_reducible apply Keeps.record) <;> first | with_reducible rfl | skip)) | split
    | (rename_i h; have hs := congrArg Prod.snd h; dsimp only at hs; subst hs)
    | (rename_i h _; have hs := congrArg Prod.snd h; dsimp only at hs; subst hs) | (dsimp only)

theorem State.dropReservation_keeps {s0 s : State} (H : Keeps s0 s) (p : Pending) :
    Keeps s0 (State.dropReservation s p) := by
  unfold State.dropReservation
  repeat' first
    | (with_reducible assumption) | (intro) | (with_reducible apply Keeps.ite2) | (with_reducible apply Keeps.ite)
    | (fail_if_no_progress ((with_reducible apply Keeps.record) <;> first | with_reducible rfl | skip)) | split | (dsimp only)

theorem State.releaseReservation_keeps {s0 s : State} (H : Keeps s0 s) (p : Pending) :
    Keeps s0 (State.releaseReservation s p) := by
  unfold State.releaseReservation
  repeat' first
    | (with_reducible assumption) | (intro) | (with_reducible apply State.dropReservation_keeps)
    | (with_reducible apply State.setSlot_keeps) | (with_reducible apply Keeps.ite2) | (with_reducible apply Keeps.ite)
    | (fail_if_no_progress ((with_reducible apply Keeps.record) <;> first | with_reducible rfl | skip)) | split | (dsimp only)

theorem State.commitAccession_keeps {s0 s : State} (H : Keeps s0 s) (p : Pending) :
    Keeps s0 (State.commitAccession s p) := by
  unfold State.commitAccession
  repeat' first
    | (with_reducible assumption) | (intro) | (with_reducible apply State.dropReservation_keeps)
    | (with_reducible apply State.withdrawEntry_keeps) | (with_reducible apply State.invalidateCache_keeps)
    | (with_reducible apply State.free_keeps) | (with_reducible apply State.journalRecord_keeps)
    | (with_reducible apply Keeps.ite2) | (with_reducible apply Keeps.ite)
    | (fail_if_no_progress ((with_reducible apply Keeps.record) <;> first | with_reducible rfl | skip)) | split
    | (rename_i h; have hs := congrArg Prod.snd h; dsimp only at hs; subst hs)
    | (rename_i h _; have hs := congrArg Prod.snd h; dsimp only at hs; subst hs) | (dsimp only)

theorem State.grantLoan_keeps {s0 s : State} (H : Keeps s0 s) (job : Nat) (w : Wing) (r : CatRecord) :
    Keeps s0 (State.grantLoan s job w r).2 := by
  unfold State.grantLoan
  repeat' first
    | (with_reducible assumption) | (intro) | (with_reducible apply State.setEntry_keeps)
    | (with_reducible apply State.underPolicy_keeps) | (with_reducible apply State.touchCache_keeps)
    | (with_reducible apply Keeps.ite2) | (with_reducible apply Keeps.ite)
    | (fail_if_no_progress ((with_reducible apply Keeps.record) <;> first | with_reducible rfl | skip)) | split | (dsimp only)

theorem State.logDelivery_keeps {s0 s : State} (H : Keeps s0 s) (w : Wing) (r : CatRecord) :
    Keeps s0 (State.logDelivery s w r) := by
  unfold State.logDelivery
  repeat' first
    | (with_reducible assumption) | (intro) | (with_reducible apply Keeps.log) | (with_reducible apply Keeps.ite2)
    | (with_reducible apply Keeps.ite)
    | (fail_if_no_progress ((with_reducible apply Keeps.record) <;> first | with_reducible rfl | skip)) | split | (dsimp only)

theorem pinTranslate_keeps {s0 s : State} (H : Keeps s0 s) (c : Ctx) (keyIn : List Byte) (keyOut : CatRecord) :
    Keeps s0 (pinTranslate c keyIn keyOut s).2 := by
  unfold pinTranslate
  repeat' first
    | (with_reducible assumption) | (intro) | (with_reducible apply failed_keeps) | (with_reducible apply Ctx.draw_keeps)
    | (with_reducible apply pubOut_keeps) | (with_reducible apply Keeps.ite2) | (with_reducible apply Keeps.ite)
    | (fail_if_no_progress ((with_reducible apply Keeps.record) <;> first | with_reducible rfl | skip)) | split
    | (rename_i h; have hs := congrArg Prod.snd h; dsimp only at hs; subst hs)
    | (rename_i h _; have hs := congrArg Prod.snd h; dsimp only at hs; subst hs) | (dsimp only)

theorem State.drawLong_keeps {s0 s : State} (H : Keeps s0 s) (d : Drbg) (u0 : Nat) (u1 : Nat) :
    Keeps s0 (State.drawLong s d u0 u1).2 := by
  induction u0 generalizing s u1 with
  | zero => exact H
  | succ k ih =>
    unfold State.drawLong
    dsimp only
    exact ih (State.drawFrom_keeps H d _) _

theorem drawTdea_keeps {s0 u1 : State} (H : Keeps s0 u1) (c : Ctx) (n : Nat) (u0 : Nat) :
    Keeps s0 (drawTdea c n u0 u1).2 := by
  induction u0 generalizing u1 with
  | zero => exact H
  | succ k ih =>
    unfold drawTdea
    dsimp only
    split
    · exact ih (Ctx.draw_keeps H c n)
    · exact Ctx.draw_keeps H c n

theorem undelivered_keeps {s0 s : State} (H : Keeps s0 s) (r : CatRecord) (c : Ctx) :
    Keeps s0 (undelivered r c s).2 := by
  unfold undelivered
  repeat' first
    | (with_reducible assumption) | (intro) | (with_reducible apply failed_keeps) | (with_reducible apply State.logDelivery_keeps)
    | (with_reducible apply Keeps.ite2) | (with_reducible apply Keeps.ite)
    | (fail_if_no_progress ((with_reducible apply Keeps.record) <;> first | with_reducible rfl | skip)) | split
    | (rename_i h; have hs := congrArg Prod.snd h; dsimp only at hs; subst hs)
    | (rename_i h _; have hs := congrArg Prod.snd h; dsimp only at hs; subst hs) | (dsimp only)

theorem noRoom_keeps {s0 s : State} (H : Keeps s0 s) (r : CatRecord) :
    Keeps s0 (noRoom r s).2 := by
  unfold noRoom
  repeat' first
    | (with_reducible assumption) | (intro) | (with_reducible apply failed_keeps) | (with_reducible apply Keeps.log)
    | (with_reducible apply Keeps.ite2) | (with_reducible apply Keeps.ite)
    | (fail_if_no_progress ((with_reducible apply Keeps.record) <;> first | with_reducible rfl | skip)) | split
    | (rename_i h; have hs := congrArg Prod.snd h; dsimp only at hs; subst hs)
    | (rename_i h _; have hs := congrArg Prod.snd h; dsimp only at hs; subst hs) | (dsimp only)

theorem State.startCheckpoint_keeps {s0 s : State} (H : Keeps s0 s)  :
    Keeps s0 (State.startCheckpoint s) := by
  unfold State.startCheckpoint
  repeat' first
    | (with_reducible assumption) | (intro) | (with_reducible apply State.journalAdd_keeps)
    | (with_reducible apply State.journalRecord_keeps) | (with_reducible apply Keeps.forAll) | (with_reducible apply Keeps.ite2)
    | (with_reducible apply Keeps.ite)
    | (fail_if_no_progress ((with_reducible apply Keeps.record) <;> first | with_reducible rfl | skip)) | split | (dsimp only)

theorem ecSignature_keeps {s0 s : State} (H : Keeps s0 s) (c : Ctx) (sel : Nat) (opts : Nat) (block : List Byte) (d : List Byte) (msg : List Byte) (ctx : List Byte) :
    Keeps s0 (ecSignature c sel opts block d msg ctx s).2 := by
  unfold ecSignature
  repeat' first
    | (with_reducible assumption) | (intro) | (with_reducible apply Ctx.draw_keeps) | (with_reducible apply Keeps.ite2)
    | (with_reducible apply Keeps.ite)
    | (fail_if_no_progress ((with_reducible apply Keeps.record) <;> first | with_reducible rfl | skip)) | split
    | (rename_i h; have hs := congrArg Prod.snd h; dsimp only at hs; subst hs)
    | (rename_i h _; have hs := congrArg Prod.snd h; dsimp only at hs; subst hs) | (dsimp only)

theorem fencedResult_keeps {s0 s : State} (H : Keeps s0 s) (c : Ctx) :
    Keeps s0 (fencedResult c s).2 := by
  unfold fencedResult
  repeat' first
    | (with_reducible assumption) | (intro) | (with_reducible apply failed_keeps) | (with_reducible apply Keeps.log)
    | (with_reducible apply Keeps.ite2) | (with_reducible apply Keeps.ite)
    | (fail_if_no_progress ((with_reducible apply Keeps.record) <;> first | with_reducible rfl | skip)) | split
    | (rename_i h; have hs := congrArg Prod.snd h; dsimp only at hs; subst hs)
    | (rename_i h _; have hs := congrArg Prod.snd h; dsimp only at hs; subst hs) | (dsimp only)

theorem digestOut_keeps {s0 s : State} (H : Keeps s0 s) (c : Ctx) (secret : Bool) (mark : Word64) (bytes : List Byte) :
    Keeps s0 (digestOut c secret mark bytes s).2 := by
  unfold digestOut
  repeat' first
    | (with_reducible assumption) | (intro) | (with_reducible apply withOut_keeps) | (with_reducible apply pubOut_keeps)
    | (with_reducible apply Keeps.ite2) | (with_reducible apply Keeps.ite)
    | (fail_if_no_progress ((with_reducible apply Keeps.record) <;> first | with_reducible rfl | skip)) | split
    | (rename_i h; have hs := congrArg Prod.snd h; dsimp only at hs; subst hs)
    | (rename_i h _; have hs := congrArg Prod.snd h; dsimp only at hs; subst hs) | (dsimp only)

theorem streamResult_keeps {s0 s : State} (H : Keeps s0 s) (c : Ctx) (x : StreamCtx) (a : Absorbed) :
    Keeps s0 (streamResult c x a s).2 := by
  unfold streamResult
  repeat' first
    | (with_reducible assumption) | (intro) | (with_reducible apply Ctx.draw_keeps) | (with_reducible apply Keeps.ite2)
    | (with_reducible apply Keeps.ite)
    | (fail_if_no_progress ((with_reducible apply Keeps.record) <;> first | with_reducible rfl | skip)) | split
    | (rename_i h; have hs := congrArg Prod.snd h; dsimp only at hs; subst hs)
    | (rename_i h _; have hs := congrArg Prod.snd h; dsimp only at hs; subst hs) | (dsimp only)

/-! ### The functions of the engines: a computation changes only the generators it draws from, and what it says it changes. -/

/-- A computation keeps what `Keeps` says. -/
def Compute.Ok (f : Compute) : Prop := ∀ s0 s c, Keeps s0 s → Keeps s0 (f c s).2

theorem withHandle_ok {f : CatRecord → Compute} (h : ∀ r, Compute.Ok (f r)) : Compute.Ok (withHandle f) := by
  intro s0 s c H
  dsimp only [withHandle]
  split
  · exact H
  · exact h _ s0 s c H

theorem statefulKeygen_ok (cls : Nat) (seedLen : Nat → Nat) (sk pk : Nat → Nat → List Byte → List Byte) :
    Compute.Ok (statefulKeygen cls seedLen sk pk) := by
  intro s0 s c H
  dsimp only [statefulKeygen]
  repeat' first
    | (with_reducible assumption) | (with_reducible apply Ctx.draw_keeps) | (with_reducible apply failed_keeps) | (with_reducible apply Keeps.ite) | split

theorem aesCrypt_ok (decrypt : Bool) : Compute.Ok (aesCrypt decrypt).compute := by
  intro s0 s c H
  dsimp only [aesCrypt]
  repeat' first
    | (with_reducible assumption) | (with_reducible apply pubOut_keeps) | (with_reducible apply failed_keeps) | split

theorem mlkemKeygenFn_ok : Compute.Ok mlkemKeygenFn.compute := by
  intro s0 s c H
  dsimp only [mlkemKeygenFn]
  repeat' first
    | (with_reducible assumption) | (intro) | (with_reducible apply failed_keeps) | (with_reducible apply Ctx.draw_keeps)
    | (with_reducible apply Keeps.ite2) | (with_reducible apply Keeps.ite)
    | (fail_if_no_progress ((with_reducible apply Keeps.record) <;> first | with_reducible rfl | skip)) | split
    | (rename_i h; have hs := congrArg Prod.snd h; dsimp only at hs; subst hs)
    | (rename_i h _; have hs := congrArg Prod.snd h; dsimp only at hs; subst hs) | (dsimp only)

theorem mlkemEncapsFn_ok : Compute.Ok mlkemEncapsFn.compute := by
  intro s0 s c H
  dsimp only [mlkemEncapsFn]
  repeat' first
    | (with_reducible assumption) | (intro) | (with_reducible apply failed_keeps) | (with_reducible apply mlkemEncapsulate_keeps)
    | (with_reducible apply Keeps.ite2) | (with_reducible apply Keeps.ite)
    | (fail_if_no_progress ((with_reducible apply Keeps.record) <;> first | with_reducible rfl | skip)) | split
    | (rename_i h; have hs := congrArg Prod.snd h; dsimp only at hs; subst hs)
    | (rename_i h _; have hs := congrArg Prod.snd h; dsimp only at hs; subst hs) | (dsimp only)

theorem mlkemDecapsFn_ok : Compute.Ok mlkemDecapsFn.compute := by
  intro s0 s c H
  dsimp only [mlkemDecapsFn]
  repeat' first
    | (with_reducible assumption) | (intro) | (with_reducible apply failed_keeps) | (with_reducible apply withOut_keeps)
    | (with_reducible apply Keeps.ite2) | (with_reducible apply Keeps.ite)
    | (fail_if_no_progress ((with_reducible apply Keeps.record) <;> first | with_reducible rfl | skip)) | split
    | (rename_i h; have hs := congrArg Prod.snd h; dsimp only at hs; subst hs)
    | (rename_i h _; have hs := congrArg Prod.snd h; dsimp only at hs; subst hs) | (dsimp only)

theorem mlkemEncapskFn_ok : Compute.Ok mlkemEncapskFn.compute := by
  intro s0 s c H
  dsimp only [mlkemEncapskFn]
  repeat' first
    | (with_reducible assumption) | (intro) | (with_reducible apply failed_keeps) | (with_reducible apply mlkemEncapsulate_keeps)
    | (with_reducible apply Keeps.ite2) | (with_reducible apply Keeps.ite)
    | (fail_if_no_progress ((with_reducible apply Keeps.record) <;> first | with_reducible rfl | skip)) | split
    | (rename_i h; have hs := congrArg Prod.snd h; dsimp only at hs; subst hs)
    | (rename_i h _; have hs := congrArg Prod.snd h; dsimp only at hs; subst hs) | (dsimp only)

theorem mlkemExportekFn_ok : Compute.Ok mlkemExportekFn.compute := by
  intro s0 s c H
  dsimp only [mlkemExportekFn]
  repeat' first
    | (with_reducible assumption) | (intro) | (with_reducible apply failed_keeps) | (with_reducible apply pubOut_keeps)
    | (with_reducible apply Keeps.ite2) | (with_reducible apply Keeps.ite)
    | (fail_if_no_progress ((with_reducible apply Keeps.record) <;> first | with_reducible rfl | skip)) | split
    | (rename_i h; have hs := congrArg Prod.snd h; dsimp only at hs; subst hs)
    | (rename_i h _; have hs := congrArg Prod.snd h; dsimp only at hs; subst hs) | (dsimp only)

theorem mlkemImportekFn_ok : Compute.Ok mlkemImportekFn.compute := by
  intro s0 s c H
  dsimp only [mlkemImportekFn]
  repeat' first
    | (with_reducible assumption) | (intro) | (with_reducible apply failed_keeps) | (with_reducible apply Keeps.ite2)
    | (with_reducible apply Keeps.ite)
    | (fail_if_no_progress ((with_reducible apply Keeps.record) <;> first | with_reducible rfl | skip)) | split
    | (rename_i h; have hs := congrArg Prod.snd h; dsimp only at hs; subst hs)
    | (rename_i h _; have hs := congrArg Prod.snd h; dsimp only at hs; subst hs) | (dsimp only)

theorem mldsaKeygenFn_ok : Compute.Ok mldsaKeygenFn.compute := by
  intro s0 s c H
  dsimp only [mldsaKeygenFn]
  repeat' first
    | (with_reducible assumption) | (intro) | (with_reducible apply failed_keeps) | (with_reducible apply Ctx.draw_keeps)
    | (with_reducible apply Keeps.ite2) | (with_reducible apply Keeps.ite)
    | (fail_if_no_progress ((with_reducible apply Keeps.record) <;> first | with_reducible rfl | skip)) | split
    | (rename_i h; have hs := congrArg Prod.snd h; dsimp only at hs; subst hs)
    | (rename_i h _; have hs := congrArg Prod.snd h; dsimp only at hs; subst hs) | (dsimp only)

theorem mldsaSignFn_ok : Compute.Ok mldsaSignFn.compute := by
  intro s0 s c H
  dsimp only [mldsaSignFn]
  repeat' first
    | (with_reducible assumption) | (intro) | (with_reducible apply failed_keeps) | (with_reducible apply mldsaSignature_keeps)
    | (with_reducible apply pubOut_keeps) | (with_reducible apply Keeps.ite2) | (with_reducible apply Keeps.ite)
    | (fail_if_no_progress ((with_reducible apply Keeps.record) <;> first | with_reducible rfl | skip)) | split
    | (rename_i h; have hs := congrArg Prod.snd h; dsimp only at hs; subst hs)
    | (rename_i h _; have hs := congrArg Prod.snd h; dsimp only at hs; subst hs) | (dsimp only)

theorem mldsaVerifyFn_ok : Compute.Ok mldsaVerifyFn.compute := by
  intro s0 s c H
  dsimp only [mldsaVerifyFn]
  repeat' first
    | (with_reducible assumption) | (intro) | (with_reducible apply failed_keeps) | (with_reducible apply verdict_keeps)
    | (with_reducible apply Keeps.ite2) | (with_reducible apply Keeps.ite)
    | (fail_if_no_progress ((with_reducible apply Keeps.record) <;> first | with_reducible rfl | skip)) | split
    | (rename_i h; have hs := congrArg Prod.snd h; dsimp only at hs; subst hs)
    | (rename_i h _; have hs := congrArg Prod.snd h; dsimp only at hs; subst hs) | (dsimp only)

theorem mldsaVerifyxFn_ok : Compute.Ok mldsaVerifyxFn.compute := by
  intro s0 s c H
  dsimp only [mldsaVerifyxFn]
  repeat' first
    | (with_reducible assumption) | (intro) | (with_reducible apply failed_keeps) | (with_reducible apply verdict_keeps)
    | (with_reducible apply Keeps.ite2) | (with_reducible apply Keeps.ite)
    | (fail_if_no_progress ((with_reducible apply Keeps.record) <;> first | with_reducible rfl | skip)) | split
    | (rename_i h; have hs := congrArg Prod.snd h; dsimp only at hs; subst hs)
    | (rename_i h _; have hs := congrArg Prod.snd h; dsimp only at hs; subst hs) | (dsimp only)

theorem mldsaExportpkFn_ok : Compute.Ok mldsaExportpkFn.compute := by
  intro s0 s c H
  dsimp only [mldsaExportpkFn]
  repeat' first
    | (with_reducible assumption) | (intro) | (with_reducible apply failed_keeps) | (with_reducible apply pubOut_keeps)
    | (with_reducible apply Keeps.ite2) | (with_reducible apply Keeps.ite)
    | (fail_if_no_progress ((with_reducible apply Keeps.record) <;> first | with_reducible rfl | skip)) | split
    | (rename_i h; have hs := congrArg Prod.snd h; dsimp only at hs; subst hs)
    | (rename_i h _; have hs := congrArg Prod.snd h; dsimp only at hs; subst hs) | (dsimp only)

theorem mldsaImportpkFn_ok : Compute.Ok mldsaImportpkFn.compute := by
  intro s0 s c H
  dsimp only [mldsaImportpkFn]
  repeat' first
    | (with_reducible assumption) | (intro) | (with_reducible apply failed_keeps) | (with_reducible apply Keeps.ite2)
    | (with_reducible apply Keeps.ite)
    | (fail_if_no_progress ((with_reducible apply Keeps.record) <;> first | with_reducible rfl | skip)) | split
    | (rename_i h; have hs := congrArg Prod.snd h; dsimp only at hs; subst hs)
    | (rename_i h _; have hs := congrArg Prod.snd h; dsimp only at hs; subst hs) | (dsimp only)

theorem fndsaKeygenFn_ok : Compute.Ok fndsaKeygenFn.compute := by
  intro s0 s c H
  dsimp only [fndsaKeygenFn]
  repeat' first
    | (with_reducible assumption) | (intro) | (with_reducible apply failed_keeps) | (with_reducible apply Ctx.draw_keeps)
    | (with_reducible apply Keeps.ite2) | (with_reducible apply Keeps.ite)
    | (fail_if_no_progress ((with_reducible apply Keeps.record) <;> first | with_reducible rfl | skip)) | split
    | (rename_i h; have hs := congrArg Prod.snd h; dsimp only at hs; subst hs)
    | (rename_i h _; have hs := congrArg Prod.snd h; dsimp only at hs; subst hs) | (dsimp only)

theorem fndsaSignFn_ok : Compute.Ok fndsaSignFn.compute := by
  intro s0 s c H
  dsimp only [fndsaSignFn]
  repeat' first
    | (with_reducible assumption) | (intro) | (with_reducible apply failed_keeps) | (with_reducible apply fndsaAttempts_keeps)
    | (with_reducible apply pubOut_keeps) | (with_reducible apply Keeps.ite2) | (with_reducible apply Keeps.ite)
    | (fail_if_no_progress ((with_reducible apply Keeps.record) <;> first | with_reducible rfl | skip)) | split
    | (rename_i h; have hs := congrArg Prod.snd h; dsimp only at hs; subst hs)
    | (rename_i h _; have hs := congrArg Prod.snd h; dsimp only at hs; subst hs) | (dsimp only)

theorem fndsaVerifyFn_ok : Compute.Ok fndsaVerifyFn.compute := by
  intro s0 s c H
  dsimp only [fndsaVerifyFn]
  repeat' first
    | (with_reducible assumption) | (intro) | (with_reducible apply failed_keeps) | (with_reducible apply verdict_keeps)
    | (with_reducible apply Keeps.ite2) | (with_reducible apply Keeps.ite)
    | (fail_if_no_progress ((with_reducible apply Keeps.record) <;> first | with_reducible rfl | skip)) | split
    | (rename_i h; have hs := congrArg Prod.snd h; dsimp only at hs; subst hs)
    | (rename_i h _; have hs := congrArg Prod.snd h; dsimp only at hs; subst hs) | (dsimp only)

theorem fndsaVerifyxFn_ok : Compute.Ok fndsaVerifyxFn.compute := by
  intro s0 s c H
  dsimp only [fndsaVerifyxFn]
  repeat' first
    | (with_reducible assumption) | (intro) | (with_reducible apply failed_keeps) | (with_reducible apply verdict_keeps)
    | (with_reducible apply Keeps.ite2) | (with_reducible apply Keeps.ite)
    | (fail_if_no_progress ((with_reducible apply Keeps.record) <;> first | with_reducible rfl | skip)) | split
    | (rename_i h; have hs := congrArg Prod.snd h; dsimp only at hs; subst hs)
    | (rename_i h _; have hs := congrArg Prod.snd h; dsimp only at hs; subst hs) | (dsimp only)

theorem fndsaExportpkFn_ok : Compute.Ok fndsaExportpkFn.compute := by
  intro s0 s c H
  dsimp only [fndsaExportpkFn]
  repeat' first
    | (with_reducible assumption) | (intro) | (with_reducible apply failed_keeps) | (with_reducible apply pubOut_keeps)
    | (with_reducible apply Keeps.ite2) | (with_reducible apply Keeps.ite)
    | (fail_if_no_progress ((with_reducible apply Keeps.record) <;> first | with_reducible rfl | skip)) | split
    | (rename_i h; have hs := congrArg Prod.snd h; dsimp only at hs; subst hs)
    | (rename_i h _; have hs := congrArg Prod.snd h; dsimp only at hs; subst hs) | (dsimp only)

theorem fndsaImportpkFn_ok : Compute.Ok fndsaImportpkFn.compute := by
  intro s0 s c H
  dsimp only [fndsaImportpkFn]
  repeat' first
    | (with_reducible assumption) | (intro) | (with_reducible apply failed_keeps) | (with_reducible apply Keeps.ite2)
    | (with_reducible apply Keeps.ite)
    | (fail_if_no_progress ((with_reducible apply Keeps.record) <;> first | with_reducible rfl | skip)) | split
    | (rename_i h; have hs := congrArg Prod.snd h; dsimp only at hs; subst hs)
    | (rename_i h _; have hs := congrArg Prod.snd h; dsimp only at hs; subst hs) | (dsimp only)

theorem slhdsaKeygenFn_ok : Compute.Ok slhdsaKeygenFn.compute := by
  intro s0 s c H
  dsimp only [slhdsaKeygenFn]
  repeat' first
    | (with_reducible assumption) | (intro) | (with_reducible apply failed_keeps) | (with_reducible apply Ctx.draw_keeps)
    | (with_reducible apply Keeps.ite2) | (with_reducible apply Keeps.ite)
    | (fail_if_no_progress ((with_reducible apply Keeps.record) <;> first | with_reducible rfl | skip)) | split
    | (rename_i h; have hs := congrArg Prod.snd h; dsimp only at hs; subst hs)
    | (rename_i h _; have hs := congrArg Prod.snd h; dsimp only at hs; subst hs) | (dsimp only)

theorem slhdsaSignFn_ok : Compute.Ok slhdsaSignFn.compute := by
  intro s0 s c H
  dsimp only [slhdsaSignFn]
  repeat' first
    | (with_reducible assumption) | (intro) | (with_reducible apply failed_keeps) | (with_reducible apply Ctx.draw_keeps)
    | (with_reducible apply pubOut_keeps) | (with_reducible apply Keeps.ite2) | (with_reducible apply Keeps.ite)
    | (fail_if_no_progress ((with_reducible apply Keeps.record) <;> first | with_reducible rfl | skip)) | split
    | (rename_i h; have hs := congrArg Prod.snd h; dsimp only at hs; subst hs)
    | (rename_i h _; have hs := congrArg Prod.snd h; dsimp only at hs; subst hs) | (dsimp only)

theorem slhdsaVerifyFn_ok : Compute.Ok slhdsaVerifyFn.compute := by
  intro s0 s c H
  dsimp only [slhdsaVerifyFn]
  repeat' first
    | (with_reducible assumption) | (intro) | (with_reducible apply failed_keeps) | (with_reducible apply verdict_keeps)
    | (with_reducible apply Keeps.ite2) | (with_reducible apply Keeps.ite)
    | (fail_if_no_progress ((with_reducible apply Keeps.record) <;> first | with_reducible rfl | skip)) | split
    | (rename_i h; have hs := congrArg Prod.snd h; dsimp only at hs; subst hs)
    | (rename_i h _; have hs := congrArg Prod.snd h; dsimp only at hs; subst hs) | (dsimp only)

theorem slhdsaVerifyxFn_ok : Compute.Ok slhdsaVerifyxFn.compute := by
  intro s0 s c H
  dsimp only [slhdsaVerifyxFn]
  repeat' first
    | (with_reducible assumption) | (intro) | (with_reducible apply failed_keeps) | (with_reducible apply verdict_keeps)
    | (with_reducible apply Keeps.ite2) | (with_reducible apply Keeps.ite)
    | (fail_if_no_progress ((with_reducible apply Keeps.record) <;> first | with_reducible rfl | skip)) | split
    | (rename_i h; have hs := congrArg Prod.snd h; dsimp only at hs; subst hs)
    | (rename_i h _; have hs := congrArg Prod.snd h; dsimp only at hs; subst hs) | (dsimp only)

theorem slhdsaExportpkFn_ok : Compute.Ok slhdsaExportpkFn.compute := by
  intro s0 s c H
  dsimp only [slhdsaExportpkFn]
  repeat' first
    | (with_reducible assumption) | (intro) | (with_reducible apply failed_keeps) | (with_reducible apply pubOut_keeps)
    | (with_reducible apply Keeps.ite2) | (with_reducible apply Keeps.ite)
    | (fail_if_no_progress ((with_reducible apply Keeps.record) <;> first | with_reducible rfl | skip)) | split
    | (rename_i h; have hs := congrArg Prod.snd h; dsimp only at hs; subst hs)
    | (rename_i h _; have hs := congrArg Prod.snd h; dsimp only at hs; subst hs) | (dsimp only)

theorem slhdsaImportpkFn_ok : Compute.Ok slhdsaImportpkFn.compute := by
  intro s0 s c H
  dsimp only [slhdsaImportpkFn]
  repeat' first
    | (with_reducible assumption) | (intro) | (with_reducible apply failed_keeps) | (with_reducible apply Keeps.ite2)
    | (with_reducible apply Keeps.ite)
    | (fail_if_no_progress ((with_reducible apply Keeps.record) <;> first | with_reducible rfl | skip)) | split
    | (rename_i h; have hs := congrArg Prod.snd h; dsimp only at hs; subst hs)
    | (rename_i h _; have hs := congrArg Prod.snd h; dsimp only at hs; subst hs) | (dsimp only)

theorem lmsKeygenFn_ok : Compute.Ok lmsKeygenFn.compute := by
  intro s0 s c H
  dsimp only [lmsKeygenFn]
  repeat' first
    | (with_reducible assumption) | (intro) | (with_reducible apply failed_keeps) | (apply statefulKeygen_ok)
    | (with_reducible apply Keeps.ite2) | (with_reducible apply Keeps.ite)
    | (fail_if_no_progress ((with_reducible apply Keeps.record) <;> first | with_reducible rfl | skip)) | split | (dsimp only)

theorem lmsSignFn_ok : Compute.Ok lmsSignFn.compute := by
  intro s0 s c H
  dsimp only [lmsSignFn]
  repeat' first
    | (with_reducible assumption) | (intro) | (with_reducible apply failed_keeps) | (with_reducible apply Keeps.ite2)
    | (with_reducible apply Keeps.ite)
    | (fail_if_no_progress ((with_reducible apply Keeps.record) <;> first | with_reducible rfl | skip)) | split | (dsimp only)

theorem lmsVerifyFn_ok : Compute.Ok lmsVerifyFn.compute := by
  intro s0 s c H
  dsimp only [lmsVerifyFn]
  repeat' first
    | (with_reducible assumption) | (intro) | (with_reducible apply failed_keeps) | (with_reducible apply verdict_keeps)
    | (with_reducible apply Keeps.ite2) | (with_reducible apply Keeps.ite)
    | (fail_if_no_progress ((with_reducible apply Keeps.record) <;> first | with_reducible rfl | skip)) | split
    | (rename_i h; have hs := congrArg Prod.snd h; dsimp only at hs; subst hs)
    | (rename_i h _; have hs := congrArg Prod.snd h; dsimp only at hs; subst hs) | (dsimp only)

theorem lmsVerifyxFn_ok : Compute.Ok lmsVerifyxFn.compute := by
  intro s0 s c H
  dsimp only [lmsVerifyxFn]
  repeat' first
    | (with_reducible assumption) | (intro) | (with_reducible apply failed_keeps) | (with_reducible apply verdict_keeps)
    | (with_reducible apply Keeps.ite2) | (with_reducible apply Keeps.ite)
    | (fail_if_no_progress ((with_reducible apply Keeps.record) <;> first | with_reducible rfl | skip)) | split
    | (rename_i h; have hs := congrArg Prod.snd h; dsimp only at hs; subst hs)
    | (rename_i h _; have hs := congrArg Prod.snd h; dsimp only at hs; subst hs) | (dsimp only)

theorem lmsExportpkFn_ok : Compute.Ok lmsExportpkFn.compute := by
  intro s0 s c H
  dsimp only [lmsExportpkFn]
  repeat' first
    | (with_reducible assumption) | (intro) | (with_reducible apply failed_keeps) | (with_reducible apply pubOut_keeps)
    | (with_reducible apply Keeps.ite2) | (with_reducible apply Keeps.ite)
    | (fail_if_no_progress ((with_reducible apply Keeps.record) <;> first | with_reducible rfl | skip)) | split
    | (rename_i h; have hs := congrArg Prod.snd h; dsimp only at hs; subst hs)
    | (rename_i h _; have hs := congrArg Prod.snd h; dsimp only at hs; subst hs) | (dsimp only)

theorem lmsImportpkFn_ok : Compute.Ok lmsImportpkFn.compute := by
  intro s0 s c H
  dsimp only [lmsImportpkFn]
  repeat' first
    | (with_reducible assumption) | (intro) | (with_reducible apply failed_keeps) | (with_reducible apply Keeps.ite2)
    | (with_reducible apply Keeps.ite)
    | (fail_if_no_progress ((with_reducible apply Keeps.record) <;> first | with_reducible rfl | skip)) | split
    | (rename_i h; have hs := congrArg Prod.snd h; dsimp only at hs; subst hs)
    | (rename_i h _; have hs := congrArg Prod.snd h; dsimp only at hs; subst hs) | (dsimp only)

theorem xmssKeygenFn_ok : Compute.Ok xmssKeygenFn.compute := by
  intro s0 s c H
  dsimp only [xmssKeygenFn]
  repeat' first
    | (with_reducible assumption) | (intro) | (with_reducible apply failed_keeps) | (apply statefulKeygen_ok)
    | (with_reducible apply Keeps.ite2) | (with_reducible apply Keeps.ite)
    | (fail_if_no_progress ((with_reducible apply Keeps.record) <;> first | with_reducible rfl | skip)) | split | (dsimp only)

theorem xmssSignFn_ok : Compute.Ok xmssSignFn.compute := by
  intro s0 s c H
  dsimp only [xmssSignFn]
  repeat' first
    | (with_reducible assumption) | (intro) | (with_reducible apply failed_keeps) | (with_reducible apply Keeps.ite2)
    | (with_reducible apply Keeps.ite)
    | (fail_if_no_progress ((with_reducible apply Keeps.record) <;> first | with_reducible rfl | skip)) | split | (dsimp only)

theorem xmssVerifyFn_ok : Compute.Ok xmssVerifyFn.compute := by
  intro s0 s c H
  dsimp only [xmssVerifyFn]
  repeat' first
    | (with_reducible assumption) | (intro) | (with_reducible apply failed_keeps) | (with_reducible apply verdict_keeps)
    | (with_reducible apply Keeps.ite2) | (with_reducible apply Keeps.ite)
    | (fail_if_no_progress ((with_reducible apply Keeps.record) <;> first | with_reducible rfl | skip)) | split
    | (rename_i h; have hs := congrArg Prod.snd h; dsimp only at hs; subst hs)
    | (rename_i h _; have hs := congrArg Prod.snd h; dsimp only at hs; subst hs) | (dsimp only)

theorem xmssVerifyxFn_ok : Compute.Ok xmssVerifyxFn.compute := by
  intro s0 s c H
  dsimp only [xmssVerifyxFn]
  repeat' first
    | (with_reducible assumption) | (intro) | (with_reducible apply failed_keeps) | (with_reducible apply verdict_keeps)
    | (with_reducible apply Keeps.ite2) | (with_reducible apply Keeps.ite)
    | (fail_if_no_progress ((with_reducible apply Keeps.record) <;> first | with_reducible rfl | skip)) | split
    | (rename_i h; have hs := congrArg Prod.snd h; dsimp only at hs; subst hs)
    | (rename_i h _; have hs := congrArg Prod.snd h; dsimp only at hs; subst hs) | (dsimp only)

theorem xmssExportpkFn_ok : Compute.Ok xmssExportpkFn.compute := by
  intro s0 s c H
  dsimp only [xmssExportpkFn]
  repeat' first
    | (with_reducible assumption) | (intro) | (with_reducible apply failed_keeps) | (with_reducible apply pubOut_keeps)
    | (with_reducible apply Keeps.ite2) | (with_reducible apply Keeps.ite)
    | (fail_if_no_progress ((with_reducible apply Keeps.record) <;> first | with_reducible rfl | skip)) | split
    | (rename_i h; have hs := congrArg Prod.snd h; dsimp only at hs; subst hs)
    | (rename_i h _; have hs := congrArg Prod.snd h; dsimp only at hs; subst hs) | (dsimp only)

theorem xmssImportpkFn_ok : Compute.Ok xmssImportpkFn.compute := by
  intro s0 s c H
  dsimp only [xmssImportpkFn]
  repeat' first
    | (with_reducible assumption) | (intro) | (with_reducible apply failed_keeps) | (with_reducible apply Keeps.ite2)
    | (with_reducible apply Keeps.ite)
    | (fail_if_no_progress ((with_reducible apply Keeps.record) <;> first | with_reducible rfl | skip)) | split
    | (rename_i h; have hs := congrArg Prod.snd h; dsimp only at hs; subst hs)
    | (rename_i h _; have hs := congrArg Prod.snd h; dsimp only at hs; subst hs) | (dsimp only)

theorem mcelieceKeygenFn_ok : Compute.Ok mcelieceKeygenFn.compute := by
  intro s0 s c H
  dsimp only [mcelieceKeygenFn]
  repeat' first
    | (with_reducible assumption) | (intro) | (with_reducible apply failed_keeps) | (with_reducible apply State.setGal_keeps)
    | (with_reducible apply Ctx.draw_keeps) | (with_reducible apply Keeps.ite2) | (with_reducible apply Keeps.ite)
    | (fail_if_no_progress ((with_reducible apply Keeps.record) <;> first | with_reducible rfl | skip)) | split
    | (rename_i h; have hs := congrArg Prod.snd h; dsimp only at hs; subst hs)
    | (rename_i h _; have hs := congrArg Prod.snd h; dsimp only at hs; subst hs) | (dsimp only)

theorem mcelieceEncapsFn_ok : Compute.Ok mcelieceEncapsFn.compute := by
  intro s0 s c H
  dsimp only [mcelieceEncapsFn]
  repeat' first
    | (with_reducible assumption) | (intro) | (with_reducible apply failed_keeps) | (with_reducible apply mceEncapsulate_keeps)
    | (with_reducible apply Keeps.ite2) | (with_reducible apply Keeps.ite)
    | (fail_if_no_progress ((with_reducible apply Keeps.record) <;> first | with_reducible rfl | skip)) | split
    | (rename_i h; have hs := congrArg Prod.snd h; dsimp only at hs; subst hs)
    | (rename_i h _; have hs := congrArg Prod.snd h; dsimp only at hs; subst hs) | (dsimp only)

theorem mcelieceDecapsFn_ok : Compute.Ok mcelieceDecapsFn.compute := by
  intro s0 s c H
  dsimp only [mcelieceDecapsFn]
  repeat' first
    | (with_reducible assumption) | (intro) | (with_reducible apply failed_keeps) | (with_reducible apply withOut_keeps)
    | (with_reducible apply Keeps.ite2) | (with_reducible apply Keeps.ite)
    | (fail_if_no_progress ((with_reducible apply Keeps.record) <;> first | with_reducible rfl | skip)) | split
    | (rename_i h; have hs := congrArg Prod.snd h; dsimp only at hs; subst hs)
    | (rename_i h _; have hs := congrArg Prod.snd h; dsimp only at hs; subst hs) | (dsimp only)

theorem mcelieceEncapskFn_ok : Compute.Ok mcelieceEncapskFn.compute := by
  intro s0 s c H
  dsimp only [mcelieceEncapskFn]
  repeat' first
    | (with_reducible assumption) | (intro) | (with_reducible apply failed_keeps) | (with_reducible apply mceEncapsulate_keeps)
    | (with_reducible apply Keeps.ite2) | (with_reducible apply Keeps.ite)
    | (fail_if_no_progress ((with_reducible apply Keeps.record) <;> first | with_reducible rfl | skip)) | split
    | (rename_i h; have hs := congrArg Prod.snd h; dsimp only at hs; subst hs)
    | (rename_i h _; have hs := congrArg Prod.snd h; dsimp only at hs; subst hs) | (dsimp only)

theorem mcelieceExportpkFn_ok : Compute.Ok mcelieceExportpkFn.compute := by
  intro s0 s c H
  dsimp only [mcelieceExportpkFn]
  repeat' first
    | (with_reducible assumption) | (intro) | (with_reducible apply failed_keeps) | (with_reducible apply pubOut_keeps)
    | (with_reducible apply Keeps.ite2) | (with_reducible apply Keeps.ite)
    | (fail_if_no_progress ((with_reducible apply Keeps.record) <;> first | with_reducible rfl | skip)) | split
    | (rename_i h; have hs := congrArg Prod.snd h; dsimp only at hs; subst hs)
    | (rename_i h _; have hs := congrArg Prod.snd h; dsimp only at hs; subst hs) | (dsimp only)

theorem mcelieceImportpkFn_ok : Compute.Ok mcelieceImportpkFn.compute := by
  intro s0 s c H
  dsimp only [mcelieceImportpkFn]
  repeat' first
    | (with_reducible assumption) | (intro) | (with_reducible apply failed_keeps) | (with_reducible apply Keeps.ite2)
    | (with_reducible apply Keeps.ite)
    | (fail_if_no_progress ((with_reducible apply Keeps.record) <;> first | with_reducible rfl | skip)) | split
    | (rename_i h; have hs := congrArg Prod.snd h; dsimp only at hs; subst hs)
    | (rename_i h _; have hs := congrArg Prod.snd h; dsimp only at hs; subst hs) | (dsimp only)

theorem mcelieceResideFn_ok : Compute.Ok mcelieceResideFn.compute := by
  intro s0 s c H
  dsimp only [mcelieceResideFn]
  repeat' first
    | (with_reducible assumption) | (intro) | (with_reducible apply failed_keeps) | (with_reducible apply State.unreside_keeps)
    | (with_reducible apply State.reside_keeps) | (with_reducible apply Keeps.forAll) | (with_reducible apply Keeps.ite2)
    | (with_reducible apply Keeps.ite)
    | (fail_if_no_progress ((with_reducible apply Keeps.record) <;> first | with_reducible rfl | skip)) | split
    | (rename_i h; have hs := congrArg Prod.snd h; dsimp only at hs; subst hs)
    | (rename_i h _; have hs := congrArg Prod.snd h; dsimp only at hs; subst hs) | (dsimp only)

theorem hqcKeygenFn_ok : Compute.Ok hqcKeygenFn.compute := by
  intro s0 s c H
  dsimp only [hqcKeygenFn]
  repeat' first
    | (with_reducible assumption) | (intro) | (with_reducible apply failed_keeps) | (with_reducible apply Ctx.draw_keeps)
    | (with_reducible apply Keeps.ite2) | (with_reducible apply Keeps.ite)
    | (fail_if_no_progress ((with_reducible apply Keeps.record) <;> first | with_reducible rfl | skip)) | split
    | (rename_i h; have hs := congrArg Prod.snd h; dsimp only at hs; subst hs)
    | (rename_i h _; have hs := congrArg Prod.snd h; dsimp only at hs; subst hs) | (dsimp only)

theorem hqcEncapsFn_ok : Compute.Ok hqcEncapsFn.compute := by
  intro s0 s c H
  dsimp only [hqcEncapsFn]
  repeat' first
    | (with_reducible assumption) | (intro) | (with_reducible apply failed_keeps) | (with_reducible apply hqcEncapsulate_keeps)
    | (with_reducible apply Keeps.ite2) | (with_reducible apply Keeps.ite)
    | (fail_if_no_progress ((with_reducible apply Keeps.record) <;> first | with_reducible rfl | skip)) | split
    | (rename_i h; have hs := congrArg Prod.snd h; dsimp only at hs; subst hs)
    | (rename_i h _; have hs := congrArg Prod.snd h; dsimp only at hs; subst hs) | (dsimp only)

theorem hqcDecapsFn_ok : Compute.Ok hqcDecapsFn.compute := by
  intro s0 s c H
  dsimp only [hqcDecapsFn]
  repeat' first
    | (with_reducible assumption) | (intro) | (with_reducible apply failed_keeps) | (with_reducible apply withOut_keeps)
    | (with_reducible apply Keeps.ite2) | (with_reducible apply Keeps.ite)
    | (fail_if_no_progress ((with_reducible apply Keeps.record) <;> first | with_reducible rfl | skip)) | split
    | (rename_i h; have hs := congrArg Prod.snd h; dsimp only at hs; subst hs)
    | (rename_i h _; have hs := congrArg Prod.snd h; dsimp only at hs; subst hs) | (dsimp only)

theorem hqcEncapskFn_ok : Compute.Ok hqcEncapskFn.compute := by
  intro s0 s c H
  dsimp only [hqcEncapskFn]
  repeat' first
    | (with_reducible assumption) | (intro) | (with_reducible apply failed_keeps) | (with_reducible apply hqcEncapsulate_keeps)
    | (with_reducible apply Keeps.ite2) | (with_reducible apply Keeps.ite)
    | (fail_if_no_progress ((with_reducible apply Keeps.record) <;> first | with_reducible rfl | skip)) | split
    | (rename_i h; have hs := congrArg Prod.snd h; dsimp only at hs; subst hs)
    | (rename_i h _; have hs := congrArg Prod.snd h; dsimp only at hs; subst hs) | (dsimp only)

theorem hqcExportpkFn_ok : Compute.Ok hqcExportpkFn.compute := by
  intro s0 s c H
  dsimp only [hqcExportpkFn]
  repeat' first
    | (with_reducible assumption) | (intro) | (with_reducible apply failed_keeps) | (with_reducible apply pubOut_keeps)
    | (with_reducible apply Keeps.ite2) | (with_reducible apply Keeps.ite)
    | (fail_if_no_progress ((with_reducible apply Keeps.record) <;> first | with_reducible rfl | skip)) | split
    | (rename_i h; have hs := congrArg Prod.snd h; dsimp only at hs; subst hs)
    | (rename_i h _; have hs := congrArg Prod.snd h; dsimp only at hs; subst hs) | (dsimp only)

theorem hqcImportpkFn_ok : Compute.Ok hqcImportpkFn.compute := by
  intro s0 s c H
  dsimp only [hqcImportpkFn]
  repeat' first
    | (with_reducible assumption) | (intro) | (with_reducible apply failed_keeps) | (with_reducible apply Keeps.ite2)
    | (with_reducible apply Keeps.ite)
    | (fail_if_no_progress ((with_reducible apply Keeps.record) <;> first | with_reducible rfl | skip)) | split
    | (rename_i h; have hs := congrArg Prod.snd h; dsimp only at hs; subst hs)
    | (rename_i h _; have hs := congrArg Prod.snd h; dsimp only at hs; subst hs) | (dsimp only)

theorem aesCmacFn_ok : Compute.Ok aesCmacFn.compute := by
  intro s0 s c H
  dsimp only [aesCmacFn]
  repeat' first
    | (with_reducible assumption) | (intro) | (with_reducible apply failed_keeps) | (with_reducible apply pubOut_keeps)
    | (with_reducible apply Keeps.ite2) | (with_reducible apply Keeps.ite)
    | (fail_if_no_progress ((with_reducible apply Keeps.record) <;> first | with_reducible rfl | skip)) | split
    | (rename_i h; have hs := congrArg Prod.snd h; dsimp only at hs; subst hs)
    | (rename_i h _; have hs := congrArg Prod.snd h; dsimp only at hs; subst hs) | (dsimp only)

theorem aesCmacverifyFn_ok : Compute.Ok aesCmacverifyFn.compute := by
  intro s0 s c H
  dsimp only [aesCmacverifyFn]
  repeat' first
    | (with_reducible assumption) | (intro) | (with_reducible apply failed_keeps) | (with_reducible apply verdict_keeps)
    | (with_reducible apply Keeps.ite2) | (with_reducible apply Keeps.ite)
    | (fail_if_no_progress ((with_reducible apply Keeps.record) <;> first | with_reducible rfl | skip)) | split
    | (rename_i h; have hs := congrArg Prod.snd h; dsimp only at hs; subst hs)
    | (rename_i h _; have hs := congrArg Prod.snd h; dsimp only at hs; subst hs) | (dsimp only)

theorem aesAeadsealFn_ok : Compute.Ok aesAeadsealFn.compute := by
  intro s0 s c H
  dsimp only [aesAeadsealFn]
  repeat' first
    | (with_reducible assumption) | (intro) | (with_reducible apply failed_keeps) | (with_reducible apply pubOut_keeps)
    | (with_reducible apply Keeps.ite2) | (with_reducible apply Keeps.ite)
    | (fail_if_no_progress ((with_reducible apply Keeps.record) <;> first | with_reducible rfl | skip)) | split
    | (rename_i h; have hs := congrArg Prod.snd h; dsimp only at hs; subst hs)
    | (rename_i h _; have hs := congrArg Prod.snd h; dsimp only at hs; subst hs) | (dsimp only)

theorem aesAeadopenFn_ok : Compute.Ok aesAeadopenFn.compute := by
  intro s0 s c H
  dsimp only [aesAeadopenFn]
  repeat' first
    | (with_reducible assumption) | (intro) | (with_reducible apply failed_keeps) | (with_reducible apply Keeps.ite2)
    | (with_reducible apply Keeps.ite)
    | (fail_if_no_progress ((with_reducible apply Keeps.record) <;> first | with_reducible rfl | skip)) | split
    | (rename_i h; have hs := congrArg Prod.snd h; dsimp only at hs; subst hs)
    | (rename_i h _; have hs := congrArg Prod.snd h; dsimp only at hs; subst hs) | (dsimp only)

theorem payPinxlateFn_ok : Compute.Ok payPinxlateFn.compute := by
  intro s0 s c H
  dsimp only [payPinxlateFn]
  repeat' first
    | (with_reducible assumption) | (intro) | (with_reducible apply failed_keeps) | (with_reducible apply pinTranslate_keeps)
    | (with_reducible apply Keeps.ite2) | (with_reducible apply Keeps.ite)
    | (fail_if_no_progress ((with_reducible apply Keeps.record) <;> first | with_reducible rfl | skip)) | split
    | (rename_i h; have hs := congrArg Prod.snd h; dsimp only at hs; subst hs)
    | (rename_i h _; have hs := congrArg Prod.snd h; dsimp only at hs; subst hs) | (dsimp only)

theorem payDukptxlateFn_ok : Compute.Ok payDukptxlateFn.compute := by
  intro s0 s c H
  dsimp only [payDukptxlateFn]
  repeat' first
    | (with_reducible assumption) | (intro) | (with_reducible apply failed_keeps) | (with_reducible apply pinTranslate_keeps)
    | (with_reducible apply Keeps.ite2) | (with_reducible apply Keeps.ite)
    | (fail_if_no_progress ((with_reducible apply Keeps.record) <;> first | with_reducible rfl | skip)) | split
    | (rename_i h; have hs := congrArg Prod.snd h; dsimp only at hs; subst hs)
    | (rename_i h _; have hs := congrArg Prod.snd h; dsimp only at hs; subst hs) | (dsimp only)

theorem payDukptderiveFn_ok : Compute.Ok payDukptderiveFn.compute := by
  intro s0 s c H
  dsimp only [payDukptderiveFn]
  repeat' first
    | (with_reducible assumption) | (intro) | (with_reducible apply failed_keeps) | (with_reducible apply Keeps.ite2)
    | (with_reducible apply Keeps.ite)
    | (fail_if_no_progress ((with_reducible apply Keeps.record) <;> first | with_reducible rfl | skip)) | split
    | (rename_i h; have hs := congrArg Prod.snd h; dsimp only at hs; subst hs)
    | (rename_i h _; have hs := congrArg Prod.snd h; dsimp only at hs; subst hs) | (dsimp only)

theorem payDukptikFn_ok : Compute.Ok payDukptikFn.compute := by
  intro s0 s c H
  dsimp only [payDukptikFn]
  repeat' first
    | (with_reducible assumption) | (intro) | (with_reducible apply failed_keeps) | (with_reducible apply Keeps.ite2)
    | (with_reducible apply Keeps.ite)
    | (fail_if_no_progress ((with_reducible apply Keeps.record) <;> first | with_reducible rfl | skip)) | split
    | (rename_i h; have hs := congrArg Prod.snd h; dsimp only at hs; subst hs)
    | (rename_i h _; have hs := congrArg Prod.snd h; dsimp only at hs; subst hs) | (dsimp only)

theorem randBytesFn_ok : Compute.Ok randBytesFn.compute := by
  intro s0 s c H
  dsimp only [randBytesFn]
  repeat' first
    | (with_reducible assumption) | (intro) | (with_reducible apply failed_keeps) | (with_reducible apply State.drawLong_keeps)
    | (with_reducible apply Keeps.ite2) | (with_reducible apply Keeps.ite)
    | (fail_if_no_progress ((with_reducible apply Keeps.record) <;> first | with_reducible rfl | skip)) | split
    | (rename_i h; have hs := congrArg Prod.snd h; dsimp only at hs; subst hs)
    | (rename_i h _; have hs := congrArg Prod.snd h; dsimp only at hs; subst hs) | (dsimp only)

theorem catGenerateFn_ok : Compute.Ok catGenerateFn.compute := by
  intro s0 s c H
  dsimp only [catGenerateFn, catFn]
  repeat' first
    | (with_reducible assumption) | (intro) | (with_reducible apply failed_keeps) | (with_reducible apply drawTdea_keeps)
    | (with_reducible apply Ctx.draw_keeps) | (with_reducible apply Keeps.ite2) | (with_reducible apply Keeps.ite)
    | (fail_if_no_progress ((with_reducible apply Keeps.record) <;> first | with_reducible rfl | skip)) | split
    | (rename_i h; have hs := congrArg Prod.snd h; dsimp only at hs; subst hs)
    | (rename_i h _; have hs := congrArg Prod.snd h; dsimp only at hs; subst hs) | (dsimp only)

theorem catImportClearFn_ok : Compute.Ok catImportClearFn.compute := by
  intro s0 s c H
  dsimp only [catImportClearFn, catFn]
  repeat' first
    | (with_reducible assumption) | (intro) | (with_reducible apply failed_keeps) | (with_reducible apply Keeps.ite2)
    | (with_reducible apply Keeps.ite)
    | (fail_if_no_progress ((with_reducible apply Keeps.record) <;> first | with_reducible rfl | skip)) | split
    | (rename_i h; have hs := congrArg Prod.snd h; dsimp only at hs; subst hs)
    | (rename_i h _; have hs := congrArg Prod.snd h; dsimp only at hs; subst hs) | (dsimp only)

theorem catUnwrapFn_ok : Compute.Ok catUnwrapFn.compute := by
  intro s0 s c H
  dsimp only [catUnwrapFn, catFn]
  repeat' first
    | (with_reducible assumption) | (intro) | (with_reducible apply failed_keeps) | (with_reducible apply Keeps.ite2)
    | (with_reducible apply Keeps.ite)
    | (fail_if_no_progress ((with_reducible apply Keeps.record) <;> first | with_reducible rfl | skip)) | split
    | (rename_i h; have hs := congrArg Prod.snd h; dsimp only at hs; subst hs)
    | (rename_i h _; have hs := congrArg Prod.snd h; dsimp only at hs; subst hs) | (dsimp only)

theorem catWrapFn_ok : Compute.Ok catWrapFn.compute := by
  intro s0 s c H
  dsimp only [catWrapFn, catFn]
  repeat' first
    | (with_reducible assumption) | (intro) | (with_reducible apply failed_keeps) | (with_reducible apply undelivered_keeps)
    | (with_reducible apply Ctx.draw_keeps) | (refine withHandle_ok (fun r => ?_) _ _ _ ?_) | (with_reducible apply Keeps.ite2)
    | (with_reducible apply Keeps.ite)
    | (fail_if_no_progress ((with_reducible apply Keeps.record) <;> first | with_reducible rfl | skip)) | split
    | (rename_i h; have hs := congrArg Prod.snd h; dsimp only at hs; subst hs)
    | (rename_i h _; have hs := congrArg Prod.snd h; dsimp only at hs; subst hs) | (dsimp only)

theorem catWithdrawFn_ok : Compute.Ok catWithdrawFn.compute := by
  intro s0 s c H
  dsimp only [catWithdrawFn, catFn]
  repeat' first
    | (with_reducible assumption) | (intro) | (with_reducible apply failed_keeps) | (with_reducible apply noRoom_keeps)
    | (with_reducible apply State.withdrawEntry_keeps) | (refine withHandle_ok (fun r => ?_) _ _ _ ?_)
    | (with_reducible apply Keeps.ite2) | (with_reducible apply Keeps.ite)
    | (fail_if_no_progress ((with_reducible apply Keeps.record) <;> first | with_reducible rfl | skip)) | split
    | (rename_i h; have hs := congrArg Prod.snd h; dsimp only at hs; subst hs)
    | (rename_i h _; have hs := congrArg Prod.snd h; dsimp only at hs; subst hs) | (dsimp only)

theorem catRevokeFn_ok : Compute.Ok catRevokeFn.compute := by
  intro s0 s c H
  dsimp only [catRevokeFn, catFn]
  repeat' first
    | (with_reducible assumption) | (intro) | (with_reducible apply failed_keeps) | (with_reducible apply noRoom_keeps)
    | (with_reducible apply State.revokeEntry_keeps) | (refine withHandle_ok (fun r => ?_) _ _ _ ?_)
    | (with_reducible apply Keeps.ite2) | (with_reducible apply Keeps.ite)
    | (fail_if_no_progress ((with_reducible apply Keeps.record) <;> first | with_reducible rfl | skip)) | split
    | (rename_i h; have hs := congrArg Prod.snd h; dsimp only at hs; subst hs)
    | (rename_i h _; have hs := congrArg Prod.snd h; dsimp only at hs; subst hs) | (dsimp only)

theorem catPinFn_ok : Compute.Ok catPinFn.compute := by
  intro s0 s c H
  dsimp only [catPinFn, catFn]
  repeat' first
    | (with_reducible assumption) | (intro) | (with_reducible apply failed_keeps)
    | (with_reducible apply State.journalRecord_keeps) | (with_reducible apply State.invalidateCache_keeps)
    | (with_reducible apply noRoom_keeps) | (refine withHandle_ok (fun r => ?_) _ _ _ ?_) | (with_reducible apply Keeps.ite2)
    | (with_reducible apply Keeps.ite)
    | (fail_if_no_progress ((with_reducible apply Keeps.record) <;> first | with_reducible rfl | skip)) | split
    | (rename_i h; have hs := congrArg Prod.snd h; dsimp only at hs; subst hs)
    | (rename_i h _; have hs := congrArg Prod.snd h; dsimp only at hs; subst hs) | (dsimp only)

theorem catInfoFn_ok : Compute.Ok catInfoFn.compute := by
  intro s0 s c H
  dsimp only [catInfoFn, catFn]
  repeat' first
    | (with_reducible assumption) | (intro) | (with_reducible apply failed_keeps) | (refine withHandle_ok (fun r => ?_) _ _ _ ?_)
    | (with_reducible apply Keeps.ite2) | (with_reducible apply Keeps.ite)
    | (fail_if_no_progress ((with_reducible apply Keeps.record) <;> first | with_reducible rfl | skip)) | split | (dsimp only)

theorem catSyncFn_ok : Compute.Ok catSyncFn.compute := by
  intro s0 s c H
  dsimp only [catSyncFn, catFn]
  repeat' first
    | (with_reducible assumption) | (intro) | (with_reducible apply failed_keeps) | (with_reducible apply State.closeSeal_keeps)
    | (with_reducible apply Keeps.ite2) | (with_reducible apply Keeps.ite)
    | (fail_if_no_progress ((with_reducible apply Keeps.record) <;> first | with_reducible rfl | skip)) | split | (dsimp only)

theorem catCheckpointFn_ok : Compute.Ok catCheckpointFn.compute := by
  intro s0 s c H
  dsimp only [catCheckpointFn, catFn]
  repeat' first
    | (with_reducible assumption) | (intro) | (with_reducible apply failed_keeps)
    | (with_reducible apply State.startCheckpoint_keeps) | (with_reducible apply Keeps.ite2) | (with_reducible apply Keeps.ite)
    | (fail_if_no_progress ((with_reducible apply Keeps.record) <;> first | with_reducible rfl | skip)) | split
    | (rename_i h; have hs := congrArg Prod.snd h; dsimp only at hs; subst hs)
    | (rename_i h _; have hs := congrArg Prod.snd h; dsimp only at hs; subst hs) | (dsimp only)

theorem payKbexportFn_ok : Compute.Ok payKbexportFn.compute := by
  intro s0 s c H
  dsimp only [payKbexportFn]
  repeat' first
    | (with_reducible assumption) | (intro) | (with_reducible apply failed_keeps) | (with_reducible apply undelivered_keeps)
    | (with_reducible apply Ctx.draw_keeps) | (refine withHandle_ok (fun r => ?_) _ _ _ ?_) | (with_reducible apply Keeps.ite2)
    | (with_reducible apply Keeps.ite)
    | (fail_if_no_progress ((with_reducible apply Keeps.record) <;> first | with_reducible rfl | skip)) | split
    | (rename_i h; have hs := congrArg Prod.snd h; dsimp only at hs; subst hs)
    | (rename_i h _; have hs := congrArg Prod.snd h; dsimp only at hs; subst hs) | (dsimp only)

theorem payKbimportFn_ok : Compute.Ok payKbimportFn.compute := by
  intro s0 s c H
  dsimp only [payKbimportFn]
  repeat' first
    | (with_reducible assumption) | (intro) | (with_reducible apply failed_keeps) | (with_reducible apply Keeps.ite2)
    | (with_reducible apply Keeps.ite)
    | (fail_if_no_progress ((with_reducible apply Keeps.record) <;> first | with_reducible rfl | skip)) | split
    | (rename_i h; have hs := congrArg Prod.snd h; dsimp only at hs; subst hs)
    | (rename_i h _; have hs := congrArg Prod.snd h; dsimp only at hs; subst hs) | (dsimp only)

theorem rsaKeygenFn_ok : Compute.Ok rsaKeygenFn.compute := by
  intro s0 s c H
  dsimp only [rsaKeygenFn]
  repeat' first
    | (with_reducible assumption) | (intro) | (with_reducible apply failed_keeps) | (with_reducible apply Ctx.draw_keeps)
    | (with_reducible apply Keeps.ite2) | (with_reducible apply Keeps.ite)
    | (fail_if_no_progress ((with_reducible apply Keeps.record) <;> first | with_reducible rfl | skip)) | split
    | (rename_i h; have hs := congrArg Prod.snd h; dsimp only at hs; subst hs)
    | (rename_i h _; have hs := congrArg Prod.snd h; dsimp only at hs; subst hs) | (dsimp only)

theorem rsaSignFn_ok : Compute.Ok rsaSignFn.compute := by
  intro s0 s c H
  dsimp only [rsaSignFn]
  repeat' first
    | (with_reducible assumption) | (intro) | (with_reducible apply failed_keeps) | (with_reducible apply Ctx.draw_keeps)
    | (with_reducible apply pubOut_keeps) | (with_reducible apply Keeps.ite2) | (with_reducible apply Keeps.ite)
    | (fail_if_no_progress ((with_reducible apply Keeps.record) <;> first | with_reducible rfl | skip)) | split
    | (rename_i h; have hs := congrArg Prod.snd h; dsimp only at hs; subst hs)
    | (rename_i h _; have hs := congrArg Prod.snd h; dsimp only at hs; subst hs) | (dsimp only)

theorem rsaVerifyFn_ok : Compute.Ok rsaVerifyFn.compute := by
  intro s0 s c H
  dsimp only [rsaVerifyFn]
  repeat' first
    | (with_reducible assumption) | (intro) | (with_reducible apply failed_keeps) | (with_reducible apply verdict_keeps)
    | (with_reducible apply Keeps.ite2) | (with_reducible apply Keeps.ite)
    | (fail_if_no_progress ((with_reducible apply Keeps.record) <;> first | with_reducible rfl | skip)) | split
    | (rename_i h; have hs := congrArg Prod.snd h; dsimp only at hs; subst hs)
    | (rename_i h _; have hs := congrArg Prod.snd h; dsimp only at hs; subst hs) | (dsimp only)

theorem rsaVerifyxFn_ok : Compute.Ok rsaVerifyxFn.compute := by
  intro s0 s c H
  dsimp only [rsaVerifyxFn]
  repeat' first
    | (with_reducible assumption) | (intro) | (with_reducible apply failed_keeps) | (with_reducible apply verdict_keeps)
    | (with_reducible apply Keeps.ite2) | (with_reducible apply Keeps.ite)
    | (fail_if_no_progress ((with_reducible apply Keeps.record) <;> first | with_reducible rfl | skip)) | split
    | (rename_i h; have hs := congrArg Prod.snd h; dsimp only at hs; subst hs)
    | (rename_i h _; have hs := congrArg Prod.snd h; dsimp only at hs; subst hs) | (dsimp only)

theorem rsaDecryptFn_ok : Compute.Ok rsaDecryptFn.compute := by
  intro s0 s c H
  dsimp only [rsaDecryptFn]
  repeat' first
    | (with_reducible assumption) | (intro) | (with_reducible apply failed_keeps) | (with_reducible apply Keeps.ite2)
    | (with_reducible apply Keeps.ite)
    | (fail_if_no_progress ((with_reducible apply Keeps.record) <;> first | with_reducible rfl | skip)) | split
    | (rename_i h; have hs := congrArg Prod.snd h; dsimp only at hs; subst hs)
    | (rename_i h _; have hs := congrArg Prod.snd h; dsimp only at hs; subst hs) | (dsimp only)

theorem rsaEncryptFn_ok : Compute.Ok rsaEncryptFn.compute := by
  intro s0 s c H
  dsimp only [rsaEncryptFn]
  repeat' first
    | (with_reducible assumption) | (intro) | (with_reducible apply failed_keeps) | (with_reducible apply Ctx.draw_keeps)
    | (with_reducible apply pubOut_keeps) | (with_reducible apply Keeps.ite2) | (with_reducible apply Keeps.ite)
    | (fail_if_no_progress ((with_reducible apply Keeps.record) <;> first | with_reducible rfl | skip)) | split
    | (rename_i h; have hs := congrArg Prod.snd h; dsimp only at hs; subst hs)
    | (rename_i h _; have hs := congrArg Prod.snd h; dsimp only at hs; subst hs) | (dsimp only)

theorem rsaExportpkFn_ok : Compute.Ok rsaExportpkFn.compute := by
  intro s0 s c H
  dsimp only [rsaExportpkFn]
  repeat' first
    | (with_reducible assumption) | (intro) | (with_reducible apply failed_keeps) | (with_reducible apply pubOut_keeps)
    | (with_reducible apply Keeps.ite2) | (with_reducible apply Keeps.ite)
    | (fail_if_no_progress ((with_reducible apply Keeps.record) <;> first | with_reducible rfl | skip)) | split
    | (rename_i h; have hs := congrArg Prod.snd h; dsimp only at hs; subst hs)
    | (rename_i h _; have hs := congrArg Prod.snd h; dsimp only at hs; subst hs) | (dsimp only)

theorem rsaImportpkFn_ok : Compute.Ok rsaImportpkFn.compute := by
  intro s0 s c H
  dsimp only [rsaImportpkFn]
  repeat' first
    | (with_reducible assumption) | (intro) | (with_reducible apply failed_keeps) | (with_reducible apply Keeps.ite2)
    | (with_reducible apply Keeps.ite)
    | (fail_if_no_progress ((with_reducible apply Keeps.record) <;> first | with_reducible rfl | skip)) | split
    | (rename_i h; have hs := congrArg Prod.snd h; dsimp only at hs; subst hs)
    | (rename_i h _; have hs := congrArg Prod.snd h; dsimp only at hs; subst hs) | (dsimp only)

theorem ecKeygenFn_ok : Compute.Ok ecKeygenFn.compute := by
  intro s0 s c H
  dsimp only [ecKeygenFn]
  repeat' first
    | (with_reducible assumption) | (intro) | (with_reducible apply failed_keeps) | (with_reducible apply Ctx.draw_keeps)
    | (with_reducible apply Keeps.ite2) | (with_reducible apply Keeps.ite)
    | (fail_if_no_progress ((with_reducible apply Keeps.record) <;> first | with_reducible rfl | skip)) | split
    | (rename_i h; have hs := congrArg Prod.snd h; dsimp only at hs; subst hs)
    | (rename_i h _; have hs := congrArg Prod.snd h; dsimp only at hs; subst hs) | (dsimp only)

theorem ecSignFn_ok : Compute.Ok ecSignFn.compute := by
  intro s0 s c H
  dsimp only [ecSignFn]
  repeat' first
    | (with_reducible assumption) | (intro) | (with_reducible apply failed_keeps) | (with_reducible apply ecSignature_keeps)
    | (with_reducible apply pubOut_keeps) | (with_reducible apply Keeps.ite2) | (with_reducible apply Keeps.ite)
    | (fail_if_no_progress ((with_reducible apply Keeps.record) <;> first | with_reducible rfl | skip)) | split
    | (rename_i h; have hs := congrArg Prod.snd h; dsimp only at hs; subst hs)
    | (rename_i h _; have hs := congrArg Prod.snd h; dsimp only at hs; subst hs) | (dsimp only)

theorem ecVerifyFn_ok : Compute.Ok ecVerifyFn.compute := by
  intro s0 s c H
  dsimp only [ecVerifyFn]
  repeat' first
    | (with_reducible assumption) | (intro) | (with_reducible apply failed_keeps) | (with_reducible apply verdict_keeps)
    | (with_reducible apply Keeps.ite2) | (with_reducible apply Keeps.ite)
    | (fail_if_no_progress ((with_reducible apply Keeps.record) <;> first | with_reducible rfl | skip)) | split
    | (rename_i h; have hs := congrArg Prod.snd h; dsimp only at hs; subst hs)
    | (rename_i h _; have hs := congrArg Prod.snd h; dsimp only at hs; subst hs) | (dsimp only)

theorem ecVerifyxFn_ok : Compute.Ok ecVerifyxFn.compute := by
  intro s0 s c H
  dsimp only [ecVerifyxFn]
  repeat' first
    | (with_reducible assumption) | (intro) | (with_reducible apply failed_keeps) | (with_reducible apply verdict_keeps)
    | (with_reducible apply Keeps.ite2) | (with_reducible apply Keeps.ite)
    | (fail_if_no_progress ((with_reducible apply Keeps.record) <;> first | with_reducible rfl | skip)) | split
    | (rename_i h; have hs := congrArg Prod.snd h; dsimp only at hs; subst hs)
    | (rename_i h _; have hs := congrArg Prod.snd h; dsimp only at hs; subst hs) | (dsimp only)

theorem ecEphagreeFn_ok : Compute.Ok ecEphagreeFn.compute := by
  intro s0 s c H
  dsimp only [ecEphagreeFn]
  repeat' first
    | (with_reducible assumption) | (intro) | (with_reducible apply failed_keeps) | (with_reducible apply Ctx.draw_keeps)
    | (with_reducible apply withOut_keeps) | (with_reducible apply Keeps.ite2) | (with_reducible apply Keeps.ite)
    | (fail_if_no_progress ((with_reducible apply Keeps.record) <;> first | with_reducible rfl | skip)) | split
    | (rename_i h; have hs := congrArg Prod.snd h; dsimp only at hs; subst hs)
    | (rename_i h _; have hs := congrArg Prod.snd h; dsimp only at hs; subst hs) | (dsimp only)

theorem ecAgreeFn_ok : Compute.Ok ecAgreeFn.compute := by
  intro s0 s c H
  dsimp only [ecAgreeFn]
  repeat' first
    | (with_reducible assumption) | (intro) | (with_reducible apply failed_keeps) | (with_reducible apply withOut_keeps)
    | (with_reducible apply Keeps.ite2) | (with_reducible apply Keeps.ite)
    | (fail_if_no_progress ((with_reducible apply Keeps.record) <;> first | with_reducible rfl | skip)) | split
    | (rename_i h; have hs := congrArg Prod.snd h; dsimp only at hs; subst hs)
    | (rename_i h _; have hs := congrArg Prod.snd h; dsimp only at hs; subst hs) | (dsimp only)

theorem ecExportpkFn_ok : Compute.Ok ecExportpkFn.compute := by
  intro s0 s c H
  dsimp only [ecExportpkFn]
  repeat' first
    | (with_reducible assumption) | (intro) | (with_reducible apply failed_keeps) | (with_reducible apply pubOut_keeps)
    | (with_reducible apply Keeps.ite2) | (with_reducible apply Keeps.ite)
    | (fail_if_no_progress ((with_reducible apply Keeps.record) <;> first | with_reducible rfl | skip)) | split
    | (rename_i h; have hs := congrArg Prod.snd h; dsimp only at hs; subst hs)
    | (rename_i h _; have hs := congrArg Prod.snd h; dsimp only at hs; subst hs) | (dsimp only)

theorem ecImportpkFn_ok : Compute.Ok ecImportpkFn.compute := by
  intro s0 s c H
  dsimp only [ecImportpkFn]
  repeat' first
    | (with_reducible assumption) | (intro) | (with_reducible apply failed_keeps) | (with_reducible apply Keeps.ite2)
    | (with_reducible apply Keeps.ite)
    | (fail_if_no_progress ((with_reducible apply Keeps.record) <;> first | with_reducible rfl | skip)) | split
    | (rename_i h; have hs := congrArg Prod.snd h; dsimp only at hs; subst hs)
    | (rename_i h _; have hs := congrArg Prod.snd h; dsimp only at hs; subst hs) | (dsimp only)

theorem ecCurvecheckFn_ok : Compute.Ok ecCurvecheckFn.compute := by
  intro s0 s c H
  dsimp only [ecCurvecheckFn]
  repeat' first
    | (with_reducible assumption) | (intro) | (with_reducible apply failed_keeps) | (with_reducible apply Ctx.draw_keeps)
    | (with_reducible apply Keeps.log) | (with_reducible apply Keeps.ite2) | (with_reducible apply Keeps.ite)
    | (fail_if_no_progress ((with_reducible apply Keeps.record) <;> first | with_reducible rfl | skip)) | split
    | (rename_i h; have hs := congrArg Prod.snd h; dsimp only at hs; subst hs)
    | (rename_i h _; have hs := congrArg Prod.snd h; dsimp only at hs; subst hs) | (dsimp only)

theorem digestHashFn_ok : Compute.Ok digestHashFn.compute := by
  intro s0 s c H
  dsimp only [digestHashFn]
  repeat' first
    | (with_reducible assumption) | (intro) | (with_reducible apply failed_keeps) | (with_reducible apply fencedResult_keeps)
    | (with_reducible apply digestOut_keeps) | (with_reducible apply Keeps.ite2) | (with_reducible apply Keeps.ite)
    | (fail_if_no_progress ((with_reducible apply Keeps.record) <;> first | with_reducible rfl | skip)) | split
    | (rename_i h; have hs := congrArg Prod.snd h; dsimp only at hs; subst hs)
    | (rename_i h _; have hs := congrArg Prod.snd h; dsimp only at hs; subst hs) | (dsimp only)

theorem digestCshakeFn_ok : Compute.Ok digestCshakeFn.compute := by
  intro s0 s c H
  dsimp only [digestCshakeFn]
  repeat' first
    | (with_reducible assumption) | (intro) | (with_reducible apply failed_keeps) | (with_reducible apply fencedResult_keeps)
    | (with_reducible apply digestOut_keeps) | (with_reducible apply Keeps.ite2) | (with_reducible apply Keeps.ite)
    | (fail_if_no_progress ((with_reducible apply Keeps.record) <;> first | with_reducible rfl | skip)) | split
    | (rename_i h; have hs := congrArg Prod.snd h; dsimp only at hs; subst hs)
    | (rename_i h _; have hs := congrArg Prod.snd h; dsimp only at hs; subst hs) | (dsimp only)

theorem digestHmacFn_ok : Compute.Ok digestHmacFn.compute := by
  intro s0 s c H
  dsimp only [digestHmacFn]
  repeat' first
    | (with_reducible assumption) | (intro) | (with_reducible apply failed_keeps) | (with_reducible apply pubOut_keeps)
    | (with_reducible apply Keeps.ite2) | (with_reducible apply Keeps.ite)
    | (fail_if_no_progress ((with_reducible apply Keeps.record) <;> first | with_reducible rfl | skip)) | split
    | (rename_i h; have hs := congrArg Prod.snd h; dsimp only at hs; subst hs)
    | (rename_i h _; have hs := congrArg Prod.snd h; dsimp only at hs; subst hs) | (dsimp only)

theorem digestHmacverifyFn_ok : Compute.Ok digestHmacverifyFn.compute := by
  intro s0 s c H
  dsimp only [digestHmacverifyFn]
  repeat' first
    | (with_reducible assumption) | (intro) | (with_reducible apply failed_keeps) | (with_reducible apply verdict_keeps)
    | (with_reducible apply Keeps.ite2) | (with_reducible apply Keeps.ite)
    | (fail_if_no_progress ((with_reducible apply Keeps.record) <;> first | with_reducible rfl | skip)) | split
    | (rename_i h; have hs := congrArg Prod.snd h; dsimp only at hs; subst hs)
    | (rename_i h _; have hs := congrArg Prod.snd h; dsimp only at hs; subst hs) | (dsimp only)

theorem digestKmacFn_ok : Compute.Ok digestKmacFn.compute := by
  intro s0 s c H
  dsimp only [digestKmacFn]
  repeat' first
    | (with_reducible assumption) | (intro) | (with_reducible apply failed_keeps) | (with_reducible apply withOut_keeps)
    | (with_reducible apply pubOut_keeps) | (with_reducible apply Keeps.ite2) | (with_reducible apply Keeps.ite)
    | (fail_if_no_progress ((with_reducible apply Keeps.record) <;> first | with_reducible rfl | skip)) | split
    | (rename_i h; have hs := congrArg Prod.snd h; dsimp only at hs; subst hs)
    | (rename_i h _; have hs := congrArg Prod.snd h; dsimp only at hs; subst hs) | (dsimp only)

theorem digestKmacverifyFn_ok : Compute.Ok digestKmacverifyFn.compute := by
  intro s0 s c H
  dsimp only [digestKmacverifyFn]
  repeat' first
    | (with_reducible assumption) | (intro) | (with_reducible apply failed_keeps) | (with_reducible apply verdict_keeps)
    | (with_reducible apply Keeps.ite2) | (with_reducible apply Keeps.ite)
    | (fail_if_no_progress ((with_reducible apply Keeps.record) <;> first | with_reducible rfl | skip)) | split
    | (rename_i h; have hs := congrArg Prod.snd h; dsimp only at hs; subst hs)
    | (rename_i h _; have hs := congrArg Prod.snd h; dsimp only at hs; subst hs) | (dsimp only)

theorem digestHkdfFn_ok : Compute.Ok digestHkdfFn.compute := by
  intro s0 s c H
  dsimp only [digestHkdfFn]
  repeat' first
    | (with_reducible assumption) | (intro) | (with_reducible apply failed_keeps) | (with_reducible apply withOut_keeps)
    | (with_reducible apply Keeps.ite2) | (with_reducible apply Keeps.ite)
    | (fail_if_no_progress ((with_reducible apply Keeps.record) <;> first | with_reducible rfl | skip)) | split
    | (rename_i h; have hs := congrArg Prod.snd h; dsimp only at hs; subst hs)
    | (rename_i h _; have hs := congrArg Prod.snd h; dsimp only at hs; subst hs) | (dsimp only)

theorem digestKdf108Fn_ok : Compute.Ok digestKdf108Fn.compute := by
  intro s0 s c H
  dsimp only [digestKdf108Fn]
  repeat' first
    | (with_reducible assumption) | (intro) | (with_reducible apply failed_keeps) | (with_reducible apply withOut_keeps)
    | (with_reducible apply Keeps.ite2) | (with_reducible apply Keeps.ite)
    | (fail_if_no_progress ((with_reducible apply Keeps.record) <;> first | with_reducible rfl | skip)) | split
    | (rename_i h; have hs := congrArg Prod.snd h; dsimp only at hs; subst hs)
    | (rename_i h _; have hs := congrArg Prod.snd h; dsimp only at hs; subst hs) | (dsimp only)

theorem digestSbeginFn_ok : Compute.Ok digestSbeginFn.compute := by
  intro s0 s c H
  dsimp only [digestSbeginFn]
  repeat' first
    | (with_reducible assumption) | (intro) | (with_reducible apply failed_keeps) | (with_reducible apply fencedResult_keeps)
    | (with_reducible apply Ctx.draw_keeps) | (with_reducible apply streamResult_keeps) | (with_reducible apply Keeps.ite2)
    | (with_reducible apply Keeps.ite)
    | (fail_if_no_progress ((with_reducible apply Keeps.record) <;> first | with_reducible rfl | skip)) | split
    | (rename_i h; have hs := congrArg Prod.snd h; dsimp only at hs; subst hs)
    | (rename_i h _; have hs := congrArg Prod.snd h; dsimp only at hs; subst hs) | (dsimp only)

theorem digestScontFn_ok : Compute.Ok digestScontFn.compute := by
  intro s0 s c H
  dsimp only [digestScontFn]
  repeat' first
    | (with_reducible assumption) | (intro) | (with_reducible apply failed_keeps) | (with_reducible apply fencedResult_keeps)
    | (with_reducible apply streamResult_keeps) | (with_reducible apply Keeps.ite2) | (with_reducible apply Keeps.ite)
    | (fail_if_no_progress ((with_reducible apply Keeps.record) <;> first | with_reducible rfl | skip)) | split
    | (rename_i h; have hs := congrArg Prod.snd h; dsimp only at hs; subst hs)
    | (rename_i h _; have hs := congrArg Prod.snd h; dsimp only at hs; subst hs) | (dsimp only)

theorem digestSendFn_ok : Compute.Ok digestSendFn.compute := by
  intro s0 s c H
  dsimp only [digestSendFn]
  repeat' first
    | (with_reducible assumption) | (intro) | (with_reducible apply failed_keeps) | (with_reducible apply fencedResult_keeps)
    | (with_reducible apply verdict_keeps) | (with_reducible apply withOut_keeps) | (with_reducible apply digestOut_keeps)
    | (with_reducible apply Keeps.ite2) | (with_reducible apply Keeps.ite)
    | (fail_if_no_progress ((with_reducible apply Keeps.record) <;> first | with_reducible rfl | skip)) | split
    | (rename_i h; have hs := congrArg Prod.snd h; dsimp only at hs; subst hs)
    | (rename_i h _; have hs := congrArg Prod.snd h; dsimp only at hs; subst hs) | (dsimp only)

theorem hybKexcombineFn_ok : Compute.Ok hybKexcombineFn.compute := by
  intro s0 s c H
  dsimp only [hybKexcombineFn]
  repeat' first
    | (with_reducible assumption) | (intro) | (with_reducible apply failed_keeps) | (with_reducible apply withOut_keeps)
    | (with_reducible apply Keeps.ite2) | (with_reducible apply Keeps.ite)
    | (fail_if_no_progress ((with_reducible apply Keeps.record) <;> first | with_reducible rfl | skip)) | split
    | (rename_i h; have hs := congrArg Prod.snd h; dsimp only at hs; subst hs)
    | (rename_i h _; have hs := congrArg Prod.snd h; dsimp only at hs; subst hs) | (dsimp only)

theorem hybSignFn_ok : Compute.Ok hybSignFn.compute := by
  intro s0 s c H
  dsimp only [hybSignFn]
  repeat' first
    | (with_reducible assumption) | (intro) | (with_reducible apply failed_keeps) | (with_reducible apply mldsaSignature_keeps)
    | (with_reducible apply ecSignature_keeps) | (with_reducible apply pubOut_keeps) | (with_reducible apply Keeps.ite2)
    | (with_reducible apply Keeps.ite)
    | (fail_if_no_progress ((with_reducible apply Keeps.record) <;> first | with_reducible rfl | skip)) | split
    | (rename_i h; have hs := congrArg Prod.snd h; dsimp only at hs; subst hs)
    | (rename_i h _; have hs := congrArg Prod.snd h; dsimp only at hs; subst hs) | (dsimp only)

theorem hybVerifyFn_ok : Compute.Ok hybVerifyFn.compute := by
  intro s0 s c H
  dsimp only [hybVerifyFn]
  repeat' first
    | (with_reducible assumption) | (intro) | (with_reducible apply failed_keeps) | (with_reducible apply verdict_keeps)
    | (with_reducible apply Keeps.ite2) | (with_reducible apply Keeps.ite)
    | (fail_if_no_progress ((with_reducible apply Keeps.record) <;> first | with_reducible rfl | skip)) | split
    | (rename_i h; have hs := congrArg Prod.snd h; dsimp only at hs; subst hs)
    | (rename_i h _; have hs := congrArg Prod.snd h; dsimp only at hs; subst hs) | (dsimp only)

theorem hybVerifyxFn_ok : Compute.Ok hybVerifyxFn.compute := by
  intro s0 s c H
  dsimp only [hybVerifyxFn]
  repeat' first
    | (with_reducible assumption) | (intro) | (with_reducible apply failed_keeps) | (with_reducible apply verdict_keeps)
    | (with_reducible apply Keeps.ite2) | (with_reducible apply Keeps.ite)
    | (fail_if_no_progress ((with_reducible apply Keeps.record) <;> first | with_reducible rfl | skip)) | split
    | (rename_i h; have hs := congrArg Prod.snd h; dsimp only at hs; subst hs)
    | (rename_i h _; have hs := congrArg Prod.snd h; dsimp only at hs; subst hs) | (dsimp only)

theorem fnDef_ok {code : Nat} {d : FnDef} (h : fnDef code = some d) : Compute.Ok d.compute := by
  unfold fnDef at h
  split at h
  · cases h; exact mlkemKeygenFn_ok
  · cases h; exact mlkemEncapsFn_ok
  · cases h; exact mlkemDecapsFn_ok
  · cases h; exact mlkemEncapskFn_ok
  · cases h; exact mlkemExportekFn_ok
  · cases h; exact mlkemImportekFn_ok
  · cases h; exact mldsaKeygenFn_ok
  · cases h; exact mldsaSignFn_ok
  · cases h; exact mldsaVerifyFn_ok
  · cases h; exact mldsaVerifyxFn_ok
  · cases h; exact mldsaExportpkFn_ok
  · cases h; exact mldsaImportpkFn_ok
  · cases h; exact fndsaKeygenFn_ok
  · cases h; exact fndsaSignFn_ok
  · cases h; exact fndsaVerifyFn_ok
  · cases h; exact fndsaVerifyxFn_ok
  · cases h; exact fndsaExportpkFn_ok
  · cases h; exact fndsaImportpkFn_ok
  · cases h; exact slhdsaKeygenFn_ok
  · cases h; exact slhdsaSignFn_ok
  · cases h; exact slhdsaVerifyFn_ok
  · cases h; exact slhdsaVerifyxFn_ok
  · cases h; exact slhdsaExportpkFn_ok
  · cases h; exact slhdsaImportpkFn_ok
  · cases h; exact lmsKeygenFn_ok
  · cases h; exact lmsSignFn_ok
  · cases h; exact lmsVerifyFn_ok
  · cases h; exact lmsVerifyxFn_ok
  · cases h; exact lmsExportpkFn_ok
  · cases h; exact lmsImportpkFn_ok
  · cases h; exact xmssKeygenFn_ok
  · cases h; exact xmssSignFn_ok
  · cases h; exact xmssVerifyFn_ok
  · cases h; exact xmssVerifyxFn_ok
  · cases h; exact xmssExportpkFn_ok
  · cases h; exact xmssImportpkFn_ok
  · cases h; exact mcelieceKeygenFn_ok
  · cases h; exact mcelieceEncapsFn_ok
  · cases h; exact mcelieceDecapsFn_ok
  · cases h; exact mcelieceEncapskFn_ok
  · cases h; exact mcelieceExportpkFn_ok
  · cases h; exact mcelieceImportpkFn_ok
  · cases h; exact mcelieceResideFn_ok
  · cases h; exact hqcKeygenFn_ok
  · cases h; exact hqcEncapsFn_ok
  · cases h; exact hqcDecapsFn_ok
  · cases h; exact hqcEncapskFn_ok
  · cases h; exact hqcExportpkFn_ok
  · cases h; exact hqcImportpkFn_ok
  · cases h; exact rsaKeygenFn_ok
  · cases h; exact rsaSignFn_ok
  · cases h; exact rsaVerifyFn_ok
  · cases h; exact rsaVerifyxFn_ok
  · cases h; exact rsaDecryptFn_ok
  · cases h; exact rsaEncryptFn_ok
  · cases h; exact rsaExportpkFn_ok
  · cases h; exact rsaImportpkFn_ok
  · cases h; exact ecKeygenFn_ok
  · cases h; exact ecSignFn_ok
  · cases h; exact ecVerifyFn_ok
  · cases h; exact ecVerifyxFn_ok
  · cases h; exact ecEphagreeFn_ok
  · cases h; exact ecAgreeFn_ok
  · cases h; exact ecExportpkFn_ok
  · cases h; exact ecImportpkFn_ok
  · cases h; exact ecCurvecheckFn_ok
  · cases h; exact digestHashFn_ok
  · cases h; exact digestCshakeFn_ok
  · cases h; exact digestHmacFn_ok
  · cases h; exact digestHmacverifyFn_ok
  · cases h; exact digestKmacFn_ok
  · cases h; exact digestKmacverifyFn_ok
  · cases h; exact digestHkdfFn_ok
  · cases h; exact digestKdf108Fn_ok
  · cases h; exact digestSbeginFn_ok
  · cases h; exact digestScontFn_ok
  · cases h; exact digestSendFn_ok
  · cases h; exact aesCrypt_ok _
  · cases h; exact aesCrypt_ok _
  · cases h; exact aesCmacFn_ok
  · cases h; exact aesCmacverifyFn_ok
  · cases h; exact aesAeadsealFn_ok
  · cases h; exact aesAeadopenFn_ok
  · cases h; exact payPinxlateFn_ok
  · cases h; exact payDukptxlateFn_ok
  · cases h; exact payDukptderiveFn_ok
  · cases h; exact payDukptikFn_ok
  · cases h; exact payKbexportFn_ok
  · cases h; exact payKbimportFn_ok
  · cases h; exact randBytesFn_ok
  · cases h; exact catGenerateFn_ok
  · cases h; exact catImportClearFn_ok
  · cases h; exact catUnwrapFn_ok
  · cases h; exact catWrapFn_ok
  · cases h; exact catWithdrawFn_ok
  · cases h; exact catRevokeFn_ok
  · cases h; exact catPinFn_ok
  · cases h; exact catInfoFn_ok
  · cases h; exact catSyncFn_ok
  · cases h; exact catCheckpointFn_ok
  · cases h; exact hybKexcombineFn_ok
  · cases h; exact hybSignFn_ok
  · cases h; exact hybVerifyFn_ok
  · cases h; exact hybVerifyxFn_ok
  · cases h

end Sys2Proof.Machine
end

