-- ==== Sys2Proof/Laws/KeepsJobs.lean ====
section
/-! SUPPORT. What the cards, the Docent bus, entropy and jobs do keeps what `Keeps` says: one lemma per operation. -/

set_option linter.all false

open Host

namespace Sys2Proof.Machine

theorem Card.finish_ok {s0 : State} {c : Card} (h : CardOk s0 c) (result : Nat) : CardOk s0 (c.finish result) := by
  unfold Card.finish
  repeat' first
    | (with_reducible assumption) | (fail_if_no_progress (with_reducible apply CardOk.record)) | split

theorem Card.toDeactivating_ok {s0 : State} {c : Card} (h : CardOk s0 c) (now : Nat) : CardOk s0 (c.toDeactivating now) := by
  unfold Card.toDeactivating
  repeat' first
    | (with_reducible assumption) | (fail_if_no_progress (with_reducible apply CardOk.record)) | split

theorem Card.fail_ok {s0 : State} {c : Card} (h : CardOk s0 c) (result : Nat) (now : Nat) : CardOk s0 (c.fail result now) := by
  unfold Card.fail
  repeat' first
    | (with_reducible assumption) | (with_reducible apply Card.toDeactivating_ok) | (with_reducible apply Card.finish_ok) | (fail_if_no_progress (with_reducible apply CardOk.record)) | split

theorem Card.again_ok {s0 : State} {c : Card} (h : CardOk s0 c) (next : Nat) (now : Nat) : CardOk s0 (c.again next now) := by
  unfold Card.again
  repeat' first
    | (with_reducible assumption) | (with_reducible apply Card.toDeactivating_ok) | (with_reducible apply Card.finish_ok) | (fail_if_no_progress (with_reducible apply CardOk.record)) | split

theorem Card.noAtr_ok {s0 : State} {c : Card} (h : CardOk s0 c) (result : Nat) (now : Nat) : CardOk s0 (c.noAtr result now) := by
  unfold Card.noAtr
  repeat' first
    | (with_reducible assumption) | (with_reducible apply Card.again_ok) | (with_reducible apply Card.fail_ok) | (fail_if_no_progress (with_reducible apply CardOk.record)) | split

theorem Card.ppsFail_ok {s0 : State} {c : Card} (h : CardOk s0 c) (now : Nat) : CardOk s0 (c.ppsFail now) := by
  unfold Card.ppsFail
  repeat' first
    | (with_reducible assumption) | (with_reducible apply Card.again_ok) | (with_reducible apply Card.fail_ok) | (fail_if_no_progress (with_reducible apply CardOk.record)) | split

theorem Card.dataPhase_ok {s0 : State} {c : Card} (h : CardOk s0 c) (one : Bool) : CardOk s0 (c.dataPhase one) := by
  unfold Card.dataPhase
  repeat' first
    | (with_reducible assumption) | (fail_if_no_progress (with_reducible apply CardOk.record)) | split

theorem Card.activated_ok {s0 : State} {c : Card} (h : CardOk s0 c) : CardOk s0 (c.activated) := by
  unfold Card.activated
  repeat' first
    | (with_reducible assumption) | (with_reducible apply Card.finish_ok) | (fail_if_no_progress (with_reducible apply CardOk.record)) | split

theorem State.cardSend_keeps {s0 s : State} (H : Keeps s0 s) (n : Nat) (c : Card) (hc : CardOk s0 c) :
    Keeps s0 (State.cardSend s n c) := by
  unfold State.cardSend
  repeat' first
    | (with_reducible assumption) | (intro) | (with_reducible apply hc) | (with_reducible apply Keeps.emit)
    | (with_reducible apply Keeps.setCardOk) | (fail_if_no_progress (with_reducible apply CardOk.record))
    | (with_reducible apply Keeps.ite2) | (with_reducible apply Keeps.ite)
    | (fail_if_no_progress ((with_reducible apply Keeps.record) <;> first | with_reducible rfl | skip)) | split | (dsimp only)

theorem State.cardPowerUp_keeps {s0 s : State} (H : Keeps s0 s) (n : Nat) (c : Card) (cls : Nat) (hc : CardOk s0 c) :
    Keeps s0 (State.cardPowerUp s n c cls) := by
  unfold State.cardPowerUp
  repeat' first
    | (with_reducible assumption) | (intro) | (with_reducible apply hc) | (with_reducible apply Keeps.emit)
    | (with_reducible apply Keeps.setCardOk) | (fail_if_no_progress (with_reducible apply CardOk.record))
    | (with_reducible apply Keeps.ite2) | (with_reducible apply Keeps.ite)
    | (fail_if_no_progress ((with_reducible apply Keeps.record) <;> first | with_reducible rfl | skip)) | split | (dsimp only)

theorem State.atrDone_keeps {s0 s : State} (H : Keeps s0 s) (n : Nat) (c : Card) (a : Atr) (hc : CardOk s0 c) :
    Keeps s0 (State.atrDone s n c a) := by
  unfold State.atrDone
  repeat' first
    | (with_reducible assumption) | (intro) | (with_reducible apply State.cardSend_keeps) | (with_reducible apply hc)
    | (with_reducible apply Keeps.setCardOk) | (with_reducible apply Card.fail_ok) | (with_reducible apply Card.again_ok)
    | (with_reducible apply Card.activated_ok) | (fail_if_no_progress (with_reducible apply CardOk.record))
    | (with_reducible apply Keeps.ite2) | (with_reducible apply Keeps.ite)
    | (fail_if_no_progress ((with_reducible apply Keeps.record) <;> first | with_reducible rfl | skip)) | split | (dsimp only)

theorem State.atrChar_keeps {s0 s : State} (H : Keeps s0 s) (n : Nat) (c : Card) (b : Byte) (hc : CardOk s0 c) :
    Keeps s0 (State.atrChar s n c b) := by
  unfold State.atrChar
  repeat' first
    | (with_reducible assumption) | (intro) | (with_reducible apply State.atrDone_keeps) | (with_reducible apply hc)
    | (with_reducible apply Keeps.setCardOk) | (with_reducible apply Card.fail_ok) | (with_reducible apply Card.noAtr_ok)
    | (fail_if_no_progress (with_reducible apply CardOk.record)) | (with_reducible apply Keeps.ite2)
    | (with_reducible apply Keeps.ite)
    | (fail_if_no_progress ((with_reducible apply Keeps.record) <;> first | with_reducible rfl | skip)) | split | (dsimp only)

theorem State.procByte_keeps {s0 s : State} (H : Keeps s0 s) (n : Nat) (c : Card) (b : Byte) (hc : CardOk s0 c) :
    Keeps s0 (State.procByte s n c b) := by
  unfold State.procByte
  repeat' first
    | (with_reducible assumption) | (intro) | (with_reducible apply State.cardSend_keeps) | (with_reducible apply hc)
    | (with_reducible apply Keeps.setCardOk) | (with_reducible apply Card.dataPhase_ok) | (with_reducible apply Card.fail_ok)
    | (fail_if_no_progress (with_reducible apply CardOk.record)) | (with_reducible apply Keeps.ite2)
    | (with_reducible apply Keeps.ite)
    | (fail_if_no_progress ((with_reducible apply Keeps.record) <;> first | with_reducible rfl | skip)) | split | (dsimp only)

theorem State.sw2Byte_keeps {s0 s : State} (H : Keeps s0 s) (n : Nat) (c : Card) (b : Byte) (hc : CardOk s0 c) :
    Keeps s0 (State.sw2Byte s n c b) := by
  unfold State.sw2Byte
  repeat' first
    | (with_reducible assumption) | (intro) | (with_reducible apply hc) | (with_reducible apply Keeps.setCardOk)
    | (with_reducible apply Card.finish_ok) | (with_reducible apply Card.toDeactivating_ok)
    | (fail_if_no_progress (with_reducible apply CardOk.record)) | (with_reducible apply Keeps.ite2)
    | (with_reducible apply Keeps.ite)
    | (fail_if_no_progress ((with_reducible apply Keeps.record) <;> first | with_reducible rfl | skip)) | split | (dsimp only)

theorem State.cardChar_keeps {s0 s : State} (H : Keeps s0 s) (n : Nat) (c : Card) (b : Byte) (hc : CardOk s0 c) :
    Keeps s0 (State.cardChar s n c b) := by
  unfold State.cardChar
  repeat' first
    | (with_reducible assumption) | (apply CardOk.setData) | (intro) | (with_reducible apply State.atrChar_keeps)
    | (with_reducible apply State.procByte_keeps) | (with_reducible apply State.sw2Byte_keeps) | (with_reducible apply hc)
    | (with_reducible apply Keeps.setCardOk) | (with_reducible apply Card.fail_ok) | (with_reducible apply Card.ppsFail_ok)
    | (with_reducible apply Card.activated_ok) | (fail_if_no_progress (with_reducible apply CardOk.record))
    | (with_reducible apply Keeps.ite2) | (with_reducible apply Keeps.ite)
    | (fail_if_no_progress ((with_reducible apply Keeps.record) <;> first | with_reducible rfl | skip)) | split | (dsimp only)

theorem State.cardParity_keeps {s0 s : State} (H : Keeps s0 s) (n : Nat) (c : Card) (hc : CardOk s0 c) :
    Keeps s0 (State.cardParity s n c) := by
  unfold State.cardParity
  repeat' first
    | (with_reducible assumption) | (intro) | (with_reducible apply hc) | (with_reducible apply Keeps.emit)
    | (with_reducible apply Keeps.setCardOk) | (with_reducible apply Card.fail_ok)
    | (fail_if_no_progress (with_reducible apply CardOk.record)) | (with_reducible apply Keeps.ite2)
    | (with_reducible apply Keeps.ite)
    | (fail_if_no_progress ((with_reducible apply Keeps.record) <;> first | with_reducible rfl | skip)) | split | (dsimp only)

theorem State.startTpdu_keeps {s0 s : State} (H : Keeps s0 s) (n : Nat) (c : Card) (hc : CardOk s0 c) :
    Keeps s0 (State.startTpdu s n c) := by
  unfold State.startTpdu
  repeat' first
    | (with_reducible assumption) | (intro) | (with_reducible apply State.cardSend_keeps) | (with_reducible apply hc)
    | (fail_if_no_progress (with_reducible apply CardOk.record)) | (with_reducible apply Keeps.ite2)
    | (with_reducible apply Keeps.ite)
    | (fail_if_no_progress ((with_reducible apply Keeps.record) <;> first | with_reducible rfl | skip)) | split | (dsimp only)

theorem State.cardActivate_keeps {s0 s : State} (H : Keeps s0 s) (slot : Nat) :
    Keeps s0 (State.cardActivate s slot) := by
  unfold State.cardActivate
  repeat' first
    | (with_reducible assumption) | (intro) | (with_reducible apply State.cardPowerUp_keeps)
    | (with_reducible apply Keeps.setCardOk) | (with_reducible apply CardOk.card) | (with_reducible apply Card.finish_ok)
    | (fail_if_no_progress (with_reducible apply CardOk.record)) | (with_reducible apply Keeps.ite2)
    | (with_reducible apply Keeps.ite)
    | (fail_if_no_progress ((with_reducible apply Keeps.record) <;> first | with_reducible rfl | skip)) | split | (dsimp only)

theorem State.cardDeactivate_keeps {s0 s : State} (H : Keeps s0 s) (slot : Nat) :
    Keeps s0 (State.cardDeactivate s slot) := by
  unfold State.cardDeactivate
  repeat' first
    | (with_reducible assumption) | (intro) | (with_reducible apply Keeps.setCardOk) | (with_reducible apply CardOk.card)
    | (with_reducible apply Card.fail_ok) | (with_reducible apply Card.toDeactivating_ok) | (with_reducible apply Card.finish_ok)
    | (fail_if_no_progress (with_reducible apply CardOk.record)) | (with_reducible apply Keeps.ite2)
    | (with_reducible apply Keeps.ite)
    | (fail_if_no_progress ((with_reducible apply Keeps.record) <;> first | with_reducible rfl | skip)) | split | (dsimp only)

theorem State.cardWarmReset_keeps {s0 s : State} (H : Keeps s0 s) (slot : Nat) :
    Keeps s0 (State.cardWarmReset s slot) := by
  unfold State.cardWarmReset
  repeat' first
    | (with_reducible assumption) | (intro) | (with_reducible apply Keeps.setCardOk) | (with_reducible apply CardOk.card)
    | (fail_if_no_progress (with_reducible apply CardOk.record)) | (with_reducible apply Keeps.ite2)
    | (with_reducible apply Keeps.ite)
    | (fail_if_no_progress ((with_reducible apply Keeps.record) <;> first | with_reducible rfl | skip)) | split | (dsimp only)

theorem State.cardStart_keeps {s0 s : State} (H : Keeps s0 s) (slot : Nat) :
    Keeps s0 (State.cardStart s slot) := by
  unfold State.cardStart
  repeat' first
    | (with_reducible assumption) | (intro) | (with_reducible apply State.startTpdu_keeps) | (with_reducible apply Keeps.setCardOk)
    | (with_reducible apply CardOk.card) | (with_reducible apply Card.finish_ok)
    | (fail_if_no_progress (with_reducible apply CardOk.record)) | (with_reducible apply Keeps.ite2)
    | (with_reducible apply Keeps.ite)
    | (fail_if_no_progress ((with_reducible apply Keeps.record) <;> first | with_reducible rfl | skip)) | split | (dsimp only)

theorem State.cardClkStop_keeps {s0 s : State} (H : Keeps s0 s) (slot : Nat) :
    Keeps s0 (State.cardClkStop s slot) := by
  unfold State.cardClkStop
  repeat' first
    | (with_reducible assumption) | (intro) | (with_reducible apply Keeps.setCardOk) | (with_reducible apply CardOk.card)
    | (with_reducible apply Card.finish_ok) | (fail_if_no_progress (with_reducible apply CardOk.record))
    | (with_reducible apply Keeps.ite2) | (with_reducible apply Keeps.ite)
    | (fail_if_no_progress ((with_reducible apply Keeps.record) <;> first | with_reducible rfl | skip)) | split | (dsimp only)

theorem State.cardWake_keeps {s0 s : State} (H : Keeps s0 s) (slot : Nat) :
    Keeps s0 (State.cardWake s slot) := by
  unfold State.cardWake
  repeat' first
    | (with_reducible assumption) | (intro) | (with_reducible apply Keeps.setCardOk) | (with_reducible apply CardOk.card)
    | (with_reducible apply Card.finish_ok) | (fail_if_no_progress (with_reducible apply CardOk.record))
    | (with_reducible apply Keeps.ite2) | (with_reducible apply Keeps.ite)
    | (fail_if_no_progress ((with_reducible apply Keeps.record) <;> first | with_reducible rfl | skip)) | split | (dsimp only)

theorem State.cardAbort_keeps {s0 s : State} (H : Keeps s0 s) (slot : Nat) :
    Keeps s0 (State.cardAbort s slot) := by
  unfold State.cardAbort
  repeat' first
    | (with_reducible assumption) | (intro) | (with_reducible apply Keeps.setCardOk) | (with_reducible apply CardOk.card)
    | (with_reducible apply Card.fail_ok) | (fail_if_no_progress (with_reducible apply CardOk.record))
    | (with_reducible apply Keeps.ite2) | (with_reducible apply Keeps.ite)
    | (fail_if_no_progress ((with_reducible apply Keeps.record) <;> first | with_reducible rfl | skip)) | split | (dsimp only)

theorem State.freezeCards_keeps {s0 s : State} (H : Keeps s0 s)  :
    Keeps s0 (State.freezeCards s) := by
  unfold State.freezeCards
  repeat' first
    | (with_reducible assumption) | (intro) | (with_reducible apply Keeps.forAll) | (with_reducible apply Keeps.setCardOk)
    | (with_reducible apply CardOk.card) | (with_reducible apply Card.fail_ok) | (with_reducible apply Card.toDeactivating_ok)
    | (fail_if_no_progress (with_reducible apply CardOk.record)) | (with_reducible apply Keeps.ite2)
    | (with_reducible apply Keeps.ite)
    | (fail_if_no_progress ((with_reducible apply Keeps.record) <;> first | with_reducible rfl | skip)) | split | (dsimp only)

theorem State.resetCards_keeps {s0 s : State} (H : Keeps s0 s)  :
    Keeps s0 (State.resetCards s) := by
  unfold State.resetCards
  repeat' first
    | (with_reducible assumption) | (with_reducible apply CardOk.empty) | (intro) | (with_reducible apply Keeps.forAll)
    | (with_reducible apply Keeps.log) | (with_reducible apply Keeps.setCardOk) | (with_reducible apply CardOk.card)
    | (with_reducible apply Card.finish_ok) | (fail_if_no_progress (with_reducible apply CardOk.record))
    | (with_reducible apply Keeps.ite2) | (with_reducible apply Keeps.ite)
    | (fail_if_no_progress ((with_reducible apply Keeps.record) <;> first | with_reducible rfl | skip)) | split | (dsimp only)

theorem State.deactivateCards_keeps {s0 s : State} (H : Keeps s0 s)  :
    Keeps s0 (State.deactivateCards s) := by
  unfold State.deactivateCards
  repeat' first
    | (with_reducible assumption) | (intro) | (with_reducible apply Keeps.forAll) | (with_reducible apply Keeps.setCardOk)
    | (with_reducible apply CardOk.card) | (with_reducible apply Card.fail_ok) | (with_reducible apply Card.toDeactivating_ok)
    | (fail_if_no_progress (with_reducible apply CardOk.record)) | (with_reducible apply Keeps.ite2)
    | (with_reducible apply Keeps.ite)
    | (fail_if_no_progress ((with_reducible apply Keeps.record) <;> first | with_reducible rfl | skip)) | split | (dsimp only)

theorem State.setAu_keeps {s0 s : State} (H : Keeps s0 s) (w : Wing) (m : Nat) (x : AccessUnit) :
    Keeps s0 (State.setAu s w m x) := by
  unfold State.setAu
  repeat' first
    | (with_reducible assumption) | (intro) | (with_reducible apply Keeps.setDocOk) | (with_reducible apply DocOk.doc)
    | (fail_if_no_progress (with_reducible apply DocOk.record)) | (with_reducible apply Keeps.ite2)
    | (with_reducible apply Keeps.ite)
    | (fail_if_no_progress ((with_reducible apply Keeps.record) <;> first | with_reducible rfl | skip)) | split | (dsimp only)

theorem State.violation_keeps {s0 s : State} (H : Keeps s0 s) (w : Wing) (m : Nat) (kind : Nat) (op : Nat) (user : Bool) (index : Nat) (addr : Nat) :
    Keeps s0 (State.violation s w m kind op user index addr) := by
  unfold State.violation
  repeat' first
    | (with_reducible assumption) | (intro) | (with_reducible apply State.setAu_keeps) | (with_reducible apply Keeps.log)
    | (with_reducible apply Keeps.ite2) | (with_reducible apply Keeps.ite)
    | (fail_if_no_progress ((with_reducible apply Keeps.record) <;> first | with_reducible rfl | skip)) | split | (dsimp only)

theorem State.docMemRead_keeps {s0 s : State} (H : Keeps s0 s) (w : Wing) (t : DocTarget) (n : Nat) :
    Keeps s0 (State.docMemRead s w t n).2 := by
  unfold State.docMemRead
  repeat' first
    | (with_reducible assumption) | (intro) | (with_reducible apply DocOk.doc) | (with_reducible apply DocOk.docW)
    | (with_reducible apply DocOk.docE) | (with_reducible apply Keeps.ite2) | (with_reducible apply Keeps.ite)
    | (fail_if_no_progress ((with_reducible apply Keeps.record) <;> first | with_reducible rfl | skip)) | split | (dsimp only)

theorem State.docMemWrite_keeps {s0 s : State} (H : Keeps s0 s) (w : Wing) (t : DocTarget) (bytes : List Byte) :
    Keeps s0 (State.docMemWrite s w t bytes) := by
  unfold State.docMemWrite
  repeat' first
    | (with_reducible assumption) | (with_reducible apply DocOk.writeLocal) | (with_reducible apply DocOk.writeShared) | (intro)
    | (with_reducible apply State.docentWrite_keeps) | (with_reducible apply State.writeHost_keeps)
    | (with_reducible apply Keeps.setDocOk) | (with_reducible apply DocOk.doc)
    | (fail_if_no_progress (with_reducible apply DocOk.record)) | (with_reducible apply Keeps.ite2)
    | (with_reducible apply Keeps.ite)
    | (fail_if_no_progress ((with_reducible apply Keeps.record) <;> first | with_reducible rfl | skip)) | split | (dsimp only)

theorem State.ringTarget_keeps {s0 s : State} (H : Keeps s0 s) (w : Wing) (core : Nat) (op : AccessOp) (addr : Nat) (len : Nat) :
    Keeps s0 (State.ringTarget s w core op addr len).2 := by
  unfold State.ringTarget
  repeat' first
    | (with_reducible assumption) | (intro) | (with_reducible apply State.violation_keeps) | (with_reducible apply Keeps.ite2)
    | (with_reducible apply Keeps.ite)
    | (fail_if_no_progress ((with_reducible apply Keeps.record) <;> first | with_reducible rfl | skip)) | split | (dsimp only)

theorem State.docRecordLost_keeps {s0 s : State} (H : Keeps s0 s) (w : Wing) (core : Nat) (q : Nat) (r : Record) :
    Keeps s0 (State.docRecordLost s w core q r) := by
  unfold State.docRecordLost
  repeat' first
    | (with_reducible assumption) | (intro) | (with_reducible apply Keeps.log) | (with_reducible apply Keeps.ite2)
    | (with_reducible apply Keeps.ite)
    | (fail_if_no_progress ((with_reducible apply Keeps.record) <;> first | with_reducible rfl | skip)) | split | (dsimp only)

theorem State.putDocRecord_keeps {s0 s : State} (H : Keeps s0 s) (w : Wing) (core : Nat) (q : Nat) (r : Record) :
    Keeps s0 (State.putDocRecord s w core q r) := by
  unfold State.putDocRecord
  repeat' first
    | (with_reducible assumption) | (intro) | (with_reducible apply State.docRecordLost_keeps)
    | (with_reducible apply State.ringTarget_keeps) | (with_reducible apply State.setDocQueue_keeps)
    | (with_reducible apply State.docMemWrite_keeps) | (with_reducible apply Keeps.ite2) | (with_reducible apply Keeps.ite)
    | (fail_if_no_progress ((with_reducible apply Keeps.record) <;> first | with_reducible rfl | skip)) | split
    | (rename_i h; have hs := congrArg Prod.snd h; dsimp only at hs; subst hs) | (dsimp only)

theorem State.loseDocRecords_keeps {s0 s : State} (H : Keeps s0 s) (p : Src → Bool) :
    Keeps s0 (State.loseDocRecords s p) := by
  unfold State.loseDocRecords
  repeat' first
    | (with_reducible assumption) | (intro) | (with_reducible apply State.putJob_keeps) | (with_reducible apply Keeps.forAll)
    | (with_reducible apply Keeps.ite2) | (with_reducible apply Keeps.ite)
    | (fail_if_no_progress ((with_reducible apply Keeps.record) <;> first | with_reducible rfl | skip)) | split | (dsimp only)

theorem State.docentReset_keeps {s0 s : State} (H : Keeps s0 s) (w : Wing) (device : Bool) :
    Keeps s0 (State.docentReset s w device) := by
  unfold State.docentReset
  repeat' first
    | (with_reducible assumption) | (with_reducible apply DocOk.empty) | (intro)
    | (with_reducible apply State.loseDocRecords_keeps) | (with_reducible apply State.resetCards_keeps)
    | (with_reducible apply Keeps.setDocOk) | (with_reducible apply DocOk.doc)
    | (fail_if_no_progress (with_reducible apply DocOk.record)) | (with_reducible apply Keeps.ite2)
    | (with_reducible apply Keeps.ite)
    | (fail_if_no_progress ((with_reducible apply Keeps.record) <;> first | with_reducible rfl | skip)) | split | (dsimp only)

theorem State.setSource_keeps {s0 s : State} (H : Keeps s0 s) (k : Nat) (x : Source) :
    Keeps s0 (State.setSource s k x) := by
  unfold State.setSource
  repeat' first
    | (with_reducible assumption) | (intro) | (with_reducible apply Keeps.ite2) | (with_reducible apply Keeps.ite)
    | (fail_if_no_progress ((with_reducible apply Keeps.record) <;> first | with_reducible rfl | skip)) | split | (dsimp only)

theorem State.setPool_keeps {s0 s : State} (H : Keeps s0 s) (p : Pool) (x : PoolState) :
    Keeps s0 (State.setPool s p x) := by
  unfold State.setPool
  repeat' first
    | (with_reducible assumption) | (intro) | (with_reducible apply Keeps.ite2) | (with_reducible apply Keeps.ite)
    | (fail_if_no_progress ((with_reducible apply Keeps.record) <;> first | with_reducible rfl | skip)) | split | (dsimp only)

theorem State.enforceMin_keeps {s0 s : State} (H : Keeps s0 s) (p : Pool) :
    Keeps s0 (State.enforceMin s p) := by
  unfold State.enforceMin
  repeat' first
    | (with_reducible assumption) | (intro) | (with_reducible apply State.setDrbg_keeps) | (with_reducible apply Keeps.forAll)
    | (with_reducible apply Keeps.log) | (with_reducible apply Keeps.ite2) | (with_reducible apply Keeps.ite)
    | (fail_if_no_progress ((with_reducible apply Keeps.record) <;> first | with_reducible rfl | skip)) | split | (dsimp only)

theorem State.spoilQueues_keeps {s0 s : State} (H : Keeps s0 s) (w : Wing) :
    Keeps s0 (State.spoilQueues s w) := by
  unfold State.spoilQueues
  repeat' first
    | (with_reducible assumption) | (intro) | (with_reducible apply State.setQueue_keeps)
    | (with_reducible apply State.setDocQueue_keeps) | (with_reducible apply Keeps.forAll) | (with_reducible apply DocOk.doc)
    | (with_reducible apply Keeps.ite2) | (with_reducible apply Keeps.ite)
    | (fail_if_no_progress ((with_reducible apply Keeps.record) <;> first | with_reducible rfl | skip)) | split | (dsimp only)

theorem State.markC0_keeps {s0 s : State} (H : Keeps s0 s)  :
    Keeps s0 (State.markC0 s) := by
  unfold State.markC0
  repeat' first
    | (with_reducible assumption) | (intro) | (with_reducible apply State.putJob_keeps)
    | (with_reducible apply State.spoilQueues_keeps) | (with_reducible apply Keeps.forAll) | (with_reducible apply Keeps.ite2)
    | (with_reducible apply Keeps.ite)
    | (fail_if_no_progress ((with_reducible apply Keeps.record) <;> first | with_reducible rfl | skip)) | split | (dsimp only)

theorem State.dropBlocks_keeps {s0 s : State} (H : Keeps s0 s) (k : Nat) :
    Keeps s0 (State.dropBlocks s k) := by
  unfold State.dropBlocks
  repeat' first
    | (with_reducible assumption) | (intro) | (with_reducible apply State.setPool_keeps) | (with_reducible apply Keeps.forAll)
    | (with_reducible apply Keeps.ite2) | (with_reducible apply Keeps.ite)
    | (fail_if_no_progress ((with_reducible apply Keeps.record) <;> first | with_reducible rfl | skip)) | split | (dsimp only)

theorem State.takeBits_keeps {s0 s : State} (H : Keeps s0 s) (p : Pool) (u0 : Nat) :
    Keeps s0 (State.takeBits s p u0) := by
  induction u0 generalizing s with
  | zero => exact H
  | succ k ih =>
    unfold State.takeBits
    repeat' first
      | (with_reducible assumption) | (with_reducible apply ih) | (with_reducible apply State.setPool_keeps)
      | (with_reducible apply Keeps.ite) | split | (dsimp only)

theorem State.contribute_keeps {s0 s : State} (H : Keeps s0 s) (k : Nat) (bit : Bool) (p : Pool) :
    Keeps s0 (State.contribute s k bit p) := by
  unfold State.contribute
  repeat' first
    | (with_reducible assumption) | (intro) | (with_reducible apply State.takeBits_keeps)
    | (with_reducible apply State.setPool_keeps) | (with_reducible apply Keeps.ite2) | (with_reducible apply Keeps.ite)
    | (fail_if_no_progress ((with_reducible apply Keeps.record) <;> first | with_reducible rfl | skip)) | split | (dsimp only)

theorem State.seedDrbg_keeps {s0 s : State} (H : Keeps s0 s) (d : Drbg) (bits : List (List Byte)) :
    Keeps s0 (State.seedDrbg s d bits) := by
  unfold State.seedDrbg
  repeat' first
    | (with_reducible assumption) | (intro) | (with_reducible apply State.setDrbg_keeps) | (with_reducible apply Keeps.ite2)
    | (with_reducible apply Keeps.ite)
    | (fail_if_no_progress ((with_reducible apply Keeps.record) <;> first | with_reducible rfl | skip)) | split | (dsimp only)

theorem State.seedMask_keeps {s0 s : State} (H : Keeps s0 s) (m : MaskGen) (bits : List (List Byte)) :
    Keeps s0 (State.seedMask s m bits) := by
  unfold State.seedMask
  repeat' first
    | (with_reducible assumption) | (intro) | (with_reducible apply State.setMaskGen_keeps) | (with_reducible apply Keeps.ite2)
    | (with_reducible apply Keeps.ite)
    | (fail_if_no_progress ((with_reducible apply Keeps.record) <;> first | with_reducible rfl | skip)) | split | (dsimp only)

theorem State.servePool_keeps {s0 s : State} (H : Keeps s0 s) (p : Pool) (u0 : Nat) :
    Keeps s0 (State.servePool s p u0) := by
  induction u0 generalizing s with
  | zero => exact H
  | succ k ih =>
    unfold State.servePool
    repeat' first
      | (with_reducible assumption) | (with_reducible apply ih) | (with_reducible apply State.seedMask_keeps)
      | (with_reducible apply State.seedDrbg_keeps) | (with_reducible apply State.setPool_keeps)
      | (with_reducible apply Keeps.ite) | split | (dsimp only)

theorem State.serve_keeps {s0 s : State} (H : Keeps s0 s) (p : Pool) :
    Keeps s0 (State.serve s p) := by
  unfold State.serve
  repeat' first
    | (with_reducible assumption) | (intro) | (with_reducible apply State.servePool_keeps) | (with_reducible apply Keeps.ite2)
    | (with_reducible apply Keeps.ite)
    | (fail_if_no_progress ((with_reducible apply Keeps.record) <;> first | with_reducible rfl | skip)) | split | (dsimp only)

theorem State.formBlock_keeps {s0 s : State} (H : Keeps s0 s) (p : Pool) :
    Keeps s0 (State.formBlock s p) := by
  unfold State.formBlock
  repeat' first
    | (with_reducible assumption) | (intro) | (with_reducible apply State.serve_keeps)
    | (with_reducible apply State.takeBits_keeps) | (with_reducible apply State.setPool_keeps) | (with_reducible apply Keeps.ite2)
    | (with_reducible apply Keeps.ite)
    | (fail_if_no_progress ((with_reducible apply Keeps.record) <;> first | with_reducible rfl | skip)) | split | (dsimp only)

theorem State.entropyChanged_keeps {s0 s : State} (H : Keeps s0 s) (old : State) :
    Keeps s0 (State.entropyChanged old s) := by
  unfold State.entropyChanged
  repeat' first
    | (with_reducible assumption) | (intro) | (with_reducible apply State.serve_keeps)
    | (with_reducible apply State.enforceMin_keeps) | (with_reducible apply State.raisePort_keeps)
    | (with_reducible apply State.markC0_keeps) | (with_reducible apply Keeps.forAll) | (with_reducible apply Keeps.ite2)
    | (with_reducible apply Keeps.ite)
    | (fail_if_no_progress ((with_reducible apply Keeps.record) <;> first | with_reducible rfl | skip)) | split | (dsimp only)

theorem State.restartSources_keeps {s0 s : State} (H : Keeps s0 s) (l : List Nat) :
    Keeps s0 (State.restartSources s l) := by
  unfold State.restartSources
  repeat' first
    | (with_reducible assumption) | (intro) | (with_reducible apply State.setSource_keeps)
    | (with_reducible apply State.setPool_keeps) | (with_reducible apply Keeps.forAll) | (with_reducible apply Keeps.ite2)
    | (with_reducible apply Keeps.ite)
    | (fail_if_no_progress ((with_reducible apply Keeps.record) <;> first | with_reducible rfl | skip)) | split | (dsimp only)

theorem State.endRawTest_keeps {s0 s : State} (H : Keeps s0 s)  :
    Keeps s0 (State.endRawTest s) := by
  unfold State.endRawTest
  repeat' first
    | (with_reducible assumption) | (intro) | (with_reducible apply State.restartSources_keeps) | (with_reducible apply Keeps.ite2)
    | (with_reducible apply Keeps.ite)
    | (fail_if_no_progress ((with_reducible apply Keeps.record) <;> first | with_reducible rfl | skip)) | split | (dsimp only)

theorem State.abortRawTest_keeps {s0 s : State} (H : Keeps s0 s) (k : Nat) :
    Keeps s0 (State.abortRawTest s k) := by
  unfold State.abortRawTest
  repeat' first
    | (with_reducible assumption) | (intro) | (with_reducible apply State.endRawTest_keeps)
    | (with_reducible apply State.raiseAll_keeps) | (with_reducible apply Keeps.log) | (with_reducible apply Keeps.ite2)
    | (with_reducible apply Keeps.ite)
    | (fail_if_no_progress ((with_reducible apply Keeps.record) <;> first | with_reducible rfl | skip)) | split | (dsimp only)

theorem State.isolate_keeps {s0 s : State} (H : Keeps s0 s) (k : Nat) (test : Nat) :
    Keeps s0 (State.isolate s k test) := by
  unfold State.isolate
  repeat' first
    | (with_reducible assumption) | (intro) | (with_reducible apply State.dropBlocks_keeps)
    | (with_reducible apply State.setSource_keeps) | (with_reducible apply State.abortRawTest_keeps)
    | (with_reducible apply State.entropyChanged_keeps) | (with_reducible apply Keeps.log) | (with_reducible apply Keeps.ite2)
    | (with_reducible apply Keeps.ite)
    | (fail_if_no_progress ((with_reducible apply Keeps.record) <;> first | with_reducible rfl | skip)) | split | (dsimp only)

theorem State.rawGap_keeps {s0 s : State} (H : Keeps s0 s)  :
    Keeps s0 (State.rawGap s) := by
  unfold State.rawGap
  repeat' first
    | (with_reducible assumption) | (intro) | (with_reducible apply Keeps.ite2) | (with_reducible apply Keeps.ite)
    | (fail_if_no_progress ((with_reducible apply Keeps.record) <;> first | with_reducible rfl | skip)) | split | (dsimp only)

theorem State.rawSample_keeps {s0 s : State} (H : Keeps s0 s) (k : Nat) (bit : Bool) :
    Keeps s0 (State.rawSample s k bit) := by
  unfold State.rawSample
  repeat' first
    | (with_reducible assumption) | (intro) | (with_reducible apply State.rawGap_keeps) | (with_reducible apply Keeps.ite2)
    | (with_reducible apply Keeps.ite)
    | (fail_if_no_progress ((with_reducible apply Keeps.record) <;> first | with_reducible rfl | skip)) | split | (dsimp only)

theorem State.sample_keeps {s0 s : State} (H : Keeps s0 s) (k : Nat) (bit : Bool) :
    Keeps s0 (State.sample s k bit) := by
  unfold State.sample
  repeat' first
    | (with_reducible assumption) | (intro) | (with_reducible apply State.rawGap_keeps)
    | (with_reducible apply State.rawSample_keeps) | (with_reducible apply State.setSource_keeps)
    | (with_reducible apply State.isolate_keeps) | (with_reducible apply State.contribute_keeps)
    | (with_reducible apply Keeps.forAll) | (with_reducible apply Keeps.ite2) | (with_reducible apply Keeps.ite)
    | (fail_if_no_progress ((with_reducible apply Keeps.record) <;> first | with_reducible rfl | skip)) | split | (dsimp only)

theorem State.balance_keeps {s0 s : State} (H : Keeps s0 s) (k : Nat) :
    Keeps s0 (State.balance s k) := by
  unfold State.balance
  repeat' first
    | (with_reducible assumption) | (intro) | (with_reducible apply State.setSource_keeps)
    | (with_reducible apply State.isolate_keeps) | (with_reducible apply Keeps.ite2) | (with_reducible apply Keeps.ite)
    | (fail_if_no_progress ((with_reducible apply Keeps.record) <;> first | with_reducible rfl | skip)) | split | (dsimp only)

theorem State.wipeGenerators_keeps {s0 s : State} (H : Keeps s0 s) (ds : List Drbg) (ms : List MaskGen) :
    Keeps s0 (State.wipeGenerators s ds ms) := by
  unfold State.wipeGenerators
  repeat' first
    | (with_reducible assumption) | (intro) | (with_reducible apply State.setDrbg_keeps)
    | (with_reducible apply State.setMaskGen_keeps) | (with_reducible apply Keeps.forAll) | (with_reducible apply Keeps.ite2)
    | (with_reducible apply Keeps.ite)
    | (fail_if_no_progress ((with_reducible apply Keeps.record) <;> first | with_reducible rfl | skip)) | split | (dsimp only)

theorem State.restartWingEntropy_keeps {s0 s : State} (H : Keeps s0 s) (w : Wing) :
    Keeps s0 (State.restartWingEntropy s w) := by
  unfold State.restartWingEntropy
  repeat' first
    | (with_reducible assumption) | (intro) | (with_reducible apply State.restartSources_keeps)
    | (with_reducible apply State.wipeGenerators_keeps) | (with_reducible apply State.setPool_keeps)
    | (with_reducible apply Keeps.ite2) | (with_reducible apply Keeps.ite)
    | (fail_if_no_progress ((with_reducible apply Keeps.record) <;> first | with_reducible rfl | skip)) | split | (dsimp only)

theorem State.restartGalleryEntropy_keeps {s0 s : State} (H : Keeps s0 s) (g : Nat) :
    Keeps s0 (State.restartGalleryEntropy s g) := by
  unfold State.restartGalleryEntropy
  repeat' first
    | (with_reducible assumption) | (intro) | (with_reducible apply State.wipeGenerators_keeps)
    | (with_reducible apply State.restartSources_keeps) | (with_reducible apply Keeps.ite2) | (with_reducible apply Keeps.ite)
    | (fail_if_no_progress ((with_reducible apply Keeps.record) <;> first | with_reducible rfl | skip)) | split | (dsimp only)

theorem State.restartEntropy_keeps {s0 s : State} (H : Keeps s0 s)  :
    Keeps s0 (State.restartEntropy s) := by
  unfold State.restartEntropy
  repeat' first
    | (with_reducible assumption) | (intro) | (with_reducible apply State.restartWingEntropy_keeps)
    | (with_reducible apply State.restartSources_keeps) | (with_reducible apply State.setDrbg_keeps)
    | (with_reducible apply State.setPool_keeps) | (with_reducible apply Keeps.ite2) | (with_reducible apply Keeps.ite)
    | (fail_if_no_progress ((with_reducible apply Keeps.record) <;> first | with_reducible rfl | skip)) | split | (dsimp only)

theorem State.addGrant_keeps {s0 s : State} (H : Keeps s0 s) (n : Nat) (cls : Nat) (r : Resource) :
    Keeps s0 (State.addGrant s n cls r) := by
  unfold State.addGrant
  repeat' first
    | (with_reducible assumption) | (intro) | (with_reducible apply Keeps.ite2) | (with_reducible apply Keeps.ite)
    | (fail_if_no_progress ((with_reducible apply Keeps.record) <;> first | with_reducible rfl | skip)) | split | (dsimp only)

theorem State.takeUnits_keeps {s0 s : State} (H : Keeps s0 s) (n : Nat) (cls : Nat) (r : Resource) (c : Nat) :
    Keeps s0 (State.takeUnits s n cls r c) := by
  unfold State.takeUnits
  repeat' first
    | (with_reducible assumption) | (intro) | (with_reducible apply State.addGrant_keeps) | (with_reducible apply Keeps.forAll)
    | (with_reducible apply Keeps.ite2) | (with_reducible apply Keeps.ite)
    | (fail_if_no_progress ((with_reducible apply Keeps.record) <;> first | with_reducible rfl | skip)) | split | (dsimp only)

theorem State.releaseGrant_keeps {s0 s : State} (H : Keeps s0 s) (g : Grant) :
    Keeps s0 (State.releaseGrant s g) := by
  unfold State.releaseGrant
  repeat' first
    | (with_reducible assumption) | (intro) | (with_reducible apply State.setGal_keeps) | (with_reducible apply Keeps.ite2)
    | (with_reducible apply Keeps.ite)
    | (fail_if_no_progress ((with_reducible apply Keeps.record) <;> first | with_reducible rfl | skip)) | split | (dsimp only)

theorem State.releaseUnits_keeps {s0 s : State} (H : Keeps s0 s) (n : Nat) (p : Resource → Bool) :
    Keeps s0 (State.releaseUnits s n p) := by
  unfold State.releaseUnits
  repeat' first
    | (with_reducible assumption) | (intro) | (with_reducible apply State.releaseGrant_keeps) | (with_reducible apply Keeps.forAll)
    | (with_reducible apply Keeps.ite2) | (with_reducible apply Keeps.ite)
    | (fail_if_no_progress ((with_reducible apply Keeps.record) <;> first | with_reducible rfl | skip)) | split | (dsimp only)

theorem State.restUnits_keeps {s0 s : State} (H : Keeps s0 s) (n : Nat) :
    Keeps s0 (State.restUnits s n) := by
  unfold State.restUnits
  repeat' first
    | (with_reducible assumption) | (intro) | (with_reducible apply State.releaseUnits_keeps) | (with_reducible apply Keeps.ite2)
    | (with_reducible apply Keeps.ite)
    | (fail_if_no_progress ((with_reducible apply Keeps.record) <;> first | with_reducible rfl | skip)) | split | (dsimp only)

theorem State.issue_keeps {s0 s : State} (H : Keeps s0 s) (w : Wing) (l : List StagedWrite) :
    Keeps s0 (State.issue s w l) := by
  unfold State.issue
  repeat' first
    | (with_reducible assumption) | (intro) | (with_reducible apply State.writeHost_keeps) | (with_reducible apply Keeps.forAll)
    | (with_reducible apply Keeps.ite2) | (with_reducible apply Keeps.ite)
    | (fail_if_no_progress ((with_reducible apply Keeps.record) <;> first | with_reducible rfl | skip)) | split | (dsimp only)

theorem State.discardGroup_keeps {s0 s : State} (H : Keeps s0 s) (j : Job) :
    Keeps s0 (State.discardGroup s j) := by
  unfold State.discardGroup
  repeat' first
    | (with_reducible assumption) | (intro) | (with_reducible apply State.releaseReservation_keeps)
    | (with_reducible apply Keeps.forAll) | (with_reducible apply Keeps.ite2) | (with_reducible apply Keeps.ite)
    | (fail_if_no_progress ((with_reducible apply Keeps.record) <;> first | with_reducible rfl | skip)) | split | (dsimp only)

theorem State.releaseSegments_keeps {s0 s : State} (H : Keeps s0 s) (w : Wing) (parts : List Scatter) (bs : List Byte) (n : Nat) (fails : Option Nat) :
    Keeps s0 (State.releaseSegments s w parts bs n fails) := by
  unfold State.releaseSegments
  repeat' first
    | (with_reducible assumption) | (intro) | (with_reducible apply State.issue_keeps) | (with_reducible apply Keeps.forAll)
    | (with_reducible apply Keeps.ite2) | (with_reducible apply Keeps.ite)
    | (fail_if_no_progress ((with_reducible apply Keeps.record) <;> first | with_reducible rfl | skip)) | split | (dsimp only)

theorem State.zeroSegments_keeps {s0 s : State} (H : Keeps s0 s) (j : Job) (parts : List Scatter) (bs : List Byte) (st : Byte) (l : List Nat) (zeroFails : Nat → Bool) :
    Keeps s0 (State.zeroSegments s j parts bs st l zeroFails) := by
  unfold State.zeroSegments
  repeat' first
    | (with_reducible assumption) | (intro) | (with_reducible apply State.issue_keeps) | (with_reducible apply Keeps.forAll)
    | (with_reducible apply Keeps.log) | (with_reducible apply Keeps.ite2) | (with_reducible apply Keeps.ite)
    | (fail_if_no_progress ((with_reducible apply Keeps.record) <;> first | with_reducible rfl | skip)) | split | (dsimp only)

theorem State.scrub_keeps {s0 s : State} (H : Keeps s0 s) (j : Job) (parts : List Scatter) (bs : List Byte) (st : Byte) (n : Nat) (fails : Option Nat) (zeroFails : Nat → Bool) :
    Keeps s0 (State.scrub s j parts bs st n fails zeroFails).2 := by
  unfold State.scrub
  repeat' first
    | (with_reducible assumption) | (intro) | (with_reducible apply State.zeroSegments_keeps) | (with_reducible apply Keeps.ite2)
    | (with_reducible apply Keeps.ite)
    | (fail_if_no_progress ((with_reducible apply Keeps.record) <;> first | with_reducible rfl | skip)) | split | (dsimp only)

theorem State.endRelease_keeps {s0 s : State} (H : Keeps s0 s) (j : Job) (st : Byte) (how : EndHow) (zeroFails : Nat → Bool) :
    Keeps s0 (State.endRelease s j st how zeroFails).2 := by
  unfold State.endRelease
  repeat' first
    | (with_reducible assumption) | (intro) | (with_reducible apply State.free_keeps)
    | (with_reducible apply State.releaseSegments_keeps) | (with_reducible apply State.scrub_keeps)
    | (with_reducible apply Keeps.ite2) | (with_reducible apply Keeps.ite)
    | (fail_if_no_progress ((with_reducible apply Keeps.record) <;> first | with_reducible rfl | skip)) | split
    | (rename_i h; have hs := congrArg Prod.snd h; dsimp only at hs; subst hs)
    | (rename_i h _; have hs := congrArg Prod.snd h; dsimp only at hs; subst hs) | (dsimp only)

theorem State.logEnding_keeps {s0 s : State} (H : Keeps s0 s) (n : Nat) (st : Byte) :
    Keeps s0 (State.logEnding s n st) := by
  unfold State.logEnding
  repeat' first
    | (with_reducible assumption) | (intro) | (with_reducible apply Keeps.log) | (with_reducible apply Keeps.ite2)
    | (with_reducible apply Keeps.ite)
    | (fail_if_no_progress ((with_reducible apply Keeps.record) <;> first | with_reducible rfl | skip)) | split | (dsimp only)

theorem State.deliver_keeps {s0 s : State} (H : Keeps s0 s) (src : Src) (r : Record) (irq : Bool) (c0 : Bool) :
    Keeps s0 (State.deliver s src r irq c0) := by
  unfold State.deliver
  repeat' first
    | (with_reducible assumption) | (intro) | (with_reducible apply State.putRecord_keeps)
    | (with_reducible apply State.putDocRecord_keeps) | (with_reducible apply Keeps.ite2) | (with_reducible apply Keeps.ite)
    | (fail_if_no_progress ((with_reducible apply Keeps.record) <;> first | with_reducible rfl | skip)) | split | (dsimp only)

theorem State.countSilent_keeps {s0 s : State} (H : Keeps s0 s) (src : Src) :
    Keeps s0 (State.countSilent s src) := by
  unfold State.countSilent
  repeat' first
    | (with_reducible assumption) | (intro) | (with_reducible apply State.setQueue_keeps) | (with_reducible apply Keeps.ite2)
    | (with_reducible apply Keeps.ite)
    | (fail_if_no_progress ((with_reducible apply Keeps.record) <;> first | with_reducible rfl | skip)) | split | (dsimp only)

theorem State.logMade_keeps {s0 s : State} (H : Keeps s0 s) (j : Job) :
    Keeps s0 (State.logMade s j) := by
  unfold State.logMade
  repeat' first
    | (with_reducible assumption) | (intro) | (with_reducible apply Keeps.forAll) | (with_reducible apply Keeps.log)
    | (with_reducible apply Keeps.ite2) | (with_reducible apply Keeps.ite)
    | (fail_if_no_progress ((with_reducible apply Keeps.record) <;> first | with_reducible rfl | skip)) | split | (dsimp only)

theorem State.noteQuiet_keeps {s0 s : State} (H : Keeps s0 s) (w : Wing) :
    Keeps s0 (State.noteQuiet s w) := by
  unfold State.noteQuiet
  repeat' first
    | (with_reducible assumption) | (intro) | (with_reducible apply Keeps.ite2) | (with_reducible apply Keeps.ite)
    | (fail_if_no_progress ((with_reducible apply Keeps.record) <;> first | with_reducible rfl | skip)) | split | (dsimp only)

theorem State.unpark_keeps {s0 s : State} (H : Keeps s0 s) (g : Nat) :
    Keeps s0 (State.unpark s g) := by
  unfold State.unpark
  repeat' first
    | (with_reducible assumption) | (intro) | (with_reducible apply State.putJob_keeps) | (with_reducible apply Keeps.ite2)
    | (with_reducible apply Keeps.ite)
    | (fail_if_no_progress ((with_reducible apply Keeps.record) <;> first | with_reducible rfl | skip)) | split | (dsimp only)

theorem State.endJobWith_keeps {s0 s : State} (H : Keeps s0 s) (n : Nat) (st : Byte) (reason : Nat) (result : Word64) (how : EndHow) (zeroFails : Nat → Bool) :
    Keeps s0 (State.endJobWith s n st reason result how zeroFails) := by
  unfold State.endJobWith
  repeat' first
    | (with_reducible assumption) | (intro) | (with_reducible apply State.endRelease_keeps)
    | (with_reducible apply State.discardGroup_keeps) | (with_reducible apply State.setJob_keeps)
    | (with_reducible apply State.deliver_keeps) | (with_reducible apply State.countSilent_keeps)
    | (with_reducible apply State.logMade_keeps) | (with_reducible apply State.returnLoan_keeps)
    | (with_reducible apply State.releaseUnits_keeps) | (with_reducible apply State.noteQuiet_keeps)
    | (with_reducible apply State.unpark_keeps) | (with_reducible apply Keeps.forAll) | (with_reducible apply Keeps.log)
    | (with_reducible apply Keeps.ite2) | (with_reducible apply Keeps.ite)
    | (fail_if_no_progress ((with_reducible apply Keeps.record) <;> first | with_reducible rfl | skip)) | split
    | (rename_i h; have hs := congrArg Prod.snd h; dsimp only at hs; subst hs)
    | (rename_i h _; have hs := congrArg Prod.snd h; dsimp only at hs; subst hs) | (dsimp only)

theorem State.endJob_keeps {s0 s : State} (H : Keeps s0 s) (n : Nat) (st : Byte) :
    Keeps s0 (State.endJob s n st) := by
  unfold State.endJob
  repeat' first
    | (with_reducible assumption) | (intro) | (with_reducible apply State.endJobWith_keeps) | (with_reducible apply Keeps.ite2)
    | (with_reducible apply Keeps.ite)
    | (fail_if_no_progress ((with_reducible apply Keeps.record) <;> first | with_reducible rfl | skip)) | split | (dsimp only)

theorem State.badProgram_keeps {s0 s : State} (H : Keeps s0 s) (n : Nat) (reason : Nat) :
    Keeps s0 (State.badProgram s n reason) := by
  unfold State.badProgram
  repeat' first
    | (with_reducible assumption) | (intro) | (with_reducible apply State.endJobWith_keeps) | (with_reducible apply Keeps.ite2)
    | (with_reducible apply Keeps.ite)
    | (fail_if_no_progress ((with_reducible apply Keeps.record) <;> first | with_reducible rfl | skip)) | split | (dsimp only)

theorem State.abortJob_keeps {s0 s : State} (H : Keeps s0 s) (n : Nat) :
    Keeps s0 (State.abortJob s n) := by
  unfold State.abortJob
  repeat' first
    | (with_reducible assumption) | (intro) | (with_reducible apply State.endJobWith_keeps) | (with_reducible apply Keeps.ite2)
    | (with_reducible apply Keeps.ite)
    | (fail_if_no_progress ((with_reducible apply Keeps.record) <;> first | with_reducible rfl | skip)) | split | (dsimp only)

theorem State.endJobs_keeps {s0 s : State} (H : Keeps s0 s) (p : Nat → Job → Bool) (st : Byte) :
    Keeps s0 (State.endJobs s p st) := by
  unfold State.endJobs
  repeat' first
    | (with_reducible assumption) | (intro) | (with_reducible apply State.endJob_keeps) | (with_reducible apply Keeps.forAll)
    | (with_reducible apply Keeps.ite2) | (with_reducible apply Keeps.ite)
    | (fail_if_no_progress ((with_reducible apply Keeps.record) <;> first | with_reducible rfl | skip)) | split | (dsimp only)

theorem State.abortJobs_keeps {s0 s : State} (H : Keeps s0 s) (p : Nat → Job → Bool) :
    Keeps s0 (State.abortJobs s p) := by
  unfold State.abortJobs
  repeat' first
    | (with_reducible assumption) | (intro) | (with_reducible apply State.abortJob_keeps) | (with_reducible apply Keeps.forAll)
    | (with_reducible apply Keeps.ite2) | (with_reducible apply Keeps.ite)
    | (fail_if_no_progress ((with_reducible apply Keeps.record) <;> first | with_reducible rfl | skip)) | split | (dsimp only)

theorem State.endAtBoundary_keeps {s0 s : State} (H : Keeps s0 s) (n : Nat) (st : Byte) :
    Keeps s0 (State.endAtBoundary s n st) := by
  unfold State.endAtBoundary
  repeat' first
    | (with_reducible assumption) | (intro) | (with_reducible apply State.logEnding_keeps)
    | (with_reducible apply State.endJob_keeps) | (with_reducible apply State.putJob_keeps) | (with_reducible apply Keeps.ite2)
    | (with_reducible apply Keeps.ite)
    | (fail_if_no_progress ((with_reducible apply Keeps.record) <;> first | with_reducible rfl | skip)) | split | (dsimp only)

theorem State.endProgram_keeps {s0 s : State} (H : Keeps s0 s) (n : Nat) (st : Option Byte) (result : Word64) :
    Keeps s0 (State.endProgram s n st result) := by
  unfold State.endProgram
  repeat' first
    | (with_reducible assumption) | (intro) | (with_reducible apply State.badProgram_keeps)
    | (with_reducible apply State.endJobWith_keeps) | (with_reducible apply Keeps.ite2) | (with_reducible apply Keeps.ite)
    | (fail_if_no_progress ((with_reducible apply Keeps.record) <;> first | with_reducible rfl | skip)) | split | (dsimp only)

theorem State.atBoundary_keeps {s0 s : State} (H : Keeps s0 s) (n : Nat) (j : Job) (pc : Nat) :
    Keeps s0 (State.atBoundary s n j pc) := by
  unfold State.atBoundary
  repeat' first
    | (with_reducible assumption) | (intro) | (with_reducible apply State.putJob_keeps) | (with_reducible apply State.endJob_keeps)
    | (with_reducible apply State.endProgram_keeps) | (with_reducible apply Keeps.ite2) | (with_reducible apply Keeps.ite)
    | (fail_if_no_progress ((with_reducible apply Keeps.record) <;> first | with_reducible rfl | skip)) | split | (dsimp only)

theorem State.advance_keeps {s0 s : State} (H : Keeps s0 s) (n : Nat) (j : Job) :
    Keeps s0 (State.advance s n j) := by
  unfold State.advance
  repeat' first
    | (with_reducible assumption) | (intro) | (with_reducible apply State.atBoundary_keeps) | (with_reducible apply Keeps.ite2)
    | (with_reducible apply Keeps.ite)
    | (fail_if_no_progress ((with_reducible apply Keeps.record) <;> first | with_reducible rfl | skip)) | split | (dsimp only)

theorem State.complete_keeps {s0 s : State} (H : Keeps s0 s) (n : Nat) (j : Job) (st : Byte) (cont : Bool) :
    Keeps s0 (State.complete s n j st cont) := by
  unfold State.complete
  repeat' first
    | (with_reducible assumption) | (intro) | (with_reducible apply State.advance_keeps)
    | (with_reducible apply State.endJob_keeps) | (with_reducible apply State.putJob_keeps) | (with_reducible apply Keeps.ite2)
    | (with_reducible apply Keeps.ite)
    | (fail_if_no_progress ((with_reducible apply Keeps.record) <;> first | with_reducible rfl | skip)) | split | (dsimp only)

theorem State.runIns_keeps {s0 s : State} (H : Keeps s0 s) (n : Nat) (op : Nat) (f : Job → State → State) (hf : ∀ a0 x, Keeps s0 x → Keeps s0 (f a0 x)) :
    Keeps s0 (State.runIns s n op f) := by
  unfold State.runIns
  repeat' first
    | (with_reducible assumption) | (intro) | (with_reducible apply State.endJob_keeps) | (with_reducible apply State.putJob_keeps)
    | (with_reducible apply State.advance_keeps) | (with_reducible apply hf) | (with_reducible apply Keeps.ite2)
    | (with_reducible apply Keeps.ite)
    | (fail_if_no_progress ((with_reducible apply Keeps.record) <;> first | with_reducible rfl | skip)) | split | (dsimp only)

theorem State.failExec_keeps {s0 s : State} (H : Keeps s0 s) (n : Nat) (st : Byte) :
    Keeps s0 (State.failExec s n st) := by
  unfold State.failExec
  repeat' first
    | (with_reducible assumption) | (intro) | (with_reducible apply State.restUnits_keeps)
    | (with_reducible apply State.complete_keeps) | (with_reducible apply Keeps.ite2) | (with_reducible apply Keeps.ite)
    | (fail_if_no_progress ((with_reducible apply Keeps.record) <;> first | with_reducible rfl | skip)) | split | (dsimp only)

theorem State.setStage_keeps {s0 s : State} (H : Keeps s0 s) (n : Nat) (j : Job) (e : Exec) (st : ExecStage) :
    Keeps s0 (State.setStage s n j e st) := by
  unfold State.setStage
  repeat' first
    | (with_reducible assumption) | (intro) | (with_reducible apply State.putJob_keeps) | (with_reducible apply Keeps.ite2)
    | (with_reducible apply Keeps.ite)
    | (fail_if_no_progress ((with_reducible apply Keeps.record) <;> first | with_reducible rfl | skip)) | split | (dsimp only)

theorem State.bfeReads_keeps {s0 s : State} (H : Keeps s0 s) (j : Job) :
    Keeps s0 (State.bfeReads s j).2 := by
  unfold State.bfeReads
  repeat' first
    | (with_reducible assumption) | (intro) | (with_reducible apply State.gateReads_keeps) | (with_reducible apply Keeps.ite2)
    | (with_reducible apply Keeps.ite)
    | (fail_if_no_progress ((with_reducible apply Keeps.record) <;> first | with_reducible rfl | skip)) | split
    | (rename_i h; have hs := congrArg Prod.snd h; dsimp only at hs; subst hs)
    | (rename_i h _; have hs := congrArg Prod.snd h; dsimp only at hs; subst hs) | (dsimp only)

theorem State.modMem_keeps {s0 s : State} (H : Keeps s0 s) (n : Nat) (f : Resource → EngineMem → EngineMem) :
    Keeps s0 (State.modMem s n f) := by
  unfold State.modMem
  repeat' first
    | (with_reducible assumption) | (intro) | (with_reducible apply Keeps.ite2) | (with_reducible apply Keeps.ite)
    | (fail_if_no_progress ((with_reducible apply Keeps.record) <;> first | with_reducible rfl | skip)) | split | (dsimp only)

theorem State.tryUnits_keeps {s0 s : State} (H : Keeps s0 s) (n : Nat) :
    Keeps s0 (State.tryUnits s n) := by
  unfold State.tryUnits
  repeat' first
    | (with_reducible assumption) | (intro) | (with_reducible apply State.failExec_keeps)
    | (with_reducible apply State.endJob_keeps) | (with_reducible apply State.logDelivery_keeps)
    | (with_reducible apply State.bfeReads_keeps) | (with_reducible apply State.takeUnits_keeps)
    | (with_reducible apply State.modMem_keeps) | (with_reducible apply State.readHost_keeps)
    | (with_reducible apply State.setStage_keeps) | (with_reducible apply Keeps.forAll) | (with_reducible apply Keeps.ite2)
    | (with_reducible apply Keeps.ite)
    | (fail_if_no_progress ((with_reducible apply Keeps.record) <;> first | with_reducible rfl | skip)) | split
    | (rename_i h; have hs := congrArg Prod.snd h; dsimp only at hs; subst hs)
    | (rename_i h _; have hs := congrArg Prod.snd h; dsimp only at hs; subst hs) | (dsimp only)

theorem State.turnSecret_keeps {s0 s : State} (H : Keeps s0 s) (n : Nat) (j : Job) (e : Exec) (x : FnSpec) :
    Keeps s0 (State.turnSecret s n j e x) := by
  unfold State.turnSecret
  repeat' first
    | (with_reducible assumption) | (intro) | (with_reducible apply State.setStage_keeps)
    | (with_reducible apply State.restUnits_keeps) | (with_reducible apply State.endJob_keeps) | (with_reducible apply Keeps.log)
    | (with_reducible apply Keeps.ite2) | (with_reducible apply Keeps.ite)
    | (fail_if_no_progress ((with_reducible apply Keeps.record) <;> first | with_reducible rfl | skip)) | split | (dsimp only)

theorem State.tryReads_keeps {s0 s : State} (H : Keeps s0 s) (n : Nat) :
    Keeps s0 (State.tryReads s n) := by
  unfold State.tryReads
  repeat' first
    | (with_reducible assumption) | (intro) | (with_reducible apply State.releaseUnits_keeps)
    | (with_reducible apply State.turnSecret_keeps) | (with_reducible apply State.setStage_keeps)
    | (with_reducible apply Keeps.ite2) | (with_reducible apply Keeps.ite)
    | (fail_if_no_progress ((with_reducible apply Keeps.record) <;> first | with_reducible rfl | skip)) | split | (dsimp only)

theorem State.tryLeaf_keeps {s0 s : State} (H : Keeps s0 s) (n : Nat) (j : Job) (e : Exec) :
    Keeps s0 (State.tryLeaf s n j e) := by
  unfold State.tryLeaf
  repeat' first
    | (with_reducible assumption) | (intro) | (with_reducible apply State.failExec_keeps)
    | (with_reducible apply State.endJob_keeps) | (with_reducible apply State.setStage_keeps)
    | (with_reducible apply State.gateRead_keeps) | (with_reducible apply State.dropTrees_keeps)
    | (with_reducible apply State.setSlot_keeps) | (with_reducible apply Keeps.ite2) | (with_reducible apply Keeps.ite)
    | (fail_if_no_progress ((with_reducible apply Keeps.record) <;> first | with_reducible rfl | skip)) | split
    | (rename_i h; have hs := congrArg Prod.snd h; dsimp only at hs; subst hs)
    | (rename_i h _; have hs := congrArg Prod.snd h; dsimp only at hs; subst hs) | (dsimp only)

theorem State.runFn_keeps {s0 s : State} (H : Keeps s0 s) (n : Nat) (j : Job) (e : Exec) (x : FnSpec) (d : FnDef) (hd : Compute.Ok d.compute) :
    Keeps s0 (State.runFn s n j e x d).2 := by
  unfold State.runFn
  repeat' first
    | (with_reducible assumption) | (exact hd _ _ _ (State.view_keeps H _)) | (intro) | (with_reducible apply State.view_keeps)
    | (with_reducible apply State.unview_keeps) | (with_reducible apply hd) | (with_reducible apply Keeps.ite2)
    | (with_reducible apply Keeps.ite)
    | (fail_if_no_progress ((with_reducible apply Keeps.record) <;> first | with_reducible rfl | skip)) | split | (dsimp only)

theorem State.computeExec_keeps {s0 s : State} (H : Keeps s0 s) (n : Nat) (j : Job) (e : Exec) (x : FnSpec) (d : FnDef) (hd : Compute.Ok d.compute) :
    Keeps s0 (State.computeExec s n j e x d) := by
  unfold State.computeExec
  repeat' first
    | (with_reducible assumption) | (exact hd _ _ _ H) | (intro) | (with_reducible apply State.runFn_keeps)
    | (with_reducible apply State.modMem_keeps) | (with_reducible apply State.putJob_keeps) | (with_reducible apply hd)
    | (with_reducible apply Keeps.ite2) | (with_reducible apply Keeps.ite)
    | (fail_if_no_progress ((with_reducible apply Keeps.record) <;> first | with_reducible rfl | skip)) | split
    | (rename_i h; have hs := congrArg Prod.snd h; dsimp only at hs; subst hs)
    | (rename_i h _; have hs := congrArg Prod.snd h; dsimp only at hs; subst hs) | (dsimp only)

theorem State.tryCompute_keeps {s0 s : State} (H : Keeps s0 s) (n : Nat) :
    Keeps s0 (State.tryCompute s n) := by
  unfold State.tryCompute
  repeat' first
    | (with_reducible assumption) | (exact fnDef_ok (by assumption)) | (intro) | (with_reducible apply State.tryLeaf_keeps)
    | (with_reducible apply State.computeExec_keeps) | (with_reducible apply Keeps.ite2) | (with_reducible apply Keeps.ite)
    | (fail_if_no_progress ((with_reducible apply Keeps.record) <;> first | with_reducible rfl | skip)) | split | (dsimp only)

theorem State.advanceExec_keeps {s0 s : State} (H : Keeps s0 s) (n : Nat) :
    Keeps s0 (State.advanceExec s n) := by
  unfold State.advanceExec
  repeat' first
    | (with_reducible assumption) | (intro) | (with_reducible apply State.tryCompute_keeps)
    | (with_reducible apply State.tryReads_keeps) | (with_reducible apply State.tryUnits_keeps) | (with_reducible apply Keeps.ite2)
    | (with_reducible apply Keeps.ite)
    | (fail_if_no_progress ((with_reducible apply Keeps.record) <;> first | with_reducible rfl | skip)) | split | (dsimp only)

theorem State.pump_keeps {s0 s : State} (H : Keeps s0 s)  :
    Keeps s0 (State.pump s) := by
  unfold State.pump
  repeat' first
    | (with_reducible assumption) | (intro) | (with_reducible apply State.advanceExec_keeps) | (with_reducible apply Keeps.forAll)
    | (with_reducible apply Keeps.ite2) | (with_reducible apply Keeps.ite)
    | (fail_if_no_progress ((with_reducible apply Keeps.record) <;> first | with_reducible rfl | skip)) | split | (dsimp only)

theorem State.beginExec_keeps {s0 s : State} (H : Keeps s0 s) (n : Nat) (j : Job) (x : FnSpec) :
    Keeps s0 (State.beginExec s n j x) := by
  unfold State.beginExec
  repeat' first
    | (with_reducible assumption) | (intro) | (with_reducible apply State.setDrbg_keeps)
    | (with_reducible apply State.putJob_keeps) | (with_reducible apply Keeps.ite2) | (with_reducible apply Keeps.ite)
    | (fail_if_no_progress ((with_reducible apply Keeps.record) <;> first | with_reducible rfl | skip)) | split | (dsimp only)

theorem State.beginFn_keeps {s0 s : State} (H : Keeps s0 s) (code : Nat) (n : Nat) :
    Keeps s0 (State.beginFn s code n) := by
  unfold State.beginFn
  repeat' first
    | (with_reducible assumption) | (intro) | (with_reducible apply State.runIns_keeps) | (with_reducible apply State.putJob_keeps)
    | (with_reducible apply State.endJob_keeps) | (with_reducible apply State.badProgram_keeps)
    | (with_reducible apply State.failExec_keeps) | (with_reducible apply State.view_keeps)
    | (with_reducible apply State.advanceExec_keeps) | (with_reducible apply State.beginExec_keeps)
    | (with_reducible apply Keeps.log) | (with_reducible apply Keeps.ite2) | (with_reducible apply Keeps.ite)
    | (fail_if_no_progress ((with_reducible apply Keeps.record) <;> first | with_reducible rfl | skip)) | split | (dsimp only)

end Sys2Proof.Machine
end

