-- ==== Sys2Proof/Laws/KeepsParts.lean ====
section
/-! SUPPORT. What conservation, compatibility pages, the ledger, mailboxes, tamper and completion do keeps what `Keeps` says: one lemma per operation. -/

set_option linter.all false

open Host

namespace Sys2Proof.Machine

theorem State.endPage_keeps {s0 s : State} (H : Keeps s0 s) (p : Nat) (st : Byte) :
    Keeps s0 (State.endPage s p st) := by
  unfold State.endPage
  repeat' first
    | (with_reducible assumption) | (intro) | (with_reducible apply State.setPage_keeps)
    | (with_reducible apply State.returnLoan_keeps) | (with_reducible apply State.releaseUnits_keeps)
    | (with_reducible apply Keeps.ite2) | (with_reducible apply Keeps.ite)
    | (fail_if_no_progress ((with_reducible apply Keeps.record) <;> first | with_reducible rfl | skip)) | split | (dsimp only)

theorem State.endUser_keeps {s0 s : State} (H : Keeps s0 s) (n : Nat) (st : Byte) :
    Keeps s0 (State.endUser s n st) := by
  unfold State.endUser
  repeat' first
    | (with_reducible assumption) | (intro) | (with_reducible apply State.dropGens_keeps)
    | (with_reducible apply State.endPage_keeps) | (with_reducible apply State.endJob_keeps)
    | (with_reducible apply State.logEnding_keeps) | (with_reducible apply Keeps.ite2) | (with_reducible apply Keeps.ite)
    | (fail_if_no_progress ((with_reducible apply Keeps.record) <;> first | with_reducible rfl | skip)) | split | (dsimp only)

theorem State.wantSpare_keeps {s0 s : State} (H : Keeps s0 s) (u : UnitId) :
    Keeps s0 (State.wantSpare s u) := by
  unfold State.wantSpare
  repeat' first
    | (with_reducible assumption) | (intro) | (with_reducible apply State.setUnit_keeps) | (with_reducible apply Keeps.log)
    | (with_reducible apply Keeps.ite2) | (with_reducible apply Keeps.ite)
    | (fail_if_no_progress ((with_reducible apply Keeps.record) <;> first | with_reducible rfl | skip)) | split | (dsimp only)

theorem State.dropKept_keeps {s0 s : State} (H : Keeps s0 s) (u : UnitId) :
    Keeps s0 (State.dropKept s u) := by
  unfold State.dropKept
  repeat' first
    | (with_reducible assumption) | (intro) | (with_reducible apply Keeps.ite2) | (with_reducible apply Keeps.ite)
    | (fail_if_no_progress ((with_reducible apply Keeps.record) <;> first | with_reducible rfl | skip)) | split | (dsimp only)

theorem State.wiped_keeps {s0 s : State} (H : Keeps s0 s) (u : UnitId) :
    Keeps s0 (State.wiped s u) := by
  unfold State.wiped
  repeat' first
    | (with_reducible assumption) | (intro) | (with_reducible apply State.setGal_keeps) | (with_reducible apply Keeps.ite2)
    | (with_reducible apply Keeps.ite)
    | (fail_if_no_progress ((with_reducible apply Keeps.record) <;> first | with_reducible rfl | skip)) | split | (dsimp only)

theorem State.latchEvent_keeps {s0 s : State} (H : Keeps s0 s) (u : UnitId) (cause : Nat) (gen : Nat) :
    Keeps s0 (State.latchEvent s u cause gen) := by
  unfold State.latchEvent
  repeat' first
    | (with_reducible assumption) | (intro) | (with_reducible apply Keeps.ite2) | (with_reducible apply Keeps.ite)
    | (fail_if_no_progress ((with_reducible apply Keeps.record) <;> first | with_reducible rfl | skip)) | split | (dsimp only)

theorem State.fence_keeps {s0 s : State} (H : Keeps s0 s) (u : UnitId) (cause : Nat) :
    Keeps s0 (State.fence s u cause) := by
  unfold State.fence
  repeat' first
    | (with_reducible assumption) | (intro) | (with_reducible apply State.latchEvent_keeps)
    | (with_reducible apply State.wiped_keeps) | (with_reducible apply State.dropKept_keeps)
    | (with_reducible apply State.endUser_keeps) | (with_reducible apply State.setUnit_keeps)
    | (with_reducible apply State.setGal_keeps) | (with_reducible apply State.setDrbg_keeps)
    | (with_reducible apply State.setMaskGen_keeps) | (with_reducible apply State.markC0_keeps)
    | (with_reducible apply State.wantSpare_keeps) | (with_reducible apply Keeps.forAll) | (with_reducible apply Keeps.log)
    | (with_reducible apply Keeps.ite2) | (with_reducible apply Keeps.ite)
    | (fail_if_no_progress ((with_reducible apply Keeps.record) <;> first | with_reducible rfl | skip)) | split | (dsimp only)

theorem State.countError_keeps {s0 s : State} (H : Keeps s0 s) (u : UnitId) :
    Keeps s0 (State.countError s u) := by
  unfold State.countError
  repeat' first
    | (with_reducible assumption) | (intro) | (with_reducible apply State.setUnit_keeps) | (with_reducible apply State.fence_keeps)
    | (with_reducible apply Keeps.ite2) | (with_reducible apply Keeps.ite)
    | (fail_if_no_progress ((with_reducible apply Keeps.record) <;> first | with_reducible rfl | skip)) | split | (dsimp only)

theorem State.galleryDown_keeps {s0 s : State} (H : Keeps s0 s) (g : Nat) :
    Keeps s0 (State.galleryDown s g) := by
  unfold State.galleryDown
  repeat' first
    | (with_reducible assumption) | (intro) | (with_reducible apply State.dropGensOn_keeps)
    | (with_reducible apply State.endJobs_keeps) | (with_reducible apply State.setGal_keeps)
    | (with_reducible apply State.markC0_keeps) | (with_reducible apply State.entropyChanged_keeps)
    | (with_reducible apply State.restartGalleryEntropy_keeps) | (with_reducible apply Keeps.ite2)
    | (with_reducible apply Keeps.ite)
    | (fail_if_no_progress ((with_reducible apply Keeps.record) <;> first | with_reducible rfl | skip)) | split | (dsimp only)

theorem State.clearGalleries_keeps {s0 s : State} (H : Keeps s0 s) (w : Wing) :
    Keeps s0 (State.clearGalleries s w) := by
  unfold State.clearGalleries
  repeat' first
    | (with_reducible assumption) | (intro) | (with_reducible apply State.setGal_keeps) | (with_reducible apply Keeps.forAll)
    | (with_reducible apply Keeps.ite2) | (with_reducible apply Keeps.ite)
    | (fail_if_no_progress ((with_reducible apply Keeps.record) <;> first | with_reducible rfl | skip)) | split | (dsimp only)

theorem State.setLink_keeps {s0 s : State} (H : Keeps s0 s) (l : Link) (x : LinkState) :
    Keeps s0 (State.setLink s l x) := by
  unfold State.setLink
  repeat' first
    | (with_reducible assumption) | (intro) | (with_reducible apply Keeps.ite2) | (with_reducible apply Keeps.ite)
    | (fail_if_no_progress ((with_reducible apply Keeps.record) <;> first | with_reducible rfl | skip)) | split | (dsimp only)

theorem State.keyLink_keeps {s0 s : State} (H : Keeps s0 s) (l : Link) :
    Keeps s0 (State.keyLink s l) := by
  unfold State.keyLink
  repeat' first
    | (with_reducible assumption) | (intro) | (with_reducible apply State.drawFrom_keeps)
    | (with_reducible apply State.setLink_keeps) | (with_reducible apply Keeps.ite2) | (with_reducible apply Keeps.ite)
    | (fail_if_no_progress ((with_reducible apply Keeps.record) <;> first | with_reducible rfl | skip)) | split
    | (rename_i h; have hs := congrArg Prod.snd h; dsimp only at hs; subst hs)
    | (rename_i h _; have hs := congrArg Prod.snd h; dsimp only at hs; subst hs) | (dsimp only)

theorem State.startLinks_keeps {s0 s : State} (H : Keeps s0 s)  :
    Keeps s0 (State.startLinks s) := by
  unfold State.startLinks
  repeat' first
    | (with_reducible assumption) | (intro) | (with_reducible apply State.keyLink_keeps)
    | (with_reducible apply State.setLink_keeps) | (with_reducible apply State.drawFrom_keeps)
    | (with_reducible apply State.setChannel_keeps) | (with_reducible apply Keeps.forAll) | (with_reducible apply Keeps.ite2)
    | (with_reducible apply Keeps.ite)
    | (fail_if_no_progress ((with_reducible apply Keeps.record) <;> first | with_reducible rfl | skip)) | split
    | (rename_i h; have hs := congrArg Prod.snd h; dsimp only at hs; subst hs)
    | (rename_i h _; have hs := congrArg Prod.snd h; dsimp only at hs; subst hs) | (dsimp only)

theorem State.setAdmitted_keeps {s0 s : State} (H : Keeps s0 s) (w : Wing) (v : Bool) :
    Keeps s0 (State.setAdmitted s w v) := by
  unfold State.setAdmitted
  repeat' first
    | (with_reducible assumption) | (intro) | (with_reducible apply Keeps.ite2) | (with_reducible apply Keeps.ite)
    | (fail_if_no_progress ((with_reducible apply Keeps.record) <;> first | with_reducible rfl | skip)) | split | (dsimp only)

theorem State.setDesk_keeps {s0 s : State} (H : Keeps s0 s) (w : Wing) (v : Bool) :
    Keeps s0 (State.setDesk s w v) := by
  unfold State.setDesk
  repeat' first
    | (with_reducible assumption) | (intro) | (with_reducible apply Keeps.ite2) | (with_reducible apply Keeps.ite)
    | (fail_if_no_progress ((with_reducible apply Keeps.record) <;> first | with_reducible rfl | skip)) | split | (dsimp only)

theorem State.setReturning_keeps {s0 s : State} (H : Keeps s0 s) (w : Wing) (v : Bool) :
    Keeps s0 (State.setReturning s w v) := by
  unfold State.setReturning
  repeat' first
    | (with_reducible assumption) | (intro) | (with_reducible apply Keeps.ite2) | (with_reducible apply Keeps.ite)
    | (fail_if_no_progress ((with_reducible apply Keeps.record) <;> first | with_reducible rfl | skip)) | split | (dsimp only)

theorem State.setOrphan_keeps {s0 s : State} (H : Keeps s0 s) (w : Wing) (v : Bool) :
    Keeps s0 (State.setOrphan s w v) := by
  unfold State.setOrphan
  repeat' first
    | (with_reducible assumption) | (intro) | (with_reducible apply Keeps.ite2) | (with_reducible apply Keeps.ite)
    | (fail_if_no_progress ((with_reducible apply Keeps.record) <;> first | with_reducible rfl | skip)) | split | (dsimp only)

theorem State.raiseSplit_keeps {s0 s : State} (H : Keeps s0 s)  :
    Keeps s0 (State.raiseSplit s) := by
  unfold State.raiseSplit
  repeat' first
    | (with_reducible assumption) | (intro) | (with_reducible apply State.raiseAll_keeps) | (with_reducible apply Keeps.ite2)
    | (with_reducible apply Keeps.ite)
    | (fail_if_no_progress ((with_reducible apply Keeps.record) <;> first | with_reducible rfl | skip)) | split | (dsimp only)

theorem State.finishReturn_keeps {s0 s : State} (H : Keeps s0 s) (w : Wing) :
    Keeps s0 (State.finishReturn s w) := by
  unfold State.finishReturn
  repeat' first
    | (with_reducible assumption) | (intro) | (with_reducible apply State.raiseSplit_keeps)
    | (with_reducible apply State.setAdmitted_keeps) | (with_reducible apply State.setReturning_keeps)
    | (with_reducible apply State.setOrphan_keeps) | (with_reducible apply Keeps.ite2) | (with_reducible apply Keeps.ite)
    | (fail_if_no_progress ((with_reducible apply Keeps.record) <;> first | with_reducible rfl | skip)) | split | (dsimp only)

theorem State.tryAdmit_keeps {s0 s : State} (H : Keeps s0 s) (w : Wing) :
    Keeps s0 (State.tryAdmit s w) := by
  unfold State.tryAdmit
  repeat' first
    | (with_reducible assumption) | (intro) | (with_reducible apply State.finishReturn_keeps)
    | (with_reducible apply State.setAdmitted_keeps) | (with_reducible apply Keeps.ite2) | (with_reducible apply Keeps.ite)
    | (fail_if_no_progress ((with_reducible apply Keeps.record) <;> first | with_reducible rfl | skip)) | split | (dsimp only)

theorem State.startGen_keeps {s0 s : State} (H : Keeps s0 s) (n : Nat) :
    Keeps s0 (State.startGen s n) := by
  unfold State.startGen
  repeat' first
    | (with_reducible assumption) | (intro) | (with_reducible apply State.setSlot_keeps)
    | (with_reducible apply State.addGrant_keeps) | (with_reducible apply Keeps.forAll) | (with_reducible apply Keeps.ite2)
    | (with_reducible apply Keeps.ite)
    | (fail_if_no_progress ((with_reducible apply Keeps.record) <;> first | with_reducible rfl | skip)) | split | (dsimp only)

theorem State.startGens_keeps {s0 s : State} (H : Keeps s0 s)  :
    Keeps s0 (State.startGens s) := by
  unfold State.startGens
  repeat' first
    | (with_reducible assumption) | (intro) | (with_reducible apply State.startGen_keeps) | (with_reducible apply Keeps.forAll)
    | (with_reducible apply Keeps.ite2) | (with_reducible apply Keeps.ite)
    | (fail_if_no_progress ((with_reducible apply Keeps.record) <;> first | with_reducible rfl | skip)) | split | (dsimp only)

theorem State.endTrees_keeps {s0 s : State} (H : Keeps s0 s) (n : Nat) (g : TreeGen) (x : LedgerSlot) :
    Keeps s0 (State.endTrees s n g x) := by
  unfold State.endTrees
  repeat' first
    | (with_reducible assumption) | (intro) | (with_reducible apply State.setSlot_keeps) | (with_reducible apply Keeps.ite2)
    | (with_reducible apply Keeps.ite)
    | (fail_if_no_progress ((with_reducible apply Keeps.record) <;> first | with_reducible rfl | skip)) | split | (dsimp only)

theorem State.endGen_keeps {s0 s : State} (H : Keeps s0 s) (n : Nat) (g : TreeGen) :
    Keeps s0 (State.endGen s n g) := by
  unfold State.endGen
  repeat' first
    | (with_reducible assumption) | (intro) | (with_reducible apply State.endTrees_keeps) | (with_reducible apply Keeps.ite2)
    | (with_reducible apply Keeps.ite)
    | (fail_if_no_progress ((with_reducible apply Keeps.record) <;> first | with_reducible rfl | skip)) | split | (dsimp only)

theorem State.clearPageKeys_keeps {s0 s : State} (H : Keeps s0 s) (w : Wing) :
    Keeps s0 (State.clearPageKeys s w) := by
  unfold State.clearPageKeys
  repeat' first
    | (with_reducible assumption) | (intro) | (with_reducible apply State.setPage_keeps) | (with_reducible apply Keeps.forAll)
    | (with_reducible apply Keeps.ite2) | (with_reducible apply Keeps.ite)
    | (fail_if_no_progress ((with_reducible apply Keeps.record) <;> first | with_reducible rfl | skip)) | split | (dsimp only)

theorem State.beginPage_keeps {s0 s : State} (H : Keeps s0 s) (p : Nat) :
    Keeps s0 (State.beginPage s p) := by
  unfold State.beginPage
  repeat' first
    | (with_reducible assumption) | (intro) | (with_reducible apply State.setPage_keeps)
    | (with_reducible apply State.endPage_keeps) | (with_reducible apply State.lendRead_keeps)
    | (with_reducible apply State.logDelivery_keeps) | (with_reducible apply State.grantLoan_keeps)
    | (with_reducible apply Keeps.ite2) | (with_reducible apply Keeps.ite)
    | (fail_if_no_progress ((with_reducible apply Keeps.record) <;> first | with_reducible rfl | skip)) | split
    | (rename_i h; have hs := congrArg Prod.snd h; dsimp only at hs; subst hs)
    | (rename_i h _; have hs := congrArg Prod.snd h; dsimp only at hs; subst hs) | (dsimp only)

theorem State.advancePage_keeps {s0 s : State} (H : Keeps s0 s) (p : Nat) :
    Keeps s0 (State.advancePage s p) := by
  unfold State.advancePage
  repeat' first
    | (with_reducible assumption) | (intro) | (with_reducible apply State.beginPage_keeps)
    | (with_reducible apply State.addGrant_keeps) | (with_reducible apply Keeps.ite2) | (with_reducible apply Keeps.ite)
    | (fail_if_no_progress ((with_reducible apply Keeps.record) <;> first | with_reducible rfl | skip)) | split | (dsimp only)

theorem State.pumpAll_keeps {s0 s : State} (H : Keeps s0 s)  :
    Keeps s0 (State.pumpAll s) := by
  unfold State.pumpAll
  repeat' first
    | (with_reducible assumption) | (intro) | (with_reducible apply State.startGens_keeps)
    | (with_reducible apply State.pump_keeps) | (with_reducible apply State.advancePage_keeps)
    | (with_reducible apply Keeps.forAll) | (with_reducible apply Keeps.ite2) | (with_reducible apply Keeps.ite)
    | (fail_if_no_progress ((with_reducible apply Keeps.record) <;> first | with_reducible rfl | skip)) | split | (dsimp only)

theorem State.checkLow_keeps {s0 s : State} (H : Keeps s0 s) (n : Nat) :
    Keeps s0 (State.checkLow s n) := by
  unfold State.checkLow
  repeat' first
    | (with_reducible assumption) | (intro) | (with_reducible apply State.setSlot_keeps)
    | (with_reducible apply State.raiseCause_keeps) | (with_reducible apply Keeps.forAll) | (with_reducible apply Keeps.ite2)
    | (with_reducible apply Keeps.ite)
    | (fail_if_no_progress ((with_reducible apply Keeps.record) <;> first | with_reducible rfl | skip)) | split | (dsimp only)

theorem State.retireBlocks_keeps {s0 s : State} (H : Keeps s0 s) (w : Wing) :
    Keeps s0 (State.retireBlocks s w) := by
  unfold State.retireBlocks
  repeat' first
    | (with_reducible assumption) | (intro) | (with_reducible apply State.checkLow_keeps)
    | (with_reducible apply State.setSlot_keeps) | (with_reducible apply Keeps.forAll) | (with_reducible apply Keeps.log)
    | (with_reducible apply Keeps.ite2) | (with_reducible apply Keeps.ite)
    | (fail_if_no_progress ((with_reducible apply Keeps.record) <;> first | with_reducible rfl | skip)) | split | (dsimp only)

theorem State.logGranted_keeps {s0 s : State} (H : Keeps s0 s)  :
    Keeps s0 (State.logGranted s) := by
  unfold State.logGranted
  repeat' first
    | (with_reducible assumption) | (intro) | (with_reducible apply Keeps.forAll) | (with_reducible apply Keeps.log)
    | (with_reducible apply Keeps.ite2) | (with_reducible apply Keeps.ite)
    | (fail_if_no_progress ((with_reducible apply Keeps.record) <;> first | with_reducible rfl | skip)) | split | (dsimp only)

theorem State.grantBlock_keeps {s0 s : State} (H : Keeps s0 s) (w : Wing) (n : Nat) :
    Keeps s0 (State.grantBlock s w n) := by
  unfold State.grantBlock
  repeat' first
    | (with_reducible assumption) | (intro) | (with_reducible apply State.ledgerLog_keeps)
    | (with_reducible apply State.checkLow_keeps) | (with_reducible apply State.setSlot_keeps) | (with_reducible apply Keeps.ite2)
    | (with_reducible apply Keeps.ite)
    | (fail_if_no_progress ((with_reducible apply Keeps.record) <;> first | with_reducible rfl | skip)) | split | (dsimp only)

theorem State.tripGen_keeps {s0 s : State} (H : Keeps s0 s) (n : Nat) (g : TreeGen) :
    Keeps s0 (State.tripGen s n g) := by
  unfold State.tripGen
  repeat' first
    | (with_reducible assumption) | (intro) | (with_reducible apply State.dropGens_keeps)
    | (with_reducible apply State.countError_keeps) | (with_reducible apply Keeps.log) | (with_reducible apply Keeps.ite2)
    | (with_reducible apply Keeps.ite)
    | (fail_if_no_progress ((with_reducible apply Keeps.record) <;> first | with_reducible rfl | skip)) | split | (dsimp only)

theorem State.latchQuery_keeps {s0 s : State} (H : Keeps s0 s) (n : Nat) :
    Keeps s0 (State.latchQuery s n) := by
  unfold State.latchQuery
  repeat' first
    | (with_reducible assumption) | (intro) | (with_reducible apply Keeps.ite2) | (with_reducible apply Keeps.ite)
    | (fail_if_no_progress ((with_reducible apply Keeps.record) <;> first | with_reducible rfl | skip)) | split | (dsimp only)

theorem State.clearLowSlot_keeps {s0 s : State} (H : Keeps s0 s)  :
    Keeps s0 (State.clearLowSlot s) := by
  unfold State.clearLowSlot
  repeat' first
    | (with_reducible assumption) | (intro) | (with_reducible apply Keeps.ite2) | (with_reducible apply Keeps.ite)
    | (fail_if_no_progress ((with_reducible apply Keeps.record) <;> first | with_reducible rfl | skip)) | split | (dsimp only)

theorem State.replyTo_keeps {s0 s : State} (H : Keeps s0 s) (m : Sender) (st : Byte) (len : Nat) (bytes : List Byte) :
    Keeps s0 (State.replyTo s m st len bytes) := by
  unfold State.replyTo
  repeat' first
    | (with_reducible assumption) | (intro) | (with_reducible apply State.writeHost_keeps)
    | (with_reducible apply State.docMemWrite_keeps) | (with_reducible apply State.setMailbox_keeps)
    | (with_reducible apply Keeps.ite2) | (with_reducible apply Keeps.ite)
    | (fail_if_no_progress ((with_reducible apply Keeps.record) <;> first | with_reducible rfl | skip)) | split | (dsimp only)

theorem State.message_keeps {s0 s : State} (H : Keeps s0 s) (m : Sender) (code : Nat) (replyLen : Nat) (params : List Byte) (f : List Byte → State → Answer) (hf : ∀ a0 x, Keeps s0 x → Keeps s0 (f a0 x).2.2) :
    Keeps s0 (State.message s m code replyLen params f) := by
  unfold State.message
  repeat' first
    | (with_reducible assumption) | (intro) | (with_reducible apply State.replyTo_keeps) | (with_reducible apply hf)
    | (with_reducible apply Keeps.ite2) | (with_reducible apply Keeps.ite)
    | (fail_if_no_progress ((with_reducible apply Keeps.record) <;> first | with_reducible rfl | skip)) | split | (dsimp only)

theorem deny_keeps {s0 s : State} (H : Keeps s0 s) (st : Byte) :
    Keeps s0 (deny st s).2.2 := by
  unfold deny
  repeat' first
    | (with_reducible assumption) | (intro) | (with_reducible apply Keeps.ite2) | (with_reducible apply Keeps.ite)
    | (fail_if_no_progress ((with_reducible apply Keeps.record) <;> first | with_reducible rfl | skip)) | split | (dsimp only)

theorem State.useNonce_keeps {s0 s : State} (H : Keeps s0 s) (a : List Byte) :
    Keeps s0 (State.useNonce s a) := by
  unfold State.useNonce
  repeat' first
    | (with_reducible assumption) | (intro) | (with_reducible apply Keeps.ite2) | (with_reducible apply Keeps.ite)
    | (fail_if_no_progress ((with_reducible apply Keeps.record) <;> first | with_reducible rfl | skip)) | split | (dsimp only)

theorem State.withQuorum_keeps {s0 s : State} (H : Keeps s0 s) (action : Nat) (n : Nat) (p : List Byte) (f : State → Answer) (hf : ∀ x, Keeps s0 x → Keeps s0 (f x).2.2) :
    Keeps s0 (State.withQuorum s action n p f).2.2 := by
  unfold State.withQuorum
  repeat' first
    | (with_reducible assumption) | (intro) | (with_reducible apply deny_keeps) | (with_reducible apply State.useNonce_keeps)
    | (with_reducible apply hf) | (with_reducible apply Keeps.ite2) | (with_reducible apply Keeps.ite)
    | (fail_if_no_progress ((with_reducible apply Keeps.record) <;> first | with_reducible rfl | skip)) | split
    | (rename_i h; have hs := congrArg Prod.snd h; dsimp only at hs; subst hs)
    | (rename_i h _; have hs := congrArg Prod.snd h; dsimp only at hs; subst hs) | (dsimp only)

theorem State.endTransaction_keeps {s0 s : State} (H : Keeps s0 s) (result : Byte) :
    Keeps s0 (State.endTransaction s result) := by
  unfold State.endTransaction
  repeat' first
    | (with_reducible assumption) | (intro) | (with_reducible apply Keeps.log) | (with_reducible apply Keeps.ite2)
    | (with_reducible apply Keeps.ite)
    | (fail_if_no_progress ((with_reducible apply Keeps.record) <;> first | with_reducible rfl | skip)) | split | (dsimp only)

theorem State.abandonHandover_keeps {s0 s : State} (H : Keeps s0 s) (reason : Nat) :
    Keeps s0 (State.abandonHandover s reason) := by
  unfold State.abandonHandover
  repeat' first
    | (with_reducible assumption) | (intro) | (with_reducible apply Keeps.log) | (with_reducible apply Keeps.ite2)
    | (with_reducible apply Keeps.ite)
    | (fail_if_no_progress ((with_reducible apply Keeps.record) <;> first | with_reducible rfl | skip)) | split | (dsimp only)

theorem State.emptyCatalogue_keeps {s0 s : State} (H : Keeps s0 s)  :
    Keeps s0 (State.emptyCatalogue s) := by
  unfold State.emptyCatalogue
  repeat' first
    | (with_reducible assumption) | (intro) | (with_reducible apply Keeps.ite2) | (with_reducible apply Keeps.ite)
    | (fail_if_no_progress ((with_reducible apply Keeps.record) <;> first | with_reducible rfl | skip)) | split | (dsimp only)

theorem State.wrapMaster_keeps {s0 s : State} (H : Keeps s0 s) (slot : Nat) (meas : List Byte) :
    Keeps s0 (State.wrapMaster s slot meas) := by
  unfold State.wrapMaster
  repeat' first
    | (with_reducible assumption) | (intro) | (with_reducible apply Keeps.ite2) | (with_reducible apply Keeps.ite)
    | (fail_if_no_progress ((with_reducible apply Keeps.record) <;> first | with_reducible rfl | skip)) | split | (dsimp only)

theorem State.newMaster_keeps {s0 s : State} (H : Keeps s0 s) (slot : Nat) (m0 : List Byte) :
    Keeps s0 (State.newMaster s slot m0) := by
  unfold State.newMaster
  repeat' first
    | (with_reducible assumption) | (intro) | (with_reducible apply State.drawCurator_keeps)
    | (with_reducible apply State.wrapMaster_keeps) | (with_reducible apply Keeps.log) | (with_reducible apply Keeps.ite2)
    | (with_reducible apply Keeps.ite)
    | (fail_if_no_progress ((with_reducible apply Keeps.record) <;> first | with_reducible rfl | skip)) | split
    | (rename_i h; have hs := congrArg Prod.snd h; dsimp only at hs; subst hs)
    | (rename_i h _; have hs := congrArg Prod.snd h; dsimp only at hs; subst hs) | (dsimp only)

theorem State.unwrapMaster_keeps {s0 s : State} (H : Keeps s0 s)  :
    Keeps s0 (State.unwrapMaster s) := by
  unfold State.unwrapMaster
  repeat' first
    | (with_reducible assumption) | (intro) | (with_reducible apply State.newMaster_keeps) | (with_reducible apply Keeps.ite2)
    | (with_reducible apply Keeps.ite)
    | (fail_if_no_progress ((with_reducible apply Keeps.record) <;> first | with_reducible rfl | skip)) | split | (dsimp only)

theorem State.unlock_keeps {s0 s : State} (H : Keeps s0 s)  :
    Keeps s0 (State.unlock s) := by
  unfold State.unlock
  repeat' first
    | (with_reducible assumption) | (intro) | (with_reducible apply State.unwrapMaster_keeps)
    | (with_reducible apply State.drawCurator_keeps) | (with_reducible apply Keeps.ite2) | (with_reducible apply Keeps.ite)
    | (fail_if_no_progress ((with_reducible apply Keeps.record) <;> first | with_reducible rfl | skip)) | split
    | (rename_i h; have hs := congrArg Prod.snd h; dsimp only at hs; subst hs)
    | (rename_i h _; have hs := congrArg Prod.snd h; dsimp only at hs; subst hs) | (dsimp only)

theorem State.wipeAllGenerators_keeps {s0 s : State} (H : Keeps s0 s)  :
    Keeps s0 (State.wipeAllGenerators s) := by
  unfold State.wipeAllGenerators
  repeat' first
    | (with_reducible assumption) | (intro) | (with_reducible apply State.wipeGenerators_keeps)
    | (with_reducible apply State.entropyChanged_keeps) | (with_reducible apply Keeps.forAll) | (with_reducible apply Keeps.ite2)
    | (with_reducible apply Keeps.ite)
    | (fail_if_no_progress ((with_reducible apply Keeps.record) <;> first | with_reducible rfl | skip)) | split | (dsimp only)

theorem State.freezeJobs_keeps {s0 s : State} (H : Keeps s0 s)  :
    Keeps s0 (State.freezeJobs s) := by
  unfold State.freezeJobs
  repeat' first
    | (with_reducible assumption) | (intro) | (with_reducible apply State.endJobWith_keeps) | (with_reducible apply Keeps.forAll)
    | (with_reducible apply Keeps.ite2) | (with_reducible apply Keeps.ite)
    | (fail_if_no_progress ((with_reducible apply Keeps.record) <;> first | with_reducible rfl | skip)) | split | (dsimp only)

theorem State.abandonRestore_keeps {s0 s : State} (H : Keeps s0 s)  :
    Keeps s0 (State.abandonRestore s) := by
  unfold State.abandonRestore
  repeat' first
    | (with_reducible assumption) | (intro) | (with_reducible apply State.emptyCatalogue_keeps) | (with_reducible apply Keeps.ite2)
    | (with_reducible apply Keeps.ite)
    | (fail_if_no_progress ((with_reducible apply Keeps.record) <;> first | with_reducible rfl | skip)) | split | (dsimp only)

theorem State.freeze_keeps {s0 s : State} (H : Keeps s0 s) (die : Die) :
    Keeps s0 (State.freeze s die) := by
  unfold State.freeze
  repeat' first
    | (with_reducible assumption) | (intro) | (with_reducible apply State.markC0_keeps)
    | (with_reducible apply State.dropGensOn_keeps) | (with_reducible apply State.freezeJobs_keeps)
    | (with_reducible apply State.endPage_keeps) | (with_reducible apply State.wipeAllGenerators_keeps)
    | (with_reducible apply State.clearPageKeys_keeps) | (with_reducible apply State.retireBlocks_keeps)
    | (with_reducible apply State.freezeCards_keeps) | (with_reducible apply State.abandonRestore_keeps)
    | (with_reducible apply State.abandonHandover_keeps) | (with_reducible apply State.endTransaction_keeps)
    | (with_reducible apply Keeps.forAll) | (with_reducible apply Keeps.emit) | (with_reducible apply Keeps.setDocOk)
    | (with_reducible apply DocOk.docW) | (with_reducible apply DocOk.docE)
    | (fail_if_no_progress (with_reducible apply DocOk.record)) | (with_reducible apply Keeps.ite2)
    | (with_reducible apply Keeps.ite)
    | (fail_if_no_progress ((with_reducible apply Keeps.record) <;> first | with_reducible rfl | skip)) | split | (dsimp only)

theorem State.tamperRecordOf_keeps {s0 s : State} (H : Keeps s0 s) (t : Trip) (state : Nat) (action : Nat) (seq : Word32) :
    Keeps s0 (State.tamperRecordOf s t state action seq) := by
  unfold State.tamperRecordOf
  exact H.trans ⟨rfl, rfl, rfl, rfl, Nat.le_succ _, List.suffix_refl _,
    fun i => ⟨i.1, i.2.1, decide_eq_true (List.length_take_le _ _)⟩⟩

theorem State.tamperRecord_keeps {s0 s : State} (H : Keeps s0 s) (t : Trip) (state : Nat) (action : Nat) :
    Keeps s0 (State.tamperRecord s t state action) := by
  unfold State.tamperRecord
  repeat' first
    | (with_reducible assumption) | (intro) | (with_reducible apply State.tamperRecordOf_keeps) | (with_reducible apply Keeps.ite2)
    | (with_reducible apply Keeps.ite)
    | (fail_if_no_progress ((with_reducible apply Keeps.record) <;> first | with_reducible rfl | skip)) | split | (dsimp only)

theorem State.latchClass_keeps {s0 s : State} (H : Keeps s0 s) (cls : Nat) :
    Keeps s0 (State.latchClass s cls) := by
  unfold State.latchClass
  repeat' first
    | (with_reducible assumption) | (intro) | (with_reducible apply Keeps.ite2) | (with_reducible apply Keeps.ite)
    | (fail_if_no_progress ((with_reducible apply Keeps.record) <;> first | with_reducible rfl | skip)) | split | (dsimp only)

theorem State.setLive_keeps {s0 s : State} (H : Keeps s0 s) (cls : Nat) :
    Keeps s0 (State.setLive s cls) := by
  unfold State.setLive
  repeat' first
    | (with_reducible assumption) | (intro) | (with_reducible apply Keeps.ite2) | (with_reducible apply Keeps.ite)
    | (fail_if_no_progress ((with_reducible apply Keeps.record) <;> first | with_reducible rfl | skip)) | split | (dsimp only)

theorem State.addTrip_keeps {s0 s : State} (H : Keeps s0 s) (h : HeldTrip) :
    Keeps s0 (State.addTrip s h) := by
  unfold State.addTrip
  repeat' first
    | (with_reducible assumption) | (intro) | (with_reducible apply Keeps.ite2) | (with_reducible apply Keeps.ite)
    | (fail_if_no_progress ((with_reducible apply Keeps.record) <;> first | with_reducible rfl | skip)) | split | (dsimp only)

theorem State.railDip_keeps {s0 s : State} (H : Keeps s0 s) (t : Trip) :
    Keeps s0 (State.railDip s t) := by
  unfold State.railDip
  repeat' first
    | (with_reducible assumption) | (intro) | (with_reducible apply State.freeze_keeps) | (with_reducible apply Keeps.ite2)
    | (with_reducible apply Keeps.ite)
    | (fail_if_no_progress ((with_reducible apply Keeps.record) <;> first | with_reducible rfl | skip)) | split | (dsimp only)

theorem State.assertWake_keeps {s0 s : State} (H : Keeps s0 s)  :
    Keeps s0 (State.assertWake s) := by
  unfold State.assertWake
  repeat' first
    | (with_reducible assumption) | (intro) | (with_reducible apply Keeps.ite2) | (with_reducible apply Keeps.ite)
    | (fail_if_no_progress ((with_reducible apply Keeps.record) <;> first | with_reducible rfl | skip)) | split | (dsimp only)

theorem State.offAlarm_keeps {s0 s : State} (H : Keeps s0 s) (t : Trip) :
    Keeps s0 (State.offAlarm s t) := by
  unfold State.offAlarm
  repeat' first
    | (with_reducible assumption) | (intro) | (with_reducible apply State.tamperRecordOf_keeps)
    | (with_reducible apply State.setLive_keeps) | (with_reducible apply State.latchClass_keeps)
    | (with_reducible apply Keeps.ite2) | (with_reducible apply Keeps.ite)
    | (fail_if_no_progress ((with_reducible apply Keeps.record) <;> first | with_reducible rfl | skip)) | split | (dsimp only)

theorem State.sensorTrip_keeps {s0 s : State} (H : Keeps s0 s) (t : Trip) :
    Keeps s0 (State.sensorTrip s t) := by
  unfold State.sensorTrip
  repeat' first
    | (with_reducible assumption) | (intro) | (with_reducible apply State.offAlarm_keeps)
    | (with_reducible apply State.railDip_keeps) | (with_reducible apply State.addTrip_keeps)
    | (with_reducible apply State.raiseAll_keeps) | (with_reducible apply State.setLive_keeps)
    | (with_reducible apply State.latchClass_keeps) | (with_reducible apply State.assertWake_keeps)
    | (with_reducible apply State.freeze_keeps) | (with_reducible apply Keeps.ite2) | (with_reducible apply Keeps.ite)
    | (fail_if_no_progress ((with_reducible apply Keeps.record) <;> first | with_reducible rfl | skip)) | split | (dsimp only)

theorem State.eraseKeys_keeps {s0 s : State} (H : Keeps s0 s)  :
    Keeps s0 (State.eraseKeys s) := by
  unfold State.eraseKeys
  repeat' first
    | (with_reducible assumption) | (with_reducible apply DocOk.empty) | (intro)
    | (with_reducible apply State.clearGalleries_keeps) | (with_reducible apply State.markC0_keeps)
    | (with_reducible apply Keeps.setDocOk) | (with_reducible apply DocOk.docW) | (with_reducible apply DocOk.docE)
    | (fail_if_no_progress (with_reducible apply DocOk.record)) | (with_reducible apply Keeps.ite2)
    | (with_reducible apply Keeps.ite)
    | (fail_if_no_progress ((with_reducible apply Keeps.record) <;> first | with_reducible rfl | skip)) | split | (dsimp only)

theorem State.eraseMram_keeps {s0 s : State} (H : Keeps s0 s)  :
    Keeps s0 (State.eraseMram s) := by
  unfold State.eraseMram
  repeat' first
    | (with_reducible assumption) | (intro) | (with_reducible apply Keeps.ite2) | (with_reducible apply Keeps.ite)
    | (fail_if_no_progress ((with_reducible apply Keeps.record) <;> first | with_reducible rfl | skip)) | split | (dsimp only)

@[simp] theorem Tamper.putOrder_ring (t : Tamper) (o : TamperOrder) : (t.putOrder o).ring = t.ring := rfl
@[simp] theorem Tamper.putOrder_evSeq (t : Tamper) (o : TamperOrder) : (t.putOrder o).evSeq = t.evSeq := rfl

theorem State.loseBattery_keeps {s0 s : State} (H : Keeps s0 s)  :
    Keeps s0 (State.loseBattery s) := by
  unfold State.loseBattery
  refine H.trans ⟨rfl, rfl, rfl, rfl, Nat.le_refl _, List.suffix_refl _, fun i => ⟨?_, i.2.1, rfl⟩⟩
  have := i.1
  simp only [State.memWf, Bool.and_eq_true] at this ⊢
  exact this

theorem State.ownedQuorum_keeps {s0 s : State} (H : Keeps s0 s) (action : Nat) (n : Nat) (p : List Byte) (f : State → Answer) (hf : ∀ x, Keeps s0 x → Keeps s0 (f x).2.2) :
    Keeps s0 (State.ownedQuorum s action n p f).2.2 := by
  unfold State.ownedQuorum
  repeat' first
    | (with_reducible assumption) | (intro) | (with_reducible apply State.withQuorum_keeps) | (with_reducible apply hf)
    | (with_reducible apply Keeps.ite2) | (with_reducible apply Keeps.ite)
    | (fail_if_no_progress ((with_reducible apply Keeps.record) <;> first | with_reducible rfl | skip)) | split
    | (rename_i h; have hs := congrArg Prod.snd h; dsimp only at hs; subst hs)
    | (rename_i h _; have hs := congrArg Prod.snd h; dsimp only at hs; subst hs) | (dsimp only)

theorem State.thaw_keeps {s0 s : State} (H : Keeps s0 s)  :
    Keeps s0 (State.thaw s) := by
  unfold State.thaw
  repeat' first
    | (with_reducible assumption) | (intro) | (with_reducible apply Keeps.setDocOk) | (with_reducible apply DocOk.docW)
    | (with_reducible apply DocOk.docE) | (fail_if_no_progress (with_reducible apply DocOk.record))
    | (with_reducible apply Keeps.ite2) | (with_reducible apply Keeps.ite)
    | (fail_if_no_progress ((with_reducible apply Keeps.record) <;> first | with_reducible rfl | skip)) | split | (dsimp only)

theorem State.clearTamper_keeps {s0 s : State} (H : Keeps s0 s)  :
    Keeps s0 (State.clearTamper s) := by
  unfold State.clearTamper
  repeat' first
    | (with_reducible assumption) | (intro) | (with_reducible apply State.unlock_keeps)
    | (with_reducible apply State.refetchAll_keeps) | (with_reducible apply State.thaw_keeps)
    | (with_reducible apply State.tamperRecord_keeps) | (with_reducible apply Keeps.ite2) | (with_reducible apply Keeps.ite)
    | (fail_if_no_progress ((with_reducible apply Keeps.record) <;> first | with_reducible rfl | skip)) | split | (dsimp only)

theorem State.conditionsEnd_keeps {s0 s : State} (H : Keeps s0 s)  :
    Keeps s0 (State.conditionsEnd s) := by
  unfold State.conditionsEnd
  repeat' first
    | (with_reducible assumption) | (intro) | (with_reducible apply State.free_keeps) | (with_reducible apply Keeps.ite2)
    | (with_reducible apply Keeps.ite)
    | (fail_if_no_progress ((with_reducible apply Keeps.record) <;> first | with_reducible rfl | skip)) | split
    | (rename_i h; have hs := congrArg Prod.snd h; dsimp only at hs; subst hs)
    | (rename_i h _; have hs := congrArg Prod.snd h; dsimp only at hs; subst hs) | (dsimp only)

theorem State.installOrder_keeps {s0 s : State} (H : Keeps s0 s) (o : List Byte) :
    Keeps s0 (State.installOrder s o) := by
  unfold State.installOrder
  repeat' first
    | (with_reducible assumption) | (with_reducible apply Keeps.ite)
    | (fail_if_no_progress ((with_reducible apply Keeps.record) <;> first | rfl | skip)) | (split <;> rfl) | (dsimp only)

theorem State.setV_keeps {s0 s : State} (H : Keeps s0 s) (n : Nat) (j : Job) (v : Word64) :
    Keeps s0 (State.setV s n j v) := by
  unfold State.setV
  repeat' first
    | (with_reducible assumption) | (intro) | (with_reducible apply State.advance_keeps) | (with_reducible apply Keeps.ite2)
    | (with_reducible apply Keeps.ite)
    | (fail_if_no_progress ((with_reducible apply Keeps.record) <;> first | with_reducible rfl | skip)) | split | (dsimp only)

theorem State.aluIns_keeps {s0 s : State} (H : Keeps s0 s) (n : Nat) (op : Nat) (f : Word64 → Word64 → Word64) :
    Keeps s0 (State.aluIns s n op f) := by
  unfold State.aluIns
  repeat' first
    | (with_reducible assumption) | (intro) | (with_reducible apply State.runIns_keeps) | (with_reducible apply State.setV_keeps)
    | (with_reducible apply Keeps.ite2) | (with_reducible apply Keeps.ite)
    | (fail_if_no_progress ((with_reducible apply Keeps.record) <;> first | with_reducible rfl | skip)) | split | (dsimp only)

theorem State.endIns_keeps {s0 s : State} (H : Keeps s0 s) (n : Nat) (j : Job) :
    Keeps s0 (State.endIns s n j) := by
  unfold State.endIns
  repeat' first
    | (with_reducible assumption) | (intro) | (with_reducible apply State.badProgram_keeps)
    | (with_reducible apply State.endProgram_keeps) | (with_reducible apply Keeps.ite2) | (with_reducible apply Keeps.ite)
    | (fail_if_no_progress ((with_reducible apply Keeps.record) <;> first | with_reducible rfl | skip)) | split | (dsimp only)

theorem State.ldpIns_keeps {s0 s : State} (H : Keeps s0 s) (n : Nat) (j : Job) :
    Keeps s0 (State.ldpIns s n j) := by
  unfold State.ldpIns
  repeat' first
    | (with_reducible assumption) | (intro) | (with_reducible apply State.endJob_keeps)
    | (with_reducible apply State.complete_keeps) | (with_reducible apply Keeps.ite2) | (with_reducible apply Keeps.ite)
    | (fail_if_no_progress ((with_reducible apply Keeps.record) <;> first | with_reducible rfl | skip)) | split | (dsimp only)

theorem State.ldbIns_keeps {s0 s : State} (H : Keeps s0 s) (n : Nat) (j : Job) :
    Keeps s0 (State.ldbIns s n j) := by
  unfold State.ldbIns
  repeat' first
    | (with_reducible assumption) | (intro) | (with_reducible apply State.badProgram_keeps)
    | (with_reducible apply State.endJob_keeps) | (with_reducible apply State.complete_keeps) | (with_reducible apply Keeps.ite2)
    | (with_reducible apply Keeps.ite)
    | (fail_if_no_progress ((with_reducible apply Keeps.record) <;> first | with_reducible rfl | skip)) | split | (dsimp only)

theorem State.giveBack_keeps {s0 s : State} (H : Keeps s0 s) (n : Nat) (j : Job) (k : Nat) :
    Keeps s0 (State.giveBack s n j k).2 := by
  unfold State.giveBack
  repeat' first
    | (with_reducible assumption) | (intro) | (with_reducible apply State.returnLoan_keeps)
    | (with_reducible apply State.putJob_keeps) | (with_reducible apply Keeps.ite2) | (with_reducible apply Keeps.ite)
    | (fail_if_no_progress ((with_reducible apply Keeps.record) <;> first | with_reducible rfl | skip)) | split | (dsimp only)

theorem State.askLoan_keeps {s0 s : State} (H : Keeps s0 s) (n : Nat) (j : Job) :
    Keeps s0 (State.askLoan s n j) := by
  unfold State.askLoan
  repeat' first
    | (with_reducible assumption) | (intro) | (with_reducible apply State.giveBack_keeps)
    | (with_reducible apply State.complete_keeps) | (with_reducible apply State.putJob_keeps) | (with_reducible apply Keeps.ite2)
    | (with_reducible apply Keeps.ite)
    | (fail_if_no_progress ((with_reducible apply Keeps.record) <;> first | with_reducible rfl | skip)) | split
    | (rename_i h; have hs := congrArg Prod.snd h; dsimp only at hs; subst hs)
    | (rename_i h _; have hs := congrArg Prod.snd h; dsimp only at hs; subst hs) | (dsimp only)

theorem State.loanReply_keeps {s0 s : State} (H : Keeps s0 s) (n : Nat) (j : Job) :
    Keeps s0 (State.loanReply s n j) := by
  unfold State.loanReply
  repeat' first
    | (with_reducible assumption) | (intro) | (with_reducible apply State.underPolicy_keeps)
    | (with_reducible apply State.complete_keeps) | (with_reducible apply State.lendRead_keeps)
    | (with_reducible apply State.grantLoan_keeps) | (with_reducible apply Keeps.ite2) | (with_reducible apply Keeps.ite)
    | (fail_if_no_progress ((with_reducible apply Keeps.record) <;> first | with_reducible rfl | skip)) | split
    | (rename_i h; have hs := congrArg Prod.snd h; dsimp only at hs; subst hs)
    | (rename_i h _; have hs := congrArg Prod.snd h; dsimp only at hs; subst hs) | (dsimp only)

theorem State.returnIns_keeps {s0 s : State} (H : Keeps s0 s) (n : Nat) (j : Job) :
    Keeps s0 (State.returnIns s n j) := by
  unfold State.returnIns
  repeat' first
    | (with_reducible assumption) | (intro) | (with_reducible apply State.badProgram_keeps)
    | (with_reducible apply State.giveBack_keeps) | (with_reducible apply State.advance_keeps) | (with_reducible apply Keeps.ite2)
    | (with_reducible apply Keeps.ite)
    | (fail_if_no_progress ((with_reducible apply Keeps.record) <;> first | with_reducible rfl | skip)) | split
    | (rename_i h; have hs := congrArg Prod.snd h; dsimp only at hs; subst hs)
    | (rename_i h _; have hs := congrArg Prod.snd h; dsimp only at hs; subst hs) | (dsimp only)

theorem State.bufIns_keeps {s0 s : State} (H : Keeps s0 s) (n : Nat) (j : Job) :
    Keeps s0 (State.bufIns s n j) := by
  unfold State.bufIns
  repeat' first
    | (with_reducible assumption) | (intro) | (with_reducible apply State.endJob_keeps)
    | (with_reducible apply State.complete_keeps) | (with_reducible apply Keeps.ite2) | (with_reducible apply Keeps.ite)
    | (fail_if_no_progress ((with_reducible apply Keeps.record) <;> first | with_reducible rfl | skip)) | split | (dsimp only)

theorem State.bsliceIns_keeps {s0 s : State} (H : Keeps s0 s) (n : Nat) (j : Job) :
    Keeps s0 (State.bsliceIns s n j) := by
  unfold State.bsliceIns
  repeat' first
    | (with_reducible assumption) | (intro) | (with_reducible apply State.badProgram_keeps)
    | (with_reducible apply State.endJob_keeps) | (with_reducible apply State.complete_keeps) | (with_reducible apply Keeps.ite2)
    | (with_reducible apply Keeps.ite)
    | (fail_if_no_progress ((with_reducible apply Keeps.record) <;> first | with_reducible rfl | skip)) | split | (dsimp only)

theorem State.commitGroup_keeps {s0 s : State} (H : Keeps s0 s) (n : Nat) (j : Job) (g : Group) :
    Keeps s0 (State.commitGroup s n j g) := by
  unfold State.commitGroup
  repeat' first
    | (with_reducible assumption) | (intro) | (with_reducible apply State.endJob_keeps)
    | (with_reducible apply State.commitAccession_keeps) | (with_reducible apply State.complete_keeps)
    | (with_reducible apply Keeps.forAll) | (with_reducible apply Keeps.ite2) | (with_reducible apply Keeps.ite)
    | (fail_if_no_progress ((with_reducible apply Keeps.record) <;> first | with_reducible rfl | skip)) | split | (dsimp only)

theorem State.releaseEnd_keeps {s0 s : State} (H : Keeps s0 s) (n : Nat) (j : Job) (g : Group) (how : GroupRelease) :
    Keeps s0 (State.releaseEnd s n j g how) := by
  unfold State.releaseEnd
  repeat' first
    | (with_reducible assumption) | (intro) | (with_reducible apply State.endJob_keeps) | (with_reducible apply State.putJob_keeps)
    | (with_reducible apply State.commitGroup_keeps) | (with_reducible apply Keeps.ite2) | (with_reducible apply Keeps.ite)
    | (fail_if_no_progress ((with_reducible apply Keeps.record) <;> first | with_reducible rfl | skip)) | split | (dsimp only)

theorem State.endbIns_keeps {s0 s : State} (H : Keeps s0 s) (n : Nat) (j : Job) (how : GroupRelease) :
    Keeps s0 (State.endbIns s n j how) := by
  unfold State.endbIns
  repeat' first
    | (with_reducible assumption) | (intro) | (with_reducible apply State.badProgram_keeps)
    | (with_reducible apply State.complete_keeps) | (with_reducible apply State.discardGroup_keeps)
    | (with_reducible apply State.endJob_keeps) | (with_reducible apply State.releaseEnd_keeps)
    | (with_reducible apply State.issue_keeps) | (with_reducible apply Keeps.ite2) | (with_reducible apply Keeps.ite)
    | (fail_if_no_progress ((with_reducible apply Keeps.record) <;> first | with_reducible rfl | skip)) | split | (dsimp only)

theorem State.reserveAll_keeps {s0 s : State} (H : Keeps s0 s) (n : Nat) (j : Job) (u0 : List (OutVal × Option Buf)) (u1 : List Pending) :
    Keeps s0 (State.reserveAll s n j u0 u1).2 := by
  induction u0 generalizing s u1 with
  | nil => exact H
  | cons p r ih =>
    obtain ⟨o, b⟩ := p
    unfold State.reserveAll
    repeat' first
      | (with_reducible assumption) | (intro) | (with_reducible apply ih) | (with_reducible apply State.reserveAccession_keeps)
      | (with_reducible apply State.releaseReservation_keeps) | (with_reducible apply Keeps.forAll) | split
      | (rename_i h; have hs := congrArg Prod.snd h; dsimp only at hs; subst hs)

theorem State.finishExec_keeps {s0 s : State} (H : Keeps s0 s) (n : Nat) (j : Job) (r : ExecResult) (writeFails : Bool) :
    Keeps s0 (State.finishExec s n j r writeFails) := by
  unfold State.finishExec
  repeat' first
    | (with_reducible assumption) | (intro) | (with_reducible apply State.endJob_keeps)
    | (with_reducible apply State.reserveAll_keeps) | (with_reducible apply State.failExec_keeps)
    | (with_reducible apply State.releaseReservation_keeps) | (with_reducible apply State.complete_keeps)
    | (with_reducible apply State.restUnits_keeps) | (with_reducible apply State.putJob_keeps)
    | (with_reducible apply State.releaseSegments_keeps) | (with_reducible apply State.issue_keeps)
    | (with_reducible apply State.commitAccession_keeps) | (with_reducible apply Keeps.forAll) | (with_reducible apply Keeps.ite2)
    | (with_reducible apply Keeps.ite)
    | (fail_if_no_progress ((with_reducible apply Keeps.record) <;> first | with_reducible rfl | skip)) | split
    | (rename_i h; have hs := congrArg Prod.snd h; dsimp only at hs; subst hs)
    | (rename_i h _; have hs := congrArg Prod.snd h; dsimp only at hs; subst hs) | (dsimp only)

theorem State.scrubRelease_keeps {s0 s : State} (H : Keeps s0 s) (n : Nat) (j : Job) (r : ExecResult) (st : Byte) (fails : Option Nat) (zeroFails : Nat → Bool) :
    Keeps s0 (State.scrubRelease s n j r st fails zeroFails) := by
  unfold State.scrubRelease
  repeat' first
    | (with_reducible assumption) | (intro) | (with_reducible apply State.endJob_keeps) | (with_reducible apply State.scrub_keeps)
    | (with_reducible apply State.releaseSegments_keeps) | (with_reducible apply State.putJob_keeps)
    | (with_reducible apply Keeps.ite2) | (with_reducible apply Keeps.ite)
    | (fail_if_no_progress ((with_reducible apply Keeps.record) <;> first | with_reducible rfl | skip)) | split
    | (rename_i h; have hs := congrArg Prod.snd h; dsimp only at hs; subst hs)
    | (rename_i h _; have hs := congrArg Prod.snd h; dsimp only at hs; subst hs) | (dsimp only)

theorem State.tripExec_keeps {s0 s : State} (H : Keeps s0 s) (n : Nat) (j : Job) (u : UnitId) (measure : Nat) (zeroFails : Nat → Bool) :
    Keeps s0 (State.tripExec s n j u measure zeroFails) := by
  unfold State.tripExec
  repeat' first
    | (with_reducible assumption) | (intro) | (with_reducible apply State.countError_keeps)
    | (with_reducible apply State.endJobWith_keeps) | (with_reducible apply Keeps.log) | (with_reducible apply Keeps.ite2)
    | (with_reducible apply Keeps.ite)
    | (fail_if_no_progress ((with_reducible apply Keeps.record) <;> first | with_reducible rfl | skip)) | split | (dsimp only)

theorem State.faultFound_keeps {s0 s : State} (H : Keeps s0 s) (n : Nat) (j : Job) :
    Keeps s0 (State.faultFound s n j) := by
  unfold State.faultFound
  repeat' first
    | (with_reducible assumption) | (intro) | (with_reducible apply State.tripExec_keeps)
    | (with_reducible apply State.failExec_keeps) | (with_reducible apply Keeps.ite2) | (with_reducible apply Keeps.ite)
    | (fail_if_no_progress ((with_reducible apply Keeps.record) <;> first | with_reducible rfl | skip)) | split | (dsimp only)

theorem State.loadDue_keeps {s0 s : State} (H : Keeps s0 s) (g : Nat) :
    Keeps s0 (State.loadDue s g) := by
  unfold State.loadDue
  repeat' first
    | (with_reducible assumption) | (intro) | (with_reducible apply State.setGal_keeps) | (with_reducible apply Keeps.ite2)
    | (with_reducible apply Keeps.ite)
    | (fail_if_no_progress ((with_reducible apply Keeps.record) <;> first | with_reducible rfl | skip)) | split | (dsimp only)

theorem State.setSuspended_keeps {s0 s : State} (H : Keeps s0 s) (seq : Nat) (v : Bool) (idx : Nat) :
    Keeps s0 (State.setSuspended s seq v idx) := by
  unfold State.setSuspended
  repeat' first
    | (with_reducible assumption) | (intro) | (with_reducible apply Keeps.ite2) | (with_reducible apply Keeps.ite)
    | (fail_if_no_progress ((with_reducible apply Keeps.record) <;> first | with_reducible rfl | skip)) | split | (dsimp only)

theorem State.suspendGrant_keeps {s0 s : State} (H : Keeps s0 s) (g : Grant) :
    Keeps s0 (State.suspendGrant s g) := by
  unfold State.suspendGrant
  repeat' first
    | (with_reducible assumption) | (intro) | (with_reducible apply State.setSuspended_keeps)
    | (with_reducible apply State.setGal_keeps) | (with_reducible apply Keeps.ite2) | (with_reducible apply Keeps.ite)
    | (fail_if_no_progress ((with_reducible apply Keeps.record) <;> first | with_reducible rfl | skip)) | split | (dsimp only)

theorem State.suspendWith_keeps {s0 s : State} (H : Keeps s0 s) (g : Grant) :
    Keeps s0 (State.suspendWith s g) := by
  unfold State.suspendWith
  repeat' first
    | (with_reducible assumption) | (intro) | (with_reducible apply State.suspendGrant_keeps) | (with_reducible apply Keeps.forAll)
    | (with_reducible apply Keeps.ite2) | (with_reducible apply Keeps.ite)
    | (fail_if_no_progress ((with_reducible apply Keeps.record) <;> first | with_reducible rfl | skip)) | split | (dsimp only)

theorem State.resumeGrant_keeps {s0 s : State} (H : Keeps s0 s) (g : Grant) :
    Keeps s0 (State.resumeGrant s g) := by
  unfold State.resumeGrant
  repeat' first
    | (with_reducible assumption) | (intro) | (with_reducible apply State.setSuspended_keeps)
    | (with_reducible apply State.setGal_keeps) | (with_reducible apply Keeps.ite2) | (with_reducible apply Keeps.ite)
    | (fail_if_no_progress ((with_reducible apply Keeps.record) <;> first | with_reducible rfl | skip)) | split | (dsimp only)

theorem State.endResumed_keeps {s0 s : State} (H : Keeps s0 s) (n : Nat) :
    Keeps s0 (State.endResumed s n) := by
  unfold State.endResumed
  repeat' first
    | (with_reducible assumption) | (intro) | (with_reducible apply State.endJob_keeps) | (with_reducible apply Keeps.ite2)
    | (with_reducible apply Keeps.ite)
    | (fail_if_no_progress ((with_reducible apply Keeps.record) <;> first | with_reducible rfl | skip)) | split | (dsimp only)

theorem State.endNeed_keeps {s0 s : State} (H : Keeps s0 s) (job : Option Nat) (st : Byte) :
    Keeps s0 (State.endNeed s job st) := by
  unfold State.endNeed
  repeat' first
    | (with_reducible assumption) | (intro) | (with_reducible apply State.pumpAll_keeps)
    | (with_reducible apply State.endJob_keeps) | (with_reducible apply Keeps.ite2) | (with_reducible apply Keeps.ite)
    | (fail_if_no_progress ((with_reducible apply Keeps.record) <;> first | with_reducible rfl | skip)) | split | (dsimp only)

theorem State.dropCache_keeps {s0 s : State} (H : Keeps s0 s) (t : TileId) (job : Option Nat) :
    Keeps s0 (State.dropCache s t job) := by
  unfold State.dropCache
  repeat' first
    | (with_reducible assumption) | (intro) | (with_reducible apply State.dropTrees_keeps) | (with_reducible apply Keeps.ite2)
    | (with_reducible apply Keeps.ite)
    | (fail_if_no_progress ((with_reducible apply Keeps.record) <;> first | with_reducible rfl | skip)) | split | (dsimp only)

theorem State.logHandles_keeps {s0 s : State} (H : Keeps s0 s) (t : TileId) :
    Keeps s0 (State.logHandles s t) := by
  unfold State.logHandles
  repeat' first
    | (with_reducible assumption) | (intro) | (with_reducible apply Keeps.forAll) | (with_reducible apply Keeps.log)
    | (with_reducible apply Keeps.ite2) | (with_reducible apply Keeps.ite)
    | (fail_if_no_progress ((with_reducible apply Keeps.record) <;> first | with_reducible rfl | skip)) | split | (dsimp only)

theorem State.patrolRead_keeps {s0 s : State} (H : Keeps s0 s) (p : PatrolSpot) (r : DramRead) :
    Keeps s0 (State.patrolRead s p r) := by
  unfold State.patrolRead
  repeat' first
    | (with_reducible assumption) | (intro) | (with_reducible apply State.countCe_keeps)
    | (with_reducible apply State.storeFailure_keeps) | (with_reducible apply State.dropCache_keeps)
    | (with_reducible apply State.setTile_keeps) | (with_reducible apply State.setNode_keeps) | (with_reducible apply Keeps.ite2)
    | (with_reducible apply Keeps.ite)
    | (fail_if_no_progress ((with_reducible apply Keeps.record) <;> first | with_reducible rfl | skip)) | split | (dsimp only)

theorem State.endPass_keeps {s0 s : State} (H : Keeps s0 s)  :
    Keeps s0 (State.endPass s) := by
  unfold State.endPass
  repeat' first
    | (with_reducible assumption) | (intro) | (with_reducible apply Keeps.ite2) | (with_reducible apply Keeps.ite)
    | (fail_if_no_progress ((with_reducible apply Keeps.record) <;> first | with_reducible rfl | skip)) | split | (dsimp only)

theorem State.crcFailed_keeps {s0 s : State} (H : Keeps s0 s) (t : TileId) (errors : Nat) :
    Keeps s0 (State.crcFailed s t errors) := by
  unfold State.crcFailed
  repeat' first
    | (with_reducible assumption) | (intro) | (with_reducible apply State.mediaFailure_keeps) | (with_reducible apply Keeps.ite2)
    | (with_reducible apply Keeps.ite)
    | (fail_if_no_progress ((with_reducible apply Keeps.record) <;> first | with_reducible rfl | skip)) | split | (dsimp only)

theorem State.startRetire_keeps {s0 s : State} (H : Keeps s0 s) (c : Nat) :
    Keeps s0 (State.startRetire s c) := by
  unfold State.startRetire
  repeat' first
    | (with_reducible assumption) | (intro) | (with_reducible apply State.setChannel_keeps) | (with_reducible apply Keeps.ite2)
    | (with_reducible apply Keeps.ite)
    | (fail_if_no_progress ((with_reducible apply Keeps.record) <;> first | with_reducible rfl | skip)) | split | (dsimp only)

theorem State.requestRetire_keeps {s0 s : State} (H : Keeps s0 s) (c : Nat) :
    Keeps s0 (State.requestRetire s c) := by
  unfold State.requestRetire
  repeat' first
    | (with_reducible assumption) | (intro) | (with_reducible apply State.setChannel_keeps)
    | (with_reducible apply State.startRetire_keeps) | (with_reducible apply Keeps.log) | (with_reducible apply Keeps.ite2)
    | (with_reducible apply Keeps.ite)
    | (fail_if_no_progress ((with_reducible apply Keeps.record) <;> first | with_reducible rfl | skip)) | split | (dsimp only)

theorem State.copyOff_keeps {s0 s : State} (H : Keeps s0 s) (c : Nat) (t : TileId) :
    Keeps s0 (State.copyOff s c t) := by
  unfold State.copyOff
  repeat' first
    | (with_reducible assumption) | (intro) | (with_reducible apply State.setTile_keeps)
    | (with_reducible apply State.writeTile_keeps) | (with_reducible apply State.mediaFailure_keeps)
    | (with_reducible apply Keeps.ite2) | (with_reducible apply Keeps.ite)
    | (fail_if_no_progress ((with_reducible apply Keeps.record) <;> first | with_reducible rfl | skip)) | split | (dsimp only)

theorem State.dropDiffering_keeps {s0 s : State} (H : Keeps s0 s)  :
    Keeps s0 (State.dropDiffering s) := by
  unfold State.dropDiffering
  repeat' first
    | (with_reducible assumption) | (intro) | (with_reducible apply State.setChannel_keeps) | (with_reducible apply Keeps.forAll)
    | (with_reducible apply Keeps.log) | (with_reducible apply Keeps.ite2) | (with_reducible apply Keeps.ite)
    | (fail_if_no_progress ((with_reducible apply Keeps.record) <;> first | with_reducible rfl | skip)) | split | (dsimp only)

theorem State.commonRate_keeps {s0 s : State} (H : Keeps s0 s)  :
    Keeps s0 (State.commonRate s) := by
  unfold State.commonRate
  repeat' first
    | (with_reducible assumption) | (intro) | (with_reducible apply State.setChannel_keeps) | (with_reducible apply Keeps.forAll)
    | (with_reducible apply Keeps.ite2) | (with_reducible apply Keeps.ite)
    | (fail_if_no_progress ((with_reducible apply Keeps.record) <;> first | with_reducible rfl | skip)) | split | (dsimp only)

theorem State.trainNext_keeps {s0 s : State} (H : Keeps s0 s) (c : Nat) :
    Keeps s0 (State.trainNext s c) := by
  unfold State.trainNext
  repeat' first
    | (with_reducible assumption) | (intro) | (with_reducible apply State.setChannel_keeps) | (with_reducible apply Keeps.forAll)
    | (with_reducible apply Keeps.ite2) | (with_reducible apply Keeps.ite)
    | (fail_if_no_progress ((with_reducible apply Keeps.record) <;> first | with_reducible rfl | skip)) | split | (dsimp only)

theorem State.copyMirrored_keeps {s0 s : State} (H : Keeps s0 s) (w : Wing) :
    Keeps s0 (State.copyMirrored s w) := by
  unfold State.copyMirrored
  repeat' first
    | (with_reducible assumption) | (intro) | (with_reducible apply State.writeTile_keeps)
    | (with_reducible apply State.setTile_keeps) | (with_reducible apply Keeps.forAll) | (with_reducible apply Keeps.ite2)
    | (with_reducible apply Keeps.ite)
    | (fail_if_no_progress ((with_reducible apply Keeps.record) <;> first | with_reducible rfl | skip)) | split | (dsimp only)

theorem State.served_keeps {s0 s : State} (H : Keeps s0 s)  :
    Keeps s0 (State.served s) := by
  unfold State.served
  repeat' first
    | (with_reducible assumption) | (intro) | (with_reducible apply State.pumpAll_keeps)
    | (with_reducible apply State.startLinks_keeps) | (with_reducible apply Keeps.ite2) | (with_reducible apply Keeps.ite)
    | (fail_if_no_progress ((with_reducible apply Keeps.record) <;> first | with_reducible rfl | skip)) | split | (dsimp only)

theorem State.entropyEnds_keeps {s0 s : State} (H : Keeps s0 s) (n : Nat) :
    Keeps s0 (State.entropyEnds s n) := by
  unfold State.entropyEnds
  repeat' first
    | (with_reducible assumption) | (intro) | (with_reducible apply State.pumpAll_keeps)
    | (with_reducible apply State.endJob_keeps) | (with_reducible apply State.logEnding_keeps) | (with_reducible apply Keeps.ite2)
    | (with_reducible apply Keeps.ite)
    | (fail_if_no_progress ((with_reducible apply Keeps.record) <;> first | with_reducible rfl | skip)) | split | (dsimp only)

theorem State.setEntropyReady_keeps {s0 s : State} (H : Keeps s0 s) (w : Wing) :
    Keeps s0 (State.setEntropyReady s w) := by
  unfold State.setEntropyReady
  repeat' first
    | (with_reducible assumption) | (intro) | (with_reducible apply Keeps.ite2) | (with_reducible apply Keeps.ite)
    | (fail_if_no_progress ((with_reducible apply Keeps.record) <;> first | with_reducible rfl | skip)) | split | (dsimp only)

theorem State.setLastFail_keeps {s0 s : State} (H : Keeps s0 s) (v : Word32) :
    Keeps s0 (State.setLastFail s v) := by
  unfold State.setLastFail
  repeat' first
    | (with_reducible assumption) | (intro) | (with_reducible apply Keeps.ite2) | (with_reducible apply Keeps.ite)
    | (fail_if_no_progress ((with_reducible apply Keeps.record) <;> first | with_reducible rfl | skip)) | split | (dsimp only)

theorem State.setRawFifo_keeps {s0 s : State} (H : Keeps s0 s) (l : List Word32) :
    Keeps s0 (State.setRawFifo s l) := by
  unfold State.setRawFifo
  repeat' first
    | (with_reducible assumption) | (intro) | (with_reducible apply Keeps.ite2) | (with_reducible apply Keeps.ite)
    | (fail_if_no_progress ((with_reducible apply Keeps.record) <;> first | with_reducible rfl | skip)) | split | (dsimp only)

end Sys2Proof.Machine
end

