-- ==== Sys2Proof/Laws/KeepsPort.lean ====
section
/-! SUPPORT. What the host ports, continuity and the journal do keeps what `Keeps` says: one lemma per operation. -/

set_option linter.all false

open Host

namespace Sys2Proof.Machine

theorem State.deviceControl_keeps {s0 s : State} (H : Keeps s0 s) (w : Wing) (v : Word64) :
    Keeps s0 (State.deviceControl s w v) := by
  unfold State.deviceControl
  repeat' first
    | (with_reducible assumption) | (intro) | (with_reducible apply State.setPort_keeps) | (with_reducible apply Keeps.ite2)
    | (with_reducible apply Keeps.ite)
    | (fail_if_no_progress ((with_reducible apply Keeps.record) <;> first | with_reducible rfl | skip)) | split | (dsimp only)

theorem State.deviceControl2_keeps {s0 s : State} (H : Keeps s0 s) (w : Wing) (v : Word64) :
    Keeps s0 (State.deviceControl2 s w v) := by
  unfold State.deviceControl2
  repeat' first
    | (with_reducible assumption) | (intro) | (with_reducible apply State.setPort_keeps) | (with_reducible apply Keeps.ite2)
    | (with_reducible apply Keeps.ite)
    | (fail_if_no_progress ((with_reducible apply Keeps.record) <;> first | with_reducible rfl | skip)) | split | (dsimp only)

theorem State.abortPage_keeps {s0 s : State} (H : Keeps s0 s) (p : Nat) :
    Keeps s0 (State.abortPage s p) := by
  unfold State.abortPage
  repeat' first
    | (with_reducible assumption) | (intro) | (with_reducible apply State.returnLoan_keeps)
    | (with_reducible apply State.setPage_keeps) | (with_reducible apply State.releaseUnits_keeps)
    | (with_reducible apply Keeps.ite2) | (with_reducible apply Keeps.ite)
    | (fail_if_no_progress ((with_reducible apply Keeps.record) <;> first | with_reducible rfl | skip)) | split | (dsimp only)

theorem State.resetPages_keeps {s0 s : State} (H : Keeps s0 s) (w : Wing) :
    Keeps s0 (State.resetPages s w) := by
  unfold State.resetPages
  repeat' first
    | (with_reducible assumption) | (intro) | (with_reducible apply State.clearPageKeys_keeps)
    | (with_reducible apply State.abortPage_keeps) | (with_reducible apply Keeps.forAll) | (with_reducible apply Keeps.ite2)
    | (with_reducible apply Keeps.ite)
    | (fail_if_no_progress ((with_reducible apply Keeps.record) <;> first | with_reducible rfl | skip)) | split | (dsimp only)

theorem State.logLost_keeps {s0 s : State} (H : Keeps s0 s) (q : QSel) (r : Record) :
    Keeps s0 (State.logLost s q r) := by
  unfold State.logLost
  repeat' first
    | (with_reducible assumption) | (intro) | (with_reducible apply Keeps.log) | (with_reducible apply Keeps.ite2)
    | (with_reducible apply Keeps.ite)
    | (fail_if_no_progress ((with_reducible apply Keeps.record) <;> first | with_reducible rfl | skip)) | split | (dsimp only)

theorem State.dropHeld_keeps {s0 s : State} (H : Keeps s0 s) (f : Fn) (p : HeldRecord → Bool) :
    Keeps s0 (State.dropHeld s f p) := by
  unfold State.dropHeld
  repeat' first
    | (with_reducible assumption) | (intro) | (with_reducible apply State.logLost_keeps) | (with_reducible apply State.modFn_keeps)
    | (with_reducible apply Keeps.forAll) | (with_reducible apply Keeps.ite2) | (with_reducible apply Keeps.ite)
    | (fail_if_no_progress ((with_reducible apply Keeps.record) <;> first | with_reducible rfl | skip)) | split | (dsimp only)

theorem State.dropFrozen_keeps {s0 s : State} (H : Keeps s0 s) (p : Src → Bool) :
    Keeps s0 (State.dropFrozen s p) := by
  unfold State.dropFrozen
  repeat' first
    | (with_reducible assumption) | (intro) | (with_reducible apply Keeps.forAll) | (with_reducible apply Keeps.log)
    | (with_reducible apply Keeps.ite2) | (with_reducible apply Keeps.ite)
    | (fail_if_no_progress ((with_reducible apply Keeps.record) <;> first | with_reducible rfl | skip)) | split | (dsimp only)

theorem State.wipeFn_keeps {s0 s : State} (H : Keeps s0 s) (f : Fn) :
    Keeps s0 (State.wipeFn s f) := by
  unfold State.wipeFn
  repeat' first
    | (with_reducible assumption) | (intro) | (with_reducible apply State.setFn_keeps)
    | (with_reducible apply State.dropHeld_keeps) | (with_reducible apply State.dropFrozen_keeps)
    | (with_reducible apply Keeps.ite2) | (with_reducible apply Keeps.ite)
    | (fail_if_no_progress ((with_reducible apply Keeps.record) <;> first | with_reducible rfl | skip)) | split | (dsimp only)

theorem State.flrFn_keeps {s0 s : State} (H : Keeps s0 s) (f : Fn) :
    Keeps s0 (State.flrFn s f) := by
  unfold State.flrFn
  repeat' first
    | (with_reducible assumption) | (intro) | (with_reducible apply State.abortJobs_keeps)
    | (with_reducible apply State.dropHeld_keeps) | (with_reducible apply State.dropFrozen_keeps)
    | (with_reducible apply State.modFn_keeps) | (with_reducible apply Keeps.ite2) | (with_reducible apply Keeps.ite)
    | (fail_if_no_progress ((with_reducible apply Keeps.record) <;> first | with_reducible rfl | skip)) | split | (dsimp only)

theorem State.endOwned_keeps {s0 s : State} (H : Keeps s0 s) (owners : List Nat) :
    Keeps s0 (State.endOwned s owners) := by
  unfold State.endOwned
  repeat' first
    | (with_reducible assumption) | (intro) | (with_reducible apply State.endTransaction_keeps) | (with_reducible apply Keeps.ite2)
    | (with_reducible apply Keeps.ite)
    | (fail_if_no_progress ((with_reducible apply Keeps.record) <;> first | with_reducible rfl | skip)) | split | (dsimp only)

theorem State.portDown_keeps {s0 s : State} (H : Keeps s0 s) (w : Wing) :
    Keeps s0 (State.portDown s w) := by
  unfold State.portDown
  repeat' first
    | (with_reducible assumption) | (intro) | (with_reducible apply State.resetPages_keeps)
    | (with_reducible apply State.abortJobs_keeps) | (with_reducible apply State.wipeFn_keeps)
    | (with_reducible apply State.setPort_keeps) | (with_reducible apply State.endOwned_keeps)
    | (with_reducible apply Keeps.forAll) | (with_reducible apply Keeps.log) | (with_reducible apply Keeps.ite2)
    | (with_reducible apply Keeps.ite)
    | (fail_if_no_progress ((with_reducible apply Keeps.record) <;> first | with_reducible rfl | skip)) | split | (dsimp only)

theorem State.functionReset_keeps {s0 s : State} (H : Keeps s0 s) (f : Fn) :
    Keeps s0 (State.functionReset s f) := by
  unfold State.functionReset
  repeat' first
    | (with_reducible assumption) | (intro) | (with_reducible apply State.flrFn_keeps)
    | (with_reducible apply State.endOwned_keeps) | (with_reducible apply State.resetPages_keeps)
    | (with_reducible apply Keeps.ite2) | (with_reducible apply Keeps.ite)
    | (fail_if_no_progress ((with_reducible apply Keeps.record) <;> first | with_reducible rfl | skip)) | split | (dsimp only)

theorem State.sendPending_keeps {s0 s : State} (H : Keeps s0 s) (f : Fn) :
    Keeps s0 (State.sendPending s f) := by
  unfold State.sendPending
  repeat' first
    | (with_reducible assumption) | (intro) | (with_reducible apply State.setFn_keeps) | (with_reducible apply Keeps.forAll)
    | (with_reducible apply Keeps.emit) | (with_reducible apply Keeps.ite2) | (with_reducible apply Keeps.ite)
    | (fail_if_no_progress ((with_reducible apply Keeps.record) <;> first | with_reducible rfl | skip)) | split | (dsimp only)

theorem State.streamFail_keeps {s0 s : State} (H : Keeps s0 s) (w : Wing) (stream : Nat) :
    Keeps s0 (State.streamFail s w stream) := by
  unfold State.streamFail
  repeat' first
    | (with_reducible assumption) | (intro) | (with_reducible apply State.raisePort_keeps)
    | (with_reducible apply State.setPort_keeps) | (with_reducible apply State.putJob_keeps)
    | (with_reducible apply State.endJob_keeps) | (with_reducible apply Keeps.forAll) | (with_reducible apply Keeps.log)
    | (with_reducible apply Keeps.ite2) | (with_reducible apply Keeps.ite)
    | (fail_if_no_progress ((with_reducible apply Keeps.record) <;> first | with_reducible rfl | skip)) | split | (dsimp only)

theorem State.aerRead_keeps {s0 s : State} (H : Keeps s0 s) (w : Wing) (kind : ReadFailure) :
    Keeps s0 (State.aerRead s w kind) := by
  unfold State.aerRead
  repeat' first
    | (with_reducible assumption) | (intro) | (with_reducible apply State.setPort_keeps) | (with_reducible apply Keeps.ite2)
    | (with_reducible apply Keeps.ite)
    | (fail_if_no_progress ((with_reducible apply Keeps.record) <;> first | with_reducible rfl | skip)) | split | (dsimp only)

theorem State.setReadFailed_keeps {s0 s : State} (H : Keeps s0 s) (n : Nat) (x : ReadFail) :
    Keeps s0 (State.setReadFailed s n x) := by
  unfold State.setReadFailed
  repeat' first
    | (with_reducible assumption) | (intro) | (with_reducible apply Keeps.ite2) | (with_reducible apply Keeps.ite)
    | (fail_if_no_progress ((with_reducible apply Keeps.record) <;> first | with_reducible rfl | skip)) | split | (dsimp only)

theorem State.jobReadFails_keeps {s0 s : State} (H : Keeps s0 s) (n : Nat) (j : Job) (kind : ReadFailure) (addr : Nat) :
    Keeps s0 (State.jobReadFails s n j kind addr) := by
  unfold State.jobReadFails
  repeat' first
    | (with_reducible assumption) | (intro) | (with_reducible apply State.aerRead_keeps)
    | (with_reducible apply State.pumpAll_keeps) | (with_reducible apply State.endJob_keeps)
    | (with_reducible apply State.setReadFailed_keeps) | (with_reducible apply Keeps.log) | (with_reducible apply Keeps.ite2)
    | (with_reducible apply Keeps.ite)
    | (fail_if_no_progress ((with_reducible apply Keeps.record) <;> first | with_reducible rfl | skip)) | split | (dsimp only)

theorem seqsDown_map (g : LogRec → LogRec) (hg : ∀ r, (g r).seq = r.seq) (n : Nat) (l : List LogRec) :
    seqsDown n (l.map g) = seqsDown n l := by
  induction l generalizing n with
  | nil => rfl
  | cons r l ih => simp only [List.map_cons, seqsDown, hg, ih]

theorem State.countRead_keeps {s0 s : State} (H : Keeps s0 s) (seq : Nat) (others : Nat) :
    Keeps s0 (State.countRead s seq others) := by
  unfold State.countRead
  refine H.trans ⟨rfl, rfl, rfl, rfl, Nat.le_refl _, List.suffix_refl _, fun i => ⟨i.1, ?_, i.2.2⟩⟩
  have i := i.2.1
  simp only [EvLog.wf, Bool.and_eq_true, List.length_map] at i ⊢
  refine ⟨i.1, (seqsDown_map _ (fun r => ?_) _ _).trans i.2⟩
  split <;> rfl

theorem State.otherReadFails_keeps {s0 s : State} (H : Keeps s0 s) (n : Nat) (kind : ReadFailure) :
    Keeps s0 (State.otherReadFails s n kind) := by
  unfold State.otherReadFails
  repeat' first
    | (with_reducible assumption) | (intro) | (with_reducible apply State.countRead_keeps)
    | (with_reducible apply State.setReadFailed_keeps) | (with_reducible apply State.aerRead_keeps)
    | (with_reducible apply Keeps.ite2) | (with_reducible apply Keeps.ite)
    | (fail_if_no_progress ((with_reducible apply Keeps.record) <;> first | with_reducible rfl | skip)) | split | (dsimp only)

theorem State.stopQueue_keeps {s0 s : State} (H : Keeps s0 s) (f : Fn) (q : QSel) (completion : Bool) (reason : Nat) (discards : Bool) :
    Keeps s0 (State.stopQueue s f q completion reason discards) := by
  unfold State.stopQueue
  repeat' first
    | (with_reducible assumption) | (intro) | (with_reducible apply State.queueError_keeps)
    | (with_reducible apply State.setQueue_keeps) | (with_reducible apply Keeps.ite2) | (with_reducible apply Keeps.ite)
    | (fail_if_no_progress ((with_reducible apply Keeps.record) <;> first | with_reducible rfl | skip)) | split | (dsimp only)

theorem State.jobWriteFails_keeps {s0 s : State} (H : Keeps s0 s) (n : Nat) (j : Job) (r : ExecResult) :
    Keeps s0 (State.jobWriteFails s n j r) := by
  unfold State.jobWriteFails
  repeat' first
    | (with_reducible assumption) | (intro) | (with_reducible apply State.free_keeps) | (with_reducible apply State.issue_keeps)
    | (with_reducible apply State.pumpAll_keeps) | (with_reducible apply State.endJob_keeps) | (with_reducible apply Keeps.log)
    | (with_reducible apply Keeps.ite2) | (with_reducible apply Keeps.ite)
    | (fail_if_no_progress ((with_reducible apply Keeps.record) <;> first | with_reducible rfl | skip)) | split
    | (rename_i h; have hs := congrArg Prod.snd h; dsimp only at hs; subst hs)
    | (rename_i h _; have hs := congrArg Prod.snd h; dsimp only at hs; subst hs) | (dsimp only)

theorem State.releaseWriteFails_keeps {s0 s : State} (H : Keeps s0 s) (n : Nat) (j : Job) :
    Keeps s0 (State.releaseWriteFails s n j) := by
  unfold State.releaseWriteFails
  repeat' first
    | (with_reducible assumption) | (intro) | (with_reducible apply State.pumpAll_keeps)
    | (with_reducible apply State.endJob_keeps) | (with_reducible apply Keeps.log) | (with_reducible apply Keeps.ite2)
    | (with_reducible apply Keeps.ite)
    | (fail_if_no_progress ((with_reducible apply Keeps.record) <;> first | with_reducible rfl | skip)) | split | (dsimp only)

theorem State.writeFault_keeps {s0 s : State} (H : Keeps s0 s) (n : Nat) (j : Job) :
    Keeps s0 (State.writeFault s n j) := by
  unfold State.writeFault
  repeat' first
    | (with_reducible assumption) | (intro) | (with_reducible apply State.releaseWriteFails_keeps)
    | (with_reducible apply State.jobWriteFails_keeps) | (with_reducible apply Keeps.ite2) | (with_reducible apply Keeps.ite)
    | (fail_if_no_progress ((with_reducible apply Keeps.record) <;> first | with_reducible rfl | skip)) | split | (dsimp only)

theorem State.touchTx_keeps {s0 s : State} (H : Keeps s0 s)  :
    Keeps s0 (State.touchTx s) := by
  unfold State.touchTx
  repeat' first
    | (with_reducible assumption) | (intro) | (with_reducible apply Keeps.ite2) | (with_reducible apply Keeps.ite)
    | (fail_if_no_progress ((with_reducible apply Keeps.record) <;> first | with_reducible rfl | skip)) | split | (dsimp only)

theorem State.stage_keeps {s0 s : State} (H : Keeps s0 s) (off : Nat) (v : Word32) :
    Keeps s0 (State.stage s off v) := by
  unfold State.stage
  repeat' first
    | (with_reducible assumption) | (intro) | (with_reducible apply Keeps.ite2) | (with_reducible apply Keeps.ite)
    | (fail_if_no_progress ((with_reducible apply Keeps.record) <;> first | with_reducible rfl | skip)) | split | (dsimp only)

theorem State.txWrite_keeps {s0 s : State} (H : Keeps s0 s) (by_ : TxWriter) (off : Nat) (v : Word32) :
    Keeps s0 (State.txWrite s by_ off v) := by
  unfold State.txWrite
  repeat' first
    | (with_reducible assumption) | (intro) | (with_reducible apply State.regError_keeps)
    | (with_reducible apply State.touchTx_keeps) | (with_reducible apply State.stage_keeps) | (with_reducible apply Keeps.ite2)
    | (with_reducible apply Keeps.ite)
    | (fail_if_no_progress ((with_reducible apply Keeps.record) <;> first | with_reducible rfl | skip)) | split | (dsimp only)

theorem State.admqWrite_keeps {s0 s : State} (H : Keeps s0 s) (f : Fn) (off : Nat) (v : Word32) :
    Keeps s0 (State.admqWrite s f off v) := by
  unfold State.admqWrite
  repeat' first
    | (with_reducible assumption) | (intro) | (with_reducible apply State.regError_keeps)
    | (with_reducible apply State.modFn_keeps) | (with_reducible apply Keeps.ite2) | (with_reducible apply Keeps.ite)
    | (fail_if_no_progress ((with_reducible apply Keeps.record) <;> first | with_reducible rfl | skip)) | split | (dsimp only)

theorem State.curmbGo_keeps {s0 s : State} (H : Keeps s0 s) (m : Sender) :
    Keeps s0 (State.curmbGo s m) := by
  unfold State.curmbGo
  repeat' first
    | (with_reducible assumption) | (intro) | (with_reducible apply State.setMailbox_keeps)
    | (with_reducible apply State.replyTo_keeps) | (with_reducible apply State.free_keeps) | (with_reducible apply Keeps.ite2)
    | (with_reducible apply Keeps.ite)
    | (fail_if_no_progress ((with_reducible apply Keeps.record) <;> first | with_reducible rfl | skip)) | split
    | (rename_i h; have hs := congrArg Prod.snd h; dsimp only at hs; subst hs)
    | (rename_i h _; have hs := congrArg Prod.snd h; dsimp only at hs; subst hs) | (dsimp only)

theorem State.curmbWrite_keeps {s0 s : State} (H : Keeps s0 s) (m : Sender) (o : Nat) (v : Word32) (denied : State → State) (hdenied : ∀ x, Keeps s0 x → Keeps s0 (denied x)) :
    Keeps s0 (State.curmbWrite s m o v denied) := by
  unfold State.curmbWrite
  repeat' first
    | (with_reducible assumption) | (intro) | (with_reducible apply State.curmbGo_keeps)
    | (with_reducible apply State.setMailbox_keeps) | (with_reducible apply hdenied) | (with_reducible apply Keeps.ite2)
    | (with_reducible apply Keeps.ite)
    | (fail_if_no_progress ((with_reducible apply Keeps.record) <;> first | with_reducible rfl | skip)) | split | (dsimp only)

theorem State.cfgtxWrite_keeps {s0 s : State} (H : Keeps s0 s) (f : Fn) (off : Nat) (v : Word32) :
    Keeps s0 (State.cfgtxWrite s f off v) := by
  unfold State.cfgtxWrite
  repeat' first
    | (with_reducible assumption) | (intro) | (with_reducible apply State.regError_keeps)
    | (with_reducible apply State.touchTx_keeps) | (with_reducible apply Keeps.ite2) | (with_reducible apply Keeps.ite)
    | (fail_if_no_progress ((with_reducible apply Keeps.record) <;> first | with_reducible rfl | skip)) | split | (dsimp only)

theorem State.unitSelWrite_keeps {s0 s : State} (H : Keeps s0 s) (f : Fn) (off : Nat) (v : Word32) :
    Keeps s0 (State.unitSelWrite s f off v) := by
  unfold State.unitSelWrite
  repeat' first
    | (with_reducible assumption) | (intro) | (with_reducible apply State.regError_keeps) | (with_reducible apply Keeps.ite2)
    | (with_reducible apply Keeps.ite)
    | (fail_if_no_progress ((with_reducible apply Keeps.record) <;> first | with_reducible rfl | skip)) | split | (dsimp only)

theorem State.deviceWrite_keeps {s0 s : State} (H : Keeps s0 s) (f : Fn) (off : Nat) (v : Word32) :
    Keeps s0 (State.deviceWrite s f off v) := by
  unfold State.deviceWrite
  repeat' first
    | (with_reducible assumption) | (intro) | (with_reducible apply State.cfgtxWrite_keeps)
    | (with_reducible apply State.unitSelWrite_keeps) | (with_reducible apply Keeps.ite2) | (with_reducible apply Keeps.ite)
    | (fail_if_no_progress ((with_reducible apply Keeps.record) <;> first | with_reducible rfl | skip)) | split | (dsimp only)

theorem State.compatWrite_keeps {s0 s : State} (H : Keeps s0 s) (f : Fn) (off : Nat) (v : Word32) :
    Keeps s0 (State.compatWrite s f off v) := by
  unfold State.compatWrite
  repeat' first
    | (with_reducible assumption) | (intro) | (with_reducible apply State.regError_keeps)
    | (with_reducible apply State.setPage_keeps) | (with_reducible apply Keeps.ite2) | (with_reducible apply Keeps.ite)
    | (fail_if_no_progress ((with_reducible apply Keeps.record) <;> first | with_reducible rfl | skip)) | split | (dsimp only)

theorem State.bar0Write_keeps {s0 s : State} (H : Keeps s0 s) (f : Fn) (off : Nat) (v : Word32) :
    Keeps s0 (State.bar0Write s f off v) := by
  unfold State.bar0Write
  repeat' first
    | (with_reducible assumption) | (intro) | (with_reducible apply State.regError_keeps)
    | (with_reducible apply State.admqWrite_keeps) | (with_reducible apply State.curmbWrite_keeps)
    | (with_reducible apply State.txWrite_keeps) | (with_reducible apply State.deviceWrite_keeps)
    | (with_reducible apply State.compatWrite_keeps) | (with_reducible apply Keeps.ite2) | (with_reducible apply Keeps.ite)
    | (fail_if_no_progress ((with_reducible apply Keeps.record) <;> first | with_reducible rfl | skip)) | split | (dsimp only)

theorem State.msixWrite_keeps {s0 s : State} (H : Keeps s0 s) (f : Fn) (off : Nat) (v : Word32) :
    Keeps s0 (State.msixWrite s f off v) := by
  unfold State.msixWrite
  repeat' first
    | (with_reducible assumption) | (intro) | (with_reducible apply State.sendPending_keeps)
    | (with_reducible apply State.modFn_keeps) | (with_reducible apply Keeps.ite2) | (with_reducible apply Keeps.ite)
    | (fail_if_no_progress ((with_reducible apply Keeps.record) <;> first | with_reducible rfl | skip)) | split | (dsimp only)

theorem State.sizedWrite_keeps {s0 s : State} (H : Keeps s0 s) (f : Fn) (off : Nat) (size : Nat) (v : Word64) (w : State → Nat → Word32 → State) (hw : ∀ x a1 a2, Keeps s0 x → Keeps s0 (w x a1 a2)) :
    Keeps s0 (State.sizedWrite s f off size v w) := by
  unfold State.sizedWrite
  repeat' first
    | (with_reducible assumption) | (intro) | (with_reducible apply hw) | (with_reducible apply Keeps.emit)
    | (with_reducible apply Keeps.ite2) | (with_reducible apply Keeps.ite)
    | (fail_if_no_progress ((with_reducible apply Keeps.record) <;> first | with_reducible rfl | skip)) | split | (dsimp only)

theorem State.setTail_keeps {s0 s : State} (H : Keeps s0 s) (f : Fn) (sel : QSel) (index : Nat) :
    Keeps s0 (State.setTail s f sel index) := by
  unfold State.setTail
  repeat' first
    | (with_reducible assumption) | (intro) | (with_reducible apply State.setQueue_keeps)
    | (with_reducible apply State.fetchHead_keeps) | (with_reducible apply Keeps.ite2) | (with_reducible apply Keeps.ite)
    | (fail_if_no_progress ((with_reducible apply Keeps.record) <;> first | with_reducible rfl | skip)) | split | (dsimp only)

theorem State.doorbell_keeps {s0 s : State} (H : Keeps s0 s) (f : Fn) (sel : QSel) (completion : Bool) (index : Nat) (k : State → State) (hk : ∀ x, Keeps s0 x → Keeps s0 (k x)) :
    Keeps s0 (State.doorbell s f sel completion index k) := by
  unfold State.doorbell
  repeat' first
    | (with_reducible assumption) | (intro) | (with_reducible apply State.write_keeps)
    | (with_reducible apply State.setQueue_keeps) | (with_reducible apply State.queueError_keeps) | (with_reducible apply hk)
    | (with_reducible apply Keeps.ite2) | (with_reducible apply Keeps.ite)
    | (fail_if_no_progress ((with_reducible apply Keeps.record) <;> first | with_reducible rfl | skip)) | split | (dsimp only)

theorem State.exchange_keeps {s0 s : State} (H : Keeps s0 s) (u : UnitId) (sp : UnitId) :
    Keeps s0 (State.exchange s u sp) := by
  unfold State.exchange
  repeat' first
    | (with_reducible assumption) | (intro) | (with_reducible apply State.setUnit_keeps) | (with_reducible apply Keeps.ite2)
    | (with_reducible apply Keeps.ite)
    | (fail_if_no_progress ((with_reducible apply Keeps.record) <;> first | with_reducible rfl | skip)) | split | (dsimp only)

theorem State.yieldToSpare_keeps {s0 s : State} (H : Keeps s0 s) (u : UnitId) :
    Keeps s0 (State.yieldToSpare s u) := by
  unfold State.yieldToSpare
  repeat' first
    | (with_reducible assumption) | (intro) | (with_reducible apply State.exchange_keeps) | (with_reducible apply Keeps.ite2)
    | (with_reducible apply Keeps.ite)
    | (fail_if_no_progress ((with_reducible apply Keeps.record) <;> first | with_reducible rfl | skip)) | split | (dsimp only)

theorem State.consWrite_keeps {s0 s : State} (H : Keeps s0 s) (f : Fn) (off : Nat) (v : Word32) (k : UnitId → State → State) (hk : ∀ a0 x, Keeps s0 x → Keeps s0 (k a0 x)) :
    Keeps s0 (State.consWrite s f off v k) := by
  unfold State.consWrite
  repeat' first
    | (with_reducible assumption) | (intro) | (with_reducible apply State.mgmtWrite_keeps)
    | (with_reducible apply State.regError_keeps) | (with_reducible apply hk) | (with_reducible apply Keeps.ite2)
    | (with_reducible apply Keeps.ite)
    | (fail_if_no_progress ((with_reducible apply Keeps.record) <;> first | with_reducible rfl | skip)) | split | (dsimp only)

theorem State.setEvent_keeps {s0 s : State} (H : Keeps s0 s) (v : Word32) :
    Keeps s0 (State.setEvent s v) := by
  unfold State.setEvent
  repeat' first
    | (with_reducible assumption) | (intro) | (with_reducible apply Keeps.ite2) | (with_reducible apply Keeps.ite)
    | (fail_if_no_progress ((with_reducible apply Keeps.record) <;> first | with_reducible rfl | skip)) | split | (dsimp only)

theorem State.setFencedTraffic_keeps {s0 s : State} (H : Keeps s0 s) (n : Nat) :
    Keeps s0 (State.setFencedTraffic s n) := by
  unfold State.setFencedTraffic
  repeat' first
    | (with_reducible assumption) | (intro) | (with_reducible apply Keeps.ite2) | (with_reducible apply Keeps.ite)
    | (fail_if_no_progress ((with_reducible apply Keeps.record) <;> first | with_reducible rfl | skip)) | split | (dsimp only)

theorem State.setLinkdown_keeps {s0 s : State} (H : Keeps s0 s) (a : Nat) (b : Nat) (c : Nat) :
    Keeps s0 (State.setLinkdown s a b c) := by
  unfold State.setLinkdown
  repeat' first
    | (with_reducible assumption) | (intro) | (with_reducible apply Keeps.ite2) | (with_reducible apply Keeps.ite)
    | (fail_if_no_progress ((with_reducible apply Keeps.record) <;> first | with_reducible rfl | skip)) | split | (dsimp only)

theorem State.setVote_keeps {s0 s : State} (H : Keeps s0 s) (v : VoteMode) :
    Keeps s0 (State.setVote s v) := by
  unfold State.setVote
  repeat' first
    | (with_reducible assumption) | (intro) | (with_reducible apply Keeps.ite2) | (with_reducible apply Keeps.ite)
    | (fail_if_no_progress ((with_reducible apply Keeps.record) <;> first | with_reducible rfl | skip)) | split | (dsimp only)

theorem State.loseCurator_keeps {s0 s : State} (H : Keeps s0 s)  :
    Keeps s0 (State.loseCurator s) := by
  unfold State.loseCurator
  repeat' first
    | (with_reducible assumption) | (intro) | (with_reducible apply State.freeze_keeps) | (with_reducible apply Keeps.ite2)
    | (with_reducible apply Keeps.ite)
    | (fail_if_no_progress ((with_reducible apply Keeps.record) <;> first | with_reducible rfl | skip)) | split | (dsimp only)

theorem State.countDown_keeps {s0 s : State} (H : Keeps s0 s) (l : Link) :
    Keeps s0 (State.countDown s l) := by
  unfold State.countDown
  repeat' first
    | (with_reducible assumption) | (intro) | (with_reducible apply State.setLinkdown_keeps) | (with_reducible apply Keeps.ite2)
    | (with_reducible apply Keeps.ite)
    | (fail_if_no_progress ((with_reducible apply Keeps.record) <;> first | with_reducible rfl | skip)) | split | (dsimp only)

theorem State.linkLost_keeps {s0 s : State} (H : Keeps s0 s) (l : Link) :
    Keeps s0 (State.linkLost s l) := by
  unfold State.linkLost
  repeat' first
    | (with_reducible assumption) | (intro) | (with_reducible apply State.endJobs_keeps) | (with_reducible apply Keeps.ite2)
    | (with_reducible apply Keeps.ite)
    | (fail_if_no_progress ((with_reducible apply Keeps.record) <;> first | with_reducible rfl | skip)) | split | (dsimp only)

theorem State.wipeGate_keeps {s0 s : State} (H : Keeps s0 s) (w : Wing) :
    Keeps s0 (State.wipeGate s w) := by
  unfold State.wipeGate
  repeat' first
    | (with_reducible assumption) | (intro) | (with_reducible apply State.setStoreWing_keeps) | (with_reducible apply Keeps.ite2)
    | (with_reducible apply Keeps.ite)
    | (fail_if_no_progress ((with_reducible apply Keeps.record) <;> first | with_reducible rfl | skip)) | split | (dsimp only)

theorem State.setHalted_keeps {s0 s : State} (H : Keeps s0 s) (w : Wing) (v : Bool) :
    Keeps s0 (State.setHalted s w v) := by
  unfold State.setHalted
  repeat' first
    | (with_reducible assumption) | (intro) | (with_reducible apply Keeps.ite2) | (with_reducible apply Keeps.ite)
    | (fail_if_no_progress ((with_reducible apply Keeps.record) <;> first | with_reducible rfl | skip)) | split | (dsimp only)

theorem State.dropReady_keeps {s0 s : State} (H : Keeps s0 s) (w : Wing) :
    Keeps s0 (State.dropReady s w) := by
  unfold State.dropReady
  repeat' first
    | (with_reducible assumption) | (intro) | (with_reducible apply Keeps.ite2) | (with_reducible apply Keeps.ite)
    | (fail_if_no_progress ((with_reducible apply Keeps.record) <;> first | with_reducible rfl | skip)) | split | (dsimp only)

theorem State.flushGate_keeps {s0 s : State} (H : Keeps s0 s) (w : Wing) :
    Keeps s0 (State.flushGate s w) := by
  unfold State.flushGate
  repeat' first
    | (with_reducible assumption) | (with_reducible apply Keeps.foldl) | (intro) | (with_reducible apply State.writeBack_keeps)
    | (with_reducible apply Keeps.forAll) | (with_reducible apply Keeps.ite2) | (with_reducible apply Keeps.ite)
    | (fail_if_no_progress ((with_reducible apply Keeps.record) <;> first | with_reducible rfl | skip)) | split | (dsimp only)

theorem State.refillWing_keeps {s0 s : State} (H : Keeps s0 s) (w : Wing) :
    Keeps s0 (State.refillWing s w) := by
  unfold State.refillWing
  repeat' first
    | (with_reducible assumption) | (intro) | (with_reducible apply State.setDisp_keeps) | (with_reducible apply Keeps.ite2)
    | (with_reducible apply Keeps.ite)
    | (fail_if_no_progress ((with_reducible apply Keeps.record) <;> first | with_reducible rfl | skip)) | split | (dsimp only)

theorem State.wingDown_keeps {s0 s : State} (H : Keeps s0 s) (w : Wing) :
    Keeps s0 (State.wingDown s w) := by
  unfold State.wingDown
  repeat' first
    | (with_reducible assumption) | (intro) | (with_reducible apply State.flushGate_keeps)
    | (with_reducible apply State.abortJobs_keeps) | (with_reducible apply State.dropGensOn_keeps)
    | (with_reducible apply State.endJobs_keeps) | (with_reducible apply State.endOwned_keeps)
    | (with_reducible apply State.portDown_keeps) | (with_reducible apply State.restartWingEntropy_keeps)
    | (with_reducible apply State.retireBlocks_keeps) | (with_reducible apply State.refillWing_keeps)
    | (with_reducible apply State.clearGalleries_keeps) | (with_reducible apply State.keyLink_keeps)
    | (with_reducible apply State.setAdmitted_keeps) | (with_reducible apply State.docentReset_keeps)
    | (with_reducible apply State.entropyChanged_keeps) | (with_reducible apply Keeps.log) | (with_reducible apply Keeps.ite2)
    | (with_reducible apply Keeps.ite)
    | (fail_if_no_progress ((with_reducible apply Keeps.record) <;> first | with_reducible rfl | skip)) | split | (dsimp only)

theorem State.newTree_keeps {s0 s : State} (H : Keeps s0 s) (w : Wing) :
    Keeps s0 (State.newTree s w) := by
  unfold State.newTree
  repeat' first
    | (with_reducible assumption) | (intro) | (with_reducible apply State.drawCurator_keeps)
    | (with_reducible apply State.setStoreWing_keeps) | (with_reducible apply Keeps.ite2) | (with_reducible apply Keeps.ite)
    | (fail_if_no_progress ((with_reducible apply Keeps.record) <;> first | with_reducible rfl | skip)) | split
    | (rename_i h; have hs := congrArg Prod.snd h; dsimp only at hs; subst hs)
    | (rename_i h _; have hs := congrArg Prod.snd h; dsimp only at hs; subst hs) | (dsimp only)

theorem State.setOrders_keeps {s0 s : State} (H : Keeps s0 s) (l : List RevOrder) :
    Keeps s0 (State.setOrders s l) := by
  unfold State.setOrders
  repeat' first
    | (with_reducible assumption) | (intro) | (with_reducible apply Keeps.ite2) | (with_reducible apply Keeps.ite)
    | (fail_if_no_progress ((with_reducible apply Keeps.record) <;> first | with_reducible rfl | skip)) | split | (dsimp only)

theorem State.clearRevoked_keeps {s0 s : State} (H : Keeps s0 s) (w : Wing) (coll : Nat) (index : Nat) (gen : Nat) :
    Keeps s0 (State.clearRevoked s w coll index gen) := by
  unfold State.clearRevoked
  repeat' first
    | (with_reducible assumption) | (intro) | (with_reducible apply State.endUser_keeps) | (with_reducible apply Keeps.forAll)
    | (with_reducible apply Keeps.ite2) | (with_reducible apply Keeps.ite)
    | (fail_if_no_progress ((with_reducible apply Keeps.record) <;> first | with_reducible rfl | skip)) | split | (dsimp only)

theorem State.setLoan_keeps {s0 s : State} (H : Keeps s0 s) (n : Nat) (l : Loan) :
    Keeps s0 (State.setLoan s n l) := by
  unfold State.setLoan
  repeat' first
    | (with_reducible assumption) | (intro) | (with_reducible apply Keeps.ite2) | (with_reducible apply Keeps.ite)
    | (fail_if_no_progress ((with_reducible apply Keeps.record) <;> first | with_reducible rfl | skip)) | split | (dsimp only)

theorem State.cascade_keeps {s0 s : State} (H : Keeps s0 s) (r : CatRecord) (revoked : Bool) :
    Keeps s0 (State.cascade s r revoked) := by
  unfold State.cascade
  repeat' first
    | (with_reducible assumption) | (intro) | (with_reducible apply State.setEntry_keeps)
    | (with_reducible apply State.invalidateCache_keeps) | (with_reducible apply State.markRevoked_keeps)
    | (with_reducible apply State.closeSlotOf_keeps) | (with_reducible apply State.evict_keeps)
    | (with_reducible apply State.destroyMaterial_keeps) | (with_reducible apply State.journalState_keeps)
    | (with_reducible apply Keeps.ite2) | (with_reducible apply Keeps.ite)
    | (fail_if_no_progress ((with_reducible apply Keeps.record) <;> first | with_reducible rfl | skip)) | split | (dsimp only)

theorem State.setInvalidated_keeps {s0 s : State} (H : Keeps s0 s) (l : List Invalid) :
    Keeps s0 (State.setInvalidated s l) := by
  unfold State.setInvalidated
  repeat' first
    | (with_reducible assumption) | (intro) | (with_reducible apply Keeps.ite2) | (with_reducible apply Keeps.ite)
    | (fail_if_no_progress ((with_reducible apply Keeps.record) <;> first | with_reducible rfl | skip)) | split | (dsimp only)

theorem State.writeRing_keeps {s0 s : State} (H : Keeps s0 s) (bytes : List Byte) :
    Keeps s0 (State.writeRing s bytes) := by
  unfold State.writeRing
  repeat' first
    | (with_reducible assumption) | (intro) | (with_reducible apply State.writeHost_keeps) | (with_reducible apply Keeps.ite2)
    | (with_reducible apply Keeps.ite)
    | (fail_if_no_progress ((with_reducible apply Keeps.record) <;> first | with_reducible rfl | skip)) | split | (dsimp only)

theorem State.putHead_keeps {s0 s : State} (H : Keeps s0 s) (h : JournalHead) :
    Keeps s0 (State.putHead s h) := by
  unfold State.putHead
  repeat' first
    | (with_reducible assumption) | (intro) | (with_reducible apply Keeps.ite2) | (with_reducible apply Keeps.ite)
    | (fail_if_no_progress ((with_reducible apply Keeps.record) <;> first | with_reducible rfl | skip)) | split | (dsimp only)

theorem State.sealWrite_keeps {s0 s : State} (H : Keeps s0 s)  :
    Keeps s0 (State.sealWrite s) := by
  unfold State.sealWrite
  repeat' first
    | (with_reducible assumption) | (intro) | (with_reducible apply State.writeRing_keeps)
    | (with_reducible apply State.pumpAll_keeps) | (with_reducible apply State.putHead_keeps) | (with_reducible apply Keeps.ite2)
    | (with_reducible apply Keeps.ite)
    | (fail_if_no_progress ((with_reducible apply Keeps.record) <;> first | with_reducible rfl | skip)) | split | (dsimp only)

theorem State.writeSeals_keeps {s0 s : State} (H : Keeps s0 s)  :
    Keeps s0 (State.writeSeals s) := by
  unfold State.writeSeals
  repeat' first
    | (with_reducible assumption) | (intro) | (with_reducible apply State.sealWrite_keeps) | (with_reducible apply Keeps.forAll)
    | (with_reducible apply Keeps.ite2) | (with_reducible apply Keeps.ite)
    | (fail_if_no_progress ((with_reducible apply Keeps.record) <;> first | with_reducible rfl | skip)) | split | (dsimp only)

theorem State.sealReport_keeps {s0 s : State} (H : Keeps s0 s)  :
    Keeps s0 (State.sealReport s) := by
  unfold State.sealReport
  repeat' first
    | (with_reducible assumption) | (intro) | (with_reducible apply State.writeSeals_keeps)
    | (with_reducible apply State.closeSeal_keeps) | (with_reducible apply Keeps.ite2) | (with_reducible apply Keeps.ite)
    | (fail_if_no_progress ((with_reducible apply Keeps.record) <;> first | with_reducible rfl | skip)) | split | (dsimp only)

theorem State.reclaimSlots_keeps {s0 s : State} (H : Keeps s0 s)  :
    Keeps s0 (State.reclaimSlots s) := by
  unfold State.reclaimSlots
  repeat' first
    | (with_reducible assumption) | (intro) | (with_reducible apply State.setSlot_keeps) | (with_reducible apply Keeps.forAll)
    | (with_reducible apply Keeps.ite2) | (with_reducible apply Keeps.ite)
    | (fail_if_no_progress ((with_reducible apply Keeps.record) <;> first | with_reducible rfl | skip)) | split | (dsimp only)

theorem State.journalMessage_keeps {s0 s : State} (H : Keeps s0 s) (m : Sender) (code : Nat) (replyLen : Nat) (params : List Byte) (f : List Byte → State → Answer) (hf : ∀ a0 x, Keeps s0 x → Keeps s0 (f a0 x).2.2) :
    Keeps s0 (State.journalMessage s m code replyLen params f) := by
  unfold State.journalMessage
  repeat' first
    | (with_reducible assumption) | (intro) | (with_reducible apply State.message_keeps) | (with_reducible apply deny_keeps)
    | (with_reducible apply hf) | (with_reducible apply Keeps.ite2) | (with_reducible apply Keeps.ite)
    | (fail_if_no_progress ((with_reducible apply Keeps.record) <;> first | with_reducible rfl | skip)) | split
    | (rename_i h; have hs := congrArg Prod.snd h; dsimp only at hs; subst hs)
    | (rename_i h _; have hs := congrArg Prod.snd h; dsimp only at hs; subst hs) | (dsimp only)

theorem State.applyRecord_keeps {s0 s : State} (H : Keeps s0 s) (seq : Nat) (p : Nat × List Byte) :
    Keeps s0 (State.applyRecord s seq p) := by
  unfold State.applyRecord
  repeat' first
    | (with_reducible assumption) | (intro) | (with_reducible apply State.storeRecord_keeps)
    | (with_reducible apply State.setEntry_keeps) | (with_reducible apply State.destroyMaterial_keeps)
    | (with_reducible apply State.setColl_keeps) | (with_reducible apply Keeps.ite2) | (with_reducible apply Keeps.ite)
    | (fail_if_no_progress ((with_reducible apply Keeps.record) <;> first | with_reducible rfl | skip)) | split | (dsimp only)

theorem State.restorePins_keeps {s0 s : State} (H : Keeps s0 s)  :
    Keeps s0 (State.restorePins s) := by
  unfold State.restorePins
  repeat' first
    | (with_reducible assumption) | (with_reducible apply Keeps.foldl2) | (intro)
    | (with_reducible apply State.journalRecord_keeps) | (with_reducible apply Keeps.log) | (with_reducible apply Keeps.ite2)
    | (with_reducible apply Keeps.ite)
    | (fail_if_no_progress ((with_reducible apply Keeps.record) <;> first | with_reducible rfl | skip)) | split | (dsimp only)

theorem State.restoreInvalid_keeps {s0 s : State} (H : Keeps s0 s)  :
    Keeps s0 (State.restoreInvalid s) := by
  unfold State.restoreInvalid
  repeat' first
    | (with_reducible assumption) | (intro) | (with_reducible apply State.setInvalidated_keeps)
    | (with_reducible apply Keeps.forAll) | (with_reducible apply Keeps.ite2) | (with_reducible apply Keeps.ite)
    | (fail_if_no_progress ((with_reducible apply Keeps.record) <;> first | with_reducible rfl | skip)) | split | (dsimp only)

theorem State.restoreWithdrawn_keeps {s0 s : State} (H : Keeps s0 s)  :
    Keeps s0 (State.restoreWithdrawn s) := by
  unfold State.restoreWithdrawn
  repeat' first
    | (with_reducible assumption) | (intro) | (with_reducible apply State.lastReturn_keeps) | (with_reducible apply Keeps.forAll)
    | (with_reducible apply Keeps.ite2) | (with_reducible apply Keeps.ite)
    | (fail_if_no_progress ((with_reducible apply Keeps.record) <;> first | with_reducible rfl | skip)) | split | (dsimp only)

theorem State.endRestore_keeps {s0 s : State} (H : Keeps s0 s) (next : Nat) :
    Keeps s0 (State.endRestore s next) := by
  unfold State.endRestore
  repeat' first
    | (with_reducible assumption) | (intro) | (with_reducible apply State.modFn_keeps)
    | (with_reducible apply State.restoreWithdrawn_keeps) | (with_reducible apply State.restoreInvalid_keeps)
    | (with_reducible apply State.restorePins_keeps) | (with_reducible apply Keeps.forAll) | (with_reducible apply Keeps.ite2)
    | (with_reducible apply Keeps.ite)
    | (fail_if_no_progress ((with_reducible apply Keeps.record) <;> first | with_reducible rfl | skip)) | split | (dsimp only)

theorem State.closeLostSlots_keeps {s0 s : State} (H : Keeps s0 s)  :
    Keeps s0 (State.closeLostSlots s) := by
  unfold State.closeLostSlots
  repeat' first
    | (with_reducible assumption) | (intro) | (with_reducible apply State.closeSlot_keeps) | (with_reducible apply Keeps.forAll)
    | (with_reducible apply Keeps.ite2) | (with_reducible apply Keeps.ite)
    | (fail_if_no_progress ((with_reducible apply Keeps.record) <;> first | with_reducible rfl | skip)) | split | (dsimp only)

theorem State.advanceLoss_keeps {s0 s : State} (H : Keeps s0 s)  :
    Keeps s0 (State.advanceLoss s) := by
  unfold State.advanceLoss
  repeat' first
    | (with_reducible assumption) | (intro) | (with_reducible apply State.putHead_keeps) | (with_reducible apply Keeps.ite2)
    | (with_reducible apply Keeps.ite)
    | (fail_if_no_progress ((with_reducible apply Keeps.record) <;> first | with_reducible rfl | skip)) | split | (dsimp only)

end Sys2Proof.Machine
end

