-- ==== Sys2Proof/Laws/KeepsBoot.lean ====
section
/-! SUPPORT. What boot, admin commands and attestation do keeps what `Keeps` says: one lemma per operation. -/

set_option linter.all false

open Host

namespace Sys2Proof.Machine

theorem State.setBoot_keeps {s0 s : State} (H : Keeps s0 s) (b : Boot) (hb : BootOk s0 b) :
    Keeps s0 (State.setBoot s b) := by
  unfold State.setBoot
  exact H.setBootOk hb

theorem State.runImage_keeps {s0 s : State} (H : Keeps s0 s) (type : Nat) (k : Nat) :
    Keeps s0 (State.runImage s type k) := by
  unfold State.runImage
  repeat' first
    | (with_reducible assumption) | (intro) | (with_reducible apply State.setBoot_keeps) | (with_reducible apply BootOk.boot)
    | (fail_if_no_progress (with_reducible apply BootOk.record)) | (with_reducible apply Keeps.ite2)
    | (with_reducible apply Keeps.ite)
    | (fail_if_no_progress ((with_reducible apply Keeps.record) <;> first | with_reducible rfl | skip)) | split | (dsimp only)

theorem State.runPolicy_keeps {s0 s : State} (H : Keeps s0 s) (k : Nat) :
    Keeps s0 (State.runPolicy s k) := by
  unfold State.runPolicy
  repeat' first
    | (with_reducible assumption) | (intro) | (with_reducible apply State.runImage_keeps)
    | (with_reducible apply State.setBoot_keeps) | (with_reducible apply State.sizeRegions_keeps)
    | (with_reducible apply BootOk.boot) | (fail_if_no_progress (with_reducible apply BootOk.record))
    | (with_reducible apply Keeps.ite2) | (with_reducible apply Keeps.ite)
    | (fail_if_no_progress ((with_reducible apply Keeps.record) <;> first | with_reducible rfl | skip)) | split | (dsimp only)

theorem State.rewrap_keeps {s0 s : State} (H : Keeps s0 s) (meas : List (List Byte)) :
    Keeps s0 (State.rewrap s meas) := by
  unfold State.rewrap
  repeat' first
    | (with_reducible assumption) | (intro) | (with_reducible apply Keeps.forAll) | (with_reducible apply Keeps.ite2)
    | (with_reducible apply Keeps.ite)
    | (fail_if_no_progress ((with_reducible apply Keeps.record) <;> first | with_reducible rfl | skip)) | split | (dsimp only)

theorem State.discardWraps_keeps {s0 s : State} (H : Keeps s0 s) (k : Nat) :
    Keeps s0 (State.discardWraps s k) := by
  unfold State.discardWraps
  repeat' first
    | (with_reducible assumption) | (intro) | (with_reducible apply State.setBoot_keeps) | (with_reducible apply Keeps.forAll)
    | (with_reducible apply BootOk.boot) | (fail_if_no_progress (with_reducible apply BootOk.record))
    | (with_reducible apply Keeps.ite2) | (with_reducible apply Keeps.ite)
    | (fail_if_no_progress ((with_reducible apply Keeps.record) <;> first | with_reducible rfl | skip)) | split | (dsimp only)

theorem State.readDirectory_keeps {s0 s : State} (H : Keeps s0 s) (second : Bool) :
    Keeps s0 (State.readDirectory s second) := by
  unfold State.readDirectory
  repeat' first
    | (with_reducible assumption) | (intro) | (with_reducible apply State.setBoot_keeps) | (with_reducible apply BootOk.boot)
    | (fail_if_no_progress (with_reducible apply BootOk.record)) | (with_reducible apply Keeps.ite2)
    | (with_reducible apply Keeps.ite)
    | (fail_if_no_progress ((with_reducible apply Keeps.record) <;> first | with_reducible rfl | skip)) | split | (dsimp only)

theorem State.flashWrite_keeps {s0 s : State} (H : Keeps s0 s) (off : Nat) (data : List Byte) :
    Keeps s0 (State.flashWrite s off data) := by
  unfold State.flashWrite
  repeat' first
    | (with_reducible assumption) | (with_reducible apply BootOk.write) | (intro) | (with_reducible apply State.discardWraps_keeps)
    | (with_reducible apply State.setBoot_keeps) | (with_reducible apply State.readDirectory_keeps)
    | (with_reducible apply BootOk.boot) | (fail_if_no_progress (with_reducible apply BootOk.record))
    | (with_reducible apply Keeps.ite2) | (with_reducible apply Keeps.ite)
    | (fail_if_no_progress ((with_reducible apply Keeps.record) <;> first | with_reducible rfl | skip)) | split | (dsimp only)

theorem State.putChain_keeps {s0 s : State} (H : Keeps s0 s) (owner : Bool) (chain : List Byte) :
    Keeps s0 (State.putChain s owner chain) := by
  unfold State.putChain
  repeat' first
    | (with_reducible assumption) | (intro) | (with_reducible apply State.flashWrite_keeps) | (with_reducible apply Keeps.ite2)
    | (with_reducible apply Keeps.ite)
    | (fail_if_no_progress ((with_reducible apply Keeps.record) <;> first | with_reducible rfl | skip)) | split | (dsimp only)

theorem State.issueAlias_keeps {s0 s : State} (H : Keeps s0 s)  :
    Keeps s0 (State.issueAlias s) := by
  unfold State.issueAlias
  repeat' first
    | (with_reducible assumption) | (intro) | (with_reducible apply State.setBoot_keeps) | (with_reducible apply BootOk.boot)
    | (fail_if_no_progress (with_reducible apply BootOk.record)) | (with_reducible apply Keeps.ite2)
    | (with_reducible apply Keeps.ite)
    | (fail_if_no_progress ((with_reducible apply Keeps.record) <;> first | with_reducible rfl | skip)) | split | (dsimp only)

theorem State.openUnit9_keeps {s0 s : State} (H : Keeps s0 s) (level : Nat) :
    Keeps s0 (State.openUnit9 s level) := by
  unfold State.openUnit9
  repeat' first
    | (with_reducible assumption) | (intro) | (with_reducible apply State.setAu_keeps) | (with_reducible apply Keeps.ite2)
    | (with_reducible apply Keeps.ite)
    | (fail_if_no_progress ((with_reducible apply Keeps.record) <;> first | with_reducible rfl | skip)) | split | (dsimp only)

theorem State.deviceReset_keeps {s0 s : State} (H : Keeps s0 s)  :
    Keeps s0 (State.deviceReset s) := by
  unfold State.deviceReset
  refine State.logGranted_keeps (Keeps.forAll (fun s x h => h.log _ _ _ _) _ ?_)
  refine H.trans ⟨rfl, rfl, rfl, rfl, Nat.le_refl _, List.suffix_refl _, fun i => ⟨?_, rfl, i.2.2⟩⟩
  have := State.memWf_flash i.1
  simp only [State.memWf, Bool.and_eq_true]
  exact ⟨⟨⟨⟨rfl, rfl⟩, rfl⟩, rfl⟩, this⟩

theorem State.findBatteryLoss_keeps {s0 s : State} (H : Keeps s0 s)  :
    Keeps s0 (State.findBatteryLoss s) := by
  unfold State.findBatteryLoss
  repeat' first
    | (with_reducible assumption) | (intro) | (with_reducible apply State.tamperRecord_keeps)
    | (with_reducible apply State.raiseAll_keeps) | (with_reducible apply State.latchClass_keeps)
    | (with_reducible apply Keeps.ite2) | (with_reducible apply Keeps.ite)
    | (fail_if_no_progress ((with_reducible apply Keeps.record) <;> first | with_reducible rfl | skip)) | split | (dsimp only)

theorem State.startBoot_keeps {s0 s : State} (H : Keeps s0 s)  :
    Keeps s0 (State.startBoot s) := by
  unfold State.startBoot
  repeat' first
    | (with_reducible assumption) | (intro) | (with_reducible apply State.setBoot_keeps)
    | (with_reducible apply State.openUnit9_keeps) | (with_reducible apply State.findBatteryLoss_keeps)
    | (with_reducible apply Keeps.emit) | (with_reducible apply BootOk.boot)
    | (fail_if_no_progress (with_reducible apply BootOk.record)) | (with_reducible apply Keeps.ite2)
    | (with_reducible apply Keeps.ite)
    | (fail_if_no_progress ((with_reducible apply Keeps.record) <;> first | with_reducible rfl | skip)) | split | (dsimp only)

theorem State.orderedReset_keeps {s0 s : State} (H : Keeps s0 s)  :
    Keeps s0 (State.orderedReset s) := by
  unfold State.orderedReset
  repeat' first
    | (with_reducible assumption) | (intro) | (with_reducible apply State.startBoot_keeps)
    | (with_reducible apply State.deviceReset_keeps) | (with_reducible apply Keeps.ite2) | (with_reducible apply Keeps.ite)
    | (fail_if_no_progress ((with_reducible apply Keeps.record) <;> first | with_reducible rfl | skip)) | split | (dsimp only)

theorem State.reject_keeps {s0 s : State} (H : Keeps s0 s) (type : Nat) (a : Nat) (b : Nat) :
    Keeps s0 (State.reject s type a b) := by
  unfold State.reject
  repeat' first
    | (with_reducible assumption) | (intro) | (with_reducible apply State.setBoot_keeps) | (with_reducible apply BootOk.boot)
    | (fail_if_no_progress (with_reducible apply BootOk.record)) | (with_reducible apply Keeps.ite2)
    | (with_reducible apply Keeps.ite)
    | (fail_if_no_progress ((with_reducible apply Keeps.record) <;> first | with_reducible rfl | skip)) | split | (dsimp only)

theorem State.chooseSlot_keeps {s0 s : State} (H : Keeps s0 s) (type : Nat) :
    Keeps s0 (State.chooseSlot s type).2 := by
  unfold State.chooseSlot
  repeat' first
    | (with_reducible assumption) | (intro) | (with_reducible apply State.reject_keeps) | (with_reducible apply Keeps.ite2)
    | (with_reducible apply Keeps.ite)
    | (fail_if_no_progress ((with_reducible apply Keeps.record) <;> first | with_reducible rfl | skip)) | split | (dsimp only)

theorem State.bootStage_keeps {s0 s : State} (H : Keeps s0 s) (n : Nat) :
    Keeps s0 (State.bootStage s n) := by
  unfold State.bootStage
  repeat' first
    | (with_reducible assumption) | (intro) | (with_reducible apply State.setBoot_keeps) | (with_reducible apply BootOk.boot)
    | (fail_if_no_progress (with_reducible apply BootOk.record)) | (with_reducible apply Keeps.ite2)
    | (with_reducible apply Keeps.ite)
    | (fail_if_no_progress ((with_reducible apply Keeps.record) <;> first | with_reducible rfl | skip)) | split | (dsimp only)

theorem State.setRunning_keeps {s0 s : State} (H : Keeps s0 s) (v : Bool) :
    Keeps s0 (State.setRunning s v) := by
  unfold State.setRunning
  repeat' first
    | (with_reducible assumption) | (intro) | (with_reducible apply Keeps.setDocOk) | (with_reducible apply DocOk.docW)
    | (with_reducible apply DocOk.docE) | (fail_if_no_progress (with_reducible apply DocOk.record))
    | (with_reducible apply Keeps.ite2) | (with_reducible apply Keeps.ite)
    | (fail_if_no_progress ((with_reducible apply Keeps.record) <;> first | with_reducible rfl | skip)) | split | (dsimp only)

theorem State.endBoot_keeps {s0 s : State} (H : Keeps s0 s)  :
    Keeps s0 (State.endBoot s) := by
  unfold State.endBoot
  repeat' first
    | (with_reducible assumption) | (intro) | (with_reducible apply State.tryAdmit_keeps)
    | (with_reducible apply State.issueAlias_keeps) | (with_reducible apply State.bootStage_keeps)
    | (with_reducible apply Keeps.ite2) | (with_reducible apply Keeps.ite)
    | (fail_if_no_progress ((with_reducible apply Keeps.record) <;> first | with_reducible rfl | skip)) | split | (dsimp only)

theorem State.bootFirmware_keeps {s0 s : State} (H : Keeps s0 s)  :
    Keeps s0 (State.bootFirmware s) := by
  unfold State.bootFirmware
  repeat' first
    | (with_reducible assumption) | (intro) | (with_reducible apply State.chooseSlot_keeps)
    | (with_reducible apply State.bootStage_keeps) | (with_reducible apply State.runImage_keeps)
    | (with_reducible apply State.unlock_keeps) | (with_reducible apply Keeps.ite2) | (with_reducible apply Keeps.ite)
    | (fail_if_no_progress ((with_reducible apply Keeps.record) <;> first | with_reducible rfl | skip)) | split
    | (rename_i h; have hs := congrArg Prod.snd h; dsimp only at hs; subst hs)
    | (rename_i h _; have hs := congrArg Prod.snd h; dsimp only at hs; subst hs) | (dsimp only)

theorem State.bootImage_keeps {s0 s : State} (H : Keeps s0 s) (type : Nat) :
    Keeps s0 (State.bootImage s type) := by
  unfold State.bootImage
  repeat' first
    | (with_reducible assumption) | (intro) | (with_reducible apply State.chooseSlot_keeps)
    | (with_reducible apply State.setBoot_keeps) | (with_reducible apply State.runImage_keeps) | (with_reducible apply BootOk.boot)
    | (fail_if_no_progress (with_reducible apply BootOk.record)) | (with_reducible apply Keeps.ite2)
    | (with_reducible apply Keeps.ite)
    | (fail_if_no_progress ((with_reducible apply Keeps.record) <;> first | with_reducible rfl | skip)) | split
    | (rename_i h; have hs := congrArg Prod.snd h; dsimp only at hs; subst hs)
    | (rename_i h _; have hs := congrArg Prod.snd h; dsimp only at hs; subst hs) | (dsimp only)

theorem State.bootPolicy_keeps {s0 s : State} (H : Keeps s0 s)  :
    Keeps s0 (State.bootPolicy s) := by
  unfold State.bootPolicy
  repeat' first
    | (with_reducible assumption) | (intro) | (with_reducible apply State.chooseSlot_keeps)
    | (with_reducible apply State.setBoot_keeps) | (with_reducible apply State.runPolicy_keeps)
    | (with_reducible apply BootOk.boot) | (fail_if_no_progress (with_reducible apply BootOk.record))
    | (with_reducible apply Keeps.ite2) | (with_reducible apply Keeps.ite)
    | (fail_if_no_progress ((with_reducible apply Keeps.record) <;> first | with_reducible rfl | skip)) | split
    | (rename_i h; have hs := congrArg Prod.snd h; dsimp only at hs; subst hs)
    | (rename_i h _; have hs := congrArg Prod.snd h; dsimp only at hs; subst hs) | (dsimp only)

theorem State.unlessHandover_keeps {s0 s : State} (H : Keeps s0 s) (f : State → Answer) (hf : ∀ x, Keeps s0 x → Keeps s0 (f x).2.2) :
    Keeps s0 (State.unlessHandover s f).2.2 := by
  unfold State.unlessHandover
  repeat' first
    | (with_reducible assumption) | (intro) | (with_reducible apply deny_keeps) | (with_reducible apply hf)
    | (with_reducible apply Keeps.ite2) | (with_reducible apply Keeps.ite)
    | (fail_if_no_progress ((with_reducible apply Keeps.record) <;> first | with_reducible rfl | skip)) | split
    | (rename_i h; have hs := congrArg Prod.snd h; dsimp only at hs; subst hs)
    | (rename_i h _; have hs := congrArg Prod.snd h; dsimp only at hs; subst hs) | (dsimp only)

theorem State.drawSsk_keeps {s0 s : State} (H : Keeps s0 s)  :
    Keeps s0 (State.drawSsk s) := by
  unfold State.drawSsk
  repeat' first
    | (with_reducible assumption) | (intro) | (with_reducible apply State.drawFrom_keeps)
    | (with_reducible apply State.setBoot_keeps) | (with_reducible apply BootOk.boot)
    | (fail_if_no_progress (with_reducible apply BootOk.record)) | (with_reducible apply Keeps.ite2)
    | (with_reducible apply Keeps.ite)
    | (fail_if_no_progress ((with_reducible apply Keeps.record) <;> first | with_reducible rfl | skip)) | split
    | (rename_i h; have hs := congrArg Prod.snd h; dsimp only at hs; subst hs)
    | (rename_i h _; have hs := congrArg Prod.snd h; dsimp only at hs; subst hs) | (dsimp only)

theorem State.freshJournal_keeps {s0 s : State} (H : Keeps s0 s)  :
    Keeps s0 (State.freshJournal s) := by
  unfold State.freshJournal
  repeat' first
    | (with_reducible assumption) | (intro) | (with_reducible apply State.setBoot_keeps)
    | (with_reducible apply State.emptyCatalogue_keeps) | (with_reducible apply State.modFn_keeps)
    | (with_reducible apply Keeps.forAll) | (with_reducible apply BootOk.boot)
    | (fail_if_no_progress (with_reducible apply BootOk.record)) | (with_reducible apply Keeps.ite2)
    | (with_reducible apply Keeps.ite)
    | (fail_if_no_progress ((with_reducible apply Keeps.record) <;> first | with_reducible rfl | skip)) | split | (dsimp only)

theorem State.defaultOrders_keeps {s0 s : State} (H : Keeps s0 s)  :
    Keeps s0 (State.defaultOrders s) := by
  unfold State.defaultOrders
  repeat' first
    | (with_reducible assumption)
    | (fail_if_no_progress ((with_reducible apply Keeps.record) <;> first | with_reducible rfl | rfl | skip)) | (intro)
    | (with_reducible apply Keeps.ite2) | (with_reducible apply Keeps.ite)
    | (fail_if_no_progress ((with_reducible apply Keeps.record) <;> first | with_reducible rfl | skip)) | split | (dsimp only)

theorem State.leaveErased_keeps {s0 s : State} (H : Keeps s0 s)  :
    Keeps s0 (State.leaveErased s) := by
  unfold State.leaveErased
  repeat' first
    | (with_reducible assumption) | (intro) | (with_reducible apply State.thaw_keeps) | (with_reducible apply State.unlock_keeps)
    | (with_reducible apply Keeps.ite2) | (with_reducible apply Keeps.ite)
    | (fail_if_no_progress ((with_reducible apply Keeps.record) <;> first | with_reducible rfl | skip)) | split | (dsimp only)

theorem State.useChallenge_keeps {s0 s : State} (H : Keeps s0 s) (nonce : List Byte) :
    Keeps s0 (State.useChallenge s nonce) := by
  unfold State.useChallenge
  repeat' first
    | (with_reducible assumption) | (intro) | (with_reducible apply State.setBoot_keeps) | (with_reducible apply BootOk.boot)
    | (fail_if_no_progress (with_reducible apply BootOk.record)) | (with_reducible apply Keeps.ite2)
    | (with_reducible apply Keeps.ite)
    | (fail_if_no_progress ((with_reducible apply Keeps.record) <;> first | with_reducible rfl | skip)) | split | (dsimp only)

theorem State.preferSlot_keeps {s0 s : State} (H : Keeps s0 s) (type : Nat) (k : Nat) :
    Keeps s0 (State.preferSlot s type k) := by
  unfold State.preferSlot
  repeat' first
    | (with_reducible assumption) | (with_reducible apply BootOk.write) | (intro) | (with_reducible apply State.setBoot_keeps)
    | (with_reducible apply BootOk.boot) | (fail_if_no_progress (with_reducible apply BootOk.record))
    | (with_reducible apply Keeps.ite2) | (with_reducible apply Keeps.ite)
    | (fail_if_no_progress ((with_reducible apply Keeps.record) <;> first | with_reducible rfl | skip)) | split | (dsimp only)

theorem State.setDebug_keeps {s0 s : State} (H : Keeps s0 s) (level : Nat) :
    Keeps s0 (State.setDebug s level) := by
  unfold State.setDebug
  repeat' first
    | (with_reducible assumption) | (intro) | (with_reducible apply State.openUnit9_keeps)
    | (with_reducible apply State.setBoot_keeps) | (with_reducible apply BootOk.boot)
    | (fail_if_no_progress (with_reducible apply BootOk.record)) | (with_reducible apply Keeps.ite2)
    | (with_reducible apply Keeps.ite)
    | (fail_if_no_progress ((with_reducible apply Keeps.record) <;> first | with_reducible rfl | skip)) | split | (dsimp only)

theorem AdmEnd.done_keeps {s0 s : State} (H : Keeps s0 s)  :
    Keeps s0 (AdmEnd.done s).state := by
  unfold AdmEnd.done
  repeat' first
    | (with_reducible assumption) | (intro) | (with_reducible apply Keeps.iteA) | (with_reducible apply Keeps.ite2)
    | (with_reducible apply Keeps.ite)
    | (fail_if_no_progress ((with_reducible apply Keeps.record) <;> first | with_reducible rfl | skip)) | split
    | (dsimp only [AdmEnd.state])

theorem AdmEnd.fail_keeps {s0 s : State} (H : Keeps s0 s) (st : Byte) :
    Keeps s0 (AdmEnd.fail st s).state := by
  unfold AdmEnd.fail
  repeat' first
    | (with_reducible assumption) | (intro) | (with_reducible apply Keeps.iteA) | (with_reducible apply Keeps.ite2)
    | (with_reducible apply Keeps.ite)
    | (fail_if_no_progress ((with_reducible apply Keeps.record) <;> first | with_reducible rfl | skip)) | split
    | (dsimp only [AdmEnd.state])

theorem State.admRecord_keeps {s0 s : State} (H : Keeps s0 s) (f : Fn) (tag : Word32) (st : Byte) (result : Word64) (len : Nat) :
    Keeps s0 (State.admRecord s f tag st result len) := by
  unfold State.admRecord
  repeat' first
    | (with_reducible assumption) | (intro) | (with_reducible apply State.setFn_keeps)
    | (with_reducible apply State.fetchHead_keeps) | (with_reducible apply State.putRecord_keeps)
    | (with_reducible apply Keeps.ite2) | (with_reducible apply Keeps.ite)
    | (fail_if_no_progress ((with_reducible apply Keeps.record) <;> first | with_reducible rfl | skip)) | split | (dsimp only)

theorem State.admin_keeps {s0 s : State} (H : Keeps s0 s) (f : Fn) (op : Nat) (from_ : AdmFrom) (used : List (Nat × Nat)) (k : List Byte → State → AdmEnd) (hk : ∀ a0 x, Keeps s0 x → Keeps s0 (k a0 x).state) :
    Keeps s0 (State.admin s f op from_ used k) := by
  unfold State.admin
  split
  · exact H
  · rename_i e _
    refine Keeps.ite H ?_
    dsimp only
    refine Keeps.ite (State.admRecord_keeps H _ _ _ _ _) (Keeps.ite (State.admRecord_keeps H _ _ _ _ _) ?_)
    have hs := hk e s H
    split
    · rename_i h
      rw [h] at hs
      exact State.admRecord_keeps hs _ _ _ _ _
    · rename_i h
      rw [h] at hs
      exact hs

theorem State.admWrite_keeps {s0 s : State} (H : Keeps s0 s) (f : Fn) (e : List Byte) (bytes : List Byte) (fails : Bool) :
    Keeps s0 (State.admWrite s f e bytes fails).state := by
  unfold State.admWrite
  repeat' first
    | (with_reducible assumption) | (intro) | (with_reducible apply AdmEnd.fail_keeps)
    | (with_reducible apply State.writeHost_keeps) | (with_reducible apply Keeps.iteA) | (with_reducible apply Keeps.ite2)
    | (with_reducible apply Keeps.ite)
    | (fail_if_no_progress ((with_reducible apply Keeps.record) <;> first | with_reducible rfl | skip)) | split
    | (rename_i h; have hs := congrArg Prod.snd h; dsimp only at hs; subst hs)
    | (rename_i h _; have hs := congrArg Prod.snd h; dsimp only at hs; subst hs) | (dsimp only [AdmEnd.state])

theorem State.newBinding_keeps {s0 s : State} (H : Keeps s0 s) (c : Nat) (mode : Nat) :
    Keeps s0 (State.newBinding s c mode) := by
  unfold State.newBinding
  repeat' first
    | (with_reducible assumption) | (intro) | (with_reducible apply State.drawFrom_keeps) | (with_reducible apply Keeps.ite2)
    | (with_reducible apply Keeps.ite)
    | (fail_if_no_progress ((with_reducible apply Keeps.record) <;> first | with_reducible rfl | skip)) | split
    | (rename_i h; have hs := congrArg Prod.snd h; dsimp only at hs; subst hs)
    | (rename_i h _; have hs := congrArg Prod.snd h; dsimp only at hs; subst hs) | (dsimp only)

theorem State.journalColl_keeps {s0 s : State} (H : Keeps s0 s) (c : Nat) :
    Keeps s0 (State.journalColl s c) := by
  unfold State.journalColl
  repeat' first
    | (with_reducible assumption) | (intro) | (with_reducible apply State.journalAdd_keeps) | (with_reducible apply Keeps.ite2)
    | (with_reducible apply Keeps.ite)
    | (fail_if_no_progress ((with_reducible apply Keeps.record) <;> first | with_reducible rfl | skip)) | split | (dsimp only)

theorem State.removeQueue_keeps {s0 s : State} (H : Keeps s0 s) (f : Fn) (q : Nat) :
    Keeps s0 (State.removeQueue s f q).2 := by
  unfold State.removeQueue
  repeat' first
    | (with_reducible assumption) | (intro) | (with_reducible apply State.setQueue_keeps)
    | (with_reducible apply State.dropHeld_keeps) | (with_reducible apply State.dropFrozen_keeps)
    | (with_reducible apply Keeps.ite2) | (with_reducible apply Keeps.ite)
    | (fail_if_no_progress ((with_reducible apply Keeps.record) <;> first | with_reducible rfl | skip)) | split | (dsimp only)

theorem State.setSpdm_keeps {s0 s : State} (H : Keeps s0 s) (via : SpdmVia) (x : Spdm) :
    Keeps s0 (State.setSpdm s via x) := by
  unfold State.setSpdm
  repeat' first
    | (with_reducible assumption) | (intro) | (with_reducible apply Keeps.ite2) | (with_reducible apply Keeps.ite)
    | (fail_if_no_progress ((with_reducible apply Keeps.record) <;> first | with_reducible rfl | skip)) | split | (dsimp only)

theorem State.spdmError_keeps {s0 s : State} (H : Keeps s0 s) (via : SpdmVia) (err : Byte) :
    Keeps s0 (State.spdmError s via err) := by
  unfold State.spdmError
  repeat' first
    | (with_reducible assumption) | (intro) | (with_reducible apply Keeps.emit) | (with_reducible apply Keeps.ite2)
    | (with_reducible apply Keeps.ite)
    | (fail_if_no_progress ((with_reducible apply Keeps.record) <;> first | with_reducible rfl | skip)) | split | (dsimp only)

theorem State.spdmOk_keeps {s0 s : State} (H : Keeps s0 s) (via : SpdmVia) (code : Byte) (payload : List Byte) :
    Keeps s0 (State.spdmOk s via code payload) := by
  unfold State.spdmOk
  repeat' first
    | (with_reducible assumption) | (intro) | (with_reducible apply State.spdmError_keeps) | (with_reducible apply Keeps.emit)
    | (with_reducible apply Keeps.ite2) | (with_reducible apply Keeps.ite)
    | (fail_if_no_progress ((with_reducible apply Keeps.record) <;> first | with_reducible rfl | skip)) | split | (dsimp only)

theorem State.spdmSigned_keeps {s0 s : State} (H : Keeps s0 s) (via : SpdmVia) (code : Byte) (slot : Nat) (payload : List Byte) :
    Keeps s0 (State.spdmSigned s via code slot payload) := by
  unfold State.spdmSigned
  repeat' first
    | (with_reducible assumption) | (intro) | (with_reducible apply State.spdmError_keeps)
    | (with_reducible apply State.spdmOk_keeps) | (with_reducible apply Keeps.ite2) | (with_reducible apply Keeps.ite)
    | (fail_if_no_progress ((with_reducible apply Keeps.record) <;> first | with_reducible rfl | skip)) | split | (dsimp only)

theorem State.ideProgram_keeps {s0 s : State} (H : Keeps s0 s) (w : Wing) (stream : Nat) (first : Nat) (last : Nat) (k1 : Bool) (blocks : List (Nat × Nat)) :
    Keeps s0 (State.ideProgram s w stream first last k1 blocks) := by
  unfold State.ideProgram
  repeat' first
    | (with_reducible assumption) | (intro) | (with_reducible apply State.drawFrom_keeps)
    | (with_reducible apply State.setPort_keeps) | (with_reducible apply Keeps.ite2) | (with_reducible apply Keeps.ite)
    | (fail_if_no_progress ((with_reducible apply Keeps.record) <;> first | with_reducible rfl | skip)) | split
    | (rename_i h; have hs := congrArg Prod.snd h; dsimp only at hs; subst hs)
    | (rename_i h _; have hs := congrArg Prod.snd h; dsimp only at hs; subst hs) | (dsimp only)

theorem State.spdmSession_keeps {s0 s : State} (H : Keeps s0 s) (via : SpdmVia) (req : SpdmReq) :
    Keeps s0 (State.spdmSession s via req) := by
  unfold State.spdmSession
  repeat' first
    | (with_reducible assumption) | (intro) | (with_reducible apply State.spdmError_keeps)
    | (with_reducible apply State.drawFrom_keeps) | (with_reducible apply State.spdmSigned_keeps)
    | (with_reducible apply State.setSpdm_keeps) | (with_reducible apply State.spdmOk_keeps)
    | (with_reducible apply State.ideProgram_keeps) | (with_reducible apply State.pumpAll_keeps)
    | (with_reducible apply State.streamFail_keeps) | (with_reducible apply Keeps.ite2) | (with_reducible apply Keeps.ite)
    | (fail_if_no_progress ((with_reducible apply Keeps.record) <;> first | with_reducible rfl | skip)) | split
    | (rename_i h; have hs := congrArg Prod.snd h; dsimp only at hs; subst hs)
    | (rename_i h _; have hs := congrArg Prod.snd h; dsimp only at hs; subst hs) | (dsimp only)

theorem State.spdm_keeps {s0 s : State} (H : Keeps s0 s) (via : SpdmVia) (req : SpdmReq) :
    Keeps s0 (State.spdm s via req) := by
  unfold State.spdm
  repeat' first
    | (with_reducible assumption) | (intro) | (with_reducible apply State.spdmOk_keeps)
    | (with_reducible apply State.setSpdm_keeps) | (with_reducible apply State.spdmError_keeps)
    | (with_reducible apply State.spdmSigned_keeps) | (with_reducible apply State.spdmSession_keeps)
    | (with_reducible apply Keeps.ite2) | (with_reducible apply Keeps.ite)
    | (fail_if_no_progress ((with_reducible apply Keeps.record) <;> first | with_reducible rfl | skip)) | split | (dsimp only)

theorem State.measurements_keeps {s0 s : State} (H : Keeps s0 s) (via : SpdmVia) (index : Nat) (sign : Option Nat) :
    Keeps s0 (State.measurements s via index sign) := by
  unfold State.measurements
  repeat' first
    | (with_reducible assumption) | (intro) | (with_reducible apply State.spdmSigned_keeps)
    | (with_reducible apply State.spdmOk_keeps) | (with_reducible apply State.spdmError_keeps) | (with_reducible apply Keeps.ite2)
    | (with_reducible apply Keeps.ite)
    | (fail_if_no_progress ((with_reducible apply Keeps.record) <;> first | with_reducible rfl | skip)) | split | (dsimp only)

theorem State.mctp_keeps {s0 s : State} (H : Keeps s0 s) (ep : Endpoint) (ok : Bool) (payload : List Byte) :
    Keeps s0 (State.mctp s ep ok payload) := by
  unfold State.mctp
  repeat' first
    | (with_reducible assumption) | (intro) | (with_reducible apply Keeps.emit) | (with_reducible apply Keeps.ite2)
    | (with_reducible apply Keeps.ite)
    | (fail_if_no_progress ((with_reducible apply Keeps.record) <;> first | with_reducible rfl | skip)) | split | (dsimp only)

theorem State.fstatReadClear_keeps {s0 s : State} (H : Keeps s0 s) (f : Fn) (off : Nat) :
    Keeps s0 (State.fstatReadClear s f off) := by
  unfold State.fstatReadClear
  repeat' first
    | (with_reducible assumption) | (intro) | (with_reducible apply State.modFn_keeps) | (with_reducible apply Keeps.ite2)
    | (with_reducible apply Keeps.ite)
    | (fail_if_no_progress ((with_reducible apply Keeps.record) <;> first | with_reducible rfl | skip)) | split | (dsimp only)

end Sys2Proof.Machine
end

