-- ==== Sys2Proof/Laws/KeepsBus.lean ====
section
/-! SUPPORT. What placement, changes, Docents and clocks do keeps what `Keeps` says: one lemma per operation. -/

set_option linter.all false

open Host

namespace Sys2Proof.Machine

theorem DocentWing.gpioWrite_ok {s0 : State} {d : DocentWing} (h : DocOk s0 d) (off : Nat) (v : Word32) : DocOk s0 (d.gpioWrite off v) := by
  unfold DocentWing.gpioWrite
  repeat' first
    | (with_reducible assumption) | (fail_if_no_progress (with_reducible apply DocOk.record)) | split | (dsimp only)

theorem DocentWing.timerWrite_ok {s0 : State} {d : DocentWing} (h : DocOk s0 d) (off : Nat) (v : Word32) : DocOk s0 (d.timerWrite off v) := by
  unfold DocentWing.timerWrite
  repeat' first
    | (with_reducible assumption) | (fail_if_no_progress (with_reducible apply DocOk.record)) | split | (dsimp only)

theorem DocentWing.rtcWrite_ok {s0 : State} {d : DocentWing} (h : DocOk s0 d) (off : Nat) (v : Word32) : DocOk s0 (d.rtcWrite off v) := by
  unfold DocentWing.rtcWrite
  repeat' first
    | (with_reducible assumption) | (fail_if_no_progress (with_reducible apply DocOk.record)) | split | (dsimp only)

theorem State.docHeads_keeps {s0 s : State} (H : Keeps s0 s) (w : Wing) :
    Keeps s0 (State.docHeads s w).2 := by
  unfold State.docHeads
  repeat' first
    | (with_reducible assumption) | (with_reducible apply Keeps.foldl2) | (intro) | (with_reducible apply State.docMemRead_keeps)
    | (with_reducible apply DocOk.doc) | (with_reducible apply Keeps.ite2) | (with_reducible apply Keeps.ite)
    | (fail_if_no_progress ((with_reducible apply Keeps.record) <;> first | with_reducible rfl | skip)) | split
    | (rename_i h; have hs := congrArg Prod.snd h; dsimp only at hs; subst hs)
    | (rename_i h _; have hs := congrArg Prod.snd h; dsimp only at hs; subst hs) | (dsimp only)

theorem State.reclaim_keeps {s0 s : State} (H : Keeps s0 s) (g : Nat) :
    Keeps s0 (State.reclaim s g) := by
  unfold State.reclaim
  repeat' first
    | (with_reducible assumption) | (intro) | (with_reducible apply State.putJob_keeps)
    | (with_reducible apply State.suspendGrant_keeps) | (with_reducible apply Keeps.forAll) | (with_reducible apply Keeps.ite2)
    | (with_reducible apply Keeps.ite)
    | (fail_if_no_progress ((with_reducible apply Keeps.record) <;> first | with_reducible rfl | skip)) | split | (dsimp only)

theorem State.popHead_keeps {s0 s : State} (H : Keeps s0 s) (h : Head) (job : Bool) :
    Keeps s0 (State.popHead s h job) := by
  unfold State.popHead
  repeat' first
    | (with_reducible assumption) | (intro) | (with_reducible apply State.fetchHead_keeps)
    | (with_reducible apply State.setQueue_keeps) | (with_reducible apply State.setDocQueue_keeps)
    | (with_reducible apply Keeps.ite2) | (with_reducible apply Keeps.ite)
    | (fail_if_no_progress ((with_reducible apply Keeps.record) <;> first | with_reducible rfl | skip)) | split | (dsimp only)

theorem State.entryRecord_keeps {s0 s : State} (H : Keeps s0 s) (h : Head) (st : Byte) :
    Keeps s0 (State.entryRecord s h st) := by
  unfold State.entryRecord
  repeat' first
    | (with_reducible assumption) | (intro) | (with_reducible apply State.deliver_keeps) | (with_reducible apply Keeps.ite2)
    | (with_reducible apply Keeps.ite)
    | (fail_if_no_progress ((with_reducible apply Keeps.record) <;> first | with_reducible rfl | skip)) | split | (dsimp only)

theorem State.place_keeps {s0 s : State} (H : Keeps s0 s) (w : Wing) (h : Head) :
    Keeps s0 (State.place s w h) := by
  unfold State.place
  repeat' first
    | (with_reducible assumption) | (intro) | (with_reducible apply State.free_keeps) | (with_reducible apply State.putJob_keeps)
    | (with_reducible apply State.reclaim_keeps) | (with_reducible apply State.setIdle_keeps)
    | (with_reducible apply State.readHost_keeps) | (with_reducible apply State.endJob_keeps) | (with_reducible apply Keeps.ite2)
    | (with_reducible apply Keeps.ite)
    | (fail_if_no_progress ((with_reducible apply Keeps.record) <;> first | with_reducible rfl | skip)) | split
    | (rename_i h; have hs := congrArg Prod.snd h; dsimp only at hs; subst hs)
    | (rename_i h _; have hs := congrArg Prod.snd h; dsimp only at hs; subst hs) | (dsimp only)

theorem State.consume_keeps {s0 s : State} (H : Keeps s0 s) (w : Wing) (h : Head) :
    Keeps s0 (State.consume s w h) := by
  unfold State.consume
  repeat' first
    | (with_reducible assumption) | (intro) | (with_reducible apply State.entryRecord_keeps)
    | (with_reducible apply State.popHead_keeps) | (with_reducible apply State.markC0_keeps)
    | (with_reducible apply State.place_keeps) | (with_reducible apply Keeps.ite2) | (with_reducible apply Keeps.ite)
    | (fail_if_no_progress ((with_reducible apply Keeps.record) <;> first | with_reducible rfl | skip)) | split | (dsimp only)

theorem State.markHeads_keeps {s0 s : State} (H : Keeps s0 s) (w : Wing) (l : List Head) :
    Keeps s0 (State.markHeads s w l) := by
  unfold State.markHeads
  repeat' first
    | (with_reducible assumption) | (intro) | (with_reducible apply State.setQueue_keeps)
    | (with_reducible apply State.setDocQueue_keeps) | (with_reducible apply Keeps.forAll) | (with_reducible apply Keeps.ite2)
    | (with_reducible apply Keeps.ite)
    | (fail_if_no_progress ((with_reducible apply Keeps.record) <;> first | with_reducible rfl | skip)) | split | (dsimp only)

theorem State.pickColl_keeps {s0 s : State} (H : Keeps s0 s) (w : Wing) (cls : Nat) (colls : List Nat) :
    Keeps s0 (State.pickColl s w cls colls).2 := by
  unfold State.pickColl
  repeat' first
    | (with_reducible assumption) | (intro) | (with_reducible apply State.setDisp_keeps)
    | (with_reducible apply State.setColl_keeps) | (with_reducible apply Keeps.ite2) | (with_reducible apply Keeps.ite)
    | (fail_if_no_progress ((with_reducible apply Keeps.record) <;> first | with_reducible rfl | skip)) | split | (dsimp only)

theorem State.serveQueue_keeps {s0 s : State} (H : Keeps s0 s) (w : Wing) (cls : Nat) (coll : Nat) (l : List Head) :
    Keeps s0 (State.serveQueue s w cls coll l) := by
  unfold State.serveQueue
  repeat' first
    | (with_reducible assumption) | (intro) | (with_reducible apply State.consume_keeps)
    | (with_reducible apply State.setDisp_keeps) | (with_reducible apply Keeps.ite2) | (with_reducible apply Keeps.ite)
    | (fail_if_no_progress ((with_reducible apply Keeps.record) <;> first | with_reducible rfl | skip)) | split | (dsimp only)

theorem State.serveClass_keeps {s0 s : State} (H : Keeps s0 s) (w : Wing) (cls : Nat) (l : List Head) :
    Keeps s0 (State.serveClass s w cls l) := by
  unfold State.serveClass
  repeat' first
    | (with_reducible assumption) | (intro) | (with_reducible apply State.pickColl_keeps)
    | (with_reducible apply State.serveQueue_keeps) | (with_reducible apply Keeps.ite2) | (with_reducible apply Keeps.ite)
    | (fail_if_no_progress ((with_reducible apply Keeps.record) <;> first | with_reducible rfl | skip)) | split
    | (rename_i h; have hs := congrArg Prod.snd h; dsimp only at hs; subst hs)
    | (rename_i h _; have hs := congrArg Prod.snd h; dsimp only at hs; subst hs) | (dsimp only)

theorem State.dispatchSlot_keeps {s0 s : State} (H : Keeps s0 s) (w : Wing) (l : List Head) :
    Keeps s0 (State.dispatchSlot s w l) := by
  unfold State.dispatchSlot
  repeat' first
    | (with_reducible assumption) | (intro) | (with_reducible apply State.setDisp_keeps)
    | (with_reducible apply State.serveClass_keeps) | (with_reducible apply Keeps.ite2) | (with_reducible apply Keeps.ite)
    | (fail_if_no_progress ((with_reducible apply Keeps.record) <;> first | with_reducible rfl | skip)) | split | (dsimp only)

theorem State.seen_keeps {s0 s : State} (H : Keeps s0 s) (w : Wing) :
    Keeps s0 (State.seen s w).2 := by
  unfold State.seen
  repeat' first
    | (with_reducible assumption) | (intro) | (with_reducible apply State.docHeads_keeps)
    | (with_reducible apply State.markHeads_keeps) | (with_reducible apply Keeps.ite2) | (with_reducible apply Keeps.ite)
    | (fail_if_no_progress ((with_reducible apply Keeps.record) <;> first | with_reducible rfl | skip)) | split
    | (rename_i h; have hs := congrArg Prod.snd h; dsimp only at hs; subst hs)
    | (rename_i h _; have hs := congrArg Prod.snd h; dsimp only at hs; subst hs) | (dsimp only)

theorem State.dispatch_keeps {s0 s : State} (H : Keeps s0 s) (w : Wing) :
    Keeps s0 (State.dispatch s w) := by
  unfold State.dispatch
  repeat' first
    | (with_reducible assumption) | (intro) | (with_reducible apply State.seen_keeps)
    | (with_reducible apply State.dispatchSlot_keeps) | (with_reducible apply Keeps.ite2) | (with_reducible apply Keeps.ite)
    | (fail_if_no_progress ((with_reducible apply Keeps.record) <;> first | with_reducible rfl | skip)) | split
    | (rename_i h; have hs := congrArg Prod.snd h; dsimp only at hs; subst hs)
    | (rename_i h _; have hs := congrArg Prod.snd h; dsimp only at hs; subst hs) | (dsimp only)

theorem State.beginAdmin_keeps {s0 s : State} (H : Keeps s0 s) (f : Fn) (entry : List Byte) :
    Keeps s0 (State.beginAdmin s f entry) := by
  unfold State.beginAdmin
  repeat' first
    | (with_reducible assumption) | (intro) | (with_reducible apply State.setQueue_keeps)
    | (with_reducible apply State.modFn_keeps) | (with_reducible apply State.admRecord_keeps) | (with_reducible apply Keeps.ite2)
    | (with_reducible apply Keeps.ite)
    | (fail_if_no_progress ((with_reducible apply Keeps.record) <;> first | with_reducible rfl | skip)) | split | (dsimp only)

theorem State.latchEpoch_keeps {s0 s : State} (H : Keeps s0 s) (n : Nat) (src : Src) :
    Keeps s0 (State.latchEpoch s n src) := by
  unfold State.latchEpoch
  repeat' first
    | (with_reducible assumption) | (intro) | (with_reducible apply State.setQueue_keeps)
    | (with_reducible apply State.setDocQueue_keeps) | (with_reducible apply Keeps.ite2) | (with_reducible apply Keeps.ite)
    | (fail_if_no_progress ((with_reducible apply Keeps.record) <;> first | with_reducible rfl | skip)) | split | (dsimp only)

theorem State.reloadSlot_keeps {s0 s : State} (H : Keeps s0 s) (w : Wing) (n : Nat) :
    Keeps s0 (State.reloadSlot s w n) := by
  unfold State.reloadSlot
  repeat' first
    | (with_reducible assumption) | (intro) | (with_reducible apply Keeps.ite2) | (with_reducible apply Keeps.ite)
    | (fail_if_no_progress ((with_reducible apply Keeps.record) <;> first | with_reducible rfl | skip)) | split | (dsimp only)

theorem State.txControl_keeps {s0 s : State} (H : Keeps s0 s) (by_ : TxWriter) (k : State → State) (hk : ∀ x, Keeps s0 x → Keeps s0 (k x)) :
    Keeps s0 (State.txControl s by_ k) := by
  unfold State.txControl
  repeat' first
    | (with_reducible assumption) | (intro) | (with_reducible apply State.mgmtWrite_keeps) | (with_reducible apply hk)
    | (with_reducible apply DocOk.doc) | (with_reducible apply Keeps.ite2) | (with_reducible apply Keeps.ite)
    | (fail_if_no_progress ((with_reducible apply Keeps.record) <;> first | with_reducible rfl | skip)) | split | (dsimp only)

theorem State.txLocked_keeps {s0 s : State} (H : Keeps s0 s) (by_ : TxWriter) :
    Keeps s0 (State.txLocked s by_) := by
  unfold State.txLocked
  repeat' first
    | (with_reducible assumption) | (intro) | (with_reducible apply State.regError_keeps) | (with_reducible apply Keeps.ite2)
    | (with_reducible apply Keeps.ite)
    | (fail_if_no_progress ((with_reducible apply Keeps.record) <;> first | with_reducible rfl | skip)) | split | (dsimp only)

theorem State.abortTx_keeps {s0 s : State} (H : Keeps s0 s)  :
    Keeps s0 (State.abortTx s) := by
  unfold State.abortTx
  repeat' first
    | (with_reducible assumption) | (intro) | (with_reducible apply State.pumpAll_keeps)
    | (with_reducible apply State.endTransaction_keeps) | (with_reducible apply Keeps.ite2) | (with_reducible apply Keeps.ite)
    | (fail_if_no_progress ((with_reducible apply Keeps.record) <;> first | with_reducible rfl | skip)) | split | (dsimp only)

theorem State.withGroup_keeps {s0 s : State} (H : Keeps s0 s) (g : Nat) :
    Keeps s0 (State.withGroup s g) := by
  unfold State.withGroup
  repeat' first
    | (with_reducible assumption) | (intro) | (with_reducible apply Keeps.ite2) | (with_reducible apply Keeps.ite)
    | (fail_if_no_progress ((with_reducible apply Keeps.record) <;> first | with_reducible rfl | skip)) | split | (dsimp only)

theorem State.drawBases_keeps {s0 s : State} (H : Keeps s0 s) (items : List Byte) :
    Keeps s0 (State.drawBases s items).2 := by
  unfold State.drawBases
  repeat' first
    | (with_reducible assumption) | (with_reducible apply Keeps.foldl2) | (intro) | (with_reducible apply State.drawCurator_keeps)
    | (with_reducible apply Keeps.ite2) | (with_reducible apply Keeps.ite)
    | (fail_if_no_progress ((with_reducible apply Keeps.record) <;> first | with_reducible rfl | skip)) | split
    | (rename_i h; have hs := congrArg Prod.snd h; dsimp only at hs; subst hs)
    | (rename_i h _; have hs := congrArg Prod.snd h; dsimp only at hs; subst hs) | (dsimp only)

theorem State.failCommit_keeps {s0 s : State} (H : Keeps s0 s) (st : Byte) (at_ : Word32) :
    Keeps s0 (State.failCommit s st at_) := by
  unfold State.failCommit
  repeat' first
    | (with_reducible assumption) | (intro) | (with_reducible apply Keeps.log) | (with_reducible apply Keeps.ite2)
    | (with_reducible apply Keeps.ite)
    | (fail_if_no_progress ((with_reducible apply Keeps.record) <;> first | with_reducible rfl | skip)) | split | (dsimp only)

theorem State.logProgram_keeps {s0 s : State} (H : Keeps s0 s) (l : List CfgItem) :
    Keeps s0 (State.logProgram s l) := by
  unfold State.logProgram
  repeat' first
    | (with_reducible assumption) | (intro) | (with_reducible apply Keeps.log) | (with_reducible apply Keeps.ite2)
    | (with_reducible apply Keeps.ite)
    | (fail_if_no_progress ((with_reducible apply Keeps.record) <;> first | with_reducible rfl | skip)) | split | (dsimp only)

theorem State.retireDrain_keeps {s0 s : State} (H : Keeps s0 s)  :
    Keeps s0 (State.retireDrain s) := by
  unfold State.retireDrain
  repeat' first
    | (with_reducible assumption) | (intro) | (with_reducible apply State.endAtBoundary_keeps)
    | (with_reducible apply State.endPage_keeps) | (with_reducible apply Keeps.forAll) | (with_reducible apply Keeps.ite2)
    | (with_reducible apply Keeps.ite)
    | (fail_if_no_progress ((with_reducible apply Keeps.record) <;> first | with_reducible rfl | skip)) | split | (dsimp only)

theorem State.markDrained_keeps {s0 s : State} (H : Keeps s0 s)  :
    Keeps s0 (State.markDrained s) := by
  unfold State.markDrained
  repeat' first
    | (with_reducible assumption) | (intro) | (with_reducible apply State.modFn_keeps) | (with_reducible apply Keeps.forAll)
    | (with_reducible apply Keeps.ite2) | (with_reducible apply Keeps.ite)
    | (fail_if_no_progress ((with_reducible apply Keeps.record) <;> first | with_reducible rfl | skip)) | split | (dsimp only)

theorem State.beginDrain_keeps {s0 s : State} (H : Keeps s0 s) (l : List (RawItem × CfgItem)) :
    Keeps s0 (State.beginDrain s l) := by
  unfold State.beginDrain
  repeat' first
    | (with_reducible assumption) | (intro) | (with_reducible apply State.useNonce_keeps)
    | (with_reducible apply State.markDrained_keeps) | (with_reducible apply State.pumpAll_keeps)
    | (with_reducible apply State.retireDrain_keeps) | (with_reducible apply Keeps.forAll) | (with_reducible apply Keeps.ite2)
    | (with_reducible apply Keeps.ite)
    | (fail_if_no_progress ((with_reducible apply Keeps.record) <;> first | with_reducible rfl | skip)) | split | (dsimp only)

theorem State.applyRawTest_keeps {s0 s : State} (H : Keeps s0 s) (v : Word32) :
    Keeps s0 (State.applyRawTest s v) := by
  unfold State.applyRawTest
  repeat' first
    | (with_reducible assumption) | (intro) | (with_reducible apply State.endRawTest_keeps) | (with_reducible apply Keeps.ite2)
    | (with_reducible apply Keeps.ite)
    | (fail_if_no_progress ((with_reducible apply Keeps.record) <;> first | with_reducible rfl | skip)) | split | (dsimp only)

theorem State.applySlot_keeps {s0 s : State} (H : Keeps s0 s) (g : Nat) (n : Nat) :
    Keeps s0 (State.applySlot s g n) := by
  unfold State.applySlot
  repeat' first
    | (with_reducible assumption) | (intro) | (with_reducible apply State.setGal_keeps) | (with_reducible apply Keeps.ite2)
    | (with_reducible apply Keeps.ite)
    | (fail_if_no_progress ((with_reducible apply Keeps.record) <;> first | with_reducible rfl | skip)) | split | (dsimp only)

theorem State.applyOwner_keeps {s0 s : State} (H : Keeps s0 s) (p : Nat) (v : Word32) :
    Keeps s0 (State.applyOwner s p v) := by
  unfold State.applyOwner
  repeat' first
    | (with_reducible assumption) | (intro) | (with_reducible apply State.setPage_keeps) | (with_reducible apply Keeps.ite2)
    | (with_reducible apply Keeps.ite)
    | (fail_if_no_progress ((with_reducible apply Keeps.record) <;> first | with_reducible rfl | skip)) | split | (dsimp only)

theorem State.applyStaged_keeps {s0 s : State} (H : Keeps s0 s) (off : Nat) (v : Word32) :
    Keeps s0 (State.applyStaged s off v) := by
  unfold State.applyStaged
  repeat' first
    | (with_reducible assumption) | (intro) | (with_reducible apply State.applySlot_keeps)
    | (with_reducible apply State.applyOwner_keeps) | (with_reducible apply State.applyRawTest_keeps)
    | (with_reducible apply Keeps.ite2) | (with_reducible apply Keeps.ite)
    | (fail_if_no_progress ((with_reducible apply Keeps.record) <;> first | with_reducible rfl | skip)) | split | (dsimp only)

theorem State.setProgram_keeps {s0 s : State} (H : Keeps s0 s) (n : Nat) (p : List Word64) :
    Keeps s0 (State.setProgram s n p) := by
  unfold State.setProgram
  repeat' first
    | (with_reducible assumption) | (intro) | (with_reducible apply Keeps.ite2) | (with_reducible apply Keeps.ite)
    | (fail_if_no_progress ((with_reducible apply Keeps.record) <;> first | with_reducible rfl | skip)) | split | (dsimp only)

theorem State.setCurve_keeps {s0 s : State} (H : Keeps s0 s) (slot : Nat) (x : CurveSlot) :
    Keeps s0 (State.setCurve s slot x) := by
  unfold State.setCurve
  repeat' first
    | (with_reducible assumption) | (intro) | (with_reducible apply Keeps.ite2) | (with_reducible apply Keeps.ite)
    | (fail_if_no_progress ((with_reducible apply Keeps.record) <;> first | with_reducible rfl | skip)) | split | (dsimp only)

theorem State.restartDocents_keeps {s0 s : State} (H : Keeps s0 s)  :
    Keeps s0 (State.restartDocents s) := by
  unfold State.restartDocents
  repeat' first
    | (with_reducible assumption) | (intro) | (with_reducible apply State.docentReset_keeps) | (with_reducible apply Keeps.forAll)
    | (with_reducible apply Keeps.setDocOk) | (with_reducible apply DocOk.doc)
    | (fail_if_no_progress (with_reducible apply DocOk.record)) | (with_reducible apply Keeps.ite2)
    | (with_reducible apply Keeps.ite)
    | (fail_if_no_progress ((with_reducible apply Keeps.record) <;> first | with_reducible rfl | skip)) | split | (dsimp only)

theorem State.keepPolicy_keeps {s0 s : State} (H : Keeps s0 s)  :
    Keeps s0 (State.keepPolicy s) := by
  unfold State.keepPolicy
  repeat' first
    | (with_reducible assumption) | (intro) | (with_reducible apply Keeps.ite2) | (with_reducible apply Keeps.ite)
    | (fail_if_no_progress ((with_reducible apply Keeps.record) <;> first | with_reducible rfl | skip)) | split | (dsimp only)

theorem State.applyItem_keeps {s0 s : State} (H : Keeps s0 s) (i : CfgItem) :
    Keeps s0 (State.applyItem s i) := by
  unfold State.applyItem
  repeat' first
    | (with_reducible assumption) | (intro) | (with_reducible apply State.setProgram_keeps)
    | (with_reducible apply State.setCurve_keeps) | (with_reducible apply State.runImage_keeps)
    | (with_reducible apply State.restartDocents_keeps) | (with_reducible apply State.runPolicy_keeps)
    | (with_reducible apply State.keepPolicy_keeps) | (with_reducible apply Keeps.ite2) | (with_reducible apply Keeps.ite)
    | (fail_if_no_progress ((with_reducible apply Keeps.record) <;> first | with_reducible rfl | skip)) | split | (dsimp only)

theorem State.switch_keeps {s0 s : State} (H : Keeps s0 s)  :
    Keeps s0 (State.switch s) := by
  unfold State.switch
  repeat' first
    | (with_reducible assumption) | (intro) | (with_reducible apply State.rewrap_keeps)
    | (with_reducible apply State.applyStaged_keeps) | (with_reducible apply State.markC0_keeps)
    | (with_reducible apply State.applyItem_keeps) | (with_reducible apply State.issueAlias_keeps)
    | (with_reducible apply State.entropyChanged_keeps) | (with_reducible apply State.pumpAll_keeps)
    | (with_reducible apply State.raiseAll_keeps) | (with_reducible apply Keeps.forAll) | (with_reducible apply Keeps.log)
    | (with_reducible apply Keeps.ite2) | (with_reducible apply Keeps.ite)
    | (fail_if_no_progress ((with_reducible apply Keeps.record) <;> first | with_reducible rfl | skip)) | split | (dsimp only)

theorem State.beginHandover_keeps {s0 s : State} (H : Keeps s0 s) (k : Nat) (lead : Nat) :
    Keeps s0 (State.beginHandover s k lead).2.2 := by
  unfold State.beginHandover
  repeat' first
    | (with_reducible assumption) | (intro) | (with_reducible apply Keeps.ite2) | (with_reducible apply Keeps.ite)
    | (fail_if_no_progress ((with_reducible apply Keeps.record) <;> first | with_reducible rfl | skip)) | split | (dsimp only)

theorem State.restartCores_keeps {s0 s : State} (H : Keeps s0 s)  :
    Keeps s0 (State.restartCores s) := by
  unfold State.restartCores
  repeat' first
    | (with_reducible assumption) | (intro) | (with_reducible apply State.setUnit_keeps) | (with_reducible apply Keeps.forAll)
    | (with_reducible apply Keeps.ite2) | (with_reducible apply Keeps.ite)
    | (fail_if_no_progress ((with_reducible apply Keeps.record) <;> first | with_reducible rfl | skip)) | split | (dsimp only)

theorem State.takeOver_keeps {s0 s : State} (H : Keeps s0 s)  :
    Keeps s0 (State.takeOver s) := by
  unfold State.takeOver
  repeat' first
    | (with_reducible assumption) | (intro) | (with_reducible apply State.rewrap_keeps)
    | (with_reducible apply State.wrapMaster_keeps) | (with_reducible apply State.setBoot_keeps)
    | (with_reducible apply State.restartCores_keeps) | (with_reducible apply State.preferSlot_keeps)
    | (with_reducible apply State.issueAlias_keeps) | (with_reducible apply BootOk.boot)
    | (fail_if_no_progress (with_reducible apply BootOk.record)) | (with_reducible apply Keeps.ite2)
    | (with_reducible apply Keeps.ite)
    | (fail_if_no_progress ((with_reducible apply Keeps.record) <;> first | with_reducible rfl | skip)) | split | (dsimp only)

theorem State.setWindow_keeps {s0 s : State} (H : Keeps s0 s) (w : Wing) (unit : Nat) (k : Nat) (x : Window) :
    Keeps s0 (State.setWindow s w unit k x) := by
  unfold State.setWindow
  repeat' first
    | (with_reducible assumption) | (intro) | (with_reducible apply State.setAu_keeps) | (with_reducible apply Keeps.ite2)
    | (with_reducible apply Keeps.ite)
    | (fail_if_no_progress ((with_reducible apply Keeps.record) <;> first | with_reducible rfl | skip)) | split | (dsimp only)

theorem State.windowWrite_keeps {s0 s : State} (H : Keeps s0 s) (w : Wing) (master : Nat) (unit : Nat) (off : Nat) (v : Word32) :
    Keeps s0 (State.windowWrite s w master unit off v) := by
  unfold State.windowWrite
  repeat' first
    | (with_reducible assumption) | (intro) | (with_reducible apply State.violation_keeps)
    | (with_reducible apply State.setWindow_keeps) | (with_reducible apply Keeps.ite2) | (with_reducible apply Keeps.ite)
    | (fail_if_no_progress ((with_reducible apply Keeps.record) <;> first | with_reducible rfl | skip)) | split | (dsimp only)

theorem State.vinfoClear_keeps {s0 s : State} (H : Keeps s0 s) (w : Wing) (unit : Nat) (v : Word32) :
    Keeps s0 (State.vinfoClear s w unit v) := by
  unfold State.vinfoClear
  repeat' first
    | (with_reducible assumption) | (intro) | (with_reducible apply State.setAu_keeps) | (with_reducible apply Keeps.ite2)
    | (with_reducible apply Keeps.ite)
    | (fail_if_no_progress ((with_reducible apply Keeps.record) <;> first | with_reducible rfl | skip)) | split | (dsimp only)

theorem State.auRegWrite_keeps {s0 s : State} (H : Keeps s0 s) (w : Wing) (master : Nat) (unit : Nat) (off : Nat) (v : Word32) :
    Keeps s0 (State.auRegWrite s w master unit off v) := by
  unfold State.auRegWrite
  repeat' first
    | (with_reducible assumption) | (intro) | (with_reducible apply State.violation_keeps)
    | (with_reducible apply State.setAu_keeps) | (with_reducible apply State.windowWrite_keeps)
    | (with_reducible apply State.vinfoClear_keeps) | (with_reducible apply Keeps.ite2) | (with_reducible apply Keeps.ite)
    | (fail_if_no_progress ((with_reducible apply Keeps.record) <;> first | with_reducible rfl | skip)) | split | (dsimp only)

theorem State.auRegRead_keeps {s0 s : State} (H : Keeps s0 s) (w : Wing) (unit : Nat) (off : Nat) :
    Keeps s0 (State.auRegRead s w unit off).2 := by
  unfold State.auRegRead
  repeat' first
    | (with_reducible assumption) | (intro) | (with_reducible apply State.setAu_keeps) | (with_reducible apply Keeps.ite2)
    | (with_reducible apply Keeps.ite)
    | (fail_if_no_progress ((with_reducible apply Keeps.record) <;> first | with_reducible rfl | skip)) | split | (dsimp only)

theorem State.dqWrite_keeps {s0 s : State} (H : Keeps s0 s) (w : Wing) (core : Nat) (q : Nat) (off : Nat) (v : Word32) :
    Keeps s0 (State.dqWrite s w core q off v) := by
  unfold State.dqWrite
  repeat' first
    | (with_reducible assumption) | (intro) | (with_reducible apply State.setDocQueue_keeps)
    | (with_reducible apply State.loseDocRecords_keeps) | (with_reducible apply Keeps.log) | (with_reducible apply Keeps.ite2)
    | (with_reducible apply Keeps.ite)
    | (fail_if_no_progress ((with_reducible apply Keeps.record) <;> first | with_reducible rfl | skip)) | split | (dsimp only)

theorem State.setCsr_keeps {s0 s : State} (H : Keeps s0 s) (w : Wing) (core : Nat) (st : Nat) :
    Keeps s0 (State.setCsr s w core st) := by
  unfold State.setCsr
  repeat' first
    | (with_reducible assumption) | (intro) | (with_reducible apply Keeps.setDocOk) | (with_reducible apply DocOk.doc)
    | (fail_if_no_progress (with_reducible apply DocOk.record)) | (with_reducible apply Keeps.ite2)
    | (with_reducible apply Keeps.ite)
    | (fail_if_no_progress ((with_reducible apply Keeps.record) <;> first | with_reducible rfl | skip)) | split | (dsimp only)

theorem State.dqTail_keeps {s0 s : State} (H : Keeps s0 s) (w : Wing) (core : Nat) (q : Nat) (tail : Nat) :
    Keeps s0 (State.dqTail s w core q tail) := by
  unfold State.dqTail
  repeat' first
    | (with_reducible assumption) | (intro) | (with_reducible apply State.setDocQueue_keeps)
    | (with_reducible apply State.setCsr_keeps) | (with_reducible apply State.ringTarget_keeps) | (with_reducible apply Keeps.ite2)
    | (with_reducible apply Keeps.ite)
    | (fail_if_no_progress ((with_reducible apply Keeps.record) <;> first | with_reducible rfl | skip)) | split
    | (rename_i h; have hs := congrArg Prod.snd h; dsimp only at hs; subst hs)
    | (rename_i h _; have hs := congrArg Prod.snd h; dsimp only at hs; subst hs) | (dsimp only)

theorem State.cardRegRead_keeps {s0 s : State} (H : Keeps s0 s) (n : Nat) (off : Nat) :
    Keeps s0 (State.cardRegRead s n off).2 := by
  unfold State.cardRegRead
  repeat' first
    | (with_reducible assumption) | (intro) | (with_reducible apply Keeps.setCardOk) | (with_reducible apply CardOk.card)
    | (fail_if_no_progress (with_reducible apply CardOk.record)) | (with_reducible apply Keeps.ite2)
    | (with_reducible apply Keeps.ite)
    | (fail_if_no_progress ((with_reducible apply Keeps.record) <;> first | with_reducible rfl | skip)) | split | (dsimp only)

theorem State.cardCmd_keeps {s0 s : State} (H : Keeps s0 s) (n : Nat) (v : Word32) :
    Keeps s0 (State.cardCmd s n v) := by
  unfold State.cardCmd
  repeat' first
    | (with_reducible assumption) | (intro) | (with_reducible apply State.cardActivate_keeps)
    | (with_reducible apply State.cardDeactivate_keeps) | (with_reducible apply State.cardWarmReset_keeps)
    | (with_reducible apply State.cardStart_keeps) | (with_reducible apply State.cardClkStop_keeps)
    | (with_reducible apply State.cardWake_keeps) | (with_reducible apply State.cardAbort_keeps)
    | (with_reducible apply Keeps.ite2) | (with_reducible apply Keeps.ite)
    | (fail_if_no_progress ((with_reducible apply Keeps.record) <;> first | with_reducible rfl | skip)) | split | (dsimp only)

theorem State.cardDataWrite_keeps {s0 s : State} (H : Keeps s0 s) (n : Nat) (off : Nat) (bytes : List Byte) :
    Keeps s0 (State.cardDataWrite s n off bytes) := by
  unfold State.cardDataWrite
  repeat' first
    | (with_reducible assumption) | (with_reducible apply CardOk.writeData) | (intro) | (with_reducible apply Keeps.setCardOk)
    | (with_reducible apply CardOk.card) | (fail_if_no_progress (with_reducible apply CardOk.record))
    | (with_reducible apply Keeps.ite2) | (with_reducible apply Keeps.ite)
    | (fail_if_no_progress ((with_reducible apply Keeps.record) <;> first | with_reducible rfl | skip)) | split | (dsimp only)

theorem State.cardRegWrite_keeps {s0 s : State} (H : Keeps s0 s) (n : Nat) (off : Nat) (v : Word32) :
    Keeps s0 (State.cardRegWrite s n off v) := by
  unfold State.cardRegWrite
  repeat' first
    | (with_reducible assumption) | (intro) | (with_reducible apply State.cardCmd_keeps) | (with_reducible apply Keeps.setCardOk)
    | (with_reducible apply CardOk.card) | (fail_if_no_progress (with_reducible apply CardOk.record))
    | (with_reducible apply Keeps.ite2) | (with_reducible apply Keeps.ite)
    | (fail_if_no_progress ((with_reducible apply Keeps.record) <;> first | with_reducible rfl | skip)) | split | (dsimp only)

theorem State.slotRead_keeps {s0 s : State} (H : Keeps s0 s) (w : Wing) (n : Nat) (off : Nat) :
    Keeps s0 (State.slotRead s w n off).2 := by
  unfold State.slotRead
  repeat' first
    | (with_reducible assumption) | (intro) | (with_reducible apply State.cardRegRead_keeps)
    | (with_reducible apply State.free_keeps) | (with_reducible apply DocOk.doc) | (with_reducible apply Keeps.ite2)
    | (with_reducible apply Keeps.ite)
    | (fail_if_no_progress ((with_reducible apply Keeps.record) <;> first | with_reducible rfl | skip)) | split
    | (rename_i h; have hs := congrArg Prod.snd h; dsimp only at hs; subst hs)
    | (rename_i h _; have hs := congrArg Prod.snd h; dsimp only at hs; subst hs) | (dsimp only)

theorem id_keeps {s0 s : State} (H : Keeps s0 s) : Keeps s0 (id s) := H

theorem State.slotWrite_keeps {s0 s : State} (H : Keeps s0 s) (w : Wing) (n : Nat) (off : Nat) (v : Word32) :
    Keeps s0 (State.slotWrite s w n off v) := by
  unfold State.slotWrite
  repeat' first
    | (with_reducible assumption) | (with_reducible apply DocentWing.gpioWrite_ok)
    | (with_reducible apply DocentWing.timerWrite_ok) | (with_reducible apply DocentWing.rtcWrite_ok)
    | (exact id_keeps (by assumption)) | (intro) | (with_reducible apply State.cardRegWrite_keeps)
    | (with_reducible apply State.curmbWrite_keeps) | (with_reducible apply Keeps.setDocOk) | (with_reducible apply DocOk.doc)
    | (fail_if_no_progress (with_reducible apply DocOk.record)) | (with_reducible apply Keeps.ite2)
    | (with_reducible apply Keeps.ite)
    | (fail_if_no_progress ((with_reducible apply Keeps.record) <;> first | with_reducible rfl | skip)) | split | (dsimp only)

theorem State.readWords_keeps {s0 s : State} (H : Keeps s0 s) (off : Nat) (len : Nat) (rd : State → Nat → Word32 × State) (hrd : ∀ x a1, Keeps s0 x → Keeps s0 (rd x a1).2) :
    Keeps s0 (State.readWords s off len rd).2 := by
  unfold State.readWords
  repeat' first
    | (with_reducible assumption) | (with_reducible apply Keeps.foldl2) | (intro) | (with_reducible apply hrd)
    | (with_reducible apply Keeps.ite2) | (with_reducible apply Keeps.ite)
    | (fail_if_no_progress ((with_reducible apply Keeps.record) <;> first | with_reducible rfl | skip)) | split | (dsimp only)

theorem State.writeWords_keeps {s0 s : State} (H : Keeps s0 s) (off : Nat) (bytes : List Byte) (wr : State → Nat → Word32 → State) (hwr : ∀ x a1 a2, Keeps s0 x → Keeps s0 (wr x a1 a2)) :
    Keeps s0 (State.writeWords s off bytes wr) := by
  unfold State.writeWords
  repeat' first
    | (with_reducible assumption) | (intro) | (with_reducible apply hwr) | (with_reducible apply Keeps.forAll)
    | (with_reducible apply Keeps.ite2) | (with_reducible apply Keeps.ite)
    | (fail_if_no_progress ((with_reducible apply Keeps.record) <;> first | with_reducible rfl | skip)) | split | (dsimp only)

theorem State.docentFailure_keeps {s0 s : State} (H : Keeps s0 s) (w : Wing) (master : Nat) (off : Nat) (st : Byte) :
    Keeps s0 (State.docentFailure s w master off st) := by
  unfold State.docentFailure
  repeat' first
    | (with_reducible assumption) | (intro) | (with_reducible apply State.storeFailure_keeps) | (with_reducible apply Keeps.log)
    | (with_reducible apply Keeps.ite2) | (with_reducible apply Keeps.ite)
    | (fail_if_no_progress ((with_reducible apply Keeps.record) <;> first | with_reducible rfl | skip)) | split | (dsimp only)

theorem State.docPerform_keeps {s0 s : State} (H : Keeps s0 s) (w : Wing) (master : Nat) (a : Access) (gate : GateOutcome) (t : DocTarget) :
    Keeps s0 (State.docPerform s w master a gate t).2.2 := by
  unfold State.docPerform
  repeat' first
    | (with_reducible assumption) | (intro) | (with_reducible apply State.readWords_keeps)
    | (with_reducible apply State.slotRead_keeps) | (with_reducible apply State.cardDataWrite_keeps)
    | (with_reducible apply State.writeWords_keeps) | (with_reducible apply State.slotWrite_keeps)
    | (with_reducible apply State.auRegRead_keeps) | (with_reducible apply State.auRegWrite_keeps)
    | (with_reducible apply State.dqWrite_keeps) | (with_reducible apply State.docentFailure_keeps)
    | (with_reducible apply State.docMemWrite_keeps) | (with_reducible apply State.docMemRead_keeps)
    | (with_reducible apply Keeps.ite2) | (with_reducible apply Keeps.ite)
    | (fail_if_no_progress ((with_reducible apply Keeps.record) <;> first | with_reducible rfl | skip)) | split
    | (rename_i h; have hs := congrArg Prod.snd h; dsimp only at hs; subst hs)
    | (rename_i h _; have hs := congrArg Prod.snd h; dsimp only at hs; subst hs) | (dsimp only)

theorem State.masterAccess_keeps {s0 s : State} (H : Keeps s0 s) (w : Wing) (master : Nat) (a : Access) (gate : GateOutcome) :
    Keeps s0 (State.masterAccess s w master a gate) := by
  unfold State.masterAccess
  repeat' first
    | (with_reducible assumption) | (intro) | (with_reducible apply State.violation_keeps)
    | (with_reducible apply State.docPerform_keeps) | (with_reducible apply Keeps.emit) | (with_reducible apply Keeps.ite2)
    | (with_reducible apply Keeps.ite)
    | (fail_if_no_progress ((with_reducible apply Keeps.record) <;> first | with_reducible rfl | skip)) | split
    | (rename_i h; have hs := congrArg Prod.snd h; dsimp only at hs; subst hs)
    | (rename_i h _; have hs := congrArg Prod.snd h; dsimp only at hs; subst hs) | (dsimp only)

theorem State.switchDie_keeps {s0 s : State} (H : Keeps s0 s) (die : Die) (dest : ClockSource) (forced : Bool) :
    Keeps s0 (State.switchDie s die dest forced) := by
  unfold State.switchDie
  repeat' first
    | (with_reducible assumption) | (intro) | (with_reducible apply State.setClockDie_keeps) | (with_reducible apply Keeps.ite2)
    | (with_reducible apply Keeps.ite)
    | (fail_if_no_progress ((with_reducible apply Keeps.record) <;> first | with_reducible rfl | skip)) | split | (dsimp only)

theorem State.leaveFailed_keeps {s0 s : State} (H : Keeps s0 s) (die : Die) :
    Keeps s0 (State.leaveFailed s die) := by
  unfold State.leaveFailed
  repeat' first
    | (with_reducible assumption) | (intro) | (with_reducible apply State.switchDie_keeps) | (with_reducible apply Keeps.ite2)
    | (with_reducible apply Keeps.ite)
    | (fail_if_no_progress ((with_reducible apply Keeps.record) <;> first | with_reducible rfl | skip)) | split | (dsimp only)

theorem State.refFailed_keeps {s0 s : State} (H : Keeps s0 s) (die : Die) (src : ClockSource) :
    Keeps s0 (State.refFailed s die src) := by
  unfold State.refFailed
  repeat' first
    | (with_reducible assumption) | (intro) | (with_reducible apply State.setClockDie_keeps)
    | (with_reducible apply State.leaveFailed_keeps) | (with_reducible apply Keeps.log) | (with_reducible apply Keeps.ite2)
    | (with_reducible apply Keeps.ite)
    | (fail_if_no_progress ((with_reducible apply Keeps.record) <;> first | with_reducible rfl | skip)) | split | (dsimp only)

theorem State.checkRef_keeps {s0 s : State} (H : Keeps s0 s) (die : Die) (src : ClockSource) (permille : Nat) :
    Keeps s0 (State.checkRef s die src permille) := by
  unfold State.checkRef
  repeat' first
    | (with_reducible assumption) | (intro) | (with_reducible apply State.refFailed_keeps)
    | (with_reducible apply State.sensorTrip_keeps) | (with_reducible apply State.setClockDie_keeps)
    | (with_reducible apply Keeps.ite2) | (with_reducible apply Keeps.ite)
    | (fail_if_no_progress ((with_reducible apply Keeps.record) <;> first | with_reducible rfl | skip)) | split | (dsimp only)

theorem State.revertDie_keeps {s0 s : State} (H : Keeps s0 s) (die : Die) :
    Keeps s0 (State.revertDie s die) := by
  unfold State.revertDie
  repeat' first
    | (with_reducible assumption) | (intro) | (with_reducible apply State.switchDie_keeps) | (with_reducible apply Keeps.ite2)
    | (with_reducible apply Keeps.ite)
    | (fail_if_no_progress ((with_reducible apply Keeps.record) <;> first | with_reducible rfl | skip)) | split | (dsimp only)

theorem State.pstateWrite_keeps {s0 s : State} (H : Keeps s0 s) (f : Fn) (k : State → State) (hk : ∀ x, Keeps s0 x → Keeps s0 (k x)) :
    Keeps s0 (State.pstateWrite s f k) := by
  unfold State.pstateWrite
  repeat' first
    | (with_reducible assumption) | (intro) | (with_reducible apply State.access_keeps)
    | (with_reducible apply State.regError_keeps) | (with_reducible apply hk) | (with_reducible apply Keeps.ite2)
    | (with_reducible apply Keeps.ite)
    | (fail_if_no_progress ((with_reducible apply Keeps.record) <;> first | with_reducible rfl | skip)) | split | (dsimp only)

theorem State.setPstat_keeps {s0 s : State} (H : Keeps s0 s) (n : Nat) (draining : Option Nat) :
    Keeps s0 (State.setPstat s n draining) := by
  unfold State.setPstat
  repeat' first
    | (with_reducible assumption) | (intro) | (with_reducible apply Keeps.ite2) | (with_reducible apply Keeps.ite)
    | (fail_if_no_progress ((with_reducible apply Keeps.record) <;> first | with_reducible rfl | skip)) | split | (dsimp only)

theorem State.setPstate_keeps {s0 s : State} (H : Keeps s0 s) (p : PState) :
    Keeps s0 (State.setPstate s p) := by
  unfold State.setPstate
  repeat' first
    | (with_reducible assumption) | (intro) | (with_reducible apply Keeps.ite2) | (with_reducible apply Keeps.ite)
    | (fail_if_no_progress ((with_reducible apply Keeps.record) <;> first | with_reducible rfl | skip)) | split | (dsimp only)

theorem State.gateWings_keeps {s0 s : State} (H : Keeps s0 s)  :
    Keeps s0 (State.gateWings s) := by
  unfold State.gateWings
  repeat' first
    | (with_reducible assumption) | (intro) | (with_reducible apply State.deactivateCards_keeps)
    | (with_reducible apply State.flushGate_keeps) | (with_reducible apply State.clearGalleries_keeps)
    | (with_reducible apply State.setPort_keeps) | (with_reducible apply State.dropGensOn_keeps) | (with_reducible apply Keeps.ite2) | (with_reducible apply Keeps.ite)
    | (fail_if_no_progress ((with_reducible apply Keeps.record) <;> first | with_reducible rfl | skip)) | split | (dsimp only)

theorem State.enterStandby_keeps {s0 s : State} (H : Keeps s0 s)  :
    Keeps s0 (State.enterStandby s) := by
  unfold State.enterStandby
  repeat' first
    | (with_reducible assumption) | (intro) | (with_reducible apply State.writeSeals_keeps)
    | (with_reducible apply State.closeSeal_keeps) | (with_reducible apply State.setPstat_keeps)
    | (with_reducible apply State.setPstate_keeps) | (with_reducible apply State.gateWings_keeps)
    | (with_reducible apply Keeps.ite2) | (with_reducible apply Keeps.ite)
    | (fail_if_no_progress ((with_reducible apply Keeps.record) <;> first | with_reducible rfl | skip)) | split | (dsimp only)

theorem State.wake_keeps {s0 s : State} (H : Keeps s0 s)  :
    Keeps s0 (State.wake s) := by
  unfold State.wake
  repeat' first
    | (with_reducible assumption) | (intro) | (with_reducible apply State.setPstate_keeps)
    | (with_reducible apply State.setPstat_keeps) | (with_reducible apply State.entropyChanged_keeps)
    | (with_reducible apply State.restartEntropy_keeps) | (with_reducible apply Keeps.ite2) | (with_reducible apply Keeps.ite)
    | (fail_if_no_progress ((with_reducible apply Keeps.record) <;> first | with_reducible rfl | skip)) | split | (dsimp only)

theorem State.enterThermalHold_keeps {s0 s : State} (H : Keeps s0 s)  :
    Keeps s0 (State.enterThermalHold s) := by
  unfold State.enterThermalHold
  repeat' first
    | (with_reducible assumption) | (intro) | (with_reducible apply State.endJobWith_keeps)
    | (with_reducible apply State.endPage_keeps) | (with_reducible apply State.setPstat_keeps)
    | (with_reducible apply State.setPstate_keeps) | (with_reducible apply State.gateWings_keeps)
    | (with_reducible apply Keeps.forAll) | (with_reducible apply Keeps.log) | (with_reducible apply Keeps.ite2)
    | (with_reducible apply Keeps.ite)
    | (fail_if_no_progress ((with_reducible apply Keeps.record) <;> first | with_reducible rfl | skip)) | split | (dsimp only)

theorem State.setRtc_keeps {s0 s : State} (H : Keeps s0 s) (n : Nat) :
    Keeps s0 (State.setRtc s n) := by
  unfold State.setRtc
  repeat' first
    | (with_reducible assumption) | (intro) | (with_reducible apply Keeps.ite2) | (with_reducible apply Keeps.ite)
    | (fail_if_no_progress ((with_reducible apply Keeps.record) <;> first | with_reducible rfl | skip)) | split | (dsimp only)

theorem State.setAvs_keeps {s0 s : State} (H : Keeps s0 s) (w : Wing) (mv : Nat) (held : Bool) :
    Keeps s0 (State.setAvs s w mv held) := by
  unfold State.setAvs
  repeat' first
    | (with_reducible assumption) | (intro) | (with_reducible apply Keeps.ite2) | (with_reducible apply Keeps.ite)
    | (fail_if_no_progress ((with_reducible apply Keeps.record) <;> first | with_reducible rfl | skip)) | split | (dsimp only)

end Sys2Proof.Machine
end

