-- ==== Sys2Proof/Laws/KeepsExecA.lean ====
section
/-! SUPPORT. Every command of the table keeps what `Keeps` says (first part). -/

set_option linter.all false

open Host

namespace Sys2Proof.Machine

theorem execCardInsertion_keeps (slot : Nat) (s : State) : ∃ nxt, execCardInsertion slot s = .next nxt ∧ Keeps s nxt := by
  have H := Keeps.refl s
  unfold execCardInsertion
  refine ⟨_, rfl, ?_⟩
  repeat' first
    | (with_reducible assumption) | (intro) | (with_reducible apply Keeps.setCardOk) | (with_reducible apply CardOk.card)
    | (fail_if_no_progress (with_reducible apply CardOk.record)) | (with_reducible apply Keeps.ite2)
    | (with_reducible apply Keeps.ite)
    | (fail_if_no_progress ((with_reducible apply Keeps.record) <;> first | with_reducible rfl | skip)) | split | (dsimp only)

theorem execCardRemoval_keeps (slot : Nat) (s : State) : ∃ nxt, execCardRemoval slot s = .next nxt ∧ Keeps s nxt := by
  have H := Keeps.refl s
  unfold execCardRemoval
  refine ⟨_, rfl, ?_⟩
  repeat' first
    | (with_reducible assumption) | (intro) | (with_reducible apply Keeps.setCardOk) | (with_reducible apply CardOk.card)
    | (with_reducible apply Card.finish_ok) | (with_reducible apply Card.toDeactivating_ok)
    | (fail_if_no_progress (with_reducible apply CardOk.record)) | (with_reducible apply Keeps.ite2)
    | (with_reducible apply Keeps.ite)
    | (fail_if_no_progress ((with_reducible apply Keeps.record) <;> first | with_reducible rfl | skip)) | split | (dsimp only)

theorem execCardActivate_keeps (slot : Nat) (s : State) : ∃ nxt, execCardActivate slot s = .next nxt ∧ Keeps s nxt := by
  have H := Keeps.refl s
  unfold execCardActivate
  refine ⟨_, rfl, ?_⟩
  repeat' first
    | (with_reducible assumption) | (intro) | (with_reducible apply State.cardActivate_keeps) | (with_reducible apply Keeps.ite2)
    | (with_reducible apply Keeps.ite)
    | (fail_if_no_progress ((with_reducible apply Keeps.record) <;> first | with_reducible rfl | skip)) | split | (dsimp only)

theorem execCardDeactivate_keeps (slot : Nat) (s : State) : ∃ nxt, execCardDeactivate slot s = .next nxt ∧ Keeps s nxt := by
  have H := Keeps.refl s
  unfold execCardDeactivate
  refine ⟨_, rfl, ?_⟩
  repeat' first
    | (with_reducible assumption) | (intro) | (with_reducible apply State.cardDeactivate_keeps) | (with_reducible apply Keeps.ite2)
    | (with_reducible apply Keeps.ite)
    | (fail_if_no_progress ((with_reducible apply Keeps.record) <;> first | with_reducible rfl | skip)) | split | (dsimp only)

theorem execCardWarmReset_keeps (slot : Nat) (s : State) : ∃ nxt, execCardWarmReset slot s = .next nxt ∧ Keeps s nxt := by
  have H := Keeps.refl s
  unfold execCardWarmReset
  refine ⟨_, rfl, ?_⟩
  repeat' first
    | (with_reducible assumption) | (intro) | (with_reducible apply State.cardWarmReset_keeps) | (with_reducible apply Keeps.ite2)
    | (with_reducible apply Keeps.ite)
    | (fail_if_no_progress ((with_reducible apply Keeps.record) <;> first | with_reducible rfl | skip)) | split | (dsimp only)

theorem execCardStart_keeps (slot : Nat) (s : State) : ∃ nxt, execCardStart slot s = .next nxt ∧ Keeps s nxt := by
  have H := Keeps.refl s
  unfold execCardStart
  refine ⟨_, rfl, ?_⟩
  repeat' first
    | (with_reducible assumption) | (intro) | (with_reducible apply State.cardStart_keeps) | (with_reducible apply Keeps.ite2)
    | (with_reducible apply Keeps.ite)
    | (fail_if_no_progress ((with_reducible apply Keeps.record) <;> first | with_reducible rfl | skip)) | split | (dsimp only)

theorem execCardClkStop_keeps (slot : Nat) (s : State) : ∃ nxt, execCardClkStop slot s = .next nxt ∧ Keeps s nxt := by
  have H := Keeps.refl s
  unfold execCardClkStop
  refine ⟨_, rfl, ?_⟩
  repeat' first
    | (with_reducible assumption) | (intro) | (with_reducible apply State.cardClkStop_keeps) | (with_reducible apply Keeps.ite2)
    | (with_reducible apply Keeps.ite)
    | (fail_if_no_progress ((with_reducible apply Keeps.record) <;> first | with_reducible rfl | skip)) | split | (dsimp only)

theorem execCardWake_keeps (slot : Nat) (s : State) : ∃ nxt, execCardWake slot s = .next nxt ∧ Keeps s nxt := by
  have H := Keeps.refl s
  unfold execCardWake
  refine ⟨_, rfl, ?_⟩
  repeat' first
    | (with_reducible assumption) | (intro) | (with_reducible apply State.cardWake_keeps) | (with_reducible apply Keeps.ite2)
    | (with_reducible apply Keeps.ite)
    | (fail_if_no_progress ((with_reducible apply Keeps.record) <;> first | with_reducible rfl | skip)) | split | (dsimp only)

theorem execCardAbort_keeps (slot : Nat) (s : State) : ∃ nxt, execCardAbort slot s = .next nxt ∧ Keeps s nxt := by
  have H := Keeps.refl s
  unfold execCardAbort
  refine ⟨_, rfl, ?_⟩
  repeat' first
    | (with_reducible assumption) | (intro) | (with_reducible apply State.cardAbort_keeps) | (with_reducible apply Keeps.ite2)
    | (with_reducible apply Keeps.ite)
    | (fail_if_no_progress ((with_reducible apply Keeps.record) <;> first | with_reducible rfl | skip)) | split | (dsimp only)

theorem execCardCharacterReceive_keeps (slot : Nat) (b : Byte) (parityOk : Bool) (s : State) : ∃ nxt, execCardCharacterReceive slot b parityOk s = .next nxt ∧ Keeps s nxt := by
  have H := Keeps.refl s
  unfold execCardCharacterReceive
  refine ⟨_, rfl, ?_⟩
  repeat' first
    | (with_reducible assumption) | (intro) | (with_reducible apply State.cardChar_keeps)
    | (with_reducible apply State.cardParity_keeps) | (with_reducible apply CardOk.card)
    | (fail_if_no_progress (with_reducible apply CardOk.record)) | (with_reducible apply Keeps.ite2)
    | (with_reducible apply Keeps.ite)
    | (fail_if_no_progress ((with_reducible apply Keeps.record) <;> first | with_reducible rfl | skip)) | split | (dsimp only)

theorem execCardCharacterSent_keeps (slot : Nat) (errorSignal : Bool) (s : State) : ∃ nxt, execCardCharacterSent slot errorSignal s = .next nxt ∧ Keeps s nxt := by
  have H := Keeps.refl s
  unfold execCardCharacterSent
  refine ⟨_, rfl, ?_⟩
  repeat' first
    | (with_reducible assumption) | (intro) | (with_reducible apply State.cardSend_keeps) | (with_reducible apply Keeps.setCardOk)
    | (with_reducible apply CardOk.card) | (with_reducible apply Card.fail_ok)
    | (fail_if_no_progress (with_reducible apply CardOk.record)) | (with_reducible apply Keeps.ite2)
    | (with_reducible apply Keeps.ite)
    | (fail_if_no_progress ((with_reducible apply Keeps.record) <;> first | with_reducible rfl | skip)) | split | (dsimp only)

theorem execCardVccTimeout_keeps (slot : Nat) (s : State) : ∃ nxt, execCardVccTimeout slot s = .next nxt ∧ Keeps s nxt := by
  have H := Keeps.refl s
  unfold execCardVccTimeout
  refine ⟨_, rfl, ?_⟩
  repeat' first
    | (with_reducible assumption) | (intro) | (with_reducible apply Keeps.setCardOk) | (with_reducible apply CardOk.card)
    | (with_reducible apply Card.fail_ok) | (fail_if_no_progress (with_reducible apply CardOk.record))
    | (with_reducible apply Keeps.ite2) | (with_reducible apply Keeps.ite)
    | (fail_if_no_progress ((with_reducible apply Keeps.record) <;> first | with_reducible rfl | skip)) | split | (dsimp only)

theorem execCardAtrTimeout_keeps (slot : Nat) (s : State) : ∃ nxt, execCardAtrTimeout slot s = .next nxt ∧ Keeps s nxt := by
  have H := Keeps.refl s
  unfold execCardAtrTimeout
  refine ⟨_, rfl, ?_⟩
  repeat' first
    | (with_reducible assumption) | (intro) | (with_reducible apply Keeps.setCardOk) | (with_reducible apply CardOk.card)
    | (with_reducible apply Card.noAtr_ok) | (fail_if_no_progress (with_reducible apply CardOk.record))
    | (with_reducible apply Keeps.ite2) | (with_reducible apply Keeps.ite)
    | (fail_if_no_progress ((with_reducible apply Keeps.record) <;> first | with_reducible rfl | skip)) | split | (dsimp only)

theorem execCardClassBRetry_keeps (slot : Nat) (s : State) : ∃ nxt, execCardClassBRetry slot s = .next nxt ∧ Keeps s nxt := by
  have H := Keeps.refl s
  unfold execCardClassBRetry
  refine ⟨_, rfl, ?_⟩
  repeat' first
    | (with_reducible assumption) | (intro) | (with_reducible apply State.cardPowerUp_keeps) | (with_reducible apply CardOk.card)
    | (fail_if_no_progress (with_reducible apply CardOk.record)) | (with_reducible apply Keeps.ite2)
    | (with_reducible apply Keeps.ite)
    | (fail_if_no_progress ((with_reducible apply Keeps.record) <;> first | with_reducible rfl | skip)) | split | (dsimp only)

theorem execCardWaitingTimeExpiry_keeps (slot : Nat) (s : State) : ∃ nxt, execCardWaitingTimeExpiry slot s = .next nxt ∧ Keeps s nxt := by
  have H := Keeps.refl s
  unfold execCardWaitingTimeExpiry
  refine ⟨_, rfl, ?_⟩
  repeat' first
    | (with_reducible assumption) | (intro) | (with_reducible apply Keeps.setCardOk) | (with_reducible apply CardOk.card)
    | (with_reducible apply Card.fail_ok) | (with_reducible apply Card.ppsFail_ok)
    | (fail_if_no_progress (with_reducible apply CardOk.record)) | (with_reducible apply Keeps.ite2)
    | (with_reducible apply Keeps.ite)
    | (fail_if_no_progress ((with_reducible apply Keeps.record) <;> first | with_reducible rfl | skip)) | split | (dsimp only)

theorem execCardDeactivationComplete_keeps (slot : Nat) (s : State) : ∃ nxt, execCardDeactivationComplete slot s = .next nxt ∧ Keeps s nxt := by
  have H := Keeps.refl s
  unfold execCardDeactivationComplete
  refine ⟨_, rfl, ?_⟩
  repeat' first
    | (with_reducible assumption) | (intro) | (with_reducible apply State.cardPowerUp_keeps) | (with_reducible apply Keeps.emit)
    | (with_reducible apply Keeps.setCardOk) | (with_reducible apply CardOk.card)
    | (fail_if_no_progress (with_reducible apply CardOk.record)) | (with_reducible apply Keeps.ite2)
    | (with_reducible apply Keeps.ite)
    | (fail_if_no_progress ((with_reducible apply Keeps.record) <;> first | with_reducible rfl | skip)) | split | (dsimp only)

theorem execCardResultRead_keeps (slot : Nat) (s : State) : ∃ nxt, execCardResultRead slot s = .next nxt ∧ Keeps s nxt := by
  have H := Keeps.refl s
  unfold execCardResultRead
  refine ⟨_, rfl, ?_⟩
  repeat' first
    | (with_reducible assumption) | (intro) | (with_reducible apply Keeps.emit) | (with_reducible apply Keeps.setCardOk)
    | (with_reducible apply CardOk.card) | (fail_if_no_progress (with_reducible apply CardOk.record))
    | (with_reducible apply Keeps.ite2) | (with_reducible apply Keeps.ite)
    | (fail_if_no_progress ((with_reducible apply Keeps.record) <;> first | with_reducible rfl | skip)) | split | (dsimp only)

theorem execCardIrqClear_keeps (slot : Nat) (v : Word32) (s : State) : ∃ nxt, execCardIrqClear slot v s = .next nxt ∧ Keeps s nxt := by
  have H := Keeps.refl s
  unfold execCardIrqClear
  refine ⟨_, rfl, ?_⟩
  repeat' first
    | (with_reducible assumption) | (intro) | (with_reducible apply Keeps.setCardOk) | (with_reducible apply CardOk.card)
    | (fail_if_no_progress (with_reducible apply CardOk.record)) | (with_reducible apply Keeps.ite2)
    | (with_reducible apply Keeps.ite)
    | (fail_if_no_progress ((with_reducible apply Keeps.record) <;> first | with_reducible rfl | skip)) | split | (dsimp only)

theorem execCompatStart_keeps (f : Fn) (page : Nat) (s : State) : ∃ nxt, execCompatStart f page s = .next nxt ∧ Keeps s nxt := by
  have H := Keeps.refl s
  unfold execCompatStart
  refine ⟨_, rfl, ?_⟩
  repeat' first
    | (with_reducible assumption) | (intro) | (with_reducible apply State.write_keeps)
    | (with_reducible apply State.regError_keeps) | (with_reducible apply State.setPage_keeps)
    | (with_reducible apply State.endPage_keeps) | (with_reducible apply State.pumpAll_keeps) | (with_reducible apply Keeps.ite2)
    | (with_reducible apply Keeps.ite)
    | (fail_if_no_progress ((with_reducible apply Keeps.record) <;> first | with_reducible rfl | skip)) | split | (dsimp only)

theorem execCompatKeyClear_keeps (f : Fn) (page : Nat) (s : State) : ∃ nxt, execCompatKeyClear f page s = .next nxt ∧ Keeps s nxt := by
  have H := Keeps.refl s
  unfold execCompatKeyClear
  refine ⟨_, rfl, ?_⟩
  repeat' first
    | (with_reducible assumption) | (intro) | (with_reducible apply State.write_keeps)
    | (with_reducible apply State.regError_keeps) | (with_reducible apply State.setPage_keeps) | (with_reducible apply Keeps.ite2)
    | (with_reducible apply Keeps.ite)
    | (fail_if_no_progress ((with_reducible apply Keeps.record) <;> first | with_reducible rfl | skip)) | split | (dsimp only)

theorem execCompatKeyWrite_keeps (f : Fn) (page : Nat) (word : Nat) (v : Word32) (s : State) : ∃ nxt, execCompatKeyWrite f page word v s = .next nxt ∧ Keeps s nxt := by
  have H := Keeps.refl s
  unfold execCompatKeyWrite
  refine ⟨_, rfl, ?_⟩
  repeat' first
    | (with_reducible assumption) | (intro) | (with_reducible apply State.write_keeps)
    | (with_reducible apply State.regError_keeps) | (with_reducible apply State.setPage_keeps) | (with_reducible apply Keeps.ite2)
    | (with_reducible apply Keeps.ite)
    | (fail_if_no_progress ((with_reducible apply Keeps.record) <;> first | with_reducible rfl | skip)) | split | (dsimp only)

theorem execCompatOperationComplete_keeps (page : Nat) (ev : EngineEvent) (s : State) : ∃ nxt, execCompatOperationComplete page ev s = .next nxt ∧ Keeps s nxt := by
  have H := Keeps.refl s
  unfold execCompatOperationComplete
  refine ⟨_, rfl, ?_⟩
  repeat' first
    | (with_reducible assumption) | (intro) | (with_reducible apply State.pumpAll_keeps)
    | (with_reducible apply State.countError_keeps) | (with_reducible apply State.endPage_keeps)
    | (with_reducible apply State.setPage_keeps) | (with_reducible apply Keeps.log) | (with_reducible apply Keeps.ite2)
    | (with_reducible apply Keeps.ite)
    | (fail_if_no_progress ((with_reducible apply Keeps.record) <;> first | with_reducible rfl | skip)) | split | (dsimp only)

theorem execLeafReservation_keeps (w : Wing) (slot : Nat) (readbackFailures : Nat) (s : State) : ∃ nxt, execLeafReservation w slot readbackFailures s = .next nxt ∧ Keeps s nxt := by
  have H := Keeps.refl s
  unfold execLeafReservation
  refine ⟨_, rfl, ?_⟩
  repeat' first
    | (with_reducible assumption) | (intro) | (with_reducible apply State.ledgerPut_keeps)
    | (with_reducible apply State.pumpAll_keeps) | (with_reducible apply State.endJob_keeps)
    | (with_reducible apply State.grantBlock_keeps) | (with_reducible apply Keeps.forAll) | (with_reducible apply Keeps.ite2)
    | (with_reducible apply Keeps.ite)
    | (fail_if_no_progress ((with_reducible apply Keeps.record) <;> first | with_reducible rfl | skip)) | split | (dsimp only)

theorem execIssuerPositionReport_keeps (w : Wing) (s : State) : ∃ nxt, execIssuerPositionReport w s = .next nxt ∧ Keeps s nxt := by
  have H := Keeps.refl s
  unfold execIssuerPositionReport
  refine ⟨_, rfl, ?_⟩
  repeat' first
    | (with_reducible assumption) | (intro) | (with_reducible apply State.checkLow_keeps)
    | (with_reducible apply State.setSlot_keeps) | (with_reducible apply Keeps.forAll) | (with_reducible apply Keeps.ite2)
    | (with_reducible apply Keeps.ite)
    | (fail_if_no_progress ((with_reducible apply Keeps.record) <;> first | with_reducible rfl | skip)) | split | (dsimp only)

theorem execTreeSubtreeGeneration_keeps (slot : Nat) (checkTrips : Bool) (s : State) : ∃ nxt, execTreeSubtreeGeneration slot checkTrips s = .next nxt ∧ Keeps s nxt := by
  have H := Keeps.refl s
  unfold execTreeSubtreeGeneration
  refine ⟨_, rfl, ?_⟩
  repeat' first
    | (with_reducible assumption) | (intro) | (with_reducible apply State.pumpAll_keeps)
    | (with_reducible apply State.tripGen_keeps) | (with_reducible apply State.dropGens_keeps)
    | (with_reducible apply State.endGen_keeps) | (with_reducible apply Keeps.log) | (with_reducible apply Keeps.ite2)
    | (with_reducible apply Keeps.ite)
    | (fail_if_no_progress ((with_reducible apply Keeps.record) <;> first | with_reducible rfl | skip)) | split | (dsimp only)

theorem execTreeCacheRebuild_keeps (r : CacheRebuild) (s : State) : ∃ nxt, execTreeCacheRebuild r s = .next nxt ∧ Keeps s nxt := by
  have H := Keeps.refl s
  unfold execTreeCacheRebuild
  refine ⟨_, rfl, ?_⟩
  repeat' first
    | (with_reducible assumption) | (intro) | (with_reducible apply State.pumpAll_keeps)
    | (with_reducible apply State.tripGen_keeps) | (with_reducible apply State.endGen_keeps) | (with_reducible apply Keeps.ite2)
    | (with_reducible apply Keeps.ite)
    | (fail_if_no_progress ((with_reducible apply Keeps.record) <;> first | with_reducible rfl | skip)) | split | (dsimp only)

theorem execSignCacheWaitExpiry_keeps (job : Nat) (s : State) : ∃ nxt, execSignCacheWaitExpiry job s = .next nxt ∧ Keeps s nxt := by
  have H := Keeps.refl s
  unfold execSignCacheWaitExpiry
  refine ⟨_, rfl, ?_⟩
  repeat' first
    | (with_reducible assumption) | (intro) | (with_reducible apply State.pumpAll_keeps)
    | (with_reducible apply State.failExec_keeps) | (with_reducible apply Keeps.ite2) | (with_reducible apply Keeps.ite)
    | (fail_if_no_progress ((with_reducible apply Keeps.record) <;> first | with_reducible rfl | skip)) | split | (dsimp only)

theorem execLedgerQslotWrite_keeps (f : Fn) (v : Word32) (s : State) : ∃ nxt, execLedgerQslotWrite f v s = .next nxt ∧ Keeps s nxt := by
  have H := Keeps.refl s
  unfold execLedgerQslotWrite
  refine ⟨_, rfl, ?_⟩
  repeat' first
    | (with_reducible assumption) | (intro) | (with_reducible apply State.mgmtWrite_keeps)
    | (with_reducible apply State.latchQuery_keeps) | (with_reducible apply Keeps.ite2) | (with_reducible apply Keeps.ite)
    | (fail_if_no_progress ((with_reducible apply Keeps.record) <;> first | with_reducible rfl | skip)) | split | (dsimp only)

theorem execLedgerLowSlotRead_keeps (f : Fn) (s : State) : ∃ nxt, execLedgerLowSlotRead f s = .next nxt ∧ Keeps s nxt := by
  have H := Keeps.refl s
  unfold execLedgerLowSlotRead
  refine ⟨_, rfl, ?_⟩
  repeat' first
    | (with_reducible assumption) | (intro) | (with_reducible apply State.clearRead_keeps)
    | (with_reducible apply State.clearLowSlot_keeps) | (with_reducible apply Keeps.ite2) | (with_reducible apply Keeps.ite)
    | (fail_if_no_progress ((with_reducible apply Keeps.record) <;> first | with_reducible rfl | skip)) | split | (dsimp only)

theorem execLedgerRebuild_keeps (s : State) : ∃ nxt, execLedgerRebuild s = .next nxt ∧ Keeps s nxt := by
  have H := Keeps.refl s
  unfold execLedgerRebuild
  refine ⟨_, rfl, ?_⟩
  repeat' first
    | (with_reducible assumption) | (intro) | (with_reducible apply DocOk.docW) | (with_reducible apply DocOk.docE)
    | (with_reducible apply Keeps.ite2) | (with_reducible apply Keeps.ite)
    | (fail_if_no_progress ((with_reducible apply Keeps.record) <;> first | with_reducible rfl | skip)) | split | (dsimp only)

theorem execTamperSensorTrip_keeps (trip : Trip) (s : State) : ∃ nxt, execTamperSensorTrip trip s = .next nxt ∧ Keeps s nxt := by
  have H := Keeps.refl s
  unfold execTamperSensorTrip
  refine ⟨_, rfl, ?_⟩
  repeat' first
    | (with_reducible assumption) | (intro) | (with_reducible apply State.sensorTrip_keeps) | (with_reducible apply Keeps.ite2)
    | (with_reducible apply Keeps.ite)
    | (fail_if_no_progress ((with_reducible apply Keeps.record) <;> first | with_reducible rfl | skip)) | split | (dsimp only)

theorem execFreezeWireAssert_keeps (die : Die) (s : State) : ∃ nxt, execFreezeWireAssert die s = .next nxt ∧ Keeps s nxt := by
  have H := Keeps.refl s
  unfold execFreezeWireAssert
  refine ⟨_, rfl, ?_⟩
  repeat' first
    | (with_reducible assumption) | (intro) | (with_reducible apply State.freeze_keeps) | (with_reducible apply Keeps.ite2)
    | (with_reducible apply Keeps.ite)
    | (fail_if_no_progress ((with_reducible apply Keeps.record) <;> first | with_reducible rfl | skip)) | split | (dsimp only)

theorem execMramEraseComplete_keeps (s : State) : ∃ nxt, execMramEraseComplete s = .next nxt ∧ Keeps s nxt := by
  have H := Keeps.refl s
  unfold execMramEraseComplete
  refine ⟨_, rfl, ?_⟩
  repeat' first
    | (with_reducible assumption) | (intro) | (with_reducible apply State.eraseMram_keeps) | (with_reducible apply Keeps.ite2)
    | (with_reducible apply Keeps.ite)
    | (fail_if_no_progress ((with_reducible apply Keeps.record) <;> first | with_reducible rfl | skip)) | split | (dsimp only)

theorem execOrderApply_keeps (s : State) : ∃ nxt, execOrderApply s = .next nxt ∧ Keeps s nxt := by
  have H := Keeps.refl s
  unfold execOrderApply
  refine ⟨_, rfl, ?_⟩
  repeat' first
    | (with_reducible assumption) | (intro) | (with_reducible apply State.tamperRecordOf_keeps)
    | (with_reducible apply State.eraseKeys_keeps) | (with_reducible apply Keeps.forAll) | (with_reducible apply Keeps.log)
    | (with_reducible apply DocOk.docW) | (with_reducible apply DocOk.docE) | (with_reducible apply Keeps.ite2)
    | (with_reducible apply Keeps.ite)
    | (fail_if_no_progress ((with_reducible apply Keeps.record) <;> first | with_reducible rfl | skip)) | split | (dsimp only)

theorem execBatteryDomainAlarm_keeps (trip : Trip) (s : State) : ∃ nxt, execBatteryDomainAlarm trip s = .next nxt ∧ Keeps s nxt := by
  have H := Keeps.refl s
  unfold execBatteryDomainAlarm
  refine ⟨_, rfl, ?_⟩
  repeat' first
    | (with_reducible assumption) | (intro) | (with_reducible apply State.sensorTrip_keeps) | (with_reducible apply Keeps.ite2)
    | (with_reducible apply Keeps.ite)
    | (fail_if_no_progress ((with_reducible apply Keeps.record) <;> first | with_reducible rfl | skip)) | split | (dsimp only)

theorem execVbatMeasurement_keeps (millivolt : Nat) (s : State) : ∃ nxt, execVbatMeasurement millivolt s = .next nxt ∧ Keeps s nxt := by
  have H := Keeps.refl s
  unfold execVbatMeasurement
  refine ⟨_, rfl, ?_⟩
  repeat' first
    | (with_reducible assumption) | (intro) | (with_reducible apply State.loseBattery_keeps) | (with_reducible apply DocOk.docW)
    | (with_reducible apply DocOk.docE) | (with_reducible apply Keeps.ite2) | (with_reducible apply Keeps.ite)
    | (fail_if_no_progress ((with_reducible apply Keeps.record) <;> first | with_reducible rfl | skip)) | split | (dsimp only)

theorem execTamperClear_keeps (m : Sender) (params : List Byte) (s : State) : ∃ nxt, execTamperClear m params s = .next nxt ∧ Keeps s nxt := by
  have H := Keeps.refl s
  unfold execTamperClear
  refine ⟨_, rfl, ?_⟩
  repeat' first
    | (with_reducible assumption) | (intro) | (with_reducible apply State.message_keeps)
    | (with_reducible apply State.conditionsEnd_keeps) | (with_reducible apply deny_keeps)
    | (with_reducible apply State.ownedQuorum_keeps) | (with_reducible apply State.clearTamper_keeps)
    | (with_reducible apply Keeps.ite2) | (with_reducible apply Keeps.ite)
    | (fail_if_no_progress ((with_reducible apply Keeps.record) <;> first | with_reducible rfl | skip)) | split
    | (rename_i h; have hs := congrArg Prod.snd h; dsimp only at hs; subst hs) | (dsimp only)

theorem execOrderInstall_keeps (m : Sender) (params : List Byte) (s : State) : ∃ nxt, execOrderInstall m params s = .next nxt ∧ Keeps s nxt := by
  have H := Keeps.refl s
  unfold execOrderInstall
  refine ⟨_, rfl, ?_⟩
  repeat' first
    | (with_reducible assumption) | (intro) | (with_reducible apply State.message_keeps) | (with_reducible apply deny_keeps)
    | (with_reducible apply State.withQuorum_keeps) | (with_reducible apply State.installOrder_keeps)
    | (with_reducible apply Keeps.ite2) | (with_reducible apply Keeps.ite)
    | (fail_if_no_progress ((with_reducible apply Keeps.record) <;> first | with_reducible rfl | skip)) | split
    | (rename_i h; have hs := congrArg Prod.snd h; dsimp only at hs; subst hs) | (dsimp only)

theorem execOrderRead_keeps (m : Sender) (params : List Byte) (s : State) : ∃ nxt, execOrderRead m params s = .next nxt ∧ Keeps s nxt := by
  have H := Keeps.refl s
  unfold execOrderRead
  refine ⟨_, rfl, ?_⟩
  repeat' first
    | (with_reducible assumption) | (intro) | (with_reducible apply State.message_keeps) | (with_reducible apply deny_keeps)
    | (with_reducible apply Keeps.ite2) | (with_reducible apply Keeps.ite)
    | (fail_if_no_progress ((with_reducible apply Keeps.record) <;> first | with_reducible rfl | skip)) | split
    | (rename_i h; have hs := congrArg Prod.snd h; dsimp only at hs; subst hs) | (dsimp only)

theorem execErase_keeps (m : Sender) (params : List Byte) (s : State) : ∃ nxt, execErase m params s = .next nxt ∧ Keeps s nxt := by
  have H := Keeps.refl s
  unfold execErase
  refine ⟨_, rfl, ?_⟩
  repeat' first
    | (with_reducible assumption) | (intro) | (with_reducible apply State.message_keeps)
    | (with_reducible apply State.eraseKeys_keeps) | (with_reducible apply State.freeze_keeps)
    | (with_reducible apply State.ownedQuorum_keeps) | (with_reducible apply Keeps.ite2) | (with_reducible apply Keeps.ite)
    | (fail_if_no_progress ((with_reducible apply Keeps.record) <;> first | with_reducible rfl | skip)) | split
    | (rename_i h; have hs := congrArg Prod.snd h; dsimp only at hs; subst hs) | (dsimp only)

theorem execStandingOrderEffective_keeps (kind : Nat) (s : State) : ∃ nxt, execStandingOrderEffective kind s = .next nxt ∧ Keeps s nxt := by
  have H := Keeps.refl s
  unfold execStandingOrderEffective
  refine ⟨_, rfl, ?_⟩
  repeat' first
    | (with_reducible assumption)
    | (fail_if_no_progress ((with_reducible apply Keeps.record) <;> first | with_reducible rfl | rfl | skip)) | (intro)
    | (with_reducible apply DocOk.docW) | (with_reducible apply DocOk.docE) | (with_reducible apply Keeps.ite2)
    | (with_reducible apply Keeps.ite)
    | (fail_if_no_progress ((with_reducible apply Keeps.record) <;> first | with_reducible rfl | skip)) | split | (dsimp only)

theorem execInsNop_keeps (job : Nat) (s : State) : ∃ nxt, execInsNop job s = .next nxt ∧ Keeps s nxt := by
  have H := Keeps.refl s
  unfold execInsNop
  refine ⟨_, rfl, ?_⟩
  repeat' first
    | (with_reducible assumption) | (intro) | (with_reducible apply State.runIns_keeps)
    | (with_reducible apply State.advance_keeps) | (with_reducible apply Keeps.ite2) | (with_reducible apply Keeps.ite)
    | (fail_if_no_progress ((with_reducible apply Keeps.record) <;> first | with_reducible rfl | skip)) | split | (dsimp only)

theorem execInsEnd_keeps (job : Nat) (s : State) : ∃ nxt, execInsEnd job s = .next nxt ∧ Keeps s nxt := by
  have H := Keeps.refl s
  unfold execInsEnd
  refine ⟨_, rfl, ?_⟩
  repeat' first
    | (with_reducible assumption) | (intro) | (with_reducible apply State.runIns_keeps) | (with_reducible apply State.endIns_keeps)
    | (with_reducible apply Keeps.ite2) | (with_reducible apply Keeps.ite)
    | (fail_if_no_progress ((with_reducible apply Keeps.record) <;> first | with_reducible rfl | skip)) | split | (dsimp only)

theorem execInsBr_keeps (job : Nat) (s : State) : ∃ nxt, execInsBr job s = .next nxt ∧ Keeps s nxt := by
  have H := Keeps.refl s
  unfold execInsBr
  refine ⟨_, rfl, ?_⟩
  repeat' first
    | (with_reducible assumption) | (intro) | (with_reducible apply State.runIns_keeps)
    | (with_reducible apply State.atBoundary_keeps) | (with_reducible apply Keeps.ite2) | (with_reducible apply Keeps.ite)
    | (fail_if_no_progress ((with_reducible apply Keeps.record) <;> first | with_reducible rfl | skip)) | split | (dsimp only)

theorem execInsMovi_keeps (job : Nat) (s : State) : ∃ nxt, execInsMovi job s = .next nxt ∧ Keeps s nxt := by
  have H := Keeps.refl s
  unfold execInsMovi
  refine ⟨_, rfl, ?_⟩
  repeat' first
    | (with_reducible assumption) | (intro) | (with_reducible apply State.runIns_keeps) | (with_reducible apply State.setV_keeps)
    | (with_reducible apply Keeps.ite2) | (with_reducible apply Keeps.ite)
    | (fail_if_no_progress ((with_reducible apply Keeps.record) <;> first | with_reducible rfl | skip)) | split | (dsimp only)

theorem execInsMovhi_keeps (job : Nat) (s : State) : ∃ nxt, execInsMovhi job s = .next nxt ∧ Keeps s nxt := by
  have H := Keeps.refl s
  unfold execInsMovhi
  refine ⟨_, rfl, ?_⟩
  repeat' first
    | (with_reducible assumption) | (intro) | (with_reducible apply State.runIns_keeps) | (with_reducible apply State.setV_keeps)
    | (with_reducible apply Keeps.ite2) | (with_reducible apply Keeps.ite)
    | (fail_if_no_progress ((with_reducible apply Keeps.record) <;> first | with_reducible rfl | skip)) | split | (dsimp only)

theorem execInsMov_keeps (job : Nat) (s : State) : ∃ nxt, execInsMov job s = .next nxt ∧ Keeps s nxt := by
  have H := Keeps.refl s
  unfold execInsMov
  refine ⟨_, rfl, ?_⟩
  repeat' first
    | (with_reducible assumption) | (intro) | (with_reducible apply State.runIns_keeps) | (with_reducible apply State.setV_keeps)
    | (with_reducible apply Keeps.ite2) | (with_reducible apply Keeps.ite)
    | (fail_if_no_progress ((with_reducible apply Keeps.record) <;> first | with_reducible rfl | skip)) | split | (dsimp only)

theorem execInsAdd_keeps (job : Nat) (s : State) : ∃ nxt, execInsAdd job s = .next nxt ∧ Keeps s nxt := by
  have H := Keeps.refl s
  unfold execInsAdd
  refine ⟨_, rfl, ?_⟩
  repeat' first
    | (with_reducible assumption) | (intro) | (with_reducible apply State.aluIns_keeps) | (with_reducible apply Keeps.ite2)
    | (with_reducible apply Keeps.ite)
    | (fail_if_no_progress ((with_reducible apply Keeps.record) <;> first | with_reducible rfl | skip)) | split | (dsimp only)

theorem execInsAddi_keeps (job : Nat) (s : State) : ∃ nxt, execInsAddi job s = .next nxt ∧ Keeps s nxt := by
  have H := Keeps.refl s
  unfold execInsAddi
  refine ⟨_, rfl, ?_⟩
  repeat' first
    | (with_reducible assumption) | (intro) | (with_reducible apply State.runIns_keeps) | (with_reducible apply State.setV_keeps)
    | (with_reducible apply Keeps.ite2) | (with_reducible apply Keeps.ite)
    | (fail_if_no_progress ((with_reducible apply Keeps.record) <;> first | with_reducible rfl | skip)) | split | (dsimp only)

theorem execInsSub_keeps (job : Nat) (s : State) : ∃ nxt, execInsSub job s = .next nxt ∧ Keeps s nxt := by
  have H := Keeps.refl s
  unfold execInsSub
  refine ⟨_, rfl, ?_⟩
  repeat' first
    | (with_reducible assumption) | (intro) | (with_reducible apply State.aluIns_keeps) | (with_reducible apply Keeps.ite2)
    | (with_reducible apply Keeps.ite)
    | (fail_if_no_progress ((with_reducible apply Keeps.record) <;> first | with_reducible rfl | skip)) | split | (dsimp only)

theorem execInsAnd_keeps (job : Nat) (s : State) : ∃ nxt, execInsAnd job s = .next nxt ∧ Keeps s nxt := by
  have H := Keeps.refl s
  unfold execInsAnd
  refine ⟨_, rfl, ?_⟩
  repeat' first
    | (with_reducible assumption) | (intro) | (with_reducible apply State.aluIns_keeps) | (with_reducible apply Keeps.ite2)
    | (with_reducible apply Keeps.ite)
    | (fail_if_no_progress ((with_reducible apply Keeps.record) <;> first | with_reducible rfl | skip)) | split | (dsimp only)

theorem execInsOr_keeps (job : Nat) (s : State) : ∃ nxt, execInsOr job s = .next nxt ∧ Keeps s nxt := by
  have H := Keeps.refl s
  unfold execInsOr
  refine ⟨_, rfl, ?_⟩
  repeat' first
    | (with_reducible assumption) | (intro) | (with_reducible apply State.aluIns_keeps) | (with_reducible apply Keeps.ite2)
    | (with_reducible apply Keeps.ite)
    | (fail_if_no_progress ((with_reducible apply Keeps.record) <;> first | with_reducible rfl | skip)) | split | (dsimp only)

theorem execInsXor_keeps (job : Nat) (s : State) : ∃ nxt, execInsXor job s = .next nxt ∧ Keeps s nxt := by
  have H := Keeps.refl s
  unfold execInsXor
  refine ⟨_, rfl, ?_⟩
  repeat' first
    | (with_reducible assumption) | (intro) | (with_reducible apply State.aluIns_keeps) | (with_reducible apply Keeps.ite2)
    | (with_reducible apply Keeps.ite)
    | (fail_if_no_progress ((with_reducible apply Keeps.record) <;> first | with_reducible rfl | skip)) | split | (dsimp only)

theorem execInsShl_keeps (job : Nat) (s : State) : ∃ nxt, execInsShl job s = .next nxt ∧ Keeps s nxt := by
  have H := Keeps.refl s
  unfold execInsShl
  refine ⟨_, rfl, ?_⟩
  repeat' first
    | (with_reducible assumption) | (intro) | (with_reducible apply State.runIns_keeps) | (with_reducible apply State.setV_keeps)
    | (with_reducible apply Keeps.ite2) | (with_reducible apply Keeps.ite)
    | (fail_if_no_progress ((with_reducible apply Keeps.record) <;> first | with_reducible rfl | skip)) | split | (dsimp only)

theorem execInsShr_keeps (job : Nat) (s : State) : ∃ nxt, execInsShr job s = .next nxt ∧ Keeps s nxt := by
  have H := Keeps.refl s
  unfold execInsShr
  refine ⟨_, rfl, ?_⟩
  repeat' first
    | (with_reducible assumption) | (intro) | (with_reducible apply State.runIns_keeps) | (with_reducible apply State.setV_keeps)
    | (with_reducible apply Keeps.ite2) | (with_reducible apply Keeps.ite)
    | (fail_if_no_progress ((with_reducible apply Keeps.record) <;> first | with_reducible rfl | skip)) | split | (dsimp only)

theorem execInsCmp_keeps (job : Nat) (s : State) : ∃ nxt, execInsCmp job s = .next nxt ∧ Keeps s nxt := by
  have H := Keeps.refl s
  unfold execInsCmp
  refine ⟨_, rfl, ?_⟩
  repeat' first
    | (with_reducible assumption) | (intro) | (with_reducible apply State.runIns_keeps)
    | (with_reducible apply State.advance_keeps) | (with_reducible apply Keeps.ite2) | (with_reducible apply Keeps.ite)
    | (fail_if_no_progress ((with_reducible apply Keeps.record) <;> first | with_reducible rfl | skip)) | split | (dsimp only)

theorem execInsCmpi_keeps (job : Nat) (s : State) : ∃ nxt, execInsCmpi job s = .next nxt ∧ Keeps s nxt := by
  have H := Keeps.refl s
  unfold execInsCmpi
  refine ⟨_, rfl, ?_⟩
  repeat' first
    | (with_reducible assumption) | (intro) | (with_reducible apply State.runIns_keeps)
    | (with_reducible apply State.advance_keeps) | (with_reducible apply Keeps.ite2) | (with_reducible apply Keeps.ite)
    | (fail_if_no_progress ((with_reducible apply Keeps.record) <;> first | with_reducible rfl | skip)) | split | (dsimp only)

theorem execInsLdp_keeps (job : Nat) (s : State) : ∃ nxt, execInsLdp job s = .next nxt ∧ Keeps s nxt := by
  have H := Keeps.refl s
  unfold execInsLdp
  refine ⟨_, rfl, ?_⟩
  repeat' first
    | (with_reducible assumption) | (intro) | (with_reducible apply State.runIns_keeps) | (with_reducible apply State.ldpIns_keeps)
    | (with_reducible apply Keeps.ite2) | (with_reducible apply Keeps.ite)
    | (fail_if_no_progress ((with_reducible apply Keeps.record) <;> first | with_reducible rfl | skip)) | split | (dsimp only)

theorem execInsLdb_keeps (job : Nat) (s : State) : ∃ nxt, execInsLdb job s = .next nxt ∧ Keeps s nxt := by
  have H := Keeps.refl s
  unfold execInsLdb
  refine ⟨_, rfl, ?_⟩
  repeat' first
    | (with_reducible assumption) | (intro) | (with_reducible apply State.runIns_keeps) | (with_reducible apply State.ldbIns_keeps)
    | (with_reducible apply Keeps.ite2) | (with_reducible apply Keeps.ite)
    | (fail_if_no_progress ((with_reducible apply Keeps.record) <;> first | with_reducible rfl | skip)) | split | (dsimp only)

theorem execInsLoan_keeps (job : Nat) (s : State) : ∃ nxt, execInsLoan job s = .next nxt ∧ Keeps s nxt := by
  have H := Keeps.refl s
  unfold execInsLoan
  refine ⟨_, rfl, ?_⟩
  repeat' first
    | (with_reducible assumption) | (intro) | (with_reducible apply State.runIns_keeps)
    | (with_reducible apply State.askLoan_keeps) | (with_reducible apply Keeps.ite2) | (with_reducible apply Keeps.ite)
    | (fail_if_no_progress ((with_reducible apply Keeps.record) <;> first | with_reducible rfl | skip)) | split | (dsimp only)

theorem execInsLoanp_keeps (job : Nat) (s : State) : ∃ nxt, execInsLoanp job s = .next nxt ∧ Keeps s nxt := by
  have H := Keeps.refl s
  unfold execInsLoanp
  refine ⟨_, rfl, ?_⟩
  repeat' first
    | (with_reducible assumption) | (intro) | (with_reducible apply State.runIns_keeps) | (with_reducible apply State.endJob_keeps)
    | (with_reducible apply State.askLoan_keeps) | (with_reducible apply Keeps.ite2) | (with_reducible apply Keeps.ite)
    | (fail_if_no_progress ((with_reducible apply Keeps.record) <;> first | with_reducible rfl | skip)) | split | (dsimp only)

theorem execLoanGrant_keeps (job : Nat) (s : State) : ∃ nxt, execLoanGrant job s = .next nxt ∧ Keeps s nxt := by
  have H := Keeps.refl s
  unfold execLoanGrant
  refine ⟨_, rfl, ?_⟩
  repeat' first
    | (with_reducible assumption) | (intro) | (with_reducible apply State.endJob_keeps)
    | (with_reducible apply State.loanReply_keeps) | (with_reducible apply Keeps.ite2) | (with_reducible apply Keeps.ite)
    | (fail_if_no_progress ((with_reducible apply Keeps.record) <;> first | with_reducible rfl | skip)) | split | (dsimp only)

theorem execInsReturn_keeps (job : Nat) (s : State) : ∃ nxt, execInsReturn job s = .next nxt ∧ Keeps s nxt := by
  have H := Keeps.refl s
  unfold execInsReturn
  refine ⟨_, rfl, ?_⟩
  repeat' first
    | (with_reducible assumption) | (intro) | (with_reducible apply State.runIns_keeps)
    | (with_reducible apply State.returnIns_keeps) | (with_reducible apply Keeps.ite2) | (with_reducible apply Keeps.ite)
    | (fail_if_no_progress ((with_reducible apply Keeps.record) <;> first | with_reducible rfl | skip)) | split | (dsimp only)

theorem execInsBuf_keeps (job : Nat) (s : State) : ∃ nxt, execInsBuf job s = .next nxt ∧ Keeps s nxt := by
  have H := Keeps.refl s
  unfold execInsBuf
  refine ⟨_, rfl, ?_⟩
  repeat' first
    | (with_reducible assumption) | (intro) | (with_reducible apply State.runIns_keeps) | (with_reducible apply State.bufIns_keeps)
    | (with_reducible apply Keeps.ite2) | (with_reducible apply Keeps.ite)
    | (fail_if_no_progress ((with_reducible apply Keeps.record) <;> first | with_reducible rfl | skip)) | split | (dsimp only)

theorem execInsBslice_keeps (job : Nat) (s : State) : ∃ nxt, execInsBslice job s = .next nxt ∧ Keeps s nxt := by
  have H := Keeps.refl s
  unfold execInsBslice
  refine ⟨_, rfl, ?_⟩
  repeat' first
    | (with_reducible assumption) | (intro) | (with_reducible apply State.runIns_keeps)
    | (with_reducible apply State.bsliceIns_keeps) | (with_reducible apply Keeps.ite2) | (with_reducible apply Keeps.ite)
    | (fail_if_no_progress ((with_reducible apply Keeps.record) <;> first | with_reducible rfl | skip)) | split | (dsimp only)

theorem execInsBlen_keeps (job : Nat) (s : State) : ∃ nxt, execInsBlen job s = .next nxt ∧ Keeps s nxt := by
  have H := Keeps.refl s
  unfold execInsBlen
  refine ⟨_, rfl, ?_⟩
  repeat' first
    | (with_reducible assumption) | (intro) | (with_reducible apply State.runIns_keeps)
    | (with_reducible apply State.badProgram_keeps) | (with_reducible apply State.setV_keeps) | (with_reducible apply Keeps.ite2)
    | (with_reducible apply Keeps.ite)
    | (fail_if_no_progress ((with_reducible apply Keeps.record) <;> first | with_reducible rfl | skip)) | split | (dsimp only)

theorem execInsBind_keeps (job : Nat) (s : State) : ∃ nxt, execInsBind job s = .next nxt ∧ Keeps s nxt := by
  have H := Keeps.refl s
  unfold execInsBind
  refine ⟨_, rfl, ?_⟩
  repeat' first
    | (with_reducible assumption) | (intro) | (with_reducible apply State.runIns_keeps)
    | (with_reducible apply State.badProgram_keeps) | (with_reducible apply State.advance_keeps)
    | (with_reducible apply Keeps.ite2) | (with_reducible apply Keeps.ite)
    | (fail_if_no_progress ((with_reducible apply Keeps.record) <;> first | with_reducible rfl | skip)) | split | (dsimp only)

theorem execInsEndb_keeps (job : Nat) (how : GroupRelease) (s : State) : ∃ nxt, execInsEndb job how s = .next nxt ∧ Keeps s nxt := by
  have H := Keeps.refl s
  unfold execInsEndb
  refine ⟨_, rfl, ?_⟩
  repeat' first
    | (with_reducible assumption) | (intro) | (with_reducible apply State.releaseEnd_keeps)
    | (with_reducible apply State.runIns_keeps) | (with_reducible apply State.endbIns_keeps) | (with_reducible apply Keeps.ite2)
    | (with_reducible apply Keeps.ite)
    | (fail_if_no_progress ((with_reducible apply Keeps.record) <;> first | with_reducible rfl | skip)) | split | (dsimp only)

theorem execInstructionBudgetExhausted_keeps (job : Nat) (s : State) : ∃ nxt, execInstructionBudgetExhausted job s = .next nxt ∧ Keeps s nxt := by
  have H := Keeps.refl s
  unfold execInstructionBudgetExhausted
  refine ⟨_, rfl, ?_⟩
  repeat' first
    | (with_reducible assumption) | (intro) | (with_reducible apply State.badProgram_keeps) | (with_reducible apply Keeps.ite2)
    | (with_reducible apply Keeps.ite)
    | (fail_if_no_progress ((with_reducible apply Keeps.record) <;> first | with_reducible rfl | skip)) | split | (dsimp only)

theorem execEngineOperationComplete_keeps (job : Nat) (ev : EngineEvent) (s : State) : ∃ nxt, execEngineOperationComplete job ev s = .next nxt ∧ Keeps s nxt := by
  have H := Keeps.refl s
  unfold execEngineOperationComplete
  refine ⟨_, rfl, ?_⟩
  repeat' first
    | (with_reducible assumption) | (intro) | (with_reducible apply State.pumpAll_keeps)
    | (with_reducible apply State.tripExec_keeps) | (with_reducible apply State.scrubRelease_keeps)
    | (with_reducible apply State.finishExec_keeps) | (with_reducible apply State.faultFound_keeps)
    | (with_reducible apply State.failExec_keeps) | (with_reducible apply Keeps.ite2) | (with_reducible apply Keeps.ite)
    | (fail_if_no_progress ((with_reducible apply Keeps.record) <;> first | with_reducible rfl | skip)) | split | (dsimp only)

theorem execEngineWipeComplete_keeps (gallery : Nat) (kind : Nat) (s : State) : ∃ nxt, execEngineWipeComplete gallery kind s = .next nxt ∧ Keeps s nxt := by
  have H := Keeps.refl s
  unfold execEngineWipeComplete
  refine ⟨_, rfl, ?_⟩
  repeat' first
    | (with_reducible assumption) | (intro) | (with_reducible apply State.pumpAll_keeps)
    | (with_reducible apply State.loadDue_keeps) | (with_reducible apply State.setGal_keeps) | (with_reducible apply Keeps.ite2)
    | (with_reducible apply Keeps.ite)
    | (fail_if_no_progress ((with_reducible apply Keeps.record) <;> first | with_reducible rfl | skip)) | split | (dsimp only)

theorem execJobPreemption_keeps (res : Resource) (higher : Nat) (s : State) : ∃ nxt, execJobPreemption res higher s = .next nxt ∧ Keeps s nxt := by
  have H := Keeps.refl s
  unfold execJobPreemption
  refine ⟨_, rfl, ?_⟩
  repeat' first
    | (with_reducible assumption) | (intro) | (with_reducible apply State.pumpAll_keeps)
    | (with_reducible apply State.suspendWith_keeps) | (with_reducible apply Keeps.ite2) | (with_reducible apply Keeps.ite)
    | (fail_if_no_progress ((with_reducible apply Keeps.record) <;> first | with_reducible rfl | skip)) | split | (dsimp only)

theorem execSuspendedJobResume_keeps (job : Nat) (s : State) : ∃ nxt, execSuspendedJobResume job s = .next nxt ∧ Keeps s nxt := by
  have H := Keeps.refl s
  unfold execSuspendedJobResume
  refine ⟨_, rfl, ?_⟩
  repeat' first
    | (with_reducible assumption) | (intro) | (with_reducible apply State.pumpAll_keeps)
    | (with_reducible apply State.endResumed_keeps) | (with_reducible apply State.resumeGrant_keeps)
    | (with_reducible apply Keeps.forAll) | (with_reducible apply Keeps.ite2) | (with_reducible apply Keeps.ite)
    | (fail_if_no_progress ((with_reducible apply Keeps.record) <;> first | with_reducible rfl | skip)) | split | (dsimp only)

theorem execDmaReadCompletion_keeps (job : Nat) (read : Nat) (data : List Byte) (s : State) : ∃ nxt, execDmaReadCompletion job read data s = .next nxt ∧ Keeps s nxt := by
  have H := Keeps.refl s
  unfold execDmaReadCompletion
  refine ⟨_, rfl, ?_⟩
  repeat' first
    | (with_reducible assumption) | (intro) | (with_reducible apply State.pumpAll_keeps)
    | (with_reducible apply State.putJob_keeps) | (with_reducible apply Keeps.ite2) | (with_reducible apply Keeps.ite)
    | (fail_if_no_progress ((with_reducible apply Keeps.record) <;> first | with_reducible rfl | skip)) | split | (dsimp only)

theorem execQueuedResideLoad_keeps (gallery : Nat) (s : State) : ∃ nxt, execQueuedResideLoad gallery s = .next nxt ∧ Keeps s nxt := by
  have H := Keeps.refl s
  unfold execQueuedResideLoad
  refine ⟨_, rfl, ?_⟩
  repeat' first
    | (with_reducible assumption) | (intro) | (with_reducible apply State.loadDue_keeps) | (with_reducible apply Keeps.ite2)
    | (with_reducible apply Keeps.ite)
    | (fail_if_no_progress ((with_reducible apply Keeps.record) <;> first | with_reducible rfl | skip)) | split | (dsimp only)

theorem execResidentKeyReload_keeps (gallery : Nat) (s : State) : ∃ nxt, execResidentKeyReload gallery s = .next nxt ∧ Keeps s nxt := by
  have H := Keeps.refl s
  unfold execResidentKeyReload
  refine ⟨_, rfl, ?_⟩
  repeat' first
    | (with_reducible assumption) | (intro) | (with_reducible apply State.setGal_keeps) | (with_reducible apply Keeps.ite2)
    | (with_reducible apply Keeps.ite)
    | (fail_if_no_progress ((with_reducible apply Keeps.record) <;> first | with_reducible rfl | skip)) | split | (dsimp only)

theorem execTileRead_keeps (t : TileId) (fetch : TileFetch) (job : Option Nat) (s : State) : ∃ nxt, execTileRead t fetch job s = .next nxt ∧ Keeps s nxt := by
  have H := Keeps.refl s
  unfold execTileRead
  refine ⟨_, rfl, ?_⟩
  repeat' first
    | (with_reducible assumption) | (intro) | (with_reducible apply State.endNeed_keeps)
    | (with_reducible apply State.recordFetch_keeps) | (with_reducible apply State.cachePath_keeps)
    | (with_reducible apply State.dropCache_keeps) | (with_reducible apply Keeps.ite2) | (with_reducible apply Keeps.ite)
    | (fail_if_no_progress ((with_reducible apply Keeps.record) <;> first | with_reducible rfl | skip)) | split | (dsimp only)

theorem execPeerFallbackRead_keeps (t : TileId) (fetch : TileFetch) (job : Option Nat) (s : State) : ∃ nxt, execPeerFallbackRead t fetch job s = .next nxt ∧ Keeps s nxt := by
  have H := Keeps.refl s
  unfold execPeerFallbackRead
  refine ⟨_, rfl, ?_⟩
  repeat' first
    | (with_reducible assumption) | (intro) | (with_reducible apply State.endNeed_keeps)
    | (with_reducible apply State.recordFetch_keeps) | (with_reducible apply State.markRepaired_keeps)
    | (with_reducible apply State.putTile_keeps) | (with_reducible apply State.cachePath_keeps)
    | (with_reducible apply State.logHandles_keeps) | (with_reducible apply Keeps.ite2) | (with_reducible apply Keeps.ite)
    | (fail_if_no_progress ((with_reducible apply Keeps.record) <;> first | with_reducible rfl | skip)) | split | (dsimp only)

theorem execPatrolScrub_keeps (p : PatrolSpot) (fetch : DramRead) (s : State) : ∃ nxt, execPatrolScrub p fetch s = .next nxt ∧ Keeps s nxt := by
  have H := Keeps.refl s
  unfold execPatrolScrub
  refine ⟨_, rfl, ?_⟩
  repeat' first
    | (with_reducible assumption) | (intro) | (with_reducible apply State.endPass_keeps)
    | (with_reducible apply State.patrolRead_keeps) | (with_reducible apply Keeps.ite2) | (with_reducible apply Keeps.ite)
    | (fail_if_no_progress ((with_reducible apply Keeps.record) <;> first | with_reducible rfl | skip)) | split | (dsimp only)

theorem execTileWrite_keeps (t : TileId) (data : List Byte) (store : TileStore) (s : State) : ∃ nxt, execTileWrite t data store s = .next nxt ∧ Keeps s nxt := by
  have H := Keeps.refl s
  unfold execTileWrite
  refine ⟨_, rfl, ?_⟩
  repeat' first
    | (with_reducible assumption) | (intro) | (with_reducible apply State.endNeed_keeps)
    | (with_reducible apply State.crcFailed_keeps) | (with_reducible apply State.putTile_keeps)
    | (with_reducible apply State.setStoreWing_keeps) | (with_reducible apply Keeps.ite2) | (with_reducible apply Keeps.ite)
    | (fail_if_no_progress ((with_reducible apply Keeps.record) <;> first | with_reducible rfl | skip)) | split | (dsimp only)

theorem execNodeWriteback_keeps (w : Wing) (level : Nat) (node : Nat) (s : State) : ∃ nxt, execNodeWriteback w level node s = .next nxt ∧ Keeps s nxt := by
  have H := Keeps.refl s
  unfold execNodeWriteback
  refine ⟨_, rfl, ?_⟩
  repeat' first
    | (with_reducible assumption) | (intro) | (with_reducible apply State.setStoreWing_keeps)
    | (with_reducible apply State.writeBack_keeps) | (with_reducible apply Keeps.ite2) | (with_reducible apply Keeps.ite)
    | (fail_if_no_progress ((with_reducible apply Keeps.record) <;> first | with_reducible rfl | skip)) | split | (dsimp only)

theorem execRootUpdate_keeps (w : Wing) (node : Nat) (s : State) : ∃ nxt, execRootUpdate w node s = .next nxt ∧ Keeps s nxt := by
  have H := Keeps.refl s
  unfold execRootUpdate
  refine ⟨_, rfl, ?_⟩
  repeat' first
    | (with_reducible assumption) | (intro) | (with_reducible apply State.writeBack_keeps) | (with_reducible apply Keeps.ite2)
    | (with_reducible apply Keeps.ite)
    | (fail_if_no_progress ((with_reducible apply Keeps.record) <;> first | with_reducible rfl | skip)) | split | (dsimp only)

theorem execTileRehome_keeps (t : TileId) (s : State) : ∃ nxt, execTileRehome t s = .next nxt ∧ Keeps s nxt := by
  have H := Keeps.refl s
  unfold execTileRehome
  refine ⟨_, rfl, ?_⟩
  repeat' first
    | (with_reducible assumption) | (intro) | (with_reducible apply State.requestRetire_keeps)
    | (with_reducible apply State.setStoreWing_keeps) | (with_reducible apply State.setTile_keeps)
    | (with_reducible apply State.writeTile_keeps) | (with_reducible apply State.markRepaired_keeps)
    | (with_reducible apply Keeps.log) | (with_reducible apply Keeps.ite2) | (with_reducible apply Keeps.ite)
    | (fail_if_no_progress ((with_reducible apply Keeps.record) <;> first | with_reducible rfl | skip)) | split | (dsimp only)

theorem execChannelRetirementRequest_keeps (c : Nat) (s : State) : ∃ nxt, execChannelRetirementRequest c s = .next nxt ∧ Keeps s nxt := by
  have H := Keeps.refl s
  unfold execChannelRetirementRequest
  refine ⟨_, rfl, ?_⟩
  repeat' first
    | (with_reducible assumption) | (intro) | (with_reducible apply State.requestRetire_keeps) | (with_reducible apply Keeps.ite2)
    | (with_reducible apply Keeps.ite)
    | (fail_if_no_progress ((with_reducible apply Keeps.record) <;> first | with_reducible rfl | skip)) | split | (dsimp only)

theorem execStoreRetire_keeps (f : Fn) (v : Word32) (s : State) : ∃ nxt, execStoreRetire f v s = .next nxt ∧ Keeps s nxt := by
  have H := Keeps.refl s
  unfold execStoreRetire
  refine ⟨_, rfl, ?_⟩
  repeat' first
    | (with_reducible assumption) | (intro) | (with_reducible apply State.mgmtWrite_keeps)
    | (with_reducible apply State.regError_keeps) | (with_reducible apply State.startRetire_keeps)
    | (with_reducible apply Keeps.ite2) | (with_reducible apply Keeps.ite)
    | (fail_if_no_progress ((with_reducible apply Keeps.record) <;> first | with_reducible rfl | skip)) | split | (dsimp only)

theorem execRetirementCopyComplete_keeps (c : Nat) (s : State) : ∃ nxt, execRetirementCopyComplete c s = .next nxt ∧ Keeps s nxt := by
  have H := Keeps.refl s
  unfold execRetirementCopyComplete
  refine ⟨_, rfl, ?_⟩
  repeat' first
    | (with_reducible assumption) | (intro) | (with_reducible apply State.copyOff_keeps)
    | (with_reducible apply State.setChannel_keeps) | (with_reducible apply Keeps.forAll) | (with_reducible apply Keeps.log)
    | (with_reducible apply Keeps.ite2) | (with_reducible apply Keeps.ite)
    | (fail_if_no_progress ((with_reducible apply Keeps.record) <;> first | with_reducible rfl | skip)) | split | (dsimp only)

theorem execChannelFailure_keeps (c : Nat) (s : State) : ∃ nxt, execChannelFailure c s = .next nxt ∧ Keeps s nxt := by
  have H := Keeps.refl s
  unfold execChannelFailure
  refine ⟨_, rfl, ?_⟩
  repeat' first
    | (with_reducible assumption) | (intro) | (with_reducible apply State.setChannel_keeps) | (with_reducible apply Keeps.log)
    | (with_reducible apply Keeps.ite2) | (with_reducible apply Keeps.ite)
    | (fail_if_no_progress ((with_reducible apply Keeps.record) <;> first | with_reducible rfl | skip)) | split | (dsimp only)

theorem execChannelTrainingComplete_keeps (c : Nat) (found : ChannelTraining) (s : State) : ∃ nxt, execChannelTrainingComplete c found s = .next nxt ∧ Keeps s nxt := by
  have H := Keeps.refl s
  unfold execChannelTrainingComplete
  refine ⟨_, rfl, ?_⟩
  repeat' first
    | (with_reducible assumption) | (intro) | (with_reducible apply State.trainNext_keeps)
    | (with_reducible apply State.setChannel_keeps) | (with_reducible apply State.commonRate_keeps)
    | (with_reducible apply State.dropDiffering_keeps) | (with_reducible apply State.setStoreWing_keeps)
    | (with_reducible apply Keeps.ite2) | (with_reducible apply Keeps.ite)
    | (fail_if_no_progress ((with_reducible apply Keeps.record) <;> first | with_reducible rfl | skip)) | split | (dsimp only)

theorem execZqCalibration_keeps (c : ZqPause) (s : State) : ∃ nxt, execZqCalibration c s = .next nxt ∧ Keeps s nxt := by
  have H := Keeps.refl s
  unfold execZqCalibration
  refine ⟨_, rfl, ?_⟩
  repeat' first
    | (with_reducible assumption) | (intro) | (with_reducible apply State.setChannel_keeps) | (with_reducible apply Keeps.ite2)
    | (with_reducible apply Keeps.ite)
    | (fail_if_no_progress ((with_reducible apply Keeps.record) <;> first | with_reducible rfl | skip)) | split | (dsimp only)

theorem execStoreroomInitComplete_keeps (w : Wing) (s : State) : ∃ nxt, execStoreroomInitComplete w s = .next nxt ∧ Keeps s nxt := by
  have H := Keeps.refl s
  unfold execStoreroomInitComplete
  refine ⟨_, rfl, ?_⟩
  repeat' first
    | (with_reducible assumption) | (intro) | (with_reducible apply State.setStoreWing_keeps)
    | (with_reducible apply State.tryAdmit_keeps) | (with_reducible apply State.sizeRegions_keeps)
    | (with_reducible apply Keeps.ite2) | (with_reducible apply Keeps.ite)
    | (fail_if_no_progress ((with_reducible apply Keeps.record) <;> first | with_reducible rfl | skip)) | split | (dsimp only)

theorem execMirrorRefreshComplete_keeps (w : Wing) (s : State) : ∃ nxt, execMirrorRefreshComplete w s = .next nxt ∧ Keeps s nxt := by
  have H := Keeps.refl s
  unfold execMirrorRefreshComplete
  refine ⟨_, rfl, ?_⟩
  repeat' first
    | (with_reducible assumption) | (intro) | (with_reducible apply State.copyMirrored_keeps)
    | (with_reducible apply State.setStoreWing_keeps) | (with_reducible apply State.tryAdmit_keeps)
    | (with_reducible apply DocOk.docW) | (with_reducible apply DocOk.docE) | (with_reducible apply Keeps.ite2)
    | (with_reducible apply Keeps.ite)
    | (fail_if_no_progress ((with_reducible apply Keeps.record) <;> first | with_reducible rfl | skip)) | split | (dsimp only)

theorem execStoreCeRead_keeps (f : Fn) (c : Nat) (s : State) : ∃ nxt, execStoreCeRead f c s = .next nxt ∧ Keeps s nxt := by
  have H := Keeps.refl s
  unfold execStoreCeRead
  refine ⟨_, rfl, ?_⟩
  repeat' first
    | (with_reducible assumption) | (intro) | (with_reducible apply State.clearRead_keeps)
    | (with_reducible apply State.setChannel_keeps) | (with_reducible apply Keeps.ite2) | (with_reducible apply Keeps.ite)
    | (fail_if_no_progress ((with_reducible apply Keeps.record) <;> first | with_reducible rfl | skip)) | split | (dsimp only)

theorem execStoreUeRead_keeps (f : Fn) (c : Nat) (s : State) : ∃ nxt, execStoreUeRead f c s = .next nxt ∧ Keeps s nxt := by
  have H := Keeps.refl s
  unfold execStoreUeRead
  refine ⟨_, rfl, ?_⟩
  repeat' first
    | (with_reducible assumption) | (intro) | (with_reducible apply State.clearRead_keeps)
    | (with_reducible apply State.setChannel_keeps) | (with_reducible apply Keeps.ite2) | (with_reducible apply Keeps.ite)
    | (fail_if_no_progress ((with_reducible apply Keeps.record) <;> first | with_reducible rfl | skip)) | split | (dsimp only)

theorem execStoreIntegRead_keeps (f : Fn) (s : State) : ∃ nxt, execStoreIntegRead f s = .next nxt ∧ Keeps s nxt := by
  have H := Keeps.refl s
  unfold execStoreIntegRead
  refine ⟨_, rfl, ?_⟩
  repeat' first
    | (with_reducible assumption) | (intro) | (with_reducible apply State.clearRead_keeps) | (with_reducible apply DocOk.docW)
    | (with_reducible apply DocOk.docE) | (with_reducible apply Keeps.ite2) | (with_reducible apply Keeps.ite)
    | (fail_if_no_progress ((with_reducible apply Keeps.record) <;> first | with_reducible rfl | skip)) | split | (dsimp only)

theorem execStoreLastfailRead_keeps (f : Fn) (s : State) : ∃ nxt, execStoreLastfailRead f s = .next nxt ∧ Keeps s nxt := by
  have H := Keeps.refl s
  unfold execStoreLastfailRead
  refine ⟨_, rfl, ?_⟩
  repeat' first
    | (with_reducible assumption) | (intro) | (with_reducible apply State.clearRead_keeps) | (with_reducible apply DocOk.docW)
    | (with_reducible apply DocOk.docE) | (with_reducible apply Keeps.ite2) | (with_reducible apply Keeps.ite)
    | (fail_if_no_progress ((with_reducible apply Keeps.record) <;> first | with_reducible rfl | skip)) | split | (dsimp only)

theorem execSourceSample_keeps (source : Nat) (bit : Bool) (s : State) : ∃ nxt, execSourceSample source bit s = .next nxt ∧ Keeps s nxt := by
  have H := Keeps.refl s
  unfold execSourceSample
  refine ⟨_, rfl, ?_⟩
  repeat' first
    | (with_reducible assumption) | (intro) | (with_reducible apply State.served_keeps) | (with_reducible apply State.sample_keeps)
    | (with_reducible apply Keeps.ite2) | (with_reducible apply Keeps.ite)
    | (fail_if_no_progress ((with_reducible apply Keeps.record) <;> first | with_reducible rfl | skip)) | split | (dsimp only)

theorem execBalanceAdjustment_keeps (source : Nat) (s : State) : ∃ nxt, execBalanceAdjustment source s = .next nxt ∧ Keeps s nxt := by
  have H := Keeps.refl s
  unfold execBalanceAdjustment
  refine ⟨_, rfl, ?_⟩
  repeat' first
    | (with_reducible assumption) | (intro) | (with_reducible apply State.served_keeps)
    | (with_reducible apply State.balance_keeps) | (with_reducible apply Keeps.ite2) | (with_reducible apply Keeps.ite)
    | (fail_if_no_progress ((with_reducible apply Keeps.record) <;> first | with_reducible rfl | skip)) | split | (dsimp only)

theorem execSourceStartupComplete_keeps (source : Nat) (s : State) : ∃ nxt, execSourceStartupComplete source s = .next nxt ∧ Keeps s nxt := by
  have H := Keeps.refl s
  unfold execSourceStartupComplete
  refine ⟨_, rfl, ?_⟩
  repeat' first
    | (with_reducible assumption) | (intro) | (with_reducible apply State.served_keeps)
    | (with_reducible apply State.entropyChanged_keeps) | (with_reducible apply State.setSource_keeps)
    | (with_reducible apply Keeps.ite2) | (with_reducible apply Keeps.ite)
    | (fail_if_no_progress ((with_reducible apply Keeps.record) <;> first | with_reducible rfl | skip)) | split | (dsimp only)

theorem execConditionedBlock_keeps (pool : Pool) (s : State) : ∃ nxt, execConditionedBlock pool s = .next nxt ∧ Keeps s nxt := by
  have H := Keeps.refl s
  unfold execConditionedBlock
  refine ⟨_, rfl, ?_⟩
  repeat' first
    | (with_reducible assumption) | (intro) | (with_reducible apply State.served_keeps)
    | (with_reducible apply State.formBlock_keeps) | (with_reducible apply Keeps.ite2) | (with_reducible apply Keeps.ite)
    | (fail_if_no_progress ((with_reducible apply Keeps.record) <;> first | with_reducible rfl | skip)) | split | (dsimp only)

theorem execDrbgReseedRequest_keeps (d : Drbg) (s : State) : ∃ nxt, execDrbgReseedRequest d s = .next nxt ∧ Keeps s nxt := by
  have H := Keeps.refl s
  unfold execDrbgReseedRequest
  refine ⟨_, rfl, ?_⟩
  repeat' first
    | (with_reducible assumption) | (intro) | (with_reducible apply State.served_keeps) | (with_reducible apply State.serve_keeps)
    | (with_reducible apply State.setDrbg_keeps) | (with_reducible apply Keeps.ite2) | (with_reducible apply Keeps.ite)
    | (fail_if_no_progress ((with_reducible apply Keeps.record) <;> first | with_reducible rfl | skip)) | split | (dsimp only)

theorem execDrbgIntervalExpiry_keeps (d : Drbg) (s : State) : ∃ nxt, execDrbgIntervalExpiry d s = .next nxt ∧ Keeps s nxt := by
  have H := Keeps.refl s
  unfold execDrbgIntervalExpiry
  refine ⟨_, rfl, ?_⟩
  repeat' first
    | (with_reducible assumption) | (intro) | (with_reducible apply State.setDrbg_keeps) | (with_reducible apply Keeps.ite2)
    | (with_reducible apply Keeps.ite)
    | (fail_if_no_progress ((with_reducible apply Keeps.record) <;> first | with_reducible rfl | skip)) | split | (dsimp only)

theorem execMaskingGeneratorReseed_keeps (m : MaskGen) (s : State) : ∃ nxt, execMaskingGeneratorReseed m s = .next nxt ∧ Keeps s nxt := by
  have H := Keeps.refl s
  unfold execMaskingGeneratorReseed
  refine ⟨_, rfl, ?_⟩
  repeat' first
    | (with_reducible assumption) | (intro) | (with_reducible apply State.served_keeps) | (with_reducible apply State.serve_keeps)
    | (with_reducible apply State.setMaskGen_keeps) | (with_reducible apply Keeps.ite2) | (with_reducible apply Keeps.ite)
    | (fail_if_no_progress ((with_reducible apply Keeps.record) <;> first | with_reducible rfl | skip)) | split | (dsimp only)

theorem execMaskingGeneratorStop_keeps (m : MaskGen) (s : State) : ∃ nxt, execMaskingGeneratorStop m s = .next nxt ∧ Keeps s nxt := by
  have H := Keeps.refl s
  unfold execMaskingGeneratorStop
  refine ⟨_, rfl, ?_⟩
  repeat' first
    | (with_reducible assumption) | (intro) | (with_reducible apply State.setMaskGen_keeps) | (with_reducible apply Keeps.ite2)
    | (with_reducible apply Keeps.ite)
    | (fail_if_no_progress ((with_reducible apply Keeps.record) <;> first | with_reducible rfl | skip)) | split | (dsimp only)

theorem execDrbgKnownAnswerTest_keeps (d : Drbg) (passes : Bool) (s : State) : ∃ nxt, execDrbgKnownAnswerTest d passes s = .next nxt ∧ Keeps s nxt := by
  have H := Keeps.refl s
  unfold execDrbgKnownAnswerTest
  refine ⟨_, rfl, ?_⟩
  repeat' first
    | (with_reducible assumption) | (intro) | (with_reducible apply State.served_keeps) | (with_reducible apply State.serve_keeps)
    | (with_reducible apply State.setDrbg_keeps) | (with_reducible apply State.endJob_keeps)
    | (with_reducible apply State.pumpAll_keeps) | (with_reducible apply State.fence_keeps) | (with_reducible apply Keeps.forAll)
    | (with_reducible apply Keeps.ite2) | (with_reducible apply Keeps.ite)
    | (fail_if_no_progress ((with_reducible apply Keeps.record) <;> first | with_reducible rfl | skip)) | split | (dsimp only)

theorem execEntropyWaitExpiry_keeps (job : Nat) (s : State) : ∃ nxt, execEntropyWaitExpiry job s = .next nxt ∧ Keeps s nxt := by
  have H := Keeps.refl s
  unfold execEntropyWaitExpiry
  refine ⟨_, rfl, ?_⟩
  repeat' first
    | (with_reducible assumption) | (intro) | (with_reducible apply State.entropyEnds_keeps) | (with_reducible apply Keeps.ite2)
    | (with_reducible apply Keeps.ite)
    | (fail_if_no_progress ((with_reducible apply Keeps.record) <;> first | with_reducible rfl | skip)) | split | (dsimp only)

theorem execWingEntropyReady_keeps (w : Wing) (s : State) : ∃ nxt, execWingEntropyReady w s = .next nxt ∧ Keeps s nxt := by
  have H := Keeps.refl s
  unfold execWingEntropyReady
  refine ⟨_, rfl, ?_⟩
  repeat' first
    | (with_reducible assumption) | (intro) | (with_reducible apply State.pumpAll_keeps)
    | (with_reducible apply State.tryAdmit_keeps) | (with_reducible apply State.entropyChanged_keeps)
    | (with_reducible apply State.setEntropyReady_keeps) | (with_reducible apply Keeps.ite2) | (with_reducible apply Keeps.ite)
    | (fail_if_no_progress ((with_reducible apply Keeps.record) <;> first | with_reducible rfl | skip)) | split | (dsimp only)

theorem execEntropyReadmit_keeps (f : Fn) (v : Word32) (s : State) : ∃ nxt, execEntropyReadmit f v s = .next nxt ∧ Keeps s nxt := by
  have H := Keeps.refl s
  unfold execEntropyReadmit
  refine ⟨_, rfl, ?_⟩
  repeat' first
    | (with_reducible assumption) | (intro) | (with_reducible apply State.mgmtWrite_keeps)
    | (with_reducible apply State.setSource_keeps) | (with_reducible apply Keeps.ite2) | (with_reducible apply Keeps.ite)
    | (fail_if_no_progress ((with_reducible apply Keeps.record) <;> first | with_reducible rfl | skip)) | split | (dsimp only)

theorem execEntropyLastfailRead_keeps (f : Fn) (s : State) : ∃ nxt, execEntropyLastfailRead f s = .next nxt ∧ Keeps s nxt := by
  have H := Keeps.refl s
  unfold execEntropyLastfailRead
  refine ⟨_, rfl, ?_⟩
  repeat' first
    | (with_reducible assumption) | (intro) | (with_reducible apply State.clearRead_keeps)
    | (with_reducible apply State.setLastFail_keeps) | (with_reducible apply Keeps.ite2) | (with_reducible apply Keeps.ite)
    | (fail_if_no_progress ((with_reducible apply Keeps.record) <;> first | with_reducible rfl | skip)) | split | (dsimp only)

theorem execEntropyRawdataRead_keeps (f : Fn) (s : State) : ∃ nxt, execEntropyRawdataRead f s = .next nxt ∧ Keeps s nxt := by
  have H := Keeps.refl s
  unfold execEntropyRawdataRead
  refine ⟨_, rfl, ?_⟩
  repeat' first
    | (with_reducible assumption) | (intro) | (with_reducible apply State.clearRead_keeps)
    | (with_reducible apply State.setRawFifo_keeps) | (with_reducible apply Keeps.ite2) | (with_reducible apply Keeps.ite)
    | (fail_if_no_progress ((with_reducible apply Keeps.record) <;> first | with_reducible rfl | skip)) | split | (dsimp only)

theorem execPerstAssert_keeps (w : Wing) (s : State) : ∃ nxt, execPerstAssert w s = .next nxt ∧ Keeps s nxt := by
  have H := Keeps.refl s
  unfold execPerstAssert
  refine ⟨_, rfl, ?_⟩
  repeat' first
    | (with_reducible assumption) | (intro) | (with_reducible apply State.portDown_keeps)
    | (with_reducible apply State.pumpAll_keeps) | (with_reducible apply State.setPort_keeps) | (with_reducible apply Keeps.ite2)
    | (with_reducible apply Keeps.ite)
    | (fail_if_no_progress ((with_reducible apply Keeps.record) <;> first | with_reducible rfl | skip)) | split | (dsimp only)

theorem execPerstDeassert_keeps (x : PortTraining) (s : State) : ∃ nxt, execPerstDeassert x s = .next nxt ∧ Keeps s nxt := by
  have H := Keeps.refl s
  unfold execPerstDeassert
  refine ⟨_, rfl, ?_⟩
  repeat' first
    | (with_reducible assumption) | (intro) | (with_reducible apply State.setPort_keeps) | (with_reducible apply Keeps.ite2)
    | (with_reducible apply Keeps.ite)
    | (fail_if_no_progress ((with_reducible apply Keeps.record) <;> first | with_reducible rfl | skip)) | split | (dsimp only)

theorem execConfigurationReady_keeps (w : Wing) (s : State) : ∃ nxt, execConfigurationReady w s = .next nxt ∧ Keeps s nxt := by
  have H := Keeps.refl s
  unfold execConfigurationReady
  refine ⟨_, rfl, ?_⟩
  repeat' first
    | (with_reducible assumption) | (intro) | (with_reducible apply State.setPort_keeps)
    | (with_reducible apply State.tryAdmit_keeps) | (with_reducible apply State.setReady_keeps)
    | (with_reducible apply Keeps.forAll) | (with_reducible apply DocOk.docW) | (with_reducible apply DocOk.docE)
    | (with_reducible apply Keeps.ite2) | (with_reducible apply Keeps.ite)
    | (fail_if_no_progress ((with_reducible apply Keeps.record) <;> first | with_reducible rfl | skip)) | split | (dsimp only)

theorem execFunctionLevelReset_keeps (scope : FlrScope) (s : State) : ∃ nxt, execFunctionLevelReset scope s = .next nxt ∧ Keeps s nxt := by
  have H := Keeps.refl s
  unfold execFunctionLevelReset
  refine ⟨_, rfl, ?_⟩
  repeat' first
    | (with_reducible assumption) | (intro) | (with_reducible apply State.configRequest_keeps)
    | (with_reducible apply State.pumpAll_keeps) | (with_reducible apply State.functionReset_keeps)
    | (with_reducible apply State.setPort_keeps) | (with_reducible apply State.flrFn_keeps) | (with_reducible apply Keeps.forAll)
    | (with_reducible apply Keeps.ite2) | (with_reducible apply Keeps.ite)
    | (fail_if_no_progress ((with_reducible apply Keeps.record) <;> first | with_reducible rfl | skip)) | split | (dsimp only)

theorem execBusMasterEnableClear_keeps (f : Fn) (s : State) : ∃ nxt, execBusMasterEnableClear f s = .next nxt ∧ Keeps s nxt := by
  have H := Keeps.refl s
  unfold execBusMasterEnableClear
  refine ⟨_, rfl, ?_⟩
  repeat' first
    | (with_reducible assumption) | (intro) | (with_reducible apply State.configRequest_keeps)
    | (with_reducible apply State.modFn_keeps) | (with_reducible apply State.pumpAll_keeps)
    | (with_reducible apply State.endJobs_keeps) | (with_reducible apply Keeps.ite2) | (with_reducible apply Keeps.ite)
    | (fail_if_no_progress ((with_reducible apply Keeps.record) <;> first | with_reducible rfl | skip)) | split | (dsimp only)

theorem execBusMasterEnableSet_keeps (f : Fn) (s : State) : ∃ nxt, execBusMasterEnableSet f s = .next nxt ∧ Keeps s nxt := by
  have H := Keeps.refl s
  unfold execBusMasterEnableSet
  refine ⟨_, rfl, ?_⟩
  repeat' first
    | (with_reducible assumption) | (intro) | (with_reducible apply State.configRequest_keeps)
    | (with_reducible apply State.modFn_keeps) | (with_reducible apply State.refetch_keeps)
    | (with_reducible apply State.sendPending_keeps) | (with_reducible apply State.putRecord_keeps)
    | (with_reducible apply Keeps.forAll) | (with_reducible apply Keeps.ite2) | (with_reducible apply Keeps.ite)
    | (fail_if_no_progress ((with_reducible apply Keeps.record) <;> first | with_reducible rfl | skip)) | split | (dsimp only)

theorem execIdeStreamFail_keeps (w : Wing) (stream : Nat) (s : State) : ∃ nxt, execIdeStreamFail w stream s = .next nxt ∧ Keeps s nxt := by
  have H := Keeps.refl s
  unfold execIdeStreamFail
  refine ⟨_, rfl, ?_⟩
  repeat' first
    | (with_reducible assumption) | (intro) | (with_reducible apply State.pumpAll_keeps)
    | (with_reducible apply State.streamFail_keeps) | (with_reducible apply Keeps.ite2) | (with_reducible apply Keeps.ite)
    | (fail_if_no_progress ((with_reducible apply Keeps.record) <;> first | with_reducible rfl | skip)) | split | (dsimp only)

theorem execDmaReadFailure_keeps (target : ReadTarget) (kind : ReadFailure) (s : State) : ∃ nxt, execDmaReadFailure target kind s = .next nxt ∧ Keeps s nxt := by
  have H := Keeps.refl s
  unfold execDmaReadFailure
  refine ⟨_, rfl, ?_⟩
  repeat' first
    | (with_reducible assumption) | (intro) | (with_reducible apply State.otherReadFails_keeps)
    | (with_reducible apply State.jobReadFails_keeps) | (with_reducible apply State.stopQueue_keeps)
    | (with_reducible apply State.aerRead_keeps) | (with_reducible apply Keeps.log) | (with_reducible apply Keeps.ite2)
    | (with_reducible apply Keeps.ite)
    | (fail_if_no_progress ((with_reducible apply Keeps.record) <;> first | with_reducible rfl | skip)) | split | (dsimp only)

theorem execDmaWriteInternalError_keeps (target : WriteTarget) (s : State) : ∃ nxt, execDmaWriteInternalError target s = .next nxt ∧ Keeps s nxt := by
  have H := Keeps.refl s
  unfold execDmaWriteInternalError
  refine ⟨_, rfl, ?_⟩
  repeat' first
    | (with_reducible assumption) | (intro) | (with_reducible apply State.writeFault_keeps)
    | (with_reducible apply State.stopQueue_keeps) | (with_reducible apply State.setQueue_keeps) | (with_reducible apply Keeps.log)
    | (with_reducible apply Keeps.ite2) | (with_reducible apply Keeps.ite)
    | (fail_if_no_progress ((with_reducible apply Keeps.record) <;> first | with_reducible rfl | skip)) | split | (dsimp only)

theorem execPortUncorrectableError_keeps (w : Wing) (s : State) : ∃ nxt, execPortUncorrectableError w s = .next nxt ∧ Keeps s nxt := by
  have H := Keeps.refl s
  unfold execPortUncorrectableError
  refine ⟨_, rfl, ?_⟩
  repeat' first
    | (with_reducible assumption) | (intro) | (with_reducible apply State.setPort_keeps)
    | (with_reducible apply State.pumpAll_keeps) | (with_reducible apply State.abortJobs_keeps)
    | (with_reducible apply State.abortPage_keeps) | (with_reducible apply Keeps.forAll) | (with_reducible apply Keeps.log)
    | (with_reducible apply Keeps.ite2) | (with_reducible apply Keeps.ite)
    | (fail_if_no_progress ((with_reducible apply Keeps.record) <;> first | with_reducible rfl | skip)) | split | (dsimp only)

theorem execTxFieldWrite_keeps (by_ : TxWriter) (off : Nat) (v : Word32) (s : State) : ∃ nxt, execTxFieldWrite by_ off v s = .next nxt ∧ Keeps s nxt := by
  have H := Keeps.refl s
  unfold execTxFieldWrite
  refine ⟨_, rfl, ?_⟩
  repeat' first
    | (with_reducible assumption) | (intro) | (with_reducible apply State.mgmtWrite_keeps)
    | (with_reducible apply State.txWrite_keeps) | (with_reducible apply DocOk.doc) | (with_reducible apply Keeps.ite2)
    | (with_reducible apply Keeps.ite)
    | (fail_if_no_progress ((with_reducible apply Keeps.record) <;> first | with_reducible rfl | skip)) | split | (dsimp only)

theorem execFstatCauseClear_keeps (f : Fn) (v : Word32) (coincident : Word32) (s : State) : ∃ nxt, execFstatCauseClear f v coincident s = .next nxt ∧ Keeps s nxt := by
  have H := Keeps.refl s
  unfold execFstatCauseClear
  refine ⟨_, rfl, ?_⟩
  repeat' first
    | (with_reducible assumption) | (intro) | (with_reducible apply State.write_keeps) | (with_reducible apply State.modFn_keeps)
    | (with_reducible apply State.raiseCause_keeps) | (with_reducible apply Keeps.forAll) | (with_reducible apply Keeps.ite2)
    | (with_reducible apply Keeps.ite)
    | (fail_if_no_progress ((with_reducible apply Keeps.record) <;> first | with_reducible rfl | skip)) | split | (dsimp only)

theorem execFstatCauseEnWrite_keeps (f : Fn) (v : Word32) (s : State) : ∃ nxt, execFstatCauseEnWrite f v s = .next nxt ∧ Keeps s nxt := by
  have H := Keeps.refl s
  unfold execFstatCauseEnWrite
  refine ⟨_, rfl, ?_⟩
  repeat' first
    | (with_reducible assumption) | (intro) | (with_reducible apply State.write_keeps) | (with_reducible apply State.setFn_keeps)
    | (with_reducible apply State.sendMsix_keeps) | (with_reducible apply Keeps.ite2) | (with_reducible apply Keeps.ite)
    | (fail_if_no_progress ((with_reducible apply Keeps.record) <;> first | with_reducible rfl | skip)) | split | (dsimp only)

theorem execFstatErrRead_keeps (f : Fn) (s : State) : ∃ nxt, execFstatErrRead f s = .next nxt ∧ Keeps s nxt := by
  have H := Keeps.refl s
  unfold execFstatErrRead
  refine ⟨_, rfl, ?_⟩
  repeat' first
    | (with_reducible assumption) | (intro) | (with_reducible apply State.sideRead_keeps)
    | (with_reducible apply State.modFn_keeps) | (with_reducible apply Keeps.ite2) | (with_reducible apply Keeps.ite)
    | (fail_if_no_progress ((with_reducible apply Keeps.record) <;> first | with_reducible rfl | skip)) | split | (dsimp only)

theorem execFstatErrAddrRead_keeps (f : Fn) (s : State) : ∃ nxt, execFstatErrAddrRead f s = .next nxt ∧ Keeps s nxt := by
  have H := Keeps.refl s
  unfold execFstatErrAddrRead
  refine ⟨_, rfl, ?_⟩
  repeat' first
    | (with_reducible assumption) | (intro) | (with_reducible apply State.sideRead_keeps)
    | (with_reducible apply State.modFn_keeps) | (with_reducible apply Keeps.ite2) | (with_reducible apply Keeps.ite)
    | (fail_if_no_progress ((with_reducible apply Keeps.record) <;> first | with_reducible rfl | skip)) | split | (dsimp only)

theorem execFstatQerrRead_keeps (f : Fn) (s : State) : ∃ nxt, execFstatQerrRead f s = .next nxt ∧ Keeps s nxt := by
  have H := Keeps.refl s
  unfold execFstatQerrRead
  refine ⟨_, rfl, ?_⟩
  repeat' first
    | (with_reducible assumption) | (intro) | (with_reducible apply State.sideRead_keeps)
    | (with_reducible apply State.modFn_keeps) | (with_reducible apply Keeps.ite2) | (with_reducible apply Keeps.ite)
    | (fail_if_no_progress ((with_reducible apply Keeps.record) <;> first | with_reducible rfl | skip)) | split | (dsimp only)

theorem execSubmissionDoorbell_keeps (f : Fn) (q : QSel) (index : BitVec 16) (s : State) : ∃ nxt, execSubmissionDoorbell f q index s = .next nxt ∧ Keeps s nxt := by
  have H := Keeps.refl s
  unfold execSubmissionDoorbell
  refine ⟨_, rfl, ?_⟩
  repeat' first
    | (with_reducible assumption) | (intro) | (with_reducible apply State.doorbell_keeps)
    | (with_reducible apply State.setTail_keeps) | (with_reducible apply Keeps.ite2) | (with_reducible apply Keeps.ite)
    | (fail_if_no_progress ((with_reducible apply Keeps.record) <;> first | with_reducible rfl | skip)) | split | (dsimp only)

theorem execCompletionDoorbell_keeps (f : Fn) (q : QSel) (index : BitVec 16) (s : State) : ∃ nxt, execCompletionDoorbell f q index s = .next nxt ∧ Keeps s nxt := by
  have H := Keeps.refl s
  unfold execCompletionDoorbell
  refine ⟨_, rfl, ?_⟩
  repeat' first
    | (with_reducible assumption) | (intro) | (with_reducible apply State.doorbell_keeps)
    | (with_reducible apply State.queueError_keeps) | (with_reducible apply State.setQueue_keeps)
    | (with_reducible apply State.fetchHead_keeps) | (with_reducible apply Keeps.ite2) | (with_reducible apply Keeps.ite)
    | (fail_if_no_progress ((with_reducible apply Keeps.record) <;> first | with_reducible rfl | skip)) | split | (dsimp only)

theorem execAdmqEnable_keeps (f : Fn) (s : State) : ∃ nxt, execAdmqEnable f s = .next nxt ∧ Keeps s nxt := by
  have H := Keeps.refl s
  unfold execAdmqEnable
  refine ⟨_, rfl, ?_⟩
  repeat' first
    | (with_reducible assumption) | (intro) | (with_reducible apply State.write_keeps)
    | (with_reducible apply State.regError_keeps) | (with_reducible apply State.setFn_keeps) | (with_reducible apply Keeps.ite2)
    | (with_reducible apply Keeps.ite)
    | (fail_if_no_progress ((with_reducible apply Keeps.record) <;> first | with_reducible rfl | skip)) | split | (dsimp only)

theorem execAdmqDisable_keeps (f : Fn) (s : State) : ∃ nxt, execAdmqDisable f s = .next nxt ∧ Keeps s nxt := by
  have H := Keeps.refl s
  unfold execAdmqDisable
  refine ⟨_, rfl, ?_⟩
  repeat' first
    | (with_reducible assumption) | (intro) | (with_reducible apply State.write_keeps)
    | (with_reducible apply State.dropHeld_keeps) | (with_reducible apply State.modFn_keeps) | (with_reducible apply Keeps.ite2)
    | (with_reducible apply Keeps.ite)
    | (fail_if_no_progress ((with_reducible apply Keeps.record) <;> first | with_reducible rfl | skip)) | split | (dsimp only)

theorem execMsixUnmask_keeps (f : Fn) (vector : Nat) (s : State) : ∃ nxt, execMsixUnmask f vector s = .next nxt ∧ Keeps s nxt := by
  have H := Keeps.refl s
  unfold execMsixUnmask
  refine ⟨_, rfl, ?_⟩
  repeat' first
    | (with_reducible assumption) | (intro) | (with_reducible apply State.access_keeps)
    | (with_reducible apply State.sendPending_keeps) | (with_reducible apply State.modFn_keeps) | (with_reducible apply Keeps.ite2)
    | (with_reducible apply Keeps.ite)
    | (fail_if_no_progress ((with_reducible apply Keeps.record) <;> first | with_reducible rfl | skip)) | split | (dsimp only)

theorem execModerationTimerExpiry_keeps (f : Fn) (q : Nat) (s : State) : ∃ nxt, execModerationTimerExpiry f q s = .next nxt ∧ Keeps s nxt := by
  have H := Keeps.refl s
  unfold execModerationTimerExpiry
  refine ⟨_, rfl, ?_⟩
  repeat' first
    | (with_reducible assumption) | (intro) | (with_reducible apply State.sendMsix_keeps)
    | (with_reducible apply State.setQueue_keeps) | (with_reducible apply Keeps.ite2) | (with_reducible apply Keeps.ite)
    | (fail_if_no_progress ((with_reducible apply Keeps.record) <;> first | with_reducible rfl | skip)) | split | (dsimp only)

theorem execUnitFence_keeps (u : UnitId) (cause : Nat) (s : State) : ∃ nxt, execUnitFence u cause s = .next nxt ∧ Keeps s nxt := by
  have H := Keeps.refl s
  unfold execUnitFence
  refine ⟨_, rfl, ?_⟩
  repeat' first
    | (with_reducible assumption) | (intro) | (with_reducible apply State.pumpAll_keeps) | (with_reducible apply State.fence_keeps)
    | (with_reducible apply Keeps.ite2) | (with_reducible apply Keeps.ite)
    | (fail_if_no_progress ((with_reducible apply Keeps.record) <;> first | with_reducible rfl | skip)) | split | (dsimp only)

theorem execErrorCountDecay_keeps (u : UnitId) (s : State) : ∃ nxt, execErrorCountDecay u s = .next nxt ∧ Keeps s nxt := by
  have H := Keeps.refl s
  unfold execErrorCountDecay
  refine ⟨_, rfl, ?_⟩
  repeat' first
    | (with_reducible assumption) | (intro) | (with_reducible apply State.setUnit_keeps) | (with_reducible apply Keeps.ite2)
    | (with_reducible apply Keeps.ite)
    | (fail_if_no_progress ((with_reducible apply Keeps.record) <;> first | with_reducible rfl | skip)) | split | (dsimp only)

theorem execUnitHandshakeTimeout_keeps (u : UnitId) (s : State) : ∃ nxt, execUnitHandshakeTimeout u s = .next nxt ∧ Keeps s nxt := by
  have H := Keeps.refl s
  unfold execUnitHandshakeTimeout
  refine ⟨_, rfl, ?_⟩
  repeat' first
    | (with_reducible assumption) | (intro) | (with_reducible apply State.pumpAll_keeps) | (with_reducible apply State.fence_keeps)
    | (with_reducible apply Keeps.ite2) | (with_reducible apply Keeps.ite)
    | (fail_if_no_progress ((with_reducible apply Keeps.record) <;> first | with_reducible rfl | skip)) | split | (dsimp only)

theorem execUnitKnownAnswerTest_keeps (u : UnitId) (passes : Bool) (s : State) : ∃ nxt, execUnitKnownAnswerTest u passes s = .next nxt ∧ Keeps s nxt := by
  have H := Keeps.refl s
  unfold execUnitKnownAnswerTest
  refine ⟨_, rfl, ?_⟩
  repeat' first
    | (with_reducible assumption) | (intro) | (with_reducible apply State.yieldToSpare_keeps)
    | (with_reducible apply State.setUnit_keeps) | (with_reducible apply State.pumpAll_keeps)
    | (with_reducible apply State.fence_keeps) | (with_reducible apply Keeps.ite2) | (with_reducible apply Keeps.ite)
    | (fail_if_no_progress ((with_reducible apply Keeps.record) <;> first | with_reducible rfl | skip)) | split | (dsimp only)

theorem execRecalibration_keeps (u : UnitId) (s : State) : ∃ nxt, execRecalibration u s = .next nxt ∧ Keeps s nxt := by
  have H := Keeps.refl s
  unfold execRecalibration
  refine ⟨_, rfl, ?_⟩
  repeat' first
    | (with_reducible assumption) | (intro) | (with_reducible apply State.yieldToSpare_keeps) | (with_reducible apply DocOk.docW)
    | (with_reducible apply DocOk.docE) | (with_reducible apply Keeps.ite2) | (with_reducible apply Keeps.ite)
    | (fail_if_no_progress ((with_reducible apply Keeps.record) <;> first | with_reducible rfl | skip)) | split | (dsimp only)

theorem execConsRecal_keeps (f : Fn) (v : Word32) (s : State) : ∃ nxt, execConsRecal f v s = .next nxt ∧ Keeps s nxt := by
  have H := Keeps.refl s
  unfold execConsRecal
  refine ⟨_, rfl, ?_⟩
  repeat' first
    | (with_reducible assumption) | (intro) | (with_reducible apply State.mgmtWrite_keeps) | (with_reducible apply DocOk.docW)
    | (with_reducible apply DocOk.docE) | (with_reducible apply Keeps.ite2) | (with_reducible apply Keeps.ite)
    | (fail_if_no_progress ((with_reducible apply Keeps.record) <;> first | with_reducible rfl | skip)) | split | (dsimp only)

theorem execSparePromotion_keeps (u : UnitId) (s : State) : ∃ nxt, execSparePromotion u s = .next nxt ∧ Keeps s nxt := by
  have H := Keeps.refl s
  unfold execSparePromotion
  refine ⟨_, rfl, ?_⟩
  repeat' first
    | (with_reducible assumption) | (intro) | (with_reducible apply State.setUnit_keeps)
    | (with_reducible apply State.pumpAll_keeps) | (with_reducible apply DocOk.docW) | (with_reducible apply DocOk.docE)
    | (with_reducible apply Keeps.ite2) | (with_reducible apply Keeps.ite)
    | (fail_if_no_progress ((with_reducible apply Keeps.record) <;> first | with_reducible rfl | skip)) | split | (dsimp only)

theorem execConsPromote_keeps (f : Fn) (v : Word32) (s : State) : ∃ nxt, execConsPromote f v s = .next nxt ∧ Keeps s nxt := by
  have H := Keeps.refl s
  unfold execConsPromote
  refine ⟨_, rfl, ?_⟩
  repeat' first
    | (with_reducible assumption) | (intro) | (with_reducible apply State.consWrite_keeps)
    | (with_reducible apply State.regError_keeps) | (with_reducible apply State.setUnit_keeps) | (with_reducible apply DocOk.docW)
    | (with_reducible apply DocOk.docE) | (with_reducible apply Keeps.ite2) | (with_reducible apply Keeps.ite)
    | (fail_if_no_progress ((with_reducible apply Keeps.record) <;> first | with_reducible rfl | skip)) | split | (dsimp only)

theorem execConsFence_keeps (f : Fn) (v : Word32) (s : State) : ∃ nxt, execConsFence f v s = .next nxt ∧ Keeps s nxt := by
  have H := Keeps.refl s
  unfold execConsFence
  refine ⟨_, rfl, ?_⟩
  repeat' first
    | (with_reducible assumption) | (intro) | (with_reducible apply State.consWrite_keeps)
    | (with_reducible apply State.pumpAll_keeps) | (with_reducible apply State.fence_keeps) | (with_reducible apply Keeps.ite2)
    | (with_reducible apply Keeps.ite)
    | (fail_if_no_progress ((with_reducible apply Keeps.record) <;> first | with_reducible rfl | skip)) | split | (dsimp only)

theorem execConsReadmit_keeps (f : Fn) (v : Word32) (s : State) : ∃ nxt, execConsReadmit f v s = .next nxt ∧ Keeps s nxt := by
  have H := Keeps.refl s
  unfold execConsReadmit
  refine ⟨_, rfl, ?_⟩
  repeat' first
    | (with_reducible assumption) | (intro) | (with_reducible apply State.consWrite_keeps)
    | (with_reducible apply State.setUnit_keeps) | (with_reducible apply Keeps.ite2) | (with_reducible apply Keeps.ite)
    | (fail_if_no_progress ((with_reducible apply Keeps.record) <;> first | with_reducible rfl | skip)) | split | (dsimp only)

theorem execUnitReadmitComplete_keeps (u : UnitId) (passes : Bool) (s : State) : ∃ nxt, execUnitReadmitComplete u passes s = .next nxt ∧ Keeps s nxt := by
  have H := Keeps.refl s
  unfold execUnitReadmitComplete
  refine ⟨_, rfl, ?_⟩
  repeat' first
    | (with_reducible assumption) | (intro) | (with_reducible apply State.setUnit_keeps)
    | (with_reducible apply State.pumpAll_keeps) | (with_reducible apply DocOk.docW) | (with_reducible apply DocOk.docE)
    | (with_reducible apply Keeps.ite2) | (with_reducible apply Keeps.ite)
    | (fail_if_no_progress ((with_reducible apply Keeps.record) <;> first | with_reducible rfl | skip)) | split | (dsimp only)

theorem execConsGreset_keeps (f : Fn) (v : Word32) (s : State) : ∃ nxt, execConsGreset f v s = .next nxt ∧ Keeps s nxt := by
  have H := Keeps.refl s
  unfold execConsGreset
  refine ⟨_, rfl, ?_⟩
  repeat' first
    | (with_reducible assumption) | (intro) | (with_reducible apply State.mgmtWrite_keeps)
    | (with_reducible apply State.regError_keeps) | (with_reducible apply State.setGal_keeps) | (with_reducible apply Keeps.ite2)
    | (with_reducible apply Keeps.ite)
    | (fail_if_no_progress ((with_reducible apply Keeps.record) <;> first | with_reducible rfl | skip)) | split | (dsimp only)

theorem execGalleryReset_keeps (gallery : Nat) (s : State) : ∃ nxt, execGalleryReset gallery s = .next nxt ∧ Keeps s nxt := by
  have H := Keeps.refl s
  unfold execGalleryReset
  refine ⟨_, rfl, ?_⟩
  repeat' first
    | (with_reducible assumption) | (intro) | (with_reducible apply State.pumpAll_keeps)
    | (with_reducible apply State.galleryDown_keeps) | (with_reducible apply Keeps.ite2) | (with_reducible apply Keeps.ite)
    | (fail_if_no_progress ((with_reducible apply Keeps.record) <;> first | with_reducible rfl | skip)) | split | (dsimp only)

theorem execGalleryResetComplete_keeps (gallery : Nat) (s : State) : ∃ nxt, execGalleryResetComplete gallery s = .next nxt ∧ Keeps s nxt := by
  have H := Keeps.refl s
  unfold execGalleryResetComplete
  refine ⟨_, rfl, ?_⟩
  repeat' first
    | (with_reducible assumption) | (intro) | (with_reducible apply State.pumpAll_keeps)
    | (with_reducible apply State.setGal_keeps) | (with_reducible apply Keeps.ite2) | (with_reducible apply Keeps.ite)
    | (fail_if_no_progress ((with_reducible apply Keeps.record) <;> first | with_reducible rfl | skip)) | split | (dsimp only)

theorem execConsEventRead_keeps (f : Fn) (s : State) : ∃ nxt, execConsEventRead f s = .next nxt ∧ Keeps s nxt := by
  have H := Keeps.refl s
  unfold execConsEventRead
  refine ⟨_, rfl, ?_⟩
  repeat' first
    | (with_reducible assumption) | (intro) | (with_reducible apply State.clearRead_keeps)
    | (with_reducible apply State.setEvent_keeps) | (with_reducible apply Keeps.ite2) | (with_reducible apply Keeps.ite)
    | (fail_if_no_progress ((with_reducible apply Keeps.record) <;> first | with_reducible rfl | skip)) | split | (dsimp only)

theorem execConsFencedTrafficRead_keeps (f : Fn) (s : State) : ∃ nxt, execConsFencedTrafficRead f s = .next nxt ∧ Keeps s nxt := by
  have H := Keeps.refl s
  unfold execConsFencedTrafficRead
  refine ⟨_, rfl, ?_⟩
  repeat' first
    | (with_reducible assumption) | (intro) | (with_reducible apply State.clearRead_keeps)
    | (with_reducible apply State.setFencedTraffic_keeps) | (with_reducible apply Keeps.ite2) | (with_reducible apply Keeps.ite)
    | (fail_if_no_progress ((with_reducible apply Keeps.record) <;> first | with_reducible rfl | skip)) | split | (dsimp only)

theorem execConsLinkdownRead_keeps (f : Fn) (s : State) : ∃ nxt, execConsLinkdownRead f s = .next nxt ∧ Keeps s nxt := by
  have H := Keeps.refl s
  unfold execConsLinkdownRead
  refine ⟨_, rfl, ?_⟩
  repeat' first
    | (with_reducible assumption) | (intro) | (with_reducible apply State.clearRead_keeps)
    | (with_reducible apply State.setLinkdown_keeps) | (with_reducible apply Keeps.ite2) | (with_reducible apply Keeps.ite)
    | (fail_if_no_progress ((with_reducible apply Keeps.record) <;> first | with_reducible rfl | skip)) | split | (dsimp only)

theorem execStaleFlitDrop_keeps (u : UnitId) (gen : Nat) (s : State) : ∃ nxt, execStaleFlitDrop u gen s = .next nxt ∧ Keeps s nxt := by
  have H := Keeps.refl s
  unfold execStaleFlitDrop
  refine ⟨_, rfl, ?_⟩
  repeat' first
    | (with_reducible assumption) | (intro) | (with_reducible apply State.setFencedTraffic_keeps)
    | (with_reducible apply Keeps.log) | (with_reducible apply Keeps.ite2) | (with_reducible apply Keeps.ite)
    | (fail_if_no_progress ((with_reducible apply Keeps.record) <;> first | with_reducible rfl | skip)) | split | (dsimp only)

theorem execVoteDisagreement_keeps (vote : Vote) (s : State) : ∃ nxt, execVoteDisagreement vote s = .next nxt ∧ Keeps s nxt := by
  have H := Keeps.refl s
  unfold execVoteDisagreement
  refine ⟨_, rfl, ?_⟩
  repeat' first
    | (with_reducible assumption) | (intro) | (with_reducible apply State.setVote_keeps) | (with_reducible apply State.fence_keeps)
    | (with_reducible apply State.loseCurator_keeps) | (with_reducible apply Keeps.ite2) | (with_reducible apply Keeps.ite)
    | (fail_if_no_progress ((with_reducible apply Keeps.record) <;> first | with_reducible rfl | skip)) | split | (dsimp only)

theorem execBothWingsLost_keeps (s : State) : ∃ nxt, execBothWingsLost s = .next nxt ∧ Keeps s nxt := by
  have H := Keeps.refl s
  unfold execBothWingsLost
  refine ⟨_, rfl, ?_⟩
  repeat' first
    | (with_reducible assumption) | (intro) | (with_reducible apply State.loseCurator_keeps) | (with_reducible apply Keeps.ite2)
    | (with_reducible apply Keeps.ite)
    | (fail_if_no_progress ((with_reducible apply Keeps.record) <;> first | with_reducible rfl | skip)) | split | (dsimp only)

theorem execHeartbeatSend_keeps (l : Link) (e : LinkEnd) (s : State) : ∃ nxt, execHeartbeatSend l e s = .next nxt ∧ Keeps s nxt := by
  have H := Keeps.refl s
  unfold execHeartbeatSend
  refine ⟨_, rfl, ?_⟩
  repeat' first
    | (with_reducible assumption) | (intro) | (with_reducible apply State.setLink_keeps) | (with_reducible apply Keeps.emit)
    | (with_reducible apply Keeps.ite2) | (with_reducible apply Keeps.ite)
    | (fail_if_no_progress ((with_reducible apply Keeps.record) <;> first | with_reducible rfl | skip)) | split | (dsimp only)

theorem execLinkDownDeclare_keeps (l : Link) (e : LinkEnd) (s : State) : ∃ nxt, execLinkDownDeclare l e s = .next nxt ∧ Keeps s nxt := by
  have H := Keeps.refl s
  unfold execLinkDownDeclare
  refine ⟨_, rfl, ?_⟩
  repeat' first
    | (with_reducible assumption) | (intro) | (with_reducible apply State.countDown_keeps)
    | (with_reducible apply State.setLink_keeps) | (with_reducible apply State.pumpAll_keeps)
    | (with_reducible apply State.markC0_keeps) | (with_reducible apply State.entropyChanged_keeps)
    | (with_reducible apply State.linkLost_keeps) | (with_reducible apply Keeps.log) | (with_reducible apply Keeps.ite2)
    | (with_reducible apply Keeps.ite)
    | (fail_if_no_progress ((with_reducible apply Keeps.record) <;> first | with_reducible rfl | skip)) | split | (dsimp only)

theorem execLinkRetrain_keeps (l : Link) (s : State) : ∃ nxt, execLinkRetrain l s = .next nxt ∧ Keeps s nxt := by
  have H := Keeps.refl s
  unfold execLinkRetrain
  refine ⟨_, rfl, ?_⟩
  repeat' first
    | (with_reducible assumption) | (intro) | (with_reducible apply State.keyLink_keeps)
    | (with_reducible apply State.setLink_keeps) | (with_reducible apply Keeps.ite2) | (with_reducible apply Keeps.ite)
    | (fail_if_no_progress ((with_reducible apply Keeps.record) <;> first | with_reducible rfl | skip)) | split | (dsimp only)

theorem execLinkUpDeclare_keeps (l : Link) (s : State) : ∃ nxt, execLinkUpDeclare l s = .next nxt ∧ Keeps s nxt := by
  have H := Keeps.refl s
  unfold execLinkUpDeclare
  refine ⟨_, rfl, ?_⟩
  repeat' first
    | (with_reducible assumption) | (intro) | (with_reducible apply State.setLink_keeps)
    | (with_reducible apply State.pumpAll_keeps) | (with_reducible apply State.entropyChanged_keeps)
    | (with_reducible apply Keeps.ite2) | (with_reducible apply Keeps.ite)
    | (fail_if_no_progress ((with_reducible apply Keeps.record) <;> first | with_reducible rfl | skip)) | split | (dsimp only)

theorem execOrphanDetect_keeps (w : Wing) (s : State) : ∃ nxt, execOrphanDetect w s = .next nxt ∧ Keeps s nxt := by
  have H := Keeps.refl s
  unfold execOrphanDetect
  refine ⟨_, rfl, ?_⟩
  repeat' first
    | (with_reducible assumption) | (intro) | (with_reducible apply State.retireBlocks_keeps)
    | (with_reducible apply State.raiseSplit_keeps) | (with_reducible apply State.setAdmitted_keeps)
    | (with_reducible apply State.setOrphan_keeps) | (with_reducible apply State.setStoreWing_keeps)
    | (with_reducible apply State.abandonHandover_keeps) | (with_reducible apply State.pumpAll_keeps)
    | (with_reducible apply State.markC0_keeps) | (with_reducible apply State.entropyChanged_keeps)
    | (with_reducible apply Keeps.log) | (with_reducible apply Keeps.ite2) | (with_reducible apply Keeps.ite)
    | (fail_if_no_progress ((with_reducible apply Keeps.record) <;> first | with_reducible rfl | skip)) | split | (dsimp only)

theorem execOrphanHalt_keeps (w : Wing) (s : State) : ∃ nxt, execOrphanHalt w s = .next nxt ∧ Keeps s nxt := by
  have H := Keeps.refl s
  unfold execOrphanHalt
  refine ⟨_, rfl, ?_⟩
  repeat' first
    | (with_reducible assumption) | (intro) | (with_reducible apply State.dropGensOn_keeps)
    | (with_reducible apply State.endJobs_keeps) | (with_reducible apply State.endPage_keeps)
    | (with_reducible apply State.entropyChanged_keeps) | (with_reducible apply State.dropReady_keeps)
    | (with_reducible apply State.wipeGenerators_keeps) | (with_reducible apply State.wipeGate_keeps)
    | (with_reducible apply State.setReady_keeps) | (with_reducible apply State.pumpAll_keeps)
    | (with_reducible apply State.setHalted_keeps) | (with_reducible apply State.setDesk_keeps)
    | (with_reducible apply Keeps.forAll) | (with_reducible apply Keeps.setDocOk) | (with_reducible apply DocOk.doc)
    | (fail_if_no_progress (with_reducible apply DocOk.record)) | (with_reducible apply Keeps.ite2)
    | (with_reducible apply Keeps.ite)
    | (fail_if_no_progress ((with_reducible apply Keeps.record) <;> first | with_reducible rfl | skip)) | split | (dsimp only)

theorem execWingReset_keeps (w : Wing) (s : State) : ∃ nxt, execWingReset w s = .next nxt ∧ Keeps s nxt := by
  have H := Keeps.refl s
  unfold execWingReset
  refine ⟨_, rfl, ?_⟩
  repeat' first
    | (with_reducible assumption) | (intro) | (with_reducible apply State.pumpAll_keeps)
    | (with_reducible apply State.wingDown_keeps) | (with_reducible apply Keeps.ite2) | (with_reducible apply Keeps.ite)
    | (fail_if_no_progress ((with_reducible apply Keeps.record) <;> first | with_reducible rfl | skip)) | split | (dsimp only)

theorem execWingReadmission_keeps (w : Wing) (s : State) : ∃ nxt, execWingReadmission w s = .next nxt ∧ Keeps s nxt := by
  have H := Keeps.refl s
  unfold execWingReadmission
  refine ⟨_, rfl, ?_⟩
  repeat' first
    | (with_reducible assumption) | (intro) | (with_reducible apply State.newTree_keeps)
    | (with_reducible apply State.setHalted_keeps) | (with_reducible apply State.wingDown_keeps)
    | (with_reducible apply State.pumpAll_keeps) | (with_reducible apply State.setReturning_keeps)
    | (with_reducible apply Keeps.setDocOk) | (with_reducible apply DocOk.doc) | (with_reducible apply DocOk.docW)
    | (with_reducible apply DocOk.docE) | (fail_if_no_progress (with_reducible apply DocOk.record))
    | (with_reducible apply Keeps.ite2) | (with_reducible apply Keeps.ite)
    | (fail_if_no_progress ((with_reducible apply Keeps.record) <;> first | with_reducible rfl | skip)) | split | (dsimp only)

theorem execMicrocodeBankLoad_keeps (u : UnitId) (verifies : Bool) (s : State) : ∃ nxt, execMicrocodeBankLoad u verifies s = .next nxt ∧ Keeps s nxt := by
  have H := Keeps.refl s
  unfold execMicrocodeBankLoad
  refine ⟨_, rfl, ?_⟩
  repeat' first
    | (with_reducible assumption) | (intro) | (with_reducible apply State.pumpAll_keeps) | (with_reducible apply State.fence_keeps)
    | (with_reducible apply DocOk.docW) | (with_reducible apply DocOk.docE) | (with_reducible apply Keeps.ite2)
    | (with_reducible apply Keeps.ite)
    | (fail_if_no_progress ((with_reducible apply Keeps.record) <;> first | with_reducible rfl | skip)) | split | (dsimp only)

theorem execBnslotRepartition_keeps (gallery : Nat) (s : State) : ∃ nxt, execBnslotRepartition gallery s = .next nxt ∧ Keeps s nxt := by
  have H := Keeps.refl s
  unfold execBnslotRepartition
  refine ⟨_, rfl, ?_⟩
  repeat' first
    | (with_reducible assumption) | (intro) | (with_reducible apply State.pumpAll_keeps)
    | (with_reducible apply State.setGal_keeps) | (with_reducible apply Keeps.ite2) | (with_reducible apply Keeps.ite)
    | (fail_if_no_progress ((with_reducible apply Keeps.record) <;> first | with_reducible rfl | skip)) | split | (dsimp only)

theorem execRevocationOrder_keeps (w : Wing) (coll : Nat) (index : Nat) (gen : Nat) (s : State) : ∃ nxt, execRevocationOrder w coll index gen s = .next nxt ∧ Keeps s nxt := by
  have H := Keeps.refl s
  unfold execRevocationOrder
  refine ⟨_, rfl, ?_⟩
  repeat' first
    | (with_reducible assumption) | (intro) | (with_reducible apply State.clearRevoked_keeps)
    | (with_reducible apply State.pumpAll_keeps) | (with_reducible apply State.setOrders_keeps) | (with_reducible apply Keeps.ite2)
    | (with_reducible apply Keeps.ite)
    | (fail_if_no_progress ((with_reducible apply Keeps.record) <;> first | with_reducible rfl | skip)) | split | (dsimp only)

theorem execRevocationAck_keeps (w : Wing) (coll : Nat) (index : Nat) (gen : Nat) (s : State) : ∃ nxt, execRevocationAck w coll index gen s = .next nxt ∧ Keeps s nxt := by
  have H := Keeps.refl s
  unfold execRevocationAck
  refine ⟨_, rfl, ?_⟩
  repeat' first
    | (with_reducible assumption) | (intro) | (with_reducible apply State.setOrders_keeps) | (with_reducible apply Keeps.ite2)
    | (with_reducible apply Keeps.ite)
    | (fail_if_no_progress ((with_reducible apply Keeps.record) <;> first | with_reducible rfl | skip)) | split | (dsimp only)

theorem execLeaseRenewal_keeps (loan : Nat) (s : State) : ∃ nxt, execLeaseRenewal loan s = .next nxt ∧ Keeps s nxt := by
  have H := Keeps.refl s
  unfold execLeaseRenewal
  refine ⟨_, rfl, ?_⟩
  repeat' first
    | (with_reducible assumption) | (intro) | (with_reducible apply State.setLoan_keeps)
    | (with_reducible apply State.pumpAll_keeps) | (with_reducible apply State.endUser_keeps) | (with_reducible apply Keeps.ite2)
    | (with_reducible apply Keeps.ite)
    | (fail_if_no_progress ((with_reducible apply Keeps.record) <;> first | with_reducible rfl | skip)) | split | (dsimp only)

theorem execLeaseExpiry_keeps (loan : Nat) (s : State) : ∃ nxt, execLeaseExpiry loan s = .next nxt ∧ Keeps s nxt := by
  have H := Keeps.refl s
  unfold execLeaseExpiry
  refine ⟨_, rfl, ?_⟩
  repeat' first
    | (with_reducible assumption) | (intro) | (with_reducible apply State.putJob_keeps)
    | (with_reducible apply State.pumpAll_keeps) | (with_reducible apply State.endUser_keeps) | (with_reducible apply Keeps.ite2)
    | (with_reducible apply Keeps.ite)
    | (fail_if_no_progress ((with_reducible apply Keeps.record) <;> first | with_reducible rfl | skip)) | split | (dsimp only)

theorem execProvenanceWalk_keeps (coll : Nat) (index : Nat) (gen : Nat) (s : State) : ∃ nxt, execProvenanceWalk coll index gen s = .next nxt ∧ Keeps s nxt := by
  have H := Keeps.refl s
  unfold execProvenanceWalk
  refine ⟨_, rfl, ?_⟩
  repeat' first
    | (with_reducible assumption) | (intro) | (with_reducible apply State.cascade_keeps)
    | (with_reducible apply State.setInvalidated_keeps) | (with_reducible apply Keeps.forAll) | (with_reducible apply Keeps.ite2)
    | (with_reducible apply Keeps.ite)
    | (fail_if_no_progress ((with_reducible apply Keeps.record) <;> first | with_reducible rfl | skip)) | split | (dsimp only)

theorem execInvalidatedAncestorRelease_keeps (coll : Nat) (index : Nat) (gen : Nat) (s : State) : ∃ nxt, execInvalidatedAncestorRelease coll index gen s = .next nxt ∧ Keeps s nxt := by
  have H := Keeps.refl s
  unfold execInvalidatedAncestorRelease
  refine ⟨_, rfl, ?_⟩
  repeat' first
    | (with_reducible assumption) | (intro) | (with_reducible apply State.setInvalidated_keeps) | (with_reducible apply Keeps.ite2)
    | (with_reducible apply Keeps.ite)
    | (fail_if_no_progress ((with_reducible apply Keeps.record) <;> first | with_reducible rfl | skip)) | split | (dsimp only)

theorem execSealIntervalExpiry_keeps (s : State) : ∃ nxt, execSealIntervalExpiry s = .next nxt ∧ Keeps s nxt := by
  have H := Keeps.refl s
  unfold execSealIntervalExpiry
  refine ⟨_, rfl, ?_⟩
  repeat' first
    | (with_reducible assumption) | (intro) | (with_reducible apply State.closeSeal_keeps) | (with_reducible apply Keeps.ite2)
    | (with_reducible apply Keeps.ite)
    | (fail_if_no_progress ((with_reducible apply Keeps.record) <;> first | with_reducible rfl | skip)) | split | (dsimp only)

theorem execSealWrite_keeps (s : State) : ∃ nxt, execSealWrite s = .next nxt ∧ Keeps s nxt := by
  have H := Keeps.refl s
  unfold execSealWrite
  refine ⟨_, rfl, ?_⟩
  repeat' first
    | (with_reducible assumption) | (intro) | (with_reducible apply State.sealWrite_keeps) | (with_reducible apply Keeps.ite2)
    | (with_reducible apply Keeps.ite)
    | (fail_if_no_progress ((with_reducible apply Keeps.record) <;> first | with_reducible rfl | skip)) | split | (dsimp only)

theorem execReportPhase_keeps (s : State) : ∃ nxt, execReportPhase s = .next nxt ∧ Keeps s nxt := by
  have H := Keeps.refl s
  unfold execReportPhase
  refine ⟨_, rfl, ?_⟩
  repeat' first
    | (with_reducible assumption) | (intro) | (with_reducible apply State.deliver_keeps)
    | (with_reducible apply State.sealReport_keeps) | (with_reducible apply Keeps.forAll) | (with_reducible apply DocOk.docW)
    | (with_reducible apply DocOk.docE) | (with_reducible apply Keeps.ite2) | (with_reducible apply Keeps.ite)
    | (fail_if_no_progress ((with_reducible apply Keeps.record) <;> first | with_reducible rfl | skip)) | split | (dsimp only)

theorem execCheckpointEnd_keeps (s : State) : ∃ nxt, execCheckpointEnd s = .next nxt ∧ Keeps s nxt := by
  have H := Keeps.refl s
  unfold execCheckpointEnd
  refine ⟨_, rfl, ?_⟩
  repeat' first
    | (with_reducible assumption) | (intro) | (with_reducible apply State.putHead_keeps)
    | (with_reducible apply State.reclaimSlots_keeps) | (with_reducible apply DocOk.docW) | (with_reducible apply DocOk.docE)
    | (with_reducible apply Keeps.ite2) | (with_reducible apply Keeps.ite)
    | (fail_if_no_progress ((with_reducible apply Keeps.record) <;> first | with_reducible rfl | skip)) | split | (dsimp only)

theorem execJournalConfig_keeps (m : Sender) (params : List Byte) (s : State) : ∃ nxt, execJournalConfig m params s = .next nxt ∧ Keeps s nxt := by
  have H := Keeps.refl s
  unfold execJournalConfig
  refine ⟨_, rfl, ?_⟩
  repeat' first
    | (with_reducible assumption) | (intro) | (with_reducible apply State.journalMessage_keeps) | (with_reducible apply deny_keeps)
    | (with_reducible apply DocOk.docW) | (with_reducible apply DocOk.docE) | (with_reducible apply Keeps.ite2)
    | (with_reducible apply Keeps.ite)
    | (fail_if_no_progress ((with_reducible apply Keeps.record) <;> first | with_reducible rfl | skip)) | split
    | (rename_i h; have hs := congrArg Prod.snd h; dsimp only at hs; subst hs) | (dsimp only)

theorem execJournalAck_keeps (m : Sender) (params : List Byte) (s : State) : ∃ nxt, execJournalAck m params s = .next nxt ∧ Keeps s nxt := by
  have H := Keeps.refl s
  unfold execJournalAck
  refine ⟨_, rfl, ?_⟩
  repeat' first
    | (with_reducible assumption) | (intro) | (with_reducible apply State.journalMessage_keeps) | (with_reducible apply deny_keeps)
    | (with_reducible apply DocOk.docW) | (with_reducible apply DocOk.docE) | (with_reducible apply Keeps.ite2)
    | (with_reducible apply Keeps.ite)
    | (fail_if_no_progress ((with_reducible apply Keeps.record) <;> first | with_reducible rfl | skip)) | split
    | (rename_i h; have hs := congrArg Prod.snd h; dsimp only at hs; subst hs) | (dsimp only)

theorem execJournalStatus_keeps (m : Sender) (params : List Byte) (s : State) : ∃ nxt, execJournalStatus m params s = .next nxt ∧ Keeps s nxt := by
  have H := Keeps.refl s
  unfold execJournalStatus
  refine ⟨_, rfl, ?_⟩
  repeat' first
    | (with_reducible assumption) | (intro) | (with_reducible apply State.journalMessage_keeps) | (with_reducible apply Keeps.ite2)
    | (with_reducible apply Keeps.ite)
    | (fail_if_no_progress ((with_reducible apply Keeps.record) <;> first | with_reducible rfl | skip)) | split | (dsimp only)

theorem execRestoreBegin_keeps (m : Sender) (params : List Byte) (s : State) : ∃ nxt, execRestoreBegin m params s = .next nxt ∧ Keeps s nxt := by
  have H := Keeps.refl s
  unfold execRestoreBegin
  refine ⟨_, rfl, ?_⟩
  repeat' first
    | (with_reducible assumption) | (intro) | (with_reducible apply State.journalMessage_keeps) | (with_reducible apply deny_keeps)
    | (with_reducible apply DocOk.docW) | (with_reducible apply DocOk.docE) | (with_reducible apply Keeps.ite2)
    | (with_reducible apply Keeps.ite)
    | (fail_if_no_progress ((with_reducible apply Keeps.record) <;> first | with_reducible rfl | skip)) | split
    | (rename_i h; have hs := congrArg Prod.snd h; dsimp only at hs; subst hs) | (dsimp only)

theorem execRestoreBlock_keeps (m : Sender) (params : List Byte) (block : Option (List Byte)) (s : State) : ∃ nxt, execRestoreBlock m params block s = .next nxt ∧ Keeps s nxt := by
  have H := Keeps.refl s
  unfold execRestoreBlock
  refine ⟨_, rfl, ?_⟩
  repeat' first
    | (with_reducible assumption) | (intro) | (with_reducible apply State.journalMessage_keeps) | (with_reducible apply deny_keeps)
    | (with_reducible apply State.applyRecord_keeps) | (with_reducible apply Keeps.forAll) | (with_reducible apply DocOk.docW)
    | (with_reducible apply DocOk.docE) | (with_reducible apply Keeps.ite2) | (with_reducible apply Keeps.ite)
    | (fail_if_no_progress ((with_reducible apply Keeps.record) <;> first | with_reducible rfl | skip)) | split
    | (rename_i h; have hs := congrArg Prod.snd h; dsimp only at hs; subst hs) | (dsimp only)

theorem execRestoreEnd_keeps (m : Sender) (params : List Byte) (s : State) : ∃ nxt, execRestoreEnd m params s = .next nxt ∧ Keeps s nxt := by
  have H := Keeps.refl s
  unfold execRestoreEnd
  refine ⟨_, rfl, ?_⟩
  repeat' first
    | (with_reducible assumption) | (intro) | (with_reducible apply State.journalMessage_keeps) | (with_reducible apply deny_keeps)
    | (with_reducible apply State.endRestore_keeps) | (with_reducible apply Keeps.ite2) | (with_reducible apply Keeps.ite)
    | (fail_if_no_progress ((with_reducible apply Keeps.record) <;> first | with_reducible rfl | skip)) | split
    | (rename_i h; have hs := congrArg Prod.snd h; dsimp only at hs; subst hs) | (dsimp only)

theorem execAcceptLoss_keeps (m : Sender) (params : List Byte) (s : State) : ∃ nxt, execAcceptLoss m params s = .next nxt ∧ Keeps s nxt := by
  have H := Keeps.refl s
  unfold execAcceptLoss
  refine ⟨_, rfl, ?_⟩
  repeat' first
    | (with_reducible assumption) | (intro) | (with_reducible apply State.journalMessage_keeps) | (with_reducible apply deny_keeps)
    | (with_reducible apply State.withQuorum_keeps) | (with_reducible apply State.advanceLoss_keeps)
    | (with_reducible apply State.closeSeal_keeps) | (with_reducible apply State.closeLostSlots_keeps)
    | (with_reducible apply State.endRestore_keeps) | (with_reducible apply State.startCheckpoint_keeps)
    | (with_reducible apply Keeps.log) | (with_reducible apply DocOk.docW) | (with_reducible apply DocOk.docE)
    | (with_reducible apply Keeps.ite2) | (with_reducible apply Keeps.ite)
    | (fail_if_no_progress ((with_reducible apply Keeps.record) <;> first | with_reducible rfl | skip)) | split
    | (rename_i h; have hs := congrArg Prod.snd h; dsimp only at hs; subst hs) | (dsimp only)

theorem execPwronRstAssert_keeps (s : State) : ∃ nxt, execPwronRstAssert s = .next nxt ∧ Keeps s nxt := by
  have H := Keeps.refl s
  unfold execPwronRstAssert
  refine ⟨_, rfl, ?_⟩
  repeat' first
    | (with_reducible assumption) | (intro) | (with_reducible apply State.deviceReset_keeps)
    | (with_reducible apply State.setBoot_keeps) | (with_reducible apply BootOk.boot)
    | (fail_if_no_progress (with_reducible apply BootOk.record)) | (with_reducible apply Keeps.ite2)
    | (with_reducible apply Keeps.ite)
    | (fail_if_no_progress ((with_reducible apply Keeps.record) <;> first | with_reducible rfl | skip)) | split | (dsimp only)

theorem execPwronRstRelease_keeps (straps : BitVec 6) (s : State) : ∃ nxt, execPwronRstRelease straps s = .next nxt ∧ Keeps s nxt := by
  have H := Keeps.refl s
  unfold execPwronRstRelease
  refine ⟨_, rfl, ?_⟩
  repeat' first
    | (with_reducible assumption) | (intro) | (with_reducible apply State.setBoot_keeps)
    | (with_reducible apply State.startBoot_keeps) | (with_reducible apply DocOk.docW) | (with_reducible apply DocOk.docE)
    | (with_reducible apply BootOk.boot) | (fail_if_no_progress (with_reducible apply BootOk.record))
    | (with_reducible apply Keeps.ite2) | (with_reducible apply Keeps.ite)
    | (fail_if_no_progress ((with_reducible apply Keeps.record) <;> first | with_reducible rfl | skip)) | split | (dsimp only)

theorem execRailRecoveryExpiry_keeps (die : Die) (recovered : Bool) (s : State) : ∃ nxt, execRailRecoveryExpiry die recovered s = .next nxt ∧ Keeps s nxt := by
  have H := Keeps.refl s
  unfold execRailRecoveryExpiry
  refine ⟨_, rfl, ?_⟩
  repeat' first
    | (with_reducible assumption) | (intro) | (with_reducible apply State.addTrip_keeps)
    | (with_reducible apply State.raiseAll_keeps) | (with_reducible apply State.latchClass_keeps)
    | (with_reducible apply State.deviceReset_keeps) | (with_reducible apply State.setBoot_keeps)
    | (with_reducible apply DocOk.docW) | (with_reducible apply DocOk.docE) | (with_reducible apply BootOk.boot)
    | (fail_if_no_progress (with_reducible apply BootOk.record)) | (with_reducible apply Keeps.ite2)
    | (with_reducible apply Keeps.ite)
    | (fail_if_no_progress ((with_reducible apply Keeps.record) <;> first | with_reducible rfl | skip)) | split | (dsimp only)

theorem execBootImageAccept_keeps (type : Nat) (s : State) : ∃ nxt, execBootImageAccept type s = .next nxt ∧ Keeps s nxt := by
  have H := Keeps.refl s
  unfold execBootImageAccept
  refine ⟨_, rfl, ?_⟩
  repeat' first
    | (with_reducible assumption) | (intro) | (with_reducible apply State.bootFirmware_keeps)
    | (with_reducible apply State.bootStage_keeps) | (with_reducible apply State.bootImage_keeps)
    | (with_reducible apply State.setRunning_keeps) | (with_reducible apply State.endBoot_keeps)
    | (with_reducible apply State.bootPolicy_keeps) | (with_reducible apply Keeps.ite2) | (with_reducible apply Keeps.ite)
    | (fail_if_no_progress ((with_reducible apply Keeps.record) <;> first | with_reducible rfl | skip)) | split | (dsimp only)

theorem execIdentity_keeps (m : Sender) (params : List Byte) (s : State) : ∃ nxt, execIdentity m params s = .next nxt ∧ Keeps s nxt := by
  have H := Keeps.refl s
  unfold execIdentity
  refine ⟨_, rfl, ?_⟩
  repeat' first
    | (with_reducible assumption) | (intro) | (with_reducible apply State.message_keeps) | (with_reducible apply Keeps.ite2)
    | (with_reducible apply Keeps.ite)
    | (fail_if_no_progress ((with_reducible apply Keeps.record) <;> first | with_reducible rfl | skip)) | split | (dsimp only)

theorem execNonce_keeps (m : Sender) (params : List Byte) (s : State) : ∃ nxt, execNonce m params s = .next nxt ∧ Keeps s nxt := by
  have H := Keeps.refl s
  unfold execNonce
  refine ⟨_, rfl, ?_⟩
  repeat' first
    | (with_reducible assumption) | (intro) | (with_reducible apply State.message_keeps)
    | (with_reducible apply State.drawCurator_keeps) | (with_reducible apply State.setBoot_keeps)
    | (with_reducible apply BootOk.boot) | (fail_if_no_progress (with_reducible apply BootOk.record))
    | (with_reducible apply Keeps.ite2) | (with_reducible apply Keeps.ite)
    | (fail_if_no_progress ((with_reducible apply Keeps.record) <;> first | with_reducible rfl | skip)) | split
    | (rename_i h; have hs := congrArg Prod.snd h; dsimp only at hs; subst hs) | (dsimp only)

theorem execNonceExpiry_keeps (index : Nat) (s : State) : ∃ nxt, execNonceExpiry index s = .next nxt ∧ Keeps s nxt := by
  have H := Keeps.refl s
  unfold execNonceExpiry
  refine ⟨_, rfl, ?_⟩
  repeat' first
    | (with_reducible assumption) | (intro) | (with_reducible apply State.setBoot_keeps) | (with_reducible apply BootOk.boot)
    | (fail_if_no_progress (with_reducible apply BootOk.record)) | (with_reducible apply Keeps.ite2)
    | (with_reducible apply Keeps.ite)
    | (fail_if_no_progress ((with_reducible apply Keeps.record) <;> first | with_reducible rfl | skip)) | split | (dsimp only)

theorem execQuorumSubmit_keeps (m : Sender) (params : List Byte) (s : State) : ∃ nxt, execQuorumSubmit m params s = .next nxt ∧ Keeps s nxt := by
  have H := Keeps.refl s
  unfold execQuorumSubmit
  refine ⟨_, rfl, ?_⟩
  repeat' first
    | (with_reducible assumption) | (intro) | (with_reducible apply State.message_keeps) | (with_reducible apply deny_keeps)
    | (with_reducible apply State.withQuorum_keeps) | (with_reducible apply State.setBoot_keeps)
    | (with_reducible apply BootOk.boot) | (fail_if_no_progress (with_reducible apply BootOk.record))
    | (with_reducible apply Keeps.ite2) | (with_reducible apply Keeps.ite)
    | (fail_if_no_progress ((with_reducible apply Keeps.record) <;> first | with_reducible rfl | skip)) | split
    | (rename_i h; have hs := congrArg Prod.snd h; dsimp only at hs; subst hs) | (dsimp only)

theorem execQuorumAuthorisationExpiry_keeps (index : Nat) (s : State) : ∃ nxt, execQuorumAuthorisationExpiry index s = .next nxt ∧ Keeps s nxt := by
  have H := Keeps.refl s
  unfold execQuorumAuthorisationExpiry
  refine ⟨_, rfl, ?_⟩
  repeat' first
    | (with_reducible assumption) | (intro) | (with_reducible apply State.setBoot_keeps) | (with_reducible apply BootOk.boot)
    | (fail_if_no_progress (with_reducible apply BootOk.record)) | (with_reducible apply Keeps.ite2)
    | (with_reducible apply Keeps.ite)
    | (fail_if_no_progress ((with_reducible apply Keeps.record) <;> first | with_reducible rfl | skip)) | split | (dsimp only)

theorem execTakeOwnership_keeps (m : Sender) (params : List Byte) (s : State) : ∃ nxt, execTakeOwnership m params s = .next nxt ∧ Keeps s nxt := by
  have H := Keeps.refl s
  unfold execTakeOwnership
  refine ⟨_, rfl, ?_⟩
  repeat' first
    | (with_reducible assumption) | (intro) | (with_reducible apply State.message_keeps)
    | (with_reducible apply State.unlessHandover_keeps) | (with_reducible apply deny_keeps)
    | (with_reducible apply State.freshJournal_keeps) | (with_reducible apply State.drawSsk_keeps)
    | (with_reducible apply State.useNonce_keeps) | (with_reducible apply State.setBoot_keeps)
    | (with_reducible apply State.issueAlias_keeps) | (with_reducible apply State.runPolicy_keeps)
    | (with_reducible apply BootOk.boot) | (fail_if_no_progress (with_reducible apply BootOk.record))
    | (with_reducible apply Keeps.ite2) | (with_reducible apply Keeps.ite)
    | (fail_if_no_progress ((with_reducible apply Keeps.record) <;> first | with_reducible rfl | skip)) | split
    | (rename_i h; have hs := congrArg Prod.snd h; dsimp only at hs; subst hs) | (dsimp only)

theorem execCertInstall_keeps (m : Sender) (params : List Byte) (s : State) : ∃ nxt, execCertInstall m params s = .next nxt ∧ Keeps s nxt := by
  have H := Keeps.refl s
  unfold execCertInstall
  refine ⟨_, rfl, ?_⟩
  repeat' first
    | (with_reducible assumption) | (intro) | (with_reducible apply State.message_keeps) | (with_reducible apply deny_keeps)
    | (with_reducible apply State.setBoot_keeps) | (with_reducible apply State.putChain_keeps) | (with_reducible apply BootOk.boot)
    | (fail_if_no_progress (with_reducible apply BootOk.record)) | (with_reducible apply Keeps.ite2)
    | (with_reducible apply Keeps.ite)
    | (fail_if_no_progress ((with_reducible apply Keeps.record) <;> first | with_reducible rfl | skip)) | split
    | (rename_i h; have hs := congrArg Prod.snd h; dsimp only at hs; subst hs) | (dsimp only)

theorem execDecommission_keeps (m : Sender) (params : List Byte) (s : State) : ∃ nxt, execDecommission m params s = .next nxt ∧ Keeps s nxt := by
  have H := Keeps.refl s
  unfold execDecommission
  refine ⟨_, rfl, ?_⟩
  repeat' first
    | (with_reducible assumption) | (intro) | (with_reducible apply State.message_keeps)
    | (with_reducible apply State.unlessHandover_keeps) | (with_reducible apply deny_keeps)
    | (with_reducible apply State.withQuorum_keeps) | (with_reducible apply State.freshJournal_keeps)
    | (with_reducible apply State.setBoot_keeps) | (with_reducible apply State.leaveErased_keeps)
    | (with_reducible apply State.defaultOrders_keeps) | (with_reducible apply DocOk.docW) | (with_reducible apply DocOk.docE)
    | (with_reducible apply BootOk.boot) | (fail_if_no_progress (with_reducible apply BootOk.record))
    | (with_reducible apply Keeps.ite2) | (with_reducible apply Keeps.ite)
    | (fail_if_no_progress ((with_reducible apply Keeps.record) <;> first | with_reducible rfl | skip)) | split
    | (rename_i h; have hs := congrArg Prod.snd h; dsimp only at hs; subst hs) | (dsimp only)

end Sys2Proof.Machine
end

