-- ==== Sys2Proof/Laws/KeepsExecB.lean ====
section
/-! SUPPORT. Every command of the table keeps what `Keeps` says (second part). -/

set_option linter.all false

open Host

namespace Sys2Proof.Machine

theorem execTransfer_keeps (m : Sender) (params : List Byte) (s : State) : ∃ nxt, execTransfer m params s = .next nxt ∧ Keeps s nxt := by
  have H := Keeps.refl s
  unfold execTransfer
  refine ⟨_, rfl, ?_⟩
  repeat' first
    | (with_reducible assumption) | (intro) | (with_reducible apply State.message_keeps)
    | (with_reducible apply State.unlessHandover_keeps) | (with_reducible apply deny_keeps)
    | (with_reducible apply State.defaultOrders_keeps) | (with_reducible apply State.freshJournal_keeps)
    | (with_reducible apply State.drawSsk_keeps) | (with_reducible apply State.useChallenge_keeps)
    | (with_reducible apply State.setBoot_keeps) | (with_reducible apply DocOk.docW) | (with_reducible apply DocOk.docE)
    | (with_reducible apply BootOk.boot) | (fail_if_no_progress (with_reducible apply BootOk.record))
    | (with_reducible apply Keeps.ite2) | (with_reducible apply Keeps.ite)
    | (fail_if_no_progress ((with_reducible apply Keeps.record) <;> first | with_reducible rfl | skip)) | split
    | (rename_i h; have hs := congrArg Prod.snd h; dsimp only at hs; subst hs) | (dsimp only)

theorem execScrap_keeps (m : Sender) (params : List Byte) (s : State) : ∃ nxt, execScrap m params s = .next nxt ∧ Keeps s nxt := by
  have H := Keeps.refl s
  unfold execScrap
  refine ⟨_, rfl, ?_⟩
  repeat' first
    | (with_reducible assumption) | (intro) | (with_reducible apply State.message_keeps)
    | (with_reducible apply State.unlessHandover_keeps) | (with_reducible apply deny_keeps)
    | (with_reducible apply State.ownedQuorum_keeps) | (with_reducible apply State.leaveErased_keeps)
    | (with_reducible apply State.setBoot_keeps) | (with_reducible apply BootOk.boot)
    | (fail_if_no_progress (with_reducible apply BootOk.record)) | (with_reducible apply Keeps.ite2)
    | (with_reducible apply Keeps.ite)
    | (fail_if_no_progress ((with_reducible apply Keeps.record) <;> first | with_reducible rfl | skip)) | split
    | (rename_i h; have hs := congrArg Prod.snd h; dsimp only at hs; subst hs) | (dsimp only)

theorem execProvision_keeps (m : Sender) (params : List Byte) (s : State) : ∃ nxt, execProvision m params s = .next nxt ∧ Keeps s nxt := by
  have H := Keeps.refl s
  unfold execProvision
  refine ⟨_, rfl, ?_⟩
  repeat' first
    | (with_reducible assumption) | (intro) | (with_reducible apply State.message_keeps)
    | (with_reducible apply State.unlessHandover_keeps) | (with_reducible apply deny_keeps)
    | (with_reducible apply State.openUnit9_keeps) | (with_reducible apply State.putChain_keeps)
    | (with_reducible apply State.drawSsk_keeps) | (with_reducible apply State.useChallenge_keeps)
    | (with_reducible apply State.setBoot_keeps) | (with_reducible apply BootOk.boot)
    | (fail_if_no_progress (with_reducible apply BootOk.record)) | (with_reducible apply Keeps.ite2)
    | (with_reducible apply Keeps.ite)
    | (fail_if_no_progress ((with_reducible apply Keeps.record) <;> first | with_reducible rfl | skip)) | split
    | (rename_i h; have hs := congrArg Prod.snd h; dsimp only at hs; subst hs) | (dsimp only)

theorem execFloorRaise_keeps (m : Sender) (params : List Byte) (s : State) : ∃ nxt, execFloorRaise m params s = .next nxt ∧ Keeps s nxt := by
  have H := Keeps.refl s
  unfold execFloorRaise
  refine ⟨_, rfl, ?_⟩
  repeat' first
    | (with_reducible assumption) | (intro) | (with_reducible apply State.message_keeps)
    | (with_reducible apply State.unlessHandover_keeps) | (with_reducible apply deny_keeps)
    | (with_reducible apply State.ownedQuorum_keeps) | (with_reducible apply State.setBoot_keeps)
    | (with_reducible apply BootOk.boot) | (fail_if_no_progress (with_reducible apply BootOk.record))
    | (with_reducible apply Keeps.ite2) | (with_reducible apply Keeps.ite)
    | (fail_if_no_progress ((with_reducible apply Keeps.record) <;> first | with_reducible rfl | skip)) | split
    | (rename_i h; have hs := congrArg Prod.snd h; dsimp only at hs; subst hs) | (dsimp only)

theorem execFlashWrite_keeps (m : Sender) (params : List Byte) (s : State) : ∃ nxt, execFlashWrite m params s = .next nxt ∧ Keeps s nxt := by
  have H := Keeps.refl s
  unfold execFlashWrite
  refine ⟨_, rfl, ?_⟩
  repeat' first
    | (with_reducible assumption) | (intro) | (with_reducible apply State.message_keeps) | (with_reducible apply deny_keeps)
    | (with_reducible apply State.flashWrite_keeps) | (with_reducible apply State.ownedQuorum_keeps)
    | (with_reducible apply Keeps.ite2) | (with_reducible apply Keeps.ite)
    | (fail_if_no_progress ((with_reducible apply Keeps.record) <;> first | with_reducible rfl | skip)) | split
    | (rename_i h; have hs := congrArg Prod.snd h; dsimp only at hs; subst hs) | (dsimp only)

theorem execSlotPrefer_keeps (m : Sender) (params : List Byte) (s : State) : ∃ nxt, execSlotPrefer m params s = .next nxt ∧ Keeps s nxt := by
  have H := Keeps.refl s
  unfold execSlotPrefer
  refine ⟨_, rfl, ?_⟩
  repeat' first
    | (with_reducible assumption) | (intro) | (with_reducible apply State.message_keeps)
    | (with_reducible apply State.unlessHandover_keeps) | (with_reducible apply deny_keeps)
    | (with_reducible apply State.preferSlot_keeps) | (with_reducible apply State.wrapMaster_keeps)
    | (with_reducible apply State.rewrap_keeps) | (with_reducible apply Keeps.ite2) | (with_reducible apply Keeps.ite)
    | (fail_if_no_progress ((with_reducible apply Keeps.record) <;> first | with_reducible rfl | skip)) | split
    | (rename_i h; have hs := congrArg Prod.snd h; dsimp only at hs; subst hs) | (dsimp only)

theorem execDebugChallenge_keeps (m : Sender) (params : List Byte) (s : State) : ∃ nxt, execDebugChallenge m params s = .next nxt ∧ Keeps s nxt := by
  have H := Keeps.refl s
  unfold execDebugChallenge
  refine ⟨_, rfl, ?_⟩
  repeat' first
    | (with_reducible assumption) | (intro) | (with_reducible apply State.message_keeps) | (with_reducible apply deny_keeps)
    | (with_reducible apply State.drawCurator_keeps) | (with_reducible apply State.setBoot_keeps)
    | (with_reducible apply BootOk.boot) | (fail_if_no_progress (with_reducible apply BootOk.record))
    | (with_reducible apply Keeps.ite2) | (with_reducible apply Keeps.ite)
    | (fail_if_no_progress ((with_reducible apply Keeps.record) <;> first | with_reducible rfl | skip)) | split
    | (rename_i h; have hs := congrArg Prod.snd h; dsimp only at hs; subst hs) | (dsimp only)

theorem execDebugUnlock_keeps (m : Sender) (params : List Byte) (s : State) : ∃ nxt, execDebugUnlock m params s = .next nxt ∧ Keeps s nxt := by
  have H := Keeps.refl s
  unfold execDebugUnlock
  refine ⟨_, rfl, ?_⟩
  repeat' first
    | (with_reducible assumption) | (intro) | (with_reducible apply State.message_keeps) | (with_reducible apply deny_keeps)
    | (with_reducible apply State.setDebug_keeps) | (with_reducible apply State.useChallenge_keeps)
    | (with_reducible apply State.withQuorum_keeps) | (with_reducible apply Keeps.ite2) | (with_reducible apply Keeps.ite)
    | (fail_if_no_progress ((with_reducible apply Keeps.record) <;> first | with_reducible rfl | skip)) | split
    | (rename_i h; have hs := congrArg Prod.snd h; dsimp only at hs; subst hs) | (dsimp only)

theorem execDebugLock_keeps (m : Sender) (params : List Byte) (s : State) : ∃ nxt, execDebugLock m params s = .next nxt ∧ Keeps s nxt := by
  have H := Keeps.refl s
  unfold execDebugLock
  refine ⟨_, rfl, ?_⟩
  repeat' first
    | (with_reducible assumption) | (intro) | (with_reducible apply State.message_keeps)
    | (with_reducible apply State.setDebug_keeps) | (with_reducible apply Keeps.ite2) | (with_reducible apply Keeps.ite)
    | (fail_if_no_progress ((with_reducible apply Keeps.record) <;> first | with_reducible rfl | skip)) | split | (dsimp only)

theorem execIdentify_keeps (f : Fn) (dmaFails : Bool) (s : State) : ∃ nxt, execIdentify f dmaFails s = .next nxt ∧ Keeps s nxt := by
  have H := Keeps.refl s
  unfold execIdentify
  refine ⟨_, rfl, ?_⟩
  repeat' first
    | (with_reducible assumption) | (intro) | (with_reducible apply State.admin_keeps)
    | (with_reducible apply State.admWrite_keeps) | (with_reducible apply Keeps.iteA) | (with_reducible apply Keeps.ite2)
    | (with_reducible apply Keeps.ite)
    | (fail_if_no_progress ((with_reducible apply Keeps.record) <;> first | with_reducible rfl | skip)) | split
    | (rename_i h; have hs := congrArg Prod.snd h; dsimp only at hs; subst hs) | (dsimp only [AdmEnd.state])

theorem execCreateCollection_keeps (f : Fn) (s : State) : ∃ nxt, execCreateCollection f s = .next nxt ∧ Keeps s nxt := by
  have H := Keeps.refl s
  unfold execCreateCollection
  refine ⟨_, rfl, ?_⟩
  repeat' first
    | (with_reducible assumption) | (intro) | (with_reducible apply State.admin_keeps) | (with_reducible apply AdmEnd.fail_keeps)
    | (with_reducible apply State.setColl_keeps) | (with_reducible apply AdmEnd.done_keeps)
    | (with_reducible apply State.journalColl_keeps) | (with_reducible apply State.newBinding_keeps)
    | (with_reducible apply Keeps.iteA) | (with_reducible apply Keeps.ite2) | (with_reducible apply Keeps.ite)
    | (fail_if_no_progress ((with_reducible apply Keeps.record) <;> first | with_reducible rfl | skip)) | split
    | (rename_i h; have hs := congrArg Prod.snd h; dsimp only at hs; subst hs) | (dsimp only [AdmEnd.state])

theorem execDeleteCollection_keeps (f : Fn) (s : State) : ∃ nxt, execDeleteCollection f s = .next nxt ∧ Keeps s nxt := by
  have H := Keeps.refl s
  unfold execDeleteCollection
  refine ⟨_, rfl, ?_⟩
  repeat' first
    | (with_reducible assumption) | (intro) | (with_reducible apply State.admin_keeps) | (with_reducible apply AdmEnd.fail_keeps)
    | (with_reducible apply State.setColl_keeps) | (with_reducible apply AdmEnd.done_keeps)
    | (with_reducible apply State.journalColl_keeps) | (with_reducible apply DocOk.docW) | (with_reducible apply DocOk.docE)
    | (with_reducible apply Keeps.iteA) | (with_reducible apply Keeps.ite2) | (with_reducible apply Keeps.ite)
    | (fail_if_no_progress ((with_reducible apply Keeps.record) <;> first | with_reducible rfl | skip)) | split
    | (rename_i h; have hs := congrArg Prod.snd h; dsimp only at hs; subst hs) | (dsimp only [AdmEnd.state])

theorem execSetCollectionLimits_keeps (f : Fn) (s : State) : ∃ nxt, execSetCollectionLimits f s = .next nxt ∧ Keeps s nxt := by
  have H := Keeps.refl s
  unfold execSetCollectionLimits
  refine ⟨_, rfl, ?_⟩
  repeat' first
    | (with_reducible assumption) | (intro) | (with_reducible apply State.admin_keeps) | (with_reducible apply AdmEnd.fail_keeps)
    | (with_reducible apply AdmEnd.done_keeps) | (with_reducible apply State.pumpAll_keeps)
    | (with_reducible apply State.markC0_keeps) | (with_reducible apply State.journalColl_keeps)
    | (with_reducible apply State.setColl_keeps) | (with_reducible apply Keeps.iteA) | (with_reducible apply Keeps.ite2)
    | (with_reducible apply Keeps.ite)
    | (fail_if_no_progress ((with_reducible apply Keeps.record) <;> first | with_reducible rfl | skip)) | split
    | (rename_i h; have hs := congrArg Prod.snd h; dsimp only at hs; subst hs) | (dsimp only [AdmEnd.state])

theorem execBindFunction_keeps (f : Fn) (s : State) : ∃ nxt, execBindFunction f s = .next nxt ∧ Keeps s nxt := by
  have H := Keeps.refl s
  unfold execBindFunction
  refine ⟨_, rfl, ?_⟩
  repeat' first
    | (with_reducible assumption) | (intro) | (with_reducible apply State.admin_keeps) | (with_reducible apply AdmEnd.fail_keeps)
    | (with_reducible apply AdmEnd.done_keeps) | (with_reducible apply State.journalColl_keeps)
    | (with_reducible apply State.modFn_keeps) | (with_reducible apply Keeps.iteA) | (with_reducible apply Keeps.ite2)
    | (with_reducible apply Keeps.ite)
    | (fail_if_no_progress ((with_reducible apply Keeps.record) <;> first | with_reducible rfl | skip)) | split
    | (rename_i h; have hs := congrArg Prod.snd h; dsimp only at hs; subst hs) | (dsimp only [AdmEnd.state])

theorem execUnbindFunction_keeps (f : Fn) (s : State) : ∃ nxt, execUnbindFunction f s = .next nxt ∧ Keeps s nxt := by
  have H := Keeps.refl s
  unfold execUnbindFunction
  refine ⟨_, rfl, ?_⟩
  repeat' first
    | (with_reducible assumption) | (intro) | (with_reducible apply State.admin_keeps) | (with_reducible apply AdmEnd.fail_keeps)
    | (with_reducible apply AdmEnd.done_keeps) | (with_reducible apply State.journalColl_keeps)
    | (with_reducible apply State.modFn_keeps) | (with_reducible apply Keeps.iteA) | (with_reducible apply Keeps.ite2)
    | (with_reducible apply Keeps.ite)
    | (fail_if_no_progress ((with_reducible apply Keeps.record) <;> first | with_reducible rfl | skip)) | split
    | (rename_i h; have hs := congrArg Prod.snd h; dsimp only at hs; subst hs) | (dsimp only [AdmEnd.state])

theorem execDeviceReset_keeps (f : Fn) (s : State) : ∃ nxt, execDeviceReset f s = .next nxt ∧ Keeps s nxt := by
  have H := Keeps.refl s
  unfold execDeviceReset
  refine ⟨_, rfl, ?_⟩
  repeat' first
    | (with_reducible assumption) | (intro) | (with_reducible apply State.orderedReset_keeps)
    | (with_reducible apply State.admin_keeps) | (with_reducible apply AdmEnd.fail_keeps) | (with_reducible apply Keeps.iteA)
    | (with_reducible apply Keeps.ite2) | (with_reducible apply Keeps.ite)
    | (fail_if_no_progress ((with_reducible apply Keeps.record) <;> first | with_reducible rfl | skip)) | split
    | (rename_i h; have hs := congrArg Prod.snd h; dsimp only at hs; subst hs) | (dsimp only [AdmEnd.state])

theorem execCreateQueue_keeps (f : Fn) (s : State) : ∃ nxt, execCreateQueue f s = .next nxt ∧ Keeps s nxt := by
  have H := Keeps.refl s
  unfold execCreateQueue
  refine ⟨_, rfl, ?_⟩
  repeat' first
    | (with_reducible assumption) | (intro) | (with_reducible apply State.admin_keeps) | (with_reducible apply AdmEnd.fail_keeps)
    | (with_reducible apply AdmEnd.done_keeps) | (with_reducible apply State.setQueue_keeps) | (with_reducible apply Keeps.iteA)
    | (with_reducible apply Keeps.ite2) | (with_reducible apply Keeps.ite)
    | (fail_if_no_progress ((with_reducible apply Keeps.record) <;> first | with_reducible rfl | skip)) | split
    | (rename_i h; have hs := congrArg Prod.snd h; dsimp only at hs; subst hs) | (dsimp only [AdmEnd.state])

theorem execDeleteQueue_keeps (f : Fn) (s : State) : ∃ nxt, execDeleteQueue f s = .next nxt ∧ Keeps s nxt := by
  have H := Keeps.refl s
  unfold execDeleteQueue
  refine ⟨_, rfl, ?_⟩
  repeat' first
    | (with_reducible assumption) | (intro) | (with_reducible apply State.admin_keeps) | (with_reducible apply AdmEnd.fail_keeps)
    | (with_reducible apply State.setQueue_keeps) | (with_reducible apply State.abortJobs_keeps)
    | (with_reducible apply State.removeQueue_keeps) | (with_reducible apply State.pumpAll_keeps)
    | (with_reducible apply Keeps.iteA) | (with_reducible apply Keeps.ite2) | (with_reducible apply Keeps.ite)
    | (fail_if_no_progress ((with_reducible apply Keeps.record) <;> first | with_reducible rfl | skip)) | split
    | (rename_i h; have hs := congrArg Prod.snd h; dsimp only at hs; subst hs) | (dsimp only [AdmEnd.state])

theorem execDeleteQueueDrainComplete_keeps (f : Fn) (q : Nat) (s : State) : ∃ nxt, execDeleteQueueDrainComplete f q s = .next nxt ∧ Keeps s nxt := by
  have H := Keeps.refl s
  unfold execDeleteQueueDrainComplete
  refine ⟨_, rfl, ?_⟩
  repeat' first
    | (with_reducible assumption) | (intro) | (with_reducible apply State.removeQueue_keeps)
    | (with_reducible apply State.admRecord_keeps) | (with_reducible apply Keeps.ite2) | (with_reducible apply Keeps.ite)
    | (fail_if_no_progress ((with_reducible apply Keeps.record) <;> first | with_reducible rfl | skip)) | split
    | (rename_i h; have hs := congrArg Prod.snd h; dsimp only at hs; subst hs) | (dsimp only)

theorem execSetModeration_keeps (f : Fn) (s : State) : ∃ nxt, execSetModeration f s = .next nxt ∧ Keeps s nxt := by
  have H := Keeps.refl s
  unfold execSetModeration
  refine ⟨_, rfl, ?_⟩
  repeat' first
    | (with_reducible assumption) | (intro) | (with_reducible apply State.admin_keeps) | (with_reducible apply AdmEnd.fail_keeps)
    | (with_reducible apply AdmEnd.done_keeps) | (with_reducible apply State.setQueue_keeps) | (with_reducible apply Keeps.iteA)
    | (with_reducible apply Keeps.ite2) | (with_reducible apply Keeps.ite)
    | (fail_if_no_progress ((with_reducible apply Keeps.record) <;> first | with_reducible rfl | skip)) | split
    | (rename_i h; have hs := congrArg Prod.snd h; dsimp only at hs; subst hs) | (dsimp only [AdmEnd.state])

theorem execGetQueueState_keeps (f : Fn) (dmaFails : Bool) (s : State) : ∃ nxt, execGetQueueState f dmaFails s = .next nxt ∧ Keeps s nxt := by
  have H := Keeps.refl s
  unfold execGetQueueState
  refine ⟨_, rfl, ?_⟩
  repeat' first
    | (with_reducible assumption) | (intro) | (with_reducible apply State.admin_keeps) | (with_reducible apply AdmEnd.fail_keeps)
    | (with_reducible apply State.admWrite_keeps) | (with_reducible apply Keeps.iteA) | (with_reducible apply Keeps.ite2)
    | (with_reducible apply Keeps.ite)
    | (fail_if_no_progress ((with_reducible apply Keeps.record) <;> first | with_reducible rfl | skip)) | split
    | (rename_i h; have hs := congrArg Prod.snd h; dsimp only at hs; subst hs) | (dsimp only [AdmEnd.state])

theorem execDoeSpdmRequest_keeps (w : Wing) (req : SpdmReq) (s : State) : ∃ nxt, execDoeSpdmRequest w req s = .next nxt ∧ Keeps s nxt := by
  have H := Keeps.refl s
  unfold execDoeSpdmRequest
  refine ⟨_, rfl, ?_⟩
  repeat' first
    | (with_reducible assumption) | (intro) | (with_reducible apply State.spdm_keeps) | (with_reducible apply Keeps.ite2)
    | (with_reducible apply Keeps.ite)
    | (fail_if_no_progress ((with_reducible apply Keeps.record) <;> first | with_reducible rfl | skip)) | split | (dsimp only)

theorem execGetMeasurements_keeps (via : SpdmVia) (index : Nat) (ask : MeasAsk) (s : State) : ∃ nxt, execGetMeasurements via index ask s = .next nxt ∧ Keeps s nxt := by
  have H := Keeps.refl s
  unfold execGetMeasurements
  refine ⟨_, rfl, ?_⟩
  repeat' first
    | (with_reducible assumption) | (intro) | (with_reducible apply State.spdmError_keeps)
    | (with_reducible apply State.measurements_keeps) | (with_reducible apply Keeps.ite2) | (with_reducible apply Keeps.ite)
    | (fail_if_no_progress ((with_reducible apply Keeps.record) <;> first | with_reducible rfl | skip)) | split | (dsimp only)

theorem execMctpControl_keeps (ep : Endpoint) (msg : List Byte) (s : State) : ∃ nxt, execMctpControl ep msg s = .next nxt ∧ Keeps s nxt := by
  have H := Keeps.refl s
  unfold execMctpControl
  refine ⟨_, rfl, ?_⟩
  repeat' first
    | (with_reducible assumption) | (intro) | (with_reducible apply State.mctp_keeps) | (with_reducible apply DocOk.docW)
    | (with_reducible apply DocOk.docE) | (with_reducible apply Keeps.ite2) | (with_reducible apply Keeps.ite)
    | (fail_if_no_progress ((with_reducible apply Keeps.record) <;> first | with_reducible rfl | skip)) | split | (dsimp only)

theorem execMctpSpdm_keeps (ep : Endpoint) (req : SpdmReq) (s : State) : ∃ nxt, execMctpSpdm ep req s = .next nxt ∧ Keeps s nxt := by
  have H := Keeps.refl s
  unfold execMctpSpdm
  refine ⟨_, rfl, ?_⟩
  repeat' first
    | (with_reducible assumption) | (intro) | (with_reducible apply State.spdm_keeps) | (with_reducible apply State.mctp_keeps)
    | (with_reducible apply Keeps.ite2) | (with_reducible apply Keeps.ite)
    | (fail_if_no_progress ((with_reducible apply Keeps.record) <;> first | with_reducible rfl | skip)) | split | (dsimp only)

theorem execMctpRegisterRead_keeps (ep : Endpoint) (f : Fn) (off : Nat) (s : State) : ∃ nxt, execMctpRegisterRead ep f off s = .next nxt ∧ Keeps s nxt := by
  have H := Keeps.refl s
  unfold execMctpRegisterRead
  refine ⟨_, rfl, ?_⟩
  repeat' first
    | (with_reducible assumption) | (intro) | (with_reducible apply State.mctp_keeps)
    | (with_reducible apply State.fstatReadClear_keeps) | (with_reducible apply Keeps.ite2) | (with_reducible apply Keeps.ite)
    | (fail_if_no_progress ((with_reducible apply Keeps.record) <;> first | with_reducible rfl | skip)) | split | (dsimp only)

theorem execMctpDeviceReset_keeps (ep : Endpoint) (s : State) : ∃ nxt, execMctpDeviceReset ep s = .next nxt ∧ Keeps s nxt := by
  have H := Keeps.refl s
  unfold execMctpDeviceReset
  refine ⟨_, rfl, ?_⟩
  repeat' first
    | (with_reducible assumption) | (intro) | (with_reducible apply State.orderedReset_keeps)
    | (with_reducible apply State.mctp_keeps) | (with_reducible apply Keeps.ite2) | (with_reducible apply Keeps.ite)
    | (fail_if_no_progress ((with_reducible apply Keeps.record) <;> first | with_reducible rfl | skip)) | split | (dsimp only)

theorem execDispatchDecision_keeps (w : Wing) (s : State) : ∃ nxt, execDispatchDecision w s = .next nxt ∧ Keeps s nxt := by
  have H := Keeps.refl s
  unfold execDispatchDecision
  refine ⟨_, rfl, ?_⟩
  repeat' first
    | (with_reducible assumption) | (intro) | (with_reducible apply State.dispatch_keeps) | (with_reducible apply Keeps.ite2)
    | (with_reducible apply Keeps.ite)
    | (fail_if_no_progress ((with_reducible apply Keeps.record) <;> first | with_reducible rfl | skip)) | split | (dsimp only)

theorem execEntryFetchComplete_keeps (f : Fn) (q : QSel) (entry : List Byte) (s : State) : ∃ nxt, execEntryFetchComplete f q entry s = .next nxt ∧ Keeps s nxt := by
  have H := Keeps.refl s
  unfold execEntryFetchComplete
  refine ⟨_, rfl, ?_⟩
  repeat' first
    | (with_reducible assumption) | (intro) | (with_reducible apply State.beginAdmin_keeps)
    | (with_reducible apply State.setQueue_keeps) | (with_reducible apply State.dispatch_keeps) | (with_reducible apply Keeps.ite2)
    | (with_reducible apply Keeps.ite)
    | (fail_if_no_progress ((with_reducible apply Keeps.record) <;> first | with_reducible rfl | skip)) | split | (dsimp only)

theorem execProgramStart_keeps (job : Nat) (fetch : ProgramFetch) (s : State) : ∃ nxt, execProgramStart job fetch s = .next nxt ∧ Keeps s nxt := by
  have H := Keeps.refl s
  unfold execProgramStart
  refine ⟨_, rfl, ?_⟩
  repeat' first
    | (with_reducible assumption) | (intro) | (with_reducible apply State.putJob_keeps)
    | (with_reducible apply State.latchEpoch_keeps) | (with_reducible apply State.endJob_keeps)
    | (with_reducible apply State.reloadSlot_keeps) | (with_reducible apply State.badProgram_keeps)
    | (with_reducible apply State.atBoundary_keeps) | (with_reducible apply Keeps.ite2) | (with_reducible apply Keeps.ite)
    | (fail_if_no_progress ((with_reducible apply Keeps.record) <;> first | with_reducible rfl | skip)) | split | (dsimp only)

theorem execCfgtxBegin_keeps (by_ : TxWriter) (s : State) : ∃ nxt, execCfgtxBegin by_ s = .next nxt ∧ Keeps s nxt := by
  have H := Keeps.refl s
  unfold execCfgtxBegin
  refine ⟨_, rfl, ?_⟩
  repeat' first
    | (with_reducible assumption) | (intro) | (with_reducible apply State.txControl_keeps)
    | (with_reducible apply State.txLocked_keeps) | (with_reducible apply DocOk.docW) | (with_reducible apply DocOk.docE)
    | (with_reducible apply Keeps.ite2) | (with_reducible apply Keeps.ite)
    | (fail_if_no_progress ((with_reducible apply Keeps.record) <;> first | with_reducible rfl | skip)) | split | (dsimp only)

theorem execCfgtxAbort_keeps (by_ : TxWriter) (s : State) : ∃ nxt, execCfgtxAbort by_ s = .next nxt ∧ Keeps s nxt := by
  have H := Keeps.refl s
  unfold execCfgtxAbort
  refine ⟨_, rfl, ?_⟩
  repeat' first
    | (with_reducible assumption) | (intro) | (with_reducible apply State.txControl_keeps)
    | (with_reducible apply State.txLocked_keeps) | (with_reducible apply State.abortTx_keeps) | (with_reducible apply Keeps.ite2)
    | (with_reducible apply Keeps.ite)
    | (fail_if_no_progress ((with_reducible apply Keeps.record) <;> first | with_reducible rfl | skip)) | split | (dsimp only)

theorem execCfgtxIdleExpiry_keeps (s : State) : ∃ nxt, execCfgtxIdleExpiry s = .next nxt ∧ Keeps s nxt := by
  have H := Keeps.refl s
  unfold execCfgtxIdleExpiry
  refine ⟨_, rfl, ?_⟩
  repeat' first
    | (with_reducible assumption) | (intro) | (with_reducible apply State.abortTx_keeps) | (with_reducible apply Keeps.ite2)
    | (with_reducible apply Keeps.ite)
    | (fail_if_no_progress ((with_reducible apply Keeps.record) <;> first | with_reducible rfl | skip)) | split | (dsimp only)

theorem execCfgtxCommit_keeps (by_ : TxWriter) (items : Option (List Byte)) (s : State) : ∃ nxt, execCfgtxCommit by_ items s = .next nxt ∧ Keeps s nxt := by
  have H := Keeps.refl s
  unfold execCfgtxCommit
  refine ⟨_, rfl, ?_⟩
  repeat' first
    | (with_reducible assumption) | (intro) | (with_reducible apply State.txControl_keeps)
    | (with_reducible apply State.txLocked_keeps) | (with_reducible apply State.failCommit_keeps)
    | (with_reducible apply State.drawBases_keeps) | (with_reducible apply State.pumpAll_keeps)
    | (with_reducible apply State.logProgram_keeps) | (with_reducible apply State.beginDrain_keeps)
    | (with_reducible apply Keeps.ite2) | (with_reducible apply Keeps.ite)
    | (fail_if_no_progress ((with_reducible apply Keeps.record) <;> first | with_reducible rfl | skip)) | split
    | (rename_i h; have hs := congrArg Prod.snd h; dsimp only at hs; subst hs) | (dsimp only)

theorem execCfgtxDrainTimeout_keeps (s : State) : ∃ nxt, execCfgtxDrainTimeout s = .next nxt ∧ Keeps s nxt := by
  have H := Keeps.refl s
  unfold execCfgtxDrainTimeout
  refine ⟨_, rfl, ?_⟩
  repeat' first
    | (with_reducible assumption) | (intro) | (with_reducible apply State.pumpAll_keeps)
    | (with_reducible apply State.failCommit_keeps) | (with_reducible apply Keeps.ite2) | (with_reducible apply Keeps.ite)
    | (fail_if_no_progress ((with_reducible apply Keeps.record) <;> first | with_reducible rfl | skip)) | split | (dsimp only)

theorem execCfgtxDrainComplete_keeps (s : State) : ∃ nxt, execCfgtxDrainComplete s = .next nxt ∧ Keeps s nxt := by
  have H := Keeps.refl s
  unfold execCfgtxDrainComplete
  refine ⟨_, rfl, ?_⟩
  repeat' first
    | (with_reducible assumption) | (intro) | (with_reducible apply State.switch_keeps) | (with_reducible apply DocOk.docW)
    | (with_reducible apply DocOk.docE) | (with_reducible apply Keeps.ite2) | (with_reducible apply Keeps.ite)
    | (fail_if_no_progress ((with_reducible apply Keeps.record) <;> first | with_reducible rfl | skip)) | split | (dsimp only)

theorem execHandoverBegin_keeps (m : Sender) (params : List Byte) (s : State) : ∃ nxt, execHandoverBegin m params s = .next nxt ∧ Keeps s nxt := by
  have H := Keeps.refl s
  unfold execHandoverBegin
  refine ⟨_, rfl, ?_⟩
  repeat' first
    | (with_reducible assumption) | (intro) | (with_reducible apply State.message_keeps) | (with_reducible apply deny_keeps)
    | (with_reducible apply State.beginHandover_keeps) | (with_reducible apply State.withQuorum_keeps)
    | (with_reducible apply Keeps.ite2) | (with_reducible apply Keeps.ite)
    | (fail_if_no_progress ((with_reducible apply Keeps.record) <;> first | with_reducible rfl | skip)) | split
    | (rename_i h; have hs := congrArg Prod.snd h; dsimp only at hs; subst hs) | (dsimp only)

theorem execHandoverStatus_keeps (m : Sender) (params : List Byte) (s : State) : ∃ nxt, execHandoverStatus m params s = .next nxt ∧ Keeps s nxt := by
  have H := Keeps.refl s
  unfold execHandoverStatus
  refine ⟨_, rfl, ?_⟩
  repeat' first
    | (with_reducible assumption) | (intro) | (with_reducible apply State.message_keeps) | (with_reducible apply Keeps.ite2)
    | (with_reducible apply Keeps.ite)
    | (fail_if_no_progress ((with_reducible apply Keeps.record) <;> first | with_reducible rfl | skip)) | split | (dsimp only)

theorem execHandoverPending_keeps (s : State) : ∃ nxt, execHandoverPending s = .next nxt ∧ Keeps s nxt := by
  have H := Keeps.refl s
  unfold execHandoverPending
  refine ⟨_, rfl, ?_⟩
  repeat' first
    | (with_reducible assumption) | (intro) | (with_reducible apply State.raiseAll_keeps)
    | (with_reducible apply State.markC0_keeps) | (with_reducible apply DocOk.docW) | (with_reducible apply DocOk.docE)
    | (with_reducible apply Keeps.ite2) | (with_reducible apply Keeps.ite)
    | (fail_if_no_progress ((with_reducible apply Keeps.record) <;> first | with_reducible rfl | skip)) | split | (dsimp only)

theorem execHandoverPauseStart_keeps (s : State) : ∃ nxt, execHandoverPauseStart s = .next nxt ∧ Keeps s nxt := by
  have H := Keeps.refl s
  unfold execHandoverPauseStart
  refine ⟨_, rfl, ?_⟩
  repeat' first
    | (with_reducible assumption) | (intro) | (with_reducible apply DocOk.docW) | (with_reducible apply DocOk.docE)
    | (with_reducible apply Keeps.ite2) | (with_reducible apply Keeps.ite)
    | (fail_if_no_progress ((with_reducible apply Keeps.record) <;> first | with_reducible rfl | skip)) | split | (dsimp only)

theorem execHandoverSwitch_keeps (startChecksPass : Bool) (s : State) : ∃ nxt, execHandoverSwitch startChecksPass s = .next nxt ∧ Keeps s nxt := by
  have H := Keeps.refl s
  unfold execHandoverSwitch
  refine ⟨_, rfl, ?_⟩
  repeat' first
    | (with_reducible assumption) | (intro) | (with_reducible apply State.takeOver_keeps)
    | (with_reducible apply State.abandonHandover_keeps) | (with_reducible apply State.pumpAll_keeps)
    | (with_reducible apply State.raiseAll_keeps) | (with_reducible apply Keeps.ite2) | (with_reducible apply Keeps.ite)
    | (fail_if_no_progress ((with_reducible apply Keeps.record) <;> first | with_reducible rfl | skip)) | split | (dsimp only)

theorem execAuRegisterWrite_keeps (w : Wing) (master : Nat) (unit : Nat) (off : Nat) (v : Word32) (s : State) : ∃ nxt, execAuRegisterWrite w master unit off v s = .next nxt ∧ Keeps s nxt := by
  have H := Keeps.refl s
  unfold execAuRegisterWrite
  refine ⟨_, rfl, ?_⟩
  repeat' first
    | (with_reducible assumption) | (intro) | (with_reducible apply State.violation_keeps)
    | (with_reducible apply State.auRegWrite_keeps) | (with_reducible apply Keeps.ite2) | (with_reducible apply Keeps.ite)
    | (fail_if_no_progress ((with_reducible apply Keeps.record) <;> first | with_reducible rfl | skip)) | split | (dsimp only)

theorem execAuVinfoClear_keeps (w : Wing) (master : Nat) (v : Word32) (s : State) : ∃ nxt, execAuVinfoClear w master v s = .next nxt ∧ Keeps s nxt := by
  have H := Keeps.refl s
  unfold execAuVinfoClear
  refine ⟨_, rfl, ?_⟩
  repeat' first
    | (with_reducible assumption) | (intro) | (with_reducible apply State.vinfoClear_keeps) | (with_reducible apply Keeps.ite2)
    | (with_reducible apply Keeps.ite)
    | (fail_if_no_progress ((with_reducible apply Keeps.record) <;> first | with_reducible rfl | skip)) | split | (dsimp only)

theorem execAuVcountRead_keeps (w : Wing) (master : Nat) (s : State) : ∃ nxt, execAuVcountRead w master s = .next nxt ∧ Keeps s nxt := by
  have H := Keeps.refl s
  unfold execAuVcountRead
  refine ⟨_, rfl, ?_⟩
  repeat' first
    | (with_reducible assumption) | (intro) | (with_reducible apply State.auRegRead_keeps) | (with_reducible apply Keeps.emit)
    | (with_reducible apply Keeps.ite2) | (with_reducible apply Keeps.ite)
    | (fail_if_no_progress ((with_reducible apply Keeps.record) <;> first | with_reducible rfl | skip)) | split
    | (rename_i h; have hs := congrArg Prod.snd h; dsimp only at hs; subst hs) | (dsimp only)

theorem execEvlogVinfoClear_keeps (f : Fn) (m : Nat) (v : Word32) (s : State) : ∃ nxt, execEvlogVinfoClear f m v s = .next nxt ∧ Keeps s nxt := by
  have H := Keeps.refl s
  unfold execEvlogVinfoClear
  refine ⟨_, rfl, ?_⟩
  repeat' first
    | (with_reducible assumption) | (intro) | (with_reducible apply State.mgmtWrite_keeps)
    | (with_reducible apply State.vinfoClear_keeps) | (with_reducible apply Keeps.ite2) | (with_reducible apply Keeps.ite)
    | (fail_if_no_progress ((with_reducible apply Keeps.record) <;> first | with_reducible rfl | skip)) | split | (dsimp only)

theorem execDqCtrlWrite_keeps (w : Wing) (core : Nat) (q : Nat) (off : Nat) (v : Word32) (s : State) : ∃ nxt, execDqCtrlWrite w core q off v s = .next nxt ∧ Keeps s nxt := by
  have H := Keeps.refl s
  unfold execDqCtrlWrite
  refine ⟨_, rfl, ?_⟩
  repeat' first
    | (with_reducible assumption) | (intro) | (with_reducible apply State.dqWrite_keeps) | (with_reducible apply Keeps.ite2)
    | (with_reducible apply Keeps.ite)
    | (fail_if_no_progress ((with_reducible apply Keeps.record) <;> first | with_reducible rfl | skip)) | split | (dsimp only)

theorem execDocentSqTailWrite_keeps (w : Wing) (core : Nat) (q : Nat) (user : Bool) (tail : BitVec 16) (s : State) : ∃ nxt, execDocentSqTailWrite w core q user tail s = .next nxt ∧ Keeps s nxt := by
  have H := Keeps.refl s
  unfold execDocentSqTailWrite
  refine ⟨_, rfl, ?_⟩
  repeat' first
    | (with_reducible assumption) | (intro) | (with_reducible apply State.setCsr_keeps) | (with_reducible apply State.dqTail_keeps)
    | (with_reducible apply Keeps.emit) | (with_reducible apply Keeps.ite2) | (with_reducible apply Keeps.ite)
    | (fail_if_no_progress ((with_reducible apply Keeps.record) <;> first | with_reducible rfl | skip)) | split | (dsimp only)

theorem execDocentCqHeadWrite_keeps (w : Wing) (core : Nat) (q : Nat) (user : Bool) (head : BitVec 16) (s : State) : ∃ nxt, execDocentCqHeadWrite w core q user head s = .next nxt ∧ Keeps s nxt := by
  have H := Keeps.refl s
  unfold execDocentCqHeadWrite
  refine ⟨_, rfl, ?_⟩
  repeat' first
    | (with_reducible assumption) | (intro) | (with_reducible apply State.setDocQueue_keeps) | (with_reducible apply Keeps.emit)
    | (with_reducible apply Keeps.ite2) | (with_reducible apply Keeps.ite)
    | (fail_if_no_progress ((with_reducible apply Keeps.record) <;> first | with_reducible rfl | skip)) | split | (dsimp only)

theorem execDocentClusterReset_keeps (w : Wing) (s : State) : ∃ nxt, execDocentClusterReset w s = .next nxt ∧ Keeps s nxt := by
  have H := Keeps.refl s
  unfold execDocentClusterReset
  refine ⟨_, rfl, ?_⟩
  repeat' first
    | (with_reducible assumption) | (intro) | (with_reducible apply State.docentReset_keeps) | (with_reducible apply Keeps.ite2)
    | (with_reducible apply Keeps.ite)
    | (fail_if_no_progress ((with_reducible apply Keeps.record) <;> first | with_reducible rfl | skip)) | split | (dsimp only)

theorem execDocentAccess_keeps (w : Wing) (core : Nat) (acc : Access) (gate : GateOutcome) (s : State) : ∃ nxt, execDocentAccess w core acc gate s = .next nxt ∧ Keeps s nxt := by
  have H := Keeps.refl s
  unfold execDocentAccess
  refine ⟨_, rfl, ?_⟩
  repeat' first
    | (with_reducible assumption) | (intro) | (with_reducible apply State.masterAccess_keeps) | (with_reducible apply Keeps.ite2)
    | (with_reducible apply Keeps.ite)
    | (fail_if_no_progress ((with_reducible apply Keeps.record) <;> first | with_reducible rfl | skip)) | split | (dsimp only)

theorem execDocentDmaBurst_keeps (w : Wing) (acc : Access) (gate : GateOutcome) (s : State) : ∃ nxt, execDocentDmaBurst w acc gate s = .next nxt ∧ Keeps s nxt := by
  have H := Keeps.refl s
  unfold execDocentDmaBurst
  refine ⟨_, rfl, ?_⟩
  repeat' first
    | (with_reducible assumption) | (intro) | (with_reducible apply State.masterAccess_keeps) | (with_reducible apply Keeps.ite2)
    | (with_reducible apply Keeps.ite)
    | (fail_if_no_progress ((with_reducible apply Keeps.record) <;> first | with_reducible rfl | skip)) | split | (dsimp only)

theorem execDebugPortAccess_keeps (w : Wing) (acc : Access) (gate : GateOutcome) (s : State) : ∃ nxt, execDebugPortAccess w acc gate s = .next nxt ∧ Keeps s nxt := by
  have H := Keeps.refl s
  unfold execDebugPortAccess
  refine ⟨_, rfl, ?_⟩
  repeat' first
    | (with_reducible assumption) | (intro) | (with_reducible apply State.masterAccess_keeps) | (with_reducible apply Keeps.ite2)
    | (with_reducible apply Keeps.ite)
    | (fail_if_no_progress ((with_reducible apply Keeps.record) <;> first | with_reducible rfl | skip)) | split | (dsimp only)

theorem execJtagInstruction_keeps (ins : JtagIns) (s : State) : ∃ nxt, execJtagInstruction ins s = .next nxt ∧ Keeps s nxt := by
  have H := Keeps.refl s
  unfold execJtagInstruction
  refine ⟨_, rfl, ?_⟩
  repeat' first
    | (with_reducible assumption) | (intro) | (with_reducible apply Keeps.emit) | (with_reducible apply Keeps.ite2)
    | (with_reducible apply Keeps.ite)
    | (fail_if_no_progress ((with_reducible apply Keeps.record) <;> first | with_reducible rfl | skip)) | split | (dsimp only)

theorem execReferenceMissing_keeps (die : Die) (src : ClockSource) (s : State) : ∃ nxt, execReferenceMissing die src s = .next nxt ∧ Keeps s nxt := by
  have H := Keeps.refl s
  unfold execReferenceMissing
  refine ⟨_, rfl, ?_⟩
  repeat' first
    | (with_reducible assumption) | (intro) | (with_reducible apply State.refFailed_keeps) | (with_reducible apply Keeps.ite2)
    | (with_reducible apply Keeps.ite)
    | (fail_if_no_progress ((with_reducible apply Keeps.record) <;> first | with_reducible rfl | skip)) | split | (dsimp only)

theorem execFrequencyWindow_keeps (die : Die) (win : ClockWindow) (s : State) : ∃ nxt, execFrequencyWindow die win s = .next nxt ∧ Keeps s nxt := by
  have H := Keeps.refl s
  unfold execFrequencyWindow
  refine ⟨_, rfl, ?_⟩
  repeat' first
    | (with_reducible assumption) | (intro) | (with_reducible apply State.checkRef_keeps)
    | (with_reducible apply State.sensorTrip_keeps) | (with_reducible apply Keeps.ite2) | (with_reducible apply Keeps.ite)
    | (fail_if_no_progress ((with_reducible apply Keeps.record) <;> first | with_reducible rfl | skip)) | split | (dsimp only)

theorem execXtalStartDelayExpiry_keeps (die : Die) (s : State) : ∃ nxt, execXtalStartDelayExpiry die s = .next nxt ∧ Keeps s nxt := by
  have H := Keeps.refl s
  unfold execXtalStartDelayExpiry
  refine ⟨_, rfl, ?_⟩
  repeat' first
    | (with_reducible assumption) | (intro) | (with_reducible apply State.setClockDie_keeps) | (with_reducible apply Keeps.ite2)
    | (with_reducible apply Keeps.ite)
    | (fail_if_no_progress ((with_reducible apply Keeps.record) <;> first | with_reducible rfl | skip)) | split | (dsimp only)

theorem execClockSwitch_keeps (die : Die) (dest : ClockSource) (forced : Bool) (s : State) : ∃ nxt, execClockSwitch die dest forced s = .next nxt ∧ Keeps s nxt := by
  have H := Keeps.refl s
  unfold execClockSwitch
  refine ⟨_, rfl, ?_⟩
  repeat' first
    | (with_reducible assumption) | (intro) | (with_reducible apply State.switchDie_keeps) | (with_reducible apply Keeps.ite2)
    | (with_reducible apply Keeps.ite)
    | (fail_if_no_progress ((with_reducible apply Keeps.record) <;> first | with_reducible rfl | skip)) | split | (dsimp only)

theorem execPllLock_keeps (die : Die) (pauseUs : Nat) (s : State) : ∃ nxt, execPllLock die pauseUs s = .next nxt ∧ Keeps s nxt := by
  have H := Keeps.refl s
  unfold execPllLock
  refine ⟨_, rfl, ?_⟩
  repeat' first
    | (with_reducible assumption) | (intro) | (with_reducible apply State.setClockDie_keeps) | (with_reducible apply DocOk.docW)
    | (with_reducible apply DocOk.docE) | (with_reducible apply Keeps.ite2) | (with_reducible apply Keeps.ite)
    | (fail_if_no_progress ((with_reducible apply Keeps.record) <;> first | with_reducible rfl | skip)) | split | (dsimp only)

theorem execClkpwrRevert_keeps (f : Fn) (s : State) : ∃ nxt, execClkpwrRevert f s = .next nxt ∧ Keeps s nxt := by
  have H := Keeps.refl s
  unfold execClkpwrRevert
  refine ⟨_, rfl, ?_⟩
  repeat' first
    | (with_reducible assumption) | (intro) | (with_reducible apply State.mgmtWrite_keeps)
    | (with_reducible apply State.revertDie_keeps) | (with_reducible apply Keeps.ite2) | (with_reducible apply Keeps.ite)
    | (fail_if_no_progress ((with_reducible apply Keeps.record) <;> first | with_reducible rfl | skip)) | split | (dsimp only)

theorem execAutoRevert_keeps (die : Die) (s : State) : ∃ nxt, execAutoRevert die s = .next nxt ∧ Keeps s nxt := by
  have H := Keeps.refl s
  unfold execAutoRevert
  refine ⟨_, rfl, ?_⟩
  repeat' first
    | (with_reducible assumption) | (intro) | (with_reducible apply State.revertDie_keeps) | (with_reducible apply Keeps.ite2)
    | (with_reducible apply Keeps.ite)
    | (fail_if_no_progress ((with_reducible apply Keeps.record) <;> first | with_reducible rfl | skip)) | split | (dsimp only)

theorem execWingIdleEntry_keeps (w : Wing) (s : State) : ∃ nxt, execWingIdleEntry w s = .next nxt ∧ Keeps s nxt := by
  have H := Keeps.refl s
  unfold execWingIdleEntry
  refine ⟨_, rfl, ?_⟩
  repeat' first
    | (with_reducible assumption) | (intro) | (with_reducible apply State.setIdle_keeps) | (with_reducible apply DocOk.docW)
    | (with_reducible apply DocOk.docE) | (with_reducible apply Keeps.ite2) | (with_reducible apply Keeps.ite)
    | (fail_if_no_progress ((with_reducible apply Keeps.record) <;> first | with_reducible rfl | skip)) | split | (dsimp only)

theorem execStandbyRequest_keeps (f : Fn) (s : State) : ∃ nxt, execStandbyRequest f s = .next nxt ∧ Keeps s nxt := by
  have H := Keeps.refl s
  unfold execStandbyRequest
  refine ⟨_, rfl, ?_⟩
  repeat' first
    | (with_reducible assumption) | (intro) | (with_reducible apply State.pstateWrite_keeps)
    | (with_reducible apply State.setPstat_keeps) | (with_reducible apply State.setPstate_keeps)
    | (with_reducible apply Keeps.ite2) | (with_reducible apply Keeps.ite)
    | (fail_if_no_progress ((with_reducible apply Keeps.record) <;> first | with_reducible rfl | skip)) | split | (dsimp only)

theorem execStandbyDrainTimeout_keeps (s : State) : ∃ nxt, execStandbyDrainTimeout s = .next nxt ∧ Keeps s nxt := by
  have H := Keeps.refl s
  unfold execStandbyDrainTimeout
  refine ⟨_, rfl, ?_⟩
  repeat' first
    | (with_reducible assumption) | (intro) | (with_reducible apply State.setPstat_keeps) | (with_reducible apply Keeps.ite2)
    | (with_reducible apply Keeps.ite)
    | (fail_if_no_progress ((with_reducible apply Keeps.record) <;> first | with_reducible rfl | skip)) | split | (dsimp only)

theorem execStandbyEntry_keeps (s : State) : ∃ nxt, execStandbyEntry s = .next nxt ∧ Keeps s nxt := by
  have H := Keeps.refl s
  unfold execStandbyEntry
  refine ⟨_, rfl, ?_⟩
  repeat' first
    | (with_reducible assumption) | (intro) | (with_reducible apply State.setPstat_keeps)
    | (with_reducible apply State.enterStandby_keeps) | (with_reducible apply Keeps.ite2) | (with_reducible apply Keeps.ite)
    | (fail_if_no_progress ((with_reducible apply Keeps.record) <;> first | with_reducible rfl | skip)) | split | (dsimp only)

theorem execActiveRequest_keeps (f : Fn) (s : State) : ∃ nxt, execActiveRequest f s = .next nxt ∧ Keeps s nxt := by
  have H := Keeps.refl s
  unfold execActiveRequest
  refine ⟨_, rfl, ?_⟩
  repeat' first
    | (with_reducible assumption) | (intro) | (with_reducible apply State.pstateWrite_keeps)
    | (with_reducible apply State.wake_keeps) | (with_reducible apply State.setPstat_keeps) | (with_reducible apply Keeps.ite2)
    | (with_reducible apply Keeps.ite)
    | (fail_if_no_progress ((with_reducible apply Keeps.record) <;> first | with_reducible rfl | skip)) | split | (dsimp only)

theorem execPowerEstimate_keeps (mw10 : Nat) (s : State) : ∃ nxt, execPowerEstimate mw10 s = .next nxt ∧ Keeps s nxt := by
  have H := Keeps.refl s
  unfold execPowerEstimate
  refine ⟨_, rfl, ?_⟩
  repeat' first
    | (with_reducible assumption) | (intro) | (with_reducible apply DocOk.docW) | (with_reducible apply DocOk.docE)
    | (with_reducible apply Keeps.ite2) | (with_reducible apply Keeps.ite)
    | (fail_if_no_progress ((with_reducible apply Keeps.record) <;> first | with_reducible rfl | skip)) | split | (dsimp only)

theorem execThermalSample_keeps (west : Int) (east : Int) (curator : Int) (s : State) : ∃ nxt, execThermalSample west east curator s = .next nxt ∧ Keeps s nxt := by
  have H := Keeps.refl s
  unfold execThermalSample
  refine ⟨_, rfl, ?_⟩
  repeat' first
    | (with_reducible assumption) | (intro) | (with_reducible apply State.enterThermalHold_keeps)
    | (with_reducible apply DocOk.docW) | (with_reducible apply DocOk.docE) | (with_reducible apply Keeps.ite2)
    | (with_reducible apply Keeps.ite)
    | (fail_if_no_progress ((with_reducible apply Keeps.record) <;> first | with_reducible rfl | skip)) | split | (dsimp only)

theorem execThermalThrottleStep_keeps (s : State) : ∃ nxt, execThermalThrottleStep s = .next nxt ∧ Keeps s nxt := by
  have H := Keeps.refl s
  unfold execThermalThrottleStep
  refine ⟨_, rfl, ?_⟩
  repeat' first
    | (with_reducible assumption) | (intro) | (with_reducible apply DocOk.docW) | (with_reducible apply DocOk.docE)
    | (with_reducible apply Keeps.ite2) | (with_reducible apply Keeps.ite)
    | (fail_if_no_progress ((with_reducible apply Keeps.record) <;> first | with_reducible rfl | skip)) | split | (dsimp only)

theorem execClkpwrCapWrite_keeps (f : Fn) (v : Word32) (s : State) : ∃ nxt, execClkpwrCapWrite f v s = .next nxt ∧ Keeps s nxt := by
  have H := Keeps.refl s
  unfold execClkpwrCapWrite
  refine ⟨_, rfl, ?_⟩
  repeat' first
    | (with_reducible assumption) | (intro) | (with_reducible apply State.mgmtWrite_keeps) | (with_reducible apply DocOk.docW)
    | (with_reducible apply DocOk.docE) | (with_reducible apply Keeps.ite2) | (with_reducible apply Keeps.ite)
    | (fail_if_no_progress ((with_reducible apply Keeps.record) <;> first | with_reducible rfl | skip)) | split | (dsimp only)

theorem execClkpwrSwitchesRead_keeps (f : Fn) (s : State) : ∃ nxt, execClkpwrSwitchesRead f s = .next nxt ∧ Keeps s nxt := by
  have H := Keeps.refl s
  unfold execClkpwrSwitchesRead
  refine ⟨_, rfl, ?_⟩
  repeat' first
    | (with_reducible assumption) | (intro) | (with_reducible apply State.clearRead_keeps) | (with_reducible apply DocOk.docW)
    | (with_reducible apply DocOk.docE) | (with_reducible apply Keeps.ite2) | (with_reducible apply Keeps.ite)
    | (fail_if_no_progress ((with_reducible apply Keeps.record) <;> first | with_reducible rfl | skip)) | split | (dsimp only)

theorem execClkpwrRtcSet_keeps (f : Fn) (v : Word32) (s : State) : ∃ nxt, execClkpwrRtcSet f v s = .next nxt ∧ Keeps s nxt := by
  have H := Keeps.refl s
  unfold execClkpwrRtcSet
  refine ⟨_, rfl, ?_⟩
  repeat' first
    | (with_reducible assumption) | (intro) | (with_reducible apply State.mgmtWrite_keeps)
    | (with_reducible apply State.regError_keeps) | (with_reducible apply State.setRtc_keeps) | (with_reducible apply DocOk.docW)
    | (with_reducible apply DocOk.docE) | (with_reducible apply Keeps.ite2) | (with_reducible apply Keeps.ite)
    | (fail_if_no_progress ((with_reducible apply Keeps.record) <;> first | with_reducible rfl | skip)) | split | (dsimp only)

theorem execClkpwrRtcSlew_keeps (f : Fn) (v : Word32) (s : State) : ∃ nxt, execClkpwrRtcSlew f v s = .next nxt ∧ Keeps s nxt := by
  have H := Keeps.refl s
  unfold execClkpwrRtcSlew
  refine ⟨_, rfl, ?_⟩
  repeat' first
    | (with_reducible assumption) | (intro) | (with_reducible apply State.mgmtWrite_keeps)
    | (with_reducible apply State.regError_keeps) | (with_reducible apply State.setRtc_keeps) | (with_reducible apply DocOk.docW)
    | (with_reducible apply DocOk.docE) | (with_reducible apply Keeps.ite2) | (with_reducible apply Keeps.ite)
    | (fail_if_no_progress ((with_reducible apply Keeps.record) <;> first | with_reducible rfl | skip)) | split | (dsimp only)

theorem execAvsVoltageWrite_keeps (w : Wing) (millivolt : Nat) (answer : AvsAnswer) (s : State) : ∃ nxt, execAvsVoltageWrite w millivolt answer s = .next nxt ∧ Keeps s nxt := by
  have H := Keeps.refl s
  unfold execAvsVoltageWrite
  refine ⟨_, rfl, ?_⟩
  repeat' first
    | (with_reducible assumption) | (intro) | (with_reducible apply State.setAvs_keeps) | (with_reducible apply Keeps.emit)
    | (with_reducible apply Keeps.log) | (with_reducible apply Keeps.ite2) | (with_reducible apply Keeps.ite)
    | (fail_if_no_progress ((with_reducible apply Keeps.record) <;> first | with_reducible rfl | skip)) | split | (dsimp only)

theorem execGpioWrite_keeps (w : Wing) (out : BitVec 8) (oe : BitVec 8) (s : State) : ∃ nxt, execGpioWrite w out oe s = .next nxt ∧ Keeps s nxt := by
  have H := Keeps.refl s
  unfold execGpioWrite
  refine ⟨_, rfl, ?_⟩
  repeat' first
    | (with_reducible assumption) | (intro) | (with_reducible apply Keeps.setDocOk) | (with_reducible apply DocOk.doc)
    | (fail_if_no_progress (with_reducible apply DocOk.record)) | (with_reducible apply Keeps.ite2)
    | (with_reducible apply Keeps.ite)
    | (fail_if_no_progress ((with_reducible apply Keeps.record) <;> first | with_reducible rfl | skip)) | split | (dsimp only)

theorem execGpioEdge_keeps (w : Wing) (pin : Nat) (rising : Bool) (s : State) : ∃ nxt, execGpioEdge w pin rising s = .next nxt ∧ Keeps s nxt := by
  have H := Keeps.refl s
  unfold execGpioEdge
  refine ⟨_, rfl, ?_⟩
  repeat' first
    | (with_reducible assumption) | (intro) | (with_reducible apply Keeps.setDocOk) | (with_reducible apply DocOk.doc)
    | (fail_if_no_progress (with_reducible apply DocOk.record)) | (with_reducible apply Keeps.ite2)
    | (with_reducible apply Keeps.ite)
    | (fail_if_no_progress ((with_reducible apply Keeps.record) <;> first | with_reducible rfl | skip)) | split | (dsimp only)

theorem execGpioIrqClear_keeps (w : Wing) (v : Word32) (s : State) : ∃ nxt, execGpioIrqClear w v s = .next nxt ∧ Keeps s nxt := by
  have H := Keeps.refl s
  unfold execGpioIrqClear
  refine ⟨_, rfl, ?_⟩
  repeat' first
    | (with_reducible assumption) | (intro) | (with_reducible apply Keeps.setDocOk) | (with_reducible apply DocOk.doc)
    | (fail_if_no_progress (with_reducible apply DocOk.record)) | (with_reducible apply Keeps.ite2)
    | (with_reducible apply Keeps.ite)
    | (fail_if_no_progress ((with_reducible apply Keeps.record) <;> first | with_reducible rfl | skip)) | split | (dsimp only)

theorem execTimerCompare_keeps (w : Wing) (k : Nat) (s : State) : ∃ nxt, execTimerCompare w k s = .next nxt ∧ Keeps s nxt := by
  have H := Keeps.refl s
  unfold execTimerCompare
  refine ⟨_, rfl, ?_⟩
  repeat' first
    | (with_reducible assumption) | (intro) | (with_reducible apply Keeps.setDocOk) | (with_reducible apply DocOk.doc)
    | (fail_if_no_progress (with_reducible apply DocOk.record)) | (with_reducible apply Keeps.ite2)
    | (with_reducible apply Keeps.ite)
    | (fail_if_no_progress ((with_reducible apply Keeps.record) <;> first | with_reducible rfl | skip)) | split | (dsimp only)

theorem execRtcCompare_keeps (w : Wing) (s : State) : ∃ nxt, execRtcCompare w s = .next nxt ∧ Keeps s nxt := by
  have H := Keeps.refl s
  unfold execRtcCompare
  refine ⟨_, rfl, ?_⟩
  repeat' first
    | (with_reducible assumption) | (intro) | (with_reducible apply Keeps.setDocOk) | (with_reducible apply DocOk.doc)
    | (fail_if_no_progress (with_reducible apply DocOk.record)) | (with_reducible apply Keeps.ite2)
    | (with_reducible apply Keeps.ite)
    | (fail_if_no_progress ((with_reducible apply Keeps.record) <;> first | with_reducible rfl | skip)) | split | (dsimp only)

theorem execLinkPowerStateChange_keeps (w : Wing) (dest : LinkPower) (s : State) : ∃ nxt, execLinkPowerStateChange w dest s = .next nxt ∧ Keeps s nxt := by
  have H := Keeps.refl s
  unfold execLinkPowerStateChange
  refine ⟨_, rfl, ?_⟩
  repeat' first
    | (with_reducible assumption) | (intro) | (with_reducible apply State.setPort_keeps) | (with_reducible apply Keeps.ite2)
    | (with_reducible apply Keeps.ite)
    | (fail_if_no_progress ((with_reducible apply Keeps.record) <;> first | with_reducible rfl | skip)) | split | (dsimp only)

theorem execMlkemKeygen_keeps (job : Nat) (s : State) : ∃ nxt, execMlkemKeygen job s = .next nxt ∧ Keeps s nxt := by
  have H := Keeps.refl s
  unfold execMlkemKeygen
  refine ⟨_, rfl, ?_⟩
  repeat' first
    | (with_reducible assumption) | (intro) | (with_reducible apply State.beginFn_keeps) | (with_reducible apply Keeps.ite2)
    | (with_reducible apply Keeps.ite)
    | (fail_if_no_progress ((with_reducible apply Keeps.record) <;> first | with_reducible rfl | skip)) | split | (dsimp only)

theorem execMlkemEncaps_keeps (job : Nat) (s : State) : ∃ nxt, execMlkemEncaps job s = .next nxt ∧ Keeps s nxt := by
  have H := Keeps.refl s
  unfold execMlkemEncaps
  refine ⟨_, rfl, ?_⟩
  repeat' first
    | (with_reducible assumption) | (intro) | (with_reducible apply State.beginFn_keeps) | (with_reducible apply Keeps.ite2)
    | (with_reducible apply Keeps.ite)
    | (fail_if_no_progress ((with_reducible apply Keeps.record) <;> first | with_reducible rfl | skip)) | split | (dsimp only)

theorem execMlkemDecaps_keeps (job : Nat) (s : State) : ∃ nxt, execMlkemDecaps job s = .next nxt ∧ Keeps s nxt := by
  have H := Keeps.refl s
  unfold execMlkemDecaps
  refine ⟨_, rfl, ?_⟩
  repeat' first
    | (with_reducible assumption) | (intro) | (with_reducible apply State.beginFn_keeps) | (with_reducible apply Keeps.ite2)
    | (with_reducible apply Keeps.ite)
    | (fail_if_no_progress ((with_reducible apply Keeps.record) <;> first | with_reducible rfl | skip)) | split | (dsimp only)

theorem execMlkemEncapsk_keeps (job : Nat) (s : State) : ∃ nxt, execMlkemEncapsk job s = .next nxt ∧ Keeps s nxt := by
  have H := Keeps.refl s
  unfold execMlkemEncapsk
  refine ⟨_, rfl, ?_⟩
  repeat' first
    | (with_reducible assumption) | (intro) | (with_reducible apply State.beginFn_keeps) | (with_reducible apply Keeps.ite2)
    | (with_reducible apply Keeps.ite)
    | (fail_if_no_progress ((with_reducible apply Keeps.record) <;> first | with_reducible rfl | skip)) | split | (dsimp only)

theorem execMlkemExportek_keeps (job : Nat) (s : State) : ∃ nxt, execMlkemExportek job s = .next nxt ∧ Keeps s nxt := by
  have H := Keeps.refl s
  unfold execMlkemExportek
  refine ⟨_, rfl, ?_⟩
  repeat' first
    | (with_reducible assumption) | (intro) | (with_reducible apply State.beginFn_keeps) | (with_reducible apply Keeps.ite2)
    | (with_reducible apply Keeps.ite)
    | (fail_if_no_progress ((with_reducible apply Keeps.record) <;> first | with_reducible rfl | skip)) | split | (dsimp only)

theorem execMlkemImportek_keeps (job : Nat) (s : State) : ∃ nxt, execMlkemImportek job s = .next nxt ∧ Keeps s nxt := by
  have H := Keeps.refl s
  unfold execMlkemImportek
  refine ⟨_, rfl, ?_⟩
  repeat' first
    | (with_reducible assumption) | (intro) | (with_reducible apply State.beginFn_keeps) | (with_reducible apply Keeps.ite2)
    | (with_reducible apply Keeps.ite)
    | (fail_if_no_progress ((with_reducible apply Keeps.record) <;> first | with_reducible rfl | skip)) | split | (dsimp only)

theorem execMldsaKeygen_keeps (job : Nat) (s : State) : ∃ nxt, execMldsaKeygen job s = .next nxt ∧ Keeps s nxt := by
  have H := Keeps.refl s
  unfold execMldsaKeygen
  refine ⟨_, rfl, ?_⟩
  repeat' first
    | (with_reducible assumption) | (intro) | (with_reducible apply State.beginFn_keeps) | (with_reducible apply Keeps.ite2)
    | (with_reducible apply Keeps.ite)
    | (fail_if_no_progress ((with_reducible apply Keeps.record) <;> first | with_reducible rfl | skip)) | split | (dsimp only)

theorem execMldsaSign_keeps (job : Nat) (s : State) : ∃ nxt, execMldsaSign job s = .next nxt ∧ Keeps s nxt := by
  have H := Keeps.refl s
  unfold execMldsaSign
  refine ⟨_, rfl, ?_⟩
  repeat' first
    | (with_reducible assumption) | (intro) | (with_reducible apply State.beginFn_keeps) | (with_reducible apply Keeps.ite2)
    | (with_reducible apply Keeps.ite)
    | (fail_if_no_progress ((with_reducible apply Keeps.record) <;> first | with_reducible rfl | skip)) | split | (dsimp only)

theorem execMldsaVerify_keeps (job : Nat) (s : State) : ∃ nxt, execMldsaVerify job s = .next nxt ∧ Keeps s nxt := by
  have H := Keeps.refl s
  unfold execMldsaVerify
  refine ⟨_, rfl, ?_⟩
  repeat' first
    | (with_reducible assumption) | (intro) | (with_reducible apply State.beginFn_keeps) | (with_reducible apply Keeps.ite2)
    | (with_reducible apply Keeps.ite)
    | (fail_if_no_progress ((with_reducible apply Keeps.record) <;> first | with_reducible rfl | skip)) | split | (dsimp only)

theorem execMldsaVerifyx_keeps (job : Nat) (s : State) : ∃ nxt, execMldsaVerifyx job s = .next nxt ∧ Keeps s nxt := by
  have H := Keeps.refl s
  unfold execMldsaVerifyx
  refine ⟨_, rfl, ?_⟩
  repeat' first
    | (with_reducible assumption) | (intro) | (with_reducible apply State.beginFn_keeps) | (with_reducible apply Keeps.ite2)
    | (with_reducible apply Keeps.ite)
    | (fail_if_no_progress ((with_reducible apply Keeps.record) <;> first | with_reducible rfl | skip)) | split | (dsimp only)

theorem execMldsaExportpk_keeps (job : Nat) (s : State) : ∃ nxt, execMldsaExportpk job s = .next nxt ∧ Keeps s nxt := by
  have H := Keeps.refl s
  unfold execMldsaExportpk
  refine ⟨_, rfl, ?_⟩
  repeat' first
    | (with_reducible assumption) | (intro) | (with_reducible apply State.beginFn_keeps) | (with_reducible apply Keeps.ite2)
    | (with_reducible apply Keeps.ite)
    | (fail_if_no_progress ((with_reducible apply Keeps.record) <;> first | with_reducible rfl | skip)) | split | (dsimp only)

theorem execMldsaImportpk_keeps (job : Nat) (s : State) : ∃ nxt, execMldsaImportpk job s = .next nxt ∧ Keeps s nxt := by
  have H := Keeps.refl s
  unfold execMldsaImportpk
  refine ⟨_, rfl, ?_⟩
  repeat' first
    | (with_reducible assumption) | (intro) | (with_reducible apply State.beginFn_keeps) | (with_reducible apply Keeps.ite2)
    | (with_reducible apply Keeps.ite)
    | (fail_if_no_progress ((with_reducible apply Keeps.record) <;> first | with_reducible rfl | skip)) | split | (dsimp only)

theorem execFndsaKeygen_keeps (job : Nat) (s : State) : ∃ nxt, execFndsaKeygen job s = .next nxt ∧ Keeps s nxt := by
  have H := Keeps.refl s
  unfold execFndsaKeygen
  refine ⟨_, rfl, ?_⟩
  repeat' first
    | (with_reducible assumption) | (intro) | (with_reducible apply State.beginFn_keeps) | (with_reducible apply Keeps.ite2)
    | (with_reducible apply Keeps.ite)
    | (fail_if_no_progress ((with_reducible apply Keeps.record) <;> first | with_reducible rfl | skip)) | split | (dsimp only)

theorem execFndsaSign_keeps (job : Nat) (s : State) : ∃ nxt, execFndsaSign job s = .next nxt ∧ Keeps s nxt := by
  have H := Keeps.refl s
  unfold execFndsaSign
  refine ⟨_, rfl, ?_⟩
  repeat' first
    | (with_reducible assumption) | (intro) | (with_reducible apply State.beginFn_keeps) | (with_reducible apply Keeps.ite2)
    | (with_reducible apply Keeps.ite)
    | (fail_if_no_progress ((with_reducible apply Keeps.record) <;> first | with_reducible rfl | skip)) | split | (dsimp only)

theorem execFndsaVerify_keeps (job : Nat) (s : State) : ∃ nxt, execFndsaVerify job s = .next nxt ∧ Keeps s nxt := by
  have H := Keeps.refl s
  unfold execFndsaVerify
  refine ⟨_, rfl, ?_⟩
  repeat' first
    | (with_reducible assumption) | (intro) | (with_reducible apply State.beginFn_keeps) | (with_reducible apply Keeps.ite2)
    | (with_reducible apply Keeps.ite)
    | (fail_if_no_progress ((with_reducible apply Keeps.record) <;> first | with_reducible rfl | skip)) | split | (dsimp only)

theorem execFndsaVerifyx_keeps (job : Nat) (s : State) : ∃ nxt, execFndsaVerifyx job s = .next nxt ∧ Keeps s nxt := by
  have H := Keeps.refl s
  unfold execFndsaVerifyx
  refine ⟨_, rfl, ?_⟩
  repeat' first
    | (with_reducible assumption) | (intro) | (with_reducible apply State.beginFn_keeps) | (with_reducible apply Keeps.ite2)
    | (with_reducible apply Keeps.ite)
    | (fail_if_no_progress ((with_reducible apply Keeps.record) <;> first | with_reducible rfl | skip)) | split | (dsimp only)

theorem execFndsaExportpk_keeps (job : Nat) (s : State) : ∃ nxt, execFndsaExportpk job s = .next nxt ∧ Keeps s nxt := by
  have H := Keeps.refl s
  unfold execFndsaExportpk
  refine ⟨_, rfl, ?_⟩
  repeat' first
    | (with_reducible assumption) | (intro) | (with_reducible apply State.beginFn_keeps) | (with_reducible apply Keeps.ite2)
    | (with_reducible apply Keeps.ite)
    | (fail_if_no_progress ((with_reducible apply Keeps.record) <;> first | with_reducible rfl | skip)) | split | (dsimp only)

theorem execFndsaImportpk_keeps (job : Nat) (s : State) : ∃ nxt, execFndsaImportpk job s = .next nxt ∧ Keeps s nxt := by
  have H := Keeps.refl s
  unfold execFndsaImportpk
  refine ⟨_, rfl, ?_⟩
  repeat' first
    | (with_reducible assumption) | (intro) | (with_reducible apply State.beginFn_keeps) | (with_reducible apply Keeps.ite2)
    | (with_reducible apply Keeps.ite)
    | (fail_if_no_progress ((with_reducible apply Keeps.record) <;> first | with_reducible rfl | skip)) | split | (dsimp only)

theorem execSlhdsaKeygen_keeps (job : Nat) (s : State) : ∃ nxt, execSlhdsaKeygen job s = .next nxt ∧ Keeps s nxt := by
  have H := Keeps.refl s
  unfold execSlhdsaKeygen
  refine ⟨_, rfl, ?_⟩
  repeat' first
    | (with_reducible assumption) | (intro) | (with_reducible apply State.beginFn_keeps) | (with_reducible apply Keeps.ite2)
    | (with_reducible apply Keeps.ite)
    | (fail_if_no_progress ((with_reducible apply Keeps.record) <;> first | with_reducible rfl | skip)) | split | (dsimp only)

theorem execSlhdsaSign_keeps (job : Nat) (s : State) : ∃ nxt, execSlhdsaSign job s = .next nxt ∧ Keeps s nxt := by
  have H := Keeps.refl s
  unfold execSlhdsaSign
  refine ⟨_, rfl, ?_⟩
  repeat' first
    | (with_reducible assumption) | (intro) | (with_reducible apply State.beginFn_keeps) | (with_reducible apply Keeps.ite2)
    | (with_reducible apply Keeps.ite)
    | (fail_if_no_progress ((with_reducible apply Keeps.record) <;> first | with_reducible rfl | skip)) | split | (dsimp only)

theorem execSlhdsaVerify_keeps (job : Nat) (s : State) : ∃ nxt, execSlhdsaVerify job s = .next nxt ∧ Keeps s nxt := by
  have H := Keeps.refl s
  unfold execSlhdsaVerify
  refine ⟨_, rfl, ?_⟩
  repeat' first
    | (with_reducible assumption) | (intro) | (with_reducible apply State.beginFn_keeps) | (with_reducible apply Keeps.ite2)
    | (with_reducible apply Keeps.ite)
    | (fail_if_no_progress ((with_reducible apply Keeps.record) <;> first | with_reducible rfl | skip)) | split | (dsimp only)

theorem execSlhdsaVerifyx_keeps (job : Nat) (s : State) : ∃ nxt, execSlhdsaVerifyx job s = .next nxt ∧ Keeps s nxt := by
  have H := Keeps.refl s
  unfold execSlhdsaVerifyx
  refine ⟨_, rfl, ?_⟩
  repeat' first
    | (with_reducible assumption) | (intro) | (with_reducible apply State.beginFn_keeps) | (with_reducible apply Keeps.ite2)
    | (with_reducible apply Keeps.ite)
    | (fail_if_no_progress ((with_reducible apply Keeps.record) <;> first | with_reducible rfl | skip)) | split | (dsimp only)

theorem execSlhdsaExportpk_keeps (job : Nat) (s : State) : ∃ nxt, execSlhdsaExportpk job s = .next nxt ∧ Keeps s nxt := by
  have H := Keeps.refl s
  unfold execSlhdsaExportpk
  refine ⟨_, rfl, ?_⟩
  repeat' first
    | (with_reducible assumption) | (intro) | (with_reducible apply State.beginFn_keeps) | (with_reducible apply Keeps.ite2)
    | (with_reducible apply Keeps.ite)
    | (fail_if_no_progress ((with_reducible apply Keeps.record) <;> first | with_reducible rfl | skip)) | split | (dsimp only)

theorem execSlhdsaImportpk_keeps (job : Nat) (s : State) : ∃ nxt, execSlhdsaImportpk job s = .next nxt ∧ Keeps s nxt := by
  have H := Keeps.refl s
  unfold execSlhdsaImportpk
  refine ⟨_, rfl, ?_⟩
  repeat' first
    | (with_reducible assumption) | (intro) | (with_reducible apply State.beginFn_keeps) | (with_reducible apply Keeps.ite2)
    | (with_reducible apply Keeps.ite)
    | (fail_if_no_progress ((with_reducible apply Keeps.record) <;> first | with_reducible rfl | skip)) | split | (dsimp only)

theorem execLmsKeygen_keeps (job : Nat) (s : State) : ∃ nxt, execLmsKeygen job s = .next nxt ∧ Keeps s nxt := by
  have H := Keeps.refl s
  unfold execLmsKeygen
  refine ⟨_, rfl, ?_⟩
  repeat' first
    | (with_reducible assumption) | (intro) | (with_reducible apply State.beginFn_keeps) | (with_reducible apply Keeps.ite2)
    | (with_reducible apply Keeps.ite)
    | (fail_if_no_progress ((with_reducible apply Keeps.record) <;> first | with_reducible rfl | skip)) | split | (dsimp only)

theorem execLmsSign_keeps (job : Nat) (s : State) : ∃ nxt, execLmsSign job s = .next nxt ∧ Keeps s nxt := by
  have H := Keeps.refl s
  unfold execLmsSign
  refine ⟨_, rfl, ?_⟩
  repeat' first
    | (with_reducible assumption) | (intro) | (with_reducible apply State.beginFn_keeps) | (with_reducible apply Keeps.ite2)
    | (with_reducible apply Keeps.ite)
    | (fail_if_no_progress ((with_reducible apply Keeps.record) <;> first | with_reducible rfl | skip)) | split | (dsimp only)

theorem execLmsVerify_keeps (job : Nat) (s : State) : ∃ nxt, execLmsVerify job s = .next nxt ∧ Keeps s nxt := by
  have H := Keeps.refl s
  unfold execLmsVerify
  refine ⟨_, rfl, ?_⟩
  repeat' first
    | (with_reducible assumption) | (intro) | (with_reducible apply State.beginFn_keeps) | (with_reducible apply Keeps.ite2)
    | (with_reducible apply Keeps.ite)
    | (fail_if_no_progress ((with_reducible apply Keeps.record) <;> first | with_reducible rfl | skip)) | split | (dsimp only)

theorem execLmsVerifyx_keeps (job : Nat) (s : State) : ∃ nxt, execLmsVerifyx job s = .next nxt ∧ Keeps s nxt := by
  have H := Keeps.refl s
  unfold execLmsVerifyx
  refine ⟨_, rfl, ?_⟩
  repeat' first
    | (with_reducible assumption) | (intro) | (with_reducible apply State.beginFn_keeps) | (with_reducible apply Keeps.ite2)
    | (with_reducible apply Keeps.ite)
    | (fail_if_no_progress ((with_reducible apply Keeps.record) <;> first | with_reducible rfl | skip)) | split | (dsimp only)

theorem execLmsExportpk_keeps (job : Nat) (s : State) : ∃ nxt, execLmsExportpk job s = .next nxt ∧ Keeps s nxt := by
  have H := Keeps.refl s
  unfold execLmsExportpk
  refine ⟨_, rfl, ?_⟩
  repeat' first
    | (with_reducible assumption) | (intro) | (with_reducible apply State.beginFn_keeps) | (with_reducible apply Keeps.ite2)
    | (with_reducible apply Keeps.ite)
    | (fail_if_no_progress ((with_reducible apply Keeps.record) <;> first | with_reducible rfl | skip)) | split | (dsimp only)

theorem execLmsImportpk_keeps (job : Nat) (s : State) : ∃ nxt, execLmsImportpk job s = .next nxt ∧ Keeps s nxt := by
  have H := Keeps.refl s
  unfold execLmsImportpk
  refine ⟨_, rfl, ?_⟩
  repeat' first
    | (with_reducible assumption) | (intro) | (with_reducible apply State.beginFn_keeps) | (with_reducible apply Keeps.ite2)
    | (with_reducible apply Keeps.ite)
    | (fail_if_no_progress ((with_reducible apply Keeps.record) <;> first | with_reducible rfl | skip)) | split | (dsimp only)

theorem execXmssKeygen_keeps (job : Nat) (s : State) : ∃ nxt, execXmssKeygen job s = .next nxt ∧ Keeps s nxt := by
  have H := Keeps.refl s
  unfold execXmssKeygen
  refine ⟨_, rfl, ?_⟩
  repeat' first
    | (with_reducible assumption) | (intro) | (with_reducible apply State.beginFn_keeps) | (with_reducible apply Keeps.ite2)
    | (with_reducible apply Keeps.ite)
    | (fail_if_no_progress ((with_reducible apply Keeps.record) <;> first | with_reducible rfl | skip)) | split | (dsimp only)

theorem execXmssSign_keeps (job : Nat) (s : State) : ∃ nxt, execXmssSign job s = .next nxt ∧ Keeps s nxt := by
  have H := Keeps.refl s
  unfold execXmssSign
  refine ⟨_, rfl, ?_⟩
  repeat' first
    | (with_reducible assumption) | (intro) | (with_reducible apply State.beginFn_keeps) | (with_reducible apply Keeps.ite2)
    | (with_reducible apply Keeps.ite)
    | (fail_if_no_progress ((with_reducible apply Keeps.record) <;> first | with_reducible rfl | skip)) | split | (dsimp only)

theorem execXmssVerify_keeps (job : Nat) (s : State) : ∃ nxt, execXmssVerify job s = .next nxt ∧ Keeps s nxt := by
  have H := Keeps.refl s
  unfold execXmssVerify
  refine ⟨_, rfl, ?_⟩
  repeat' first
    | (with_reducible assumption) | (intro) | (with_reducible apply State.beginFn_keeps) | (with_reducible apply Keeps.ite2)
    | (with_reducible apply Keeps.ite)
    | (fail_if_no_progress ((with_reducible apply Keeps.record) <;> first | with_reducible rfl | skip)) | split | (dsimp only)

theorem execXmssVerifyx_keeps (job : Nat) (s : State) : ∃ nxt, execXmssVerifyx job s = .next nxt ∧ Keeps s nxt := by
  have H := Keeps.refl s
  unfold execXmssVerifyx
  refine ⟨_, rfl, ?_⟩
  repeat' first
    | (with_reducible assumption) | (intro) | (with_reducible apply State.beginFn_keeps) | (with_reducible apply Keeps.ite2)
    | (with_reducible apply Keeps.ite)
    | (fail_if_no_progress ((with_reducible apply Keeps.record) <;> first | with_reducible rfl | skip)) | split | (dsimp only)

theorem execXmssExportpk_keeps (job : Nat) (s : State) : ∃ nxt, execXmssExportpk job s = .next nxt ∧ Keeps s nxt := by
  have H := Keeps.refl s
  unfold execXmssExportpk
  refine ⟨_, rfl, ?_⟩
  repeat' first
    | (with_reducible assumption) | (intro) | (with_reducible apply State.beginFn_keeps) | (with_reducible apply Keeps.ite2)
    | (with_reducible apply Keeps.ite)
    | (fail_if_no_progress ((with_reducible apply Keeps.record) <;> first | with_reducible rfl | skip)) | split | (dsimp only)

theorem execXmssImportpk_keeps (job : Nat) (s : State) : ∃ nxt, execXmssImportpk job s = .next nxt ∧ Keeps s nxt := by
  have H := Keeps.refl s
  unfold execXmssImportpk
  refine ⟨_, rfl, ?_⟩
  repeat' first
    | (with_reducible assumption) | (intro) | (with_reducible apply State.beginFn_keeps) | (with_reducible apply Keeps.ite2)
    | (with_reducible apply Keeps.ite)
    | (fail_if_no_progress ((with_reducible apply Keeps.record) <;> first | with_reducible rfl | skip)) | split | (dsimp only)

theorem execMcelieceKeygen_keeps (job : Nat) (s : State) : ∃ nxt, execMcelieceKeygen job s = .next nxt ∧ Keeps s nxt := by
  have H := Keeps.refl s
  unfold execMcelieceKeygen
  refine ⟨_, rfl, ?_⟩
  repeat' first
    | (with_reducible assumption) | (intro) | (with_reducible apply State.beginFn_keeps) | (with_reducible apply Keeps.ite2)
    | (with_reducible apply Keeps.ite)
    | (fail_if_no_progress ((with_reducible apply Keeps.record) <;> first | with_reducible rfl | skip)) | split | (dsimp only)

theorem execMcelieceEncaps_keeps (job : Nat) (s : State) : ∃ nxt, execMcelieceEncaps job s = .next nxt ∧ Keeps s nxt := by
  have H := Keeps.refl s
  unfold execMcelieceEncaps
  refine ⟨_, rfl, ?_⟩
  repeat' first
    | (with_reducible assumption) | (intro) | (with_reducible apply State.beginFn_keeps) | (with_reducible apply Keeps.ite2)
    | (with_reducible apply Keeps.ite)
    | (fail_if_no_progress ((with_reducible apply Keeps.record) <;> first | with_reducible rfl | skip)) | split | (dsimp only)

theorem execMcelieceDecaps_keeps (job : Nat) (s : State) : ∃ nxt, execMcelieceDecaps job s = .next nxt ∧ Keeps s nxt := by
  have H := Keeps.refl s
  unfold execMcelieceDecaps
  refine ⟨_, rfl, ?_⟩
  repeat' first
    | (with_reducible assumption) | (intro) | (with_reducible apply State.beginFn_keeps) | (with_reducible apply Keeps.ite2)
    | (with_reducible apply Keeps.ite)
    | (fail_if_no_progress ((with_reducible apply Keeps.record) <;> first | with_reducible rfl | skip)) | split | (dsimp only)

theorem execMcelieceEncapsk_keeps (job : Nat) (s : State) : ∃ nxt, execMcelieceEncapsk job s = .next nxt ∧ Keeps s nxt := by
  have H := Keeps.refl s
  unfold execMcelieceEncapsk
  refine ⟨_, rfl, ?_⟩
  repeat' first
    | (with_reducible assumption) | (intro) | (with_reducible apply State.beginFn_keeps) | (with_reducible apply Keeps.ite2)
    | (with_reducible apply Keeps.ite)
    | (fail_if_no_progress ((with_reducible apply Keeps.record) <;> first | with_reducible rfl | skip)) | split | (dsimp only)

theorem execMcelieceExportpk_keeps (job : Nat) (s : State) : ∃ nxt, execMcelieceExportpk job s = .next nxt ∧ Keeps s nxt := by
  have H := Keeps.refl s
  unfold execMcelieceExportpk
  refine ⟨_, rfl, ?_⟩
  repeat' first
    | (with_reducible assumption) | (intro) | (with_reducible apply State.beginFn_keeps) | (with_reducible apply Keeps.ite2)
    | (with_reducible apply Keeps.ite)
    | (fail_if_no_progress ((with_reducible apply Keeps.record) <;> first | with_reducible rfl | skip)) | split | (dsimp only)

theorem execMcelieceImportpk_keeps (job : Nat) (s : State) : ∃ nxt, execMcelieceImportpk job s = .next nxt ∧ Keeps s nxt := by
  have H := Keeps.refl s
  unfold execMcelieceImportpk
  refine ⟨_, rfl, ?_⟩
  repeat' first
    | (with_reducible assumption) | (intro) | (with_reducible apply State.beginFn_keeps) | (with_reducible apply Keeps.ite2)
    | (with_reducible apply Keeps.ite)
    | (fail_if_no_progress ((with_reducible apply Keeps.record) <;> first | with_reducible rfl | skip)) | split | (dsimp only)

theorem execMcelieceReside_keeps (job : Nat) (s : State) : ∃ nxt, execMcelieceReside job s = .next nxt ∧ Keeps s nxt := by
  have H := Keeps.refl s
  unfold execMcelieceReside
  refine ⟨_, rfl, ?_⟩
  repeat' first
    | (with_reducible assumption) | (intro) | (with_reducible apply State.beginFn_keeps) | (with_reducible apply Keeps.ite2)
    | (with_reducible apply Keeps.ite)
    | (fail_if_no_progress ((with_reducible apply Keeps.record) <;> first | with_reducible rfl | skip)) | split | (dsimp only)

theorem execHqcKeygen_keeps (job : Nat) (s : State) : ∃ nxt, execHqcKeygen job s = .next nxt ∧ Keeps s nxt := by
  have H := Keeps.refl s
  unfold execHqcKeygen
  refine ⟨_, rfl, ?_⟩
  repeat' first
    | (with_reducible assumption) | (intro) | (with_reducible apply State.beginFn_keeps) | (with_reducible apply Keeps.ite2)
    | (with_reducible apply Keeps.ite)
    | (fail_if_no_progress ((with_reducible apply Keeps.record) <;> first | with_reducible rfl | skip)) | split | (dsimp only)

theorem execHqcEncaps_keeps (job : Nat) (s : State) : ∃ nxt, execHqcEncaps job s = .next nxt ∧ Keeps s nxt := by
  have H := Keeps.refl s
  unfold execHqcEncaps
  refine ⟨_, rfl, ?_⟩
  repeat' first
    | (with_reducible assumption) | (intro) | (with_reducible apply State.beginFn_keeps) | (with_reducible apply Keeps.ite2)
    | (with_reducible apply Keeps.ite)
    | (fail_if_no_progress ((with_reducible apply Keeps.record) <;> first | with_reducible rfl | skip)) | split | (dsimp only)

theorem execHqcDecaps_keeps (job : Nat) (s : State) : ∃ nxt, execHqcDecaps job s = .next nxt ∧ Keeps s nxt := by
  have H := Keeps.refl s
  unfold execHqcDecaps
  refine ⟨_, rfl, ?_⟩
  repeat' first
    | (with_reducible assumption) | (intro) | (with_reducible apply State.beginFn_keeps) | (with_reducible apply Keeps.ite2)
    | (with_reducible apply Keeps.ite)
    | (fail_if_no_progress ((with_reducible apply Keeps.record) <;> first | with_reducible rfl | skip)) | split | (dsimp only)

theorem execHqcEncapsk_keeps (job : Nat) (s : State) : ∃ nxt, execHqcEncapsk job s = .next nxt ∧ Keeps s nxt := by
  have H := Keeps.refl s
  unfold execHqcEncapsk
  refine ⟨_, rfl, ?_⟩
  repeat' first
    | (with_reducible assumption) | (intro) | (with_reducible apply State.beginFn_keeps) | (with_reducible apply Keeps.ite2)
    | (with_reducible apply Keeps.ite)
    | (fail_if_no_progress ((with_reducible apply Keeps.record) <;> first | with_reducible rfl | skip)) | split | (dsimp only)

theorem execHqcExportpk_keeps (job : Nat) (s : State) : ∃ nxt, execHqcExportpk job s = .next nxt ∧ Keeps s nxt := by
  have H := Keeps.refl s
  unfold execHqcExportpk
  refine ⟨_, rfl, ?_⟩
  repeat' first
    | (with_reducible assumption) | (intro) | (with_reducible apply State.beginFn_keeps) | (with_reducible apply Keeps.ite2)
    | (with_reducible apply Keeps.ite)
    | (fail_if_no_progress ((with_reducible apply Keeps.record) <;> first | with_reducible rfl | skip)) | split | (dsimp only)

theorem execHqcImportpk_keeps (job : Nat) (s : State) : ∃ nxt, execHqcImportpk job s = .next nxt ∧ Keeps s nxt := by
  have H := Keeps.refl s
  unfold execHqcImportpk
  refine ⟨_, rfl, ?_⟩
  repeat' first
    | (with_reducible assumption) | (intro) | (with_reducible apply State.beginFn_keeps) | (with_reducible apply Keeps.ite2)
    | (with_reducible apply Keeps.ite)
    | (fail_if_no_progress ((with_reducible apply Keeps.record) <;> first | with_reducible rfl | skip)) | split | (dsimp only)

theorem execRsaKeygen_keeps (job : Nat) (s : State) : ∃ nxt, execRsaKeygen job s = .next nxt ∧ Keeps s nxt := by
  have H := Keeps.refl s
  unfold execRsaKeygen
  refine ⟨_, rfl, ?_⟩
  repeat' first
    | (with_reducible assumption) | (intro) | (with_reducible apply State.beginFn_keeps) | (with_reducible apply Keeps.ite2)
    | (with_reducible apply Keeps.ite)
    | (fail_if_no_progress ((with_reducible apply Keeps.record) <;> first | with_reducible rfl | skip)) | split | (dsimp only)

theorem execRsaSign_keeps (job : Nat) (s : State) : ∃ nxt, execRsaSign job s = .next nxt ∧ Keeps s nxt := by
  have H := Keeps.refl s
  unfold execRsaSign
  refine ⟨_, rfl, ?_⟩
  repeat' first
    | (with_reducible assumption) | (intro) | (with_reducible apply State.beginFn_keeps) | (with_reducible apply Keeps.ite2)
    | (with_reducible apply Keeps.ite)
    | (fail_if_no_progress ((with_reducible apply Keeps.record) <;> first | with_reducible rfl | skip)) | split | (dsimp only)

theorem execRsaVerify_keeps (job : Nat) (s : State) : ∃ nxt, execRsaVerify job s = .next nxt ∧ Keeps s nxt := by
  have H := Keeps.refl s
  unfold execRsaVerify
  refine ⟨_, rfl, ?_⟩
  repeat' first
    | (with_reducible assumption) | (intro) | (with_reducible apply State.beginFn_keeps) | (with_reducible apply Keeps.ite2)
    | (with_reducible apply Keeps.ite)
    | (fail_if_no_progress ((with_reducible apply Keeps.record) <;> first | with_reducible rfl | skip)) | split | (dsimp only)

theorem execRsaVerifyx_keeps (job : Nat) (s : State) : ∃ nxt, execRsaVerifyx job s = .next nxt ∧ Keeps s nxt := by
  have H := Keeps.refl s
  unfold execRsaVerifyx
  refine ⟨_, rfl, ?_⟩
  repeat' first
    | (with_reducible assumption) | (intro) | (with_reducible apply State.beginFn_keeps) | (with_reducible apply Keeps.ite2)
    | (with_reducible apply Keeps.ite)
    | (fail_if_no_progress ((with_reducible apply Keeps.record) <;> first | with_reducible rfl | skip)) | split | (dsimp only)

theorem execRsaDecrypt_keeps (job : Nat) (s : State) : ∃ nxt, execRsaDecrypt job s = .next nxt ∧ Keeps s nxt := by
  have H := Keeps.refl s
  unfold execRsaDecrypt
  refine ⟨_, rfl, ?_⟩
  repeat' first
    | (with_reducible assumption) | (intro) | (with_reducible apply State.beginFn_keeps) | (with_reducible apply Keeps.ite2)
    | (with_reducible apply Keeps.ite)
    | (fail_if_no_progress ((with_reducible apply Keeps.record) <;> first | with_reducible rfl | skip)) | split | (dsimp only)

theorem execRsaEncrypt_keeps (job : Nat) (s : State) : ∃ nxt, execRsaEncrypt job s = .next nxt ∧ Keeps s nxt := by
  have H := Keeps.refl s
  unfold execRsaEncrypt
  refine ⟨_, rfl, ?_⟩
  repeat' first
    | (with_reducible assumption) | (intro) | (with_reducible apply State.beginFn_keeps) | (with_reducible apply Keeps.ite2)
    | (with_reducible apply Keeps.ite)
    | (fail_if_no_progress ((with_reducible apply Keeps.record) <;> first | with_reducible rfl | skip)) | split | (dsimp only)

theorem execRsaExportpk_keeps (job : Nat) (s : State) : ∃ nxt, execRsaExportpk job s = .next nxt ∧ Keeps s nxt := by
  have H := Keeps.refl s
  unfold execRsaExportpk
  refine ⟨_, rfl, ?_⟩
  repeat' first
    | (with_reducible assumption) | (intro) | (with_reducible apply State.beginFn_keeps) | (with_reducible apply Keeps.ite2)
    | (with_reducible apply Keeps.ite)
    | (fail_if_no_progress ((with_reducible apply Keeps.record) <;> first | with_reducible rfl | skip)) | split | (dsimp only)

theorem execRsaImportpk_keeps (job : Nat) (s : State) : ∃ nxt, execRsaImportpk job s = .next nxt ∧ Keeps s nxt := by
  have H := Keeps.refl s
  unfold execRsaImportpk
  refine ⟨_, rfl, ?_⟩
  repeat' first
    | (with_reducible assumption) | (intro) | (with_reducible apply State.beginFn_keeps) | (with_reducible apply Keeps.ite2)
    | (with_reducible apply Keeps.ite)
    | (fail_if_no_progress ((with_reducible apply Keeps.record) <;> first | with_reducible rfl | skip)) | split | (dsimp only)

theorem execEcKeygen_keeps (job : Nat) (s : State) : ∃ nxt, execEcKeygen job s = .next nxt ∧ Keeps s nxt := by
  have H := Keeps.refl s
  unfold execEcKeygen
  refine ⟨_, rfl, ?_⟩
  repeat' first
    | (with_reducible assumption) | (intro) | (with_reducible apply State.beginFn_keeps) | (with_reducible apply Keeps.ite2)
    | (with_reducible apply Keeps.ite)
    | (fail_if_no_progress ((with_reducible apply Keeps.record) <;> first | with_reducible rfl | skip)) | split | (dsimp only)

theorem execEcSign_keeps (job : Nat) (s : State) : ∃ nxt, execEcSign job s = .next nxt ∧ Keeps s nxt := by
  have H := Keeps.refl s
  unfold execEcSign
  refine ⟨_, rfl, ?_⟩
  repeat' first
    | (with_reducible assumption) | (intro) | (with_reducible apply State.beginFn_keeps) | (with_reducible apply Keeps.ite2)
    | (with_reducible apply Keeps.ite)
    | (fail_if_no_progress ((with_reducible apply Keeps.record) <;> first | with_reducible rfl | skip)) | split | (dsimp only)

theorem execEcVerify_keeps (job : Nat) (s : State) : ∃ nxt, execEcVerify job s = .next nxt ∧ Keeps s nxt := by
  have H := Keeps.refl s
  unfold execEcVerify
  refine ⟨_, rfl, ?_⟩
  repeat' first
    | (with_reducible assumption) | (intro) | (with_reducible apply State.beginFn_keeps) | (with_reducible apply Keeps.ite2)
    | (with_reducible apply Keeps.ite)
    | (fail_if_no_progress ((with_reducible apply Keeps.record) <;> first | with_reducible rfl | skip)) | split | (dsimp only)

theorem execEcVerifyx_keeps (job : Nat) (s : State) : ∃ nxt, execEcVerifyx job s = .next nxt ∧ Keeps s nxt := by
  have H := Keeps.refl s
  unfold execEcVerifyx
  refine ⟨_, rfl, ?_⟩
  repeat' first
    | (with_reducible assumption) | (intro) | (with_reducible apply State.beginFn_keeps) | (with_reducible apply Keeps.ite2)
    | (with_reducible apply Keeps.ite)
    | (fail_if_no_progress ((with_reducible apply Keeps.record) <;> first | with_reducible rfl | skip)) | split | (dsimp only)

theorem execEcEphagree_keeps (job : Nat) (s : State) : ∃ nxt, execEcEphagree job s = .next nxt ∧ Keeps s nxt := by
  have H := Keeps.refl s
  unfold execEcEphagree
  refine ⟨_, rfl, ?_⟩
  repeat' first
    | (with_reducible assumption) | (intro) | (with_reducible apply State.beginFn_keeps) | (with_reducible apply Keeps.ite2)
    | (with_reducible apply Keeps.ite)
    | (fail_if_no_progress ((with_reducible apply Keeps.record) <;> first | with_reducible rfl | skip)) | split | (dsimp only)

theorem execEcAgree_keeps (job : Nat) (s : State) : ∃ nxt, execEcAgree job s = .next nxt ∧ Keeps s nxt := by
  have H := Keeps.refl s
  unfold execEcAgree
  refine ⟨_, rfl, ?_⟩
  repeat' first
    | (with_reducible assumption) | (intro) | (with_reducible apply State.beginFn_keeps) | (with_reducible apply Keeps.ite2)
    | (with_reducible apply Keeps.ite)
    | (fail_if_no_progress ((with_reducible apply Keeps.record) <;> first | with_reducible rfl | skip)) | split | (dsimp only)

theorem execEcExportpk_keeps (job : Nat) (s : State) : ∃ nxt, execEcExportpk job s = .next nxt ∧ Keeps s nxt := by
  have H := Keeps.refl s
  unfold execEcExportpk
  refine ⟨_, rfl, ?_⟩
  repeat' first
    | (with_reducible assumption) | (intro) | (with_reducible apply State.beginFn_keeps) | (with_reducible apply Keeps.ite2)
    | (with_reducible apply Keeps.ite)
    | (fail_if_no_progress ((with_reducible apply Keeps.record) <;> first | with_reducible rfl | skip)) | split | (dsimp only)

theorem execEcImportpk_keeps (job : Nat) (s : State) : ∃ nxt, execEcImportpk job s = .next nxt ∧ Keeps s nxt := by
  have H := Keeps.refl s
  unfold execEcImportpk
  refine ⟨_, rfl, ?_⟩
  repeat' first
    | (with_reducible assumption) | (intro) | (with_reducible apply State.beginFn_keeps) | (with_reducible apply Keeps.ite2)
    | (with_reducible apply Keeps.ite)
    | (fail_if_no_progress ((with_reducible apply Keeps.record) <;> first | with_reducible rfl | skip)) | split | (dsimp only)

theorem execEcCurvecheck_keeps (job : Nat) (s : State) : ∃ nxt, execEcCurvecheck job s = .next nxt ∧ Keeps s nxt := by
  have H := Keeps.refl s
  unfold execEcCurvecheck
  refine ⟨_, rfl, ?_⟩
  repeat' first
    | (with_reducible assumption) | (intro) | (with_reducible apply State.beginFn_keeps) | (with_reducible apply Keeps.ite2)
    | (with_reducible apply Keeps.ite)
    | (fail_if_no_progress ((with_reducible apply Keeps.record) <;> first | with_reducible rfl | skip)) | split | (dsimp only)

theorem execDigestHash_keeps (job : Nat) (s : State) : ∃ nxt, execDigestHash job s = .next nxt ∧ Keeps s nxt := by
  have H := Keeps.refl s
  unfold execDigestHash
  refine ⟨_, rfl, ?_⟩
  repeat' first
    | (with_reducible assumption) | (intro) | (with_reducible apply State.beginFn_keeps) | (with_reducible apply Keeps.ite2)
    | (with_reducible apply Keeps.ite)
    | (fail_if_no_progress ((with_reducible apply Keeps.record) <;> first | with_reducible rfl | skip)) | split | (dsimp only)

theorem execDigestCshake_keeps (job : Nat) (s : State) : ∃ nxt, execDigestCshake job s = .next nxt ∧ Keeps s nxt := by
  have H := Keeps.refl s
  unfold execDigestCshake
  refine ⟨_, rfl, ?_⟩
  repeat' first
    | (with_reducible assumption) | (intro) | (with_reducible apply State.beginFn_keeps) | (with_reducible apply Keeps.ite2)
    | (with_reducible apply Keeps.ite)
    | (fail_if_no_progress ((with_reducible apply Keeps.record) <;> first | with_reducible rfl | skip)) | split | (dsimp only)

theorem execDigestHmac_keeps (job : Nat) (s : State) : ∃ nxt, execDigestHmac job s = .next nxt ∧ Keeps s nxt := by
  have H := Keeps.refl s
  unfold execDigestHmac
  refine ⟨_, rfl, ?_⟩
  repeat' first
    | (with_reducible assumption) | (intro) | (with_reducible apply State.beginFn_keeps) | (with_reducible apply Keeps.ite2)
    | (with_reducible apply Keeps.ite)
    | (fail_if_no_progress ((with_reducible apply Keeps.record) <;> first | with_reducible rfl | skip)) | split | (dsimp only)

theorem execDigestHmacverify_keeps (job : Nat) (s : State) : ∃ nxt, execDigestHmacverify job s = .next nxt ∧ Keeps s nxt := by
  have H := Keeps.refl s
  unfold execDigestHmacverify
  refine ⟨_, rfl, ?_⟩
  repeat' first
    | (with_reducible assumption) | (intro) | (with_reducible apply State.beginFn_keeps) | (with_reducible apply Keeps.ite2)
    | (with_reducible apply Keeps.ite)
    | (fail_if_no_progress ((with_reducible apply Keeps.record) <;> first | with_reducible rfl | skip)) | split | (dsimp only)

theorem execDigestKmac_keeps (job : Nat) (s : State) : ∃ nxt, execDigestKmac job s = .next nxt ∧ Keeps s nxt := by
  have H := Keeps.refl s
  unfold execDigestKmac
  refine ⟨_, rfl, ?_⟩
  repeat' first
    | (with_reducible assumption) | (intro) | (with_reducible apply State.beginFn_keeps) | (with_reducible apply Keeps.ite2)
    | (with_reducible apply Keeps.ite)
    | (fail_if_no_progress ((with_reducible apply Keeps.record) <;> first | with_reducible rfl | skip)) | split | (dsimp only)

theorem execDigestKmacverify_keeps (job : Nat) (s : State) : ∃ nxt, execDigestKmacverify job s = .next nxt ∧ Keeps s nxt := by
  have H := Keeps.refl s
  unfold execDigestKmacverify
  refine ⟨_, rfl, ?_⟩
  repeat' first
    | (with_reducible assumption) | (intro) | (with_reducible apply State.beginFn_keeps) | (with_reducible apply Keeps.ite2)
    | (with_reducible apply Keeps.ite)
    | (fail_if_no_progress ((with_reducible apply Keeps.record) <;> first | with_reducible rfl | skip)) | split | (dsimp only)

theorem execDigestHkdf_keeps (job : Nat) (s : State) : ∃ nxt, execDigestHkdf job s = .next nxt ∧ Keeps s nxt := by
  have H := Keeps.refl s
  unfold execDigestHkdf
  refine ⟨_, rfl, ?_⟩
  repeat' first
    | (with_reducible assumption) | (intro) | (with_reducible apply State.beginFn_keeps) | (with_reducible apply Keeps.ite2)
    | (with_reducible apply Keeps.ite)
    | (fail_if_no_progress ((with_reducible apply Keeps.record) <;> first | with_reducible rfl | skip)) | split | (dsimp only)

theorem execDigestKdf108_keeps (job : Nat) (s : State) : ∃ nxt, execDigestKdf108 job s = .next nxt ∧ Keeps s nxt := by
  have H := Keeps.refl s
  unfold execDigestKdf108
  refine ⟨_, rfl, ?_⟩
  repeat' first
    | (with_reducible assumption) | (intro) | (with_reducible apply State.beginFn_keeps) | (with_reducible apply Keeps.ite2)
    | (with_reducible apply Keeps.ite)
    | (fail_if_no_progress ((with_reducible apply Keeps.record) <;> first | with_reducible rfl | skip)) | split | (dsimp only)

theorem execDigestSbegin_keeps (job : Nat) (s : State) : ∃ nxt, execDigestSbegin job s = .next nxt ∧ Keeps s nxt := by
  have H := Keeps.refl s
  unfold execDigestSbegin
  refine ⟨_, rfl, ?_⟩
  repeat' first
    | (with_reducible assumption) | (intro) | (with_reducible apply State.beginFn_keeps) | (with_reducible apply Keeps.ite2)
    | (with_reducible apply Keeps.ite)
    | (fail_if_no_progress ((with_reducible apply Keeps.record) <;> first | with_reducible rfl | skip)) | split | (dsimp only)

theorem execDigestScont_keeps (job : Nat) (s : State) : ∃ nxt, execDigestScont job s = .next nxt ∧ Keeps s nxt := by
  have H := Keeps.refl s
  unfold execDigestScont
  refine ⟨_, rfl, ?_⟩
  repeat' first
    | (with_reducible assumption) | (intro) | (with_reducible apply State.beginFn_keeps) | (with_reducible apply Keeps.ite2)
    | (with_reducible apply Keeps.ite)
    | (fail_if_no_progress ((with_reducible apply Keeps.record) <;> first | with_reducible rfl | skip)) | split | (dsimp only)

theorem execDigestSend_keeps (job : Nat) (s : State) : ∃ nxt, execDigestSend job s = .next nxt ∧ Keeps s nxt := by
  have H := Keeps.refl s
  unfold execDigestSend
  refine ⟨_, rfl, ?_⟩
  repeat' first
    | (with_reducible assumption) | (intro) | (with_reducible apply State.beginFn_keeps) | (with_reducible apply Keeps.ite2)
    | (with_reducible apply Keeps.ite)
    | (fail_if_no_progress ((with_reducible apply Keeps.record) <;> first | with_reducible rfl | skip)) | split | (dsimp only)

theorem execAesEncrypt_keeps (job : Nat) (s : State) : ∃ nxt, execAesEncrypt job s = .next nxt ∧ Keeps s nxt := by
  have H := Keeps.refl s
  unfold execAesEncrypt
  refine ⟨_, rfl, ?_⟩
  repeat' first
    | (with_reducible assumption) | (intro) | (with_reducible apply State.beginFn_keeps) | (with_reducible apply Keeps.ite2)
    | (with_reducible apply Keeps.ite)
    | (fail_if_no_progress ((with_reducible apply Keeps.record) <;> first | with_reducible rfl | skip)) | split | (dsimp only)

theorem execAesDecrypt_keeps (job : Nat) (s : State) : ∃ nxt, execAesDecrypt job s = .next nxt ∧ Keeps s nxt := by
  have H := Keeps.refl s
  unfold execAesDecrypt
  refine ⟨_, rfl, ?_⟩
  repeat' first
    | (with_reducible assumption) | (intro) | (with_reducible apply State.beginFn_keeps) | (with_reducible apply Keeps.ite2)
    | (with_reducible apply Keeps.ite)
    | (fail_if_no_progress ((with_reducible apply Keeps.record) <;> first | with_reducible rfl | skip)) | split | (dsimp only)

theorem execAesCmac_keeps (job : Nat) (s : State) : ∃ nxt, execAesCmac job s = .next nxt ∧ Keeps s nxt := by
  have H := Keeps.refl s
  unfold execAesCmac
  refine ⟨_, rfl, ?_⟩
  repeat' first
    | (with_reducible assumption) | (intro) | (with_reducible apply State.beginFn_keeps) | (with_reducible apply Keeps.ite2)
    | (with_reducible apply Keeps.ite)
    | (fail_if_no_progress ((with_reducible apply Keeps.record) <;> first | with_reducible rfl | skip)) | split | (dsimp only)

theorem execAesCmacverify_keeps (job : Nat) (s : State) : ∃ nxt, execAesCmacverify job s = .next nxt ∧ Keeps s nxt := by
  have H := Keeps.refl s
  unfold execAesCmacverify
  refine ⟨_, rfl, ?_⟩
  repeat' first
    | (with_reducible assumption) | (intro) | (with_reducible apply State.beginFn_keeps) | (with_reducible apply Keeps.ite2)
    | (with_reducible apply Keeps.ite)
    | (fail_if_no_progress ((with_reducible apply Keeps.record) <;> first | with_reducible rfl | skip)) | split | (dsimp only)

theorem execAesAeadseal_keeps (job : Nat) (s : State) : ∃ nxt, execAesAeadseal job s = .next nxt ∧ Keeps s nxt := by
  have H := Keeps.refl s
  unfold execAesAeadseal
  refine ⟨_, rfl, ?_⟩
  repeat' first
    | (with_reducible assumption) | (intro) | (with_reducible apply State.beginFn_keeps) | (with_reducible apply Keeps.ite2)
    | (with_reducible apply Keeps.ite)
    | (fail_if_no_progress ((with_reducible apply Keeps.record) <;> first | with_reducible rfl | skip)) | split | (dsimp only)

theorem execAesAeadopen_keeps (job : Nat) (s : State) : ∃ nxt, execAesAeadopen job s = .next nxt ∧ Keeps s nxt := by
  have H := Keeps.refl s
  unfold execAesAeadopen
  refine ⟨_, rfl, ?_⟩
  repeat' first
    | (with_reducible assumption) | (intro) | (with_reducible apply State.beginFn_keeps) | (with_reducible apply Keeps.ite2)
    | (with_reducible apply Keeps.ite)
    | (fail_if_no_progress ((with_reducible apply Keeps.record) <;> first | with_reducible rfl | skip)) | split | (dsimp only)

theorem execPayPinxlate_keeps (job : Nat) (s : State) : ∃ nxt, execPayPinxlate job s = .next nxt ∧ Keeps s nxt := by
  have H := Keeps.refl s
  unfold execPayPinxlate
  refine ⟨_, rfl, ?_⟩
  repeat' first
    | (with_reducible assumption) | (intro) | (with_reducible apply State.beginFn_keeps) | (with_reducible apply Keeps.ite2)
    | (with_reducible apply Keeps.ite)
    | (fail_if_no_progress ((with_reducible apply Keeps.record) <;> first | with_reducible rfl | skip)) | split | (dsimp only)

theorem execPayDukptxlate_keeps (job : Nat) (s : State) : ∃ nxt, execPayDukptxlate job s = .next nxt ∧ Keeps s nxt := by
  have H := Keeps.refl s
  unfold execPayDukptxlate
  refine ⟨_, rfl, ?_⟩
  repeat' first
    | (with_reducible assumption) | (intro) | (with_reducible apply State.beginFn_keeps) | (with_reducible apply Keeps.ite2)
    | (with_reducible apply Keeps.ite)
    | (fail_if_no_progress ((with_reducible apply Keeps.record) <;> first | with_reducible rfl | skip)) | split | (dsimp only)

theorem execPayDukptderive_keeps (job : Nat) (s : State) : ∃ nxt, execPayDukptderive job s = .next nxt ∧ Keeps s nxt := by
  have H := Keeps.refl s
  unfold execPayDukptderive
  refine ⟨_, rfl, ?_⟩
  repeat' first
    | (with_reducible assumption) | (intro) | (with_reducible apply State.beginFn_keeps) | (with_reducible apply Keeps.ite2)
    | (with_reducible apply Keeps.ite)
    | (fail_if_no_progress ((with_reducible apply Keeps.record) <;> first | with_reducible rfl | skip)) | split | (dsimp only)

theorem execPayDukptik_keeps (job : Nat) (s : State) : ∃ nxt, execPayDukptik job s = .next nxt ∧ Keeps s nxt := by
  have H := Keeps.refl s
  unfold execPayDukptik
  refine ⟨_, rfl, ?_⟩
  repeat' first
    | (with_reducible assumption) | (intro) | (with_reducible apply State.beginFn_keeps) | (with_reducible apply Keeps.ite2)
    | (with_reducible apply Keeps.ite)
    | (fail_if_no_progress ((with_reducible apply Keeps.record) <;> first | with_reducible rfl | skip)) | split | (dsimp only)

theorem execPayKbexport_keeps (job : Nat) (s : State) : ∃ nxt, execPayKbexport job s = .next nxt ∧ Keeps s nxt := by
  have H := Keeps.refl s
  unfold execPayKbexport
  refine ⟨_, rfl, ?_⟩
  repeat' first
    | (with_reducible assumption) | (intro) | (with_reducible apply State.beginFn_keeps) | (with_reducible apply Keeps.ite2)
    | (with_reducible apply Keeps.ite)
    | (fail_if_no_progress ((with_reducible apply Keeps.record) <;> first | with_reducible rfl | skip)) | split | (dsimp only)

theorem execPayKbimport_keeps (job : Nat) (s : State) : ∃ nxt, execPayKbimport job s = .next nxt ∧ Keeps s nxt := by
  have H := Keeps.refl s
  unfold execPayKbimport
  refine ⟨_, rfl, ?_⟩
  repeat' first
    | (with_reducible assumption) | (intro) | (with_reducible apply State.beginFn_keeps) | (with_reducible apply Keeps.ite2)
    | (with_reducible apply Keeps.ite)
    | (fail_if_no_progress ((with_reducible apply Keeps.record) <;> first | with_reducible rfl | skip)) | split | (dsimp only)

theorem execRandBytes_keeps (job : Nat) (s : State) : ∃ nxt, execRandBytes job s = .next nxt ∧ Keeps s nxt := by
  have H := Keeps.refl s
  unfold execRandBytes
  refine ⟨_, rfl, ?_⟩
  repeat' first
    | (with_reducible assumption) | (intro) | (with_reducible apply State.beginFn_keeps) | (with_reducible apply Keeps.ite2)
    | (with_reducible apply Keeps.ite)
    | (fail_if_no_progress ((with_reducible apply Keeps.record) <;> first | with_reducible rfl | skip)) | split | (dsimp only)

theorem execCatGenerate_keeps (job : Nat) (s : State) : ∃ nxt, execCatGenerate job s = .next nxt ∧ Keeps s nxt := by
  have H := Keeps.refl s
  unfold execCatGenerate
  refine ⟨_, rfl, ?_⟩
  repeat' first
    | (with_reducible assumption) | (intro) | (with_reducible apply State.beginFn_keeps) | (with_reducible apply Keeps.ite2)
    | (with_reducible apply Keeps.ite)
    | (fail_if_no_progress ((with_reducible apply Keeps.record) <;> first | with_reducible rfl | skip)) | split | (dsimp only)

theorem execCatImportClear_keeps (job : Nat) (s : State) : ∃ nxt, execCatImportClear job s = .next nxt ∧ Keeps s nxt := by
  have H := Keeps.refl s
  unfold execCatImportClear
  refine ⟨_, rfl, ?_⟩
  repeat' first
    | (with_reducible assumption) | (intro) | (with_reducible apply State.beginFn_keeps) | (with_reducible apply Keeps.ite2)
    | (with_reducible apply Keeps.ite)
    | (fail_if_no_progress ((with_reducible apply Keeps.record) <;> first | with_reducible rfl | skip)) | split | (dsimp only)

theorem execCatUnwrap_keeps (job : Nat) (s : State) : ∃ nxt, execCatUnwrap job s = .next nxt ∧ Keeps s nxt := by
  have H := Keeps.refl s
  unfold execCatUnwrap
  refine ⟨_, rfl, ?_⟩
  repeat' first
    | (with_reducible assumption) | (intro) | (with_reducible apply State.beginFn_keeps) | (with_reducible apply Keeps.ite2)
    | (with_reducible apply Keeps.ite)
    | (fail_if_no_progress ((with_reducible apply Keeps.record) <;> first | with_reducible rfl | skip)) | split | (dsimp only)

theorem execCatWrap_keeps (job : Nat) (s : State) : ∃ nxt, execCatWrap job s = .next nxt ∧ Keeps s nxt := by
  have H := Keeps.refl s
  unfold execCatWrap
  refine ⟨_, rfl, ?_⟩
  repeat' first
    | (with_reducible assumption) | (intro) | (with_reducible apply State.beginFn_keeps) | (with_reducible apply Keeps.ite2)
    | (with_reducible apply Keeps.ite)
    | (fail_if_no_progress ((with_reducible apply Keeps.record) <;> first | with_reducible rfl | skip)) | split | (dsimp only)

theorem execCatWithdraw_keeps (job : Nat) (s : State) : ∃ nxt, execCatWithdraw job s = .next nxt ∧ Keeps s nxt := by
  have H := Keeps.refl s
  unfold execCatWithdraw
  refine ⟨_, rfl, ?_⟩
  repeat' first
    | (with_reducible assumption) | (intro) | (with_reducible apply State.beginFn_keeps) | (with_reducible apply Keeps.ite2)
    | (with_reducible apply Keeps.ite)
    | (fail_if_no_progress ((with_reducible apply Keeps.record) <;> first | with_reducible rfl | skip)) | split | (dsimp only)

theorem execCatRevoke_keeps (job : Nat) (s : State) : ∃ nxt, execCatRevoke job s = .next nxt ∧ Keeps s nxt := by
  have H := Keeps.refl s
  unfold execCatRevoke
  refine ⟨_, rfl, ?_⟩
  repeat' first
    | (with_reducible assumption) | (intro) | (with_reducible apply State.beginFn_keeps) | (with_reducible apply Keeps.ite2)
    | (with_reducible apply Keeps.ite)
    | (fail_if_no_progress ((with_reducible apply Keeps.record) <;> first | with_reducible rfl | skip)) | split | (dsimp only)

theorem execCatPin_keeps (job : Nat) (s : State) : ∃ nxt, execCatPin job s = .next nxt ∧ Keeps s nxt := by
  have H := Keeps.refl s
  unfold execCatPin
  refine ⟨_, rfl, ?_⟩
  repeat' first
    | (with_reducible assumption) | (intro) | (with_reducible apply State.beginFn_keeps) | (with_reducible apply Keeps.ite2)
    | (with_reducible apply Keeps.ite)
    | (fail_if_no_progress ((with_reducible apply Keeps.record) <;> first | with_reducible rfl | skip)) | split | (dsimp only)

theorem execCatInfo_keeps (job : Nat) (s : State) : ∃ nxt, execCatInfo job s = .next nxt ∧ Keeps s nxt := by
  have H := Keeps.refl s
  unfold execCatInfo
  refine ⟨_, rfl, ?_⟩
  repeat' first
    | (with_reducible assumption) | (intro) | (with_reducible apply State.beginFn_keeps) | (with_reducible apply Keeps.ite2)
    | (with_reducible apply Keeps.ite)
    | (fail_if_no_progress ((with_reducible apply Keeps.record) <;> first | with_reducible rfl | skip)) | split | (dsimp only)

theorem execCatSync_keeps (job : Nat) (s : State) : ∃ nxt, execCatSync job s = .next nxt ∧ Keeps s nxt := by
  have H := Keeps.refl s
  unfold execCatSync
  refine ⟨_, rfl, ?_⟩
  repeat' first
    | (with_reducible assumption) | (intro) | (with_reducible apply State.beginFn_keeps) | (with_reducible apply Keeps.ite2)
    | (with_reducible apply Keeps.ite)
    | (fail_if_no_progress ((with_reducible apply Keeps.record) <;> first | with_reducible rfl | skip)) | split | (dsimp only)

theorem execCatCheckpoint_keeps (job : Nat) (s : State) : ∃ nxt, execCatCheckpoint job s = .next nxt ∧ Keeps s nxt := by
  have H := Keeps.refl s
  unfold execCatCheckpoint
  refine ⟨_, rfl, ?_⟩
  repeat' first
    | (with_reducible assumption) | (intro) | (with_reducible apply State.beginFn_keeps) | (with_reducible apply Keeps.ite2)
    | (with_reducible apply Keeps.ite)
    | (fail_if_no_progress ((with_reducible apply Keeps.record) <;> first | with_reducible rfl | skip)) | split | (dsimp only)

theorem execHybKexcombine_keeps (job : Nat) (s : State) : ∃ nxt, execHybKexcombine job s = .next nxt ∧ Keeps s nxt := by
  have H := Keeps.refl s
  unfold execHybKexcombine
  refine ⟨_, rfl, ?_⟩
  repeat' first
    | (with_reducible assumption) | (intro) | (with_reducible apply State.beginFn_keeps) | (with_reducible apply Keeps.ite2)
    | (with_reducible apply Keeps.ite)
    | (fail_if_no_progress ((with_reducible apply Keeps.record) <;> first | with_reducible rfl | skip)) | split | (dsimp only)

theorem execHybSign_keeps (job : Nat) (s : State) : ∃ nxt, execHybSign job s = .next nxt ∧ Keeps s nxt := by
  have H := Keeps.refl s
  unfold execHybSign
  refine ⟨_, rfl, ?_⟩
  repeat' first
    | (with_reducible assumption) | (intro) | (with_reducible apply State.beginFn_keeps) | (with_reducible apply Keeps.ite2)
    | (with_reducible apply Keeps.ite)
    | (fail_if_no_progress ((with_reducible apply Keeps.record) <;> first | with_reducible rfl | skip)) | split | (dsimp only)

theorem execHybVerify_keeps (job : Nat) (s : State) : ∃ nxt, execHybVerify job s = .next nxt ∧ Keeps s nxt := by
  have H := Keeps.refl s
  unfold execHybVerify
  refine ⟨_, rfl, ?_⟩
  repeat' first
    | (with_reducible assumption) | (intro) | (with_reducible apply State.beginFn_keeps) | (with_reducible apply Keeps.ite2)
    | (with_reducible apply Keeps.ite)
    | (fail_if_no_progress ((with_reducible apply Keeps.record) <;> first | with_reducible rfl | skip)) | split | (dsimp only)

theorem execHybVerifyx_keeps (job : Nat) (s : State) : ∃ nxt, execHybVerifyx job s = .next nxt ∧ Keeps s nxt := by
  have H := Keeps.refl s
  unfold execHybVerifyx
  refine ⟨_, rfl, ?_⟩
  repeat' first
    | (with_reducible assumption) | (intro) | (with_reducible apply State.beginFn_keeps) | (with_reducible apply Keeps.ite2)
    | (with_reducible apply Keeps.ite)
    | (fail_if_no_progress ((with_reducible apply Keeps.record) <;> first | with_reducible rfl | skip)) | split | (dsimp only)

end Sys2Proof.Machine
end

