-- ==== Sys2Proof/Laws/KeepsRegs.lean ====
section
/-! SUPPORT. A host register write, whose words go to the registers' own commands, keeps what `Keeps` says. -/

set_option linter.all false

open Host

namespace Sys2Proof.Machine

theorem afterRes_keeps {s0 s : State} (H : Keeps s0 s) {r : Res} (h : ∃ t, r = .next t ∧ Keeps s t) : Keeps s0 (afterRes r s) := by
  obtain ⟨t, rfl, k⟩ := h
  exact H.trans k

theorem State.cfgtxCtrlWrite_keeps {s0 s : State} (H : Keeps s0 s) (f : Fn) (v : Word32) : Keeps s0 (s.cfgtxCtrlWrite f v) := by
  unfold State.cfgtxCtrlWrite
  repeat' first
    | exact H | exact afterRes_keeps H (execCfgtxBegin_keeps _ s) | exact afterRes_keeps H (execCfgtxCommit_keeps _ _ s)
    | exact afterRes_keeps H (execCfgtxAbort_keeps _ s) | split

theorem State.pageOwnWrite_keeps {s0 s t : State} (H : Keeps s0 s) (f : Fn) (page o : Nat) (v : Word32)
    (h : s.pageOwnWrite f page o v = some t) : Keeps s0 t := by
  unfold State.pageOwnWrite at h
  have hc : Keeps s0 (if bit32 v 1 then afterRes (execCompatKeyClear f page s) s else s) :=
    Keeps.ite (afterRes_keeps H (execCompatKeyClear_keeps f page s)) H
  split at h
  · cases h
    dsimp only
    exact Keeps.ite (afterRes_keeps hc (execCompatStart_keeps f page _)) hc
  · split at h
    · cases h
      exact afterRes_keeps H (execCompatKeyWrite_keeps f page _ v s)
    · cases h

theorem State.doorbellWrite_keeps {s0 s t : State} (H : Keeps s0 s) (f : Fn) (off : Nat) (v : Word32)
    (h : s.doorbellWrite f off v = some t) : Keeps s0 t := by
  unfold State.doorbellWrite at h
  dsimp only at h
  split at h <;> cases h
  · exact afterRes_keeps H (execSubmissionDoorbell_keeps _ _ _ s)
  · exact afterRes_keeps H (execCompletionDoorbell_keeps _ _ _ s)

theorem State.ownWrite_keeps {s0 s t : State} (H : Keeps s0 s) (f : Fn) (off : Nat) (v : Word32)
    (h : s.ownWrite f off v = some t) : Keeps s0 t := by
  unfold State.ownWrite at h
  split at h
  · exact State.doorbellWrite_keeps H f off v h
  split at h
  · exact State.pageOwnWrite_keeps H f _ _ v h
  split at h
  · cases h
    exact afterRes_keeps H (execEvlogVinfoClear_keeps f _ v s)
  split at h
  all_goals first | (cases h; done) | (cases h)
  · exact afterRes_keeps H (execFstatCauseClear_keeps f v 0 s)
  · exact afterRes_keeps H (execFstatCauseEnWrite_keeps f v s)
  · split
    · exact afterRes_keeps H (execAdmqEnable_keeps f s)
    · exact afterRes_keeps H (execAdmqDisable_keeps f s)
  · exact afterRes_keeps H (execSubmissionDoorbell_keeps f _ _ s)
  · exact afterRes_keeps H (execCompletionDoorbell_keeps f _ _ s)
  · exact State.cfgtxCtrlWrite_keeps H f v
  · exact afterRes_keeps H (execConsPromote_keeps f v s)
  · exact afterRes_keeps H (execConsFence_keeps f v s)
  · exact afterRes_keeps H (execConsReadmit_keeps f v s)
  · exact afterRes_keeps H (execConsRecal_keeps f v s)
  · exact afterRes_keeps H (execConsGreset_keeps f v s)
  · exact afterRes_keeps H (execClkpwrCapWrite_keeps f v s)
  · exact Keeps.ite (afterRes_keeps H (execClkpwrRevert_keeps f s)) H
  · split
    · exact afterRes_keeps H (execActiveRequest_keeps f s)
    · exact afterRes_keeps H (execStandbyRequest_keeps f s)
    · exact H
  · exact afterRes_keeps H (execClkpwrRtcSet_keeps f v s)
  · exact afterRes_keeps H (execClkpwrRtcSlew_keeps f v s)
  · exact afterRes_keeps H (execEntropyReadmit_keeps f v s)
  · exact afterRes_keeps H (execStoreRetire_keeps f v s)
  · exact afterRes_keeps H (execLedgerQslotWrite_keeps f v s)

theorem State.wordWrite_keeps {s0 s : State} (H : Keeps s0 s) (f : Fn) (off : Nat) (v : Word32) : Keeps s0 (s.wordWrite f off v) := by
  unfold State.wordWrite
  cases h : s.ownWrite f off v with
  | none => exact State.bar0Write_keeps H f off v
  | some t => exact State.ownWrite_keeps H f off v h

theorem execRegisterWrite_keeps (f : Fn) (sp : Space) (off size : Nat) (v : Word64) (s : State) :
    ∃ nxt, execRegisterWrite f sp off size v s = .next nxt ∧ Keeps s nxt := by
  have H := Keeps.refl s
  unfold execRegisterWrite
  refine ⟨_, rfl, ?_⟩
  repeat' first
    | (with_reducible assumption) | (intro) | (with_reducible apply State.sendPending_keeps) | (with_reducible apply State.modFn_keeps)
    | (with_reducible apply State.setPort_keeps) | (with_reducible apply State.deviceControl_keeps) | (with_reducible apply State.deviceControl2_keeps)
    | (with_reducible apply State.configRequest_keeps) | (with_reducible apply State.access_keeps) | (with_reducible apply State.sizedWrite_keeps) | (with_reducible apply State.wordWrite_keeps)
    | (with_reducible apply State.msixWrite_keeps) | (with_reducible apply Keeps.ite) | split

end Sys2Proof.Machine
end

