-- ==== Sys2Proof/Laws/State.lean ====
section
/-! SUPPORT. One lemma per field of State and shared update: what the update leaves, and what reading back what it wrote answers, so that
no proof unfolds a record update. -/

set_option linter.all false

namespace Sys2Proof.Machine

@[simp] theorem State.setFn_pending (s : State) (f : Fn) (x : FnState) : (s.setFn f x).pending = s.pending := rfl
@[simp] theorem State.setFn_now (s : State) (f : Fn) (x : FnState) : (s.setFn f x).now = s.now := rfl
@[simp] theorem State.setFn_freeCtr (s : State) (f : Fn) (x : FnState) : (s.setFn f x).freeCtr = s.freeCtr := rfl
@[simp] theorem State.setFn_outbox (s : State) (f : Fn) (x : FnState) : (s.setFn f x).outbox = s.outbox := rfl
@[simp] theorem State.setFn_a12 (s : State) (f : Fn) (x : FnState) : (s.setFn f x).a12 = s.a12 := rfl
@[simp] theorem State.setFn_serial (s : State) (f : Fn) (x : FnState) : (s.setFn f x).serial = s.serial := rfl
@[simp] theorem State.setFn_work (s : State) (f : Fn) (x : FnState) : (s.setFn f x).work = s.work := rfl
@[simp] theorem State.setFn_cat (s : State) (f : Fn) (x : FnState) : (s.setFn f x).cat = s.cat := rfl
@[simp] theorem State.setFn_journal (s : State) (f : Fn) (x : FnState) : (s.setFn f x).journal = s.journal := rfl
@[simp] theorem State.setFn_ledger (s : State) (f : Fn) (x : FnState) : (s.setFn f x).ledger = s.ledger := rfl
@[simp] theorem State.setFn_entropy (s : State) (f : Fn) (x : FnState) : (s.setFn f x).entropy = s.entropy := rfl
@[simp] theorem State.setFn_store (s : State) (f : Fn) (x : FnState) : (s.setFn f x).store = s.store := rfl
@[simp] theorem State.setFn_boot (s : State) (f : Fn) (x : FnState) : (s.setFn f x).boot = s.boot := rfl
@[simp] theorem State.setFn_tamper (s : State) (f : Fn) (x : FnState) : (s.setFn f x).tamper = s.tamper := rfl
@[simp] theorem State.setFn_cont (s : State) (f : Fn) (x : FnState) : (s.setFn f x).cont = s.cont := rfl
@[simp] theorem State.setFn_cfgtx (s : State) (f : Fn) (x : FnState) : (s.setFn f x).cfgtx = s.cfgtx := rfl
@[simp] theorem State.setFn_handover (s : State) (f : Fn) (x : FnState) : (s.setFn f x).handover = s.handover := rfl
@[simp] theorem State.setFn_docW (s : State) (f : Fn) (x : FnState) : (s.setFn f x).docW = s.docW := rfl
@[simp] theorem State.setFn_docE (s : State) (f : Fn) (x : FnState) : (s.setFn f x).docE = s.docE := rfl
@[simp] theorem State.setFn_card0 (s : State) (f : Fn) (x : FnState) : (s.setFn f x).card0 = s.card0 := rfl
@[simp] theorem State.setFn_card1 (s : State) (f : Fn) (x : FnState) : (s.setFn f x).card1 = s.card1 := rfl
@[simp] theorem State.setFn_power (s : State) (f : Fn) (x : FnState) : (s.setFn f x).power = s.power := rfl
@[simp] theorem State.setFn_evlog (s : State) (f : Fn) (x : FnState) : (s.setFn f x).evlog = s.evlog := rfl

@[simp] theorem State.setPort_pending (s : State) (w : Wing) (x : PortState) : (s.setPort w x).pending = s.pending := by cases w <;> rfl
@[simp] theorem State.setPort_now (s : State) (w : Wing) (x : PortState) : (s.setPort w x).now = s.now := by cases w <;> rfl
@[simp] theorem State.setPort_freeCtr (s : State) (w : Wing) (x : PortState) : (s.setPort w x).freeCtr = s.freeCtr := by cases w <;> rfl
@[simp] theorem State.setPort_outbox (s : State) (w : Wing) (x : PortState) : (s.setPort w x).outbox = s.outbox := by cases w <;> rfl
@[simp] theorem State.setPort_a12 (s : State) (w : Wing) (x : PortState) : (s.setPort w x).a12 = s.a12 := by cases w <;> rfl
@[simp] theorem State.setPort_serial (s : State) (w : Wing) (x : PortState) : (s.setPort w x).serial = s.serial := by cases w <;> rfl
@[simp] theorem State.setPort_work (s : State) (w : Wing) (x : PortState) : (s.setPort w x).work = s.work := by cases w <;> rfl
@[simp] theorem State.setPort_cat (s : State) (w : Wing) (x : PortState) : (s.setPort w x).cat = s.cat := by cases w <;> rfl
@[simp] theorem State.setPort_journal (s : State) (w : Wing) (x : PortState) : (s.setPort w x).journal = s.journal := by cases w <;> rfl
@[simp] theorem State.setPort_ledger (s : State) (w : Wing) (x : PortState) : (s.setPort w x).ledger = s.ledger := by cases w <;> rfl
@[simp] theorem State.setPort_entropy (s : State) (w : Wing) (x : PortState) : (s.setPort w x).entropy = s.entropy := by cases w <;> rfl
@[simp] theorem State.setPort_store (s : State) (w : Wing) (x : PortState) : (s.setPort w x).store = s.store := by cases w <;> rfl
@[simp] theorem State.setPort_boot (s : State) (w : Wing) (x : PortState) : (s.setPort w x).boot = s.boot := by cases w <;> rfl
@[simp] theorem State.setPort_tamper (s : State) (w : Wing) (x : PortState) : (s.setPort w x).tamper = s.tamper := by cases w <;> rfl
@[simp] theorem State.setPort_cont (s : State) (w : Wing) (x : PortState) : (s.setPort w x).cont = s.cont := by cases w <;> rfl
@[simp] theorem State.setPort_cfgtx (s : State) (w : Wing) (x : PortState) : (s.setPort w x).cfgtx = s.cfgtx := by cases w <;> rfl
@[simp] theorem State.setPort_handover (s : State) (w : Wing) (x : PortState) : (s.setPort w x).handover = s.handover := by cases w <;> rfl
@[simp] theorem State.setPort_docW (s : State) (w : Wing) (x : PortState) : (s.setPort w x).docW = s.docW := by cases w <;> rfl
@[simp] theorem State.setPort_docE (s : State) (w : Wing) (x : PortState) : (s.setPort w x).docE = s.docE := by cases w <;> rfl
@[simp] theorem State.setPort_card0 (s : State) (w : Wing) (x : PortState) : (s.setPort w x).card0 = s.card0 := by cases w <;> rfl
@[simp] theorem State.setPort_card1 (s : State) (w : Wing) (x : PortState) : (s.setPort w x).card1 = s.card1 := by cases w <;> rfl
@[simp] theorem State.setPort_power (s : State) (w : Wing) (x : PortState) : (s.setPort w x).power = s.power := by cases w <;> rfl
@[simp] theorem State.setPort_evlog (s : State) (w : Wing) (x : PortState) : (s.setPort w x).evlog = s.evlog := by cases w <;> rfl

@[simp] theorem State.setDisp_pending (s : State) (w : Wing) (x : Dispatcher) : (s.setDisp w x).pending = s.pending := by cases w <;> rfl
@[simp] theorem State.setDisp_now (s : State) (w : Wing) (x : Dispatcher) : (s.setDisp w x).now = s.now := by cases w <;> rfl
@[simp] theorem State.setDisp_freeCtr (s : State) (w : Wing) (x : Dispatcher) : (s.setDisp w x).freeCtr = s.freeCtr := by cases w <;> rfl
@[simp] theorem State.setDisp_outbox (s : State) (w : Wing) (x : Dispatcher) : (s.setDisp w x).outbox = s.outbox := by cases w <;> rfl
@[simp] theorem State.setDisp_a12 (s : State) (w : Wing) (x : Dispatcher) : (s.setDisp w x).a12 = s.a12 := by cases w <;> rfl
@[simp] theorem State.setDisp_serial (s : State) (w : Wing) (x : Dispatcher) : (s.setDisp w x).serial = s.serial := by cases w <;> rfl
@[simp] theorem State.setDisp_work (s : State) (w : Wing) (x : Dispatcher) : (s.setDisp w x).work = s.work := by cases w <;> rfl
@[simp] theorem State.setDisp_cat (s : State) (w : Wing) (x : Dispatcher) : (s.setDisp w x).cat = s.cat := by cases w <;> rfl
@[simp] theorem State.setDisp_journal (s : State) (w : Wing) (x : Dispatcher) : (s.setDisp w x).journal = s.journal := by cases w <;> rfl
@[simp] theorem State.setDisp_ledger (s : State) (w : Wing) (x : Dispatcher) : (s.setDisp w x).ledger = s.ledger := by cases w <;> rfl
@[simp] theorem State.setDisp_entropy (s : State) (w : Wing) (x : Dispatcher) : (s.setDisp w x).entropy = s.entropy := by cases w <;> rfl
@[simp] theorem State.setDisp_store (s : State) (w : Wing) (x : Dispatcher) : (s.setDisp w x).store = s.store := by cases w <;> rfl
@[simp] theorem State.setDisp_boot (s : State) (w : Wing) (x : Dispatcher) : (s.setDisp w x).boot = s.boot := by cases w <;> rfl
@[simp] theorem State.setDisp_tamper (s : State) (w : Wing) (x : Dispatcher) : (s.setDisp w x).tamper = s.tamper := by cases w <;> rfl
@[simp] theorem State.setDisp_cont (s : State) (w : Wing) (x : Dispatcher) : (s.setDisp w x).cont = s.cont := by cases w <;> rfl
@[simp] theorem State.setDisp_cfgtx (s : State) (w : Wing) (x : Dispatcher) : (s.setDisp w x).cfgtx = s.cfgtx := by cases w <;> rfl
@[simp] theorem State.setDisp_handover (s : State) (w : Wing) (x : Dispatcher) : (s.setDisp w x).handover = s.handover := by cases w <;> rfl
@[simp] theorem State.setDisp_docW (s : State) (w : Wing) (x : Dispatcher) : (s.setDisp w x).docW = s.docW := by cases w <;> rfl
@[simp] theorem State.setDisp_docE (s : State) (w : Wing) (x : Dispatcher) : (s.setDisp w x).docE = s.docE := by cases w <;> rfl
@[simp] theorem State.setDisp_card0 (s : State) (w : Wing) (x : Dispatcher) : (s.setDisp w x).card0 = s.card0 := by cases w <;> rfl
@[simp] theorem State.setDisp_card1 (s : State) (w : Wing) (x : Dispatcher) : (s.setDisp w x).card1 = s.card1 := by cases w <;> rfl
@[simp] theorem State.setDisp_power (s : State) (w : Wing) (x : Dispatcher) : (s.setDisp w x).power = s.power := by cases w <;> rfl
@[simp] theorem State.setDisp_evlog (s : State) (w : Wing) (x : Dispatcher) : (s.setDisp w x).evlog = s.evlog := by cases w <;> rfl

@[simp] theorem State.setColl_pending (s : State) (c : Nat) (x : Option Collection) : (s.setColl c x).pending = s.pending := rfl
@[simp] theorem State.setColl_now (s : State) (c : Nat) (x : Option Collection) : (s.setColl c x).now = s.now := rfl
@[simp] theorem State.setColl_freeCtr (s : State) (c : Nat) (x : Option Collection) : (s.setColl c x).freeCtr = s.freeCtr := rfl
@[simp] theorem State.setColl_outbox (s : State) (c : Nat) (x : Option Collection) : (s.setColl c x).outbox = s.outbox := rfl
@[simp] theorem State.setColl_a12 (s : State) (c : Nat) (x : Option Collection) : (s.setColl c x).a12 = s.a12 := rfl
@[simp] theorem State.setColl_serial (s : State) (c : Nat) (x : Option Collection) : (s.setColl c x).serial = s.serial := rfl
@[simp] theorem State.setColl_work (s : State) (c : Nat) (x : Option Collection) : (s.setColl c x).work = s.work := rfl
@[simp] theorem State.setColl_cat (s : State) (c : Nat) (x : Option Collection) : (s.setColl c x).cat = s.cat := rfl
@[simp] theorem State.setColl_journal (s : State) (c : Nat) (x : Option Collection) : (s.setColl c x).journal = s.journal := rfl
@[simp] theorem State.setColl_ledger (s : State) (c : Nat) (x : Option Collection) : (s.setColl c x).ledger = s.ledger := rfl
@[simp] theorem State.setColl_entropy (s : State) (c : Nat) (x : Option Collection) : (s.setColl c x).entropy = s.entropy := rfl
@[simp] theorem State.setColl_store (s : State) (c : Nat) (x : Option Collection) : (s.setColl c x).store = s.store := rfl
@[simp] theorem State.setColl_boot (s : State) (c : Nat) (x : Option Collection) : (s.setColl c x).boot = s.boot := rfl
@[simp] theorem State.setColl_tamper (s : State) (c : Nat) (x : Option Collection) : (s.setColl c x).tamper = s.tamper := rfl
@[simp] theorem State.setColl_cont (s : State) (c : Nat) (x : Option Collection) : (s.setColl c x).cont = s.cont := rfl
@[simp] theorem State.setColl_cfgtx (s : State) (c : Nat) (x : Option Collection) : (s.setColl c x).cfgtx = s.cfgtx := rfl
@[simp] theorem State.setColl_handover (s : State) (c : Nat) (x : Option Collection) : (s.setColl c x).handover = s.handover := rfl
@[simp] theorem State.setColl_docW (s : State) (c : Nat) (x : Option Collection) : (s.setColl c x).docW = s.docW := rfl
@[simp] theorem State.setColl_docE (s : State) (c : Nat) (x : Option Collection) : (s.setColl c x).docE = s.docE := rfl
@[simp] theorem State.setColl_card0 (s : State) (c : Nat) (x : Option Collection) : (s.setColl c x).card0 = s.card0 := rfl
@[simp] theorem State.setColl_card1 (s : State) (c : Nat) (x : Option Collection) : (s.setColl c x).card1 = s.card1 := rfl
@[simp] theorem State.setColl_power (s : State) (c : Nat) (x : Option Collection) : (s.setColl c x).power = s.power := rfl
@[simp] theorem State.setColl_evlog (s : State) (c : Nat) (x : Option Collection) : (s.setColl c x).evlog = s.evlog := rfl

@[simp] theorem State.setQueue_pending (s : State) (f : Fn) (q : QSel) (x : Queue) : (s.setQueue f q x).pending = s.pending := by cases q <;> rfl
@[simp] theorem State.setQueue_now (s : State) (f : Fn) (q : QSel) (x : Queue) : (s.setQueue f q x).now = s.now := by cases q <;> rfl
@[simp] theorem State.setQueue_freeCtr (s : State) (f : Fn) (q : QSel) (x : Queue) : (s.setQueue f q x).freeCtr = s.freeCtr := by cases q <;> rfl
@[simp] theorem State.setQueue_outbox (s : State) (f : Fn) (q : QSel) (x : Queue) : (s.setQueue f q x).outbox = s.outbox := by cases q <;> rfl
@[simp] theorem State.setQueue_a12 (s : State) (f : Fn) (q : QSel) (x : Queue) : (s.setQueue f q x).a12 = s.a12 := by cases q <;> rfl
@[simp] theorem State.setQueue_serial (s : State) (f : Fn) (q : QSel) (x : Queue) : (s.setQueue f q x).serial = s.serial := by cases q <;> rfl
@[simp] theorem State.setQueue_work (s : State) (f : Fn) (q : QSel) (x : Queue) : (s.setQueue f q x).work = s.work := by cases q <;> rfl
@[simp] theorem State.setQueue_cat (s : State) (f : Fn) (q : QSel) (x : Queue) : (s.setQueue f q x).cat = s.cat := by cases q <;> rfl
@[simp] theorem State.setQueue_journal (s : State) (f : Fn) (q : QSel) (x : Queue) : (s.setQueue f q x).journal = s.journal := by cases q <;> rfl
@[simp] theorem State.setQueue_ledger (s : State) (f : Fn) (q : QSel) (x : Queue) : (s.setQueue f q x).ledger = s.ledger := by cases q <;> rfl
@[simp] theorem State.setQueue_entropy (s : State) (f : Fn) (q : QSel) (x : Queue) : (s.setQueue f q x).entropy = s.entropy := by cases q <;> rfl
@[simp] theorem State.setQueue_store (s : State) (f : Fn) (q : QSel) (x : Queue) : (s.setQueue f q x).store = s.store := by cases q <;> rfl
@[simp] theorem State.setQueue_boot (s : State) (f : Fn) (q : QSel) (x : Queue) : (s.setQueue f q x).boot = s.boot := by cases q <;> rfl
@[simp] theorem State.setQueue_tamper (s : State) (f : Fn) (q : QSel) (x : Queue) : (s.setQueue f q x).tamper = s.tamper := by cases q <;> rfl
@[simp] theorem State.setQueue_cont (s : State) (f : Fn) (q : QSel) (x : Queue) : (s.setQueue f q x).cont = s.cont := by cases q <;> rfl
@[simp] theorem State.setQueue_cfgtx (s : State) (f : Fn) (q : QSel) (x : Queue) : (s.setQueue f q x).cfgtx = s.cfgtx := by cases q <;> rfl
@[simp] theorem State.setQueue_handover (s : State) (f : Fn) (q : QSel) (x : Queue) : (s.setQueue f q x).handover = s.handover := by cases q <;> rfl
@[simp] theorem State.setQueue_docW (s : State) (f : Fn) (q : QSel) (x : Queue) : (s.setQueue f q x).docW = s.docW := by cases q <;> rfl
@[simp] theorem State.setQueue_docE (s : State) (f : Fn) (q : QSel) (x : Queue) : (s.setQueue f q x).docE = s.docE := by cases q <;> rfl
@[simp] theorem State.setQueue_card0 (s : State) (f : Fn) (q : QSel) (x : Queue) : (s.setQueue f q x).card0 = s.card0 := by cases q <;> rfl
@[simp] theorem State.setQueue_card1 (s : State) (f : Fn) (q : QSel) (x : Queue) : (s.setQueue f q x).card1 = s.card1 := by cases q <;> rfl
@[simp] theorem State.setQueue_power (s : State) (f : Fn) (q : QSel) (x : Queue) : (s.setQueue f q x).power = s.power := by cases q <;> rfl
@[simp] theorem State.setQueue_evlog (s : State) (f : Fn) (q : QSel) (x : Queue) : (s.setQueue f q x).evlog = s.evlog := by cases q <;> rfl

@[simp] theorem State.setJob_pending (s : State) (n : Nat) (x : Option Job) : (s.setJob n x).pending = s.pending := rfl
@[simp] theorem State.setJob_now (s : State) (n : Nat) (x : Option Job) : (s.setJob n x).now = s.now := rfl
@[simp] theorem State.setJob_freeCtr (s : State) (n : Nat) (x : Option Job) : (s.setJob n x).freeCtr = s.freeCtr := rfl
@[simp] theorem State.setJob_outbox (s : State) (n : Nat) (x : Option Job) : (s.setJob n x).outbox = s.outbox := rfl
@[simp] theorem State.setJob_a12 (s : State) (n : Nat) (x : Option Job) : (s.setJob n x).a12 = s.a12 := rfl
@[simp] theorem State.setJob_serial (s : State) (n : Nat) (x : Option Job) : (s.setJob n x).serial = s.serial := rfl
@[simp] theorem State.setJob_host (s : State) (n : Nat) (x : Option Job) : (s.setJob n x).host = s.host := rfl
@[simp] theorem State.setJob_cat (s : State) (n : Nat) (x : Option Job) : (s.setJob n x).cat = s.cat := rfl
@[simp] theorem State.setJob_journal (s : State) (n : Nat) (x : Option Job) : (s.setJob n x).journal = s.journal := rfl
@[simp] theorem State.setJob_ledger (s : State) (n : Nat) (x : Option Job) : (s.setJob n x).ledger = s.ledger := rfl
@[simp] theorem State.setJob_entropy (s : State) (n : Nat) (x : Option Job) : (s.setJob n x).entropy = s.entropy := rfl
@[simp] theorem State.setJob_store (s : State) (n : Nat) (x : Option Job) : (s.setJob n x).store = s.store := rfl
@[simp] theorem State.setJob_boot (s : State) (n : Nat) (x : Option Job) : (s.setJob n x).boot = s.boot := rfl
@[simp] theorem State.setJob_tamper (s : State) (n : Nat) (x : Option Job) : (s.setJob n x).tamper = s.tamper := rfl
@[simp] theorem State.setJob_cont (s : State) (n : Nat) (x : Option Job) : (s.setJob n x).cont = s.cont := rfl
@[simp] theorem State.setJob_cfgtx (s : State) (n : Nat) (x : Option Job) : (s.setJob n x).cfgtx = s.cfgtx := rfl
@[simp] theorem State.setJob_handover (s : State) (n : Nat) (x : Option Job) : (s.setJob n x).handover = s.handover := rfl
@[simp] theorem State.setJob_docW (s : State) (n : Nat) (x : Option Job) : (s.setJob n x).docW = s.docW := rfl
@[simp] theorem State.setJob_docE (s : State) (n : Nat) (x : Option Job) : (s.setJob n x).docE = s.docE := rfl
@[simp] theorem State.setJob_card0 (s : State) (n : Nat) (x : Option Job) : (s.setJob n x).card0 = s.card0 := rfl
@[simp] theorem State.setJob_card1 (s : State) (n : Nat) (x : Option Job) : (s.setJob n x).card1 = s.card1 := rfl
@[simp] theorem State.setJob_power (s : State) (n : Nat) (x : Option Job) : (s.setJob n x).power = s.power := rfl
@[simp] theorem State.setJob_evlog (s : State) (n : Nat) (x : Option Job) : (s.setJob n x).evlog = s.evlog := rfl

@[simp] theorem State.putJob_pending (s : State) (n : Nat) (x : Job) : (s.putJob n x).pending = s.pending := rfl
@[simp] theorem State.putJob_now (s : State) (n : Nat) (x : Job) : (s.putJob n x).now = s.now := rfl
@[simp] theorem State.putJob_freeCtr (s : State) (n : Nat) (x : Job) : (s.putJob n x).freeCtr = s.freeCtr := rfl
@[simp] theorem State.putJob_outbox (s : State) (n : Nat) (x : Job) : (s.putJob n x).outbox = s.outbox := rfl
@[simp] theorem State.putJob_a12 (s : State) (n : Nat) (x : Job) : (s.putJob n x).a12 = s.a12 := rfl
@[simp] theorem State.putJob_serial (s : State) (n : Nat) (x : Job) : (s.putJob n x).serial = s.serial := rfl
@[simp] theorem State.putJob_host (s : State) (n : Nat) (x : Job) : (s.putJob n x).host = s.host := rfl
@[simp] theorem State.putJob_cat (s : State) (n : Nat) (x : Job) : (s.putJob n x).cat = s.cat := rfl
@[simp] theorem State.putJob_journal (s : State) (n : Nat) (x : Job) : (s.putJob n x).journal = s.journal := rfl
@[simp] theorem State.putJob_ledger (s : State) (n : Nat) (x : Job) : (s.putJob n x).ledger = s.ledger := rfl
@[simp] theorem State.putJob_entropy (s : State) (n : Nat) (x : Job) : (s.putJob n x).entropy = s.entropy := rfl
@[simp] theorem State.putJob_store (s : State) (n : Nat) (x : Job) : (s.putJob n x).store = s.store := rfl
@[simp] theorem State.putJob_boot (s : State) (n : Nat) (x : Job) : (s.putJob n x).boot = s.boot := rfl
@[simp] theorem State.putJob_tamper (s : State) (n : Nat) (x : Job) : (s.putJob n x).tamper = s.tamper := rfl
@[simp] theorem State.putJob_cont (s : State) (n : Nat) (x : Job) : (s.putJob n x).cont = s.cont := rfl
@[simp] theorem State.putJob_cfgtx (s : State) (n : Nat) (x : Job) : (s.putJob n x).cfgtx = s.cfgtx := rfl
@[simp] theorem State.putJob_handover (s : State) (n : Nat) (x : Job) : (s.putJob n x).handover = s.handover := rfl
@[simp] theorem State.putJob_docW (s : State) (n : Nat) (x : Job) : (s.putJob n x).docW = s.docW := rfl
@[simp] theorem State.putJob_docE (s : State) (n : Nat) (x : Job) : (s.putJob n x).docE = s.docE := rfl
@[simp] theorem State.putJob_card0 (s : State) (n : Nat) (x : Job) : (s.putJob n x).card0 = s.card0 := rfl
@[simp] theorem State.putJob_card1 (s : State) (n : Nat) (x : Job) : (s.putJob n x).card1 = s.card1 := rfl
@[simp] theorem State.putJob_power (s : State) (n : Nat) (x : Job) : (s.putJob n x).power = s.power := rfl
@[simp] theorem State.putJob_evlog (s : State) (n : Nat) (x : Job) : (s.putJob n x).evlog = s.evlog := rfl

@[simp] theorem State.setGal_pending (s : State) (g : Nat) (x : Gallery) : (s.setGal g x).pending = s.pending := rfl
@[simp] theorem State.setGal_now (s : State) (g : Nat) (x : Gallery) : (s.setGal g x).now = s.now := rfl
@[simp] theorem State.setGal_freeCtr (s : State) (g : Nat) (x : Gallery) : (s.setGal g x).freeCtr = s.freeCtr := rfl
@[simp] theorem State.setGal_outbox (s : State) (g : Nat) (x : Gallery) : (s.setGal g x).outbox = s.outbox := rfl
@[simp] theorem State.setGal_a12 (s : State) (g : Nat) (x : Gallery) : (s.setGal g x).a12 = s.a12 := rfl
@[simp] theorem State.setGal_serial (s : State) (g : Nat) (x : Gallery) : (s.setGal g x).serial = s.serial := rfl
@[simp] theorem State.setGal_host (s : State) (g : Nat) (x : Gallery) : (s.setGal g x).host = s.host := rfl
@[simp] theorem State.setGal_cat (s : State) (g : Nat) (x : Gallery) : (s.setGal g x).cat = s.cat := rfl
@[simp] theorem State.setGal_journal (s : State) (g : Nat) (x : Gallery) : (s.setGal g x).journal = s.journal := rfl
@[simp] theorem State.setGal_ledger (s : State) (g : Nat) (x : Gallery) : (s.setGal g x).ledger = s.ledger := rfl
@[simp] theorem State.setGal_entropy (s : State) (g : Nat) (x : Gallery) : (s.setGal g x).entropy = s.entropy := rfl
@[simp] theorem State.setGal_store (s : State) (g : Nat) (x : Gallery) : (s.setGal g x).store = s.store := rfl
@[simp] theorem State.setGal_boot (s : State) (g : Nat) (x : Gallery) : (s.setGal g x).boot = s.boot := rfl
@[simp] theorem State.setGal_tamper (s : State) (g : Nat) (x : Gallery) : (s.setGal g x).tamper = s.tamper := rfl
@[simp] theorem State.setGal_cont (s : State) (g : Nat) (x : Gallery) : (s.setGal g x).cont = s.cont := rfl
@[simp] theorem State.setGal_cfgtx (s : State) (g : Nat) (x : Gallery) : (s.setGal g x).cfgtx = s.cfgtx := rfl
@[simp] theorem State.setGal_handover (s : State) (g : Nat) (x : Gallery) : (s.setGal g x).handover = s.handover := rfl
@[simp] theorem State.setGal_docW (s : State) (g : Nat) (x : Gallery) : (s.setGal g x).docW = s.docW := rfl
@[simp] theorem State.setGal_docE (s : State) (g : Nat) (x : Gallery) : (s.setGal g x).docE = s.docE := rfl
@[simp] theorem State.setGal_card0 (s : State) (g : Nat) (x : Gallery) : (s.setGal g x).card0 = s.card0 := rfl
@[simp] theorem State.setGal_card1 (s : State) (g : Nat) (x : Gallery) : (s.setGal g x).card1 = s.card1 := rfl
@[simp] theorem State.setGal_power (s : State) (g : Nat) (x : Gallery) : (s.setGal g x).power = s.power := rfl
@[simp] theorem State.setGal_evlog (s : State) (g : Nat) (x : Gallery) : (s.setGal g x).evlog = s.evlog := rfl

@[simp] theorem State.setPage_pending (s : State) (p : Nat) (x : CompatPage) : (s.setPage p x).pending = s.pending := rfl
@[simp] theorem State.setPage_now (s : State) (p : Nat) (x : CompatPage) : (s.setPage p x).now = s.now := rfl
@[simp] theorem State.setPage_freeCtr (s : State) (p : Nat) (x : CompatPage) : (s.setPage p x).freeCtr = s.freeCtr := rfl
@[simp] theorem State.setPage_outbox (s : State) (p : Nat) (x : CompatPage) : (s.setPage p x).outbox = s.outbox := rfl
@[simp] theorem State.setPage_a12 (s : State) (p : Nat) (x : CompatPage) : (s.setPage p x).a12 = s.a12 := rfl
@[simp] theorem State.setPage_serial (s : State) (p : Nat) (x : CompatPage) : (s.setPage p x).serial = s.serial := rfl
@[simp] theorem State.setPage_host (s : State) (p : Nat) (x : CompatPage) : (s.setPage p x).host = s.host := rfl
@[simp] theorem State.setPage_cat (s : State) (p : Nat) (x : CompatPage) : (s.setPage p x).cat = s.cat := rfl
@[simp] theorem State.setPage_journal (s : State) (p : Nat) (x : CompatPage) : (s.setPage p x).journal = s.journal := rfl
@[simp] theorem State.setPage_ledger (s : State) (p : Nat) (x : CompatPage) : (s.setPage p x).ledger = s.ledger := rfl
@[simp] theorem State.setPage_entropy (s : State) (p : Nat) (x : CompatPage) : (s.setPage p x).entropy = s.entropy := rfl
@[simp] theorem State.setPage_store (s : State) (p : Nat) (x : CompatPage) : (s.setPage p x).store = s.store := rfl
@[simp] theorem State.setPage_boot (s : State) (p : Nat) (x : CompatPage) : (s.setPage p x).boot = s.boot := rfl
@[simp] theorem State.setPage_tamper (s : State) (p : Nat) (x : CompatPage) : (s.setPage p x).tamper = s.tamper := rfl
@[simp] theorem State.setPage_cont (s : State) (p : Nat) (x : CompatPage) : (s.setPage p x).cont = s.cont := rfl
@[simp] theorem State.setPage_cfgtx (s : State) (p : Nat) (x : CompatPage) : (s.setPage p x).cfgtx = s.cfgtx := rfl
@[simp] theorem State.setPage_handover (s : State) (p : Nat) (x : CompatPage) : (s.setPage p x).handover = s.handover := rfl
@[simp] theorem State.setPage_docW (s : State) (p : Nat) (x : CompatPage) : (s.setPage p x).docW = s.docW := rfl
@[simp] theorem State.setPage_docE (s : State) (p : Nat) (x : CompatPage) : (s.setPage p x).docE = s.docE := rfl
@[simp] theorem State.setPage_card0 (s : State) (p : Nat) (x : CompatPage) : (s.setPage p x).card0 = s.card0 := rfl
@[simp] theorem State.setPage_card1 (s : State) (p : Nat) (x : CompatPage) : (s.setPage p x).card1 = s.card1 := rfl
@[simp] theorem State.setPage_power (s : State) (p : Nat) (x : CompatPage) : (s.setPage p x).power = s.power := rfl
@[simp] theorem State.setPage_evlog (s : State) (p : Nat) (x : CompatPage) : (s.setPage p x).evlog = s.evlog := rfl

@[simp] theorem State.setLoan_pending (s : State) (n : Nat) (x : Loan) : (s.setLoan n x).pending = s.pending := rfl
@[simp] theorem State.setLoan_now (s : State) (n : Nat) (x : Loan) : (s.setLoan n x).now = s.now := rfl
@[simp] theorem State.setLoan_freeCtr (s : State) (n : Nat) (x : Loan) : (s.setLoan n x).freeCtr = s.freeCtr := rfl
@[simp] theorem State.setLoan_outbox (s : State) (n : Nat) (x : Loan) : (s.setLoan n x).outbox = s.outbox := rfl
@[simp] theorem State.setLoan_a12 (s : State) (n : Nat) (x : Loan) : (s.setLoan n x).a12 = s.a12 := rfl
@[simp] theorem State.setLoan_serial (s : State) (n : Nat) (x : Loan) : (s.setLoan n x).serial = s.serial := rfl
@[simp] theorem State.setLoan_host (s : State) (n : Nat) (x : Loan) : (s.setLoan n x).host = s.host := rfl
@[simp] theorem State.setLoan_work (s : State) (n : Nat) (x : Loan) : (s.setLoan n x).work = s.work := rfl
@[simp] theorem State.setLoan_journal (s : State) (n : Nat) (x : Loan) : (s.setLoan n x).journal = s.journal := rfl
@[simp] theorem State.setLoan_ledger (s : State) (n : Nat) (x : Loan) : (s.setLoan n x).ledger = s.ledger := rfl
@[simp] theorem State.setLoan_entropy (s : State) (n : Nat) (x : Loan) : (s.setLoan n x).entropy = s.entropy := rfl
@[simp] theorem State.setLoan_store (s : State) (n : Nat) (x : Loan) : (s.setLoan n x).store = s.store := rfl
@[simp] theorem State.setLoan_boot (s : State) (n : Nat) (x : Loan) : (s.setLoan n x).boot = s.boot := rfl
@[simp] theorem State.setLoan_tamper (s : State) (n : Nat) (x : Loan) : (s.setLoan n x).tamper = s.tamper := rfl
@[simp] theorem State.setLoan_cont (s : State) (n : Nat) (x : Loan) : (s.setLoan n x).cont = s.cont := rfl
@[simp] theorem State.setLoan_cfgtx (s : State) (n : Nat) (x : Loan) : (s.setLoan n x).cfgtx = s.cfgtx := rfl
@[simp] theorem State.setLoan_handover (s : State) (n : Nat) (x : Loan) : (s.setLoan n x).handover = s.handover := rfl
@[simp] theorem State.setLoan_docW (s : State) (n : Nat) (x : Loan) : (s.setLoan n x).docW = s.docW := rfl
@[simp] theorem State.setLoan_docE (s : State) (n : Nat) (x : Loan) : (s.setLoan n x).docE = s.docE := rfl
@[simp] theorem State.setLoan_card0 (s : State) (n : Nat) (x : Loan) : (s.setLoan n x).card0 = s.card0 := rfl
@[simp] theorem State.setLoan_card1 (s : State) (n : Nat) (x : Loan) : (s.setLoan n x).card1 = s.card1 := rfl
@[simp] theorem State.setLoan_power (s : State) (n : Nat) (x : Loan) : (s.setLoan n x).power = s.power := rfl
@[simp] theorem State.setLoan_evlog (s : State) (n : Nat) (x : Loan) : (s.setLoan n x).evlog = s.evlog := rfl

@[simp] theorem State.setEntry_pending (s : State) (x : CatRecord) : (s.setEntry x).pending = s.pending := rfl
@[simp] theorem State.setEntry_now (s : State) (x : CatRecord) : (s.setEntry x).now = s.now := rfl
@[simp] theorem State.setEntry_freeCtr (s : State) (x : CatRecord) : (s.setEntry x).freeCtr = s.freeCtr := rfl
@[simp] theorem State.setEntry_outbox (s : State) (x : CatRecord) : (s.setEntry x).outbox = s.outbox := rfl
@[simp] theorem State.setEntry_a12 (s : State) (x : CatRecord) : (s.setEntry x).a12 = s.a12 := rfl
@[simp] theorem State.setEntry_serial (s : State) (x : CatRecord) : (s.setEntry x).serial = s.serial := rfl
@[simp] theorem State.setEntry_host (s : State) (x : CatRecord) : (s.setEntry x).host = s.host := rfl
@[simp] theorem State.setEntry_work (s : State) (x : CatRecord) : (s.setEntry x).work = s.work := rfl
@[simp] theorem State.setEntry_journal (s : State) (x : CatRecord) : (s.setEntry x).journal = s.journal := rfl
@[simp] theorem State.setEntry_ledger (s : State) (x : CatRecord) : (s.setEntry x).ledger = s.ledger := rfl
@[simp] theorem State.setEntry_entropy (s : State) (x : CatRecord) : (s.setEntry x).entropy = s.entropy := rfl
@[simp] theorem State.setEntry_store (s : State) (x : CatRecord) : (s.setEntry x).store = s.store := rfl
@[simp] theorem State.setEntry_boot (s : State) (x : CatRecord) : (s.setEntry x).boot = s.boot := rfl
@[simp] theorem State.setEntry_tamper (s : State) (x : CatRecord) : (s.setEntry x).tamper = s.tamper := rfl
@[simp] theorem State.setEntry_cont (s : State) (x : CatRecord) : (s.setEntry x).cont = s.cont := rfl
@[simp] theorem State.setEntry_cfgtx (s : State) (x : CatRecord) : (s.setEntry x).cfgtx = s.cfgtx := rfl
@[simp] theorem State.setEntry_handover (s : State) (x : CatRecord) : (s.setEntry x).handover = s.handover := rfl
@[simp] theorem State.setEntry_docW (s : State) (x : CatRecord) : (s.setEntry x).docW = s.docW := rfl
@[simp] theorem State.setEntry_docE (s : State) (x : CatRecord) : (s.setEntry x).docE = s.docE := rfl
@[simp] theorem State.setEntry_card0 (s : State) (x : CatRecord) : (s.setEntry x).card0 = s.card0 := rfl
@[simp] theorem State.setEntry_card1 (s : State) (x : CatRecord) : (s.setEntry x).card1 = s.card1 := rfl
@[simp] theorem State.setEntry_power (s : State) (x : CatRecord) : (s.setEntry x).power = s.power := rfl
@[simp] theorem State.setEntry_evlog (s : State) (x : CatRecord) : (s.setEntry x).evlog = s.evlog := rfl

@[simp] theorem State.setSlot_pending (s : State) (n : Nat) (x : LedgerSlot) : (s.setSlot n x).pending = s.pending := rfl
@[simp] theorem State.setSlot_now (s : State) (n : Nat) (x : LedgerSlot) : (s.setSlot n x).now = s.now := rfl
@[simp] theorem State.setSlot_freeCtr (s : State) (n : Nat) (x : LedgerSlot) : (s.setSlot n x).freeCtr = s.freeCtr := rfl
@[simp] theorem State.setSlot_outbox (s : State) (n : Nat) (x : LedgerSlot) : (s.setSlot n x).outbox = s.outbox := rfl
@[simp] theorem State.setSlot_a12 (s : State) (n : Nat) (x : LedgerSlot) : (s.setSlot n x).a12 = s.a12 := rfl
@[simp] theorem State.setSlot_serial (s : State) (n : Nat) (x : LedgerSlot) : (s.setSlot n x).serial = s.serial := rfl
@[simp] theorem State.setSlot_host (s : State) (n : Nat) (x : LedgerSlot) : (s.setSlot n x).host = s.host := rfl
@[simp] theorem State.setSlot_work (s : State) (n : Nat) (x : LedgerSlot) : (s.setSlot n x).work = s.work := rfl
@[simp] theorem State.setSlot_cat (s : State) (n : Nat) (x : LedgerSlot) : (s.setSlot n x).cat = s.cat := rfl
@[simp] theorem State.setSlot_journal (s : State) (n : Nat) (x : LedgerSlot) : (s.setSlot n x).journal = s.journal := rfl
@[simp] theorem State.setSlot_entropy (s : State) (n : Nat) (x : LedgerSlot) : (s.setSlot n x).entropy = s.entropy := rfl
@[simp] theorem State.setSlot_store (s : State) (n : Nat) (x : LedgerSlot) : (s.setSlot n x).store = s.store := rfl
@[simp] theorem State.setSlot_boot (s : State) (n : Nat) (x : LedgerSlot) : (s.setSlot n x).boot = s.boot := rfl
@[simp] theorem State.setSlot_tamper (s : State) (n : Nat) (x : LedgerSlot) : (s.setSlot n x).tamper = s.tamper := rfl
@[simp] theorem State.setSlot_cont (s : State) (n : Nat) (x : LedgerSlot) : (s.setSlot n x).cont = s.cont := rfl
@[simp] theorem State.setSlot_cfgtx (s : State) (n : Nat) (x : LedgerSlot) : (s.setSlot n x).cfgtx = s.cfgtx := rfl
@[simp] theorem State.setSlot_handover (s : State) (n : Nat) (x : LedgerSlot) : (s.setSlot n x).handover = s.handover := rfl
@[simp] theorem State.setSlot_docW (s : State) (n : Nat) (x : LedgerSlot) : (s.setSlot n x).docW = s.docW := rfl
@[simp] theorem State.setSlot_docE (s : State) (n : Nat) (x : LedgerSlot) : (s.setSlot n x).docE = s.docE := rfl
@[simp] theorem State.setSlot_card0 (s : State) (n : Nat) (x : LedgerSlot) : (s.setSlot n x).card0 = s.card0 := rfl
@[simp] theorem State.setSlot_card1 (s : State) (n : Nat) (x : LedgerSlot) : (s.setSlot n x).card1 = s.card1 := rfl
@[simp] theorem State.setSlot_power (s : State) (n : Nat) (x : LedgerSlot) : (s.setSlot n x).power = s.power := rfl
@[simp] theorem State.setSlot_evlog (s : State) (n : Nat) (x : LedgerSlot) : (s.setSlot n x).evlog = s.evlog := rfl

@[simp] theorem State.setSource_pending (s : State) (k : Nat) (x : Source) : (s.setSource k x).pending = s.pending := rfl
@[simp] theorem State.setSource_now (s : State) (k : Nat) (x : Source) : (s.setSource k x).now = s.now := rfl
@[simp] theorem State.setSource_freeCtr (s : State) (k : Nat) (x : Source) : (s.setSource k x).freeCtr = s.freeCtr := rfl
@[simp] theorem State.setSource_outbox (s : State) (k : Nat) (x : Source) : (s.setSource k x).outbox = s.outbox := rfl
@[simp] theorem State.setSource_a12 (s : State) (k : Nat) (x : Source) : (s.setSource k x).a12 = s.a12 := rfl
@[simp] theorem State.setSource_serial (s : State) (k : Nat) (x : Source) : (s.setSource k x).serial = s.serial := rfl
@[simp] theorem State.setSource_host (s : State) (k : Nat) (x : Source) : (s.setSource k x).host = s.host := rfl
@[simp] theorem State.setSource_work (s : State) (k : Nat) (x : Source) : (s.setSource k x).work = s.work := rfl
@[simp] theorem State.setSource_cat (s : State) (k : Nat) (x : Source) : (s.setSource k x).cat = s.cat := rfl
@[simp] theorem State.setSource_journal (s : State) (k : Nat) (x : Source) : (s.setSource k x).journal = s.journal := rfl
@[simp] theorem State.setSource_ledger (s : State) (k : Nat) (x : Source) : (s.setSource k x).ledger = s.ledger := rfl
@[simp] theorem State.setSource_store (s : State) (k : Nat) (x : Source) : (s.setSource k x).store = s.store := rfl
@[simp] theorem State.setSource_boot (s : State) (k : Nat) (x : Source) : (s.setSource k x).boot = s.boot := rfl
@[simp] theorem State.setSource_tamper (s : State) (k : Nat) (x : Source) : (s.setSource k x).tamper = s.tamper := rfl
@[simp] theorem State.setSource_cont (s : State) (k : Nat) (x : Source) : (s.setSource k x).cont = s.cont := rfl
@[simp] theorem State.setSource_cfgtx (s : State) (k : Nat) (x : Source) : (s.setSource k x).cfgtx = s.cfgtx := rfl
@[simp] theorem State.setSource_handover (s : State) (k : Nat) (x : Source) : (s.setSource k x).handover = s.handover := rfl
@[simp] theorem State.setSource_docW (s : State) (k : Nat) (x : Source) : (s.setSource k x).docW = s.docW := rfl
@[simp] theorem State.setSource_docE (s : State) (k : Nat) (x : Source) : (s.setSource k x).docE = s.docE := rfl
@[simp] theorem State.setSource_card0 (s : State) (k : Nat) (x : Source) : (s.setSource k x).card0 = s.card0 := rfl
@[simp] theorem State.setSource_card1 (s : State) (k : Nat) (x : Source) : (s.setSource k x).card1 = s.card1 := rfl
@[simp] theorem State.setSource_power (s : State) (k : Nat) (x : Source) : (s.setSource k x).power = s.power := rfl
@[simp] theorem State.setSource_evlog (s : State) (k : Nat) (x : Source) : (s.setSource k x).evlog = s.evlog := rfl

@[simp] theorem State.setPool_pending (s : State) (p : Pool) (x : PoolState) : (s.setPool p x).pending = s.pending := rfl
@[simp] theorem State.setPool_now (s : State) (p : Pool) (x : PoolState) : (s.setPool p x).now = s.now := rfl
@[simp] theorem State.setPool_freeCtr (s : State) (p : Pool) (x : PoolState) : (s.setPool p x).freeCtr = s.freeCtr := rfl
@[simp] theorem State.setPool_outbox (s : State) (p : Pool) (x : PoolState) : (s.setPool p x).outbox = s.outbox := rfl
@[simp] theorem State.setPool_a12 (s : State) (p : Pool) (x : PoolState) : (s.setPool p x).a12 = s.a12 := rfl
@[simp] theorem State.setPool_serial (s : State) (p : Pool) (x : PoolState) : (s.setPool p x).serial = s.serial := rfl
@[simp] theorem State.setPool_host (s : State) (p : Pool) (x : PoolState) : (s.setPool p x).host = s.host := rfl
@[simp] theorem State.setPool_work (s : State) (p : Pool) (x : PoolState) : (s.setPool p x).work = s.work := rfl
@[simp] theorem State.setPool_cat (s : State) (p : Pool) (x : PoolState) : (s.setPool p x).cat = s.cat := rfl
@[simp] theorem State.setPool_journal (s : State) (p : Pool) (x : PoolState) : (s.setPool p x).journal = s.journal := rfl
@[simp] theorem State.setPool_ledger (s : State) (p : Pool) (x : PoolState) : (s.setPool p x).ledger = s.ledger := rfl
@[simp] theorem State.setPool_store (s : State) (p : Pool) (x : PoolState) : (s.setPool p x).store = s.store := rfl
@[simp] theorem State.setPool_boot (s : State) (p : Pool) (x : PoolState) : (s.setPool p x).boot = s.boot := rfl
@[simp] theorem State.setPool_tamper (s : State) (p : Pool) (x : PoolState) : (s.setPool p x).tamper = s.tamper := rfl
@[simp] theorem State.setPool_cont (s : State) (p : Pool) (x : PoolState) : (s.setPool p x).cont = s.cont := rfl
@[simp] theorem State.setPool_cfgtx (s : State) (p : Pool) (x : PoolState) : (s.setPool p x).cfgtx = s.cfgtx := rfl
@[simp] theorem State.setPool_handover (s : State) (p : Pool) (x : PoolState) : (s.setPool p x).handover = s.handover := rfl
@[simp] theorem State.setPool_docW (s : State) (p : Pool) (x : PoolState) : (s.setPool p x).docW = s.docW := rfl
@[simp] theorem State.setPool_docE (s : State) (p : Pool) (x : PoolState) : (s.setPool p x).docE = s.docE := rfl
@[simp] theorem State.setPool_card0 (s : State) (p : Pool) (x : PoolState) : (s.setPool p x).card0 = s.card0 := rfl
@[simp] theorem State.setPool_card1 (s : State) (p : Pool) (x : PoolState) : (s.setPool p x).card1 = s.card1 := rfl
@[simp] theorem State.setPool_power (s : State) (p : Pool) (x : PoolState) : (s.setPool p x).power = s.power := rfl
@[simp] theorem State.setPool_evlog (s : State) (p : Pool) (x : PoolState) : (s.setPool p x).evlog = s.evlog := rfl

@[simp] theorem State.setDrbg_pending (s : State) (d : Drbg) (x : DrbgState) : (s.setDrbg d x).pending = s.pending := rfl
@[simp] theorem State.setDrbg_now (s : State) (d : Drbg) (x : DrbgState) : (s.setDrbg d x).now = s.now := rfl
@[simp] theorem State.setDrbg_freeCtr (s : State) (d : Drbg) (x : DrbgState) : (s.setDrbg d x).freeCtr = s.freeCtr := rfl
@[simp] theorem State.setDrbg_outbox (s : State) (d : Drbg) (x : DrbgState) : (s.setDrbg d x).outbox = s.outbox := rfl
@[simp] theorem State.setDrbg_a12 (s : State) (d : Drbg) (x : DrbgState) : (s.setDrbg d x).a12 = s.a12 := rfl
@[simp] theorem State.setDrbg_serial (s : State) (d : Drbg) (x : DrbgState) : (s.setDrbg d x).serial = s.serial := rfl
@[simp] theorem State.setDrbg_host (s : State) (d : Drbg) (x : DrbgState) : (s.setDrbg d x).host = s.host := rfl
@[simp] theorem State.setDrbg_work (s : State) (d : Drbg) (x : DrbgState) : (s.setDrbg d x).work = s.work := rfl
@[simp] theorem State.setDrbg_cat (s : State) (d : Drbg) (x : DrbgState) : (s.setDrbg d x).cat = s.cat := rfl
@[simp] theorem State.setDrbg_journal (s : State) (d : Drbg) (x : DrbgState) : (s.setDrbg d x).journal = s.journal := rfl
@[simp] theorem State.setDrbg_ledger (s : State) (d : Drbg) (x : DrbgState) : (s.setDrbg d x).ledger = s.ledger := rfl
@[simp] theorem State.setDrbg_store (s : State) (d : Drbg) (x : DrbgState) : (s.setDrbg d x).store = s.store := rfl
@[simp] theorem State.setDrbg_boot (s : State) (d : Drbg) (x : DrbgState) : (s.setDrbg d x).boot = s.boot := rfl
@[simp] theorem State.setDrbg_tamper (s : State) (d : Drbg) (x : DrbgState) : (s.setDrbg d x).tamper = s.tamper := rfl
@[simp] theorem State.setDrbg_cont (s : State) (d : Drbg) (x : DrbgState) : (s.setDrbg d x).cont = s.cont := rfl
@[simp] theorem State.setDrbg_cfgtx (s : State) (d : Drbg) (x : DrbgState) : (s.setDrbg d x).cfgtx = s.cfgtx := rfl
@[simp] theorem State.setDrbg_handover (s : State) (d : Drbg) (x : DrbgState) : (s.setDrbg d x).handover = s.handover := rfl
@[simp] theorem State.setDrbg_docW (s : State) (d : Drbg) (x : DrbgState) : (s.setDrbg d x).docW = s.docW := rfl
@[simp] theorem State.setDrbg_docE (s : State) (d : Drbg) (x : DrbgState) : (s.setDrbg d x).docE = s.docE := rfl
@[simp] theorem State.setDrbg_card0 (s : State) (d : Drbg) (x : DrbgState) : (s.setDrbg d x).card0 = s.card0 := rfl
@[simp] theorem State.setDrbg_card1 (s : State) (d : Drbg) (x : DrbgState) : (s.setDrbg d x).card1 = s.card1 := rfl
@[simp] theorem State.setDrbg_power (s : State) (d : Drbg) (x : DrbgState) : (s.setDrbg d x).power = s.power := rfl
@[simp] theorem State.setDrbg_evlog (s : State) (d : Drbg) (x : DrbgState) : (s.setDrbg d x).evlog = s.evlog := rfl

@[simp] theorem State.setMaskGen_pending (s : State) (m : MaskGen) (x : MaskState) : (s.setMaskGen m x).pending = s.pending := rfl
@[simp] theorem State.setMaskGen_now (s : State) (m : MaskGen) (x : MaskState) : (s.setMaskGen m x).now = s.now := rfl
@[simp] theorem State.setMaskGen_freeCtr (s : State) (m : MaskGen) (x : MaskState) : (s.setMaskGen m x).freeCtr = s.freeCtr := rfl
@[simp] theorem State.setMaskGen_outbox (s : State) (m : MaskGen) (x : MaskState) : (s.setMaskGen m x).outbox = s.outbox := rfl
@[simp] theorem State.setMaskGen_a12 (s : State) (m : MaskGen) (x : MaskState) : (s.setMaskGen m x).a12 = s.a12 := rfl
@[simp] theorem State.setMaskGen_serial (s : State) (m : MaskGen) (x : MaskState) : (s.setMaskGen m x).serial = s.serial := rfl
@[simp] theorem State.setMaskGen_host (s : State) (m : MaskGen) (x : MaskState) : (s.setMaskGen m x).host = s.host := rfl
@[simp] theorem State.setMaskGen_work (s : State) (m : MaskGen) (x : MaskState) : (s.setMaskGen m x).work = s.work := rfl
@[simp] theorem State.setMaskGen_cat (s : State) (m : MaskGen) (x : MaskState) : (s.setMaskGen m x).cat = s.cat := rfl
@[simp] theorem State.setMaskGen_journal (s : State) (m : MaskGen) (x : MaskState) : (s.setMaskGen m x).journal = s.journal := rfl
@[simp] theorem State.setMaskGen_ledger (s : State) (m : MaskGen) (x : MaskState) : (s.setMaskGen m x).ledger = s.ledger := rfl
@[simp] theorem State.setMaskGen_store (s : State) (m : MaskGen) (x : MaskState) : (s.setMaskGen m x).store = s.store := rfl
@[simp] theorem State.setMaskGen_boot (s : State) (m : MaskGen) (x : MaskState) : (s.setMaskGen m x).boot = s.boot := rfl
@[simp] theorem State.setMaskGen_tamper (s : State) (m : MaskGen) (x : MaskState) : (s.setMaskGen m x).tamper = s.tamper := rfl
@[simp] theorem State.setMaskGen_cont (s : State) (m : MaskGen) (x : MaskState) : (s.setMaskGen m x).cont = s.cont := rfl
@[simp] theorem State.setMaskGen_cfgtx (s : State) (m : MaskGen) (x : MaskState) : (s.setMaskGen m x).cfgtx = s.cfgtx := rfl
@[simp] theorem State.setMaskGen_handover (s : State) (m : MaskGen) (x : MaskState) : (s.setMaskGen m x).handover = s.handover := rfl
@[simp] theorem State.setMaskGen_docW (s : State) (m : MaskGen) (x : MaskState) : (s.setMaskGen m x).docW = s.docW := rfl
@[simp] theorem State.setMaskGen_docE (s : State) (m : MaskGen) (x : MaskState) : (s.setMaskGen m x).docE = s.docE := rfl
@[simp] theorem State.setMaskGen_card0 (s : State) (m : MaskGen) (x : MaskState) : (s.setMaskGen m x).card0 = s.card0 := rfl
@[simp] theorem State.setMaskGen_card1 (s : State) (m : MaskGen) (x : MaskState) : (s.setMaskGen m x).card1 = s.card1 := rfl
@[simp] theorem State.setMaskGen_power (s : State) (m : MaskGen) (x : MaskState) : (s.setMaskGen m x).power = s.power := rfl
@[simp] theorem State.setMaskGen_evlog (s : State) (m : MaskGen) (x : MaskState) : (s.setMaskGen m x).evlog = s.evlog := rfl

@[simp] theorem State.setStoreWing_pending (s : State) (w : Wing) (x : StoreWing) : (s.setStoreWing w x).pending = s.pending := by cases w <;> rfl
@[simp] theorem State.setStoreWing_now (s : State) (w : Wing) (x : StoreWing) : (s.setStoreWing w x).now = s.now := by cases w <;> rfl
@[simp] theorem State.setStoreWing_freeCtr (s : State) (w : Wing) (x : StoreWing) : (s.setStoreWing w x).freeCtr = s.freeCtr := by cases w <;> rfl
@[simp] theorem State.setStoreWing_outbox (s : State) (w : Wing) (x : StoreWing) : (s.setStoreWing w x).outbox = s.outbox := by cases w <;> rfl
@[simp] theorem State.setStoreWing_a12 (s : State) (w : Wing) (x : StoreWing) : (s.setStoreWing w x).a12 = s.a12 := by cases w <;> rfl
@[simp] theorem State.setStoreWing_serial (s : State) (w : Wing) (x : StoreWing) : (s.setStoreWing w x).serial = s.serial := by cases w <;> rfl
@[simp] theorem State.setStoreWing_host (s : State) (w : Wing) (x : StoreWing) : (s.setStoreWing w x).host = s.host := by cases w <;> rfl
@[simp] theorem State.setStoreWing_work (s : State) (w : Wing) (x : StoreWing) : (s.setStoreWing w x).work = s.work := by cases w <;> rfl
@[simp] theorem State.setStoreWing_cat (s : State) (w : Wing) (x : StoreWing) : (s.setStoreWing w x).cat = s.cat := by cases w <;> rfl
@[simp] theorem State.setStoreWing_journal (s : State) (w : Wing) (x : StoreWing) : (s.setStoreWing w x).journal = s.journal := by cases w <;> rfl
@[simp] theorem State.setStoreWing_ledger (s : State) (w : Wing) (x : StoreWing) : (s.setStoreWing w x).ledger = s.ledger := by cases w <;> rfl
@[simp] theorem State.setStoreWing_entropy (s : State) (w : Wing) (x : StoreWing) : (s.setStoreWing w x).entropy = s.entropy := by cases w <;> rfl
@[simp] theorem State.setStoreWing_boot (s : State) (w : Wing) (x : StoreWing) : (s.setStoreWing w x).boot = s.boot := by cases w <;> rfl
@[simp] theorem State.setStoreWing_tamper (s : State) (w : Wing) (x : StoreWing) : (s.setStoreWing w x).tamper = s.tamper := by cases w <;> rfl
@[simp] theorem State.setStoreWing_cont (s : State) (w : Wing) (x : StoreWing) : (s.setStoreWing w x).cont = s.cont := by cases w <;> rfl
@[simp] theorem State.setStoreWing_cfgtx (s : State) (w : Wing) (x : StoreWing) : (s.setStoreWing w x).cfgtx = s.cfgtx := by cases w <;> rfl
@[simp] theorem State.setStoreWing_handover (s : State) (w : Wing) (x : StoreWing) : (s.setStoreWing w x).handover = s.handover := by cases w <;> rfl
@[simp] theorem State.setStoreWing_docW (s : State) (w : Wing) (x : StoreWing) : (s.setStoreWing w x).docW = s.docW := by cases w <;> rfl
@[simp] theorem State.setStoreWing_docE (s : State) (w : Wing) (x : StoreWing) : (s.setStoreWing w x).docE = s.docE := by cases w <;> rfl
@[simp] theorem State.setStoreWing_card0 (s : State) (w : Wing) (x : StoreWing) : (s.setStoreWing w x).card0 = s.card0 := by cases w <;> rfl
@[simp] theorem State.setStoreWing_card1 (s : State) (w : Wing) (x : StoreWing) : (s.setStoreWing w x).card1 = s.card1 := by cases w <;> rfl
@[simp] theorem State.setStoreWing_power (s : State) (w : Wing) (x : StoreWing) : (s.setStoreWing w x).power = s.power := by cases w <;> rfl
@[simp] theorem State.setStoreWing_evlog (s : State) (w : Wing) (x : StoreWing) : (s.setStoreWing w x).evlog = s.evlog := by cases w <;> rfl

@[simp] theorem State.setChannel_pending (s : State) (c : Nat) (x : Channel) : (s.setChannel c x).pending = s.pending := rfl
@[simp] theorem State.setChannel_now (s : State) (c : Nat) (x : Channel) : (s.setChannel c x).now = s.now := rfl
@[simp] theorem State.setChannel_freeCtr (s : State) (c : Nat) (x : Channel) : (s.setChannel c x).freeCtr = s.freeCtr := rfl
@[simp] theorem State.setChannel_outbox (s : State) (c : Nat) (x : Channel) : (s.setChannel c x).outbox = s.outbox := rfl
@[simp] theorem State.setChannel_a12 (s : State) (c : Nat) (x : Channel) : (s.setChannel c x).a12 = s.a12 := rfl
@[simp] theorem State.setChannel_serial (s : State) (c : Nat) (x : Channel) : (s.setChannel c x).serial = s.serial := rfl
@[simp] theorem State.setChannel_host (s : State) (c : Nat) (x : Channel) : (s.setChannel c x).host = s.host := rfl
@[simp] theorem State.setChannel_work (s : State) (c : Nat) (x : Channel) : (s.setChannel c x).work = s.work := rfl
@[simp] theorem State.setChannel_cat (s : State) (c : Nat) (x : Channel) : (s.setChannel c x).cat = s.cat := rfl
@[simp] theorem State.setChannel_journal (s : State) (c : Nat) (x : Channel) : (s.setChannel c x).journal = s.journal := rfl
@[simp] theorem State.setChannel_ledger (s : State) (c : Nat) (x : Channel) : (s.setChannel c x).ledger = s.ledger := rfl
@[simp] theorem State.setChannel_entropy (s : State) (c : Nat) (x : Channel) : (s.setChannel c x).entropy = s.entropy := rfl
@[simp] theorem State.setChannel_boot (s : State) (c : Nat) (x : Channel) : (s.setChannel c x).boot = s.boot := rfl
@[simp] theorem State.setChannel_tamper (s : State) (c : Nat) (x : Channel) : (s.setChannel c x).tamper = s.tamper := rfl
@[simp] theorem State.setChannel_cont (s : State) (c : Nat) (x : Channel) : (s.setChannel c x).cont = s.cont := rfl
@[simp] theorem State.setChannel_cfgtx (s : State) (c : Nat) (x : Channel) : (s.setChannel c x).cfgtx = s.cfgtx := rfl
@[simp] theorem State.setChannel_handover (s : State) (c : Nat) (x : Channel) : (s.setChannel c x).handover = s.handover := rfl
@[simp] theorem State.setChannel_docW (s : State) (c : Nat) (x : Channel) : (s.setChannel c x).docW = s.docW := rfl
@[simp] theorem State.setChannel_docE (s : State) (c : Nat) (x : Channel) : (s.setChannel c x).docE = s.docE := rfl
@[simp] theorem State.setChannel_card0 (s : State) (c : Nat) (x : Channel) : (s.setChannel c x).card0 = s.card0 := rfl
@[simp] theorem State.setChannel_card1 (s : State) (c : Nat) (x : Channel) : (s.setChannel c x).card1 = s.card1 := rfl
@[simp] theorem State.setChannel_power (s : State) (c : Nat) (x : Channel) : (s.setChannel c x).power = s.power := rfl
@[simp] theorem State.setChannel_evlog (s : State) (c : Nat) (x : Channel) : (s.setChannel c x).evlog = s.evlog := rfl

@[simp] theorem State.setTile_pending (s : State) (t : TileId) (x : Tile) : (s.setTile t x).pending = s.pending := by rcases t with ⟨w, _⟩; cases w <;> rfl
@[simp] theorem State.setTile_now (s : State) (t : TileId) (x : Tile) : (s.setTile t x).now = s.now := by rcases t with ⟨w, _⟩; cases w <;> rfl
@[simp] theorem State.setTile_freeCtr (s : State) (t : TileId) (x : Tile) : (s.setTile t x).freeCtr = s.freeCtr := by rcases t with ⟨w, _⟩; cases w <;> rfl
@[simp] theorem State.setTile_outbox (s : State) (t : TileId) (x : Tile) : (s.setTile t x).outbox = s.outbox := by rcases t with ⟨w, _⟩; cases w <;> rfl
@[simp] theorem State.setTile_a12 (s : State) (t : TileId) (x : Tile) : (s.setTile t x).a12 = s.a12 := by rcases t with ⟨w, _⟩; cases w <;> rfl
@[simp] theorem State.setTile_serial (s : State) (t : TileId) (x : Tile) : (s.setTile t x).serial = s.serial := by rcases t with ⟨w, _⟩; cases w <;> rfl
@[simp] theorem State.setTile_host (s : State) (t : TileId) (x : Tile) : (s.setTile t x).host = s.host := by rcases t with ⟨w, _⟩; cases w <;> rfl
@[simp] theorem State.setTile_work (s : State) (t : TileId) (x : Tile) : (s.setTile t x).work = s.work := by rcases t with ⟨w, _⟩; cases w <;> rfl
@[simp] theorem State.setTile_cat (s : State) (t : TileId) (x : Tile) : (s.setTile t x).cat = s.cat := by rcases t with ⟨w, _⟩; cases w <;> rfl
@[simp] theorem State.setTile_journal (s : State) (t : TileId) (x : Tile) : (s.setTile t x).journal = s.journal := by rcases t with ⟨w, _⟩; cases w <;> rfl
@[simp] theorem State.setTile_ledger (s : State) (t : TileId) (x : Tile) : (s.setTile t x).ledger = s.ledger := by rcases t with ⟨w, _⟩; cases w <;> rfl
@[simp] theorem State.setTile_entropy (s : State) (t : TileId) (x : Tile) : (s.setTile t x).entropy = s.entropy := by rcases t with ⟨w, _⟩; cases w <;> rfl
@[simp] theorem State.setTile_boot (s : State) (t : TileId) (x : Tile) : (s.setTile t x).boot = s.boot := by rcases t with ⟨w, _⟩; cases w <;> rfl
@[simp] theorem State.setTile_tamper (s : State) (t : TileId) (x : Tile) : (s.setTile t x).tamper = s.tamper := by rcases t with ⟨w, _⟩; cases w <;> rfl
@[simp] theorem State.setTile_cont (s : State) (t : TileId) (x : Tile) : (s.setTile t x).cont = s.cont := by rcases t with ⟨w, _⟩; cases w <;> rfl
@[simp] theorem State.setTile_cfgtx (s : State) (t : TileId) (x : Tile) : (s.setTile t x).cfgtx = s.cfgtx := by rcases t with ⟨w, _⟩; cases w <;> rfl
@[simp] theorem State.setTile_handover (s : State) (t : TileId) (x : Tile) : (s.setTile t x).handover = s.handover := by rcases t with ⟨w, _⟩; cases w <;> rfl
@[simp] theorem State.setTile_docW (s : State) (t : TileId) (x : Tile) : (s.setTile t x).docW = s.docW := by rcases t with ⟨w, _⟩; cases w <;> rfl
@[simp] theorem State.setTile_docE (s : State) (t : TileId) (x : Tile) : (s.setTile t x).docE = s.docE := by rcases t with ⟨w, _⟩; cases w <;> rfl
@[simp] theorem State.setTile_card0 (s : State) (t : TileId) (x : Tile) : (s.setTile t x).card0 = s.card0 := by rcases t with ⟨w, _⟩; cases w <;> rfl
@[simp] theorem State.setTile_card1 (s : State) (t : TileId) (x : Tile) : (s.setTile t x).card1 = s.card1 := by rcases t with ⟨w, _⟩; cases w <;> rfl
@[simp] theorem State.setTile_power (s : State) (t : TileId) (x : Tile) : (s.setTile t x).power = s.power := by rcases t with ⟨w, _⟩; cases w <;> rfl
@[simp] theorem State.setTile_evlog (s : State) (t : TileId) (x : Tile) : (s.setTile t x).evlog = s.evlog := by rcases t with ⟨w, _⟩; cases w <;> rfl

@[simp] theorem State.setNode_pending (s : State) (w : Wing) (l n : Nat) (x : Node) : (s.setNode w l n x).pending = s.pending := by cases w <;> rfl
@[simp] theorem State.setNode_now (s : State) (w : Wing) (l n : Nat) (x : Node) : (s.setNode w l n x).now = s.now := by cases w <;> rfl
@[simp] theorem State.setNode_freeCtr (s : State) (w : Wing) (l n : Nat) (x : Node) : (s.setNode w l n x).freeCtr = s.freeCtr := by cases w <;> rfl
@[simp] theorem State.setNode_outbox (s : State) (w : Wing) (l n : Nat) (x : Node) : (s.setNode w l n x).outbox = s.outbox := by cases w <;> rfl
@[simp] theorem State.setNode_a12 (s : State) (w : Wing) (l n : Nat) (x : Node) : (s.setNode w l n x).a12 = s.a12 := by cases w <;> rfl
@[simp] theorem State.setNode_serial (s : State) (w : Wing) (l n : Nat) (x : Node) : (s.setNode w l n x).serial = s.serial := by cases w <;> rfl
@[simp] theorem State.setNode_host (s : State) (w : Wing) (l n : Nat) (x : Node) : (s.setNode w l n x).host = s.host := by cases w <;> rfl
@[simp] theorem State.setNode_work (s : State) (w : Wing) (l n : Nat) (x : Node) : (s.setNode w l n x).work = s.work := by cases w <;> rfl
@[simp] theorem State.setNode_cat (s : State) (w : Wing) (l n : Nat) (x : Node) : (s.setNode w l n x).cat = s.cat := by cases w <;> rfl
@[simp] theorem State.setNode_journal (s : State) (w : Wing) (l n : Nat) (x : Node) : (s.setNode w l n x).journal = s.journal := by cases w <;> rfl
@[simp] theorem State.setNode_ledger (s : State) (w : Wing) (l n : Nat) (x : Node) : (s.setNode w l n x).ledger = s.ledger := by cases w <;> rfl
@[simp] theorem State.setNode_entropy (s : State) (w : Wing) (l n : Nat) (x : Node) : (s.setNode w l n x).entropy = s.entropy := by cases w <;> rfl
@[simp] theorem State.setNode_boot (s : State) (w : Wing) (l n : Nat) (x : Node) : (s.setNode w l n x).boot = s.boot := by cases w <;> rfl
@[simp] theorem State.setNode_tamper (s : State) (w : Wing) (l n : Nat) (x : Node) : (s.setNode w l n x).tamper = s.tamper := by cases w <;> rfl
@[simp] theorem State.setNode_cont (s : State) (w : Wing) (l n : Nat) (x : Node) : (s.setNode w l n x).cont = s.cont := by cases w <;> rfl
@[simp] theorem State.setNode_cfgtx (s : State) (w : Wing) (l n : Nat) (x : Node) : (s.setNode w l n x).cfgtx = s.cfgtx := by cases w <;> rfl
@[simp] theorem State.setNode_handover (s : State) (w : Wing) (l n : Nat) (x : Node) : (s.setNode w l n x).handover = s.handover := by cases w <;> rfl
@[simp] theorem State.setNode_docW (s : State) (w : Wing) (l n : Nat) (x : Node) : (s.setNode w l n x).docW = s.docW := by cases w <;> rfl
@[simp] theorem State.setNode_docE (s : State) (w : Wing) (l n : Nat) (x : Node) : (s.setNode w l n x).docE = s.docE := by cases w <;> rfl
@[simp] theorem State.setNode_card0 (s : State) (w : Wing) (l n : Nat) (x : Node) : (s.setNode w l n x).card0 = s.card0 := by cases w <;> rfl
@[simp] theorem State.setNode_card1 (s : State) (w : Wing) (l n : Nat) (x : Node) : (s.setNode w l n x).card1 = s.card1 := by cases w <;> rfl
@[simp] theorem State.setNode_power (s : State) (w : Wing) (l n : Nat) (x : Node) : (s.setNode w l n x).power = s.power := by cases w <;> rfl
@[simp] theorem State.setNode_evlog (s : State) (w : Wing) (l n : Nat) (x : Node) : (s.setNode w l n x).evlog = s.evlog := by cases w <;> rfl

@[simp] theorem State.setBoot_pending (s : State) (x : Boot) : (s.setBoot x).pending = s.pending := rfl
@[simp] theorem State.setBoot_now (s : State) (x : Boot) : (s.setBoot x).now = s.now := rfl
@[simp] theorem State.setBoot_freeCtr (s : State) (x : Boot) : (s.setBoot x).freeCtr = s.freeCtr := rfl
@[simp] theorem State.setBoot_outbox (s : State) (x : Boot) : (s.setBoot x).outbox = s.outbox := rfl
@[simp] theorem State.setBoot_a12 (s : State) (x : Boot) : (s.setBoot x).a12 = s.a12 := rfl
@[simp] theorem State.setBoot_serial (s : State) (x : Boot) : (s.setBoot x).serial = s.serial := rfl
@[simp] theorem State.setBoot_host (s : State) (x : Boot) : (s.setBoot x).host = s.host := rfl
@[simp] theorem State.setBoot_work (s : State) (x : Boot) : (s.setBoot x).work = s.work := rfl
@[simp] theorem State.setBoot_cat (s : State) (x : Boot) : (s.setBoot x).cat = s.cat := rfl
@[simp] theorem State.setBoot_journal (s : State) (x : Boot) : (s.setBoot x).journal = s.journal := rfl
@[simp] theorem State.setBoot_ledger (s : State) (x : Boot) : (s.setBoot x).ledger = s.ledger := rfl
@[simp] theorem State.setBoot_entropy (s : State) (x : Boot) : (s.setBoot x).entropy = s.entropy := rfl
@[simp] theorem State.setBoot_store (s : State) (x : Boot) : (s.setBoot x).store = s.store := rfl
@[simp] theorem State.setBoot_tamper (s : State) (x : Boot) : (s.setBoot x).tamper = s.tamper := rfl
@[simp] theorem State.setBoot_cont (s : State) (x : Boot) : (s.setBoot x).cont = s.cont := rfl
@[simp] theorem State.setBoot_cfgtx (s : State) (x : Boot) : (s.setBoot x).cfgtx = s.cfgtx := rfl
@[simp] theorem State.setBoot_handover (s : State) (x : Boot) : (s.setBoot x).handover = s.handover := rfl
@[simp] theorem State.setBoot_docW (s : State) (x : Boot) : (s.setBoot x).docW = s.docW := rfl
@[simp] theorem State.setBoot_docE (s : State) (x : Boot) : (s.setBoot x).docE = s.docE := rfl
@[simp] theorem State.setBoot_card0 (s : State) (x : Boot) : (s.setBoot x).card0 = s.card0 := rfl
@[simp] theorem State.setBoot_card1 (s : State) (x : Boot) : (s.setBoot x).card1 = s.card1 := rfl
@[simp] theorem State.setBoot_power (s : State) (x : Boot) : (s.setBoot x).power = s.power := rfl
@[simp] theorem State.setBoot_evlog (s : State) (x : Boot) : (s.setBoot x).evlog = s.evlog := rfl

@[simp] theorem State.setUnit_pending (s : State) (u : UnitId) (x : UnitState) : (s.setUnit u x).pending = s.pending := rfl
@[simp] theorem State.setUnit_now (s : State) (u : UnitId) (x : UnitState) : (s.setUnit u x).now = s.now := rfl
@[simp] theorem State.setUnit_freeCtr (s : State) (u : UnitId) (x : UnitState) : (s.setUnit u x).freeCtr = s.freeCtr := rfl
@[simp] theorem State.setUnit_outbox (s : State) (u : UnitId) (x : UnitState) : (s.setUnit u x).outbox = s.outbox := rfl
@[simp] theorem State.setUnit_a12 (s : State) (u : UnitId) (x : UnitState) : (s.setUnit u x).a12 = s.a12 := rfl
@[simp] theorem State.setUnit_serial (s : State) (u : UnitId) (x : UnitState) : (s.setUnit u x).serial = s.serial := rfl
@[simp] theorem State.setUnit_host (s : State) (u : UnitId) (x : UnitState) : (s.setUnit u x).host = s.host := rfl
@[simp] theorem State.setUnit_work (s : State) (u : UnitId) (x : UnitState) : (s.setUnit u x).work = s.work := rfl
@[simp] theorem State.setUnit_cat (s : State) (u : UnitId) (x : UnitState) : (s.setUnit u x).cat = s.cat := rfl
@[simp] theorem State.setUnit_journal (s : State) (u : UnitId) (x : UnitState) : (s.setUnit u x).journal = s.journal := rfl
@[simp] theorem State.setUnit_ledger (s : State) (u : UnitId) (x : UnitState) : (s.setUnit u x).ledger = s.ledger := rfl
@[simp] theorem State.setUnit_entropy (s : State) (u : UnitId) (x : UnitState) : (s.setUnit u x).entropy = s.entropy := rfl
@[simp] theorem State.setUnit_store (s : State) (u : UnitId) (x : UnitState) : (s.setUnit u x).store = s.store := rfl
@[simp] theorem State.setUnit_boot (s : State) (u : UnitId) (x : UnitState) : (s.setUnit u x).boot = s.boot := rfl
@[simp] theorem State.setUnit_tamper (s : State) (u : UnitId) (x : UnitState) : (s.setUnit u x).tamper = s.tamper := rfl
@[simp] theorem State.setUnit_cfgtx (s : State) (u : UnitId) (x : UnitState) : (s.setUnit u x).cfgtx = s.cfgtx := rfl
@[simp] theorem State.setUnit_handover (s : State) (u : UnitId) (x : UnitState) : (s.setUnit u x).handover = s.handover := rfl
@[simp] theorem State.setUnit_docW (s : State) (u : UnitId) (x : UnitState) : (s.setUnit u x).docW = s.docW := rfl
@[simp] theorem State.setUnit_docE (s : State) (u : UnitId) (x : UnitState) : (s.setUnit u x).docE = s.docE := rfl
@[simp] theorem State.setUnit_card0 (s : State) (u : UnitId) (x : UnitState) : (s.setUnit u x).card0 = s.card0 := rfl
@[simp] theorem State.setUnit_card1 (s : State) (u : UnitId) (x : UnitState) : (s.setUnit u x).card1 = s.card1 := rfl
@[simp] theorem State.setUnit_power (s : State) (u : UnitId) (x : UnitState) : (s.setUnit u x).power = s.power := rfl
@[simp] theorem State.setUnit_evlog (s : State) (u : UnitId) (x : UnitState) : (s.setUnit u x).evlog = s.evlog := rfl

@[simp] theorem State.setLink_pending (s : State) (l : Link) (x : LinkState) : (s.setLink l x).pending = s.pending := by rcases l with _ | w; rfl; cases w <;> rfl
@[simp] theorem State.setLink_now (s : State) (l : Link) (x : LinkState) : (s.setLink l x).now = s.now := by rcases l with _ | w; rfl; cases w <;> rfl
@[simp] theorem State.setLink_freeCtr (s : State) (l : Link) (x : LinkState) : (s.setLink l x).freeCtr = s.freeCtr := by rcases l with _ | w; rfl; cases w <;> rfl
@[simp] theorem State.setLink_outbox (s : State) (l : Link) (x : LinkState) : (s.setLink l x).outbox = s.outbox := by rcases l with _ | w; rfl; cases w <;> rfl
@[simp] theorem State.setLink_a12 (s : State) (l : Link) (x : LinkState) : (s.setLink l x).a12 = s.a12 := by rcases l with _ | w; rfl; cases w <;> rfl
@[simp] theorem State.setLink_serial (s : State) (l : Link) (x : LinkState) : (s.setLink l x).serial = s.serial := by rcases l with _ | w; rfl; cases w <;> rfl
@[simp] theorem State.setLink_host (s : State) (l : Link) (x : LinkState) : (s.setLink l x).host = s.host := by rcases l with _ | w; rfl; cases w <;> rfl
@[simp] theorem State.setLink_work (s : State) (l : Link) (x : LinkState) : (s.setLink l x).work = s.work := by rcases l with _ | w; rfl; cases w <;> rfl
@[simp] theorem State.setLink_cat (s : State) (l : Link) (x : LinkState) : (s.setLink l x).cat = s.cat := by rcases l with _ | w; rfl; cases w <;> rfl
@[simp] theorem State.setLink_journal (s : State) (l : Link) (x : LinkState) : (s.setLink l x).journal = s.journal := by rcases l with _ | w; rfl; cases w <;> rfl
@[simp] theorem State.setLink_ledger (s : State) (l : Link) (x : LinkState) : (s.setLink l x).ledger = s.ledger := by rcases l with _ | w; rfl; cases w <;> rfl
@[simp] theorem State.setLink_entropy (s : State) (l : Link) (x : LinkState) : (s.setLink l x).entropy = s.entropy := by rcases l with _ | w; rfl; cases w <;> rfl
@[simp] theorem State.setLink_store (s : State) (l : Link) (x : LinkState) : (s.setLink l x).store = s.store := by rcases l with _ | w; rfl; cases w <;> rfl
@[simp] theorem State.setLink_boot (s : State) (l : Link) (x : LinkState) : (s.setLink l x).boot = s.boot := by rcases l with _ | w; rfl; cases w <;> rfl
@[simp] theorem State.setLink_tamper (s : State) (l : Link) (x : LinkState) : (s.setLink l x).tamper = s.tamper := by rcases l with _ | w; rfl; cases w <;> rfl
@[simp] theorem State.setLink_cfgtx (s : State) (l : Link) (x : LinkState) : (s.setLink l x).cfgtx = s.cfgtx := by rcases l with _ | w; rfl; cases w <;> rfl
@[simp] theorem State.setLink_handover (s : State) (l : Link) (x : LinkState) : (s.setLink l x).handover = s.handover := by rcases l with _ | w; rfl; cases w <;> rfl
@[simp] theorem State.setLink_docW (s : State) (l : Link) (x : LinkState) : (s.setLink l x).docW = s.docW := by rcases l with _ | w; rfl; cases w <;> rfl
@[simp] theorem State.setLink_docE (s : State) (l : Link) (x : LinkState) : (s.setLink l x).docE = s.docE := by rcases l with _ | w; rfl; cases w <;> rfl
@[simp] theorem State.setLink_card0 (s : State) (l : Link) (x : LinkState) : (s.setLink l x).card0 = s.card0 := by rcases l with _ | w; rfl; cases w <;> rfl
@[simp] theorem State.setLink_card1 (s : State) (l : Link) (x : LinkState) : (s.setLink l x).card1 = s.card1 := by rcases l with _ | w; rfl; cases w <;> rfl
@[simp] theorem State.setLink_power (s : State) (l : Link) (x : LinkState) : (s.setLink l x).power = s.power := by rcases l with _ | w; rfl; cases w <;> rfl
@[simp] theorem State.setLink_evlog (s : State) (l : Link) (x : LinkState) : (s.setLink l x).evlog = s.evlog := by rcases l with _ | w; rfl; cases w <;> rfl

@[simp] theorem State.setDoc_pending (s : State) (w : Wing) (x : DocentWing) : (s.setDoc w x).pending = s.pending := by cases w <;> rfl
@[simp] theorem State.setDoc_now (s : State) (w : Wing) (x : DocentWing) : (s.setDoc w x).now = s.now := by cases w <;> rfl
@[simp] theorem State.setDoc_freeCtr (s : State) (w : Wing) (x : DocentWing) : (s.setDoc w x).freeCtr = s.freeCtr := by cases w <;> rfl
@[simp] theorem State.setDoc_outbox (s : State) (w : Wing) (x : DocentWing) : (s.setDoc w x).outbox = s.outbox := by cases w <;> rfl
@[simp] theorem State.setDoc_a12 (s : State) (w : Wing) (x : DocentWing) : (s.setDoc w x).a12 = s.a12 := by cases w <;> rfl
@[simp] theorem State.setDoc_serial (s : State) (w : Wing) (x : DocentWing) : (s.setDoc w x).serial = s.serial := by cases w <;> rfl
@[simp] theorem State.setDoc_host (s : State) (w : Wing) (x : DocentWing) : (s.setDoc w x).host = s.host := by cases w <;> rfl
@[simp] theorem State.setDoc_work (s : State) (w : Wing) (x : DocentWing) : (s.setDoc w x).work = s.work := by cases w <;> rfl
@[simp] theorem State.setDoc_cat (s : State) (w : Wing) (x : DocentWing) : (s.setDoc w x).cat = s.cat := by cases w <;> rfl
@[simp] theorem State.setDoc_journal (s : State) (w : Wing) (x : DocentWing) : (s.setDoc w x).journal = s.journal := by cases w <;> rfl
@[simp] theorem State.setDoc_ledger (s : State) (w : Wing) (x : DocentWing) : (s.setDoc w x).ledger = s.ledger := by cases w <;> rfl
@[simp] theorem State.setDoc_entropy (s : State) (w : Wing) (x : DocentWing) : (s.setDoc w x).entropy = s.entropy := by cases w <;> rfl
@[simp] theorem State.setDoc_store (s : State) (w : Wing) (x : DocentWing) : (s.setDoc w x).store = s.store := by cases w <;> rfl
@[simp] theorem State.setDoc_boot (s : State) (w : Wing) (x : DocentWing) : (s.setDoc w x).boot = s.boot := by cases w <;> rfl
@[simp] theorem State.setDoc_tamper (s : State) (w : Wing) (x : DocentWing) : (s.setDoc w x).tamper = s.tamper := by cases w <;> rfl
@[simp] theorem State.setDoc_cont (s : State) (w : Wing) (x : DocentWing) : (s.setDoc w x).cont = s.cont := by cases w <;> rfl
@[simp] theorem State.setDoc_cfgtx (s : State) (w : Wing) (x : DocentWing) : (s.setDoc w x).cfgtx = s.cfgtx := by cases w <;> rfl
@[simp] theorem State.setDoc_handover (s : State) (w : Wing) (x : DocentWing) : (s.setDoc w x).handover = s.handover := by cases w <;> rfl
@[simp] theorem State.setDoc_card0 (s : State) (w : Wing) (x : DocentWing) : (s.setDoc w x).card0 = s.card0 := by cases w <;> rfl
@[simp] theorem State.setDoc_card1 (s : State) (w : Wing) (x : DocentWing) : (s.setDoc w x).card1 = s.card1 := by cases w <;> rfl
@[simp] theorem State.setDoc_power (s : State) (w : Wing) (x : DocentWing) : (s.setDoc w x).power = s.power := by cases w <;> rfl
@[simp] theorem State.setDoc_evlog (s : State) (w : Wing) (x : DocentWing) : (s.setDoc w x).evlog = s.evlog := by cases w <;> rfl

@[simp] theorem State.setDocQueue_pending (s : State) (w : Wing) (c q : Nat) (x : DocQueue) : (s.setDocQueue w c q x).pending = s.pending := by cases w <;> rfl
@[simp] theorem State.setDocQueue_now (s : State) (w : Wing) (c q : Nat) (x : DocQueue) : (s.setDocQueue w c q x).now = s.now := by cases w <;> rfl
@[simp] theorem State.setDocQueue_freeCtr (s : State) (w : Wing) (c q : Nat) (x : DocQueue) : (s.setDocQueue w c q x).freeCtr = s.freeCtr := by cases w <;> rfl
@[simp] theorem State.setDocQueue_outbox (s : State) (w : Wing) (c q : Nat) (x : DocQueue) : (s.setDocQueue w c q x).outbox = s.outbox := by cases w <;> rfl
@[simp] theorem State.setDocQueue_a12 (s : State) (w : Wing) (c q : Nat) (x : DocQueue) : (s.setDocQueue w c q x).a12 = s.a12 := by cases w <;> rfl
@[simp] theorem State.setDocQueue_serial (s : State) (w : Wing) (c q : Nat) (x : DocQueue) : (s.setDocQueue w c q x).serial = s.serial := by cases w <;> rfl
@[simp] theorem State.setDocQueue_host (s : State) (w : Wing) (c q : Nat) (x : DocQueue) : (s.setDocQueue w c q x).host = s.host := by cases w <;> rfl
@[simp] theorem State.setDocQueue_work (s : State) (w : Wing) (c q : Nat) (x : DocQueue) : (s.setDocQueue w c q x).work = s.work := by cases w <;> rfl
@[simp] theorem State.setDocQueue_cat (s : State) (w : Wing) (c q : Nat) (x : DocQueue) : (s.setDocQueue w c q x).cat = s.cat := by cases w <;> rfl
@[simp] theorem State.setDocQueue_journal (s : State) (w : Wing) (c q : Nat) (x : DocQueue) : (s.setDocQueue w c q x).journal = s.journal := by cases w <;> rfl
@[simp] theorem State.setDocQueue_ledger (s : State) (w : Wing) (c q : Nat) (x : DocQueue) : (s.setDocQueue w c q x).ledger = s.ledger := by cases w <;> rfl
@[simp] theorem State.setDocQueue_entropy (s : State) (w : Wing) (c q : Nat) (x : DocQueue) : (s.setDocQueue w c q x).entropy = s.entropy := by cases w <;> rfl
@[simp] theorem State.setDocQueue_store (s : State) (w : Wing) (c q : Nat) (x : DocQueue) : (s.setDocQueue w c q x).store = s.store := by cases w <;> rfl
@[simp] theorem State.setDocQueue_boot (s : State) (w : Wing) (c q : Nat) (x : DocQueue) : (s.setDocQueue w c q x).boot = s.boot := by cases w <;> rfl
@[simp] theorem State.setDocQueue_tamper (s : State) (w : Wing) (c q : Nat) (x : DocQueue) : (s.setDocQueue w c q x).tamper = s.tamper := by cases w <;> rfl
@[simp] theorem State.setDocQueue_cont (s : State) (w : Wing) (c q : Nat) (x : DocQueue) : (s.setDocQueue w c q x).cont = s.cont := by cases w <;> rfl
@[simp] theorem State.setDocQueue_cfgtx (s : State) (w : Wing) (c q : Nat) (x : DocQueue) : (s.setDocQueue w c q x).cfgtx = s.cfgtx := by cases w <;> rfl
@[simp] theorem State.setDocQueue_handover (s : State) (w : Wing) (c q : Nat) (x : DocQueue) : (s.setDocQueue w c q x).handover = s.handover := by cases w <;> rfl
@[simp] theorem State.setDocQueue_card0 (s : State) (w : Wing) (c q : Nat) (x : DocQueue) : (s.setDocQueue w c q x).card0 = s.card0 := by cases w <;> rfl
@[simp] theorem State.setDocQueue_card1 (s : State) (w : Wing) (c q : Nat) (x : DocQueue) : (s.setDocQueue w c q x).card1 = s.card1 := by cases w <;> rfl
@[simp] theorem State.setDocQueue_power (s : State) (w : Wing) (c q : Nat) (x : DocQueue) : (s.setDocQueue w c q x).power = s.power := by cases w <;> rfl
@[simp] theorem State.setDocQueue_evlog (s : State) (w : Wing) (c q : Nat) (x : DocQueue) : (s.setDocQueue w c q x).evlog = s.evlog := by cases w <;> rfl

@[simp] theorem State.setAu_pending (s : State) (w : Wing) (m : Nat) (x : AccessUnit) : (s.setAu w m x).pending = s.pending := by cases w <;> rfl
@[simp] theorem State.setAu_now (s : State) (w : Wing) (m : Nat) (x : AccessUnit) : (s.setAu w m x).now = s.now := by cases w <;> rfl
@[simp] theorem State.setAu_freeCtr (s : State) (w : Wing) (m : Nat) (x : AccessUnit) : (s.setAu w m x).freeCtr = s.freeCtr := by cases w <;> rfl
@[simp] theorem State.setAu_outbox (s : State) (w : Wing) (m : Nat) (x : AccessUnit) : (s.setAu w m x).outbox = s.outbox := by cases w <;> rfl
@[simp] theorem State.setAu_a12 (s : State) (w : Wing) (m : Nat) (x : AccessUnit) : (s.setAu w m x).a12 = s.a12 := by cases w <;> rfl
@[simp] theorem State.setAu_serial (s : State) (w : Wing) (m : Nat) (x : AccessUnit) : (s.setAu w m x).serial = s.serial := by cases w <;> rfl
@[simp] theorem State.setAu_host (s : State) (w : Wing) (m : Nat) (x : AccessUnit) : (s.setAu w m x).host = s.host := by cases w <;> rfl
@[simp] theorem State.setAu_work (s : State) (w : Wing) (m : Nat) (x : AccessUnit) : (s.setAu w m x).work = s.work := by cases w <;> rfl
@[simp] theorem State.setAu_cat (s : State) (w : Wing) (m : Nat) (x : AccessUnit) : (s.setAu w m x).cat = s.cat := by cases w <;> rfl
@[simp] theorem State.setAu_journal (s : State) (w : Wing) (m : Nat) (x : AccessUnit) : (s.setAu w m x).journal = s.journal := by cases w <;> rfl
@[simp] theorem State.setAu_ledger (s : State) (w : Wing) (m : Nat) (x : AccessUnit) : (s.setAu w m x).ledger = s.ledger := by cases w <;> rfl
@[simp] theorem State.setAu_entropy (s : State) (w : Wing) (m : Nat) (x : AccessUnit) : (s.setAu w m x).entropy = s.entropy := by cases w <;> rfl
@[simp] theorem State.setAu_store (s : State) (w : Wing) (m : Nat) (x : AccessUnit) : (s.setAu w m x).store = s.store := by cases w <;> rfl
@[simp] theorem State.setAu_boot (s : State) (w : Wing) (m : Nat) (x : AccessUnit) : (s.setAu w m x).boot = s.boot := by cases w <;> rfl
@[simp] theorem State.setAu_tamper (s : State) (w : Wing) (m : Nat) (x : AccessUnit) : (s.setAu w m x).tamper = s.tamper := by cases w <;> rfl
@[simp] theorem State.setAu_cont (s : State) (w : Wing) (m : Nat) (x : AccessUnit) : (s.setAu w m x).cont = s.cont := by cases w <;> rfl
@[simp] theorem State.setAu_cfgtx (s : State) (w : Wing) (m : Nat) (x : AccessUnit) : (s.setAu w m x).cfgtx = s.cfgtx := by cases w <;> rfl
@[simp] theorem State.setAu_handover (s : State) (w : Wing) (m : Nat) (x : AccessUnit) : (s.setAu w m x).handover = s.handover := by cases w <;> rfl
@[simp] theorem State.setAu_card0 (s : State) (w : Wing) (m : Nat) (x : AccessUnit) : (s.setAu w m x).card0 = s.card0 := by cases w <;> rfl
@[simp] theorem State.setAu_card1 (s : State) (w : Wing) (m : Nat) (x : AccessUnit) : (s.setAu w m x).card1 = s.card1 := by cases w <;> rfl
@[simp] theorem State.setAu_power (s : State) (w : Wing) (m : Nat) (x : AccessUnit) : (s.setAu w m x).power = s.power := by cases w <;> rfl
@[simp] theorem State.setAu_evlog (s : State) (w : Wing) (m : Nat) (x : AccessUnit) : (s.setAu w m x).evlog = s.evlog := by cases w <;> rfl

@[simp] theorem State.setCard_pending (s : State) (n : Nat) (x : Card) : (s.setCard n x).pending = s.pending := by unfold State.setCard; split; rfl; split <;> rfl
@[simp] theorem State.setCard_now (s : State) (n : Nat) (x : Card) : (s.setCard n x).now = s.now := by unfold State.setCard; split; rfl; split <;> rfl
@[simp] theorem State.setCard_freeCtr (s : State) (n : Nat) (x : Card) : (s.setCard n x).freeCtr = s.freeCtr := by unfold State.setCard; split; rfl; split <;> rfl
@[simp] theorem State.setCard_outbox (s : State) (n : Nat) (x : Card) : (s.setCard n x).outbox = s.outbox := by unfold State.setCard; split; rfl; split <;> rfl
@[simp] theorem State.setCard_a12 (s : State) (n : Nat) (x : Card) : (s.setCard n x).a12 = s.a12 := by unfold State.setCard; split; rfl; split <;> rfl
@[simp] theorem State.setCard_serial (s : State) (n : Nat) (x : Card) : (s.setCard n x).serial = s.serial := by unfold State.setCard; split; rfl; split <;> rfl
@[simp] theorem State.setCard_host (s : State) (n : Nat) (x : Card) : (s.setCard n x).host = s.host := by unfold State.setCard; split; rfl; split <;> rfl
@[simp] theorem State.setCard_work (s : State) (n : Nat) (x : Card) : (s.setCard n x).work = s.work := by unfold State.setCard; split; rfl; split <;> rfl
@[simp] theorem State.setCard_cat (s : State) (n : Nat) (x : Card) : (s.setCard n x).cat = s.cat := by unfold State.setCard; split; rfl; split <;> rfl
@[simp] theorem State.setCard_journal (s : State) (n : Nat) (x : Card) : (s.setCard n x).journal = s.journal := by unfold State.setCard; split; rfl; split <;> rfl
@[simp] theorem State.setCard_ledger (s : State) (n : Nat) (x : Card) : (s.setCard n x).ledger = s.ledger := by unfold State.setCard; split; rfl; split <;> rfl
@[simp] theorem State.setCard_entropy (s : State) (n : Nat) (x : Card) : (s.setCard n x).entropy = s.entropy := by unfold State.setCard; split; rfl; split <;> rfl
@[simp] theorem State.setCard_store (s : State) (n : Nat) (x : Card) : (s.setCard n x).store = s.store := by unfold State.setCard; split; rfl; split <;> rfl
@[simp] theorem State.setCard_boot (s : State) (n : Nat) (x : Card) : (s.setCard n x).boot = s.boot := by unfold State.setCard; split; rfl; split <;> rfl
@[simp] theorem State.setCard_tamper (s : State) (n : Nat) (x : Card) : (s.setCard n x).tamper = s.tamper := by unfold State.setCard; split; rfl; split <;> rfl
@[simp] theorem State.setCard_cont (s : State) (n : Nat) (x : Card) : (s.setCard n x).cont = s.cont := by unfold State.setCard; split; rfl; split <;> rfl
@[simp] theorem State.setCard_cfgtx (s : State) (n : Nat) (x : Card) : (s.setCard n x).cfgtx = s.cfgtx := by unfold State.setCard; split; rfl; split <;> rfl
@[simp] theorem State.setCard_handover (s : State) (n : Nat) (x : Card) : (s.setCard n x).handover = s.handover := by unfold State.setCard; split; rfl; split <;> rfl
@[simp] theorem State.setCard_docW (s : State) (n : Nat) (x : Card) : (s.setCard n x).docW = s.docW := by unfold State.setCard; split; rfl; split <;> rfl
@[simp] theorem State.setCard_docE (s : State) (n : Nat) (x : Card) : (s.setCard n x).docE = s.docE := by unfold State.setCard; split; rfl; split <;> rfl
@[simp] theorem State.setCard_power (s : State) (n : Nat) (x : Card) : (s.setCard n x).power = s.power := by unfold State.setCard; split; rfl; split <;> rfl
@[simp] theorem State.setCard_evlog (s : State) (n : Nat) (x : Card) : (s.setCard n x).evlog = s.evlog := by unfold State.setCard; split; rfl; split <;> rfl

@[simp] theorem State.setMailbox_pending (s : State) (m : Sender) (x : Curmb) : (s.setMailbox m x).pending = s.pending := by rcases m with w | w <;> cases w <;> rfl
@[simp] theorem State.setMailbox_now (s : State) (m : Sender) (x : Curmb) : (s.setMailbox m x).now = s.now := by rcases m with w | w <;> cases w <;> rfl
@[simp] theorem State.setMailbox_freeCtr (s : State) (m : Sender) (x : Curmb) : (s.setMailbox m x).freeCtr = s.freeCtr := by rcases m with w | w <;> cases w <;> rfl
@[simp] theorem State.setMailbox_outbox (s : State) (m : Sender) (x : Curmb) : (s.setMailbox m x).outbox = s.outbox := by rcases m with w | w <;> cases w <;> rfl
@[simp] theorem State.setMailbox_a12 (s : State) (m : Sender) (x : Curmb) : (s.setMailbox m x).a12 = s.a12 := by rcases m with w | w <;> cases w <;> rfl
@[simp] theorem State.setMailbox_serial (s : State) (m : Sender) (x : Curmb) : (s.setMailbox m x).serial = s.serial := by rcases m with w | w <;> cases w <;> rfl
@[simp] theorem State.setMailbox_work (s : State) (m : Sender) (x : Curmb) : (s.setMailbox m x).work = s.work := by rcases m with w | w <;> cases w <;> rfl
@[simp] theorem State.setMailbox_cat (s : State) (m : Sender) (x : Curmb) : (s.setMailbox m x).cat = s.cat := by rcases m with w | w <;> cases w <;> rfl
@[simp] theorem State.setMailbox_journal (s : State) (m : Sender) (x : Curmb) : (s.setMailbox m x).journal = s.journal := by rcases m with w | w <;> cases w <;> rfl
@[simp] theorem State.setMailbox_ledger (s : State) (m : Sender) (x : Curmb) : (s.setMailbox m x).ledger = s.ledger := by rcases m with w | w <;> cases w <;> rfl
@[simp] theorem State.setMailbox_entropy (s : State) (m : Sender) (x : Curmb) : (s.setMailbox m x).entropy = s.entropy := by rcases m with w | w <;> cases w <;> rfl
@[simp] theorem State.setMailbox_store (s : State) (m : Sender) (x : Curmb) : (s.setMailbox m x).store = s.store := by rcases m with w | w <;> cases w <;> rfl
@[simp] theorem State.setMailbox_boot (s : State) (m : Sender) (x : Curmb) : (s.setMailbox m x).boot = s.boot := by rcases m with w | w <;> cases w <;> rfl
@[simp] theorem State.setMailbox_tamper (s : State) (m : Sender) (x : Curmb) : (s.setMailbox m x).tamper = s.tamper := by rcases m with w | w <;> cases w <;> rfl
@[simp] theorem State.setMailbox_cont (s : State) (m : Sender) (x : Curmb) : (s.setMailbox m x).cont = s.cont := by rcases m with w | w <;> cases w <;> rfl
@[simp] theorem State.setMailbox_cfgtx (s : State) (m : Sender) (x : Curmb) : (s.setMailbox m x).cfgtx = s.cfgtx := by rcases m with w | w <;> cases w <;> rfl
@[simp] theorem State.setMailbox_handover (s : State) (m : Sender) (x : Curmb) : (s.setMailbox m x).handover = s.handover := by rcases m with w | w <;> cases w <;> rfl
@[simp] theorem State.setMailbox_card0 (s : State) (m : Sender) (x : Curmb) : (s.setMailbox m x).card0 = s.card0 := by rcases m with w | w <;> cases w <;> rfl
@[simp] theorem State.setMailbox_card1 (s : State) (m : Sender) (x : Curmb) : (s.setMailbox m x).card1 = s.card1 := by rcases m with w | w <;> cases w <;> rfl
@[simp] theorem State.setMailbox_power (s : State) (m : Sender) (x : Curmb) : (s.setMailbox m x).power = s.power := by rcases m with w | w <;> cases w <;> rfl
@[simp] theorem State.setMailbox_evlog (s : State) (m : Sender) (x : Curmb) : (s.setMailbox m x).evlog = s.evlog := by rcases m with w | w <;> cases w <;> rfl

@[simp] theorem State.setClockDie_pending (s : State) (d : Die) (x : ClockDie) : (s.setClockDie d x).pending = s.pending := by cases d <;> rfl
@[simp] theorem State.setClockDie_now (s : State) (d : Die) (x : ClockDie) : (s.setClockDie d x).now = s.now := by cases d <;> rfl
@[simp] theorem State.setClockDie_freeCtr (s : State) (d : Die) (x : ClockDie) : (s.setClockDie d x).freeCtr = s.freeCtr := by cases d <;> rfl
@[simp] theorem State.setClockDie_outbox (s : State) (d : Die) (x : ClockDie) : (s.setClockDie d x).outbox = s.outbox := by cases d <;> rfl
@[simp] theorem State.setClockDie_a12 (s : State) (d : Die) (x : ClockDie) : (s.setClockDie d x).a12 = s.a12 := by cases d <;> rfl
@[simp] theorem State.setClockDie_serial (s : State) (d : Die) (x : ClockDie) : (s.setClockDie d x).serial = s.serial := by cases d <;> rfl
@[simp] theorem State.setClockDie_host (s : State) (d : Die) (x : ClockDie) : (s.setClockDie d x).host = s.host := by cases d <;> rfl
@[simp] theorem State.setClockDie_work (s : State) (d : Die) (x : ClockDie) : (s.setClockDie d x).work = s.work := by cases d <;> rfl
@[simp] theorem State.setClockDie_cat (s : State) (d : Die) (x : ClockDie) : (s.setClockDie d x).cat = s.cat := by cases d <;> rfl
@[simp] theorem State.setClockDie_journal (s : State) (d : Die) (x : ClockDie) : (s.setClockDie d x).journal = s.journal := by cases d <;> rfl
@[simp] theorem State.setClockDie_ledger (s : State) (d : Die) (x : ClockDie) : (s.setClockDie d x).ledger = s.ledger := by cases d <;> rfl
@[simp] theorem State.setClockDie_entropy (s : State) (d : Die) (x : ClockDie) : (s.setClockDie d x).entropy = s.entropy := by cases d <;> rfl
@[simp] theorem State.setClockDie_store (s : State) (d : Die) (x : ClockDie) : (s.setClockDie d x).store = s.store := by cases d <;> rfl
@[simp] theorem State.setClockDie_boot (s : State) (d : Die) (x : ClockDie) : (s.setClockDie d x).boot = s.boot := by cases d <;> rfl
@[simp] theorem State.setClockDie_tamper (s : State) (d : Die) (x : ClockDie) : (s.setClockDie d x).tamper = s.tamper := by cases d <;> rfl
@[simp] theorem State.setClockDie_cont (s : State) (d : Die) (x : ClockDie) : (s.setClockDie d x).cont = s.cont := by cases d <;> rfl
@[simp] theorem State.setClockDie_cfgtx (s : State) (d : Die) (x : ClockDie) : (s.setClockDie d x).cfgtx = s.cfgtx := by cases d <;> rfl
@[simp] theorem State.setClockDie_handover (s : State) (d : Die) (x : ClockDie) : (s.setClockDie d x).handover = s.handover := by cases d <;> rfl
@[simp] theorem State.setClockDie_docW (s : State) (d : Die) (x : ClockDie) : (s.setClockDie d x).docW = s.docW := by cases d <;> rfl
@[simp] theorem State.setClockDie_docE (s : State) (d : Die) (x : ClockDie) : (s.setClockDie d x).docE = s.docE := by cases d <;> rfl
@[simp] theorem State.setClockDie_card0 (s : State) (d : Die) (x : ClockDie) : (s.setClockDie d x).card0 = s.card0 := by cases d <;> rfl
@[simp] theorem State.setClockDie_card1 (s : State) (d : Die) (x : ClockDie) : (s.setClockDie d x).card1 = s.card1 := by cases d <;> rfl
@[simp] theorem State.setClockDie_evlog (s : State) (d : Die) (x : ClockDie) : (s.setClockDie d x).evlog = s.evlog := by cases d <;> rfl

@[simp] theorem State.emit_pending (s : State) (o : Out) : (s.emit o).pending = s.pending := rfl
@[simp] theorem State.emit_now (s : State) (o : Out) : (s.emit o).now = s.now := rfl
@[simp] theorem State.emit_freeCtr (s : State) (o : Out) : (s.emit o).freeCtr = s.freeCtr := rfl
@[simp] theorem State.emit_a12 (s : State) (o : Out) : (s.emit o).a12 = s.a12 := rfl
@[simp] theorem State.emit_serial (s : State) (o : Out) : (s.emit o).serial = s.serial := rfl
@[simp] theorem State.emit_host (s : State) (o : Out) : (s.emit o).host = s.host := rfl
@[simp] theorem State.emit_work (s : State) (o : Out) : (s.emit o).work = s.work := rfl
@[simp] theorem State.emit_cat (s : State) (o : Out) : (s.emit o).cat = s.cat := rfl
@[simp] theorem State.emit_journal (s : State) (o : Out) : (s.emit o).journal = s.journal := rfl
@[simp] theorem State.emit_ledger (s : State) (o : Out) : (s.emit o).ledger = s.ledger := rfl
@[simp] theorem State.emit_entropy (s : State) (o : Out) : (s.emit o).entropy = s.entropy := rfl
@[simp] theorem State.emit_store (s : State) (o : Out) : (s.emit o).store = s.store := rfl
@[simp] theorem State.emit_boot (s : State) (o : Out) : (s.emit o).boot = s.boot := rfl
@[simp] theorem State.emit_tamper (s : State) (o : Out) : (s.emit o).tamper = s.tamper := rfl
@[simp] theorem State.emit_cont (s : State) (o : Out) : (s.emit o).cont = s.cont := rfl
@[simp] theorem State.emit_cfgtx (s : State) (o : Out) : (s.emit o).cfgtx = s.cfgtx := rfl
@[simp] theorem State.emit_handover (s : State) (o : Out) : (s.emit o).handover = s.handover := rfl
@[simp] theorem State.emit_docW (s : State) (o : Out) : (s.emit o).docW = s.docW := rfl
@[simp] theorem State.emit_docE (s : State) (o : Out) : (s.emit o).docE = s.docE := rfl
@[simp] theorem State.emit_card0 (s : State) (o : Out) : (s.emit o).card0 = s.card0 := rfl
@[simp] theorem State.emit_card1 (s : State) (o : Out) : (s.emit o).card1 = s.card1 := rfl
@[simp] theorem State.emit_power (s : State) (o : Out) : (s.emit o).power = s.power := rfl
@[simp] theorem State.emit_evlog (s : State) (o : Out) : (s.emit o).evlog = s.evlog := rfl

/-! ### Reading back -/

@[simp] theorem State.setBoot_boot (s : State) (x : Boot) : (s.setBoot x).boot = x := rfl
@[simp] theorem State.emit_outbox (s : State) (o : Out) : (s.emit o).outbox = o :: s.outbox := rfl
@[simp] theorem State.doc_setDoc (s : State) (w : Wing) (x : DocentWing) : (s.setDoc w x).doc w = x := by cases w <;> rfl
@[simp] theorem State.doc_setDoc_other (s : State) (w : Wing) (x : DocentWing) : (s.setDoc w x).doc (otherWing w) = s.doc (otherWing w) := by
  cases w <;> rfl
@[simp] theorem State.port_setPort (s : State) (w : Wing) (x : PortState) : (s.setPort w x).port w = x := by cases w <;> rfl
@[simp] theorem State.disp_setDisp (s : State) (w : Wing) (x : Dispatcher) : (s.setDisp w x).disp w = x := by cases w <;> rfl
@[simp] theorem State.storeWing_setStoreWing (s : State) (w : Wing) (x : StoreWing) : (s.setStoreWing w x).storeWing w = x := by cases w <;> rfl
@[simp] theorem State.storeWing_setStoreWing_other (s : State) (w : Wing) (x : StoreWing) :
    (s.setStoreWing w x).storeWing (otherWing w) = s.storeWing (otherWing w) := by cases w <;> rfl
@[simp] theorem State.clockDie_setClockDie (s : State) (d : Die) (x : ClockDie) : (s.setClockDie d x).clockDie d = x := by cases d <;> rfl
@[simp] theorem State.link_setLink (s : State) (l : Link) (x : LinkState) : (s.setLink l x).link l = x := by
  rcases l with _ | w; rfl; cases w <;> rfl
@[simp] theorem State.mailbox_setMailbox (s : State) (m : Sender) (x : Curmb) : (s.setMailbox m x).mailbox m = x := by
  rcases m with w | w <;> cases w <;> rfl
theorem State.card_setCard (s : State) (n : Nat) (x : Card) (h : n < 2) : (s.setCard n x).card n = x := by
  have : n = 0 ∨ n = 1 := by omega
  rcases this with rfl | rfl <;> rfl
theorem State.card_setCard_other (s : State) (n m : Nat) (x : Card) (hn : n < 2) (hm : m < 2) (h : m ≠ n) : (s.setCard n x).card m = s.card m := by
  have : (n = 0 ∧ m = 1) ∨ (n = 1 ∧ m = 0) := by omega
  rcases this with ⟨rfl, rfl⟩ | ⟨rfl, rfl⟩ <;> rfl

/-! ### Tables: another key reads as before -/

theorem State.job_setJob_ne (s : State) (n m : Nat) (x : Option Job) (h : m ≠ n) : (s.setJob n x).job m = s.job m := Tbl.get_set_ne _ h
theorem State.job_putJob_ne (s : State) (n m : Nat) (x : Job) (h : m ≠ n) : (s.putJob n x).job m = s.job m := Tbl.get_set_ne _ h
theorem State.gal_setGal_ne (s : State) (n m : Nat) (x : Gallery) (h : m ≠ n) : (s.setGal n x).gal m = s.gal m := Tbl.get_set_ne _ h
theorem State.page_setPage_ne (s : State) (n m : Nat) (x : CompatPage) (h : m ≠ n) : (s.setPage n x).page m = s.page m := Tbl.get_set_ne _ h
theorem State.slot_setSlot_ne (s : State) (n m : Nat) (x : LedgerSlot) (h : m ≠ n) : (s.setSlot n x).slot m = s.slot m := Tbl.get_set_ne _ h
theorem State.coll_setColl_ne (s : State) (n m : Nat) (x : Option Collection) (h : m ≠ n) : (s.setColl n x).coll m = s.coll m := Tbl.get_set_ne _ h
theorem State.source_setSource_ne (s : State) (n m : Nat) (x : Source) (h : m ≠ n) : (s.setSource n x).source m = s.source m := Tbl.get_set_ne _ h
theorem State.channel_setChannel_ne (s : State) (n m : Nat) (x : Channel) (h : m ≠ n) : (s.setChannel n x).channel m = s.channel m := Tbl.get_set_ne _ h
theorem State.job_putJob (s : State) (n : Nat) (x : Job) (h : Tbl.wf none s.work.jobs = true) : (s.putJob n x).job n = some x :=
  Tbl.get_set_eq h

end Sys2Proof.Machine
end

