-- ==== Sys2Proof/Tests/Slice0.lean ====
section
/-! SUPPORT. The model's own tests: an ill-formed command for each check of WellFormed, which the check refuses beside one that it
accepts; single steps with values from the spec; and, for every obligation that has hypotheses, states and operands that meet all
the hypotheses of each of its clauses. Where a clause rests on a check that the model leaves to a published standard, or on the
owner's policy body, which no rule lays out, its witness takes as a premise that the check passes or that the policy grants it. -/



namespace Sys2Proof.Tests

set_option linter.all false
set_option Elab.async false

open Sys2Proof.Machine

/-! ### Ill-formed commands -/

/-- The first command of each pair is refused and the second, which differs in one operand, is accepted. -/
def refuses (l : List (Instr × Instr)) : Bool := l.all fun p => !p.1.wf && p.2.wf

theorem test_illFormed_1 : refuses [
    (.registerWrite ⟨.west, 128⟩ default 0 8 default, .registerWrite (default : Fn) default 0 8 default),
    (.registerWrite (default : Fn) default 0 2 default, .registerWrite (default : Fn) default 0 8 default),
    (.registerWrite (default : Fn) default 4 8 default, .registerWrite (default : Fn) default 0 8 default),
    (.txFieldWrite (.host ⟨.west, 128⟩) 0 default, .txFieldWrite (default : TxWriter) 0 default),
    (.submissionDoorbell ⟨.west, 128⟩ (default : QSel) default, .submissionDoorbell (default : Fn) (default : QSel) default),
    (.submissionDoorbell (default : Fn) (.io 512) default, .submissionDoorbell (default : Fn) (default : QSel) default),
    (.completionDoorbell ⟨.west, 128⟩ (default : QSel) default, .completionDoorbell (default : Fn) (default : QSel) default),
    (.completionDoorbell (default : Fn) (.io 512) default, .completionDoorbell (default : Fn) (default : QSel) default),
    (.fstatCauseClear ⟨.west, 128⟩ default default, .fstatCauseClear (default : Fn) default default),
    (.fstatCauseEnWrite ⟨.west, 128⟩ default, .fstatCauseEnWrite (default : Fn) default),
    (.fstatErrRead ⟨.west, 128⟩, .fstatErrRead (default : Fn)),
    (.fstatErrAddrRead ⟨.west, 128⟩, .fstatErrAddrRead (default : Fn)),
    (.fstatQerrRead ⟨.west, 128⟩, .fstatQerrRead (default : Fn)),
    (.admqEnable ⟨.west, 128⟩, .admqEnable (default : Fn)),
    (.admqDisable ⟨.west, 128⟩, .admqDisable (default : Fn)),
    (.msixUnmask ⟨.west, 128⟩ 0, .msixUnmask (default : Fn) 0)] = true := by decide +kernel

theorem test_illFormed_2 : refuses [
    (.msixUnmask (default : Fn) 256, .msixUnmask (default : Fn) 0),
    (.moderationTimerExpiry ⟨.west, 128⟩ 0, .moderationTimerExpiry (default : Fn) 0),
    (.moderationTimerExpiry (default : Fn) 512, .moderationTimerExpiry (default : Fn) 0),
    (.identify ⟨.west, 128⟩ default, .identify (default : Fn) default),
    (.createCollection ⟨.west, 128⟩, .createCollection (default : Fn)),
    (.deleteCollection ⟨.west, 128⟩, .deleteCollection (default : Fn)),
    (.setCollectionLimits ⟨.west, 128⟩, .setCollectionLimits (default : Fn)),
    (.bindFunction ⟨.west, 128⟩, .bindFunction (default : Fn)),
    (.unbindFunction ⟨.west, 128⟩, .unbindFunction (default : Fn)),
    (.deviceReset ⟨.west, 128⟩, .deviceReset (default : Fn)),
    (.createQueue ⟨.west, 128⟩, .createQueue (default : Fn)),
    (.deleteQueue ⟨.west, 128⟩, .deleteQueue (default : Fn)),
    (.deleteQueueDrainComplete ⟨.west, 128⟩ 0, .deleteQueueDrainComplete (default : Fn) 0),
    (.deleteQueueDrainComplete (default : Fn) 512, .deleteQueueDrainComplete (default : Fn) 0),
    (.setModeration ⟨.west, 128⟩, .setModeration (default : Fn)),
    (.getQueueState ⟨.west, 128⟩ default, .getQueueState (default : Fn) default)] = true := by decide +kernel

theorem test_illFormed_3 : refuses [
    (.functionLevelReset (.function ⟨.west, 128⟩), .functionLevelReset (default : FlrScope)),
    (.busMasterEnableClear ⟨.west, 128⟩, .busMasterEnableClear (default : Fn)),
    (.busMasterEnableSet ⟨.west, 128⟩, .busMasterEnableSet (default : Fn)),
    (.ideStreamFail default 16, .ideStreamFail default 0),
    (.dmaReadFailure (.slot ⟨.west, 128⟩ .admin) default, .dmaReadFailure (default : ReadTarget) default),
    (.dmaWriteInternalError (.record ⟨.west, 128⟩ .admin), .dmaWriteInternalError (default : WriteTarget)),
    (.doeSpdmRequest default (.ideStop 16), .doeSpdmRequest default (default : SpdmReq)),
    (.mctpSpdm default (.ideStop 16), .mctpSpdm default (default : SpdmReq)),
    (.mctpRegisterRead default ⟨.west, 128⟩ 0, .mctpRegisterRead default (default : Fn) 0),
    (.entryFetchComplete ⟨.west, 128⟩ (default : QSel) (List.replicate 64 0), .entryFetchComplete (default : Fn) (default : QSel) (List.replicate 64 0)),
    (.entryFetchComplete (default : Fn) (.io 512) (List.replicate 64 0), .entryFetchComplete (default : Fn) (default : QSel) (List.replicate 64 0)),
    (.entryFetchComplete (default : Fn) (default : QSel) (List.replicate 63 0), .entryFetchComplete (default : Fn) (default : QSel) (List.replicate 64 0)),
    (.engineOperationComplete 0 ⟨some ⟨32, 0, 0⟩, false, [], 0, 0⟩, .engineOperationComplete 0 (default : EngineEvent)),
    (.engineWipeComplete 16 0, .engineWipeComplete 0 0),
    (.engineWipeComplete 0 32, .engineWipeComplete 0 0),
    (.jobPreemption (.lre 16) 0, .jobPreemption (default : Resource) 0)] = true := by decide +kernel

theorem test_illFormed_4 : refuses [
    (.leafReservation default 65536 0, .leafReservation default 0 0),
    (.treeSubtreeGeneration 65536 default, .treeSubtreeGeneration 0 default),
    (.ledgerQslotWrite ⟨.west, 128⟩ default, .ledgerQslotWrite (default : Fn) default),
    (.ledgerLowSlotRead ⟨.west, 128⟩, .ledgerLowSlotRead (default : Fn)),
    (.queuedResideLoad 16, .queuedResideLoad 0),
    (.residentKeyReload 16, .residentKeyReload 0),
    (.revocationOrder default 1024 0 0, .revocationOrder default 0 0 0),
    (.revocationOrder default 0 (2 ^ 32) 0, .revocationOrder default 0 0 0),
    (.revocationOrder default 0 0 65536, .revocationOrder default 0 0 0),
    (.revocationAck default 1024 0 0, .revocationAck default 0 0 0),
    (.revocationAck default 0 (2 ^ 32) 0, .revocationAck default 0 0 0),
    (.revocationAck default 0 0 65536, .revocationAck default 0 0 0),
    (.provenanceWalk 1024 0 0, .provenanceWalk 0 0 0),
    (.provenanceWalk 0 (2 ^ 32) 0, .provenanceWalk 0 0 0),
    (.provenanceWalk 0 0 65536, .provenanceWalk 0 0 0),
    (.invalidatedAncestorRelease 1024 0 0, .invalidatedAncestorRelease 0 0 0)] = true := by decide +kernel

theorem test_illFormed_5 : refuses [
    (.invalidatedAncestorRelease 0 (2 ^ 32) 0, .invalidatedAncestorRelease 0 0 0),
    (.invalidatedAncestorRelease 0 0 65536, .invalidatedAncestorRelease 0 0 0),
    (.bootImageAccept 4, .bootImageAccept 0),
    (.sourceSample 72 default, .sourceSample 0 default),
    (.balanceAdjustment 72, .balanceAdjustment 0),
    (.sourceStartupComplete 72, .sourceStartupComplete 0),
    (.drbgReseedRequest (.keyGen 16), .drbgReseedRequest (default : Drbg)),
    (.drbgIntervalExpiry (.keyGen 16), .drbgIntervalExpiry (default : Drbg)),
    (.maskingGeneratorReseed (.gallery 16), .maskingGeneratorReseed (default : MaskGen)),
    (.maskingGeneratorStop (.gallery 16), .maskingGeneratorStop (default : MaskGen)),
    (.drbgKnownAnswerTest (.keyGen 16) default, .drbgKnownAnswerTest (default : Drbg) default),
    (.entropyReadmit ⟨.west, 128⟩ default, .entropyReadmit (default : Fn) default),
    (.entropyLastfailRead ⟨.west, 128⟩, .entropyLastfailRead (default : Fn)),
    (.entropyRawdataRead ⟨.west, 128⟩, .entropyRawdataRead (default : Fn)),
    (.tileRead ⟨.west, 2 ^ 29⟩ default default, .tileRead (default : TileId) default default),
    (.tileWrite ⟨.west, 2 ^ 29⟩ (List.replicate 4096 0) default, .tileWrite (default : TileId) (List.replicate 4096 0) default)] = true := by decide +kernel

theorem test_illFormed_6 : refuses [
    (.tileWrite (default : TileId) (List.replicate 4095 0) default, .tileWrite (default : TileId) (List.replicate 4096 0) default),
    (.nodeWriteback default 0 0, .nodeWriteback default 1 0),
    (.nodeWriteback default 4 0, .nodeWriteback default 1 0),
    (.peerFallbackRead ⟨.west, 2 ^ 29⟩ default default, .peerFallbackRead (default : TileId) default default),
    (.tileRehome ⟨.west, 2 ^ 29⟩, .tileRehome (default : TileId)),
    (.channelRetirementRequest 4, .channelRetirementRequest 0),
    (.storeRetire ⟨.west, 128⟩ default, .storeRetire (default : Fn) default),
    (.retirementCopyComplete 4, .retirementCopyComplete 0),
    (.channelFailure 4, .channelFailure 0),
    (.channelTrainingComplete 4 default, .channelTrainingComplete 0 default),
    (.storeCeRead ⟨.west, 128⟩ 0, .storeCeRead (default : Fn) 0),
    (.storeCeRead (default : Fn) 4, .storeCeRead (default : Fn) 0),
    (.storeUeRead ⟨.west, 128⟩ 0, .storeUeRead (default : Fn) 0),
    (.storeUeRead (default : Fn) 4, .storeUeRead (default : Fn) 0),
    (.storeIntegRead ⟨.west, 128⟩, .storeIntegRead (default : Fn)),
    (.storeLastfailRead ⟨.west, 128⟩, .storeLastfailRead (default : Fn))] = true := by decide +kernel

theorem test_illFormed_7 : refuses [
    (.tamperSensorTrip { (default : Trip) with cls := 6 }, .tamperSensorTrip { (default : Trip) with cls := 1 }),
    (.batteryDomainAlarm { (default : Trip) with cls := 6 }, .batteryDomainAlarm { (default : Trip) with cls := 1 }),
    (.standingOrderEffective 3, .standingOrderEffective 1),
    (.unitFence ⟨32, 0, 0⟩ 1, .unitFence (default : UnitId) 1),
    (.unitFence (default : UnitId) 0, .unitFence (default : UnitId) 1),
    (.unitFence (default : UnitId) 7, .unitFence (default : UnitId) 1),
    (.errorCountDecay ⟨32, 0, 0⟩, .errorCountDecay (default : UnitId)),
    (.unitHandshakeTimeout ⟨32, 0, 0⟩, .unitHandshakeTimeout (default : UnitId)),
    (.unitKnownAnswerTest ⟨32, 0, 0⟩ default, .unitKnownAnswerTest (default : UnitId) default),
    (.recalibration ⟨32, 0, 0⟩, .recalibration (default : UnitId)),
    (.consRecal ⟨.west, 128⟩ default, .consRecal (default : Fn) default),
    (.sparePromotion ⟨32, 0, 0⟩, .sparePromotion (default : UnitId)),
    (.consPromote ⟨.west, 128⟩ default, .consPromote (default : Fn) default),
    (.consFence ⟨.west, 128⟩ default, .consFence (default : Fn) default),
    (.consReadmit ⟨.west, 128⟩ default, .consReadmit (default : Fn) default),
    (.unitReadmitComplete ⟨32, 0, 0⟩ default, .unitReadmitComplete (default : UnitId) default)] = true := by decide +kernel

theorem test_illFormed_8 : refuses [
    (.consGreset ⟨.west, 128⟩ default, .consGreset (default : Fn) default),
    (.galleryReset 16, .galleryReset 0),
    (.galleryResetComplete 16, .galleryResetComplete 0),
    (.consEventRead ⟨.west, 128⟩, .consEventRead (default : Fn)),
    (.consFencedTrafficRead ⟨.west, 128⟩, .consFencedTrafficRead (default : Fn)),
    (.consLinkdownRead ⟨.west, 128⟩, .consLinkdownRead (default : Fn)),
    (.staleFlitDrop ⟨32, 0, 0⟩ 0, .staleFlitDrop (default : UnitId) 0),
    (.staleFlitDrop (default : UnitId) 65536, .staleFlitDrop (default : UnitId) 0),
    (.cfgtxBegin (.host ⟨.west, 128⟩), .cfgtxBegin (default : TxWriter)),
    (.cfgtxCommit (.host ⟨.west, 128⟩) default, .cfgtxCommit (default : TxWriter) default),
    (.cfgtxAbort (.host ⟨.west, 128⟩), .cfgtxAbort (default : TxWriter)),
    (.microcodeBankLoad ⟨32, 0, 0⟩ default, .microcodeBankLoad (default : UnitId) default),
    (.bnslotRepartition 16, .bnslotRepartition 0),
    (.docentSqTailWrite default 8 0 default default, .docentSqTailWrite default 0 0 default default),
    (.docentSqTailWrite default 0 16 default default, .docentSqTailWrite default 0 0 default default),
    (.docentCqHeadWrite default 8 0 default default, .docentCqHeadWrite default 0 0 default default)] = true := by decide +kernel

theorem test_illFormed_9 : refuses [
    (.docentCqHeadWrite default 0 16 default default, .docentCqHeadWrite default 0 0 default default),
    (.dqCtrlWrite default 8 0 0 default, .dqCtrlWrite default 0 0 0 default),
    (.dqCtrlWrite default 0 16 0 default, .dqCtrlWrite default 0 0 0 default),
    (.dqCtrlWrite default 0 0 0x20 default, .dqCtrlWrite default 0 0 0 default),
    (.docentAccess default 8 ⟨.read, 0, 1, [], false⟩ default, .docentAccess default 0 ⟨.read, 0, 1, [], false⟩ default),
    (.docentAccess default 0 ⟨.read, 0, 0, [], false⟩ default, .docentAccess default 0 ⟨.read, 0, 1, [], false⟩ default),
    (.docentDmaBurst default ⟨.read, 0, 0, [], false⟩ default, .docentDmaBurst default ⟨.read, 0, 1, [], false⟩ default),
    (.debugPortAccess default ⟨.read, 0, 0, [], false⟩ default, .debugPortAccess default ⟨.read, 0, 1, [], false⟩ default),
    (.auRegisterWrite default 10 0 0 default, .auRegisterWrite default 0 0 0 default),
    (.auRegisterWrite default 0 10 0 default, .auRegisterWrite default 0 0 0 default),
    (.auRegisterWrite default 0 0 0x1000 default, .auRegisterWrite default 0 0 0 default),
    (.auVinfoClear default 10 default, .auVinfoClear default 0 default),
    (.auVcountRead default 10, .auVcountRead default 0),
    (.evlogVinfoClear ⟨.west, 128⟩ 0 default, .evlogVinfoClear (default : Fn) 0 default),
    (.evlogVinfoClear (default : Fn) 20 default, .evlogVinfoClear (default : Fn) 0 default),
    (.cardInsertion 2, .cardInsertion 0)] = true := by decide +kernel

theorem test_illFormed_10 : refuses [
    (.cardRemoval 2, .cardRemoval 0),
    (.cardActivate 2, .cardActivate 0),
    (.cardDeactivate 2, .cardDeactivate 0),
    (.cardWarmReset 2, .cardWarmReset 0),
    (.cardStart 2, .cardStart 0),
    (.cardClkStop 2, .cardClkStop 0),
    (.cardWake 2, .cardWake 0),
    (.cardAbort 2, .cardAbort 0),
    (.cardCharacterReceive 2 default default, .cardCharacterReceive 0 default default),
    (.cardVccTimeout 2, .cardVccTimeout 0),
    (.cardAtrTimeout 2, .cardAtrTimeout 0),
    (.cardClassBRetry 2, .cardClassBRetry 0),
    (.cardWaitingTimeExpiry 2, .cardWaitingTimeExpiry 0),
    (.cardDeactivationComplete 2, .cardDeactivationComplete 0),
    (.cardResultRead 2, .cardResultRead 0),
    (.cardIrqClear 2 default, .cardIrqClear 0 default)] = true := by decide +kernel

theorem test_illFormed_11 : refuses [
    (.referenceMissing default .watch, .referenceMissing default .xtal),
    (.clkpwrRevert ⟨.west, 128⟩, .clkpwrRevert (default : Fn)),
    (.standbyRequest ⟨.west, 128⟩, .standbyRequest (default : Fn)),
    (.activeRequest ⟨.west, 128⟩, .activeRequest (default : Fn)),
    (.clkpwrCapWrite ⟨.west, 128⟩ default, .clkpwrCapWrite (default : Fn) default),
    (.clkpwrSwitchesRead ⟨.west, 128⟩, .clkpwrSwitchesRead (default : Fn)),
    (.clkpwrRtcSet ⟨.west, 128⟩ default, .clkpwrRtcSet (default : Fn) default),
    (.clkpwrRtcSlew ⟨.west, 128⟩ default, .clkpwrRtcSlew (default : Fn) default),
    (.gpioEdge default 8 default, .gpioEdge default 0 default),
    (.compatStart ⟨.west, 128⟩ 0, .compatStart (default : Fn) 0),
    (.compatStart (default : Fn) 64, .compatStart (default : Fn) 0),
    (.compatKeyClear ⟨.west, 128⟩ 0, .compatKeyClear (default : Fn) 0),
    (.compatKeyClear (default : Fn) 64, .compatKeyClear (default : Fn) 0),
    (.compatKeyWrite ⟨.west, 128⟩ 0 0 default, .compatKeyWrite (default : Fn) 0 0 default),
    (.compatKeyWrite (default : Fn) 64 0 default, .compatKeyWrite (default : Fn) 0 0 default),
    (.compatKeyWrite (default : Fn) 0 8 default, .compatKeyWrite (default : Fn) 0 0 default)] = true := by decide +kernel

theorem test_illFormed_12 : refuses [
    (.compatOperationComplete 64 (default : EngineEvent), .compatOperationComplete 0 (default : EngineEvent)),
    (.compatOperationComplete 0 ⟨some ⟨32, 0, 0⟩, false, [], 0, 0⟩, .compatOperationComplete 0 (default : EngineEvent)),
    (.cardCharacterSent 2 default, .cardCharacterSent 0 default),
    (.timerCompare default 8, .timerCompare default 0)] = true := by decide +kernel

/-- The checks inside operands: a tamper class found at boot, reserved, or above 15; a kind and an index beyond the identifier's fields; an
access beyond 40 bits, and a store whose data has another length; a generator, a resource and a request out of range. -/
theorem test_illFormed_operands : refuses [
    (.tamperSensorTrip { (default : Trip) with cls := 7 }, .tamperSensorTrip { (default : Trip) with cls := 8 }),
    (.tamperSensorTrip { (default : Trip) with cls := 16 }, .tamperSensorTrip { (default : Trip) with cls := 15 }),
    (.errorCountDecay ⟨0, 32, 0⟩, .errorCountDecay ⟨31, 31, 255⟩), (.errorCountDecay ⟨0, 0, 256⟩, .errorCountDecay ⟨0, 0, 255⟩),
    (.docentAccess .west 0 ⟨.read, 2 ^ 40, 1, [], false⟩ default, .docentAccess .west 0 ⟨.read, 2 ^ 40 - 1, 1, [], false⟩ default),
    (.docentAccess .west 0 ⟨.write, 0, 2, [1], false⟩ default, .docentAccess .west 0 ⟨.write, 0, 2, [1, 2], false⟩ default),
    (.treeCacheRebuild ⟨65536, false⟩, .treeCacheRebuild ⟨65535, false⟩), (.patrolScrub ⟨.west, 4, 0⟩ default, .patrolScrub ⟨.west, 3, 0⟩ default),
    (.patrolScrub ⟨.west, 0, 2 ^ 29⟩ default, .patrolScrub ⟨.west, 0, 2 ^ 29 - 1⟩ default), (.zqCalibration ⟨4, 0⟩, .zqCalibration ⟨3, 0⟩),
    (.drbgReseedRequest (.host 16), .drbgReseedRequest (.host 15)), (.jobPreemption (.aes 16) 0, .jobPreemption (.aes 15) 0),
    (.doeSpdmRequest default (.ideProgram 16 0 0 false []), .doeSpdmRequest default (.ideProgram 15 0 0 false [])),
    (.doeSpdmRequest default (.ideProgram 0 2 1 false []), .doeSpdmRequest default (.ideProgram 0 1 1 false [])),
    (.doeSpdmRequest default (.ideProgram 0 0 128 false []), .doeSpdmRequest default (.ideProgram 0 0 127 false [])),
    (.doeSpdmRequest default (.ideProgram 0 0 0 true (List.replicate 5 (0, 0))), .doeSpdmRequest default (.ideProgram 0 0 0 true (List.replicate 4 (0, 0)))),
    (.perstDeassert ⟨.west, 0, 8⟩, .perstDeassert ⟨.west, 1, 8⟩), (.perstDeassert ⟨.west, 7, 8⟩, .perstDeassert ⟨.west, 6, 8⟩),
    (.perstDeassert ⟨.west, 6, 3⟩, .perstDeassert ⟨.west, 6, 4⟩), (.getMeasurements .mctp 7 ⟨none, false⟩, .getMeasurements .mctp 6 ⟨none, false⟩),
    (.getMeasurements .mctp 0 ⟨some 2, false⟩, .getMeasurements .mctp 0 ⟨some 1, false⟩)] = true := by decide +kernel

/-! ### A running part

`up` is the state that most witnesses start from: booted, owned, both ports answering, both wings on CLKREF, the links up and the
generators seeded; VF 1 of Port W is bound to collection 5 with one queue. -/

def pfW : Fn := ⟨.west, 0⟩
def pfE : Fn := ⟨.east, 0⟩
def vfW : Fn := ⟨.west, 1⟩

def runClk : ClockDie := { source := .clkref, clkrefOk := true, xtalOk := true }
def runPort : PortState := { perst := false, cfgReady := true, vfEnable := true, ideSecure := [3] }
def runLink : LinkState := { up := true, key := some [] }
def runDoc : DocentWing := { running := true }
def runStore : StoreWing := { tileKey := zeros 32, initDone := true }
def runQueue : Queue := { created := true, depth := 16, sqBase := 0x10000, cqBase := 0x20000, classMask := 15, sqTail := 3, cqTail := 2 }

def up : State :=
  let s : State := { now := 200000000, freeCtr := 1 }
  let s := { s with boot := { s.boot with inReset := false, stage := 5, lifecycle := .owned, ssk := some 1 } }
  let s := { s with power := { s.power with west := runClk, east := runClk, curator := runClk } }
  let s := { s with host := { s.host with portW := runPort, portE := runPort } }
  let s := { s with cont := { s.cont with admittedW := true, admittedE := true, wingLink := runLink, curW := runLink, curE := runLink, linkKeys := true } }
  let s := { s with journal := { s.journal with restore := .restored, configured := true, acked := true } }
  let s := { s with ledger := { s.ledger with ready := true }, docW := runDoc, docE := runDoc }
  let s := { s with store := { s.store with west := runStore, east := runStore, masterKey := zeros 32, regions := w32 (1 + 2 ^ 9 + 2 ^ 18) } }
  let s := { s with store := { s.store with channels := [(0, { state := 2, capacityGb := 16 }), (2, { state := 2, capacityGb := 16 })] } }
  let s := { s with entropy := { s.entropy with readyW := true, readyE := true, drbgs := [(0, { inst := true, state := zeros 48, tested := true })] } }
  let s := { s with work := { s.work with epoch := 1 }, cat := { s.cat with deskW := true, deskE := true } }
  let s := s.setColl 5 (some { bindingMode := 0, weight := 1, maxInflight := 8, c0Max := 2 })
  let s := (s.setFn pfW { ready := true, bme := true }).setFn pfE { ready := true, bme := true }
  s.setFn vfW { ready := true, bme := true, coll := some 5, queues := [(0, runQueue)] }

/-! ### The common rules, checked on a concrete state -/

def reachesOk (s : State) (f : Fn) : Bool := fnOk f && s.portAnswers f.port && (isPf f || (s.port f.port).vfEnable) && s.ideOk f

theorem reaches_of {s : State} {f : Fn} (h : reachesOk s f = true) : Reaches s f := by
  simp only [reachesOk, Bool.and_eq_true, Bool.or_eq_true] at h
  exact ⟨h.1.1.1, h.1.1.2, h.1.2, h.2⟩

theorem writes_of {s : State} {f : Fn} {o : Nat} (h : (reachesOk s f && s.blockWrites f.port (o / 0x1000)) = true) : Writes s f o := by
  simp only [Bool.and_eq_true] at h
  exact ⟨reaches_of h.1, h.2⟩

theorem manages_of {s : State} {f : Fn} {o : Nat}
    (h : ((reachesOk s f && s.blockWrites f.port (o / 0x1000)) && (isPf f && (s.mgmt f && (s.hasCurator f.port || s.recovery || s.tamper.hold)))) = true) :
    Manages s f o := by
  rw [Bool.and_eq_true, Bool.and_eq_true _ (s.mgmt f && _), Bool.and_eq_true _ (s.hasCurator f.port || _ || _)] at h
  exact ⟨writes_of h.1, h.2.1, h.2.2.2, h.2.2.1⟩

theorem reads_of {s : State} {f : Fn} {o : Nat} (h : (reachesOk s f && s.blockReads f.port (o / 0x1000)) = true) : Reads s f o := by
  simp only [Bool.and_eq_true] at h
  exact ⟨reaches_of h.1, h.2⟩

theorem readsPf_of {s : State} {f : Fn} {o : Nat} (h : ((reachesOk s f && s.blockReads f.port (o / 0x1000)) && isPf f) = true) :
    ReadsPf s f o := by
  rw [Bool.and_eq_true] at h
  exact ⟨reads_of h.1, h.2⟩

theorem admin_of {s : State} {f : Fn} {o : Nat} {i : AdmFrom} {u : List (Nat × Nat)} {e : List Byte}
    (h : decide ((s.fn f).admCur = some e ∧ byteAt e 4 = o ∧ s.boot.inReset = false ∧ s.admStatus f i u e = St.ok ∧ s.admBarred o i = false) = true) :
    AdminRuns s f o i u e := by
  have k := of_decide_eq_true h
  exact ⟨k.1, k.2.1, k.2.2.1, k.2.2.2.1, k.2.2.2.2⟩

theorem heard_of {s : State} {m : Sender} {c r : Nat}
    (h : decide (((s.mailbox m).busy = true ∧ bits32 (s.mailbox m).msg 0 8 = c ∧ s.boot.inReset = false ∧ s.cont.vote ≠ .lost) ∧
      (s.halted (senderWing m) = false ∧ s.reaches (senderWing m) = true ∧ (freeCodes.contains c = true ∨ c = 0x23 ∨ s.senderMgmt m = true)) ∧
      (s.recovery = false ∧ s.tamper.hold = false ∧ (s.tamper.frozen = true → (holdCodes ++ freeCodes).contains c = true)) ∧
      bits32 (s.mailbox m).msg 16 16 ≤ bits32 (s.mailbox m).bufLen 0 20 ∧ r ≤ bits32 (s.mailbox m).bufLen 0 20) = true) : Heard s m c r := by
  have k := of_decide_eq_true h
  obtain ⟨⟨a, b, c, d⟩, ⟨e, f, g⟩, ⟨i, j, k⟩, l, m⟩ := k
  exact ⟨a, b, c, d, e, .inl f, g, fun h => (Bool.noConfusion (i.symm.trans h)), fun h => (Bool.noConfusion (j.symm.trans h)), k, l, m⟩

theorem stands_of {s : State} {n o : Nat} {j : Job}
    (h : decide ((s.job n = some j ∧ s.tamper.frozen = false ∧ s.wingRuns (galleryWing j.gallery) = true ∧ j.parked = false) ∧
      (j.phase = .ready ∧ j.pc < j.prog.length ∧ insOpcode j.ins = o) ∧ j.executed < 4096 ∧ j.ending = none ∧
      condHolds (insCond j.ins) j.st j.f = true) = true) : StandsAt s n o j := by
  obtain ⟨⟨a, b, c, m⟩, ⟨d, e, f⟩, g, i, k⟩ := of_decide_eq_true h
  exact ⟨a, b, c, m, d, e, f, g, i, k⟩

/-- A 64-byte admin entry: opcode, data address and the bytes from 16 (R79). -/
def admEntry (op addr : Nat) (body : List Byte) : List Byte := padTo 64 ([1, 0, 0, 0, byte op, 0, 0, 0] ++ leBytes 8 addr ++ body)

/-- The state in which a function has an admin entry in progress. -/
def admState (s : State) (f : Fn) (e : List Byte) : State := s.setFn f { s.fn f with admEnable := true, admCur := some e }

/-! ### A job at an instruction -/

/-- An instruction word of R121's fields. -/
def ins (op dst a b cond imm : Nat) : Word64 := w64 (op * 2 ^ 56 + dst * 2 ^ 52 + a * 2 ^ 48 + b * 2 ^ 44 + cond * 2 ^ 40 + imm)

/-- A job of VF 1's queue on gallery 0 whose program is one instruction. -/
def oneIns (i : Word64) : Job := { src := .host vfW (.io 0), coll := 5, tag := 1, cls := 1, prog := [i], phase := .ready }

/-- The state in which job 1 is that job. -/
def at1 (j : Job) : State := up.putJob 1 j

/-! ### A job at an EXEC -/

/-- The EXEC word of a function with its inputs from B0 and its outputs behind them (R133). -/
def execWord (c sel opts : Nat) (x : FnSpec) : Word64 :=
  ins 0x40 (if x.outs.isEmpty then 0 else x.ins.length) 0 (if x.loans.isEmpty then 8 else 0) 0
    (c + sel * 2 ^ 16 + (if x.loans.length ≥ 2 then 9 * 2 ^ 24 else 0) + opts * 2 ^ 32)

/-- A loan that a rule accepts. -/
def ruleLoan (s : State) (sel cw : Nat) (k : Nat) (r : LoanRule) : Loan :=
  let cls := r.classes.headD 1
  let sel := if r.sels.isEmpty then (if (s.classLen cls sel cw).isSome then sel else 1) else r.sels.headD sel
  { coll := 5, index := k, gen := 1, purpose := r.purposes.headD 1, job := 1, wing := .west, leaseNs := 100000000, from_ := 0, ancestors := [],
    record := { coll := 5, index := k, gen := 1, purpose := 2 ^ r.purposes.headD 1, cls, selector := sel, classWord := w32 cw,
                length := (s.classLen cls sel cw).getD 0 } }

def inBuf (p : InPos) : Buf := .host [⟨0x1000, match p.rule with | .exact n => n | .between lo _ => lo | .any => 16⟩]

/-- A 48-byte template of a class, selector and class word (R158). -/
def template (cls sel cw : Nat) : List Byte := padTo 48 ([0, 0, 0, 0, byte cls, byte sel, 0, 0] ++ zeros 24 ++ leBytes 4 cw)

def outBuf (r : OutRule) : Buf :=
  match r with
  | .template => .template (template 1 1 0)
  | .gallery n => .gallery 0 0 n
  | .pubAs _ => .host [⟨0x2000, 16⟩]
  | .pub n | .host n | .hostOrTemplate n | .secret n => .host [⟨0x2000, n⟩]

def fnJob (c sel opts : Nat) (x : FnSpec) : Job :=
  { oneIns (execWord c sel opts x) with
    b := ((x.ins.map inBuf ++ x.outs.map outBuf).map some ++ List.replicate 8 none).take 8
    h := ((List.range x.loans.length).map (fun k => some (k + 1)) ++ List.replicate 8 none).take 8
    gmem := [List.replicate 64 {}] }

def fnState (c sel opts cw : Nat) (x : FnSpec) : State :=
  let s := up.putJob 1 (fnJob c sel opts x)
  { s with cat := { s.cat with loans := x.loans.zipIdx.map fun p => (p.2 + 1, some (ruleLoan up sel cw p.2 p.1)) } }

/-- Everything that `Begins` asks for, but the description itself. -/
def beginsOk (s : State) (n c : Nat) (j : Job) (x : FnSpec) : Bool :=
  let b := s.begunJob n j
  let e := execFields j.ins
  decide ((s.job n = some j ∧ s.tamper.frozen = false ∧ s.wingRuns (galleryWing j.gallery) = true ∧ j.parked = false) ∧
      (j.phase = .ready ∧ j.pc < j.prog.length ∧ insOpcode j.ins = 0x40) ∧ j.executed < 4096 ∧ j.ending = none ∧
      condHolds (insCond j.ins) j.st j.f = true) &&
    decide (e.code = c) && decide ((s.begun n j).hasCurator (galleryWing j.gallery) = true ∧ barsTemplate x (outputBufs b e x) = false) &&
    (decide (((s.begun n j).execLoans b e).length = (loanRegs e).length) &&
    decide (loanStep ((s.begun n j).view b) ((s.begun n j).execLoans b e) x.loans = St.ok) &&
    decide ((inputBufs b e x ++ outputBufs b e x).any (·.isNone) = false)) &&
    (decide (bufferStep b x ((inputBufs b e x).filterMap id) ((outputBufs b e x).filterMap id) = St.ok) &&
    decide (x.prefers = none ∨ b.readsSecret x = false) && ((b.need x).all fun u => (s.begun n j).inService j.wing j.gallery u))

theorem begins_of {s : State} {n c : Nat} {j : Job} {x : FnSpec} (h : beginsOk s n c j x = true) (k : (s.begun n j).specNow (s.begunJob n j) = some x) :
    Begins s n c j x := by
  simp only [beginsOk, Bool.and_eq_true, decide_eq_true_eq] at h
  obtain ⟨⟨⟨⟨a, b⟩, c, c'⟩, ⟨⟨d, e⟩, f⟩⟩, ⟨⟨g, i⟩, l⟩⟩ := h
  obtain ⟨⟨a1, a2, a3, a0⟩, ⟨a4, a5, a6⟩, a7, a8, a9⟩ := a
  refine ⟨⟨a1, a2, a3, a0, a4, a5, a6, a7, a8, a9⟩, b, fun _ => c, d, k, c', e, f, g, fun q hq hr => ?_, l⟩
  rcases i with i | i
  · exact absurd (hq.symm.trans i) (by simp)
  · exact absurd (hr.symm.trans i) (by simp)

/-- A job at the EXEC of a function code with a selector and options, and what it describes. -/
def caseSpec (p : Nat × Nat × Nat) : FnSpec := ((fnDef p.1).bind fun d => d.spec up p.2.1 p.2.2 0).getD {}
def caseJob (p : Nat × Nat × Nat) : Job := fnJob p.1 p.2.1 p.2.2 (caseSpec p)
def caseState (p : Nat × Nat × Nat) : State := fnState p.1 p.2.1 p.2.2 0 (caseSpec p)
def caseNow (p : Nat × Nat × Nat) : Option FnSpec := ((caseState p).begun 1 (caseJob p)).specNow ((caseState p).begunJob 1 (caseJob p))
def caseBegins (p : Nat × Nat × Nat) : Bool := (caseNow p).any (beginsOk (caseState p) 1 p.1 (caseJob p))

theorem begins_case {s : State} {c : Nat} {j : Job} (h : ((s.begun 1 j).specNow (s.begunJob 1 j)).any (beginsOk s 1 c j) = true) :
    ∃ s n j x, Begins s n c j x := by
  obtain ⟨x, hx, k⟩ := (Option.any_eq_true _ _).mp h
  exact ⟨s, 1, j, x, begins_of k hx⟩

theorem begins_all {l : List (Nat × Nat × Nat)} (h : l.all caseBegins = true) : ∀ p ∈ l, ∃ s n j x, Begins s n p.1 j x := by
  intro p hp
  have k := List.all_eq_true.mp h p hp
  unfold caseBegins caseNow at k
  exact begins_case k

/-! ### Single steps with values from the spec -/

/-- The next state of a command. -/
def after (i : Instr) (s : State) : State :=
  match exec i s with
  | .next t => t
  | _ => s

/-- Job 1 at an instruction that is not its last, with the first V registers given. -/
def running (i : Word64) (l : List Word64) : State :=
  at1 { oneIns i with prog := [i, ins 0 0 0 0 0 0, ins 0 0 0 0 0 0], v := (l ++ List.replicate 16 0).take 16 }

def vOf (s : State) (k : Nat) : Option Word64 := (s.job 1).map fun j => j.v.getD k 0
def fOf (s : State) : Option Byte := (s.job 1).map (·.f)
def pcOf (s : State) : Option Nat := (s.job 1).map (·.pc)

/-- V0 + V1 modulo 2^64 (R125). -/
theorem test_add_wraps : vOf (after (.insAdd 1) (running (ins 0x13 2 0 1 0 0) [0xFFFFFFFFFFFFFFFF, 2])) 2 = some 1 := by decide +kernel

/-- A 40-bit immediate of all ones is −1 (R125). -/
theorem test_addi_signed : vOf (after (.insAddi 1) (running (ins 0x14 0 0 0 0 0xFFFFFFFFFF) [5])) 0 = some 4 := by decide +kernel

/-- A shift right is logical (R125). -/
theorem test_shr_logical : vOf (after (.insShr 1) (running (ins 0x1A 1 0 0 0 63) [0x8000000000000000])) 1 = some 1 := by decide +kernel

/-- MOVHI keeps the low 40 bits (R125). -/
theorem test_movhi_keeps_low : vOf (after (.insMovhi 1) (running (ins 0x11 0 0 0 0 0xABCDEF) [0xFFFFFF1122334455])) 0 = some 0xABCDEF1122334455 := by
  decide +kernel

/-- SUB below zero wraps (R125). -/
theorem test_sub_wraps : vOf (after (.insSub 1) (running (ins 0x15 0 0 1 0 0) [0, 1])) 0 = some 0xFFFFFFFFFFFFFFFF := by decide +kernel

/-- CMP below sets lt and clears eq, and keeps pass (R123). -/
theorem test_cmp_below : fOf (after (.insCmp 1) ((running (ins 0x1B 0 0 1 0 0) [1, 2]).putJob 1
    { oneIns 0 with prog := [ins 0x1B 0 0 1 0 0, 0, 0], v := [1, 2], f := 0x05 })) = some 0x09 := by decide +kernel

/-- An immediate of CMPI is zero-extended (R125). -/
theorem test_cmpi_zero_extends : fOf (after (.insCmpi 1) (running (ins 0x1C 0 0 0 0 0xFFFFFFFFFF) [0xFFFFFFFFFF])) = some 0x04 := by decide +kernel

/-- BR counts from the instruction after it (R125). -/
theorem test_br_forward : pcOf (after (.insBr 1) (running (ins 0x02 0 0 0 0 1) [])) = some 2 := by decide +kernel

/-- An instruction whose condition is false only advances pc (R124). -/
theorem test_condition_false : vOf (after (.insMovi 1) (running (ins 0x10 0 0 0 5 7) [3])) 0 = some 3 ∧
    pcOf (after (.insMovi 1) (running (ins 0x10 0 0 0 5 7) [3])) = some 1 := by decide +kernel

/-- The unit identifier holds location, kind and index in bits [4:0], [9:5] and [17:10] (R443). -/
theorem test_unitCode : unitCode ⟨3, 2, 135⟩ = 3 + 2 * 32 + 135 * 1024 := by decide

/-- A record carries tag, status, verdict, flags, output length, epoch, result and time in this order (R95). -/
theorem test_record_layout : recordBytes { (default : Record) with tag := 0x04030201, status := 5, verdict := 6, flags := 0x0807, outputLength := 9, epoch := 1, result := 2, elapsedNs := 3 } =
    [1, 2, 3, 4, 5, 6, 7, 8, 9, 0, 0, 0, 1, 0, 0, 0, 2, 0, 0, 0, 0, 0, 0, 0, 3, 0, 0, 0, 0, 0, 0, 0] := by decide +kernel

/-- The command table gives no bits: no word spells a command, and none is placed in the queue. -/
theorem test_no_word_spells : decodeTableWord 64 0x1234 = none ∧ (State.reset.withFetchWord 64 0x1234).pending = [] := by decide +kernel

/-- CLKPWR_RTC_SET loads the seconds (R524). -/
theorem test_rtcSet : (after (.clkpwrRtcSet pfW 1000) up).rtcSec = 1000 ∧ (after (.clkpwrRtcSet pfW 1000) up).power.rtcValid = true := by decide +kernel

/-- A thermal step at 95 °C takes one sixteenth more (R522). -/
theorem test_thermalStep : (after .thermalThrottleStep { up with power := { up.power with tempE := 95, thermal := 47 } }).power.thermal = 48 ∧
    (after .thermalThrottleStep { up with power := { up.power with tempE := 95, thermal := 48 } }).power.thermal = 48 := by decide +kernel

/-- A card's insertion sets CARD_IRQ[1] (R509). -/
theorem test_cardInsertion : ((after (.cardInsertion 1) up).card 1).irq = 2 ∧ ((after (.cardInsertion 1) up).card 1).state = .present := by decide +kernel

/-- An activation with no card ends with NO_CARD, 0x02 (R509). -/
theorem test_cardActivate_empty : ((after (.cardActivate 0) up).card 0).result.toNat % 256 = 2 := by decide +kernel

/-- GPIO outputs and directions are stored (R541). -/
theorem test_gpioWrite : ((after (.gpioWrite .east 0x0F 0xF0) up).doc .east).gpioOut = 0x0F ∧ ((after (.gpioWrite .east 0x0F 0xF0) up).doc .east).gpioOe = 0xF0 := by
  decide +kernel

/-- A command that meets no precondition of its rule, here a completion of no job's operation, changes nothing. -/
theorem test_no_operation : exec (.engineOperationComplete 77 default) up = .next up := by rfl

/-- Every unit of a resource is held by job 1 of class C3, and job 2 of a class waits for one. -/
def preempted (r : Resource) (n cls : Nat) : State :=
  let k := match r with | .aes _ => Kind.aes | _ => 31
  let s := (up.putJob 1 { oneIns 0 with cls := 3, phase := .exec }).putJob 2 { oneIns 0 with cls, phase := .exec, exec := some { stage := .waitUnit, need := [(k, 1)] } }
  { s with work := { s.work with grants := (List.range n).map fun i => ⟨r, 1, i + 1, false, false, i, {}⟩ } }

/-- The state in which a sender's mailbox holds a message of a code with its parameters' length, and a full-size buffer. -/
def heardState (s : State) (m : Sender) (code : Nat) (ps : List Byte) : State :=
  s.setMailbox m { msg := w32 (code + ps.length * 65536), bufLen := 0xFFFFF, busy := true }

theorem heard_params {s : State} {m : Sender} {code : Nat} {ps : List Byte} (h : ps.length < 65536) (k : code < 65536) :
    ps = ((heardState s m code ps).mailbox m).params ps := by
  have e : bits32 (w32 (code + ps.length * 65536)) 16 16 = ps.length := by
    simp only [bits32, fieldAt, w32, BitVec.toNat_ofNat]
    omega
  have f : (heardState s m code ps).mailbox m = { msg := w32 (code + ps.length * 65536), bufLen := 0xFFFFF, busy := true } := by
    cases m with
    | pf w => cases w <;> rfl
    | supervisor w => cases w <;> rfl
  rw [f, Curmb.params, e, padTo, Nat.sub_self, List.take_length]
  exact (List.append_nil _).symm


/-! ### Engine functions: for every function code a job that begins it -/

theorem witness_LatticeAndHybridFunctionsBegin : ∀ p ∈ [(0x0101, 1, 0), (0x0102, 3, 0), (0x0103, 2, 0), (0x0104, 1, 0), (0x0105, 3, 0),
    (0x0106, 2, 0), (0x0201, 3, 0), (0x0202, 1, 0), (0x0203, 3, 0), (0x0204, 2, 0), (0x0205, 1, 0), (0x0206, 1, 0), (0x0301, 2, 0), (0x0302, 1, 0),
    (0x0303, 2, 0), (0x0304, 1, 0), (0x0305, 2, 0), (0x0306, 1, 0), (0x1001, 1, 0), (0x1002, 17, 0), (0x1003, 17, 0), (0x1004, 17, 0)],
    ∃ s n j x, Begins s n p.1 j x := begins_all (by decide +kernel)

theorem witness_HashFunctionsBegin : ∀ p ∈ [(0x0401, 12, 0), (0x0402, 1, 0), (0x0403, 12, 0), (0x0404, 1, 0), (0x0405, 1, 0), (0x0406, 12, 0),
    (0x0501, 0, 0), (0x0502, 0, 0), (0x0503, 0, 0), (0x0504, 0, 0), (0x0505, 0, 0), (0x0506, 0, 0), (0x0601, 1, 0), (0x0602, 1, 0), (0x0603, 1, 0),
    (0x0604, 1, 0), (0x0605, 1, 0), (0x0606, 1, 0), (0x0B01, 1, 0), (0x0B02, 8, 0), (0x0B03, 2, 0), (0x0B04, 2, 0), (0x0B05, 8, 0), (0x0B06, 8, 0),
    (0x0B07, 1, 1), (0x0B08, 1, 32), (0x0B10, 1, 1), (0x0B11, 1, 1), (0x0B12, 1, 1)], ∃ s n j x, Begins s n p.1 j x :=
  begins_all (by decide +kernel)

theorem witness_CodeBasedAndClassicalFunctionsBegin : ∀ p ∈ [(0x0701, 1, 0), (0x0702, 1, 0), (0x0703, 1, 0), (0x0704, 1, 0), (0x0705, 1, 0),
    (0x0706, 1, 0), (0x0707, 1, 0), (0x0801, 3, 0), (0x0802, 1, 0), (0x0803, 3, 0), (0x0804, 1, 0), (0x0805, 1, 0), (0x0806, 1, 0),
    (0x0901, 0x80, 0), (0x0902, 0x20, 2), (0x0903, 0x10, 2), (0x0904, 0x80, 2), (0x0905, 0x80, 2), (0x0906, 0x20, 2), (0x0907, 0x20, 0),
    (0x0908, 0x80, 0), (0x0A01, 1, 0), (0x0A02, 1, 2), (0x0A03, 1, 2), (0x0A04, 1, 2), (0x0A05, 1, 0), (0x0A06, 1, 0), (0x0A07, 1, 0), (0x0A08, 1, 0),
    (0x0A09, 0, 0)], ∃ s n j x, Begins s n p.1 j x := begins_all (by decide +kernel)

theorem witness_SymmetricAndCatalogueFunctionsBegin : ∀ p ∈ [(0x0C01, 1, 0), (0x0C02, 3, 0), (0x0C03, 2, 0), (0x0C04, 1, 0), (0x0C05, 1, 0),
    (0x0C06, 3, 0), (0x0D01, 17, 0), (0x0D02, 68, 0), (0x0D03, 1, 0), (0x0D04, 1, 0), (0x0D05, 3, 0), (0x0D06, 3, 0), (0x0E01, 0, 0), (0x0F01, 2, 0),
    (0x0F02, 0, 0), (0x0F03, 0, 0), (0x0F04, 0, 0), (0x0F05, 0, 0), (0x0F06, 0, 0), (0x0F07, 0, 0), (0x0F08, 0, 0), (0x0F09, 0, 0), (0x0F0A, 0, 0)],
    ∃ s n j x, Begins s n p.1 j x := begins_all (by decide +kernel)



/-! ### An EXEC that is refused -/

/-- Code 0x0F05 (CAT.WITHDRAW) on a wing without links: only the Curator's path is missing. -/
def cutState : State := { caseState (0x0F05, 0, 0) with cont := {} }

/-- AES.ENCRYPT with a loan of another purpose, RAND.BYTES without its buffers, and MCELIECE.KEYGEN of selector 9 with a
template for its public key. -/
def wrongLoan : State :=
  let s := caseState (0x0C01, 1, 0)
  { s with cat := { s.cat with loans := s.cat.loans.map fun p => (p.1, p.2.map fun l => { l with purpose := 0 }) } }
def templateJob : Job :=
  { caseJob (0x0701, 9, 0) with b := [some (.template (template 0x10 9 0)), some (.template (template 0x11 9 0))] ++ List.replicate 6 none }
def emptyJob : Job := { caseJob (0x0E01, 0, 0) with b := [] }

theorem witness_EngineFunctionsRefuse :
    (∃ j s, StandsAt s 1 0x40 j ∧ (execFields j.ins).code = 0x0F05 ∧ (s.begun 1 j).hasCurator (galleryWing j.gallery) = false) ∧
    (∃ j s, StandsAt s 1 0x40 j ∧ (execFields j.ins).code = 0x0C01 ∧
      ((s.begun 1 j).execLoans (s.begunJob 1 j) (execFields j.ins)).length ≠ (loanRegs (execFields j.ins)).length) ∧
    (∃ j s, StandsAt s 1 0x40 j ∧ (execFields j.ins).code = 0x0101 ∧
      ((s.begun 1 j).execLoans (s.begunJob 1 j) (execFields j.ins)).length = (loanRegs (execFields j.ins)).length ∧
      (s.begun 1 j).specNow (s.begunJob 1 j) = none) ∧
    (∃ j s x, StandsAt s 1 0x40 j ∧ (execFields j.ins).code = 0x0701 ∧
      ((s.begun 1 j).execLoans (s.begunJob 1 j) (execFields j.ins)).length = (loanRegs (execFields j.ins)).length ∧
      (s.begun 1 j).specNow (s.begunJob 1 j) = some x ∧ barsTemplate x (outputBufs (s.begunJob 1 j) (execFields j.ins) x) = true) ∧
    (∃ j s x, StandsAt s 1 0x40 j ∧ (execFields j.ins).code = 0x0C01 ∧
      ((s.begun 1 j).execLoans (s.begunJob 1 j) (execFields j.ins)).length = (loanRegs (execFields j.ins)).length ∧
      (s.begun 1 j).specNow (s.begunJob 1 j) = some x ∧ barsTemplate x (outputBufs (s.begunJob 1 j) (execFields j.ins) x) = false ∧
      loanStep ((s.begun 1 j).view (s.begunJob 1 j)) ((s.begun 1 j).execLoans (s.begunJob 1 j) (execFields j.ins)) x.loans ≠ St.ok) ∧
    (∃ j s x, StandsAt s 1 0x40 j ∧ (execFields j.ins).code = 0x0E01 ∧
      ((s.begun 1 j).execLoans (s.begunJob 1 j) (execFields j.ins)).length = (loanRegs (execFields j.ins)).length ∧
      (s.begun 1 j).specNow (s.begunJob 1 j) = some x ∧ barsTemplate x (outputBufs (s.begunJob 1 j) (execFields j.ins) x) = false ∧
      loanStep ((s.begun 1 j).view (s.begunJob 1 j)) ((s.begun 1 j).execLoans (s.begunJob 1 j) (execFields j.ins)) x.loans = St.ok ∧
      (inputBufs (s.begunJob 1 j) (execFields j.ins) x ++ outputBufs (s.begunJob 1 j) (execFields j.ins) x).any (·.isNone) = true) :=
  ⟨⟨caseJob (0x0F05, 0, 0), cutState, stands_of (by decide +kernel), by decide +kernel, by decide +kernel⟩,
   ⟨{ caseJob (0x0C01, 1, 0) with h := [] }, (caseState (0x0C01, 1, 0)).putJob 1 { caseJob (0x0C01, 1, 0) with h := [] }, stands_of (by decide +kernel),
    by decide +kernel, by decide +kernel⟩,
   ⟨oneIns (execWord 0x0101 9 0 { outs := [.template] }), at1 (oneIns (execWord 0x0101 9 0 { outs := [.template] })), stands_of (by decide +kernel),
    by decide +kernel, by decide +kernel, by rfl⟩,
   ⟨templateJob, at1 templateJob, _, stands_of (by decide +kernel), by decide +kernel, by decide +kernel,
    (Option.some_get (show (((at1 templateJob).begun 1 templateJob).specNow ((at1 templateJob).begunJob 1 templateJob)).isSome = true by decide +kernel)).symm,
    by decide +kernel⟩,
   ⟨caseJob (0x0C01, 1, 0), wrongLoan, _, stands_of (by decide +kernel), by decide +kernel, by decide +kernel,
    (Option.some_get (show ((wrongLoan.begun 1 (caseJob (0x0C01, 1, 0))).specNow (wrongLoan.begunJob 1 (caseJob (0x0C01, 1, 0)))).isSome = true by
      decide +kernel)).symm, by decide +kernel, by decide +kernel⟩,
   ⟨emptyJob, at1 emptyJob, _, stands_of (by decide +kernel), by decide +kernel, by decide +kernel,
    (Option.some_get (show (((at1 emptyJob).begun 1 emptyJob).specNow ((at1 emptyJob).begunJob 1 emptyJob)).isSome = true by decide +kernel)).symm,
    by decide +kernel, by decide +kernel, by decide +kernel⟩⟩


/-! ### Authorisations

The checks of signatures and tokens are free values (log 3): the witnesses that need one take it that they pass. -/

/-- Every check that a published standard defines passes. -/
def AllPass : Prop := ∀ p l, Config.primBool p l = true

def twoCustodians : List Custodian := [⟨1, []⟩, ⟨1, []⟩]

/-- An authorisation of an action over its parameters, with the zero nonce, signed by custodians 0 and 1 (R409). -/
def authFor (action : Nat) (params : List Byte) : List Byte :=
  authMagic ++ leBytes 2 action ++ zeros 16 ++ Config.prim (.hash 2) [params] 48 ++ [255, 255, 255, 255, 2, 0, 0, 0] ++ [0, 1, 0, 0, 1, 1, 0, 0]

/-- `up` with two custodians, both needed, and the zero nonce outstanding. -/
def signedUp : State :=
  { up with boot := { up.boot with custodians := twoCustodians, threshold := 2, nonces := [{ value := zeros 16, at_ := 0 }] } }

theorem verify_two (h : AllPass) (a : Nat) (p : List Byte) : verifying twoCustodians (authFor a p) = [0, 1] := by
  have e4 : byteAt (authFor a p) 76 = 2 := rfl
  have e8 : (authFor a p).drop 80 = [0, 1, 0, 0, 1, 1, 0, 0] := rfl
  have k : authSigs 2 [0, 1, 0, 0, 1, 1, 0, 0] = [(0, 1, []), (1, 1, [])] := by decide +kernel
  rw [verifying, e4, e8, k]
  simp only [List.filter, twoCustodians, List.getElem?_cons_zero, List.getElem?_cons_succ, h _ _]
  decide

theorem signed_ok (h : AllPass) {a : Nat} (p : List Byte) (ha : leAt (authFor a p) 6 2 = a) : authSigned twoCustodians 2 a p (authFor a p) = true := by
  have e1 : (authFor a p).take 6 = authMagic := rfl
  have e2 : slice (authFor a p) 24 48 = Config.prim (.hash 2) [p] 48 := rfl
  have e3 : slice (authFor a p) 77 3 = [0, 0, 0] := rfl
  have e4 : byteAt (authFor a p) 76 = 2 := rfl
  have e7 : (authFor a p).length = 88 := rfl
  simp only [authSigned, verify_two h a p, e1, e2, e3, e4, e7, ha, beq_self_eq_true, Bool.and_true]
  decide

theorem auth_ok (h : AllPass) {s : State} {a : Nat} {p q : List Byte} (hq : q = authFor a p) (ha : leAt (authFor a p) 6 2 = a)
    (hs : s.boot.nonces = [{ value := zeros 16, at_ := 0 }]) (hn : s.now < nonceNs) (hr : s.rtcSec ≤ 4294967295) :
    s.authValid twoCustodians 2 a p q = true := by
  subst hq
  have e5 : leAt (authFor a p) 72 4 = 4294967295 := rfl
  have e6 : slice (authFor a p) 8 16 = zeros 16 := rfl
  have e10 : s.nonceLive (zeros 16) = true := by
    simp only [State.nonceLive, hs, List.any_cons, List.any_nil, beq_self_eq_true, Nat.sub_zero, hn, decide_true, Bool.true_and, Bool.or_false]
  simp only [State.authValid, signed_ok h p ha, e5, e6, e10, hr, decide_true, Bool.and_true]

/-- Parameters, padding, and the authorisation of an action over the parameters. -/
def withAuth (a : Nat) (x z : List Byte) : List Byte := x ++ z ++ authFor a x

theorem withAuth_ok (h : AllPass) {s : State} {a n k : Nat} {x z : List Byte} (hn : x.length = n) (hk : (x ++ z).length = k)
    (ha : leAt (authFor a x) 6 2 = a) (hs : s.boot.nonces = [{ value := zeros 16, at_ := 0 }]) (ht : s.now < nonceNs) (hr : s.rtcSec ≤ 4294967295) :
    s.authValid twoCustodians 2 a ((withAuth a x z).take n) ((withAuth a x z).drop k) = true := by
  have e : (withAuth a x z).take n = x := by rw [withAuth, List.append_assoc]; exact List.take_left' hn
  rw [e]
  exact auth_ok h (List.drop_left' hk) ha hs ht hr

theorem token_ok (h : AllPass) {s : State} {l : Nat} {n t : List Byte} (hs : (s.boot.challenges.any fun c => c.1 == l && c.2.value == n) = true) :
    s.tokenOk l n t = true := by
  rw [State.tokenOk, hs, h]
  rfl

/-- A token's parameters: the zero nonce, the level, and 96 bytes of token (R412). -/
def tokenFor (level : Nat) : List Byte := zeros 16 ++ [byte level] ++ zeros 7 ++ zeros 96

/-- A state of the life cycle with the zero challenge of a level outstanding. -/
def challenged (l : Lifecycle) (level : Nat) : State :=
  { up with boot := { up.boot with lifecycle := l, challenges := [(level, { value := zeros 16, at_ := 0 })] } }

/-- A standing order of a kind with sequence 1 and the default body (R430, R451). -/
def orderFor (kind : Nat) : List Byte :=
  [0x53, 0x4F, 0x52, 0x31, 0x01, 0x00, byte kind, 0] ++ leBytes 4 1 ++ zeros 4 ++ leBytes 4 (if kind = 1 then 32 else 16) ++ zeros 44 ++
    (if kind = 1 then zeros 16 ++ leBytes 4 0x22222222 ++ zeros 12 else zeros 16)

/-- A Curator image of length 0 in slot B, with its digest in the manifest (R399, R402). -/
def manifestB : List Byte :=
  [0x52, 0x4D, 0x46, 0x31, 0, 0, 0, 0] ++ zeros 8 ++ zeros 4 ++ [8, 0, 0, 0] ++ Config.prim (.hash 2) [[]] 48 ++ zeros 56

/-- The cells of bytes stored from an address. -/
def cells (a : Nat) : List Byte → Tbl Byte
  | [] => []
  | x :: l => (a, x) :: cells (a + 1) l

theorem read_past {d x : Byte} {t : Tbl Byte} {b : Nat} (n : Nat) : ∀ a, b < a → Tbl.readBytes d ((b, x) :: t) a n = Tbl.readBytes d t a n := by
  induction n with
  | zero => intro a _; rfl
  | succ n ih =>
    intro a h
    simp only [Tbl.readBytes, Tbl.get, if_neg (Nat.ne_of_gt h), ih (a + 1) (Nat.lt_succ_of_lt h)]

theorem read_cells (d : Byte) (l m : List Byte) : ∀ a, Tbl.readBytes d (cells a (l ++ m)) a l.length = l := by
  induction l with
  | nil => intro a; rfl
  | cons x l ih =>
    intro a
    simp only [cells, List.cons_append, List.length_cons, Tbl.readBytes, Tbl.get, if_true, read_past l.length (a + 1) (Nat.lt_succ_self a), ih (a + 1)]

theorem read_cells_after (d : Byte) (l m : List Byte) (n : Nat) : ∀ a, Tbl.readBytes d (cells a (l ++ m)) (a + l.length) n =
    Tbl.readBytes d (cells (a + l.length) m) (a + l.length) n := by
  induction l with
  | nil => intro a; rfl
  | cons x l ih =>
    intro a
    have e : a + (x :: l).length = a + 1 + l.length := by rw [List.length_cons, Nat.add_assoc, Nat.add_comm 1]
    rw [e, ← ih (a + 1)]
    exact read_past n _ (Nat.lt_of_lt_of_le (Nat.lt_succ_self a) (Nat.le_add_right _ _))

def imaged : State := { up with boot := { up.boot with flash := cells (imageBase 0 1) (manifestB ++ []) } }

theorem imaged_manifest : imaged.manifest 0 1 = manifestB := read_cells 0xFF manifestB [] (imageBase 0 1)

theorem imaged_ok (h : AllPass) : imaged.imageOk 0 1 = true := by
  have a : imaged.imageSigOk imaged.boot.custodians imaged.boot.threshold 0 1 = true := by
    rw [State.imageSigOk, imaged_manifest]
    refine (if_neg (by decide)).trans ?_
    rw [h, Bool.and_true]
    decide +kernel
  have b : slice manifestB 24 48 = Config.prim (.hash 2) [[]] 48 := rfl
  have d : manLength manifestB = 0 := by decide +kernel
  have c : imaged.imageBody 0 1 = [] := by rw [State.imageBody, imaged_manifest, d]; rfl
  rw [State.imageOk, State.imageReason, imaged_manifest, a, b, c, d]
  simp only [bne_self_eq_false]
  decide +kernel

theorem live_and {s : State} {n : Nat} (h : s.tamper.live = 0) : (s.conditionsEnd.tamper.live.toNat &&& n) = 0 := by
  have e : s.conditionsEnd.tamper.live = 0 := by
    show s.tamper.live &&& _ = 0
    rw [h]
    exact BitVec.zero_and
  rw [e]
  exact Nat.zero_and n

/-- A seal block without records, sequence 1 of generation 0 (R178). -/
def blockOne : List Byte := leBytes 4 0x52414A31 ++ leBytes 2 1 ++ zeros 2 ++ leBytes 8 1 ++ zeros 96

theorem block_ok (h : AllPass) {s : State} {n : Nat} (hn : n = 112 := by decide +kernel)
    (hs : (s.journal.appliedAny = false ∧ s.journal.appliedChain = [] ∧ s.journal.applied = 0 ∧ s.journal.head.n = 1 ∧ s.journal.head.gen = 0) := by decide +kernel) :
    s.blockStatus blockOne n (some []) = St.ok := by
  obtain ⟨a, b, c, d, e⟩ := hs
  have l : blockOne.length = 112 := by decide +kernel
  have k : ∀ p l, Config.primBool p l = true := h
  unfold State.blockStatus
  simp only [k, List.all_nil, a, b, c, d, e, hn, l]
  decide +kernel

/-- FLASH_WRITE of one sector of the owner region, with its authorisation. -/
def sectorParams : List Byte := leBytes 4 0x02090000 ++ leBytes 4 4096 ++ zeros 4104

theorem sector_length : sectorParams.length = 4112 := by
  rw [sectorParams, List.length_append, zeros, List.length_replicate]
  rfl

theorem sector_total : (withAuth 0x07 sectorParams []).length = 4200 := by
  rw [withAuth, List.length_append, List.length_append, sector_length]
  rfl

def sectorState : State := signedUp.setMailbox (.pf .west) { msg := w32 (0x0A + 4200 * 65536), bufLen := 0xFFFFF, busy := true }

theorem sector_params : withAuth 0x07 sectorParams [] = (sectorState.mailbox (.pf .west)).params (withAuth 0x07 sectorParams []) := by
  have e : bits32 (sectorState.mailbox (.pf .west)).msg 16 16 = 4200 := by decide +kernel
  rw [Curmb.params, e, padTo, sector_total, Nat.sub_self, ← sector_total, List.take_length]
  exact (List.append_nil _).symm

theorem witness_sectorWrite (h : AllPass) : ∃ m ps p s, p = (State.mailbox s m).params ps ∧ Heard s m 0x0A 0 ∧ leAt p 0 4 % 4096 = 0 ∧
    leAt p 4 4 % 4096 = 0 ∧ allZero (slice p 8 8) = true ∧ 16 + leAt p 4 4 ≤ p.length ∧ leAt p 0 4 + leAt p 4 4 ≤ s.flashTop ∧
    ((List.range (leAt p 4 4 / 4096)).all fun k => s.writable (leAt p 0 4 + 4096 * k)) = true ∧ leAt p 4 4 ≠ 0 ∧ leAt p 0 4 < 0x02190000 ∧
    0x02090000 < leAt p 0 4 + leAt p 4 4 ∧ s.boot.lifecycle = .owned ∧
    s.authValid s.boot.custodians s.boot.threshold 0x07 (p.take (16 + leAt p 4 4)) (p.drop (up8 (16 + leAt p 4 4))) = true := by
  have e : leAt (withAuth 0x07 sectorParams []) 4 4 = 4096 := by decide +kernel
  refine ⟨.pf .west, withAuth 0x07 sectorParams [], withAuth 0x07 sectorParams [], sectorState, sector_params, heard_of (by decide +kernel), by decide +kernel,
    by decide +kernel, by decide +kernel, ?_, by decide +kernel, by decide +kernel, by decide +kernel, by decide +kernel, by decide +kernel, by decide +kernel, ?_⟩
  · rw [e, sector_total]
    decide
  · rw [e]
    exact withAuth_ok h sector_length ((congrArg List.length (List.append_nil _)).trans sector_length) rfl rfl (by decide +kernel) (by decide +kernel)


/-- Every source of West is healthy and every generator of West seeded, and only the report is outstanding. -/
def seededUp : State :=
  let e := { up.entropy with readyW := false, sources := (List.range 32).map fun k => (k, { phase := .healthy }) }
  let e := { e with drbgs := ([0, 1, 2] ++ (List.range 8).map (16 + ·) ++ (List.range 8).map (32 + ·)).map fun k => (k, { inst := true }) }
  { up with entropy := { e with masks := ((List.range 8) ++ [16]).map fun k => (k, { seeded := true }) } }


/-! ### A compatibility page -/

/-- Page 2 belongs to collection 5 through Port W, whose PF manages it. -/
def paged (x : CompatPage) : State :=
  let s := { up with work := { up.work with compatOwn := [(2, w32 (2 ^ 31 + 5))] } }
  let s := { s with entropy := { s.entropy with masks := [(16, { seeded := true })] } }
  let s := { s with host := { s.host with portW := { runPort with ideAssoc := [(3, 0)] } } }
  (s.setFn pfW { s.fn pfW with coll := some 5 }).setPage 2 x

/-- The state with a policy in effect. -/
def withPolicy (s : State) (b : List Byte) : State := { s with boot := { s.boot with policyBody := some b } }

/-- What reaching a page asks for beside the policy. -/
def pageOk (s : State) (f : Fn) (p : Nat) : Bool :=
  p < 64 && isPf f && bit32 (s.pageOwner p) 31 && f.port == s.pageWing p && (s.fn f).coll == some (s.pageColl p)

theorem reachable_of {s : State} {b : List Byte} {p : Nat} (h : pageOk s pfW p = true) (k : (Config.devPolicy b).compatW = true) :
    (withPolicy s b).pageReachable pfW p = true := by
  have e : (withPolicy s b).compatRole pfW = true := k
  have e' : (withPolicy s b).pageReachable pfW p = ((p < 64 && isPf pfW && bit32 (s.pageOwner p) 31 && pfW.port == s.pageWing p &&
    (withPolicy s b).compatRole pfW) && (s.fn pfW).coll == some (s.pageColl p)) := rfl
  rw [e', e, Bool.and_true]
  exact h

/-- A function's IDE association and the secure stream it names hold whatever the policy asks (R89). -/
def associated (s : State) (f : Fn) : Bool := (s.port f.port).ideAssoc.any fun p => p.2 == f.vf && (s.port f.port).ideSecure.contains p.1

theorem policy_writes {s : State} {b : List Byte} {f : Fn} {o : Nat} (h : Writes s f o) (k : associated s f = true) :
    Writes (withPolicy s b) f o := by
  refine ⟨⟨h.fn, h.port, h.vf, ?_⟩, h.block⟩
  show State.ideOk (withPolicy s b) f = true
  unfold State.ideOk
  split
  · rfl
  · exact Bool.or_eq_true_iff.mpr (.inr k)

theorem policy_keys {s : State} {b : List Byte} {p : Nat} (e : s.pageColl p = 5) (u : s.cat.unbound.contains (5, b) = false) (k : (Config.collPolicy b 5).pageKeys = true) :
    ((withPolicy s b).collPolicy ((withPolicy s b).pageColl p)).pageKeys = true := by
  show (if s.cat.unbound.contains (s.pageColl p, b) then ({} : Config.CollPolicy) else Config.collPolicy b (s.pageColl p)).pageKeys = true
  rw [e, u]
  exact k

def heldPage : State :=
  let s := paged { ctrl := 0, busy := true }
  { s with work := { s.work with grants := [⟨.compat .west, pageJob 2, 1, false, false, 0, {}⟩] } }

/-- Each clause on compatibility pages has a state that meets it. -/
theorem witness_CompatPagesOperate (b : List Byte) (h : (Config.devPolicy b).compatW = true) (k : (Config.collPolicy b 5).pageKeys = true) :
    (∃ f p q s, q < 8 ∧ Writes s f (0x1000000 + 0x10000 * p + 0x20 + 4 * q) ∧ s.pageReachable f p = true ∧ (s.page p).busy = false ∧
      (s.collPolicy (s.pageColl p)).pageKeys = true) ∧
    (∃ f p q s, q < 8 ∧ Writes s f (0x1000000 + 0x10000 * p + 0x20 + 4 * q) ∧
      (s.pageReachable f p = false ∨ (s.page p).busy = true ∨ (s.collPolicy (s.pageColl p)).pageKeys = false)) ∧
    (∃ f p s, Writes s f (0x1000000 + 0x10000 * p + 4) ∧ s.pageReachable f p = true) ∧
    (∃ f p s, Writes s f (0x1000000 + 0x10000 * p + 4) ∧ s.pageReachable f p = true ∧ (s.page p).busy = false ∧ s.tamper.frozen = false) ∧
    (∃ f p s, Writes s f (0x1000000 + 0x10000 * p + 4) ∧ (s.pageReachable f p = false ∨ (s.page p).busy = true)) ∧
    (∃ (p : Nat) (ev : EngineEvent) (s : State), (s.page p).busy = true ∧ (s.work.grants.any fun g => g.job == pageJob p && !g.suspended) = true ∧ s.tamper.frozen = false ∧
      s.wingRuns (s.pageWing p) = true ∧ s.maskOk (.cluster (s.pageWing p)) = true ∧ ev.trip = none) ∧
    (∃ (p : Nat) (u : UnitId) (ev : EngineEvent) (s : State), (s.page p).busy = true ∧ (s.work.grants.any fun g => g.job == pageJob p && !g.suspended) = true ∧ s.tamper.frozen = false ∧
      s.wingRuns (s.pageWing p) = true ∧ s.maskOk (.cluster (s.pageWing p)) = true ∧ ev.trip = some u ∧ (s.usersOf u).contains (pageJob p) = true) :=
  ⟨⟨pfW, 2, 7, withPolicy (paged {}) b, by decide, policy_writes (writes_of (by decide +kernel)) (by decide +kernel), reachable_of (by decide +kernel) h,
      rfl, policy_keys (by decide +kernel) (by rfl) k⟩,
   ⟨pfW, 2, 0, paged {}, by decide, writes_of (by decide +kernel), by decide +kernel⟩,
   ⟨pfW, 2, withPolicy (paged {}) b, policy_writes (writes_of (by decide +kernel)) (by decide +kernel), reachable_of (by decide +kernel) h⟩,
   ⟨pfW, 2, withPolicy (paged {}) b, policy_writes (writes_of (by decide +kernel)) (by decide +kernel), reachable_of (by decide +kernel) h, rfl, rfl⟩,
   ⟨pfW, 2, paged { busy := true }, writes_of (by decide +kernel), by decide +kernel⟩,
   ⟨2, default, heldPage, by decide +kernel⟩,
   ⟨2, ⟨compatLoc .west, Kind.compat, 0⟩, ⟨some ⟨compatLoc .west, Kind.compat, 0⟩, false, [], 0, 0⟩, heldPage, by decide +kernel⟩⟩

/-- A policy that forbids an admin command ends it with POLICY_DENIED (R81). -/
theorem policy_bars {s : State} {b : List Byte} (h : (Config.devPolicy b).forbidAdmin = [0x8B]) : (withPolicy s b).admBarred 0x8B .identify = true := by
  have e : (withPolicy s b).devPolicy = Config.devPolicy b := rfl
  rw [State.admBarred, e, h]
  rfl


/-- A policy image of length 0 in slot A, with its digest in the manifest (R399, R402). -/
def manifestP : List Byte :=
  [0x52, 0x4D, 0x46, 0x31, 3, 0, 0, 0] ++ zeros 8 ++ zeros 4 ++ [8, 0, 0, 0] ++ Config.prim (.hash 2) [[]] 48 ++ zeros 56

/-- Two custodians of algorithm 1, a threshold of 2, slot A and no certificate request's nonce (R411). -/
def ownerParams : List Byte := [2, 2, 0, 0, 0, 0, 0, 0] ++ [1, 0, 0, 0, 0, 0, 0, 0] ++ [1, 0, 0, 0, 0, 0, 0, 0]

def unowned : State :=
  { signedUp with boot := { signedUp.boot with lifecycle := .provisioned, custodians := [], threshold := 0, flash := cells (imageBase 3 0) (manifestP ++ authFor 7 manifestP) } }

def unownedState : State := heardState unowned (.pf .west) 0x04 (withAuth 0x01 ownerParams [])

theorem unowned_flash : unownedState.boot.flash = cells (imageBase 3 0) (manifestP ++ authFor 7 manifestP) := rfl

theorem manifest_length : manifestP.length = 128 := by decide +kernel

theorem read_auth (n : Nat) : unownedState.flashRead (imageBase 3 0 + 128) n =
    Tbl.readBytes 0xFF (cells (imageBase 3 0 + 128) (authFor 7 manifestP)) (imageBase 3 0 + 128) n := by
  rw [State.flashRead, unowned_flash, ← manifest_length]
  exact read_cells_after 0xFF manifestP (authFor 7 manifestP) n (imageBase 3 0)

theorem read_head : unownedState.flashRead (imageBase 3 0 + 128) 80 = (authFor 7 manifestP).take 80 := by
  have e : ((authFor 7 manifestP).take 80).length = 80 := rfl
  have k := read_cells 0xFF ((authFor 7 manifestP).take 80) ((authFor 7 manifestP).drop 80) (imageBase 3 0 + 128)
  rw [List.take_append_drop, e] at k
  rw [read_auth]
  exact k

theorem unowned_manifest : unownedState.manifest 3 0 = manifestP := by
  have k := read_cells 0xFF manifestP (authFor 7 manifestP) (imageBase 3 0)
  rw [manifest_length] at k
  rw [State.manifest, State.flashRead, unowned_flash]
  exact k

theorem unowned_auth : unownedState.policyAuth 0 = authFor 7 manifestP := by
  have b : sigsLen 2 (unownedState.flashRead (imageBase 3 0 + 128 + 80) (imageSize 3 - 208)) = 8 := by decide +kernel
  have c : unownedState.flashRead (imageBase 3 0 + 128 + 80) 8 = [0, 1, 0, 0, 1, 1, 0, 0] := by decide +kernel
  have e : min 16 (byteAt ((authFor 7 manifestP).take 80) 76) = 2 := rfl
  show unownedState.flashRead (imageBase 3 0 + 128) 80 ++ unownedState.flashRead (imageBase 3 0 + 128 + 80)
    (sigsLen (min 16 (byteAt (unownedState.flashRead (imageBase 3 0 + 128) 80) 76)) (unownedState.flashRead (imageBase 3 0 + 128 + 80) (imageSize 3 - 208))) = _
  rw [read_head, e, b, c]
  rfl

theorem unowned_image (h : AllPass) : unownedState.imageReason twoCustodians 2 3 0 = 0 := by
  have a : unownedState.imageSigOk twoCustodians 2 3 0 = true := by
    rw [State.imageSigOk, unowned_manifest]
    refine (if_pos rfl).trans ?_
    rw [unowned_auth]
    exact signed_ok h manifestP rfl
  have b : slice manifestP 24 48 = Config.prim (.hash 2) [[]] 48 := rfl
  have d : manLength manifestP = 0 := by decide +kernel
  have c : unownedState.imageBody 3 0 = [] := by rw [State.imageBody, unowned_manifest, d]; rfl
  rw [State.imageReason, unowned_manifest, a, b, c, d]
  simp only [bne_self_eq_false]
  decide +kernel

theorem heard_reply {s : State} {m : Sender} {c r : Nat} (h : Heard s m c 0) (k : r ≤ bits32 (s.mailbox m).bufLen 0 20) : Heard s m c r := { h with reply := k }

/-- The clause on TAKE_OWNERSHIP has a state that meets it. -/
theorem witness_takeOwnership (h : AllPass) : ∃ m ps p s k l n, p = (State.mailbox s m).params ps ∧ s.handingOver = false ∧
    Heard s m 0x04 (4 + Config.primNat .csr [s.serialBytes] % 65536) ∧ s.boot.lifecycle = .provisioned ∧ byteAt p 0 = k ∧
    parseCustodians k (p.drop (up8 (8 + leAt p 4 4))) = (l, n) ∧ 2 ≤ k ∧ k ≤ 16 ∧ 2 ≤ byteAt p 1 ∧ byteAt p 1 ≤ k ∧ byteAt p 2 ≤ 1 ∧
    byteAt p 3 = 0 ∧ (l.any fun x => !(x.alg = 1 || x.alg = 2)) = false ∧
    s.authValid l (byteAt p 1) 0x01 (p.take (up8 (8 + leAt p 4 4) + n)) (p.drop (up8 (up8 (8 + leAt p 4 4) + n))) = true ∧
    s.imageReason l (byteAt p 1) 3 (byteAt p 2) = 0 := by
  refine ⟨.pf .west, withAuth 0x01 ownerParams [], withAuth 0x01 ownerParams [], unownedState, 2, twoCustodians, 16,
    heard_params (by decide +kernel) (by decide), rfl, heard_reply (heard_of (by decide +kernel)) ?_, rfl, rfl, by decide +kernel, by decide, by decide,
    by decide +kernel, by decide +kernel, by decide +kernel, rfl, by decide, ?_, unowned_image h⟩
  · have e : bits32 (unownedState.mailbox (.pf .west)).bufLen 0 20 = 1048575 := by decide +kernel
    rw [e]
    omega
  · exact withAuth_ok h rfl rfl rfl rfl (by decide +kernel) (by decide +kernel)

/-- A sealed block is its header, its records and 16 bytes of tag (R178). -/
theorem sealBlock_length (s : State) (c : ClosedSeal) :
    (s.sealBlock c).length = (s.sealHeader c (c.records.flatMap s.sealRecordBytes).length).length + (c.records.flatMap s.sealRecordBytes).length + 16 := by
  unfold State.sealBlock
  simp only [List.length_append, Config.prim, List.length_map, List.length_range]
  omega

/-! ### The clauses of the obligations -/

theorem witness_StepRunsFrontCommand :
    ∃ (c : Instr), ∃ (rest : List Instr), ∃ (s : State), s.pending = c :: rest :=
  ⟨.sealWrite, [.ledgerRebuild], { up with pending := [.sealWrite, .ledgerRebuild] }, by decide +kernel⟩

theorem witness_IdleStepPassesTime :
    ∃ (s : State), s.pending = [] :=
  ⟨up, by decide +kernel⟩

theorem witness_StepKeepsInvariant :
    ∃ (s : State), ∃ (t : State), s.Inv ∧ step s = .next t :=
  ⟨up, { up with now := 200000001 }, (by unfold State.Inv; decide +kernel), rfl⟩

theorem witness_CommandsKeepQueueClockAndSerial :
    ∃ (c : Instr), ∃ (s : State), ∃ (t : State), exec c s = .next t :=
  ⟨.cardActivate 2, up, up, rfl⟩

theorem witness_StepTakesOneCommand :
    ∃ (s : State), ∃ (t : State), step s = .next t :=
  ⟨{ up with pending := [.cardActivate 2] }, up, rfl⟩

theorem witness_SentStaysSentAndSequencesGrow :
    ∃ (s : State), ∃ (t : State), step s = .next t :=
  ⟨{ up with pending := [.cardActivate 2] }, up, rfl⟩

theorem witness_RegisterWritesReachTheirBlockOrTransaction :
    (∃ (f : Fn), ∃ (off : Nat), ∃ (s : State), Reaches s f ∧ off < barSize f .bar0 ∧ off % 4 = 0) ∧
    (∃ (f : Fn), ∃ (off : Nat), ∃ (s : State), Reaches s f ∧ off < barSize f .bar0 ∧ off % 8 = 0) ∧
    (∃ (f : Fn), ∃ (off : Nat), ∃ (s : State), Reaches s f ∧ off < barSize f .bar0 ∧ off % 4 = 0 ∧ isPf f = true ∧ s.blockWrites f.port (off / 0x1000) = true ∧ roRegister (off / 0x1000) (off % 0x1000) = true) ∧
    (∃ (f : Fn), ∃ (off : Nat), ∃ (s : State), ∃ size, Reaches s f ∧ off < barSize f .bar0 ∧ (¬ (size = 4 ∧ off % 4 = 0)) ∧ (¬ (size = 8 ∧ off % 8 = 0))) ∧
    (∃ (f : Fn), ∃ (off : Nat), barSize f .bar0 ≤ off) ∧
    (∃ (f : Fn), ∃ (off : Nat), ∃ (s : State), Reaches s f ∧ off < barSize f .bar2 ∧ off % 4 = 0) ∧
    (∃ (f : Fn), ∃ (s : State), fnOk f = true ∧ s.portAnswers f.port = true) ∧
    (∃ (f : Fn), ∃ (v : Word64), ∃ (s : State), isPf f = true ∧ s.portAnswers f.port = true ∧ v.getLsbD 0 = true) ∧
    (∃ (f : Fn), ∃ (s : State), isPf f = true ∧ s.portAnswers f.port = true) ∧
    (∃ (f : Fn), ∃ (off : Nat), ∃ (m : Word32), ∃ (s : State), txMask off = some m ∧ Manages s f off ∧ s.ownsTx (.host f) = true ∧ s.txAbsent off = false) ∧
    (∃ (f : Fn), ∃ (off : Nat), ∃ (m : Word32), ∃ (s : State), txMask off = some m ∧ Manages s f off ∧ s.ownsTx (.host f) = false) ∧
    (∃ (w : Wing), ∃ (off : Nat), ∃ (m : Word32), ∃ (s : State), txMask off = some m ∧ s.supervisorUp w = true ∧ s.ownsTx (.supervisor w) = true ∧ s.txAbsent off = false) ∧
    (∃ (w : Wing), ∃ (off : Nat), ∃ (m : Word32), ∃ (s : State), txMask off = some m ∧ s.supervisorUp w = true ∧ s.ownsTx (.supervisor w) = false) :=
  ⟨⟨pfW, 0x1008, up, reaches_of (by decide +kernel), by decide +kernel, by decide +kernel⟩,
   ⟨pfW, 0x1008, up, reaches_of (by decide +kernel), by decide +kernel, by decide +kernel⟩,
   ⟨pfW, 0x100000, up, reaches_of (by decide +kernel), by and_intros <;> decide +kernel⟩,
   ⟨pfW, 0x1008, up, 2, reaches_of (by decide +kernel), by decide +kernel, by decide +kernel, by decide +kernel⟩,
   ⟨vfW, 0x100000, by decide +kernel⟩,
   ⟨pfW, 0x0FFC, up, reaches_of (by decide +kernel), by decide +kernel, by decide +kernel⟩,
   ⟨pfW, up, by decide +kernel, by decide +kernel⟩,
   ⟨pfW, 1, up, by decide +kernel, by decide +kernel, by decide +kernel⟩,
   ⟨pfW, up, by decide +kernel, by decide +kernel⟩,
   ⟨pfW, 0x1A09FC, 0x800007FF, { up with cfgtx := { up.cfgtx with state := 1, owner := 0 } }, by decide +kernel, manages_of (by decide +kernel), by decide +kernel, by decide +kernel⟩,
   ⟨pfW, 0x1A0840, 0x00FFFFFF, up, by decide +kernel, manages_of (by decide +kernel), by decide +kernel⟩,
   ⟨.west, 0x1A083C, 7, { up with cfgtx := { up.cfgtx with state := 1, owner := 2 } }, by decide +kernel, by decide +kernel, by decide +kernel, by decide +kernel⟩,
   ⟨.west, 0x150004, 0x0000FF01, up, by decide +kernel, by decide +kernel, by decide +kernel⟩⟩

theorem witness_DoorbellsMoveTheRings :
    (∃ (f : Fn), ∃ (q : QSel), ∃ (index : BitVec 16), ∃ (s : State), (∀ n, q = .io n → n < 512) ∧ (s.fn f).ready = true ∧ Writes s f (doorbellOff q false) ∧ s.doorbellReason f q index.toNat = none) ∧
    (∃ (f : Fn), ∃ (q : QSel), ∃ (index : BitVec 16), ∃ (s : State), ∃ r, (∀ n, q = .io n → n < 512) ∧ (s.fn f).ready = true ∧ Writes s f (doorbellOff q false) ∧ s.doorbellReason f q index.toNat = some r) ∧
    (∃ (f : Fn), ∃ (q : QSel), ∃ (index : BitVec 16), ∃ (s : State), (∀ n, q = .io n → n < 512) ∧ (s.fn f).ready = true ∧ Writes s f (doorbellOff q true) ∧ s.doorbellReason f q index.toNat = none ∧ ringCount (s.queue f q).depth (s.queue f q).cqHead index.toNat ≤ ringCount (s.queue f q).depth (s.queue f q).cqHead (s.queue f q).cqTail) ∧
    (∃ (f : Fn), ∃ (q : QSel), ∃ (index : BitVec 16), ∃ (s : State), (∀ n, q = .io n → n < 512) ∧ (s.fn f).ready = true ∧ Writes s f (doorbellOff q true) ∧ s.doorbellReason f q index.toNat = none ∧ ringCount (s.queue f q).depth (s.queue f q).cqHead (s.queue f q).cqTail < ringCount (s.queue f q).depth (s.queue f q).cqHead index.toNat) :=
  ⟨⟨vfW, .io 0, 15, up, (by intro n h; cases h; decide), by decide +kernel, writes_of (by decide +kernel), by decide +kernel⟩,
   ⟨vfW, .io 0, 16, up, 1, (by intro n h; cases h; decide), by decide +kernel, writes_of (by decide +kernel), by decide +kernel⟩,
   ⟨vfW, .io 0, 2, up, (by intro n h; cases h; decide), by decide +kernel, writes_of (by decide +kernel), by decide +kernel, by decide +kernel⟩,
   ⟨vfW, .io 0, 3, up, (by intro n h; cases h; decide), by decide +kernel, writes_of (by decide +kernel), by decide +kernel, by decide +kernel⟩⟩

theorem witness_FstatRegistersClearAndCausesLatch :
    (∃ (f : Fn), ∃ (s : State), Reads s f 0x100C) ∧
    (∃ (f : Fn), ∃ (s : State), Reads s f 0x1010) ∧
    (∃ (f : Fn), ∃ (s : State), Reads s f 0x1014) ∧
    (∃ (f : Fn), ∃ (s : State), Writes s f 0x1004) ∧
    (∃ (f : Fn), ∃ (v : Word32), ∃ (s : State), Writes s f 0x1008 ∧ (v &&& causeMask) &&& ~~~(s.fn f).causeEn &&& (s.fn f).cause = 0) ∧
    (∃ (f : Fn), ∃ (v : Word32), ∃ (s : State), Writes s f 0x1008 ∧ (v &&& causeMask) &&& ~~~(s.fn f).causeEn &&& (s.fn f).cause ≠ 0) :=
  ⟨⟨pfW, up, reads_of (by decide +kernel)⟩,
   ⟨pfW, up, reads_of (by decide +kernel)⟩,
   ⟨pfW, up, reads_of (by decide +kernel)⟩,
   ⟨pfW, up, writes_of (by decide +kernel)⟩,
   ⟨pfW, 0x7FF, up, writes_of (by decide +kernel), by decide +kernel⟩,
   ⟨pfW, 0x7FF, (up.setFn pfW { up.fn pfW with cause := 1 }), writes_of (by decide +kernel), by decide +kernel⟩⟩

theorem witness_AdminQueueEnablesAndInterrupts :
    (∃ (f : Fn), ∃ (s : State), Writes s f 0x20000 ∧ (s.fn f).ready = true ∧ (s.fn f).admEnable = false ∧ 2 ≤ (s.fn f).admDepth.toNat ∧ (s.fn f).admDepth.toNat ≤ 4096) ∧
    (∃ (f : Fn), ∃ (s : State), Writes s f 0x20000 ∧ (s.fn f).ready = true ∧ (s.fn f).admEnable = false ∧ ((s.fn f).admDepth.toNat < 2 ∨ 4096 < (s.fn f).admDepth.toNat)) ∧
    (∃ (f : Fn), ∃ (s : State), Writes s f 0x20000 ∧ (s.fn f).admEnable = true) ∧
    (∃ (f : Fn), ∃ (n : Nat), ∃ (s : State), Reaches s f ∧ n < vectorsOf f ∧ s.tableWrites f.port = true ∧ (s.fn f).unmasked.contains n = false) ∧
    (∃ (f : Fn), ∃ (q : Nat), ∃ (s : State), (s.queue f (.io q)).created = true ∧ (s.queue f (.io q)).unsignalled ≠ 0 ∧ (s.queue f (.io q)).modStart + 1000 * (s.queue f (.io q)).timerUs ≤ s.now) :=
  ⟨⟨pfW, (up.setFn pfW { up.fn pfW with admDepth := 2 }), writes_of (by decide +kernel), by decide +kernel, by decide +kernel, by decide +kernel, by decide +kernel⟩,
   ⟨pfW, (up.setFn pfW { up.fn pfW with admDepth := 4097 }), writes_of (by decide +kernel), by decide +kernel, by decide +kernel, by decide +kernel⟩,
   ⟨pfW, (up.setFn pfW { up.fn pfW with admEnable := true }), writes_of (by decide +kernel), by decide +kernel⟩,
   ⟨pfW, 255, up, reaches_of (by decide +kernel), by decide +kernel, by decide +kernel, by decide +kernel⟩,
   ⟨vfW, 0, (up.setQueue vfW (.io 0) { runQueue with unsignalled := 1, modTimeUs := 1000, modStart := 199000000 }), by decide +kernel, by decide +kernel, by decide +kernel⟩⟩

theorem witness_AdminCollectionCommandsComplete :
    (∃ (f : Fn), ∃ (e : List Byte), ∃ (s : State), ∃ c, ∃ w, ∃ mi, ∃ c0, AdminRuns s f 0x81 .mgmt collFields e ∧ collParams e = some (c, w, mi, c0) ∧ byteAt e 18 ≤ 2 ∧ s.coll c = none ∧ (byteAt e 18 ≠ 0 ∨ s.drbgOk .curator = true)) ∧
    (∃ (f : Fn), ∃ (e : List Byte), ∃ (s : State), ∃ c, ∃ w, ∃ mi, ∃ c0, AdminRuns s f 0x81 .mgmt collFields e ∧ collParams e = some (c, w, mi, c0) ∧ byteAt e 18 ≤ 2 ∧ s.coll c = none ∧ byteAt e 18 = 0 ∧ s.drbgOk .curator = false) ∧
    (∃ (f : Fn), ∃ (e : List Byte), ∃ (s : State), AdminRuns s f 0x82 .mgmt [(16, 2)] e ∧ leAt e 16 2 ≤ 1023 ∧ (s.coll (leAt e 16 2)).isSome = true ∧ (s.entries.any fun r => r.coll == leAt e 16 2 && r.live) = false ∧ s.boundFns (leAt e 16 2) = []) ∧
    (∃ (f : Fn), ∃ (e : List Byte), ∃ (s : State), ∃ c, ∃ w, ∃ mi, ∃ c0, ∃ x, AdminRuns s f 0x83 .mgmt collFields e ∧ collParams e = some (c, w, mi, c0) ∧ byteAt e 18 = 0xFF ∧ s.coll c = some x) ∧
    (∃ (f : Fn), ∃ (e : List Byte), ∃ (s : State), ∃ t, AdminRuns s f 0x84 .mgmt [(16, 4)] e ∧ targetFn e = some t ∧ leAt e 18 2 ≤ 1023 ∧ (s.coll (leAt e 18 2)).isSome = true ∧ (s.fn t).coll = none ∧ (s.fn t).created = []) ∧
    (∃ (f : Fn), ∃ (e : List Byte), ∃ (s : State), ∃ t, ∃ c, AdminRuns s f 0x85 .mgmt [(16, 2)] e ∧ targetFn e = some t ∧ (s.fn t).coll = some c ∧ (s.fn t).created = []) ∧
    (∃ (f : Fn), ∃ (e : List Byte), ∃ (s : State), AdminRuns s f 0x80 .identify [] e ∧ leAt e 8 8 ≠ 0 ∧ (s.fn f).bme = true) ∧
    (∃ (f : Fn), ∃ (e : List Byte), ∃ (s : State), AdminRuns s f 0x8B .identify [(16, 2)] e ∧ leAt e 16 2 ≤ 511 ∧ leAt e 8 8 ≠ 0 ∧ (s.fn f).bme = true) :=
  ⟨⟨pfW, (admEntry 0x81 0 [0xFF, 3, 2, 1, 0, 16, 0, 4]), (admState up pfW (admEntry 0x81 0 [0xFF, 3, 2, 1, 0, 16, 0, 4])), 1023, 1, 4096, 1024, admin_of (by decide +kernel), by decide +kernel, by decide +kernel, by decide +kernel, by decide +kernel⟩,
   ⟨pfW, (admEntry 0x81 0 [0xFF, 3, 0, 1, 0, 16, 0, 4]), (admState ({ up with entropy := {} }) pfW (admEntry 0x81 0 [0xFF, 3, 0, 1, 0, 16, 0, 4])), 1023, 1, 4096, 1024, admin_of (by decide +kernel), by and_intros <;> decide +kernel⟩,
   ⟨pfW, (admEntry 0x82 0 [5, 0]), (admState (up.setFn vfW {}) pfW (admEntry 0x82 0 [5, 0])), admin_of (by decide +kernel), by decide +kernel, by decide +kernel, by decide +kernel, by decide +kernel⟩,
   ⟨pfW, (admEntry 0x83 0 [5, 0, 0xFF, 1, 1, 0, 0, 0]), (admState up pfW (admEntry 0x83 0 [5, 0, 0xFF, 1, 1, 0, 0, 0])), 5, 1, 1, 0, { bindingMode := 0, weight := 1, maxInflight := 8, c0Max := 2 }, admin_of (by decide +kernel), by decide +kernel, by decide +kernel, by decide +kernel⟩,
   ⟨pfW, (admEntry 0x84 0 [1, 127, 5, 0]), (admState up pfW (admEntry 0x84 0 [1, 127, 5, 0])), ⟨.east, 127⟩, admin_of (by decide +kernel), by and_intros <;> decide +kernel⟩,
   ⟨pfW, (admEntry 0x85 0 [0, 1]), (admState (up.modFn vfW fun x => { x with queues := [] }) pfW (admEntry 0x85 0 [0, 1])), vfW, 5, admin_of (by decide +kernel), by decide +kernel, by decide +kernel, by decide +kernel⟩,
   ⟨vfW, (admEntry 0x80 64 []), (admState up vfW (admEntry 0x80 64 [])), admin_of (by decide +kernel), by decide +kernel, by decide +kernel⟩,
   ⟨vfW, (admEntry 0x8B 64 [0xFF, 1]), (admState up vfW (admEntry 0x8B 64 [0xFF, 1])), admin_of (by decide +kernel), by decide +kernel, by decide +kernel, by decide +kernel⟩⟩

theorem witness_AdminQueueCommandsComplete :
    (∃ (f : Fn), ∃ (e : List Byte), ∃ (s : State), ∃ q, ∃ x, AdminRuns s f 0x88 .bound [(16, 2), (20, 26)] e ∧ newQueue f e = some (q, x) ∧ (s.queue f (.io q)).created = false ∧ s.queueCount < 4096 ∧ (s.fn f).created.length < 512) ∧
    (∃ (f : Fn), ∃ (e : List Byte), ∃ (s : State), AdminRuns s f 0x89 .bound [(16, 3)] e ∧ leAt e 16 2 ≤ 511 ∧ byteAt e 18 = 0 ∧ (s.queue f (.io (leAt e 16 2))).created = true ∧ (s.queue f (.io (leAt e 16 2))).deleting = false) ∧
    (∃ (f : Fn), ∃ (e : List Byte), ∃ (s : State), AdminRuns s f 0x89 .bound [(16, 3)] e ∧ leAt e 16 2 ≤ 511 ∧ byteAt e 18 = 1 ∧ (s.queue f (.io (leAt e 16 2))).created = true ∧ (s.queue f (.io (leAt e 16 2))).deleting = false) ∧
    (∃ (f : Fn), ∃ (s : State), ∃ q, (s.queue f (.io q)).deleting = true ∧ s.inFlight (.host f (.io q)) = 0 ∧ s.boot.inReset = false) ∧
    (∃ (f : Fn), ∃ (e : List Byte), ∃ (s : State), AdminRuns s f 0x8A .bound [(16, 3), (20, 2)] e ∧ leAt e 16 2 ≤ 511 ∧ moderationOk (byteAt e 18) (leAt e 20 2) = true ∧ (s.queue f (.io (leAt e 16 2))).created = true) ∧
    (∃ (f : Fn), ∃ (e : List Byte), ∃ (s : State), s.recovery = false ∧ AdminRuns s f 0x86 .mgmt [(16, 8)] e ∧ w64 (leAt e 16 8) = s.serial) ∧
    (∃ (f : Fn), ∃ (s : State), s.recovery = true ∧ s.portAnswers f.port = true ∧ s.mgmt f = true) :=
  ⟨⟨vfW, (admEntry 0x88 0 ([0xFF, 1, 0, 0, 2, 0, 0, 0] ++ zeros 16 ++ [13, 0, 15, 1, 0, 0])), (admState up vfW (admEntry 0x88 0 ([0xFF, 1, 0, 0, 2, 0, 0, 0] ++ zeros 16 ++ [13, 0, 15, 1, 0, 0]))), 511, { created := true, depth := 2, vector := 13, classMask := 15, modCount := 1 }, admin_of (by decide +kernel), by decide +kernel, by decide +kernel, by decide +kernel, by decide +kernel⟩,
   ⟨vfW, (admEntry 0x89 0 [0, 0, 0]), (admState up vfW (admEntry 0x89 0 [0, 0, 0])), admin_of (by decide +kernel), by decide +kernel, by decide +kernel, by decide +kernel, by decide +kernel⟩,
   ⟨vfW, (admEntry 0x89 0 [0, 0, 1]), (admState up vfW (admEntry 0x89 0 [0, 0, 1])), admin_of (by decide +kernel), by decide +kernel, by decide +kernel, by decide +kernel, by decide +kernel⟩,
   ⟨vfW, (up.setQueue vfW (.io 0) { runQueue with deleting := true }), 0, by decide +kernel, by decide +kernel, by decide +kernel⟩,
   ⟨vfW, (admEntry 0x8A 0 [0, 0, 255, 0, 0xE8, 3]), (admState up vfW (admEntry 0x8A 0 [0, 0, 255, 0, 0xE8, 3])), admin_of (by decide +kernel), by decide +kernel, by decide +kernel, by decide +kernel⟩,
   ⟨pfW, (admEntry 0x86 0 (zeros 8)), (admState up pfW (admEntry 0x86 0 (zeros 8))), by decide +kernel, admin_of (by decide +kernel), by decide +kernel⟩,
   ⟨pfW, { up with boot := { up.boot with stage := 15 } }, by decide +kernel, by decide +kernel, by decide +kernel⟩⟩

theorem witness_AdminCommonRulesRefuse (b : List Byte) (h : (Config.devPolicy b).forbidAdmin = [0x8B]) :
    (∃ (f : Fn), ∃ (e : List Byte), ∃ (fails : Bool), ∃ (s : State), ∃ p ∈ [(Instr.identify f fails, 0x80, AdmFrom.identify, []), (.createCollection f, 0x81, .mgmt, collFields), (.deleteCollection f, 0x82, .mgmt, [(16, 2)]), (.setCollectionLimits f, 0x83, .mgmt, collFields), (.bindFunction f, 0x84, .mgmt, [(16, 4)]), (.unbindFunction f, 0x85, .mgmt, [(16, 2)]), (.deviceReset f, 0x86, .mgmt, [(16, 8)]), (.createQueue f, 0x88, .bound, [(16, 2), (20, 26)]), (.deleteQueue f, 0x89, .bound, [(16, 3)]), (.setModeration f, 0x8A, .bound, [(16, 3), (20, 2)]), (.getQueueState f fails, 0x8B, .identify, [(16, 2)])], (s.fn f).admCur = some e ∧ s.boot.inReset = false ∧ s.recovery = false ∧ byteAt e 4 = p.2.1 ∧ s.admStatus f p.2.2.1 p.2.2.2 e ≠ St.ok) ∧
    (∃ (f : Fn), ∃ (e : List Byte), ∃ (fails : Bool), ∃ (s : State), ∃ p ∈ [(Instr.identify f fails, 0x80, AdmFrom.identify, []), (.createCollection f, 0x81, .mgmt, collFields), (.deleteCollection f, 0x82, .mgmt, [(16, 2)]), (.setCollectionLimits f, 0x83, .mgmt, collFields), (.bindFunction f, 0x84, .mgmt, [(16, 4)]), (.unbindFunction f, 0x85, .mgmt, [(16, 2)]), (.deviceReset f, 0x86, .mgmt, [(16, 8)]), (.createQueue f, 0x88, .bound, [(16, 2), (20, 26)]), (.deleteQueue f, 0x89, .bound, [(16, 3)]), (.setModeration f, 0x8A, .bound, [(16, 3), (20, 2)]), (.getQueueState f fails, 0x8B, .identify, [(16, 2)])], (s.fn f).admCur = some e ∧ s.boot.inReset = false ∧ s.recovery = false ∧ byteAt e 4 = p.2.1 ∧ s.admStatus f p.2.2.1 p.2.2.2 e = St.ok ∧ s.admBarred p.2.1 p.2.2.1 = true ∧ (p.2.1 = 0x80 ∨ (p.2.1 = 0x8B ∧ leAt e 16 2 ≤ 511) ∨ (p.2.1 = 0x86 ∧ w64 (leAt e 16 8) = s.serial)) ∧ (p.2.1 = 0x86 ∨ leAt e 8 8 ≠ 0)) :=
  ⟨⟨vfW, (admEntry 0x81 0 []), false, (admState up vfW (admEntry 0x81 0 [])), (.createCollection vfW, 0x81, .mgmt, collFields), by simp, by and_intros <;> decide +kernel⟩,
   ⟨vfW, (admEntry 0x8B 64 [0xFF, 1]), false, (withPolicy (admState up vfW (admEntry 0x8B 64 [0xFF, 1])) b), (.getQueueState vfW false, 0x8B, .identify, [(16, 2)]), by simp, rfl, rfl, rfl, by decide +kernel, rfl, policy_bars h, .inr (.inl (by decide +kernel)), .inr (by decide +kernel)⟩⟩

theorem witness_PortResetsAndConfiguration :
    (∃ (w : Wing), ∃ (s : State), s.boot.inReset = false ∧ (s.port w).perst = false) ∧
    (∃ (w : Wing), ∃ (s : State), ∃ rate, ∃ width, s.boot.inReset = false ∧ (s.port w).perst = true ∧ 1 ≤ rate ∧ rate ≤ 6 ∧ [1, 2, 4, 8].contains width = true) ∧
    (∃ (w : Wing), ∃ (s : State), s.boot.inReset = false ∧ (s.port w).perst = false ∧ (s.port w).cfgReady = false ∧ s.configurable w = true) ∧
    (∃ (f : Fn), ∃ (s : State), s.boot.inReset = false ∧ fnOk f = true ∧ (s.port f.port).perst = false ∧ (s.port f.port).cfgReady = false) ∧
    (∃ (f : Fn), ∃ (s : State), s.boot.inReset = false ∧ fnOk f = true ∧ s.portAnswers f.port = true) ∧
    (∃ (w : Wing), ∃ (s : State), s.boot.inReset = false ∧ s.portAnswers w = true) ∧
    (∃ (f : Fn), ∃ (s : State), s.boot.inReset = false ∧ fnOk f = true ∧ s.portAnswers f.port = true ∧ (s.fn f).bme = true) ∧
    (∃ (f : Fn), ∃ (s : State), s.boot.inReset = false ∧ fnOk f = true ∧ s.portAnswers f.port = true ∧ (s.fn f).bme = false) ∧
    (∃ (w : Wing), ∃ (s : State), ∃ n, s.boot.inReset = false ∧ (s.port w).ideSecure.contains n = true) :=
  ⟨⟨.west, up, by decide +kernel, by decide +kernel⟩,
   ⟨.west, (up.setPort .west { runPort with perst := true }), 6, 8, by and_intros <;> decide +kernel⟩,
   ⟨.west, (up.setPort .west { runPort with cfgReady := false }), by decide +kernel, by decide +kernel, by decide +kernel, by decide +kernel⟩,
   ⟨pfW, (up.setPort .west { runPort with cfgReady := false }), by decide +kernel, by decide +kernel, by decide +kernel, by decide +kernel⟩,
   ⟨pfW, up, by decide +kernel, by decide +kernel, by decide +kernel⟩,
   ⟨.west, up, by decide +kernel, by decide +kernel⟩,
   ⟨vfW, up, by decide +kernel, by decide +kernel, by decide +kernel, by decide +kernel⟩,
   ⟨pfW, (up.setFn pfW {}), by decide +kernel, by decide +kernel, by decide +kernel, by decide +kernel⟩,
   ⟨.west, up, 3, by decide +kernel, by decide +kernel⟩⟩

theorem witness_DmaCompletionsAndFailures :
    (∃ (n : Nat), ∃ (k : Nat), ∃ (j : Job), ∃ (e : Exec), ∃ (r : ReadReq), ∃ (data : List Byte), ∃ (s : State), s.job n = some j ∧ j.exec = some e ∧ e.reads[k]? = some r ∧ s.tamper.frozen = false ∧ e.stage = .reading ∧ (s.work.grants.any fun g => g.job == n && g.suspended && g.res == .dmaRead j.wing) = false ∧ r.got = none ∧ data.length = r.len) ∧
    (∃ (n : Nat), ∃ (k : Nat), ∃ (j : Job), ∃ (e : Exec), ∃ (r : ReadReq), ∃ (s : State), s.job n = some j ∧ j.exec = some e ∧ e.stage = .reading ∧ e.reads[k]? = some r ∧ r.got = none) ∧
    (∃ (n : Nat), ∃ (j : Job), ∃ (s : State), s.job n = some j ∧ j.phase = .placed ∧ j.paramLen ≠ 0) ∧
    (∃ (f : Fn), ∃ (q : QSel), ∃ (s : State), fnOk f = true ∧ (s.queue f q).created = true ∧ (s.queue f q).stopped = false ∧ (s.queue f q).heldEntry = none ∧ (s.queue f q).sqHead ≠ (s.queue f q).sqTail ∧ (s.fn f).bme = true) ∧
    (∃ (f : Fn), ∃ (q : QSel), ∃ (s : State), fnOk f = true ∧ (s.queue f q).created = true ∧ (s.queue f q).wrote = true ∧ (s.queue f q).discards = false) ∧
    (∃ (n : Nat), ∃ (j : Job), ∃ (e : Exec), ∃ (s : State), ∃ x, s.job n = some j ∧ j.exec = some e ∧ e.stage = .running ∧ e.result = some x ∧ hostOuts (outPairs j x.outs) ≠ [] ∧ j.group = none ∧ s.tamper.frozen = false) ∧
    (∃ (n : Nat), ∃ (j : Job), ∃ (s : State), ∃ g, s.job n = some j ∧ j.phase = .release ∧ j.group = some g ∧ g.staged ≠ [] ∧ s.tamper.frozen = false) ∧
    (∃ (n : Nat), ∃ (j : Job), ∃ (s : State), ∃ g, s.job n = some j ∧ j.phase ≠ .release ∧ j.group = some g) :=
  ⟨⟨1, 0, { (oneIns (ins 0x40 0 0 0 0 0)) with exec := some { reads := [{ input := 0, addr := 0x1000, len := 2 }] }, phase := .exec }, { reads := [{ input := 0, addr := 0x1000, len := 2 }] }, { input := 0, addr := 0x1000, len := 2 }, [1, 2], (at1 ({ (oneIns (ins 0x40 0 0 0 0 0)) with exec := some { reads := [{ input := 0, addr := 0x1000, len := 2 }] }, phase := .exec })), by and_intros <;> decide +kernel⟩,
   ⟨1, 0, { (oneIns (ins 0x40 0 0 0 0 0)) with exec := some { reads := [{ input := 0, addr := 0x1000, len := 2 }] }, phase := .exec }, { reads := [{ input := 0, addr := 0x1000, len := 2 }] }, { input := 0, addr := 0x1000, len := 2 }, (at1 ({ (oneIns (ins 0x40 0 0 0 0 0)) with exec := some { reads := [{ input := 0, addr := 0x1000, len := 2 }] }, phase := .exec })), by and_intros <;> decide +kernel⟩,
   ⟨1, { (oneIns (ins 0 0 0 0 0 0)) with phase := .placed, paramLen := 64 }, (at1 ({ (oneIns (ins 0 0 0 0 0 0)) with phase := .placed, paramLen := 64 })), by decide +kernel, by decide +kernel, by decide +kernel⟩,
   ⟨vfW, .io 0, up, by and_intros <;> decide +kernel⟩,
   ⟨vfW, .io 0, (up.setQueue vfW (.io 0) { runQueue with wrote := true }), by decide +kernel, by decide +kernel, by decide +kernel, by decide +kernel⟩,
   ⟨1, { (oneIns (ins 0x40 0 0 0 0 0)) with exec := some { stage := .running, result := some { outs := [{ bytes := [7] }] } }, phase := .exec, b := [some (.host [⟨0x2000, 1⟩])] }, { stage := .running, result := some { outs := [{ bytes := [7] }] } }, (at1 ({ (oneIns (ins 0x40 0 0 0 0 0)) with exec := some { stage := .running, result := some { outs := [{ bytes := [7] }] } }, phase := .exec, b := [some (.host [⟨0x2000, 1⟩])] })), { outs := [{ bytes := [7] }] }, by and_intros <;> decide +kernel⟩,
   ⟨1, { (oneIns (ins 0x51 0 0 0 0 0)) with group := some { staged := [⟨0x2000, [7]⟩] }, phase := .release }, (at1 ({ (oneIns (ins 0x51 0 0 0 0 0)) with group := some { staged := [⟨0x2000, [7]⟩] }, phase := .release })), { staged := [⟨0x2000, [7]⟩] }, by and_intros <;> decide +kernel⟩,
   ⟨1, { (oneIns (ins 0x51 0 0 0 0 0)) with group := some { staged := [⟨0x2000, [7]⟩] } }, (at1 ({ (oneIns (ins 0x51 0 0 0 0 0)) with group := some { staged := [⟨0x2000, [7]⟩] } })), { staged := [⟨0x2000, [7]⟩] }, by decide +kernel, by decide +kernel, by decide +kernel⟩⟩

theorem witness_SpdmAndMctpRequestsAnswer (b : List Byte) (h : (Config.devPolicy b).smbReset = false) :
    (∃ (w : Wing), ∃ (s : State), s.boot.inReset = false ∧ s.doeUp w = true) ∧
    (∃ (via : SpdmVia), ∃ (s : State), s.boot.inReset = false ∧ (∀ v, via = .doe v → s.doeUp v = true) ∧ (s.spdmOf via).negotiated = true) ∧
    (∃ (via : SpdmVia), ∃ (s : State), s.boot.inReset = false ∧ (∀ v, via = .doe v → s.doeUp v = true)) ∧
    (∃ (via : SpdmVia), ∃ (s : State), s.boot.inReset = false ∧ (∀ v, via = .doe v → s.doeUp v = true) ∧ (s.spdmOf via).negotiated = false) ∧
    (∃ (s : State), ∃ msg, s.boot.inReset = false ∧ byteAt msg 1 = 0x01 ∧ byteAt msg 3 ≠ 0 ∧ byteAt msg 3 ≠ 0xFF) ∧
    (∃ (s : State), ∃ msg, s.boot.inReset = false ∧ byteAt msg 1 = 0x02) ∧
    (∃ (s : State), s.boot.inReset = false) ∧
    (∃ (s : State), ∃ off, s.boot.inReset = false ∧ off / 0x1000 = 0x100) ∧
    (∃ (s : State), ∃ f, ∃ off, s.boot.inReset = false ∧ off / 0x1000 = 0x001 ∧ fnOk f = true) ∧
    (∃ (s : State), s.boot.inReset = false ∧ s.devPolicy.smbReset = true) ∧
    (∃ (s : State), s.boot.inReset = false ∧ s.devPolicy.smbReset = false) :=
  ⟨⟨.west, up, by decide +kernel, by decide +kernel⟩,
   ⟨.doe .west, { up with host := { up.host with spdmW := { version := true, caps := true, algs := true } } }, by decide +kernel, (by intro v h; cases h; decide +kernel), by decide +kernel⟩,
   ⟨.doe .west, up, by decide +kernel, (by intro v h; cases h; decide +kernel)⟩,
   ⟨.doe .west, up, by decide +kernel, (by intro v h; cases h; decide +kernel), by decide +kernel⟩,
   ⟨up, [0x80, 1, 0, 0xFE], by decide +kernel, by decide +kernel, by decide +kernel, by decide +kernel⟩,
   ⟨up, [0x80, 2], by decide +kernel, by decide +kernel⟩,
   ⟨up, by decide +kernel⟩,
   ⟨up, 0x100FFC, by decide +kernel, by decide +kernel⟩,
   ⟨up, ⟨.east, 127⟩, 0x1000, by decide +kernel, by decide +kernel, by decide +kernel⟩,
   ⟨up, by decide +kernel, by decide +kernel⟩,
   ⟨{ up with boot := { up.boot with policyBody := some b } }, rfl, h⟩⟩

theorem witness_EntriesArePlacedAndProgramsStart :
    (∃ (w : Wing), ∃ (s : State), ∃ (l : List Head), ∃ (t : State), s.seen w = (l, t) ∧ s.dispatchOn w = false) ∧
    (∃ (w : Wing), ∃ (s : State), ∃ (l : List Head), ∃ (t : State), s.seen w = (l, t) ∧ s.dispatchOn w = true ∧ l = []) ∧
    (∃ (w : Wing), ∃ (s : State), ∃ (l : List Head), ∃ (t : State), s.seen w = (l, t) ∧ s.dispatchOn w = true ∧ (∃ h ∈ l, h.cls = 0 ∨ (t.disp w).slot < t.share h.cls)) ∧
    (∃ (w : Wing), ∃ (s : State), ∃ (l : List Head), ∃ (t : State), ∃ h, ∃ x, ∃ k, s.seen w = (l, t) ∧ s.dispatchOn w = true ∧ l = [h] ∧ h.cls = 0 ∧ t.coll h.coll = some x ∧ k = 4 * wingIdx w) ∧
    (∃ (f : Fn), ∃ (e : List Byte), ∃ (s : State), ∃ q, e.length = 64 ∧ fnOk f = true ∧ (s.queue f q).created = true ∧ (s.queue f q).stopped = false ∧ (s.queue f q).deleting = false ∧ (s.queue f q).heldEntry = none ∧ (s.queue f q).sqHead ≠ (s.queue f q).sqTail ∧ (s.fn f).bme = true ∧ s.boot.inReset = false ∧ s.lowPower = false ∧ q = .admin ∧ (s.fn f).admCur = none) ∧
    (∃ (f : Fn), ∃ (e : List Byte), ∃ (s : State), ∃ q, e.length = 64 ∧ fnOk f = true ∧ (s.queue f q).created = true ∧ (s.queue f q).stopped = false ∧ (s.queue f q).deleting = false ∧ (s.queue f q).heldEntry = none ∧ (s.queue f q).sqHead ≠ (s.queue f q).sqTail ∧ (s.fn f).bme = true ∧ s.boot.inReset = false ∧ s.lowPower = false ∧ q ≠ .admin) ∧
    (∃ (e : List Byte), ∃ (s : State), ∃ n, ∃ j, s.job n = some j ∧ j.phase = .placed ∧ j.parked = false ∧ e.length = j.paramLen ∧ s.tamper.frozen = false ∧ s.wingRuns (galleryWing j.gallery) = true) :=
  ⟨⟨.west, State.reset, (State.reset.seen .west).1, (State.reset.seen .west).2, rfl, by decide +kernel⟩,
   ⟨.west, up, (up.seen .west).1, (up.seen .west).2, rfl, by decide +kernel, by decide +kernel⟩,
   ⟨.west, (up.setQueue vfW (.io 0) { runQueue with heldEntry := some (padTo 64 [1, 0, 0, 0, 1]) }), ((up.setQueue vfW (.io 0) { runQueue with heldEntry := some (padTo 64 [1, 0, 0, 0, 1]) }).seen .west).1, ((up.setQueue vfW (.io 0) { runQueue with heldEntry := some (padTo 64 [1, 0, 0, 0, 1]) }).seen .west).2, rfl, by decide +kernel, ⟨(mkHead (.host vfW (.io 0)) 5 15 512 (padTo 64 [1, 0, 0, 0, 1]) { runQueue with heldEntry := some (padTo 64 [1, 0, 0, 0, 1]) } 16 0 up.now), by decide +kernel, .inl (by decide +kernel)⟩⟩,
   ⟨.west, (up.setQueue vfW (.io 0) { runQueue with heldEntry := some (padTo 64 [1, 0, 0, 0, 1]) }), ((up.setQueue vfW (.io 0) { runQueue with heldEntry := some (padTo 64 [1, 0, 0, 0, 1]) }).seen .west).1, ((up.setQueue vfW (.io 0) { runQueue with heldEntry := some (padTo 64 [1, 0, 0, 0, 1]) }).seen .west).2, (mkHead (.host vfW (.io 0)) 5 15 512 (padTo 64 [1, 0, 0, 0, 1]) { runQueue with heldEntry := some (padTo 64 [1, 0, 0, 0, 1]) } 16 0 up.now), { bindingMode := 0, weight := 1, maxInflight := 8, c0Max := 2 }, 0, rfl, by and_intros <;> decide +kernel⟩,
   ⟨vfW, (zeros 64), (up.setFn vfW { up.fn vfW with admQ := { created := true, depth := 2, sqTail := 1 } }), .admin, by and_intros <;> decide +kernel⟩,
   ⟨vfW, (zeros 64), up, .io 0, by and_intros <;> decide +kernel⟩,
   ⟨[], (at1 ({ (oneIns (ins 0 0 0 0 0 0)) with phase := .placed })), 1, { (oneIns (ins 0 0 0 0 0 0)) with phase := .placed }, by and_intros <;> decide +kernel⟩⟩

theorem witness_DamobRegisterInstructions :
    (∃ (n : Nat), ∃ (j : Job), ∃ (s : State), ∃ p ∈ [(Instr.insMovi n, 0x10, w64 (insImm j.ins)), (.insMovhi n, 0x11, movhi (j.reg (insDst j.ins)) (insImm j.ins)), (.insMov n, 0x12, j.reg (insSrcA j.ins)), (.insAdd n, 0x13, j.reg (insSrcA j.ins) + j.reg (insSrcB j.ins)), (.insAddi n, 0x14, j.reg (insSrcA j.ins) + signedImm j.ins), (.insSub n, 0x15, j.reg (insSrcA j.ins) - j.reg (insSrcB j.ins)), (.insAnd n, 0x16, j.reg (insSrcA j.ins) &&& j.reg (insSrcB j.ins)), (.insOr n, 0x17, j.reg (insSrcA j.ins) ||| j.reg (insSrcB j.ins)), (.insXor n, 0x18, j.reg (insSrcA j.ins) ^^^ j.reg (insSrcB j.ins)), (.insShl n, 0x19, j.reg (insSrcA j.ins) <<< (insImm j.ins % 64)), (.insShr n, 0x1A, j.reg (insSrcA j.ins) >>> (insImm j.ins % 64))], StandsAt s n p.2.1 j) ∧
    (∃ (n : Nat), ∃ (j : Job), ∃ (s : State), StandsAt s n 0x00 j) ∧
    (∃ (n : Nat), ∃ (j : Job), ∃ (s : State), StandsAt s n 0x1B j) ∧
    (∃ (n : Nat), ∃ (j : Job), ∃ (s : State), StandsAt s n 0x1C j) ∧
    (∃ (j : Job), ∃ pc, j.ending = none ∧ pc < j.prog.length) ∧
    (∃ (j : Job), ∃ pc, j.ending = none ∧ j.prog.length ≤ pc) ∧
    (∃ (j : Job), ∃ st, j.ending = some st) ∧
    (∃ st, ∃ cont, (isSuccess st = true ∨ (isContinuable st = true ∧ cont = true))) ∧
    (∃ st, ∃ cont, isSuccess st = false ∧ (¬ (isContinuable st = true ∧ cont = true))) ∧
    (∃ (n : Nat), ∃ (j : Job), ∃ (s : State), StandsAt s n 0x02 j) ∧
    (∃ (n : Nat), ∃ (j : Job), ∃ (s : State), s.job n = some j ∧ s.tamper.frozen = false ∧ s.wingRuns (galleryWing j.gallery) = true ∧ j.parked = false ∧ j.phase = .ready ∧ j.pc < j.prog.length ∧ j.executed < 4096 ∧ j.ending = none ∧ insOpcode j.ins = 0x00 ∧ condHolds (insCond j.ins) j.st j.f = false) ∧
    (∃ (n : Nat), ∃ (j : Job), ∃ (s : State), s.job n = some j ∧ s.tamper.frozen = false ∧ s.wingRuns (galleryWing j.gallery) = true ∧ j.phase = .ready ∧ 4096 ≤ j.executed) :=
  ⟨⟨1, (oneIns (ins 0x19 0 0 0 0 63)), (at1 (oneIns (ins 0x19 0 0 0 0 63))), (.insShl 1, 0x19, (oneIns (ins 0x19 0 0 0 0 63)).reg (insSrcA (oneIns (ins 0x19 0 0 0 0 63)).ins) <<< (insImm (oneIns (ins 0x19 0 0 0 0 63)).ins % 64)), by simp, stands_of (by decide +kernel)⟩,
   ⟨1, (oneIns (ins 0 0 0 0 0 0)), (at1 (oneIns (ins 0 0 0 0 0 0))), stands_of (by decide +kernel)⟩,
   ⟨1, (oneIns (ins 0x1B 0 0 0 0 0)), (at1 (oneIns (ins 0x1B 0 0 0 0 0))), stands_of (by decide +kernel)⟩,
   ⟨1, (oneIns (ins 0x1C 0 0 0 0 0)), (at1 (oneIns (ins 0x1C 0 0 0 0 0))), stands_of (by decide +kernel)⟩,
   ⟨(oneIns (ins 0 0 0 0 0 0)), 0, by decide +kernel, by decide +kernel⟩,
   ⟨(oneIns (ins 0 0 0 0 0 0)), 1, by decide +kernel, by decide +kernel⟩,
   ⟨{ (oneIns (ins 0 0 0 0 0 0)) with ending := some St.tamperFrozen }, St.tamperFrozen, by decide +kernel⟩,
   ⟨St.ok, false, by decide +kernel⟩,
   ⟨St.badBuffer, true, by decide +kernel, by decide +kernel⟩,
   ⟨1, (oneIns (ins 0x02 0 0 0 0 0xFFFF)), (at1 (oneIns (ins 0x02 0 0 0 0 0xFFFF))), stands_of (by decide +kernel)⟩,
   ⟨1, (oneIns (ins 0 0 0 0 2 0)), (at1 (oneIns (ins 0 0 0 0 2 0))), by and_intros <;> decide +kernel⟩,
   ⟨1, { (oneIns (ins 0 0 0 0 0 0)) with executed := 4096 }, (at1 ({ (oneIns (ins 0 0 0 0 0 0)) with executed := 4096 })), by and_intros <;> decide +kernel⟩⟩

theorem witness_DamobLoadsBuffersAndGroups :
    (∃ (n : Nat), ∃ (j : Job), ∃ (s : State), ∃ v, StandsAt s n 0x1D j ∧ j.paramWord (insImm j.ins % 512) = some v) ∧
    (∃ (n : Nat), ∃ (j : Job), ∃ (s : State), StandsAt s n 0x1D j ∧ j.paramWord (insImm j.ins % 512) = none) ∧
    (∃ (n : Nat), ∃ (j : Job), ∃ (s : State), ∃ b, ∃ bytes, StandsAt s n 0x1E j ∧ j.buf (insSrcA j.ins) = some b ∧ j.gbytes b = some bytes ∧ (j.reg (insSrcB j.ins)).toNat + insImm j.ins % 65536 + 8 ≤ b.len ∧ secretIn (slice bytes ((j.reg (insSrcB j.ins)).toNat + insImm j.ins % 65536) 8) = false) ∧
    (∃ (n : Nat), ∃ (j : Job), ∃ (s : State), ∃ bs, StandsAt s n 0x30 j ∧ parseDescriptors j.params (insImm j.ins % 4096) (fieldAt (insImm j.ins) 12 3 + 1) = some bs ∧ (j.counted.loadBufs (insDst j.ins) bs).gmem.length = j.gmem.length) ∧
    (∃ (n : Nat), ∃ (j : Job), ∃ (s : State), ∃ b, ∃ x, StandsAt s n 0x31 j ∧ j.buf (insSrcA j.ins) = some b ∧ fieldAt (insImm j.ins) 0 20 ≤ b.len ∧ b.slice (fieldAt (insImm j.ins) 0 20) (if fieldAt (insImm j.ins) 20 20 = 0 then b.len - fieldAt (insImm j.ins) 0 20 else fieldAt (insImm j.ins) 20 20) = some x) ∧
    (∃ (n : Nat), ∃ (j : Job), ∃ (s : State), ∃ b, StandsAt s n 0x32 j ∧ j.buf (insSrcA j.ins) = some b) ∧
    (∃ (n : Nat), ∃ (j : Job), ∃ (s : State), StandsAt s n 0x32 j ∧ j.buf (insSrcA j.ins) = none) ∧
    (∃ (n : Nat), ∃ (j : Job), ∃ (s : State), StandsAt s n 0x50 j ∧ j.group = none) ∧
    (∃ (n : Nat), ∃ (j : Job), ∃ (s : State), StandsAt s n 0x50 j ∧ j.group ≠ none) ∧
    (∃ (n : Nat), ∃ (j : Job), ∃ (s : State), ∃ g, StandsAt s n 0x51 j ∧ j.group = some g ∧ g.failed = St.ok ∧ g.accessions ≠ [] ∧ s.hasCurator (galleryWing j.gallery) = false) ∧
    (∃ (n : Nat), ∃ (j : Job), ∃ (s : State), ∃ g, StandsAt s n 0x51 j ∧ j.group = some g ∧ g.failed = St.ok ∧ (g.accessions = [] ∨ s.hasCurator (galleryWing j.gallery) = true) ∧ (g.staged = [] ∨ s.dmaOk j = true)) ∧
    (∃ (n : Nat), ∃ (j : Job), ∃ (s : State), ∃ g, StandsAt s n 0x51 j ∧ j.group = some g ∧ g.failed = St.ok ∧ (g.accessions = [] ∨ s.hasCurator (galleryWing j.gallery) = true) ∧ (g.staged = [] ∨ s.dmaOk j = true) ∧ g.staged ≠ []) ∧
    (∃ (n : Nat), ∃ (j : Job), ∃ (s : State), ∃ g, s.job n = some j ∧ j.phase = .release ∧ j.group = some g ∧ s.tamper.frozen = false ∧ j.parked = false ∧ s.wingRuns (galleryWing j.gallery) = true ∧ (g.accessions = [] ∨ s.hasCurator (galleryWing j.gallery) = true)) :=
  ⟨⟨1, { (oneIns (ins 0x1D 0 0 0 0 7)) with params := zeros 64 }, (at1 ({ (oneIns (ins 0x1D 0 0 0 0 7)) with params := zeros 64 })), 0, stands_of (by decide +kernel), by decide +kernel⟩,
   ⟨1, { (oneIns (ins 0x1D 0 0 0 0 8)) with params := zeros 64 }, (at1 ({ (oneIns (ins 0x1D 0 0 0 0 8)) with params := zeros 64 })), stands_of (by decide +kernel), by decide +kernel⟩,
   ⟨1, { (oneIns (ins 0x1E 0 0 0 0 56)) with params := zeros 64, b := [some (.inline 0 64)] }, (at1 ({ (oneIns (ins 0x1E 0 0 0 0 56)) with params := zeros 64, b := [some (.inline 0 64)] })), .inline 0 64, ((zeros 64).map fun b => { b }), stands_of (by decide +kernel), by decide +kernel, by decide +kernel, by decide +kernel, by decide +kernel⟩,
   ⟨1, { (oneIns (ins 0x30 7 0 0 0 0)) with params := [3, 0, 0, 0, 16, 0, 0, 0] ++ zeros 8 }, (at1 ({ (oneIns (ins 0x30 7 0 0 0 0)) with params := [3, 0, 0, 0, 16, 0, 0, 0] ++ zeros 8 })), [.inline 0 16], stands_of (by decide +kernel), by decide +kernel, by decide +kernel⟩,
   ⟨1, { (oneIns (ins 0x31 7 0 0 0 64)) with b := [some (.inline 0 64)] }, (at1 ({ (oneIns (ins 0x31 7 0 0 0 64)) with b := [some (.inline 0 64)] })), .inline 0 64, .inline 64 0, stands_of (by decide +kernel), by decide +kernel, by decide +kernel, by decide +kernel⟩,
   ⟨1, { (oneIns (ins 0x32 0 0 0 0 0)) with b := [some (.inline 0 64)] }, (at1 ({ (oneIns (ins 0x32 0 0 0 0 0)) with b := [some (.inline 0 64)] })), .inline 0 64, stands_of (by decide +kernel), by decide +kernel⟩,
   ⟨1, (oneIns (ins 0x32 0 0 0 0 0)), (at1 (oneIns (ins 0x32 0 0 0 0 0))), stands_of (by decide +kernel), by decide +kernel⟩,
   ⟨1, (oneIns (ins 0x50 0 0 0 0 0)), (at1 (oneIns (ins 0x50 0 0 0 0 0))), stands_of (by decide +kernel), by decide +kernel⟩,
   ⟨1, { (oneIns (ins 0x50 0 0 0 0 0)) with group := some {} }, (at1 ({ (oneIns (ins 0x50 0 0 0 0 0)) with group := some {} })), stands_of (by decide +kernel), by decide +kernel⟩,
   ⟨1, { (oneIns (ins 0x51 0 0 0 0 0)) with group := some { accessions := [{ coll := 0, index := 0, gen := 1, vr := 1, record := {} }] } }, { (at1 ({ (oneIns (ins 0x51 0 0 0 0 0)) with group := some { accessions := [{ coll := 0, index := 0, gen := 1, vr := 1, record := {} }] } })) with cont := { up.cont with orphanW := true, orphanE := true } }, { accessions := [{ coll := 0, index := 0, gen := 1, vr := 1, record := {} }] }, stands_of (by decide +kernel), by decide +kernel, by decide +kernel, by decide +kernel, by decide +kernel⟩,
   ⟨1, { (oneIns (ins 0x51 0 0 0 0 0)) with group := some {} }, (at1 ({ (oneIns (ins 0x51 0 0 0 0 0)) with group := some {} })), {}, stands_of (by decide +kernel), by decide +kernel, by decide +kernel, .inl rfl, .inl rfl⟩,
   ⟨1, { (oneIns (ins 0x51 0 0 0 0 0)) with group := some { staged := [⟨0x2000, [7]⟩] } }, (at1 ({ (oneIns (ins 0x51 0 0 0 0 0)) with group := some { staged := [⟨0x2000, [7]⟩] } })), { staged := [⟨0x2000, [7]⟩] }, stands_of (by decide +kernel), by decide +kernel, by decide +kernel, .inl rfl, .inr (by decide +kernel), by decide +kernel⟩,
   ⟨1, { (oneIns (ins 0x51 0 0 0 0 0)) with group := some {}, phase := .release }, (at1 ({ (oneIns (ins 0x51 0 0 0 0 0)) with group := some {}, phase := .release })), {}, by decide +kernel, by decide +kernel, by decide +kernel, by decide +kernel, by decide +kernel, by decide +kernel, .inl rfl⟩⟩

theorem witness_DamobEndsAndLoans :
    (∃ (n : Nat), ∃ (j : Job), ∃ (s : State), StandsAt s n 0x01 j ∧ j.group = none ∧ (insImm j.ins).testBit 8 = false) ∧
    (∃ (n : Nat), ∃ (j : Job), ∃ (s : State), StandsAt s n 0x01 j ∧ j.group = none ∧ (insImm j.ins).testBit 8 = true ∧ (byte (insImm j.ins % 256) = St.ok ∨ isContinuable (byte (insImm j.ins % 256)) = true)) ∧
    (∃ (n : Nat), ∃ (j : Job), ∃ (s : State), StandsAt s n 0x20 j) ∧
    (∃ (n : Nat), ∃ (j : Job), ∃ (s : State), StandsAt s n 0x21 j ∧ j.loanHandle.isSome = true) ∧
    (∃ (n : Nat), ∃ (j : Job), ∃ (s : State), StandsAt s n 0x21 j ∧ j.loanHandle = none) ∧
    (∃ (n : Nat), ∃ (j : Job), ∃ (s : State), s.job n = some j ∧ s.tamper.frozen = false ∧ j.parked = false ∧ s.wingRuns j.wing = true ∧ j.phase = .loanWait ∧ j.ending = none) ∧
    (∃ (n : Nat), ∃ (j : Job), ∃ (s : State), ∃ st, s.job n = some j ∧ s.tamper.frozen = false ∧ j.parked = false ∧ s.wingRuns j.wing = true ∧ j.phase = .loanWait ∧ j.ending = some st) ∧
    (∃ (n : Nat), ∃ (j : Job), ∃ (s : State), StandsAt s n 0x22 j ∧ (j.loanNo (insDst j.ins)).isSome = true) ∧
    (∃ (n : Nat), ∃ (j : Job), ∃ (s : State), StandsAt s n 0x22 j ∧ j.loanNo (insDst j.ins) = none) :=
  ⟨⟨1, (oneIns (ins 1 0 0 0 0 0x200)), (at1 (oneIns (ins 1 0 0 0 0 0x200))), stands_of (by decide +kernel), by decide +kernel, by decide +kernel⟩,
   ⟨1, (oneIns (ins 1 0 0 0 0 0x100)), (at1 (oneIns (ins 1 0 0 0 0 0x100))), stands_of (by decide +kernel), by decide +kernel, by decide +kernel, by decide +kernel⟩,
   ⟨1, (oneIns (ins 0x20 0 0 0 0 1)), (at1 (oneIns (ins 0x20 0 0 0 0 1))), stands_of (by decide +kernel)⟩,
   ⟨1, { (oneIns (ins 0x21 0 0 0 0 1)) with params := zeros 8 }, (at1 ({ (oneIns (ins 0x21 0 0 0 0 1)) with params := zeros 8 })), stands_of (by decide +kernel), by decide +kernel⟩,
   ⟨1, { (oneIns (ins 0x21 0 0 0 0 0x21)) with params := zeros 8 }, (at1 ({ (oneIns (ins 0x21 0 0 0 0 0x21)) with params := zeros 8 })), stands_of (by decide +kernel), by decide +kernel⟩,
   ⟨1, { (oneIns (ins 0x20 0 0 0 0 1)) with phase := .loanWait }, (at1 ({ (oneIns (ins 0x20 0 0 0 0 1)) with phase := .loanWait })), by and_intros <;> decide +kernel⟩,
   ⟨1, { (oneIns (ins 0x20 0 0 0 0 1)) with phase := .loanWait, ending := some St.tamperFrozen }, (at1 ({ (oneIns (ins 0x20 0 0 0 0 1)) with phase := .loanWait, ending := some St.tamperFrozen })), St.tamperFrozen, by and_intros <;> decide +kernel⟩,
   ⟨1, { (oneIns (ins 0x22 0 0 0 0 0)) with h := [some 1] }, (at1 ({ (oneIns (ins 0x22 0 0 0 0 0)) with h := [some 1] })), stands_of (by decide +kernel), by decide +kernel⟩,
   ⟨1, (oneIns (ins 0x22 0 0 0 0 0)), (at1 (oneIns (ins 0x22 0 0 0 0 0))), stands_of (by decide +kernel), by decide +kernel⟩⟩

theorem witness_EngineEventsFinishJobs :
    (∃ (n : Nat), ∃ (j : Job), ∃ (e : Exec), ∃ (r : ExecResult), ∃ (d : FnDef), ∃ (ev : EngineEvent), ∃ (s : State), s.job n = some j ∧ j.exec = some e ∧ e.result = some r ∧ fnDef (execFields j.ins).code = some d ∧ s.tamper.frozen = false ∧ j.parked = false ∧ s.wingRuns (galleryWing j.gallery) = true ∧ e.stage = .running ∧ s.isSuspended n = false ∧ s.stalled j e = false ∧ d.ready n r s = true ∧ ev.trip = none ∧ ((d.finish r s).released = 0 ∨ ev.writeFails = false) ∧ isSuccess (d.finish r s).status = true) ∧
    (∃ (n : Nat), ∃ (j : Job), ∃ (e : Exec), ∃ (r : ExecResult), ∃ (d : FnDef), ∃ (ev : EngineEvent), ∃ (s : State), s.job n = some j ∧ j.exec = some e ∧ e.result = some r ∧ fnDef (execFields j.ins).code = some d ∧ s.tamper.frozen = false ∧ j.parked = false ∧ s.wingRuns (galleryWing j.gallery) = true ∧ e.stage = .running ∧ s.isSuspended n = false ∧ s.stalled j e = false ∧ d.ready n r s = true ∧ ev.trip = none ∧ (d.finish r s).released = 0 ∧ (d.finish r s).status = St.faultDetected) ∧
    (∃ (n : Nat), ∃ (j : Job), ∃ (e : Exec), ∃ (r : ExecResult), ∃ (d : FnDef), ∃ (ev : EngineEvent), ∃ (s : State), s.job n = some j ∧ j.exec = some e ∧ e.result = some r ∧ fnDef (execFields j.ins).code = some d ∧ s.tamper.frozen = false ∧ j.parked = false ∧ s.wingRuns (galleryWing j.gallery) = true ∧ e.stage = .running ∧ s.isSuspended n = false ∧ s.stalled j e = false ∧ d.ready n r s = true ∧ ev.trip = none ∧ (d.finish r s).released = 0 ∧ isSuccess (d.finish r s).status = false ∧ (d.finish r s).status ≠ St.faultDetected) ∧
    (∃ (n : Nat), ∃ (j : Job), ∃ (e : Exec), ∃ (r : ExecResult), ∃ (d : FnDef), ∃ (ev : EngineEvent), ∃ (s : State), s.job n = some j ∧ j.exec = some e ∧ e.result = some r ∧ fnDef (execFields j.ins).code = some d ∧ s.tamper.frozen = false ∧ j.parked = false ∧ s.wingRuns (galleryWing j.gallery) = true ∧ e.stage = .running ∧ s.isSuspended n = false ∧ s.stalled j e = false ∧ d.ready n r s = true ∧ ev.trip = none ∧ (d.finish r s).released ≠ 0 ∧ ev.writeFails = true) ∧
    (∃ (n : Nat), ∃ (j : Job), ∃ (e : Exec), ∃ (r : ExecResult), ∃ (d : FnDef), ∃ (ev : EngineEvent), ∃ (s : State), s.job n = some j ∧ j.exec = some e ∧ e.result = some r ∧ fnDef (execFields j.ins).code = some d ∧ s.tamper.frozen = false ∧ j.parked = false ∧ s.wingRuns (galleryWing j.gallery) = true ∧ e.stage = .running ∧ s.isSuspended n = false ∧ s.stalled j e = false ∧ d.ready n r s = true ∧ ev.trip = none ∧ (d.finish r s).released ≠ 0 ∧ ev.writeFails = false ∧ isSuccess (d.finish r s).status = false) ∧
    (∃ (n : Nat), ∃ (j : Job), ∃ (e : Exec), ∃ (r : ExecResult), ∃ (d : FnDef), ∃ (ev : EngineEvent), ∃ (s : State), ∃ u, s.job n = some j ∧ j.exec = some e ∧ e.result = some r ∧ fnDef (execFields j.ins).code = some d ∧ s.tamper.frozen = false ∧ j.parked = false ∧ s.wingRuns (galleryWing j.gallery) = true ∧ e.stage = .running ∧ s.isSuspended n = false ∧ s.stalled j e = false ∧ d.ready n r s = true ∧ ev.trip = some u ∧ s.uses n u = true) ∧
    (∃ (n : Nat), ∃ (j : Job), ∃ (e : Exec), ∃ (r : ExecResult), ∃ (d : FnDef), ∃ (ev : EngineEvent), ∃ (s : State), ∃ u, s.job n = some j ∧ j.exec = some e ∧ e.result = some r ∧ fnDef (execFields j.ins).code = some d ∧ s.tamper.frozen = false ∧ j.parked = false ∧ s.wingRuns (galleryWing j.gallery) = true ∧ e.stage = .running ∧ s.isSuspended n = false ∧ s.stalled j e = false ∧ d.ready n r s = true ∧ ev.trip = some u ∧ s.uses n u = false) ∧
    (∃ (s : State), ∃ g, ∃ k, (s.gal g).wipingKind k = true) ∧
    (∃ (s : State), ∃ res, ∃ higher, ∃ w, ∃ g, s.tamper.frozen = false ∧ s.waiter res higher = some w ∧ s.victim res higher w.1 = some g ∧ s.suffices higher w.1 res w.2 = false ∧ s.storeFor g = true) ∧
    (∃ (s : State), s.tamper.frozen = false) ∧
    (∃ (s : State), ∃ g, ∃ key, (s.gal g).queuedLoad = some key ∧ s.tamper.frozen = false ∧ s.bfeIdle (s.gal g).loadBy g = true) ∧
    (∃ (s : State), ∃ g, ∃ key, (s.gal g).reload = some key ∧ (s.gal g).queuedLoad = none ∧ s.tamper.frozen = false ∧ s.bfeIdle 0 g = true) :=
  ⟨⟨1, { (oneIns (ins 0x40 0 0 0 0 0x010C01)) with phase := .exec, exec := some { stage := .running, result := some { status := 0 } } }, { stage := .running, result := some { status := 0 } }, { status := 0 }, aesCrypt false, ⟨none, false, [], 0, 0⟩, { (at1 ({ (oneIns (ins 0x40 0 0 0 0 0x010C01)) with phase := .exec, exec := some { stage := .running, result := some { status := 0 } } })) with entropy := { up.entropy with masks := [(0, { seeded := true })] } }, by decide +kernel, by decide +kernel, by decide +kernel, rfl, by and_intros <;> decide +kernel⟩,
   ⟨1, { (oneIns (ins 0x40 0 0 0 0 0x010C01)) with phase := .exec, exec := some { stage := .running, result := some { status := St.faultDetected, released := 0 } } }, { stage := .running, result := some { status := St.faultDetected, released := 0 } }, { status := St.faultDetected, released := 0 }, aesCrypt false, ⟨none, false, [], 0, 0⟩, { (at1 ({ (oneIns (ins 0x40 0 0 0 0 0x010C01)) with phase := .exec, exec := some { stage := .running, result := some { status := St.faultDetected, released := 0 } } })) with entropy := { up.entropy with masks := [(0, { seeded := true })] } }, by decide +kernel, by decide +kernel, by decide +kernel, rfl, by and_intros <;> decide +kernel⟩,
   ⟨1, { (oneIns (ins 0x40 0 0 0 0 0x010C01)) with phase := .exec, exec := some { stage := .running, result := some { status := St.keyClass } } }, { stage := .running, result := some { status := St.keyClass } }, { status := St.keyClass }, aesCrypt false, ⟨none, false, [], 0, 0⟩, { (at1 ({ (oneIns (ins 0x40 0 0 0 0 0x010C01)) with phase := .exec, exec := some { stage := .running, result := some { status := St.keyClass } } })) with entropy := { up.entropy with masks := [(0, { seeded := true })] } }, by decide +kernel, by decide +kernel, by decide +kernel, rfl, by and_intros <;> decide +kernel⟩,
   ⟨1, { (oneIns (ins 0x40 0 0 0 0 0x010C01)) with phase := .exec, exec := some { stage := .running, result := some { status := 0, released := 70000 } } }, { stage := .running, result := some { status := 0, released := 70000 } }, { status := 0, released := 70000 }, aesCrypt false, ⟨none, true, [], 0, 0⟩, { (at1 ({ (oneIns (ins 0x40 0 0 0 0 0x010C01)) with phase := .exec, exec := some { stage := .running, result := some { status := 0, released := 70000 } } })) with entropy := { up.entropy with masks := [(0, { seeded := true })] } }, by decide +kernel, by decide +kernel, by decide +kernel, rfl, by and_intros <;> decide +kernel⟩,
   ⟨1, { (oneIns (ins 0x40 0 0 0 0 0x010C01)) with phase := .exec, exec := some { stage := .running, result := some { status := St.tagMismatch, released := 70000 } } }, { stage := .running, result := some { status := St.tagMismatch, released := 70000 } }, { status := St.tagMismatch, released := 70000 }, aesCrypt false, ⟨none, false, [1], 0, 0⟩, { (at1 ({ (oneIns (ins 0x40 0 0 0 0 0x010C01)) with phase := .exec, exec := some { stage := .running, result := some { status := St.tagMismatch, released := 70000 } } })) with entropy := { up.entropy with masks := [(0, { seeded := true })] } }, by decide +kernel, by decide +kernel, by decide +kernel, rfl, by and_intros <;> decide +kernel⟩,
   ⟨1, { (oneIns (ins 0x40 0 0 0 0 0x010C01)) with phase := .exec, exec := some { stage := .running, result := some { status := 0 } } }, { stage := .running, result := some { status := 0 } }, { status := 0 }, aesCrypt false, ⟨some ⟨0, Kind.aes, 0⟩, false, [], 0, 0⟩, { { (at1 ({ (oneIns (ins 0x40 0 0 0 0 0x010C01)) with phase := .exec, exec := some { stage := .running, result := some { status := 0 } } })) with work := { ((at1 ({ (oneIns (ins 0x40 0 0 0 0 0x010C01)) with phase := .exec, exec := some { stage := .running, result := some { status := 0 } } }))).work with grants := [⟨.aes 0, 1, 1, false, false, 0, {}⟩] } } with entropy := { up.entropy with masks := [(0, { seeded := true })] } }, ⟨0, Kind.aes, 0⟩, by decide +kernel, by decide +kernel, by decide +kernel, rfl, by and_intros <;> decide +kernel⟩,
   ⟨1, { (oneIns (ins 0x40 0 0 0 0 0x010C01)) with phase := .exec, exec := some { stage := .running, result := some { status := 0 } } }, { stage := .running, result := some { status := 0 } }, { status := 0 }, aesCrypt false, ⟨some ⟨0, Kind.aes, 1⟩, false, [], 0, 0⟩, { (at1 ({ (oneIns (ins 0x40 0 0 0 0 0x010C01)) with phase := .exec, exec := some { stage := .running, result := some { status := 0 } } })) with entropy := { up.entropy with masks := [(0, { seeded := true })] } }, ⟨0, Kind.aes, 1⟩, by decide +kernel, by decide +kernel, by decide +kernel, rfl, by and_intros <;> decide +kernel⟩,
   ⟨(up.setGal 15 { wiping := [(Kind.lsu, 0)] }), 15, Kind.lsu, by decide +kernel⟩,
   ⟨(preempted (.aes 0) 32 0), (.aes 0), 2, (0, 1), ⟨.aes 0, 1, 32, false, false, 31, {}⟩, by and_intros <;> decide +kernel⟩,
   ⟨up, by decide +kernel⟩,
   ⟨(up.setGal 0 { queuedLoad := some none }), 0, none, by decide +kernel, by decide +kernel, by decide +kernel⟩,
   ⟨(up.setGal 0 { reload := some (5, 1, 1) }), 0, (5, 1, 1), by decide +kernel, by decide +kernel, by decide +kernel, by decide +kernel⟩⟩

theorem witness_LedgerCommands :
    (∃ (w : Wing), ∃ (k : Nat), ∃ (s : State), ∃ fails, s.mayReserve w (s.slot k) = true ∧ fails < 4) ∧
    (∃ (w : Wing), ∃ (k : Nat), ∃ (s : State), ∃ fails, s.mayReserve w (s.slot k) = true ∧ 4 ≤ fails) ∧
    (∃ (w : Wing), ∃ (s : State), s.reaches w = true) ∧
    (∃ (k : Nat), ∃ (s : State), ∃ g, ∃ rest, (s.slot k).gens = g :: rest ∧ s.genEnds k g = true ∧ g.work = .subtree) ∧
    (∃ (k : Nat), ∃ (s : State), ∃ g, ∃ rest, ∃ i, (s.slot k).gens = g :: rest ∧ s.genEnds k g = true ∧ g.work = .instance_ i ∧ s.genFits (s.slot k) g.work = true) ∧
    (∃ (k : Nat), ∃ (s : State), ∃ g, ∃ rest, ∃ i, (s.slot k).gens = g :: rest ∧ s.genEnds k g = true ∧ g.work = .instance_ i ∧ s.genFits (s.slot k) g.work = false) ∧
    (∃ (k : Nat), ∃ (s : State), ∃ g, ∃ rest, ∃ u, (s.slot k).gens = g :: rest ∧ s.genEnds k g = true ∧ g.work ≠ .rebuild ∧ s.genUnit k g = some u) ∧
    (∃ (k : Nat), ∃ (s : State), ∃ g, ∃ rest, (s.slot k).gens = g :: rest ∧ s.genEnds k g = true ∧ g.work = .rebuild) ∧
    (∃ (k : Nat), ∃ (s : State), ∃ g, ∃ rest, ∃ u, (s.slot k).gens = g :: rest ∧ s.genEnds k g = true ∧ g.work = .rebuild ∧ s.genUnit k g = some u) ∧
    (∃ (n : Nat), ∃ (s : State), ∃ j, ∃ e, ∃ t, s.job n = some j ∧ j.exec = some e ∧ e.stage = .waitCache t ∧ t + s.genWaitNs ≤ s.now ∧ s.tamper.frozen = false) ∧
    (∃ (f : Fn), ∃ (s : State), Manages s f 0x180020) ∧
    (∃ (f : Fn), ∃ (s : State), ReadsPf s f 0x180010) ∧
    (∃ (s : State), s.ledger.ready = false ∧ s.boot.inReset = false) :=
  ⟨⟨.west, 65535, { up with ledger := { up.ledger with slots := [(65535, { state := .active, handle := 1, total := 1024, heights := [5] })] } }, 3, by decide +kernel, by decide +kernel⟩,
   ⟨.west, 65535, { up with ledger := { up.ledger with slots := [(65535, { state := .active, handle := 1, total := 1024, heights := [5] })] } }, 4, by decide +kernel, by decide +kernel⟩,
   ⟨.west, up, by decide +kernel⟩,
   ⟨65535, { { up with ledger := { up.ledger with slots := [(65535, { state := .active, handle := 1, total := 1024, heights := [5, 5], selector := 1, gens := [⟨0, .subtree, 0⟩] })] } } with entropy := { up.entropy with masks := [(0, { seeded := true })] }, work := { up.work with grants := [⟨.keccak 0, genJob 65535 0, 1, false, false, 0, {}⟩] } }, ⟨0, .subtree, 0⟩, [], by decide +kernel, by decide +kernel, by decide +kernel⟩,
   ⟨65535, { { up with ledger := { up.ledger with slots := [(65535, { state := .active, handle := 1, total := 1024, heights := [5, 5], selector := 1, gens := [⟨0, .instance_ 1, 0⟩] })] } } with entropy := { up.entropy with masks := [(0, { seeded := true })] }, work := { up.work with grants := [⟨.keccak 0, genJob 65535 0, 1, false, false, 0, {}⟩] } }, ⟨0, .instance_ 1, 0⟩, [], 1, by decide +kernel, by decide +kernel, by decide +kernel, by decide +kernel⟩,
   ⟨65535, { { up with ledger := { up.ledger with slots := [(65535, { state := .active, handle := 1, total := 1024, heights := [5, 40], selector := 1, gens := [⟨0, .instance_ 1, 0⟩] })] } } with entropy := { up.entropy with masks := [(0, { seeded := true })] }, work := { up.work with grants := [⟨.keccak 0, genJob 65535 0, 1, false, false, 0, {}⟩] } }, ⟨0, .instance_ 1, 0⟩, [], 1, by decide +kernel, by decide +kernel, by decide +kernel, by decide +kernel⟩,
   ⟨65535, { { up with ledger := { up.ledger with slots := [(65535, { state := .active, handle := 1, total := 1024, heights := [5, 5], selector := 1, gens := [⟨0, .subtree, 0⟩] })] } } with entropy := { up.entropy with masks := [(0, { seeded := true })] }, work := { up.work with grants := [⟨.keccak 0, genJob 65535 0, 1, false, false, 0, {}⟩] } }, ⟨0, .subtree, 0⟩, [], ⟨0, Kind.keccak, 0⟩, by decide +kernel, by decide +kernel, by decide +kernel, by decide +kernel⟩,
   ⟨65535, { { up with ledger := { up.ledger with slots := [(65535, { state := .active, handle := 1, total := 1024, heights := [5, 5], selector := 1, gens := [⟨0, .rebuild, 0⟩] })] } } with entropy := { up.entropy with masks := [(0, { seeded := true })] }, work := { up.work with grants := [⟨.keccak 0, genJob 65535 0, 1, false, false, 0, {}⟩] } }, ⟨0, .rebuild, 0⟩, [], by decide +kernel, by decide +kernel, by decide +kernel⟩,
   ⟨65535, { { up with ledger := { up.ledger with slots := [(65535, { state := .active, handle := 1, total := 1024, heights := [5, 5], selector := 1, gens := [⟨0, .rebuild, 0⟩] })] } } with entropy := { up.entropy with masks := [(0, { seeded := true })] }, work := { up.work with grants := [⟨.keccak 0, genJob 65535 0, 1, false, false, 0, {}⟩] } }, ⟨0, .rebuild, 0⟩, [], ⟨0, Kind.keccak, 0⟩, by decide +kernel, by decide +kernel, by decide +kernel, by decide +kernel⟩,
   ⟨1, (at1 ({ (oneIns (ins 0x40 0 0 0 0 0)) with phase := .exec, exec := some { stage := .waitCache 0 } })), { (oneIns (ins 0x40 0 0 0 0 0)) with phase := .exec, exec := some { stage := .waitCache 0 } }, { stage := .waitCache 0 }, 0, by and_intros <;> decide +kernel⟩,
   ⟨pfW, up, manages_of (by decide +kernel)⟩,
   ⟨pfW, up, readsPf_of (by decide +kernel)⟩,
   ⟨{ up with ledger := {} }, by decide +kernel, by decide +kernel⟩⟩

theorem witness_RegistrarAndSealsAct :
    (∃ (w : Wing), ∃ (c : Nat), ∃ (i : Nat), ∃ (g : Nat), ∃ (s : State), s.hasCurator w = true ∧ (s.cat.orders.any fun o => o.names c i g && o.due.contains w) = true) ∧
    (∃ (n : Nat), ∃ (l : Loan), ∃ (s : State), s.loan n = some l ∧ s.hasCurator l.wing = true ∧ l.from_ + l.leaseNs / 2 ≤ s.runNs ∧ s.tamper.frozen = false ∧ s.renewalStatus l = St.ok) ∧
    (∃ (n : Nat), ∃ (l : Loan), ∃ (s : State), s.loan n = some l ∧ s.hasCurator l.wing = true ∧ l.from_ + l.leaseNs / 2 ≤ s.runNs ∧ s.tamper.frozen = false ∧ s.renewalStatus l ≠ St.ok) ∧
    (∃ (n : Nat), ∃ (l : Loan), ∃ (s : State), s.loan n = some l ∧ s.hasCurator l.wing = false ∧ l.from_ + l.leaseNs ≤ s.runNs ∧ s.watchMode = false ∧ s.tamper.frozen = false ∧ (∀ j, s.job l.job = some j → s.isSuspended l.job = false ∨ j.phase ≠ .exec)) ∧
    (∃ (n : Nat), ∃ (l : Loan), ∃ (s : State), ∃ j, s.loan n = some l ∧ s.hasCurator l.wing = false ∧ l.from_ + l.leaseNs ≤ s.runNs ∧ s.watchMode = false ∧ s.tamper.frozen = false ∧ s.job l.job = some j ∧ s.isSuspended l.job = true ∧ j.phase = .exec) ∧
    (∃ (c : Nat), ∃ (i : Nat), ∃ (g : Nat), ∃ (x : Invalid), ∃ (s : State), (s.cat.invalidated.find? fun x => x.names c i g) = some x ∧ x.walked = false ∧ s.stopped = false) ∧
    (∃ (c : Nat), ∃ (i : Nat), ∃ (g : Nat), ∃ (x : Invalid), ∃ (s : State), (s.cat.invalidated.find? fun x => x.names c i g) = some x ∧ x.walked = true ∧ x.sealSeq ≤ s.journal.head.n ∧ (s.cat.reserved.any fun r => r.coll == c && boundTo i g r.ancestors) = false ∧ s.unmarked x = []) ∧
    (∃ (s : State), s.journal.openSeal ≠ [] ∧ s.journal.openSince + s.journal.intervalUs * 1000 ≤ s.now ∧ s.stopped = false ∧ s.boot.inReset = false) ∧
    (∃ (s : State), ∃ c, ∃ rest, ∃ b, s.journal.closed = c :: rest ∧ b = c.block.getD (s.sealBlock c) ∧ s.ringReachable = true ∧ b.length ≤ s.journal.ringSize - (s.journal.written - s.journal.ackedTo)) ∧
    (∃ (s : State), (s.journal.closed = [] ∨ s.ringReachable = false)) ∧
    (∃ (s : State), ∃ x, s.journal.checkpoint = some x ∧ x.last ≤ s.journal.head.n) :=
  ⟨⟨.west, 5, 1, 1, { up with cat := { orders := [⟨5, 1, 1, [.west], [.west], none⟩] } }, by decide +kernel, by decide +kernel⟩,
   ⟨1, { coll := 5, index := 1, gen := 1, purpose := 1, job := 1, wing := .west, leaseNs := 100000000, from_ := 100000000, ancestors := [], record := {} }, { up with cat := { loans := [(1, some { coll := 5, index := 1, gen := 1, purpose := 1, job := 1, wing := .west, leaseNs := 100000000, from_ := 100000000, ancestors := [], record := {} })] } }, by and_intros <;> decide +kernel⟩,
   ⟨1, { coll := 5, index := 1, gen := 1, purpose := 1, job := 1, wing := .west, leaseNs := 100000000, from_ := 100000000, ancestors := [], record := {}, revoked := true }, { up with cat := { loans := [(1, some { coll := 5, index := 1, gen := 1, purpose := 1, job := 1, wing := .west, leaseNs := 100000000, from_ := 100000000, ancestors := [], record := {}, revoked := true })] } }, by and_intros <;> decide +kernel⟩,
   ⟨1, { coll := 5, index := 1, gen := 1, purpose := 1, job := 1, wing := .west, leaseNs := 100000000, from_ := 100000000, ancestors := [], record := {} }, { { up with cont := {} } with cat := { loans := [(1, some { coll := 5, index := 1, gen := 1, purpose := 1, job := 1, wing := .west, leaseNs := 100000000, from_ := 100000000, ancestors := [], record := {} })] } }, by and_intros <;> decide +kernel⟩,
   ⟨1, { coll := 5, index := 1, gen := 1, purpose := 1, job := 1, wing := .west, leaseNs := 100000000, from_ := 100000000, ancestors := [], record := {} }, { ({ { up with cont := {} } with cat := { loans := [(1, some { coll := 5, index := 1, gen := 1, purpose := 1, job := 1, wing := .west, leaseNs := 100000000, from_ := 100000000, ancestors := [], record := {} })] } }).putJob 1 ({ oneIns 0 with phase := .exec }) with work := { ((up.putJob 1 ({ oneIns 0 with phase := .exec })).work) with grants := [⟨.aes 0, 1, 1, true, false, 0, {}⟩] } }, { oneIns 0 with phase := .exec }, by and_intros <;> decide +kernel⟩,
   ⟨5, 1, 1, ⟨5, 1, 1, true, false, 0⟩, { up with cat := { invalidated := [⟨5, 1, 1, true, false, 0⟩] } }, by decide +kernel, by decide +kernel, by decide +kernel⟩,
   ⟨5, 1, 1, ⟨5, 1, 1, true, true, 0⟩, { up with cat := { invalidated := [⟨5, 1, 1, true, true, 0⟩] } }, by and_intros <;> decide +kernel⟩,
   ⟨{ up with journal := { up.journal with openSeal := [.pad], openSince := 199000000 } }, by decide +kernel, by decide +kernel, by decide +kernel, by decide +kernel⟩,
   ⟨{ up with journal := { up.journal with closed := [{ seq := 1, records := [] }], ringSize := 0x10000 } }, { seq := 1, records := [] }, [], ((State.sealBlock { up with journal := { up.journal with closed := [{ seq := 1, records := [] }], ringSize := 0x10000 } } { seq := 1, records := [] })), by decide +kernel, rfl, by decide +kernel, (by rw [sealBlock_length]; decide +kernel)⟩,
   ⟨up, .inl rfl⟩,
   ⟨{ up with journal := { up.journal with checkpoint := some ⟨1, 0, []⟩ } }, ⟨1, 0, []⟩, by decide +kernel, by decide +kernel⟩⟩

theorem witness_JournalMessages (h : AllPass) :
    (∃ (w : Wing), ∃ (ps : List Byte), ∃ (p : List Byte), ∃ (s : State), p = (s.mailbox (.pf w)).params ps ∧ Heard s (.pf w) 0x40 0 ∧ leAt p 0 8 % 4096 = 0 ∧ ringSizeOk (leAt p 8 8) = true ∧ (leAt p 16 4 = 0 ∨ (100 ≤ leAt p 16 4 ∧ leAt p 16 4 ≤ 10000)) ∧ allZero (slice p 20 4) = true) ∧
    (∃ (w : Wing), ∃ (ps : List Byte), ∃ (p : List Byte), ∃ (s : State), ∃ e, p = (s.mailbox (.pf w)).params ps ∧ Heard s (.pf w) 0x41 0 ∧ (s.journal.blockEnds.filter fun e => e % max 1 s.journal.ringSize == leAt p 0 8).getLast? = some e) ∧
    (∃ (w : Wing), ∃ (ps : List Byte), ∃ (p : List Byte), ∃ (s : State), p = (s.mailbox (.pf w)).params ps ∧ Heard s (.pf w) 0x42 144) ∧
    (∃ (w : Wing), ∃ (ps : List Byte), ∃ (p : List Byte), ∃ (s : State), p = (s.mailbox (.pf w)).params ps ∧ Heard s (.pf w) 0x43 0 ∧ s.journal.restore = .empty ∧ ((s.wingChannels .west).isEmpty && (s.wingChannels .east).isEmpty) = false) ∧
    (∃ (w : Wing), ∃ (ps : List Byte), ∃ (p : List Byte), ∃ (s : State), ∃ b, ∃ l, p = (s.mailbox (.pf w)).params ps ∧ Heard s (.pf w) 0x44 12 ∧ s.journal.restore = .open_ ∧ bodyRecords (leAt b 20 4) (Config.prim .journalOpen [s.jk, blockNonce (leAt b 8 8) s.journal.head.gen, b.take 96, b.drop 96] (leAt b 24 4)) = some l ∧ s.blockStatus b (leAt p 8 4) (some l) = St.ok) ∧
    (∃ (w : Wing), ∃ (ps : List Byte), ∃ (p : List Byte), ∃ (s : State), p = (s.mailbox (.pf w)).params ps ∧ Heard s (.pf w) 0x45 8 ∧ s.journal.restore = .open_ ∧ s.journal.applied = s.journal.head.n) ∧
    (∃ (w : Wing), ∃ (ps : List Byte), ∃ (p : List Byte), ∃ (s : State), p = (s.mailbox (.pf w)).params ps ∧ Heard s (.pf w) 0x46 8 ∧ s.journal.restore = .open_ ∧ leAt p 0 8 = (if s.journal.appliedAny then s.journal.applied else 0) ∧ leAt p 8 8 = s.journal.head.n ∧ leAt p 16 4 = s.journal.head.gen ∧ leAt p 0 8 < s.journal.head.n ∧ allZero (slice p 20 4) = true ∧ s.authValid s.boot.custodians s.boot.threshold 0x11 (p.take 24) (p.drop (up8 24)) = true) ∧
    (∃ (w : Wing), ∃ (ps : List Byte), ∃ (p : List Byte), ∃ (s : State), ∃ c ∈ [(Instr.journalConfig (.supervisor w) ps, 0x40), (.journalAck (.supervisor w) ps, 0x41), (.journalStatus (.supervisor w) ps, 0x42), (.restoreBegin (.supervisor w) ps, 0x43), (.restoreBlock (.supervisor w) ps none, 0x44), (.restoreEnd (.supervisor w) ps, 0x45), (.acceptLoss (.supervisor w) ps, 0x46)], p = (s.mailbox (.pf w)).params ps ∧ Heard s (.supervisor w) c.2 0) :=
  ⟨⟨.west, (leBytes 8 4096 ++ leBytes 8 0x1000000 ++ leBytes 4 10000 ++ zeros 4), (leBytes 8 4096 ++ leBytes 8 0x1000000 ++ leBytes 4 10000 ++ zeros 4), (heardState up (.pf .west) 0x40 (leBytes 8 4096 ++ leBytes 8 0x1000000 ++ leBytes 4 10000 ++ zeros 4)), heard_params (by decide +kernel) (by decide), heard_of (by decide +kernel), by decide +kernel, by decide +kernel, by decide +kernel, by decide +kernel⟩,
   ⟨.west, (leBytes 8 64), (leBytes 8 64), (heardState { up with journal := { up.journal with ringSize := 0x100000, blockEnds := [0x100040] } } (.pf .west) 0x41 (leBytes 8 64)), 0x100040, heard_params (by decide +kernel) (by decide), heard_of (by decide +kernel), by decide +kernel⟩,
   ⟨.west, [], [], (heardState up (.pf .west) 0x42 []), heard_params (by decide +kernel) (by decide), heard_of (by decide +kernel)⟩,
   ⟨.west, [], [], (heardState { up with journal := { up.journal with restore := .empty } } (.pf .west) 0x43 []), heard_params (by decide +kernel) (by decide), heard_of (by decide +kernel), by decide +kernel, by decide +kernel⟩,
   ⟨.west, (leBytes 8 0 ++ leBytes 4 112 ++ zeros 4), (leBytes 8 0 ++ leBytes 4 112 ++ zeros 4), (heardState { up with journal := { up.journal with restore := .open_, head := { n := 1 } } } (.pf .west) 0x44 (leBytes 8 0 ++ leBytes 4 112 ++ zeros 4)), blockOne, [], heard_params (by decide +kernel) (by decide), heard_of (by decide +kernel), by decide +kernel, rfl, block_ok h⟩,
   ⟨.west, [], [], (heardState { up with journal := { up.journal with restore := .open_ } } (.pf .west) 0x45 []), heard_params (by decide +kernel) (by decide), heard_of (by decide +kernel), by decide +kernel, by decide +kernel⟩,
   ⟨.west, (withAuth 0x11 (leBytes 8 0 ++ leBytes 8 1 ++ zeros 8) []), (withAuth 0x11 (leBytes 8 0 ++ leBytes 8 1 ++ zeros 8) []), (heardState { signedUp with journal := { up.journal with restore := .open_, head := { n := 1 } } } (.pf .west) 0x46 (withAuth 0x11 (leBytes 8 0 ++ leBytes 8 1 ++ zeros 8) [])), heard_params (by decide +kernel) (by decide), heard_of (by decide +kernel), by decide +kernel, by decide +kernel, by decide +kernel, by decide +kernel, by decide +kernel, by decide +kernel, withAuth_ok h (by decide) (by decide) rfl rfl (by decide +kernel) (by decide +kernel)⟩,
   ⟨.west, [], [], (heardState up (.supervisor .west) 0x46 []), (.acceptLoss (.supervisor .west) [], 0x46), by simp, rfl, heard_of (by decide +kernel)⟩⟩

theorem witness_LifecycleMessages (h : AllPass) :
    (∃ (m : Sender), ∃ (ps : List Byte), ∃ (p : List Byte), ∃ (s : State), p = (s.mailbox m).params ps ∧ s.handingOver = false ∧ Heard s m 0x06 0 ∧ s.boot.lifecycle = .owned ∧ p.take 8 = s.serialBytes ∧ s.authValid s.boot.custodians s.boot.threshold 0x02 (p.take 8) (p.drop (up8 8)) = true) ∧
    (∃ (m : Sender), ∃ (ps : List Byte), ∃ (p : List Byte), ∃ (s : State), p = (s.mailbox m).params ps ∧ s.handingOver = false ∧ Heard s m 0x07 0 ∧ s.boot.lifecycle = .decommissioned ∧ tokenForm 0x80 p = true ∧ s.boot.transfers < 15 ∧ s.tokenOk 0x80 (p.take 16) (slice p 24 96) = true ∧ s.drbgOk .curator = true) ∧
    (∃ (m : Sender), ∃ (ps : List Byte), ∃ (p : List Byte), ∃ (s : State), p = (s.mailbox m).params ps ∧ s.handingOver = false ∧ Heard s m 0x07 0 ∧ s.boot.lifecycle = .decommissioned ∧ tokenForm 0x80 p = true ∧ s.boot.transfers < 15 ∧ s.tokenOk 0x80 (p.take 16) (slice p 24 96) = true ∧ s.drbgOk .curator = false) ∧
    (∃ (m : Sender), ∃ (ps : List Byte), ∃ (p : List Byte), ∃ (s : State), p = (s.mailbox m).params ps ∧ s.handingOver = false ∧ Heard s m 0x0F 0 ∧ s.boot.lifecycle = .manufacture ∧ tokenForm 0x81 p = true ∧ 124 + leAt p 120 4 ≤ p.length ∧ s.tokenOk 0x81 (p.take 16) (slice p 24 96) = true ∧ leAt p 120 4 ≤ certRoom ∧ s.drbgOk .curator = true) ∧
    (∃ (m : Sender), ∃ (ps : List Byte), ∃ (p : List Byte), ∃ (s : State), p = (s.mailbox m).params ps ∧ s.handingOver = false ∧ Heard s m 0x0F 0 ∧ s.boot.lifecycle = .manufacture ∧ tokenForm 0x81 p = true ∧ 124 + leAt p 120 4 ≤ p.length ∧ s.tokenOk 0x81 (p.take 16) (slice p 24 96) = true ∧ leAt p 120 4 ≤ certRoom ∧ s.drbgOk .curator = false) ∧
    (∃ (m : Sender), ∃ (ps : List Byte), ∃ (p : List Byte), ∃ (s : State), p = (s.mailbox m).params ps ∧ s.handingOver = false ∧ Heard s m 0x08 0 ∧ s.boot.lifecycle ≠ .scrapped ∧ s.boot.lifecycle ≠ .owned ∧ p.take 8 = s.serialBytes) ∧
    (∃ (m : Sender), ∃ (ps : List Byte), ∃ (p : List Byte), ∃ (s : State), p = (s.mailbox m).params ps ∧ s.handingOver = false ∧ Heard s m 0x08 0 ∧ s.boot.lifecycle = .owned ∧ p.take 8 = s.serialBytes ∧ s.authValid s.boot.custodians s.boot.threshold 0x03 (p.take 8) (p.drop (up8 8)) = true) ∧
    (∃ (m : Sender), ∃ (ps : List Byte), ∃ (p : List Byte), ∃ (s : State), ∃ c ∈ [(Instr.takeOwnership m ps, 0x04, 4 + Config.primNat .csr [s.serialBytes] % 65536, Lifecycle.provisioned), (.decommission m ps, 0x06, 0, .owned), (.transfer m ps, 0x07, 0, .decommissioned), (.provision m ps, 0x0F, 0, .manufacture)], p = (s.mailbox m).params ps ∧ s.handingOver = false ∧ Heard s m c.2.1 c.2.2.1 ∧ s.boot.lifecycle ≠ c.2.2.2) :=
  ⟨⟨.pf .west, (withAuth 0x02 (zeros 8) []), (withAuth 0x02 (zeros 8) []), (heardState signedUp (.pf .west) 0x06 (withAuth 0x02 (zeros 8) [])), heard_params (by decide +kernel) (by decide), by decide +kernel, heard_of (by decide +kernel), by decide +kernel, by decide +kernel, withAuth_ok h (by decide) (by decide) rfl rfl (by decide +kernel) (by decide +kernel)⟩,
   ⟨.pf .west, (tokenFor 0x80), (tokenFor 0x80), (heardState (challenged .decommissioned 0x80) (.pf .west) 0x07 (tokenFor 0x80)), heard_params (by decide +kernel) (by decide), by decide +kernel, heard_of (by decide +kernel), by decide +kernel, by decide +kernel, by decide +kernel, token_ok h (by decide +kernel), by decide +kernel⟩,
   ⟨.pf .west, (tokenFor 0x80), (tokenFor 0x80), (heardState ({ (challenged .decommissioned 0x80) with entropy := {} }) (.pf .west) 0x07 (tokenFor 0x80)), heard_params (by decide +kernel) (by decide), by decide +kernel, heard_of (by decide +kernel), by decide +kernel, by decide +kernel, by decide +kernel, token_ok h (by decide +kernel), by decide +kernel⟩,
   ⟨.pf .west, (tokenFor 0x81 ++ leBytes 4 8 ++ zeros 8), (tokenFor 0x81 ++ leBytes 4 8 ++ zeros 8), (heardState (challenged .manufacture 0x81) (.pf .west) 0x0F (tokenFor 0x81 ++ leBytes 4 8 ++ zeros 8)), heard_params (by decide +kernel) (by decide), by decide +kernel, heard_of (by decide +kernel), by decide +kernel, by decide +kernel, by decide +kernel, token_ok h (by decide +kernel), by decide +kernel, by decide +kernel⟩,
   ⟨.pf .west, (tokenFor 0x81 ++ leBytes 4 8 ++ zeros 8), (tokenFor 0x81 ++ leBytes 4 8 ++ zeros 8), (heardState ({ (challenged .manufacture 0x81) with entropy := {} }) (.pf .west) 0x0F (tokenFor 0x81 ++ leBytes 4 8 ++ zeros 8)), heard_params (by decide +kernel) (by decide), by decide +kernel, heard_of (by decide +kernel), by decide +kernel, by decide +kernel, by decide +kernel, token_ok h (by decide +kernel), by decide +kernel, by decide +kernel⟩,
   ⟨.pf .west, (zeros 8), (zeros 8), (heardState { up with boot := { up.boot with lifecycle := .provisioned } } (.pf .west) 0x08 (zeros 8)), heard_params (by decide +kernel) (by decide), by decide +kernel, heard_of (by decide +kernel), by decide +kernel, by decide +kernel, by decide +kernel⟩,
   ⟨.pf .west, (withAuth 0x03 (zeros 8) []), (withAuth 0x03 (zeros 8) []), (heardState signedUp (.pf .west) 0x08 (withAuth 0x03 (zeros 8) [])), heard_params (by decide +kernel) (by decide), by decide +kernel, heard_of (by decide +kernel), by decide +kernel, by decide +kernel, withAuth_ok h (by decide) (by decide) rfl rfl (by decide +kernel) (by decide +kernel)⟩,
   ⟨.pf .west, [], [], (heardState { up with boot := { up.boot with lifecycle := .provisioned } } (.pf .west) 0x06 []), (.decommission (.pf .west) [], 0x06, 0, .owned), by simp, heard_params (by decide +kernel) (by decide), by decide +kernel, heard_of (by decide +kernel), by decide +kernel⟩⟩

theorem witness_IdentityNoncesAndDebugMessages (h : AllPass) :
    (∃ (m : Sender), ∃ (ps : List Byte), ∃ (p : List Byte), ∃ (s : State), p = (s.mailbox m).params ps ∧ Heard s m 0x01 105 ∧ s.boot.lifecycle ≠ .scrapped) ∧
    (∃ (m : Sender), ∃ (ps : List Byte), ∃ (p : List Byte), ∃ (s : State), p = (s.mailbox m).params ps ∧ Heard s m 0x02 20) ∧
    (∃ (m : Sender), ∃ (ps : List Byte), ∃ (p : List Byte), ∃ (k : Nat), ∃ (s : State), ∃ x, p = (s.mailbox m).params ps ∧ s.boot.nonces[k]? = some x ∧ x.at_ + nonceNs ≤ s.now) ∧
    (∃ (m : Sender), ∃ (ps : List Byte), ∃ (p : List Byte), ∃ (k : Nat), ∃ (s : State), ∃ x, p = (s.mailbox m).params ps ∧ s.boot.auths[k]? = some x ∧ x.until_ < s.rtcSec) ∧
    (∃ (m : Sender), ∃ (ps : List Byte), ∃ (p : List Byte), ∃ (s : State), ∃ n, ∃ a, ∃ c, p = (s.mailbox m).params ps ∧ Heard s m 0x03 0 ∧ leAt p 0 4 = n ∧ p.drop (up8 (4 + n)) = a ∧ leAt a 6 2 = c ∧ ((c = 0x10 ∧ n = 2) ∨ (c = 0x12 ∧ n = 1)) ∧ s.authValid s.boot.custodians s.boot.threshold c (p.take (4 + n)) a = true) ∧
    (∃ (m : Sender), ∃ (ps : List Byte), ∃ (p : List Byte), ∃ (s : State), p = (s.mailbox m).params ps ∧ Heard s m 0x05 0 ∧ s.boot.lifecycle = .owned ∧ byteAt p 0 = 1 ∧ allZero (slice p 1 3) = true ∧ 8 + leAt p 4 4 ≤ p.length ∧ Config.primBool .certChainOk [s.boot.ownerRoots, slice p 8 (leAt p 4 4), s.serialBytes, leBytes 32 (s.boot.ssk.getD 0)] = true ∧ (slice p 8 (leAt p 4 4)).length ≤ certRoom) ∧
    (∃ (m : Sender), ∃ (ps : List Byte), ∃ (p : List Byte), ∃ (s : State), p = (s.mailbox m).params ps ∧ Heard s m 0x0C 24 ∧ (byteAt p 0 = 0x01 ∨ byteAt p 0 = 0x80 ∨ byteAt p 0 = 0x81)) ∧
    (∃ (m : Sender), ∃ (ps : List Byte), ∃ (p : List Byte), ∃ (s : State), p = (s.mailbox m).params ps ∧ Heard s m 0x0D 0 ∧ allZero (slice p 17 7) = true ∧ byteAt p 16 = 1 ∧ (s.boot.lifecycle = .provisioned ∨ s.boot.lifecycle = .decommissioned) ∧ s.tokenOk 1 (p.take 16) (slice p 24 96) = true) ∧
    (∃ (m : Sender), ∃ (ps : List Byte), ∃ (p : List Byte), ∃ (s : State), p = (s.mailbox m).params ps ∧ Heard s m 0x0D 0 ∧ allZero (slice p 17 7) = true ∧ byteAt p 16 = 2 ∧ s.boot.lifecycle = .owned ∧ allZero (p.take 16) = true ∧ s.authValid s.boot.custodians s.boot.threshold 0x05 (p.take 24) (p.drop (up8 24)) = true) ∧
    (∃ (m : Sender), ∃ (ps : List Byte), ∃ (p : List Byte), ∃ (s : State), p = (s.mailbox m).params ps ∧ Heard s m 0x0E 0) :=
  ⟨⟨.pf .west, [], [], (heardState up (.pf .west) 0x01 []), heard_params (by decide +kernel) (by decide), heard_of (by decide +kernel), by decide +kernel⟩,
   ⟨.pf .west, [], [], (heardState up (.pf .west) 0x02 []), heard_params (by decide +kernel) (by decide), heard_of (by decide +kernel)⟩,
   ⟨.pf .west, [], [], 0, { up with now := 600000000000, boot := { up.boot with nonces := [{ value := zeros 16, at_ := 0 }] } }, { value := zeros 16, at_ := 0 }, rfl, by decide +kernel, by decide +kernel⟩,
   ⟨.pf .west, [], [], 0, { up with now := 4000000000, boot := { up.boot with auths := [⟨0x10, 5, 3⟩] } }, ⟨0x10, 5, 3⟩, rfl, by decide +kernel, by decide +kernel⟩,
   ⟨.pf .west, (withAuth 0x10 (leBytes 4 2 ++ [5, 0]) [0, 0]), (withAuth 0x10 (leBytes 4 2 ++ [5, 0]) [0, 0]), (heardState signedUp (.pf .west) 0x03 (withAuth 0x10 (leBytes 4 2 ++ [5, 0]) [0, 0])), 2, ((withAuth 0x10 (leBytes 4 2 ++ [5, 0]) [0, 0]).drop 8), 0x10, heard_params (by decide +kernel) (by decide), heard_of (by decide +kernel), by decide +kernel, rfl, by decide +kernel, by decide +kernel, withAuth_ok h (by decide) (by decide) rfl rfl (by decide +kernel) (by decide +kernel)⟩,
   ⟨.pf .west, (leBytes 4 1 ++ leBytes 4 8 ++ zeros 8), (leBytes 4 1 ++ leBytes 4 8 ++ zeros 8), (heardState up (.pf .west) 0x05 (leBytes 4 1 ++ leBytes 4 8 ++ zeros 8)), heard_params (by decide +kernel) (by decide), heard_of (by decide +kernel), by decide +kernel, by decide +kernel, by decide +kernel, by decide +kernel, h _ _, by decide +kernel⟩,
   ⟨.pf .west, [0x81], [0x81], (heardState up (.pf .west) 0x0C [0x81]), heard_params (by decide +kernel) (by decide), heard_of (by decide +kernel), by decide +kernel⟩,
   ⟨.pf .west, (tokenFor 1), (tokenFor 1), (heardState (challenged .decommissioned 1) (.pf .west) 0x0D (tokenFor 1)), heard_params (by decide +kernel) (by decide), heard_of (by decide +kernel), by decide +kernel, by decide +kernel, by decide +kernel, token_ok h (by decide +kernel)⟩,
   ⟨.pf .west, (withAuth 0x05 (zeros 16 ++ [2] ++ zeros 7) []), (withAuth 0x05 (zeros 16 ++ [2] ++ zeros 7) []), (heardState signedUp (.pf .west) 0x0D (withAuth 0x05 (zeros 16 ++ [2] ++ zeros 7) [])), heard_params (by decide +kernel) (by decide), heard_of (by decide +kernel), by decide +kernel, by decide +kernel, by decide +kernel, by decide +kernel, withAuth_ok h (by decide) (by decide) rfl rfl (by decide +kernel) (by decide +kernel)⟩,
   ⟨.pf .west, [], [], (heardState up (.pf .west) 0x0E []), heard_params (by decide +kernel) (by decide), heard_of (by decide +kernel)⟩⟩

theorem witness_FlashAndSlotMessages (h : AllPass) :
    (∃ (m : Sender), ∃ (ps : List Byte), ∃ (p : List Byte), ∃ (s : State), p = (s.mailbox m).params ps ∧ Heard s m 0x09 0 ∧ s.handingOver = false ∧ byteAt p 0 ≤ 3 ∧ byteAt p 1 = 0 ∧ s.boot.floors.getD (byteAt p 0) 0 ≤ leAt p 2 2 ∧ leAt p 2 2 ≤ s.boot.svns.getD (byteAt p 0) 0 ∧ s.boot.lifecycle = .owned ∧ s.authValid s.boot.custodians s.boot.threshold 0x04 (p.take 4) (p.drop (up8 4)) = true) ∧
    (∃ (m : Sender), ∃ (ps : List Byte), ∃ (p : List Byte), ∃ (s : State), p = (s.mailbox m).params ps ∧ Heard s m 0x09 0 ∧ s.handingOver = false ∧ byteAt p 0 ≤ 3 ∧ byteAt p 1 = 0 ∧ leAt p 2 2 < s.boot.floors.getD (byteAt p 0) 0) ∧
    (∃ (m : Sender), ∃ (ps : List Byte), ∃ (p : List Byte), ∃ (s : State), p = (s.mailbox m).params ps ∧ Heard s m 0x0A 0 ∧ leAt p 0 4 % 4096 = 0 ∧ leAt p 4 4 % 4096 = 0 ∧ allZero (slice p 8 8) = true ∧ 16 + leAt p 4 4 ≤ p.length ∧ leAt p 0 4 + leAt p 4 4 ≤ s.flashTop ∧ ((List.range (leAt p 4 4 / 4096)).all fun k => s.writable (leAt p 0 4 + 4096 * k)) = true ∧ (leAt p 4 4 = 0 ∨ 0x02190000 ≤ leAt p 0 4 ∨ leAt p 0 4 + leAt p 4 4 ≤ 0x02090000)) ∧
    (∃ (m : Sender), ∃ (ps : List Byte), ∃ (p : List Byte), ∃ (s : State), p = (s.mailbox m).params ps ∧ Heard s m 0x0B 0 ∧ s.handingOver = false ∧ 1 ≤ byteAt p 0 ∧ byteAt p 0 ≤ 3 ∧ byteAt p 1 ≤ 1) ∧
    (∃ (m : Sender), ∃ (ps : List Byte), ∃ (p : List Byte), ∃ (s : State), p = (s.mailbox m).params ps ∧ Heard s m 0x0B 0 ∧ s.handingOver = false ∧ byteAt p 0 = 0 ∧ byteAt p 1 = 1 ∧ s.imageOk 0 1 = true ∧ s.recovery = false) :=
  ⟨⟨.pf .west, (withAuth 0x04 [3, 0, 7, 0] (zeros 4)), (withAuth 0x04 [3, 0, 7, 0] (zeros 4)), (heardState { signedUp with boot := { signedUp.boot with floors := [0, 0, 0, 7], svns := [0, 0, 0, 7] } } (.pf .west) 0x09 (withAuth 0x04 [3, 0, 7, 0] (zeros 4))), heard_params (by decide +kernel) (by decide), heard_of (by decide +kernel), by decide +kernel, by decide +kernel, by decide +kernel, by decide +kernel, by decide +kernel, by decide +kernel, withAuth_ok h (by decide) (by decide) rfl rfl (by decide +kernel) (by decide +kernel)⟩,
   ⟨.pf .west, [3, 0, 6, 0], [3, 0, 6, 0], (heardState { up with boot := { up.boot with floors := [0, 0, 0, 7] } } (.pf .west) 0x09 [3, 0, 6, 0]), heard_params (by decide +kernel) (by decide), heard_of (by decide +kernel), by decide +kernel, by decide +kernel, by decide +kernel, by decide +kernel⟩,
   ⟨.pf .west, (leBytes 4 0x04000000 ++ leBytes 4 0 ++ zeros 8), (leBytes 4 0x04000000 ++ leBytes 4 0 ++ zeros 8), (heardState up (.pf .west) 0x0A (leBytes 4 0x04000000 ++ leBytes 4 0 ++ zeros 8)), heard_params (by decide +kernel) (by decide), heard_of (by decide +kernel), by and_intros <;> decide +kernel⟩,
   ⟨.pf .west, [3, 1], [3, 1], (heardState up (.pf .west) 0x0B [3, 1]), heard_params (by decide +kernel) (by decide), heard_of (by decide +kernel), by decide +kernel, by decide +kernel, by decide +kernel, by decide +kernel⟩,
   ⟨.pf .west, [0, 1], [0, 1], (heardState imaged (.pf .west) 0x0B [0, 1]), heard_params (by decide +kernel) (by decide), heard_of (by decide +kernel), by decide +kernel, by decide +kernel, by decide +kernel, imaged_ok h, by decide +kernel⟩⟩

theorem witness_HandoversRunTheirPhases (h : AllPass) :
    (∃ (m : Sender), ∃ (ps : List Byte), ∃ (p : List Byte), ∃ (s : State), p = (s.mailbox m).params ps ∧ Heard s m 0x30 0 ∧ byteAt p 0 ≤ 1 ∧ (leAt p 1 2 = 0 ∨ (10 ≤ leAt p 1 2 ∧ leAt p 1 2 ≤ 1000)) ∧ s.imageOk 0 (byteAt p 0) = true ∧ byteAt p 0 ≠ s.curatorSlot ∧ s.stopped = false ∧ s.cont.orphanW = false ∧ s.cont.orphanE = false ∧ s.cfgtx.state ≠ 2 ∧ s.handingOver = false ∧ s.devPolicy.handoverQuorum = false) ∧
    (∃ (m : Sender), ∃ (ps : List Byte), ∃ (p : List Byte), ∃ (s : State), p = (s.mailbox m).params ps ∧ Heard s m 0x31 8) ∧
    (∃ (m : Sender), ∃ (ps : List Byte), ∃ (p : List Byte), ∃ (s : State), p = (s.mailbox m).params ps ∧ s.handover.state = 1) ∧
    (∃ (m : Sender), ∃ (ps : List Byte), ∃ (p : List Byte), ∃ (s : State), p = (s.mailbox m).params ps ∧ s.handover.state = 2 ∧ s.handover.since + 1000000 * s.handover.leadMs ≤ s.now) ∧
    (∃ (m : Sender), ∃ (ps : List Byte), ∃ (p : List Byte), ∃ (s : State), p = (s.mailbox m).params ps ∧ s.handover.state = 3 ∧ s.boot.inReset = false) :=
  ⟨⟨.pf .west, [1, 0xE8, 3], [1, 0xE8, 3], (heardState imaged (.pf .west) 0x30 [1, 0xE8, 3]), heard_params (by decide +kernel) (by decide), heard_of (by decide +kernel), by decide +kernel, by decide +kernel, imaged_ok h, by and_intros <;> decide +kernel⟩,
   ⟨.pf .west, [], [], (heardState up (.pf .west) 0x31 []), heard_params (by decide +kernel) (by decide), heard_of (by decide +kernel)⟩,
   ⟨.pf .west, [], [], { up with handover := { state := 1 } }, rfl, by decide +kernel⟩,
   ⟨.pf .west, [], [], { up with handover := { state := 2, since := 150000000 } }, rfl, by decide +kernel, by decide +kernel⟩,
   ⟨.pf .west, [], [], { up with handover := { state := 3 } }, rfl, by decide +kernel, by decide +kernel⟩⟩

theorem witness_SourcesAndPoolsSample :
    (∃ (k : Nat), ∃ (x : Source), ∃ (s : State), ∃ (u : State), s.sampling = true ∧ s.sourceExists k = true ∧ s.source k = x ∧ (k < 64 → (s.gal (k / 4)).inReset = false) ∧ x.phase = .startup ∧ x.samples < 128 ∧ u = (if s.underTest k then s.rawGap else s)) ∧
    (∃ (k : Nat), ∃ (bit : Bool), ∃ (x : Source), ∃ (s : State), ∃ (u : State), ∃ y, s.sampling = true ∧ s.sourceExists k = true ∧ s.source k = x ∧ (k < 64 → (s.gal (k / 4)).inReset = false) ∧ y = Source.count { x with samples := x.samples + 1, ones := x.ones + b2n bit, sinceAdj := x.sinceAdj + 1 } bit ∧ u = (if s.underTest k then s.rawSample k bit else s) ∧ (x.phase = .healthy ∨ (x.phase = .startup ∧ 128 ≤ x.samples ∧ x.samples < 1152)) ∧ y.failure ≠ 0) ∧
    (∃ (k : Nat), ∃ (bit : Bool), ∃ (x : Source), ∃ (s : State), ∃ (u : State), ∃ y, s.sampling = true ∧ s.sourceExists k = true ∧ s.source k = x ∧ (k < 64 → (s.gal (k / 4)).inReset = false) ∧ y = Source.count { x with samples := x.samples + 1, ones := x.ones + b2n bit, sinceAdj := x.sinceAdj + 1 } bit ∧ u = (if s.underTest k then s.rawSample k bit else s) ∧ x.phase = .healthy ∧ y.failure = 0) ∧
    (∃ (k : Nat), ∃ (x : Source), ∃ (s : State), s.sampling = true ∧ s.sourceExists k = true ∧ s.source k = x ∧ (k < 64 → (s.gal (k / 4)).inReset = false) ∧ x.phase = .healthy ∧ 4096 ≤ x.sinceAdj ∧ x.sinceAdj / 2 < x.ones ∧ 1 < x.trim) ∧
    (∃ (k : Nat), ∃ (x : Source), ∃ (s : State), s.sampling = true ∧ s.sourceExists k = true ∧ s.source k = x ∧ (k < 64 → (s.gal (k / 4)).inReset = false) ∧ x.phase = .healthy ∧ 4096 ≤ x.sinceAdj ∧ x.sinceAdj / 2 < x.ones ∧ x.trim ≤ 1 ∧ x.saturated ≥ 2) ∧
    (∃ (k : Nat), ∃ (x : Source), ∃ (s : State), s.sampling = true ∧ s.sourceExists k = true ∧ s.source k = x ∧ (k < 64 → (s.gal (k / 4)).inReset = false) ∧ x.phase = .startup ∧ 1152 ≤ x.samples) ∧
    (∃ (k : Nat), ∃ (x : Source), ∃ (s : State), ∃ (p : Pool), ∃ (b : List Byte), s.sampling = true ∧ s.sourceExists k = true ∧ s.source k = x ∧ (k < 64 → (s.gal (k / 4)).inReset = false) ∧ 1024 ≤ (s.pool p).taken.length ∧ b = Config.prim (.hash 1) [packBits (s.pool p).taken] 32) ∧
    (∃ (k : Nat), ∃ (x : Source), ∃ (s : State), ∃ (w : Wing), s.sampling = true ∧ s.sourceExists k = true ∧ s.source k = x ∧ (k < 64 → (s.gal (k / 4)).inReset = false) ∧ s.entropyReady w = false ∧ s.reaches w = true ∧ s.wingStarted w = true) :=
  ⟨⟨71, { phase := .startup, samples := 127 }, { up with entropy := { up.entropy with sources := [(71, { phase := .startup, samples := 127 })] } }, { up with entropy := { up.entropy with sources := [(71, { phase := .startup, samples := 127 })] } }, by and_intros <;> decide +kernel⟩,
   ⟨71, true, { phase := .healthy, last := true, run := 80 }, { up with entropy := { up.entropy with sources := [(71, { phase := .healthy, last := true, run := 80 })] } }, { up with entropy := { up.entropy with sources := [(71, { phase := .healthy, last := true, run := 80 })] } }, (Source.count { ({ phase := .healthy, last := true, run := 80 } : Source) with samples := ({ phase := .healthy, last := true, run := 80 } : Source).samples + 1, ones := ({ phase := .healthy, last := true, run := 80 } : Source).ones + b2n true, sinceAdj := ({ phase := .healthy, last := true, run := 80 } : Source).sinceAdj + 1 } true), by decide +kernel, by decide +kernel, by decide +kernel, by decide +kernel, rfl, by decide +kernel, by decide +kernel, by decide +kernel⟩,
   ⟨71, true, { phase := .healthy, last := true, run := 79 }, { up with entropy := { up.entropy with sources := [(71, { phase := .healthy, last := true, run := 79 })] } }, { up with entropy := { up.entropy with sources := [(71, { phase := .healthy, last := true, run := 79 })] } }, (Source.count { ({ phase := .healthy, last := true, run := 79 } : Source) with samples := ({ phase := .healthy, last := true, run := 79 } : Source).samples + 1, ones := ({ phase := .healthy, last := true, run := 79 } : Source).ones + b2n true, sinceAdj := ({ phase := .healthy, last := true, run := 79 } : Source).sinceAdj + 1 } true), by decide +kernel, by decide +kernel, by decide +kernel, by decide +kernel, rfl, by decide +kernel, by decide +kernel, by decide +kernel⟩,
   ⟨71, { phase := .healthy, sinceAdj := 4096, ones := 2049, trim := 2 }, { up with entropy := { up.entropy with sources := [(71, { phase := .healthy, sinceAdj := 4096, ones := 2049, trim := 2 })] } }, by and_intros <;> decide +kernel⟩,
   ⟨71, { phase := .healthy, sinceAdj := 4096, ones := 2049, trim := 1, saturated := 2 }, { up with entropy := { up.entropy with sources := [(71, { phase := .healthy, sinceAdj := 4096, ones := 2049, trim := 1, saturated := 2 })] } }, by and_intros <;> decide +kernel⟩,
   ⟨63, { phase := .startup, samples := 1152 }, { up with entropy := { up.entropy with sources := [(63, { phase := .startup, samples := 1152 })] } }, by and_intros <;> decide +kernel⟩,
   ⟨0, {}, { up with entropy := { up.entropy with sources := [(0, {})], pools := [(0, { taken := List.replicate 1024 true })] } }, .wing .west, (Config.prim (.hash 1) [packBits (List.replicate 1024 true)] 32), by decide +kernel, by decide +kernel, by decide +kernel, by decide +kernel, by decide +kernel, rfl⟩,
   ⟨0, { phase := .healthy }, seededUp, .west, by and_intros <;> decide +kernel⟩⟩

theorem witness_GeneratorsReseedAndRegistersClear :
    (∃ (d : Drbg), ∃ (s : State), (s.drbg d).inst = true ∧ (s.drbg d).wanted = none ∧ (32768 ≤ (s.drbg d).requests ∨ drbgIntervalNs / 2 ≤ s.now - (s.drbg d).reseededAt)) ∧
    (∃ (d : Drbg), ∃ (s : State), (s.drbg d).inst = true ∧ (65536 ≤ (s.drbg d).requests ∨ drbgIntervalNs ≤ s.now - (s.drbg d).reseededAt)) ∧
    (∃ (m : MaskGen), ∃ (s : State), (s.maskGen m).seeded = true ∧ (s.maskGen m).wanted = none ∧ maskReseedNs ≤ s.now - (s.maskGen m).reseededAt) ∧
    (∃ (m : MaskGen), ∃ (s : State), (s.maskGen m).seeded = true ∧ maskStopNs ≤ s.now - (s.maskGen m).reseededAt) ∧
    (∃ (d : Drbg), ∃ (s : State), s.drbgExists d = true ∧ (s.unit (drbgUnit d)).svc ≠ .fenced ∧ s.boot.inReset = false ∧ s.tamper.frozen = false) ∧
    (∃ (n : Nat), ∃ (s : State), ∃ j, ∃ e, ∃ x, ∃ u, ∃ t, s.job n = some j ∧ j.exec = some e ∧ s.specNow j = some x ∧ s.tamper.frozen = false ∧ u = ({ s with entropy := { s.entropy with waits := min (s.entropy.waits + 1) (2 ^ 32 - 1) } }).logEnding n St.entropyUnavailable ∧ e.stage = .waitEntropy t ∧ t + s.waitBudgetNs ≤ s.now ∧ s.supplied n j e x = false) ∧
    (∃ (n : Nat), ∃ (s : State), ∃ j, ∃ e, ∃ x, ∃ u, ∃ t, s.job n = some j ∧ j.exec = some e ∧ s.specNow j = some x ∧ s.tamper.frozen = false ∧ u = ({ s with entropy := { s.entropy with waits := min (s.entropy.waits + 1) (2 ^ 32 - 1) } }).logEnding n St.entropyUnavailable ∧ e.stage = .waitCache t ∧ s.dryFor j e x = true) ∧
    (∃ (n : Nat), ∃ (s : State), ∃ j, ∃ e, ∃ x, ∃ u, s.job n = some j ∧ j.exec = some e ∧ s.specNow j = some x ∧ s.tamper.frozen = false ∧ u = ({ s with entropy := { s.entropy with waits := min (s.entropy.waits + 1) (2 ^ 32 - 1) } }).logEnding n St.entropyUnavailable ∧ e.stage = .waitLeaf ∧ s.dryFor j e x = true) ∧
    (∃ (n : Nat), ∃ (s : State), ∃ j, ∃ e, ∃ x, ∃ u, ∃ g, s.job n = some j ∧ j.exec = some e ∧ s.specNow j = some x ∧ s.tamper.frozen = false ∧ u = ({ s with entropy := { s.entropy with waits := min (s.entropy.waits + 1) (2 ^ 32 - 1) } }).logEnding n St.entropyUnavailable ∧ e.stage = .running ∧ g ∈ s.silentMasks j e ∧ s.maskSince g e.began + s.waitBudgetNs ≤ s.now) ∧
    (∃ (f : Fn), ∃ (v : Word32), ∃ (s : State), Manages s f 0x160018 ∧ bit32 v 31 = true ∧ s.sourceExists (bits32 v 0 7) = true ∧ (s.source (bits32 v 0 7)).phase = .isolated) ∧
    (∃ (f : Fn), ∃ (s : State), ReadsPf s f 0x160014) ∧
    (∃ (f : Fn), ∃ (s : State), ReadsPf s f 0x160028) :=
  ⟨⟨.curator, { up with entropy := { up.entropy with drbgs := [(0, { inst := true, requests := 32768, reseededAt := 200000000 })] } }, by decide +kernel, by decide +kernel, by decide +kernel⟩,
   ⟨.curator, { up with entropy := { up.entropy with drbgs := [(0, { inst := true, reseededAt := 190000000 })] } }, by decide +kernel, by decide +kernel⟩,
   ⟨.gallery 0, { up with entropy := { up.entropy with masks := [(0, { seeded := true, reseededAt := 189514240 })] } }, by decide +kernel, by decide +kernel, by decide +kernel⟩,
   ⟨.gallery 0, { up with entropy := { up.entropy with masks := [(0, { seeded := true, reseededAt := 179028480 })] } }, by decide +kernel, by decide +kernel⟩,
   ⟨.curator, up, by decide +kernel, by decide +kernel, by decide +kernel, by decide +kernel⟩,
   ⟨1, ({ caseState (0x0E01, 0, 0) with now := 200000000 }.putJob 1 ({ caseJob (0x0E01, 0, 0) with phase := .exec, exec := some { stage := .waitEntropy 0 } })), { caseJob (0x0E01, 0, 0) with phase := .exec, exec := some { stage := .waitEntropy 0 } }, { stage := .waitEntropy 0 }, (Option.get (({ caseState (0x0E01, 0, 0) with now := 200000000 }.putJob 1 ({ caseJob (0x0E01, 0, 0) with phase := .exec, exec := some { stage := .waitEntropy 0 } })).specNow ({ caseJob (0x0E01, 0, 0) with phase := .exec, exec := some { stage := .waitEntropy 0 } })) (by decide +kernel)), (State.logEnding { ({ caseState (0x0E01, 0, 0) with now := 200000000 }.putJob 1 ({ caseJob (0x0E01, 0, 0) with phase := .exec, exec := some { stage := .waitEntropy 0 } })) with entropy := { ({ caseState (0x0E01, 0, 0) with now := 200000000 }.putJob 1 ({ caseJob (0x0E01, 0, 0) with phase := .exec, exec := some { stage := .waitEntropy 0 } })).entropy with waits := min (({ caseState (0x0E01, 0, 0) with now := 200000000 }.putJob 1 ({ caseJob (0x0E01, 0, 0) with phase := .exec, exec := some { stage := .waitEntropy 0 } })).entropy.waits + 1) (2 ^ 32 - 1) } } 1 St.entropyUnavailable), 0, by decide +kernel, by decide +kernel, (Option.some_get _).symm, by decide +kernel, rfl, by decide +kernel, by decide +kernel, by decide +kernel⟩,
   ⟨1, ({ caseState (0x0E01, 0, 0) with now := 200000000 }.putJob 1 ({ caseJob (0x0E01, 0, 0) with phase := .exec, exec := some { stage := .waitCache 0 } })), { caseJob (0x0E01, 0, 0) with phase := .exec, exec := some { stage := .waitCache 0 } }, { stage := .waitCache 0 }, (Option.get (({ caseState (0x0E01, 0, 0) with now := 200000000 }.putJob 1 ({ caseJob (0x0E01, 0, 0) with phase := .exec, exec := some { stage := .waitCache 0 } })).specNow ({ caseJob (0x0E01, 0, 0) with phase := .exec, exec := some { stage := .waitCache 0 } })) (by decide +kernel)), (State.logEnding { ({ caseState (0x0E01, 0, 0) with now := 200000000 }.putJob 1 ({ caseJob (0x0E01, 0, 0) with phase := .exec, exec := some { stage := .waitCache 0 } })) with entropy := { ({ caseState (0x0E01, 0, 0) with now := 200000000 }.putJob 1 ({ caseJob (0x0E01, 0, 0) with phase := .exec, exec := some { stage := .waitCache 0 } })).entropy with waits := min (({ caseState (0x0E01, 0, 0) with now := 200000000 }.putJob 1 ({ caseJob (0x0E01, 0, 0) with phase := .exec, exec := some { stage := .waitCache 0 } })).entropy.waits + 1) (2 ^ 32 - 1) } } 1 St.entropyUnavailable), 0, by decide +kernel, by decide +kernel, (Option.some_get _).symm, by decide +kernel, rfl, by decide +kernel, by decide +kernel⟩,
   ⟨1, ({ caseState (0x0E01, 0, 0) with now := 200000000 }.putJob 1 ({ caseJob (0x0E01, 0, 0) with phase := .exec, exec := some { stage := .waitLeaf } })), { caseJob (0x0E01, 0, 0) with phase := .exec, exec := some { stage := .waitLeaf } }, { stage := .waitLeaf }, (Option.get (({ caseState (0x0E01, 0, 0) with now := 200000000 }.putJob 1 ({ caseJob (0x0E01, 0, 0) with phase := .exec, exec := some { stage := .waitLeaf } })).specNow ({ caseJob (0x0E01, 0, 0) with phase := .exec, exec := some { stage := .waitLeaf } })) (by decide +kernel)), (State.logEnding { ({ caseState (0x0E01, 0, 0) with now := 200000000 }.putJob 1 ({ caseJob (0x0E01, 0, 0) with phase := .exec, exec := some { stage := .waitLeaf } })) with entropy := { ({ caseState (0x0E01, 0, 0) with now := 200000000 }.putJob 1 ({ caseJob (0x0E01, 0, 0) with phase := .exec, exec := some { stage := .waitLeaf } })).entropy with waits := min (({ caseState (0x0E01, 0, 0) with now := 200000000 }.putJob 1 ({ caseJob (0x0E01, 0, 0) with phase := .exec, exec := some { stage := .waitLeaf } })).entropy.waits + 1) (2 ^ 32 - 1) } } 1 St.entropyUnavailable), by decide +kernel, by decide +kernel, (Option.some_get _).symm, by decide +kernel, rfl, by decide +kernel, by decide +kernel⟩,
   ⟨1, ({ caseState (0x0C01, 1, 0) with now := 900000000000 }.putJob 1 ({ caseJob (0x0C01, 1, 0) with phase := .exec, exec := some { stage := .running } })), { caseJob (0x0C01, 1, 0) with phase := .exec, exec := some { stage := .running } }, { stage := .running }, (Option.get (({ caseState (0x0C01, 1, 0) with now := 900000000000 }.putJob 1 ({ caseJob (0x0C01, 1, 0) with phase := .exec, exec := some { stage := .running } })).specNow ({ caseJob (0x0C01, 1, 0) with phase := .exec, exec := some { stage := .running } })) (by decide +kernel)), (State.logEnding { ({ caseState (0x0C01, 1, 0) with now := 900000000000 }.putJob 1 ({ caseJob (0x0C01, 1, 0) with phase := .exec, exec := some { stage := .running } })) with entropy := { ({ caseState (0x0C01, 1, 0) with now := 900000000000 }.putJob 1 ({ caseJob (0x0C01, 1, 0) with phase := .exec, exec := some { stage := .running } })).entropy with waits := min (({ caseState (0x0C01, 1, 0) with now := 900000000000 }.putJob 1 ({ caseJob (0x0C01, 1, 0) with phase := .exec, exec := some { stage := .running } })).entropy.waits + 1) (2 ^ 32 - 1) } } 1 St.entropyUnavailable), .gallery 0, by decide +kernel, by decide +kernel, (Option.some_get _).symm, by decide +kernel, rfl, by decide +kernel, by decide +kernel, by decide +kernel⟩,
   ⟨pfW, 0x80000047, { up with entropy := { up.entropy with sources := [(71, { phase := .isolated })] } }, manages_of (by decide +kernel), by decide +kernel, by decide +kernel, by decide +kernel⟩,
   ⟨pfW, up, readsPf_of (by decide +kernel)⟩,
   ⟨pfW, up, readsPf_of (by decide +kernel)⟩⟩

theorem witness_BootRunsItsImages :
    (∃ (s : State), s.boot.inReset = true) ∧
    (∃ (s : State), s.boot.inReset = false ∧ s.boot.stage = 0 ∧ s.cont.linkKeys = true ∧ s.ledger.ready = true) ∧
    (∃ (s : State), s.boot.inReset = false ∧ s.tamper.hold = false ∧ s.boot.stage = 1) ∧
    (∃ (s : State), s.boot.inReset = false ∧ s.tamper.hold = false ∧ s.boot.stage = 2) ∧
    (∃ (s : State), s.boot.inReset = false ∧ s.tamper.hold = false ∧ s.boot.stage = 3) :=
  ⟨⟨State.reset, by decide +kernel⟩,
   ⟨{ up with boot := { up.boot with stage := 0 } }, by decide +kernel, by decide +kernel, by decide +kernel, by decide +kernel⟩,
   ⟨{ up with boot := { up.boot with stage := 1 } }, by decide +kernel, by decide +kernel, by decide +kernel⟩,
   ⟨{ up with boot := { up.boot with stage := 2 } }, by decide +kernel, by decide +kernel, by decide +kernel⟩,
   ⟨{ up with boot := { up.boot with stage := 3 } }, by decide +kernel, by decide +kernel, by decide +kernel⟩⟩

theorem witness_TamperFreezesAndReports :
    (∃ (mv : Nat), ∃ (s : State), (s.boot.inReset = false ∨ 2000 ≤ mv % 4096)) ∧
    (∃ (mv : Nat), ∃ (s : State), s.boot.inReset = true ∧ mv % 4096 < 2000) ∧
    (∃ (t : Trip), ∃ (s : State), s.powerCode = 0 ∧ s.senses t = true) ∧
    (∃ (s : State), 2 ≤ s.powerCode) ∧
    (∃ (s : State), s.powerCode = 1 ∧ s.boot.inReset = false) ∧
    (∃ (t : Trip), ∃ (s : State), s.boot.inReset = false ∧ s.powerCode ≠ 0 ∧ s.senses t = true ∧ underVoltage t = true) ∧
    (∃ (t : Trip), ∃ (s : State), ∃ u, ∃ v, s.boot.inReset = false ∧ s.powerCode ≠ 0 ∧ s.senses t = true ∧ underVoltage t = false ∧ u = (((s.latchClass t.cls).setLive t.cls).raiseAll Cause.tamper).addTrip (s.heldTrip t) ∧ v = (if s.powerCode = 1 then u.assertWake else u) ∧ s.action s.powerCode t.cls = 2) ∧
    (∃ (t : Trip), ∃ (s : State), ∃ u, ∃ v, s.boot.inReset = false ∧ s.powerCode ≠ 0 ∧ s.senses t = true ∧ underVoltage t = false ∧ u = (((s.latchClass t.cls).setLive t.cls).raiseAll Cause.tamper).addTrip (s.heldTrip t) ∧ v = (if s.powerCode = 1 then u.assertWake else u) ∧ s.action s.powerCode t.cls ≠ 2) ∧
    (∃ (t : Trip), ∃ (s : State), s.senses t = false) ∧
    (∃ (s : State), s.boot.inReset = false) ∧
    (∃ (s : State), s.boot.inReset = false ∧ s.tamper.frozen = true) ∧
    (∃ (s : State), ∃ (l : List HeldTrip), s.boot.inReset = false ∧ s.tamper.trips = l ∧ (l ≠ [] ∨ s.tamper.orderDue = true) ∧ (s.tamper.hold = false ∨ (s.boot.stage ≠ 0 ∧ s.recovery = false))) ∧
    (∃ (s : State), s.boot.inReset = false ∧ s.tamper.reportPhase = true) ∧
    (∃ (s : State), s.boot.inReset = false ∧ s.tamper.erasing = true) ∧
    (∃ (die : Die), ∃ (s : State), ∃ d, s.boot.inReset = false ∧ s.tamper.railDips.find? (fun d => d.die == die) = some d ∧ d.at_ + 100000 ≤ s.now) :=
  ⟨⟨2500, up, by decide +kernel⟩,
   ⟨1999, { up with boot := { up.boot with inReset := true } }, by decide +kernel, by decide +kernel⟩,
   ⟨⟨15, 1, 0⟩, { up with boot := { up.boot with inReset := true }, tamper := { up.tamper with order := { actOff := 0x40000000 } } }, by decide +kernel, by decide +kernel⟩,
   ⟨up, by decide +kernel⟩,
   ⟨{ up with power := { up.power with pstate := .standby } }, by decide +kernel, by decide +kernel⟩,
   ⟨⟨0, 0, 500⟩, up, by decide +kernel, by decide +kernel, by decide +kernel, by decide +kernel⟩,
   ⟨⟨15, 1, 0⟩, { up with tamper := { up.tamper with order := { actOp := 0x80000000 } } }, ((((({ up with tamper := { up.tamper with order := { actOp := 0x80000000 } } }).latchClass 15).setLive 15).raiseAll Cause.tamper).addTrip (({ up with tamper := { up.tamper with order := { actOp := 0x80000000 } } }).heldTrip ⟨15, 1, 0⟩)), ((((({ up with tamper := { up.tamper with order := { actOp := 0x80000000 } } }).latchClass 15).setLive 15).raiseAll Cause.tamper).addTrip (({ up with tamper := { up.tamper with order := { actOp := 0x80000000 } } }).heldTrip ⟨15, 1, 0⟩)), by decide +kernel, by decide +kernel, by decide +kernel, by decide +kernel, rfl, rfl, by decide +kernel⟩,
   ⟨⟨15, 1, 0⟩, { up with tamper := { up.tamper with order := { actOp := 0x40000000 } } }, ((((({ up with tamper := { up.tamper with order := { actOp := 0x40000000 } } }).latchClass 15).setLive 15).raiseAll Cause.tamper).addTrip (({ up with tamper := { up.tamper with order := { actOp := 0x40000000 } } }).heldTrip ⟨15, 1, 0⟩)), ((((({ up with tamper := { up.tamper with order := { actOp := 0x40000000 } } }).latchClass 15).setLive 15).raiseAll Cause.tamper).addTrip (({ up with tamper := { up.tamper with order := { actOp := 0x40000000 } } }).heldTrip ⟨15, 1, 0⟩)), by decide +kernel, by decide +kernel, by decide +kernel, by decide +kernel, rfl, rfl, by decide +kernel⟩,
   ⟨⟨15, 1, 0⟩, { up with tamper := { up.tamper with order := { actOp := 0xC0000000 } } }, by decide +kernel⟩,
   ⟨up, by decide +kernel⟩,
   ⟨{ up with tamper := { up.tamper with frozen := true } }, by decide +kernel, by decide +kernel⟩,
   ⟨{ up with tamper := { up.tamper with trips := [⟨⟨15, 1, 0⟩, 3, 1, 0⟩] } }, [⟨⟨15, 1, 0⟩, 3, 1, 0⟩], by decide +kernel, by decide +kernel, by decide +kernel, by decide +kernel⟩,
   ⟨{ up with tamper := { up.tamper with frozen := true, reportPhase := true } }, by decide +kernel, by decide +kernel⟩,
   ⟨{ up with tamper := { up.tamper with erasing := true } }, by decide +kernel, by decide +kernel⟩,
   ⟨.westDie, { up with tamper := { up.tamper with railDips := [⟨.westDie, ⟨⟨0, 0, 500⟩, 3, 1, 0⟩, 0, false⟩] } }, ⟨.westDie, ⟨⟨0, 0, 500⟩, 3, 1, 0⟩, 0, false⟩, by decide +kernel, by decide +kernel, by decide +kernel⟩⟩

theorem witness_StandingOrdersAndTamperMessages (h : AllPass) :
    (∃ (m : Sender), ∃ (ps : List Byte), ∃ (p : List Byte), ∃ (s : State), ∃ u, p = (s.mailbox m).params ps ∧ u = s.conditionsEnd ∧ Heard s m 0x20 0 ∧ (u.tamper.latch.toNat &&& (leAt p 0 4 % 2 ^ 16)) = u.tamper.latch.toNat ∧ u.tamper.evSeq ≤ leAt p 4 4 ∧ (u.tamper.live.toNat &&& (leAt p 0 4 % 2 ^ 16)) = 0 ∧ u.tamper.erased = false ∧ u.tamper.trips = [] ∧ u.tamper.lostFreeze = false ∧ u.boot.lifecycle ≠ .owned) ∧
    (∃ (m : Sender), ∃ (ps : List Byte), ∃ (p : List Byte), ∃ (s : State), ∃ u, p = (s.mailbox m).params ps ∧ u = s.conditionsEnd ∧ Heard s m 0x20 0 ∧ (u.tamper.latch.toNat &&& (leAt p 0 4 % 2 ^ 16)) = u.tamper.latch.toNat ∧ u.tamper.evSeq ≤ leAt p 4 4 ∧ (u.tamper.live.toNat &&& (leAt p 0 4 % 2 ^ 16)) = 0 ∧ u.tamper.erased = false ∧ u.tamper.trips = [] ∧ u.tamper.lostFreeze = false ∧ u.boot.lifecycle = .owned ∧ u.authValid u.boot.custodians u.boot.threshold 0x20 (p.take 8) (p.drop (up8 8)) = true) ∧
    (∃ (m : Sender), ∃ (ps : List Byte), ∃ (p : List Byte), ∃ (s : State), ∃ n, p = (s.mailbox m).params ps ∧ n = 64 + leAt p 16 4 ∧ Heard s m 0x21 0 ∧ orderOk p = true ∧ s.boot.lifecycle ≠ .owned) ∧
    (∃ (m : Sender), ∃ (ps : List Byte), ∃ (p : List Byte), ∃ (s : State), ∃ n, p = (s.mailbox m).params ps ∧ n = 64 + leAt p 16 4 ∧ Heard s m 0x21 0 ∧ orderOk p = true ∧ s.boot.lifecycle = .owned ∧ s.orderSeq (byteAt p 6) < leAt p 8 4 ∧ (byteAt p 6 = 1 → actionsOk p = true) ∧ s.authValid s.boot.custodians s.boot.threshold 0x21 (p.take n) (p.drop (up8 n)) = true) ∧
    (∃ (m : Sender), ∃ (ps : List Byte), ∃ (p : List Byte), ∃ (s : State), p = (s.mailbox m).params ps ∧ Heard s m 0x23 96 ∧ byteAt p 0 = 1) ∧
    (∃ (m : Sender), ∃ (ps : List Byte), ∃ (p : List Byte), ∃ (s : State), p = (s.mailbox m).params ps ∧ Heard s m 0x23 80 ∧ byteAt p 0 = 2) ∧
    (∃ (m : Sender), ∃ (ps : List Byte), ∃ (p : List Byte), ∃ (s : State), p = (s.mailbox m).params ps ∧ Heard s m 0x22 0 ∧ s.tamper.order.hostErase = true) ∧
    (∃ (m : Sender), ∃ (ps : List Byte), ∃ (p : List Byte), ∃ (s : State), p = (s.mailbox m).params ps ∧ Heard s m 0x22 0 ∧ s.tamper.order.hostErase = false ∧ s.boot.lifecycle = .owned ∧ s.authValid s.boot.custodians s.boot.threshold 0x22 (p.take 0) (p.drop (up8 0)) = true) ∧
    (∃ (m : Sender), ∃ (ps : List Byte), ∃ (p : List Byte), ∃ (s : State), ∃ t, ∃ o, p = (s.mailbox m).params ps ∧ s.tamper.heldOrder = some (t, o) ∧ t ≤ s.rtcSec) ∧
    (∃ (m : Sender), ∃ (ps : List Byte), ∃ (p : List Byte), ∃ (s : State), ∃ t, ∃ o, p = (s.mailbox m).params ps ∧ s.tamper.heldSpares = some (t, o) ∧ t ≤ s.rtcSec) :=
  ⟨⟨.pf .west, (leBytes 4 0x0201 ++ leBytes 4 9), (leBytes 4 0x0201 ++ leBytes 4 9), (heardState { ({ up with boot := { up.boot with lifecycle := .provisioned } }) with tamper := { ({ up with boot := { up.boot with lifecycle := .provisioned } }).tamper with latch := 0x0201, evSeq := 9 } } (.pf .west) 0x20 (leBytes 4 0x0201 ++ leBytes 4 9)), (heardState { ({ up with boot := { up.boot with lifecycle := .provisioned } }) with tamper := { ({ up with boot := { up.boot with lifecycle := .provisioned } }).tamper with latch := 0x0201, evSeq := 9 } } (.pf .west) 0x20 (leBytes 4 0x0201 ++ leBytes 4 9)).conditionsEnd, heard_params (by decide +kernel) (by decide), rfl, heard_of (by decide +kernel), by decide +kernel, by decide +kernel, live_and rfl, by decide +kernel, by decide +kernel, by decide +kernel, by decide +kernel⟩,
   ⟨.pf .west, (withAuth 0x20 (leBytes 4 0x0201 ++ leBytes 4 9) []), (withAuth 0x20 (leBytes 4 0x0201 ++ leBytes 4 9) []), (heardState { signedUp with tamper := { signedUp.tamper with latch := 0x0201, evSeq := 9 } } (.pf .west) 0x20 (withAuth 0x20 (leBytes 4 0x0201 ++ leBytes 4 9) [])), (heardState { signedUp with tamper := { signedUp.tamper with latch := 0x0201, evSeq := 9 } } (.pf .west) 0x20 (withAuth 0x20 (leBytes 4 0x0201 ++ leBytes 4 9) [])).conditionsEnd, heard_params (by decide +kernel) (by decide), rfl, heard_of (by decide +kernel), by decide +kernel, by decide +kernel, live_and rfl, by decide +kernel, by decide +kernel, by decide +kernel, by decide +kernel, withAuth_ok h (by decide) (by decide) rfl rfl (by decide +kernel) (by decide +kernel)⟩,
   ⟨.pf .west, (orderFor 1), (orderFor 1), (heardState { up with boot := { up.boot with lifecycle := .provisioned } } (.pf .west) 0x21 (orderFor 1)), 96, heard_params (by decide +kernel) (by decide), by decide +kernel, heard_of (by decide +kernel), by decide +kernel, by decide +kernel⟩,
   ⟨.pf .west, (withAuth 0x21 (orderFor 1) []), (withAuth 0x21 (orderFor 1) []), (heardState signedUp (.pf .west) 0x21 (withAuth 0x21 (orderFor 1) [])), 96, heard_params (by decide +kernel) (by decide), by decide +kernel, heard_of (by decide +kernel), by decide +kernel, by decide +kernel, by decide +kernel, by decide +kernel, withAuth_ok h (by decide) (by decide) rfl rfl (by decide +kernel) (by decide +kernel)⟩,
   ⟨.pf .west, [1], [1], (heardState up (.pf .west) 0x23 [1]), heard_params (by decide +kernel) (by decide), heard_of (by decide +kernel), by decide +kernel⟩,
   ⟨.pf .west, [2], [2], (heardState up (.pf .west) 0x23 [2]), heard_params (by decide +kernel) (by decide), heard_of (by decide +kernel), by decide +kernel⟩,
   ⟨.pf .west, [], [], (heardState { up with tamper := { up.tamper with order := { hostErase := true } } } (.pf .west) 0x22 []), heard_params (by decide +kernel) (by decide), heard_of (by decide +kernel), by decide +kernel⟩,
   ⟨.pf .west, (withAuth 0x22 [] []), (withAuth 0x22 [] []), (heardState signedUp (.pf .west) 0x22 (withAuth 0x22 [] [])), heard_params (by decide +kernel) (by decide), heard_of (by decide +kernel), by decide +kernel, by decide +kernel, withAuth_ok h (by decide) (by decide) rfl rfl (by decide +kernel) (by decide +kernel)⟩,
   ⟨.pf .west, [], [], { up with tamper := { up.tamper with heldOrder := some (0, {}) } }, 0, {}, rfl, by decide +kernel, by decide +kernel⟩,
   ⟨.pf .west, [], [], { up with tamper := { up.tamper with heldSpares := some (0, {}) } }, 0, {}, rfl, by decide +kernel, by decide +kernel⟩⟩

theorem witness_TilesAreReadAndWritten :
    (∃ (t : TileId), ∃ (x : TileFetch), ∃ (s : State), s.tileExists t = true ∧ s.gateUp t.wing = true ∧ s.orphan t.wing = false ∧ (s.fetchStatus t (s.effective t x)).1 = St.ok) ∧
    (∃ (t : TileId), ∃ (x : TileFetch), ∃ (s : State), ∃ st, s.tileExists t = true ∧ s.gateUp t.wing = true ∧ s.orphan t.wing = false ∧ (s.fetchStatus t (s.effective t x)).1 = st ∧ (st = St.storeroomIntegrity ∨ st = St.storeroomStale)) ∧
    (∃ (t : TileId), ∃ (x : TileFetch), ∃ (s : State), s.tileExists t = true ∧ s.gateUp t.wing = true ∧ s.orphan t.wing = false ∧ (s.fetchStatus t (s.effective t x)).1 = St.storeroomMedia ∧ (s.recordFetch t (s.effective t x)).peerServes t = false) ∧
    (∃ (t : TileId), ∃ (x : TileFetch), ∃ (s : State), s.tileExists t = true ∧ s.gateUp t.wing = true ∧ s.orphan t.wing = false ∧ (s.fetchStatus t (s.effective t x)).1 = St.storeroomMedia ∧ (s.recordFetch t (s.effective t x)).peerServes t = true) ∧
    (∃ (t : TileId), ∃ (s : State), s.tileExists t = true ∧ s.gateUp t.wing = true ∧ s.orphan t.wing = true) ∧
    (∃ (t : TileId), ∃ (n : Nat), ∃ (s : State), s.tileExists t = true ∧ s.gateUp t.wing = true ∧ s.orphan t.wing = true ∧ s.orphanReads t n = false) ∧
    (∃ (t : TileId), ∃ (d : List Byte), ∃ (w : TileStore), ∃ (s : State), ∃ u, s.tileExists t = true ∧ s.gateUp t.wing = true ∧ u = (if w.crcErrors ≤ 4 then s.putTile t d else (s.putTile t d).mediaFailure t 0) ∧ d.length ≤ 4096 ∧ s.orphan t.wing = false ∧ u.mirrored t.tile = false) ∧
    (∃ (t : TileId), ∃ (d : List Byte), ∃ (w : TileStore), ∃ (s : State), ∃ u, s.tileExists t = true ∧ s.gateUp t.wing = true ∧ u = (if w.crcErrors ≤ 4 then s.putTile t d else (s.putTile t d).mediaFailure t 0) ∧ d.length ≤ 4096 ∧ s.orphan t.wing = false ∧ u.mirrored t.tile = true ∧ u.orphan (otherWing t.wing) = false ∧ u.gateUp (otherWing t.wing) = true) ∧
    (∃ (t : TileId), ∃ (d : List Byte), ∃ (w : TileStore), ∃ (s : State), ∃ u, s.tileExists t = true ∧ s.gateUp t.wing = true ∧ u = (if w.crcErrors ≤ 4 then s.putTile t d else (s.putTile t d).mediaFailure t 0) ∧ d.length ≤ 4096 ∧ s.orphan t.wing = false ∧ u.mirrored t.tile = true ∧ (u.orphan (otherWing t.wing) = true ∨ u.gateUp (otherWing t.wing) = false)) ∧
    (∃ (t : TileId), ∃ (s : State), s.tileExists t = true ∧ s.gateUp t.wing = true ∧ (s.channel (s.channelOf t)).retiring = false) ∧
    (∃ (t : TileId), ∃ (s : State), ∃ l, ∃ k, ∃ y, s.tileExists t = true ∧ s.gateUp t.wing = true ∧ s.node t.wing l k = y ∧ y.dirtyAt ≠ none ∧ s.orphan t.wing = false ∧ (l = 1 ∨ l = 2)) ∧
    (∃ (t : TileId), ∃ (s : State), ∃ k, s.tileExists t = true ∧ s.gateUp t.wing = true ∧ (s.node t.wing 3 k).dirtyAt ≠ none ∧ s.orphan t.wing = false ∧ s.reaches t.wing = true ∧ (s.storeWing t.wing).rootDue.contains k = false) ∧
    (∃ (t : TileId), ∃ (s : State), ∃ k, ∃ y, s.tileExists t = true ∧ s.gateUp t.wing = true ∧ s.node t.wing 3 k = y ∧ s.orphan t.wing = false ∧ s.reaches t.wing = true ∧ (s.storeWing t.wing).rootDue.contains k = true) ∧
    (∃ (t : TileId), ∃ (s : State), s.tileExists t = true ∧ s.gateUp t.wing = true ∧ s.mirrored t.tile = true ∧ (s.tile t).mediaFailed = true ∧ (s.tile t).version ≠ 0 ∧ s.peerServes t = false) ∧
    (∃ (t : TileId), ∃ (x : TileFetch), ∃ (s : State), ∃ p, ∃ u, s.tileExists t = true ∧ s.gateUp t.wing = true ∧ p = ⟨otherWing t.wing, t.tile⟩ ∧ u = (s.recordFetch p (s.effective p x)).cachePath p ∧ s.mirrored t.tile = true ∧ (s.tile t).unlendable = true ∧ (s.tile t).mediaFailed = false ∧ (s.tile t).version ≠ 0 ∧ s.peerServes t = true ∧ (s.fetchStatus p (s.effective p x)).1 = St.ok ∧ (s.recordFetch p (s.effective p x)).orphan t.wing = false ∧ (s.recordFetch p (s.effective p x)).gateUp t.wing = true) ∧
    (∃ (t : TileId), ∃ (s : State), ∃ (l : Nat), ∃ (k : Nat), s.tileExists t = true ∧ s.gateUp t.wing = true ∧ l ≤ 3 ∧ s.versionAt t.wing l k ≠ 0 ∧ s.store.passStart ≤ s.now ∧ (if l = 0 then (s.tile ⟨t.wing, k⟩).patrolled else (s.node t.wing l k).patrolled) = false) :=
  ⟨⟨⟨.west, 262143⟩, {}, (up.setTile ⟨.west, 262143⟩ { version := 1, echo := 1 }), by decide +kernel, by decide +kernel, by decide +kernel, by decide +kernel⟩,
   ⟨⟨.west, 262143⟩, {}, (up.setTile ⟨.west, 262143⟩ { version := 1 }), St.storeroomStale, by and_intros <;> decide +kernel⟩,
   ⟨⟨.west, 262143⟩, { tile := { media := true } }, { (up.setTile ⟨.west, 262143⟩ { version := 1, echo := 1 }) with cont := { up.cont with wingLink := {} } }, by and_intros <;> decide +kernel⟩,
   ⟨⟨.west, 262143⟩, { tile := { media := true } }, (up.setTile ⟨.west, 262143⟩ { version := 1, echo := 1 }), by and_intros <;> decide +kernel⟩,
   ⟨⟨.west, 262143⟩, { up with cont := { up.cont with orphanW := true } }, by decide +kernel, by decide +kernel, by decide +kernel⟩,
   ⟨⟨.west, 262143⟩, 1, { up with cont := { up.cont with orphanW := true } }, by decide +kernel, by decide +kernel, by decide +kernel, by decide +kernel⟩,
   ⟨⟨.west, 262144⟩, [1], ⟨none, 0⟩, up, (State.putTile up ⟨.west, 262144⟩ [1]), by decide +kernel, by decide +kernel, rfl, by decide +kernel, by decide +kernel, by decide +kernel⟩,
   ⟨⟨.west, 262143⟩, [1], ⟨none, 0⟩, up, (State.putTile up ⟨.west, 262143⟩ [1]), by decide +kernel, by decide +kernel, rfl, by and_intros <;> decide +kernel⟩,
   ⟨⟨.west, 262143⟩, [1], ⟨none, 0⟩, { up with store := { up.store with east := {} } }, (State.putTile { up with store := { up.store with east := {} } } ⟨.west, 262143⟩ [1]), by decide +kernel, by decide +kernel, rfl, by decide +kernel, by decide +kernel, by decide +kernel, by decide +kernel⟩,
   ⟨⟨.west, 262143⟩, up, by decide +kernel, by decide +kernel, by decide +kernel⟩,
   ⟨⟨.west, 262143⟩, (up.setNode .west 1 0 { dirtyAt := some 5 }), 1, 0, { dirtyAt := some 5 }, by and_intros <;> decide +kernel⟩,
   ⟨⟨.west, 262143⟩, (up.setNode .west 3 0 { dirtyAt := some 5 }), 0, by and_intros <;> decide +kernel⟩,
   ⟨⟨.west, 262143⟩, { up with store := { up.store with west := { runStore with rootDue := [0] } } }, 0, {}, by and_intros <;> decide +kernel⟩,
   ⟨⟨.west, 262143⟩, { (up.setTile ⟨.west, 262143⟩ { version := 1, mediaFailed := true }) with cont := {} }, by and_intros <;> decide +kernel⟩,
   ⟨⟨.west, 262143⟩, {}, (up.setTile ⟨.west, 262143⟩ { version := 1, unlendable := true }), ⟨.east, 262143⟩, ((State.recordFetch (up.setTile ⟨.west, 262143⟩ { version := 1, unlendable := true }) ⟨.east, 262143⟩ (State.effective (up.setTile ⟨.west, 262143⟩ { version := 1, unlendable := true }) ⟨.east, 262143⟩ {})).cachePath ⟨.east, 262143⟩), by decide +kernel, by decide +kernel, by decide +kernel, rfl, by and_intros <;> decide +kernel⟩,
   ⟨⟨.west, 262143⟩, (up.setTile ⟨.west, 262143⟩ { version := 1, echo := 1 }), 0, 262143, by and_intros <;> decide +kernel⟩⟩

theorem witness_ChannelsTrainMoveAndRetire :
    (∃ (c : Nat), ∃ (x : ChannelTraining), ∃ (s : State), c < 4 ∧ (s.channel c).state = 1 ∧ (¬ (x.trained = true ∧ x.rate ≤ 4 ∧ (x.density = 16 ∨ x.density = 24 ∨ x.density = 32) ∧ 16 ≤ x.capacityGb ∧ x.capacityGb ≤ 128))) ∧
    (∃ (c : Nat), ∃ (x : ChannelTraining), ∃ (s : State), c < 4 ∧ (s.channel c).state = 1 ∧ x.trained = true ∧ x.rate ≤ 4 ∧ (x.density = 16 ∨ x.density = 24 ∨ x.density = 32) ∧ 16 ≤ x.capacityGb ∧ x.capacityGb ≤ 128) ∧
    (∃ (s : State), ∃ o, s.firstChannel = some o) ∧
    (∃ (w : Wing), ∃ (s : State), (s.storeWing w).initDone = false ∧ (s.storeWing w).tileKey ≠ [] ∧ (s.channel (wingChannel w 0)).state ≠ 1 ∧ (s.channel (wingChannel w 1)).state ≠ 1 ∧ s.wingChannels w ≠ [] ∧ s.stopped = false) ∧
    (∃ (w : Wing), ∃ (s : State), s.store.refresh = true ∧ (s.storeWing w).stale = true ∧ (s.storeWing w).initDone = true ∧ s.tamper.frozen = false) ∧
    (∃ (t : TileId), ∃ (s : State), s.rehomeDue t = true ∧ s.gateUp t.wing = true ∧ s.orphan t.wing = false ∧ (s.tile t).mediaFailed = false ∧ s.sparesOn t.wing (s.channelOf t % 2) ≠ 0) ∧
    (∃ (t : TileId), ∃ (s : State), s.rehomeDue t = true ∧ s.gateUp t.wing = true ∧ s.orphan t.wing = false ∧ s.sparesOn t.wing 0 = 0 ∧ s.sparesOn t.wing 1 = 0) ∧
    (∃ (c : Nat), ∃ (s : State), c < 4 ∧ s.tamper.frozen = false ∧ s.retireUe ≤ ((s.channel c).ueTimes.filter fun a => s.now - a < dayNs).length) ∧
    (∃ (f : Fn), ∃ (v : Word32), ∃ (s : State), Manages s f 0x170060 ∧ bit32 v 31 = true ∧ s.retiring = false ∧ s.channelUp (bits32 v 0 2) = true) ∧
    (∃ (f : Fn), ∃ (v : Word32), ∃ (s : State), Manages s f 0x170060 ∧ bit32 v 31 = true ∧ (s.channelUp (bits32 v 0 2) = false ∨ s.retiring = true)) ∧
    (∃ (c : Nat), ∃ (s : State), ∃ u, (s.channel c).retiring = true ∧ s.tamper.frozen = false ∧ s.gateUp (channelWing c) = true ∧ s.orphan (channelWing c) = false ∧ u = s.forAll ((s.storeWing (channelWing c)).tiles.filter fun p => p.2.version != 0 && s.channelOf ⟨channelWing c, p.1⟩ == c) (fun u p => u.copyOff c ⟨channelWing c, p.1⟩)) ∧
    (∃ (c : Nat), ∃ (s : State), c < 4 ∧ s.channelUp c = true ∧ (s.channel c).failed = false) ∧
    (∃ (c : Nat), ∃ (f : Fn), ∃ (s : State), c < 4 ∧ ReadsPf s f (0x170020 + 4 * c)) ∧
    (∃ (c : Nat), ∃ (f : Fn), ∃ (s : State), c < 4 ∧ ReadsPf s f (0x170030 + 4 * c)) ∧
    (∃ (f : Fn), ∃ (s : State), ReadsPf s f 0x170040) ∧
    (∃ (f : Fn), ∃ (s : State), ReadsPf s f 0x170044) :=
  ⟨⟨3, { trained := false, rate := 4, widthX8 := false, rdimm := false, twoRanks := false, capacityGb := 16, density := 0 }, (up.setChannel 3 { state := 1 }), by decide +kernel, by decide +kernel, by decide +kernel⟩,
   ⟨3, { trained := true, rate := 4, widthX8 := false, rdimm := false, twoRanks := false, capacityGb := 128, density := 16 }, { up with store := { up.store with channels := [(3, { state := 1 })] } }, by and_intros <;> decide +kernel⟩,
   ⟨(up.setChannel 3 { state := 1 }), 0, by decide +kernel⟩,
   ⟨.west, { up with store := { up.store with west := { tileKey := zeros 32 } } }, by and_intros <;> decide +kernel⟩,
   ⟨.west, { up with store := { up.store with refresh := true, west := { runStore with stale := true } } }, by decide +kernel, by decide +kernel, by decide +kernel, by decide +kernel⟩,
   ⟨⟨.west, 262143⟩, { up with store := { up.store with west := { runStore with spares0 := 1, spares1 := 1, tiles := [(262143, { version := 1, ceThisPass := 4 })] } } }, by and_intros <;> decide +kernel⟩,
   ⟨⟨.west, 262143⟩, { up with store := { up.store with west := { runStore with tiles := [(262143, { version := 1, ceThisPass := 4 })] } } }, by and_intros <;> decide +kernel⟩,
   ⟨3, (up.setChannel 3 { state := 2, ueTimes := [199000000, 198000000] }), by decide +kernel, by decide +kernel, by decide +kernel⟩,
   ⟨pfW, 0x80000000, up, manages_of (by decide +kernel), by decide +kernel, by decide +kernel, by decide +kernel⟩,
   ⟨pfW, 0x80000003, up, manages_of (by decide +kernel), by decide +kernel, by decide +kernel⟩,
   ⟨3, (up.setChannel 3 { state := 2, retiring := true }), (up.setChannel 3 { state := 2, retiring := true }), by and_intros <;> decide +kernel⟩,
   ⟨2, up, by decide +kernel, by decide +kernel, by decide +kernel⟩,
   ⟨3, pfW, up, by decide +kernel, readsPf_of (by decide +kernel)⟩,
   ⟨3, pfW, up, by decide +kernel, readsPf_of (by decide +kernel)⟩,
   ⟨pfW, up, readsPf_of (by decide +kernel)⟩,
   ⟨pfW, up, readsPf_of (by decide +kernel)⟩⟩

theorem witness_UnitsAreFencedTestedAndReplaced :
    (∃ (u : UnitId), ∃ (c : Nat), ∃ (x : UnitState), ∃ (s : State), s.boot.inReset = false ∧ s.stopped = false ∧ u.kind ≠ Kind.curator ∧ s.unit u = x ∧ 1 ≤ c ∧ c ≤ 6) ∧
    (∃ (u : UnitId), ∃ (x : UnitState), ∃ (s : State), s.boot.inReset = false ∧ s.stopped = false ∧ u.kind ≠ Kind.curator ∧ s.unit u = x) ∧
    (∃ (u : UnitId), ∃ (x : UnitState), ∃ (s : State), s.boot.inReset = false ∧ s.stopped = false ∧ u.kind ≠ Kind.curator ∧ s.unit u = x ∧ x.svc = .fenced) ∧
    (∃ (u : UnitId), ∃ (x : UnitState), ∃ (s : State), s.boot.inReset = false ∧ s.stopped = false ∧ u.kind ≠ Kind.curator ∧ s.unit u = x ∧ s.unitExists u = true ∧ x.errors ≠ 0 ∧ x.decayAt + s.decaySec * 1000000000 ≤ s.now) ∧
    (∃ (u : UnitId), ∃ (x : UnitState), ∃ (s : State), s.boot.inReset = false ∧ s.stopped = false ∧ u.kind ≠ Kind.curator ∧ s.unit u = x ∧ s.unitExists u = true ∧ x.svc ≠ .fenced) ∧
    (∃ (u : UnitId), ∃ (x : UnitState), ∃ (s : State), s.boot.inReset = false ∧ s.stopped = false ∧ u.kind ≠ Kind.curator ∧ s.unit u = x ∧ s.unitExists u = true ∧ x.svc ≠ .fenced ∧ s.recalDue = true) ∧
    (∃ (u : UnitId), ∃ (c : Nat), ∃ (x : UnitState), ∃ (s : State), ∃ t, ∃ sp, s.boot.inReset = false ∧ s.stopped = false ∧ u.kind ≠ Kind.curator ∧ s.unit u = x ∧ s.cont.promoting.find? (fun c => s.ordersReach (unitOf c).loc) = some (unitCode u) ∧ t = { s with cont := { s.cont with promoting := s.cont.promoting.filter (· != unitCode u) } } ∧ t.spareOf u = some sp) ∧
    (∃ (u : UnitId), ∃ (x : UnitState), ∃ (s : State), s.boot.inReset = false ∧ s.stopped = false ∧ u.kind ≠ Kind.curator ∧ s.unit u = x ∧ x.readmitting = true ∧ s.ordersReach u.loc = true) ∧
    (∃ (u : UnitId), ∃ (x : UnitState), ∃ (s : State), ∃ g, s.boot.inReset = false ∧ s.stopped = false ∧ u.kind ≠ Kind.curator ∧ s.unit u = x ∧ g < 65535) :=
  ⟨⟨⟨0, Kind.lre, 0⟩, 6, {}, up, by and_intros <;> decide +kernel⟩,
   ⟨⟨0, Kind.lre, 0⟩, {}, up, by decide +kernel, by decide +kernel, by decide +kernel, by decide +kernel⟩,
   ⟨⟨0, Kind.lre, 0⟩, { svc := .fenced }, (up.setUnit ⟨0, Kind.lre, 0⟩ { svc := .fenced }), by and_intros <;> decide +kernel⟩,
   ⟨⟨0, Kind.lre, 0⟩, { errors := 1 }, { (up.setUnit ⟨0, Kind.lre, 0⟩ { errors := 1 }) with now := 60000000000 }, by and_intros <;> decide +kernel⟩,
   ⟨⟨0, Kind.lre, 0⟩, {}, up, by and_intros <;> decide +kernel⟩,
   ⟨⟨0, Kind.lre, 0⟩, {}, { up with cont := { up.cont with recalPass := true } }, by and_intros <;> decide +kernel⟩,
   ⟨⟨0, Kind.lre, 0⟩, 6, {}, { up with cont := { up.cont with promoting := [0] } }, up, ⟨0, Kind.lre, 4⟩, by decide +kernel, by decide +kernel, by decide +kernel, by decide +kernel, by decide +kernel, rfl, by decide +kernel⟩,
   ⟨⟨0, Kind.lre, 0⟩, { svc := .fenced, readmitting := true }, (up.setUnit ⟨0, Kind.lre, 0⟩ { svc := .fenced, readmitting := true }), by and_intros <;> decide +kernel⟩,
   ⟨⟨0, Kind.lre, 0⟩, {}, up, 65534, by and_intros <;> decide +kernel⟩⟩

theorem witness_ConservationRegistersAndGalleryResets :
    (∃ (f : Fn), ∃ (v : Word32), ∃ (u : UnitId), ∃ (s : State), u = unitOf (bits32 v 0 18) ∧ s.stopped = false ∧ Manages s f 0x140028 ∧ bit32 v 31 = true ∧ u.kind ≠ Kind.curator ∧ s.unitExists u = true) ∧
    (∃ (f : Fn), ∃ (v : Word32), ∃ (u : UnitId), ∃ (s : State), u = unitOf (bits32 v 0 18) ∧ s.stopped = false ∧ Manages s f 0x14002C ∧ bit32 v 31 = true ∧ u.kind ≠ Kind.curator ∧ s.unitExists u = true ∧ (s.unit u).svc = .fenced) ∧
    (∃ (f : Fn), ∃ (v : Word32), ∃ (u : UnitId), ∃ (s : State), ∃ l, u = unitOf (bits32 v 0 18) ∧ s.stopped = false ∧ Manages s f 0x140024 ∧ bit32 v 31 = true ∧ u.kind ≠ Kind.curator ∧ s.unitExists u = true ∧ s.cont.asks = unitCode u :: l) ∧
    (∃ (f : Fn), ∃ (v : Word32), ∃ (u : UnitId), ∃ (s : State), u = unitOf (bits32 v 0 18) ∧ s.stopped = false ∧ Manages s f 0x140024 ∧ bit32 v 31 = true ∧ u.kind ≠ Kind.curator ∧ s.unitExists u = true ∧ s.cont.asks.head? ≠ some (unitCode u)) ∧
    (∃ (f : Fn), ∃ (v : Word32), ∃ (u : UnitId), ∃ (s : State), u = unitOf (bits32 v 0 18) ∧ s.stopped = false ∧ Manages s f 0x14003C ∧ bit32 v 0 = true) ∧
    (∃ (f : Fn), ∃ (v : Word32), ∃ (u : UnitId), ∃ (s : State), u = unitOf (bits32 v 0 18) ∧ s.stopped = false ∧ Manages s f 0x140040 ∧ bit32 v 31 = true ∧ s.present (bits32 v 0 4) = true) ∧
    (∃ (v : Word32), ∃ (u : UnitId), ∃ (g : Nat), ∃ (s : State), u = unitOf (bits32 v 0 18) ∧ s.stopped = false ∧ s.present g = true ∧ s.ordersReach g = true ∧ (s.gal g).inReset = false ∧ (s.gal g).resetOrdered = true ∧ s.boot.inReset = false) ∧
    (∃ (v : Word32), ∃ (u : UnitId), ∃ (g : Nat), ∃ (s : State), u = unitOf (bits32 v 0 18) ∧ s.stopped = false ∧ (s.gal g).inReset = true) ∧
    (∃ (f : Fn), ∃ (v : Word32), ∃ (u : UnitId), ∃ (s : State), u = unitOf (bits32 v 0 18) ∧ s.stopped = false ∧ ReadsPf s f 0x140010) ∧
    (∃ (f : Fn), ∃ (v : Word32), ∃ (u : UnitId), ∃ (s : State), u = unitOf (bits32 v 0 18) ∧ s.stopped = false ∧ ReadsPf s f 0x14001C) ∧
    (∃ (f : Fn), ∃ (v : Word32), ∃ (u : UnitId), ∃ (s : State), u = unitOf (bits32 v 0 18) ∧ s.stopped = false ∧ ReadsPf s f 0x140038) ∧
    (∃ (v : Word32), ∃ (u : UnitId), ∃ (g : Nat), ∃ (s : State), u = unitOf (bits32 v 0 18) ∧ s.stopped = false ∧ s.unitExists u = true ∧ g ≠ (s.unit u).gen) ∧
    (∃ (v : Word32), ∃ (u : UnitId), ∃ (s : State), u = unitOf (bits32 v 0 18) ∧ s.stopped = false ∧ s.cfgtx.toLoad.contains (unitCode u) = true) ∧
    (∃ (v : Word32), ∃ (u : UnitId), ∃ (g : Nat), ∃ (s : State), ∃ n, u = unitOf (bits32 v 0 18) ∧ s.stopped = false ∧ (s.gal g).repartition = some n ∧ s.repartitioning g = true ∧ s.ordersReach g = true ∧ (s.work.grants.any fun x => x.res == .bigNumber g) = false) :=
  ⟨⟨pfW, 0x80000000, ⟨0, Kind.lre, 0⟩, up, by decide +kernel, by decide +kernel, manages_of (by decide +kernel), by decide +kernel, by decide +kernel, by decide +kernel⟩,
   ⟨pfW, 0x80000000, ⟨0, Kind.lre, 0⟩, (up.setUnit ⟨0, Kind.lre, 0⟩ { svc := .fenced }), by decide +kernel, by decide +kernel, manages_of (by decide +kernel), by decide +kernel, by decide +kernel, by decide +kernel, by decide +kernel⟩,
   ⟨pfW, 0x80000000, ⟨0, Kind.lre, 0⟩, { up with cont := { up.cont with asks := [0] } }, [], by decide +kernel, by decide +kernel, manages_of (by decide +kernel), by decide +kernel, by decide +kernel, by decide +kernel, by decide +kernel⟩,
   ⟨pfW, 0x80000000, ⟨0, Kind.lre, 0⟩, up, by decide +kernel, by decide +kernel, manages_of (by decide +kernel), by decide +kernel, by decide +kernel, by decide +kernel, by decide +kernel⟩,
   ⟨pfW, 1, ⟨1, 0, 0⟩, up, by decide +kernel, by decide +kernel, manages_of (by decide +kernel), by decide +kernel⟩,
   ⟨pfW, 0x8000000F, ⟨15, 0, 0⟩, up, by decide +kernel, by decide +kernel, manages_of (by decide +kernel), by decide +kernel, by decide +kernel⟩,
   ⟨0x80000000, ⟨0, Kind.lre, 0⟩, 15, (up.setGal 15 { resetOrdered := true }), by and_intros <;> decide +kernel⟩,
   ⟨0x80000000, ⟨0, Kind.lre, 0⟩, 15, (up.setGal 15 { inReset := true }), by decide +kernel, by decide +kernel, by decide +kernel⟩,
   ⟨pfW, 0x80000000, ⟨0, Kind.lre, 0⟩, up, by decide +kernel, by decide +kernel, readsPf_of (by decide +kernel)⟩,
   ⟨pfW, 0x80000000, ⟨0, Kind.lre, 0⟩, up, by decide +kernel, by decide +kernel, readsPf_of (by decide +kernel)⟩,
   ⟨pfW, 0x80000000, ⟨0, Kind.lre, 0⟩, up, by decide +kernel, by decide +kernel, readsPf_of (by decide +kernel)⟩,
   ⟨0x80000000, ⟨0, Kind.lre, 0⟩, 0, up, by decide +kernel, by decide +kernel, by decide +kernel, by decide +kernel⟩,
   ⟨0x80000000, ⟨0, Kind.lre, 0⟩, { up with cfgtx := { up.cfgtx with toLoad := [0] } }, by decide +kernel, by decide +kernel, by decide +kernel⟩,
   ⟨0x80000000, ⟨0, Kind.lre, 0⟩, 15, (up.setGal 15 { repartition := some 2 }), 2, by and_intros <;> decide +kernel⟩⟩

theorem witness_LinksVotesAndSplits :
    (∃ (k : Nat), ∃ (o : Vote), ∃ (s : State), s.boot.inReset = false ∧ s.cont.vote = .triple ∧ o.dissenter = some k ∧ k < 3) ∧
    (∃ (s : State), s.boot.inReset = false ∧ s.cont.vote = .dual) ∧
    (∃ (s : State), s.boot.inReset = false ∧ s.tamper.frozen = false ∧ (s.cont.vote = .lost ∨ (s.cont.orphanW = true ∧ s.cont.orphanE = true) ∨ (s.cont.linkKeys = true ∧ s.cont.curW.up = false ∧ s.cont.curE.up = false))) ∧
    (∃ (l : Link), ∃ (s : State), s.boot.inReset = false ∧ s.cont.linkKeys = true ∧ (s.link l).up = true) ∧
    (∃ (l : Link), ∃ (e : LinkEnd), ∃ (s : State), s.boot.inReset = false ∧ (s.link l).up = true ∧ (s.link l).rx e + 8000 ≤ s.runNs) ∧
    (∃ (l : Link), ∃ (s : State), s.boot.inReset = false ∧ (s.link l).up = false ∧ s.cont.linkKeys = true ∧ (s.link l).cleanSince = none ∧ (s.link l).lastRetrain + 1000000 ≤ s.runNs ∧ (s.link l).key ≠ none) ∧
    (∃ (l : Link), ∃ (s : State), s.boot.inReset = false ∧ (s.link l).up = false ∧ s.cont.linkKeys = true ∧ (s.link l).cleanSince = none ∧ (s.link l).lastRetrain + 1000000 ≤ s.runNs ∧ (s.link l).key = none ∧ s.drbgOk .curator = true) ∧
    (∃ (l : Link), ∃ (s : State), ∃ t, s.boot.inReset = false ∧ (s.link l).cleanSince = some t ∧ s.runNs < (s.link l).rxFirst + 8000 ∧ s.runNs < (s.link l).rxSecond + 8000 ∧ (s.link l).up = false ∧ t + 10000000 ≤ s.runNs) ∧
    (∃ (w : Wing), ∃ (s : State), s.boot.inReset = false ∧ s.orphan w = false ∧ s.reaches w = false ∧ s.cont.linkKeys = true) ∧
    (∃ (w : Wing), ∃ (s : State), s.boot.inReset = false ∧ s.orphan w = true ∧ s.halted w = false ∧ s.returning w = false ∧ (∀ p ∈ s.loanList, p.2.wing = w → p.2.from_ + p.2.leaseNs ≤ s.runNs)) ∧
    (∃ (w : Wing), ∃ (s : State), s.boot.inReset = false ∧ s.stopped = false ∧ s.hasCurator w = true) ∧
    (∃ (w : Wing), ∃ (s : State), s.boot.inReset = false ∧ s.orphan w = true ∧ s.returning w = false ∧ s.pathStable w = true ∧ s.drbgOk .curator = true ∧ s.stopped = false) :=
  ⟨⟨2, ⟨some 2⟩, up, by decide +kernel, by decide +kernel, by decide +kernel, by decide +kernel⟩,
   ⟨{ up with cont := { up.cont with vote := .dual } }, by decide +kernel, by decide +kernel⟩,
   ⟨{ up with cont := { up.cont with orphanW := true, orphanE := true } }, by decide +kernel, by decide +kernel, by decide +kernel⟩,
   ⟨.wingLink, up, by decide +kernel, by decide +kernel, by decide +kernel⟩,
   ⟨.wingLink, .second, { up with cont := { up.cont with wingLink := { runLink with rxSecond := 199992000 } } }, by decide +kernel, by decide +kernel, by decide +kernel⟩,
   ⟨.wingLink, { up with cont := { up.cont with wingLink := { lastRetrain := 199000000, key := some [] } } }, by and_intros <;> decide +kernel⟩,
   ⟨.wingLink, { up with cont := { up.cont with wingLink := { lastRetrain := 199000000 } }, entropy := { up.entropy with drbgs := [(0, { inst := true })] } }, by and_intros <;> decide +kernel⟩,
   ⟨.wingLink, { up with cont := { up.cont with wingLink := { cleanSince := some 190000000, rxFirst := 199992001, rxSecond := 199992001 } } }, 190000000, by and_intros <;> decide +kernel⟩,
   ⟨.west, { up with cont := { up.cont with curW := {}, wingLink := {} } }, by decide +kernel, by decide +kernel, by decide +kernel, by decide +kernel⟩,
   ⟨.west, { up with cont := { up.cont with orphanW := true } }, by and_intros <;> decide +kernel⟩,
   ⟨.west, up, by decide +kernel, by decide +kernel, by decide +kernel⟩,
   ⟨.west, { up with cont := { up.cont with orphanW := true, curW := { runLink with upAt := 100000000 } }, entropy := { up.entropy with drbgs := [(0, { inst := true })] } }, by and_intros <;> decide +kernel⟩⟩

theorem witness_TransactionsBeginCommitAndEnd :
    (∃ (b : TxWriter), ∃ (s : State), ∃ c, (∀ f, b = .host f → Manages s f 0x110000) ∧ (∀ w, b = .supervisor w → s.supervisorUp w = true) ∧ s.boot.inReset = false ∧ s.cfgtx.state = 0 ∧ txCode b = some c) ∧
    (∃ (b : TxWriter), ∃ (s : State), ∃ f, (∀ f, b = .host f → Manages s f 0x110000) ∧ (∀ w, b = .supervisor w → s.supervisorUp w = true) ∧ s.boot.inReset = false ∧ b = .host f ∧ s.cfgtx.state ≠ 0 ∧ (txCode b).isSome = true) ∧
    (∃ (b : TxWriter), ∃ (s : State), (∀ f, b = .host f → Manages s f 0x110000) ∧ (∀ w, b = .supervisor w → s.supervisorUp w = true) ∧ s.boot.inReset = false ∧ s.cfgtx.state ≠ 0 ∧ txCode b = some s.cfgtx.owner) ∧
    (∃ (b : TxWriter), ∃ (s : State), ∃ f, (∀ f, b = .host f → Manages s f 0x110000) ∧ (∀ w, b = .supervisor w → s.supervisorUp w = true) ∧ s.boot.inReset = false ∧ s.ownsTx b = false ∧ b = .host f) ∧
    (∃ (b : TxWriter), ∃ (l : Option (List Byte)), ∃ (s : State), ∃ x, ∃ i, ∃ d, (∀ f, b = .host f → Manages s f 0x110000) ∧ (∀ w, b = .supervisor w → s.supervisorUp w = true) ∧ s.boot.inReset = false ∧ s.ownsTx b = true ∧ s.stopped = false ∧ s.handingOver = false ∧ s.cfgtx.listBytes l = some x ∧ s.drawBases x = d ∧ d.2.validate x d.1 = .ok i) ∧
    (∃ (b : TxWriter), ∃ (l : Option (List Byte)), ∃ (s : State), ∃ x, ∃ st, ∃ at_, ∃ d, (∀ f, b = .host f → Manages s f 0x110000) ∧ (∀ w, b = .supervisor w → s.supervisorUp w = true) ∧ s.boot.inReset = false ∧ s.ownsTx b = true ∧ s.stopped = false ∧ s.handingOver = false ∧ s.cfgtx.listBytes l = some x ∧ s.drawBases x = d ∧ d.2.validate x d.1 = .error (st, at_) ∧ st ≠ St.badProgram) ∧
    (∃ (b : TxWriter), ∃ (s : State), (∀ f, b = .host f → Manages s f 0x110000) ∧ (∀ w, b = .supervisor w → s.supervisorUp w = true) ∧ s.boot.inReset = false ∧ s.ownsTx b = true ∧ s.stopped = false ∧ s.handingOver = true) ∧
    (∃ (b : TxWriter), ∃ (s : State), (∀ f, b = .host f → Manages s f 0x110000) ∧ (∀ w, b = .supervisor w → s.supervisorUp w = true) ∧ s.boot.inReset = false ∧ s.cfgtx.state = 1 ∧ s.cfgtx.lastWrite + bits32 s.cfgtx.cfg 16 10 * 1000000000 ≤ s.now) ∧
    (∃ (b : TxWriter), ∃ (s : State), (∀ f, b = .host f → Manages s f 0x110000) ∧ (∀ w, b = .supervisor w → s.supervisorUp w = true) ∧ s.boot.inReset = false ∧ s.cfgtx.state = 2 ∧ s.cfgtx.retire = false ∧ s.cfgtx.drained = false ∧ s.drainEmpty = false ∧ s.cfgtx.commitAt + bits32 s.cfgtx.cfg 0 10 * 1000000 ≤ s.runNs) ∧
    (∃ (b : TxWriter), ∃ (s : State), (∀ f, b = .host f → Manages s f 0x110000) ∧ (∀ w, b = .supervisor w → s.supervisorUp w = true) ∧ s.boot.inReset = false ∧ s.cfgtx.state = 2 ∧ s.drainEmpty = true ∧ s.stopped = false ∧ s.microcodeItem = false ∧ s.cfgtx.toLoad = []) :=
  ⟨⟨.host pfW, up, 0, (by intro f h; cases h; exact manages_of (by decide +kernel)), (by intro w h; cases h), by decide +kernel, by decide +kernel, by decide +kernel⟩,
   ⟨.host pfW, { up with cfgtx := { up.cfgtx with state := 1, owner := 0 } }, pfW, (by intro f h; cases h; exact manages_of (by decide +kernel)), (by intro w h; cases h), by decide +kernel, by decide +kernel, by decide +kernel, by decide +kernel⟩,
   ⟨.host pfW, { up with cfgtx := { up.cfgtx with state := 1, owner := 0 } }, (by intro f h; cases h; exact manages_of (by decide +kernel)), (by intro w h; cases h), by decide +kernel, by decide +kernel, by decide +kernel⟩,
   ⟨.host pfW, up, pfW, (by intro f h; cases h; exact manages_of (by decide +kernel)), (by intro w h; cases h), by decide +kernel, by decide +kernel, by decide +kernel⟩,
   ⟨.host pfW, none, { up with cfgtx := { up.cfgtx with state := 1, owner := 0 } }, [], [], (State.drawBases { up with cfgtx := { up.cfgtx with state := 1, owner := 0 } } []), (by intro f h; cases h; exact manages_of (by decide +kernel)), (by intro w h; cases h), by decide +kernel, by decide +kernel, by decide +kernel, by decide +kernel, by decide +kernel, rfl, rfl⟩,
   ⟨.host pfW, none, { up with cfgtx := { up.cfgtx with state := 1, owner := 0, itemsLo := 1 } }, [], St.inputRange, 0x110010, (State.drawBases { up with cfgtx := { up.cfgtx with state := 1, owner := 0, itemsLo := 1 } } []), (by intro f h; cases h; exact manages_of (by decide +kernel)), (by intro w h; cases h), by decide +kernel, by decide +kernel, by decide +kernel, by decide +kernel, by decide +kernel, rfl, rfl, by decide +kernel⟩,
   ⟨.host pfW, { up with cfgtx := { up.cfgtx with state := 1, owner := 0 }, handover := { state := 1 } }, (by intro f h; cases h; exact manages_of (by decide +kernel)), (by intro w h; cases h), by decide +kernel, by decide +kernel, by decide +kernel, by decide +kernel⟩,
   ⟨.host pfW, { up with now := 10000000000, cfgtx := { up.cfgtx with state := 1, owner := 0 } }, (by intro f h; cases h; exact manages_of (by decide +kernel)), (by intro w h; cases h), by decide +kernel, by decide +kernel, by decide +kernel⟩,
   ⟨.host pfW, { (up.putJob 1 { oneIns 0 with progNo := some 3 }) with cfgtx := { up.cfgtx with state := 2, owner := 0, commitAt := 190000000, items := [.programRemove 3] } }, (by intro f h; cases h; exact manages_of (by decide +kernel)), (by intro w h; cases h), by and_intros <;> decide +kernel⟩,
   ⟨.host pfW, { up with cfgtx := { up.cfgtx with state := 2, owner := 0 } }, (by intro f h; cases h; exact manages_of (by decide +kernel)), (by intro w h; cases h), by and_intros <;> decide +kernel⟩⟩

theorem witness_DocentQueuesAndUnitsOperate (b : List Byte) (h : ((Config.collPolicy b 0).cores.contains 7) = true) :
    (∃ (w : Wing), ∃ (c : Nat), ∃ (q : Nat), ∃ (user : Bool), ∃ (t : BitVec 16), ∃ (s : State), c < 8 ∧ s.coreUp w c = true ∧ s.csrAllowed w c q user = true ∧ (s.docQueue w c q).tailRefused (s.inFlight (.docent w c q)) t.toNat = false) ∧
    (∃ (w : Wing), ∃ (c : Nat), ∃ (q : Nat), ∃ (user : Bool), ∃ (t : BitVec 16), ∃ (s : State), c < 8 ∧ s.coreUp w c = true ∧ s.csrAllowed w c q user = true ∧ (s.docQueue w c q).tailRefused (s.inFlight (.docent w c q)) t.toNat = true) ∧
    (∃ (w : Wing), ∃ (c : Nat), ∃ (q : Nat), ∃ (user : Bool), ∃ (s : State), c < 8 ∧ s.coreUp w c = true ∧ s.csrAllowed w c q user = false) ∧
    (∃ (w : Wing), ∃ (c : Nat), ∃ (q : Nat), ∃ (user : Bool), ∃ (t : BitVec 16), ∃ (s : State), ∃ d, d = s.docQueue w c q ∧ c < 8 ∧ s.coreUp w c = true ∧ s.csrAllowed w c q user = true ∧ t.toNat < d.depth ∧ ringCount d.depth d.q.cqHead t.toNat ≤ ringCount d.depth d.q.cqHead d.q.cqTail) ∧
    (∃ (w : Wing), ∃ (c : Nat), ∃ (q : Nat), ∃ (s : State), ∃ d, d = s.docQueue w c q ∧ c < 8 ∧ q < 16 ∧ s.coreUp w c = true ∧ d.on = false) ∧
    (∃ (w : Wing), ∃ (c : Nat), ∃ (q : Nat), ∃ (v : Word32), ∃ (s : State), ∃ d, d = s.docQueue w c q ∧ c < 8 ∧ q < 16 ∧ s.coreUp w c = true ∧ d.on = false ∧ bit32 v 0 = true ∧ s.dqEnableOk w c v = true) ∧
    (∃ (w : Wing), ∃ (c : Nat), ∃ (q : Nat), ∃ (v : Word32), ∃ (s : State), ∃ d, d = s.docQueue w c q ∧ c < 8 ∧ q < 16 ∧ s.coreUp w c = true ∧ d.on = false ∧ bit32 v 0 = true ∧ s.dqEnableOk w c v = false) ∧
    (∃ (w : Wing), ∃ (c : Nat), ∃ (q : Nat), ∃ (v : Word32), ∃ (s : State), ∃ d, d = s.docQueue w c q ∧ c < 8 ∧ q < 16 ∧ s.coreUp w c = true ∧ d.on = true ∧ bit32 v 0 = false) ∧
    (∃ (w : Wing), ∃ (c : Nat), ∃ (s : State), c < 8 ∧ s.coreUp w c = false) ∧
    (∃ (w : Wing), ∃ (n : Nat), ∃ (off : Nat), ∃ (s : State), n < 8 ∧ off < 8 ∧ s.coreUp w n = true ∧ bit32 ((s.au w n).slots.getD off 0) 31 = false) ∧
    (∃ (w : Wing), ∃ (c : Nat), ∃ (n : Nat), ∃ (off : Nat), ∃ (s : State), n < 8 ∧ c < 10 ∧ off < 0x1000 ∧ s.coreUp w n = true ∧ mayWriteUnit n c = false) ∧
    (∃ (w : Wing), ∃ (n : Nat), ∃ (v : Word32), ∃ (s : State), n ≤ 8 ∧ s.docentUp w = true ∧ bit32 v 0 = true) ∧
    (∃ (w : Wing), ∃ (n : Nat), ∃ (s : State), n ≤ 8 ∧ s.masterUp w n = true) ∧
    (∃ (n : Nat), ∃ (f : Fn), ∃ (s : State), n < 20 ∧ Manages s f (0x120100 + 16 * n)) ∧
    (∃ (s : State), s.boot.inReset = false) :=
  ⟨⟨.west, 7, 15, true, 1, (up.setDocQueue .west 7 15 { ctrl := 0x00010003, q := { cqTail := 1 } }), by decide +kernel, by decide +kernel, by decide +kernel, by decide +kernel⟩,
   ⟨.west, 7, 15, true, 2, (up.setDocQueue .west 7 15 { ctrl := 0x00010003, q := { cqTail := 1 } }), by decide +kernel, by decide +kernel, by decide +kernel, by decide +kernel⟩,
   ⟨.west, 7, 15, true, up, by decide +kernel, by decide +kernel, by decide +kernel⟩,
   ⟨.west, 7, 15, true, 1, (up.setDocQueue .west 7 15 { ctrl := 0x00010003, q := { cqTail := 1 } }), { ctrl := 0x00010003, q := { cqTail := 1 } }, by and_intros <;> decide +kernel⟩,
   ⟨.west, 7, 15, up, {}, by and_intros <;> decide +kernel⟩,
   ⟨.west, 7, 15, 0x000A0001, { up with boot := { up.boot with policyBody := some b } }, {}, rfl, by decide +kernel, by decide +kernel, rfl, rfl, by decide +kernel, h⟩,
   ⟨.west, 7, 15, 0x000B0001, up, {}, by and_intros <;> decide +kernel⟩,
   ⟨.west, 7, 15, 0, (up.setDocQueue .west 7 15 { ctrl := 0x00010003, q := { cqTail := 1 } }), { ctrl := 0x00010003, q := { cqTail := 1 } }, by and_intros <;> decide +kernel⟩,
   ⟨.west, 7, { up with docW := {} }, by decide +kernel, by decide +kernel⟩,
   ⟨.west, 7, 7, up, by decide +kernel, by decide +kernel, by decide +kernel, by decide +kernel⟩,
   ⟨.west, 8, 7, 0xFFC, up, by and_intros <;> decide +kernel⟩,
   ⟨.west, 8, 1, up, by decide +kernel, by decide +kernel, by decide +kernel⟩,
   ⟨.west, 7, up, by decide +kernel, by decide +kernel⟩,
   ⟨19, pfW, up, by decide +kernel, manages_of (by decide +kernel)⟩,
   ⟨up, by decide +kernel⟩⟩

theorem witness_DocentMastersAccessMemory :
    (∃ (w : Wing), ∃ (c : Nat), ∃ (x : Access), ∃ (s : State), ∃ m, ∃ o, x.len ≠ 0 ∧ (m = c ∧ c < 8 ∧ s.coreUp w c = true) ∧ s.auCheck w m x.op x.addr x.len (x.user && m < 8) = .ok (.shared o) ∧ x.op = .read) ∧
    (∃ (w : Wing), ∃ (c : Nat), ∃ (x : Access), ∃ (s : State), ∃ m, ∃ o, x.len ≠ 0 ∧ (m = c ∧ c < 8 ∧ s.coreUp w c = true) ∧ s.auCheck w m x.op x.addr x.len (x.user && m < 8) = .ok (.shared o) ∧ x.op = .write) ∧
    (∃ (w : Wing), ∃ (c : Nat), ∃ (x : Access), ∃ (s : State), ∃ m, ∃ k, ∃ i, x.len ≠ 0 ∧ (m = c ∧ c < 8 ∧ s.coreUp w c = true) ∧ s.auCheck w m x.op x.addr x.len (x.user && m < 8) = .error (k, i) ∧ x.op = .read) ∧
    (∃ (w : Wing), ∃ (x : Access), ∃ (s : State), ∃ o, x.len ≠ 0 ∧ s.docentUp w = true ∧ (x.len ≤ 256 ∨ (x.len = 4096 ∧ x.addr % 4096 = 0)) ∧ s.auCheck w 8 x.op x.addr x.len false = .ok (.shared o) ∧ x.op = .write) ∧
    (∃ (w : Wing), ∃ (x : Access), ∃ (s : State), ∃ o, x.len ≠ 0 ∧ s.docentUp w = true ∧ (x.len ≤ 256 ∨ (x.len = 4096 ∧ x.addr % 4096 = 0)) ∧ s.auCheck w 8 x.op x.addr x.len false = .ok (.shared o) ∧ x.op = .read) ∧
    (∃ (w : Wing), ∃ (c : Nat), ∃ (x : Access), ∃ (s : State), ∃ o, x.len ≠ 0 ∧ s.boot.inReset = false ∧ s.auCheck w 9 x.op x.addr x.len false = .ok (.local_ c o) ∧ x.op = .read) ∧
    (∃ (w : Wing), ∃ (c : Nat), ∃ (x : Access), ∃ (g : GateOutcome), ∃ (s : State), ∃ o, ∃ st, x.len ≠ 0 ∧ s.coreUp w c = true ∧ c < 8 ∧ s.auCheck w c x.op x.addr x.len (x.user && c < 8) = .ok (.store o) ∧ x.op = .read ∧ s.storeFail w o x.len false g = some st) :=
  ⟨⟨.west, 7, ⟨.read, 0x00FFFFFF, 1, [1], false⟩, (up.setAu .west 7 { windows := [{ base := 0x00800000, ctrl := 23687 }] }), 7, 0x7FFFFF, by decide +kernel, by decide +kernel, rfl, by decide +kernel⟩,
   ⟨.west, 7, ⟨.write, 0x00FFFFFF, 1, [1], false⟩, (up.setAu .west 7 { windows := [{ base := 0x00800000, ctrl := 23687 }] }), 7, 0x7FFFFF, by decide +kernel, by decide +kernel, rfl, by decide +kernel⟩,
   ⟨.west, 7, ⟨.read, 0x00FFFFFF, 2, [1], false⟩, (up.setAu .west 7 { windows := [{ base := 0x00800000, ctrl := 23687 }] }), 7, 1, 31, by decide +kernel, by decide +kernel, rfl, by decide +kernel⟩,
   ⟨.west, ⟨.write, 0x00800000, 256, [1], false⟩, (up.setAu .west 8 { windows := [{ base := 0x00800000, ctrl := 23687 }] }), 0, by decide +kernel, by decide +kernel, by decide +kernel, rfl, by decide +kernel⟩,
   ⟨.west, ⟨.read, 0x00800000, 4096, [1], false⟩, (up.setAu .west 8 { windows := [{ base := 0x00800000, ctrl := 23687 }] }), 0, by decide +kernel, by decide +kernel, by decide +kernel, rfl, by decide +kernel⟩,
   ⟨.west, 0, ⟨.read, 0x0003FFFF, 1, [1], false⟩, (up.setAu .west 9 { windows := [{ base := 0x00000000, ctrl := 18439 }] }), 0x3FFFF, by decide +kernel, by decide +kernel, rfl, by decide +kernel⟩,
   ⟨.west, 7, ⟨.read, 0x000FFFF0, 16, [1], false⟩, .stale, (up.setAu .west 7 { windows := [{ base := 0x00000000, ctrl := 20871 }] }), 0xFFFF0, St.storeroomStale, by decide +kernel, by decide +kernel, by decide +kernel, rfl, by decide +kernel, by decide +kernel⟩⟩

theorem witness_StoredBytesAreReadBack :
    (∃ (s : State), s.Inv) ∧
    (∃ (o : Nat), ∃ (a : Nat), ∃ (l : List Byte), ∃ (s : State), s.Inv ∧ (a < o ∨ o + l.length ≤ a)) ∧
    (∃ (c : Nat), ∃ (o : Nat), ∃ (a : Nat), ∃ (l : List Byte), ∃ (s : State), s.Inv ∧ (a < c * 2 ^ 18 + o ∨ c * 2 ^ 18 + o + l.length ≤ a)) ∧
    (∃ (n : Nat), ∃ (o : Nat), ∃ (l : List Byte), ∃ (s : State), s.Inv ∧ n < 2 ∧ 0x100 ≤ o ∧ o + l.length ≤ 0x200) ∧
    (∃ (n : Nat), ∃ (o : Nat), ∃ (a : Nat), ∃ (l : List Byte), ∃ (s : State), s.Inv ∧ n < 2 ∧ 0x100 ≤ o ∧ o + l.length ≤ 0x200 ∧ (a < o - 0x100 ∨ o - 0x100 + l.length ≤ a)) :=
  ⟨⟨up, (by unfold State.Inv; decide +kernel)⟩,
   ⟨0x10, 0x12, [1, 2], up, (by unfold State.Inv; decide +kernel), by decide +kernel⟩,
   ⟨7, 0x10, 0x1C000F, [1, 2], up, (by unfold State.Inv; decide +kernel), by decide +kernel⟩,
   ⟨1, 0x1FE, [1, 2], up, (by unfold State.Inv; decide +kernel), by decide +kernel, by decide +kernel, by decide +kernel⟩,
   ⟨1, 0x1FE, 0xFD, [1, 2], up, (by unfold State.Inv; decide +kernel), by decide +kernel, by decide +kernel, by decide +kernel, by decide +kernel⟩⟩

theorem witness_CardSlotsTakeTheirCommands :
    (∃ (n : Nat), ∃ (c : Card), ∃ (s : State), n < 2 ∧ s.card n = c ∧ c.present = false) ∧
    (∃ (n : Nat), ∃ (c : Card), ∃ (s : State), n < 2 ∧ s.card n = c ∧ c.present = true ∧ c.busy = true ∧ c.state ≠ .present) ∧
    (∃ (n : Nat), ∃ (c : Card), ∃ (s : State), n < 2 ∧ s.card n = c ∧ c.present = true ∧ c.busy = false ∧ c.state = .present) ∧
    (∃ (n : Nat), ∃ (c : Card), ∃ (s : State), n < 2 ∧ s.card n = c ∧ c.busy = false ∧ c.present = true ∧ c.state = .present) ∧
    (∃ (n : Nat), ∃ (c : Card), ∃ (s : State), n < 2 ∧ s.card n = c ∧ c.busy = false ∧ c.present = false) ∧
    (∃ (n : Nat), ∃ (c : Card), ∃ (s : State), n < 2 ∧ s.card n = c ∧ c.busy = false) ∧
    (∃ (n : Nat), ∃ (c : Card), ∃ (s : State), n < 2 ∧ s.card n = c ∧ c.busy = false ∧ c.state = .active) ∧
    (∃ (n : Nat), ∃ (c : Card), ∃ (s : State), n < 2 ∧ s.card n = c ∧ c.busy = false ∧ (c.state = .active ∨ c.state = .sleep)) ∧
    (∃ (n : Nat), ∃ (c : Card), ∃ (s : State), n < 2 ∧ s.card n = c ∧ c.busy = false ∧ c.state ≠ .active ∧ c.state ≠ .sleep) ∧
    (∃ (n : Nat), ∃ (c : Card), ∃ (s : State), n < 2 ∧ s.card n = c ∧ c.busy = false ∧ c.state = .active ∧ c.clkStopMode ≠ 0) ∧
    (∃ (n : Nat), ∃ (c : Card), ∃ (s : State), n < 2 ∧ s.card n = c ∧ c.busy = false ∧ c.state = .sleep) ∧
    (∃ (n : Nat), ∃ (c : Card), ∃ (s : State), n < 2 ∧ s.card n = c ∧ (c.state = .active ∨ c.state = .activating) ∧ c.toSend = none) ∧
    (∃ (n : Nat), ∃ (c : Card), ∃ (s : State), n < 2 ∧ s.card n = c ∧ (c.state = .active ∨ c.state = .activating) ∧ c.toSend ≠ none) ∧
    (∃ (n : Nat), ∃ (c : Card), ∃ (s : State), n < 2 ∧ s.card n = c ∧ c.busy = true) ∧
    (∃ (n : Nat), ∃ (c : Card), ∃ (s : State), n < 2 ∧ s.card n = c) :=
  ⟨⟨0, {  }, ((up).setCard 0 {  }), by decide +kernel, by decide +kernel, by decide +kernel⟩,
   ⟨0, { present := true, state := .active, busy := true, phase := .proc }, ((up).setCard 0 { present := true, state := .active, busy := true, phase := .proc }), by and_intros <;> decide +kernel⟩,
   ⟨0, { present := true, state := .present }, ((up).setCard 0 { present := true, state := .present }), by and_intros <;> decide +kernel⟩,
   ⟨0, { present := true, state := .present }, ((up).setCard 0 { present := true, state := .present }), by and_intros <;> decide +kernel⟩,
   ⟨0, {  }, ((up).setCard 0 {  }), by decide +kernel, by decide +kernel, by decide +kernel, by decide +kernel⟩,
   ⟨0, { present := true, state := .active }, ((up).setCard 0 { present := true, state := .active }), by decide +kernel, by decide +kernel, by decide +kernel⟩,
   ⟨0, { present := true, state := .active }, ((up).setCard 0 { present := true, state := .active }), by decide +kernel, by decide +kernel, by decide +kernel, by decide +kernel⟩,
   ⟨0, { present := true, state := .sleep }, ((up).setCard 0 { present := true, state := .sleep }), by decide +kernel, by decide +kernel, by decide +kernel, by decide +kernel⟩,
   ⟨0, { present := true, state := .present }, ((up).setCard 0 { present := true, state := .present }), by and_intros <;> decide +kernel⟩,
   ⟨0, { present := true, state := .active, clkStopMode := 1 }, ((up).setCard 0 { present := true, state := .active, clkStopMode := 1 }), by and_intros <;> decide +kernel⟩,
   ⟨0, { present := true, state := .sleep }, ((up).setCard 0 { present := true, state := .sleep }), by decide +kernel, by decide +kernel, by decide +kernel, by decide +kernel⟩,
   ⟨0, { present := true, state := .active, busy := true, phase := .proc }, ((up).setCard 0 { present := true, state := .active, busy := true, phase := .proc }), by decide +kernel, by decide +kernel, by decide +kernel, by decide +kernel⟩,
   ⟨0, { present := true, state := .active, busy := true, phase := .header }, ((up).setCard 0 { present := true, state := .active, busy := true, phase := .header }), by decide +kernel, by decide +kernel, by decide +kernel, by decide +kernel⟩,
   ⟨0, { present := true, state := .activating, busy := true, phase := .atr }, ((up).setCard 0 { present := true, state := .activating, busy := true, phase := .atr }), by decide +kernel, by decide +kernel, by decide +kernel⟩,
   ⟨0, { result := 3 }, ((up).setCard 0 { result := 3 }), by decide +kernel, by decide +kernel⟩⟩

theorem witness_CardCharactersAndTimes :
    (∃ (n : Nat), ∃ (c : Card), ∃ (b : Byte), ∃ (s : State), n < 2 ∧ s.card n = c ∧ c.busy = true ∧ c.aborting = false ∧ c.phase = .proc ∧ b = 0x60) ∧
    (∃ (n : Nat), ∃ (c : Card), ∃ (b : Byte), ∃ (s : State), n < 2 ∧ s.card n = c ∧ c.busy = true ∧ c.aborting = false ∧ c.phase = .proc ∧ (b.toNat / 16 = 6 ∨ b.toNat / 16 = 9) ∧ b ≠ 0x60 ∧ b ≠ c.ins ∧ b ≠ c.ins ^^^ 0xFF) ∧
    (∃ (n : Nat), ∃ (c : Card), ∃ (s : State), n < 2 ∧ s.card n = c ∧ c.busy = true ∧ c.aborting = false ∧ c.phase = .sw2 ∧ c.endAfter = false) ∧
    (∃ (n : Nat), ∃ (c : Card), ∃ (s : State), n < 2 ∧ s.card n = c ∧ c.busy = true ∧ c.aborting = false ∧ c.phase = .data true ∧ c.receives = true) ∧
    (∃ (n : Nat), ∃ (c : Card), ∃ (s : State), n < 2 ∧ s.card n = c ∧ c.busy = true ∧ c.phase = .proc ∧ c.repeats < c.retries) ∧
    (∃ (n : Nat), ∃ (c : Card), ∃ (s : State), n < 2 ∧ s.card n = c ∧ c.busy = true ∧ c.phase = .proc ∧ c.retries ≤ c.repeats) ∧
    (∃ (n : Nat), ∃ (c : Card), ∃ (s : State), n < 2 ∧ s.card n = c ∧ c.busy = true ∧ c.aborting = false ∧ c.phase = .header ∧ c.sent < 3) ∧
    (∃ (n : Nat), ∃ (c : Card), ∃ (s : State), n < 2 ∧ s.card n = c ∧ c.busy = true ∧ c.aborting = false ∧ c.phase = .header ∧ c.sent = 4) ∧
    (∃ (n : Nat), ∃ (c : Card), ∃ (s : State), n < 2 ∧ s.card n = c ∧ c.busy = true ∧ c.aborting = false ∧ c.phase = .header ∧ c.sent < 5 ∧ c.retries ≤ c.repeats) ∧
    (∃ (n : Nat), ∃ (c : Card), ∃ (s : State), n < 2 ∧ s.card n = c ∧ c.phase = .vcc ∧ c.since + 1000000 ≤ s.now) ∧
    (∃ (n : Nat), ∃ (c : Card), ∃ (s : State), n < 2 ∧ s.card n = c ∧ c.phase = .atr ∧ c.atr ≠ [] ∧ c.since + 9600 * 372 * c.clkNs ≤ s.now) ∧
    (∃ (n : Nat), ∃ (c : Card), ∃ (s : State), n < 2 ∧ s.card n = c ∧ c.cls = 2) ∧
    (∃ (n : Nat), ∃ (c : Card), ∃ (s : State), n < 2 ∧ s.card n = c ∧ c.phase = .offHold ∧ c.present = true ∧ c.since + 10000000 ≤ s.now) ∧
    (∃ (n : Nat), ∃ (c : Card), ∃ (s : State), n < 2 ∧ s.card n = c ∧ c.inTpdu = true ∧ c.since + c.wtNs ≤ s.now) ∧
    (∃ (n : Nat), ∃ (c : Card), ∃ (s : State), n < 2 ∧ s.card n = c ∧ c.state = .deactivating ∧ c.next = 0) :=
  ⟨⟨0, { present := true, state := .active, busy := true, phase := .proc }, 0x60, ((up).setCard 0 { present := true, state := .active, busy := true, phase := .proc }), by and_intros <;> decide +kernel⟩,
   ⟨0, { present := true, state := .active, busy := true, phase := .proc }, 0x90, ((up).setCard 0 { present := true, state := .active, busy := true, phase := .proc }), by and_intros <;> decide +kernel⟩,
   ⟨0, { present := true, state := .active, busy := true, phase := .sw2 }, ((up).setCard 0 { present := true, state := .active, busy := true, phase := .sw2 }), by and_intros <;> decide +kernel⟩,
   ⟨0, { present := true, state := .active, busy := true, phase := .data true, p3 := 0x101 }, ((up).setCard 0 { present := true, state := .active, busy := true, phase := .data true, p3 := 0x101 }), by and_intros <;> decide +kernel⟩,
   ⟨0, { present := true, state := .active, busy := true, phase := .proc }, ((up).setCard 0 { present := true, state := .active, busy := true, phase := .proc }), by and_intros <;> decide +kernel⟩,
   ⟨0, { present := true, state := .active, busy := true, phase := .proc, repeats := 7 }, ((up).setCard 0 { present := true, state := .active, busy := true, phase := .proc, repeats := 7 }), by and_intros <;> decide +kernel⟩,
   ⟨0, { present := true, state := .active, busy := true, phase := .header, sent := 2 }, ((up).setCard 0 { present := true, state := .active, busy := true, phase := .header, sent := 2 }), by and_intros <;> decide +kernel⟩,
   ⟨0, { present := true, state := .active, busy := true, phase := .header, sent := 4 }, ((up).setCard 0 { present := true, state := .active, busy := true, phase := .header, sent := 4 }), by and_intros <;> decide +kernel⟩,
   ⟨0, { present := true, state := .active, busy := true, phase := .header, repeats := 7 }, ((up).setCard 0 { present := true, state := .active, busy := true, phase := .header, repeats := 7 }), by and_intros <;> decide +kernel⟩,
   ⟨0, { present := true, busy := true, state := .activating, phase := .vcc }, ((up).setCard 0 { present := true, busy := true, state := .activating, phase := .vcc }), by decide +kernel, by decide +kernel, by decide +kernel, by decide +kernel⟩,
   ⟨0, { present := true, busy := true, state := .activating, phase := .atr, atr := [0x3B] }, (({ up with now := 100000000000 }).setCard 0 { present := true, busy := true, state := .activating, phase := .atr, atr := [0x3B] }), by and_intros <;> decide +kernel⟩,
   ⟨0, { present := true, busy := true, state := .activating, phase := .atr, cls := 2 }, ((up).setCard 0 { present := true, busy := true, state := .activating, phase := .atr, cls := 2 }), by decide +kernel, by decide +kernel, by decide +kernel⟩,
   ⟨0, { present := true, busy := true, state := .activating, phase := .offHold }, ((up).setCard 0 { present := true, busy := true, state := .activating, phase := .offHold }), by and_intros <;> decide +kernel⟩,
   ⟨0, { present := true, state := .active, busy := true, phase := .proc }, (({ up with now := 100000000000 }).setCard 0 { present := true, state := .active, busy := true, phase := .proc }), by decide +kernel, by decide +kernel, by decide +kernel, by decide +kernel⟩,
   ⟨0, { state := .deactivating }, ((up).setCard 0 { state := .deactivating }), by decide +kernel, by decide +kernel, by decide +kernel, by decide +kernel⟩⟩

theorem witness_ClocksPinsTimersAndLinksAct :
    (∃ (d : Die), ∃ (x : ClockDie), ∃ (s : State), s.clockDie d = x ∧ s.boot.inReset = false ∧ x.xtalDelayed = false ∧ x.xtalStart + 500000 * 2 ^ (s.boot.straps.toNat % 8) ≤ s.now) ∧
    (∃ (d : Die), ∃ (x : ClockDie), ∃ (s : State), s.clockDie d = x ∧ s.boot.inReset = false) ∧
    (∃ (d : Die), ∃ (x : ClockDie), ∃ (s : State), s.clockDie d = x ∧ d ≠ .curatorDie ∧ x.source = .clkref ∧ x.xtalOk = true) ∧
    (∃ (d : Die), ∃ (x : ClockDie), ∃ (s : State), s.clockDie d = x ∧ d ≠ .curatorDie ∧ x.source = .clkref ∧ x.xtalOk = false) ∧
    (∃ (d : Die), ∃ (x : ClockDie), ∃ (s : State), ∃ (w : ClockWindow), s.clockDie d = x ∧ s.boot.inReset = false ∧ 30 ≤ w.watchMhz ∧ w.watchMhz ≤ 70) ∧
    (∃ (d : Die), ∃ (x : ClockDie), ∃ (p : Nat), ∃ (s : State), s.clockDie d = x ∧ 900 ≤ p ∧ p ≤ 1100) ∧
    (∃ (d : Die), ∃ (x : ClockDie), ∃ (s : State), ∃ t, ∃ b, s.clockDie d = x ∧ s.boot.inReset = false ∧ x.wanted = some (t, b)) ∧
    (∃ (d : Die), ∃ (x : ClockDie), ∃ (s : State), s.clockDie d = x ∧ x.source = .switching .clkref ∧ x.clkrefOk = true ∧ d ≠ .curatorDie) ∧
    (∃ (d : Die), ∃ (x : ClockDie), ∃ (s : State), s.clockDie d = x ∧ x.source = .switching .xtal ∧ x.xtalOk = true ∧ d = .curatorDie) ∧
    (∃ (d : Die), ∃ (x : ClockDie), ∃ (f : Fn), ∃ (s : State), s.clockDie d = x ∧ Manages s f 0x15000C) ∧
    (∃ (d : Die), ∃ (x : ClockDie), ∃ (s : State), s.clockDie d = x ∧ x.source = .xtal ∧ x.clkrefOk = true) ∧
    (∃ (d : Die), ∃ (x : ClockDie), ∃ (s : State), s.clockDie d = x ∧ s.boot.inReset = false ∧ bit32 s.power.cfg 0 = true ∧ x.clkrefSince + 100000000 ≤ s.now) ∧
    (∃ (w : Wing), ∃ (d : DocentWing), ∃ (s : State), s.doc w = d ∧ s.docentUp w = true) ∧
    (∃ (w : Wing), ∃ (k : Nat), ∃ (d : DocentWing), ∃ (s : State), s.doc w = d ∧ k < 8 ∧ s.boot.inReset = false ∧ s.lowPower = false) ∧
    (∃ (w : Wing), ∃ (k : Nat), ∃ (d : DocentWing), ∃ (s : State), s.doc w = d ∧ k < 8 ∧ s.boot.inReset = false ∧ d.timerCount s.now = d.compares.getD k 0) ∧
    (∃ (w : Wing), ∃ (d : DocentWing), ∃ (s : State), s.doc w = d ∧ s.boot.inReset = false ∧ s.rtcSec = d.rtcCompare) ∧
    (∃ (w : Wing), ∃ (d : DocentWing), ∃ (s : State), s.doc w = d ∧ s.portAnswers w = true ∧ s.lowPower = false) :=
  ⟨⟨.westDie, {  }, (up.setClockDie .westDie {  }), by decide +kernel, by decide +kernel, by decide +kernel, by decide +kernel⟩,
   ⟨.westDie, { source := .clkref, clkrefOk := true, xtalOk := true }, (up.setClockDie .westDie { source := .clkref, clkrefOk := true, xtalOk := true }), by decide +kernel, by decide +kernel⟩,
   ⟨.westDie, { source := .clkref, clkrefOk := true, xtalOk := true }, (up.setClockDie .westDie { source := .clkref, clkrefOk := true, xtalOk := true }), by decide +kernel, by decide +kernel, by decide +kernel, by decide +kernel⟩,
   ⟨.westDie, { source := .clkref, clkrefOk := true }, (up.setClockDie .westDie { source := .clkref, clkrefOk := true }), by decide +kernel, by decide +kernel, by decide +kernel, by decide +kernel⟩,
   ⟨.westDie, {  }, (up.setClockDie .westDie {  }), ⟨1000, 1000, 50⟩, by decide +kernel, by decide +kernel, by decide +kernel, by decide +kernel⟩,
   ⟨.westDie, {  }, 900, (up.setClockDie .westDie {  }), by decide +kernel, by decide +kernel, by decide +kernel⟩,
   ⟨.westDie, { clkrefOk := true }, (up.setClockDie .westDie { clkrefOk := true }), .clkref, false, by decide +kernel, by decide +kernel, by decide +kernel⟩,
   ⟨.westDie, { source := .switching .clkref, clkrefOk := true }, (up.setClockDie .westDie { source := .switching .clkref, clkrefOk := true }), by decide +kernel, by decide +kernel, by decide +kernel, by decide +kernel⟩,
   ⟨.curatorDie, { source := .switching .xtal, xtalOk := true }, (up.setClockDie .curatorDie { source := .switching .xtal, xtalOk := true }), by decide +kernel, by decide +kernel, by decide +kernel, by decide +kernel⟩,
   ⟨.westDie, { source := .xtal, clkrefOk := true, xtalOk := true }, pfW, (up.setClockDie .westDie { source := .xtal, clkrefOk := true, xtalOk := true }), by decide +kernel, manages_of (by decide +kernel)⟩,
   ⟨.westDie, { source := .xtal, clkrefOk := true, xtalOk := true }, (up.setClockDie .westDie { source := .xtal, clkrefOk := true, xtalOk := true }), by decide +kernel, by decide +kernel, by decide +kernel⟩,
   ⟨.westDie, {}, { (up.setClockDie .westDie {}) with power := { (up.setClockDie .westDie {}).power with cfg := 0xA01 } }, by decide +kernel, by decide +kernel, by decide +kernel, by decide +kernel⟩,
   ⟨.west, { running := true }, up, by decide +kernel, by decide +kernel⟩,
   ⟨.west, 7, { running := true }, up, by decide +kernel, by decide +kernel, by decide +kernel, by decide +kernel⟩,
   ⟨.west, 0, { running := true, compares := [DocentWing.timerCount { running := true } 200000000, 0, 0, 0, 0, 0, 0, 0] }, (up.setDoc .west { running := true, compares := [DocentWing.timerCount { running := true } 200000000, 0, 0, 0, 0, 0, 0, 0] }), by decide +kernel, by decide +kernel, by decide +kernel, by decide +kernel⟩,
   ⟨.west, { running := true }, up, by decide +kernel, by decide +kernel, by decide +kernel⟩,
   ⟨.west, { running := true }, up, by decide +kernel, by decide +kernel, by decide +kernel⟩⟩

theorem witness_PowerStatesThrottlesAndTime :
    (∃ (w : Wing), ∃ (s : State), s.boot.inReset = false ∧ s.lowPower = false ∧ s.wingBusy w = false ∧ s.selfTesting w = false ∧ s.quietSince w + 1000 * max 1 (bits32 s.power.cfg 8 8) ≤ s.now) ∧
    (∃ (f : Fn), ∃ (s : State), Reaches s f ∧ isPf f = true ∧ s.reportOnly f.port = false ∧ s.recovery = false ∧ s.mgmt f = true ∧ (s.power.pstate = .active ∨ s.power.pstate = .idle) ∧ s.power.draining = none ∧ s.standbyBarred = true) ∧
    (∃ (f : Fn), ∃ (s : State), Reaches s f ∧ isPf f = true ∧ s.reportOnly f.port = false ∧ s.recovery = false ∧ s.mgmt f = true ∧ (s.power.pstate = .active ∨ s.power.pstate = .idle) ∧ s.power.draining = none ∧ s.standbyBarred = false) ∧
    (∃ (f : Fn), ∃ (s : State), Reaches s f ∧ isPf f = true ∧ s.reportOnly f.port = false ∧ s.recovery = false ∧ s.mgmt f = true ∧ (s.power.pstate = .active ∨ s.power.pstate = .idle)) ∧
    (∃ (f : Fn), ∃ (s : State), Reaches s f ∧ isPf f = true ∧ s.reportOnly f.port = false ∧ s.recovery = false ∧ s.mgmt f = true ∧ s.power.pstate = .standby) ∧
    (∃ (f : Fn), ∃ (s : State), Reaches s f ∧ isPf f = true ∧ s.reportOnly f.port = false ∧ s.recovery = false ∧ s.mgmt f = true ∧ s.power.pstate = .thermalHold ∧ 90 ≤ s.hottest) ∧
    (∃ (s : State), ∃ t, s.power.draining = some t ∧ t + 100000000 ≤ s.now ∧ s.workInFlight = true) ∧
    (∃ (s : State), ∃ t, s.power.draining = some t ∧ s.boot.inReset = false ∧ s.standbyBarred = false ∧ s.workInFlight = false) ∧
    (∃ (k : Nat), ∃ (s : State), s.boot.inReset = false ∧ s.capLimit < k ∧ s.power.capShare = [16, 16, 16]) ∧
    (∃ (k : Nat), ∃ (s : State), s.boot.inReset = false ∧ k ≤ s.capLimit ∧ s.power.capShare = [16, 16, 15]) ∧
    (∃ (k : Nat), ∃ (s : State), ∃ l, l = (k :: s.power.estimates).take 100) ∧
    (∃ (s : State), ∃ a, ∃ b, ∃ c, ∃ u, s.boot.inReset = false ∧ u = { s with power := { s.power with tempW := a, tempE := b, tempC := c } } ∧ a < 105 ∧ b < 105 ∧ c < 105) ∧
    (∃ (s : State), ∃ a, ∃ b, ∃ c, ∃ u, s.boot.inReset = false ∧ u = { s with power := { s.power with tempW := a, tempE := b, tempC := c } } ∧ (105 ≤ a ∨ 105 ≤ b ∨ 105 ≤ c) ∧ s.power.pstate ≠ .thermalHold) ∧
    (∃ (s : State), s.boot.inReset = false ∧ s.power.thermalAt + 1000000 ≤ s.now ∧ 95 ≤ max s.power.tempW s.power.tempE) ∧
    (∃ (s : State), s.boot.inReset = false ∧ s.power.thermalAt + 1000000 ≤ s.now ∧ max s.power.tempW s.power.tempE ≤ 92) ∧
    (∃ (f : Fn), ∃ (s : State), Manages s f 0x150008) ∧
    (∃ (f : Fn), ∃ (s : State), ReadsPf s f 0x150024) ∧
    (∃ (f : Fn), ∃ (s : State), Manages s f 0x150034 ∧ s.rtcSettable = true) ∧
    (∃ (f : Fn), ∃ (s : State), Manages s f 0x150034 ∧ s.rtcSettable = false) ∧
    (∃ (f : Fn), ∃ (v : Word32), ∃ (s : State), ∃ m, m = signed (bits32 v 0 12) 12 ∧ Manages s f 0x150038 ∧ s.power.lastSlew = none ∧ -1000 ≤ m ∧ m ≤ 1000) ∧
    (∃ (f : Fn), ∃ (v : Word32), ∃ (s : State), ∃ m, m = signed (bits32 v 0 12) 12 ∧ Manages s f 0x150038 ∧ s.power.lastSlew = none ∧ (m < -1000 ∨ 1000 < m)) ∧
    (∃ (w : Wing), ∃ (k : Nat), ∃ (s : State), s.boot.inReset = false ∧ s.avsHeld w = false ∧ 700 ≤ k ∧ k ≤ 850 ∧ k ≤ s.avsSetPoint w + 10 ∧ s.avsSetPoint w ≤ k + 10 ∧ s.avsTime w + 50000 ≤ s.now) :=
  ⟨⟨.west, up, by and_intros <;> decide +kernel⟩,
   ⟨pfW, { up with cfgtx := { up.cfgtx with state := 1, owner := 0 } }, reaches_of (by decide +kernel), by and_intros <;> decide +kernel⟩,
   ⟨pfW, up, reaches_of (by decide +kernel), by and_intros <;> decide +kernel⟩,
   ⟨pfW, up, reaches_of (by decide +kernel), by and_intros <;> decide +kernel⟩,
   ⟨pfW, { up with power := { up.power with pstate := .standby } }, reaches_of (by decide +kernel), by and_intros <;> decide +kernel⟩,
   ⟨pfW, { up with power := { up.power with pstate := .thermalHold, tempC := 90 } }, reaches_of (by decide +kernel), by and_intros <;> decide +kernel⟩,
   ⟨{ (up.putJob 1 (oneIns 0)) with power := { up.power with draining := some 0 } }, 0, by decide +kernel, by decide +kernel, by decide +kernel⟩,
   ⟨{ up with power := { up.power with draining := some 0 } }, 0, by decide +kernel, by decide +kernel, by decide +kernel, by decide +kernel⟩,
   ⟨6001, up, by decide +kernel, by decide +kernel, by decide +kernel⟩,
   ⟨6000, { up with power := { up.power with capShare := [16, 16, 15] } }, by decide +kernel, by decide +kernel, by decide +kernel⟩,
   ⟨6000, { up with power := { up.power with estimates := List.replicate 100 9 } }, 6000 :: List.replicate 99 9, by decide +kernel⟩,
   ⟨up, 104, 104, 104, { up with power := { up.power with tempW := 104, tempE := 104, tempC := 104 } }, by decide +kernel, rfl, by decide +kernel, by decide +kernel, by decide +kernel⟩,
   ⟨up, 105, 0, 0, { up with power := { up.power with tempW := 105, tempE := 0, tempC := 0 } }, by decide +kernel, rfl, by decide +kernel, by decide +kernel⟩,
   ⟨{ up with power := { up.power with tempW := 95 } }, by decide +kernel, by decide +kernel, by decide +kernel⟩,
   ⟨{ up with power := { up.power with tempW := 92, thermal := 1 } }, by decide +kernel, by decide +kernel, by decide +kernel⟩,
   ⟨pfW, up, manages_of (by decide +kernel)⟩,
   ⟨pfW, up, readsPf_of (by decide +kernel)⟩,
   ⟨pfW, up, manages_of (by decide +kernel), by decide +kernel⟩,
   ⟨pfW, { up with power := { up.power with rtcValid := true } }, manages_of (by decide +kernel), by decide +kernel⟩,
   ⟨pfW, 1000, up, 1000, by decide +kernel, manages_of (by decide +kernel), by decide +kernel, by decide +kernel, by decide +kernel⟩,
   ⟨pfW, 1001, up, 1001, by decide +kernel, manages_of (by decide +kernel), by decide +kernel, by decide +kernel⟩,
   ⟨.west, 810, up, by and_intros <;> decide +kernel⟩⟩

theorem witness_DisablingDiscardsTheAdminRecord :
    (∃ (f : Fn), ∃ (s : State), Writes s f 0x20000 ∧ (s.fn f).admEnable = true) ∧
    (∃ (f : Fn), ∃ (o : Nat), ∃ (u : List (Nat × Nat)), ∃ (e : List Byte), ∃ (i : AdmFrom), ∃ (s : State), AdminRuns s f o i u e) ∧
    (∃ (f : Fn), ∃ (s : State), (s.fn f).admDiscard = true) ∧
    (∃ (f : Fn), ∃ (s : State), (s.fn f).admQ = {}) :=
  ⟨⟨pfW, (up.setFn pfW { up.fn pfW with admEnable := true }), writes_of (by decide +kernel), by decide +kernel⟩,
   ⟨pfW, 0x81, collFields, (admEntry 0x81 0 []), .mgmt, (admState up pfW (admEntry 0x81 0 [])), admin_of (by decide +kernel)⟩,
   ⟨pfW, (up.setFn pfW { up.fn pfW with admDiscard := true }), by decide +kernel⟩,
   ⟨pfW, up, by decide +kernel⟩⟩

theorem witness_ViolationsAreCapturedOnce :
    (∃ (w : Wing), ∃ (m : Nat), ∃ (x : AccessUnit), ∃ (s : State), s.au w m = x ∧ bit32 x.vinfo 0 = false) ∧
    (∃ (w : Wing), ∃ (m : Nat), ∃ (x : AccessUnit), ∃ (s : State), s.au w m = x ∧ bit32 x.vinfo 0 = true) ∧
    (∃ (w : Wing), ∃ (m : Nat), ∃ (x : AccessUnit), ∃ (v : Word32), ∃ (s : State), s.au w m = x ∧ m ≤ 8 ∧ s.docentUp w = true ∧ bit32 v 0 = true) ∧
    (∃ (w : Wing), ∃ (m : Nat), ∃ (n : Nat), ∃ (x : AccessUnit), ∃ (f : Fn), ∃ (v : Word32), ∃ (s : State), ∃ y, s.au w m = x ∧ n < 10 ∧ y = s.au .west n ∧ Manages s f (0x120100 + 16 * n) ∧ bit32 v 0 = true) ∧
    (∃ (w : Wing), ∃ (m : Nat), ∃ (n : Nat), ∃ (x : AccessUnit), ∃ (f : Fn), ∃ (v : Word32), ∃ (s : State), ∃ y, s.au w m = x ∧ n < 10 ∧ y = s.au .east n ∧ Manages s f (0x120100 + 16 * (10 + n)) ∧ bit32 v 0 = true) :=
  ⟨⟨.west, 8, { vinfo := 0 }, (up.setAu .west 8 { vinfo := 0 }), by decide +kernel, by decide +kernel⟩,
   ⟨.west, 8, { vinfo := 1 }, (up.setAu .west 8 { vinfo := 1 }), by decide +kernel, by decide +kernel⟩,
   ⟨.west, 8, { vinfo := 1 }, 1, (up.setAu .west 8 { vinfo := 1 }), by decide +kernel, by decide +kernel, by decide +kernel, by decide +kernel⟩,
   ⟨.west, 9, 9, { vinfo := 1 }, pfW, 1, (up.setAu .west 9 { vinfo := 1 }), { vinfo := 1 }, by decide +kernel, by decide +kernel, by decide +kernel, manages_of (by decide +kernel), by decide +kernel⟩,
   ⟨.east, 9, 9, { vinfo := 1 }, pfW, 1, (up.setAu .east 9 { vinfo := 1 }), { vinfo := 1 }, by decide +kernel, by decide +kernel, by decide +kernel, manages_of (by decide +kernel), by decide +kernel⟩⟩

theorem witness_EraseNeedsItsAuthority (h : AllPass) (b : List Byte) (k : (Config.devPolicy b).mgmtW = false) :
    (∃ (m : Sender), ∃ (ps : List Byte), ∃ (p : List Byte), ∃ (s : State), p = (s.mailbox m).params ps ∧ Heard s m 0x22 0 ∧ (s.tamper.order.hostErase = true ∨ s.boot.lifecycle ≠ .owned)) ∧
    (∃ (m : Sender), ∃ (ps : List Byte), ∃ (p : List Byte), ∃ (s : State), p = (s.mailbox m).params ps ∧ Heard s m 0x22 0 ∧ s.tamper.order.hostErase = false ∧ s.boot.lifecycle = .owned ∧ s.authValid s.boot.custodians s.boot.threshold 0x22 (p.take 0) (p.drop (up8 0)) = true) ∧
    (∃ (m : Sender), ∃ (ps : List Byte), ∃ (p : List Byte), ∃ (s : State), p = (s.mailbox m).params ps ∧ Heard s m 0x22 0 ∧ s.tamper.order.hostErase = false ∧ s.boot.lifecycle = .owned ∧ s.authValid s.boot.custodians s.boot.threshold 0x22 (p.take 0) (p.drop (up8 0)) = false) ∧
    (∃ (m : Sender), ∃ (ps : List Byte), ∃ (p : List Byte), ∃ (s : State), p = (s.mailbox m).params ps ∧ (s.mailbox m).busy = true ∧ bits32 (s.mailbox m).msg 0 8 = 0x22 ∧ s.boot.inReset = false ∧ s.cont.vote ≠ .lost ∧ s.halted (senderWing m) = false ∧ s.reaches (senderWing m) = true ∧ s.senderMgmt m = false) :=
  ⟨⟨.pf .west, [], [], (heardState { up with boot := { up.boot with lifecycle := .decommissioned } } (.pf .west) 0x22 []), heard_params (by decide +kernel) (by decide), heard_of (by decide +kernel), by decide +kernel⟩,
   ⟨.pf .west, (withAuth 0x22 [] []), (withAuth 0x22 [] []), (heardState signedUp (.pf .west) 0x22 (withAuth 0x22 [] [])), heard_params (by decide +kernel) (by decide), heard_of (by decide +kernel), by decide +kernel, by decide +kernel, withAuth_ok h (by decide) (by decide) rfl rfl (by decide +kernel) (by decide +kernel)⟩,
   ⟨.pf .west, [], [], (heardState up (.pf .west) 0x22 []), heard_params (by decide +kernel) (by decide), heard_of (by decide +kernel), by decide +kernel, by decide +kernel, by decide +kernel⟩,
   ⟨.pf .west, [], [], (heardState { up with boot := { up.boot with policyBody := some b } } (.pf .west) 0x22 []), heard_params (by decide +kernel) (by decide), rfl, (by show bits32 ((heardState up (.pf .west) 0x22 []).mailbox (.pf .west)).msg 0 8 = 0x22; decide +kernel), rfl, (by intro e; cases e), rfl, rfl, (by rw [State.senderMgmt, State.mgmt]; exact (Bool.and_eq_false_iff.mpr (.inr k)))⟩⟩

theorem witness_ResetLeavesTheRegistersTheSpecGives :
    ∃ g, g < 16 :=
  ⟨15, by decide +kernel⟩

theorem witness_CardCommandsTouchOnlyTheirSlot :
    (∃ (n : Nat), ∃ (b : Byte), ∃ (p : Bool), ∃ (v : Word32), ∃ (s : State), ∃ (t : State), ∃ (i : Instr), i ∈ [Instr.cardInsertion n, .cardRemoval n, .cardActivate n, .cardDeactivate n, .cardWarmReset n, .cardStart n, .cardClkStop n, .cardWake n, .cardAbort n, .cardCharacterReceive n b p, .cardCharacterSent n p, .cardVccTimeout n, .cardAtrTimeout n, .cardClassBRetry n, .cardWaitingTimeExpiry n, .cardDeactivationComplete n, .cardResultRead n, .cardIrqClear n v] ∧ exec i s = .next t) ∧
    (∃ (n : Nat), ∃ (b : Byte), ∃ (p : Bool), ∃ (v : Word32), ∃ (s : State), ∃ (t : State), ∃ (i : Instr), i ∈ [Instr.cardInsertion n, .cardRemoval n, .cardActivate n, .cardDeactivate n, .cardWarmReset n, .cardStart n, .cardClkStop n, .cardWake n, .cardAbort n, .cardCharacterReceive n b p, .cardCharacterSent n p, .cardVccTimeout n, .cardAtrTimeout n, .cardClassBRetry n, .cardWaitingTimeExpiry n, .cardDeactivationComplete n, .cardResultRead n, .cardIrqClear n v] ∧ exec i s = .next t ∧ n = 0) ∧
    (∃ (n : Nat), ∃ (b : Byte), ∃ (p : Bool), ∃ (v : Word32), ∃ (s : State), ∃ (t : State), ∃ (i : Instr), i ∈ [Instr.cardInsertion n, .cardRemoval n, .cardActivate n, .cardDeactivate n, .cardWarmReset n, .cardStart n, .cardClkStop n, .cardWake n, .cardAbort n, .cardCharacterReceive n b p, .cardCharacterSent n p, .cardVccTimeout n, .cardAtrTimeout n, .cardClassBRetry n, .cardWaitingTimeExpiry n, .cardDeactivationComplete n, .cardResultRead n, .cardIrqClear n v] ∧ exec i s = .next t ∧ n = 1) ∧
    (∃ (n : Nat), ∃ (b : Byte), ∃ (p : Bool), ∃ (v : Word32), ∃ (s : State), ∃ (t : State), ∃ (i : Instr), i ∈ [Instr.cardInsertion n, .cardRemoval n, .cardActivate n, .cardDeactivate n, .cardWarmReset n, .cardStart n, .cardClkStop n, .cardWake n, .cardAbort n, .cardCharacterReceive n b p, .cardCharacterSent n p, .cardVccTimeout n, .cardAtrTimeout n, .cardClassBRetry n, .cardWaitingTimeExpiry n, .cardDeactivationComplete n, .cardResultRead n, .cardIrqClear n v] ∧ exec i s = .next t ∧ 2 ≤ n) ∧
    (∃ (n : Nat), ∃ (b : Byte), ∃ (p : Bool), ∃ (v : Word32), ∃ (s : State), ∃ (t : State), ∃ (i : Instr), i ∈ [Instr.cardInsertion n, .cardRemoval n, .cardActivate n, .cardDeactivate n, .cardWarmReset n, .cardStart n, .cardClkStop n, .cardWake n, .cardAbort n, .cardCharacterReceive n b p, .cardCharacterSent n p, .cardVccTimeout n, .cardAtrTimeout n, .cardClassBRetry n, .cardWaitingTimeExpiry n, .cardDeactivationComplete n, .cardResultRead n, .cardIrqClear n v] ∧ exec i s = .next t ∧ i ≠ .cardCharacterReceive n b p) :=
  ⟨⟨1, 0, true, 0, up, (up.setCard 1 { state := .present, present := true, irq := 2 }), .cardInsertion 1, by simp, rfl⟩,
   ⟨0, 0, true, 0, up, (up.setCard 0 { state := .present, present := true, irq := 2 }), .cardInsertion 0, by simp, rfl, by decide +kernel⟩,
   ⟨1, 0, true, 0, up, (up.setCard 1 { state := .present, present := true, irq := 2 }), .cardInsertion 1, by simp, rfl, by decide +kernel⟩,
   ⟨2, 0, true, 0, up, up, .cardInsertion 2, by simp, rfl, by decide +kernel⟩,
   ⟨1, 0, true, 0, up, (up.setCard 1 { state := .present, present := true, irq := 2 }), .cardInsertion 1, by simp, rfl, by decide⟩⟩

theorem witness_OneBlockCommandsTouchOnlyTheirBlock :
    (∃ (w : Wing), ∃ (k : Nat), ∃ (a : BitVec 8), ∃ (b : BitVec 8), ∃ (v : Word32), ∃ (s : State), ∃ (t : State), ∃ (i : Instr), exec i s = .next t ∧ i ∈ [Instr.gpioWrite w a b, .gpioEdge w k true, .gpioEdge w k false, .gpioIrqClear w v, .timerCompare w k, .rtcCompare w, .auVinfoClear w k v]) ∧
    (∃ (d : Die), ∃ (k : Nat), ∃ (s : State), ∃ (t : State), ∃ (i : Instr), exec i s = .next t ∧ i ∈ [Instr.xtalStartDelayExpiry d, .pllLock d k, .autoRevert d, .powerEstimate k, .thermalThrottleStep, .standbyDrainTimeout]) ∧
    (∃ (r : Drbg), ∃ (g : MaskGen), ∃ (s : State), ∃ (t : State), ∃ (i : Instr), exec i s = .next t ∧ i ∈ [Instr.drbgIntervalExpiry r, .maskingGeneratorStop g]) ∧
    (∃ (w : Wing), ∃ (k : Nat), ∃ (m : Nat), ∃ (s : State), ∃ (t : State), ∃ (i : Instr), exec i s = .next t ∧ i ∈ [Instr.nodeWriteback w k m, .rootUpdate w k]) ∧
    (∃ (k : Nat), ∃ (s : State), ∃ (t : State), ∃ (i : Instr), exec i s = .next t ∧ i ∈ [Instr.nonceExpiry k, .quorumAuthorisationExpiry k]) ∧
    (∃ (k : Nat), ∃ (s : State), ∃ (t : State), ∃ (i : Instr), exec i s = .next t ∧ (i = .standingOrderEffective k ∨ (i = .vbatMeasurement k ∧ (s.boot.inReset = false ∨ 2000 ≤ k % 4096)))) ∧
    (∃ (u : UnitId), ∃ (l : Link), ∃ (s : State), ∃ (t : State), ∃ (i : Instr), exec i s = .next t ∧ (i = .errorCountDecay u ∨ (i = .linkRetrain l ∧ (s.link l).key ≠ none))) ∧
    (∃ (l : Link), ∃ (s : State), ∃ (t : State), ∃ (i : Instr), exec i s = .next t ∧ i = .linkRetrain l) :=
  ⟨⟨.west, 0, 1, 1, 0, up, { up with docW := { up.docW with gpioOut := 1, gpioOe := 1 } }, .gpioWrite .west 1 1, rfl, by simp⟩,
   ⟨.westDie, 0, up, { up with power := { up.power with estimates := [0] } }, .powerEstimate 0, rfl, by simp⟩,
   ⟨.keyGen 0, .gallery 0, up, up, .drbgIntervalExpiry (.keyGen 0), rfl, by simp⟩,
   ⟨.west, 0, 0, up, up, .rootUpdate .west 0, rfl, by simp⟩,
   ⟨0, up, up, .nonceExpiry 0, rfl, by simp⟩,
   ⟨0, up, { up with tamper := { up.tamper with vbat := 0 } }, .vbatMeasurement 0, rfl, by decide +kernel⟩,
   ⟨⟨0, Kind.lre, 0⟩, .wingLink, up, up, .linkRetrain .wingLink, rfl, .inr ⟨rfl, by decide +kernel⟩⟩,
   ⟨.wingLink, up, up, .linkRetrain .wingLink, rfl, rfl⟩⟩

end Sys2Proof.Tests
end

section
/-! SUPPORT. The conservation registers of R476, gallery resets and the repartition of a pair of big-number engines. -/

namespace Sys2Proof.Machine

/-- A CONS register that names a unit carries out its act on that unit, once a manager writes it with go set (R476). -/
theorem State.consWrite_of {s : State} {f : Fn} {off : Nat} {v : Word32} (hm : Manages s f off) (hgo : bit32 v 31 = true)
    (hk : (unitOf (bits32 v 0 18)).kind ≠ Kind.curator) (hx : s.unitExists (unitOf (bits32 v 0 18)) = true)
    (k : UnitId → State → State) : s.consWrite f off v k = k (unitOf (bits32 v 0 18)) s := by
  simp [State.consWrite, State.mgmtWrite_of hm, hgo, hx, hk]

/-- CONS_READMIT of a fenced unit begins the unit's self-test (R453). -/
theorem execConsReadmit_of_fenced {s : State} {f : Fn} {v : Word32} (hm : Manages s f 0x14002C) (hgo : bit32 v 31 = true)
    (hk : (unitOf (bits32 v 0 18)).kind ≠ Kind.curator) (hx : s.unitExists (unitOf (bits32 v 0 18)) = true)
    (hf : (s.unit (unitOf (bits32 v 0 18))).svc = .fenced) :
    execConsReadmit f v s =
      .next (s.setUnit (unitOf (bits32 v 0 18)) { s.unit (unitOf (bits32 v 0 18)) with readmitting := true }) := by
  simp [execConsReadmit, State.consWrite_of hm hgo hk hx, hf]

/-- CONS_PROMOTE of the unit that asked first takes it off the list of those that ask and orders its promotion (R452). -/
theorem execConsPromote_of_first {s : State} {f : Fn} {v : Word32} (hm : Manages s f 0x140024) (hgo : bit32 v 31 = true)
    (hk : (unitOf (bits32 v 0 18)).kind ≠ Kind.curator) (hx : s.unitExists (unitOf (bits32 v 0 18)) = true)
    (ha : s.cont.asks.head? = some (unitCode (unitOf (bits32 v 0 18)))) :
    execConsPromote f v s =
      .next (let u := unitOf (bits32 v 0 18)
             let t := s.setUnit u { s.unit u with ask := false }
             { t with cont := { t.cont with asks := t.cont.asks.drop 1, promoting := t.cont.promoting ++ [unitCode u] } }) := by
  simp [execConsPromote, State.consWrite_of hm hgo hk hx, ha]

/-- CONS_PROMOTE of any other unit is an error of the register (R476). -/
theorem execConsPromote_of_not_first {s : State} {f : Fn} {v : Word32} (hm : Manages s f 0x140024) (hgo : bit32 v 31 = true)
    (hk : (unitOf (bits32 v 0 18)).kind ≠ Kind.curator) (hx : s.unitExists (unitOf (bits32 v 0 18)) = true)
    (ha : s.cont.asks.head? ≠ some (unitCode (unitOf (bits32 v 0 18)))) :
    execConsPromote f v s = .next (s.regError f St.accessDenied 0x140024) := by
  simp [execConsPromote, State.consWrite_of hm hgo hk hx, ha]

/-- An ordered reset that reaches a gallery in service takes it down (R454). -/
theorem execGalleryReset_of_ordered {s : State} {g : Nat} (hp : s.present g = true) (hr : s.ordersReach g = true)
    (hi : (s.gal g).inReset = false) (ho : (s.gal g).resetOrdered = true) (hb : s.boot.inReset = false) :
    execGalleryReset g s = .next (s.galleryDown g).pumpAll := by
  simp [execGalleryReset, hp, hr, hi, ho, hb]

/-- The counter of fenced traffic stops at its highest value. -/
theorem sat_eq_min (top n : Nat) : sat top n = min n top := by
  unfold sat
  split <;> omega

/-- A flit of another generation than its unit's is dropped, counted and logged (R21). -/
theorem execStaleFlitDrop_of_stale {s : State} {u : UnitId} {g : Nat} (hx : s.unitExists u = true) (hg : g ≠ (s.unit u).gen) :
    execStaleFlitDrop u g s =
      .next ((s.setFencedTraffic (min (s.cont.fencedTraffic + 1) (2 ^ 32 - 1))).log 2 0 (unitSrc u) (leBytes 2 g)) := by
  simp [execStaleFlitDrop, hx, hg, sat_eq_min]

/-- An engine whose bank is due leaves the list of R307, and is fenced with cause 5 where the bank does not verify. -/
theorem execMicrocodeBankLoad_of_due {s : State} {u : UnitId} (hs : s.stopped = false)
    (hl : s.cfgtx.toLoad.contains (unitCode u) = true) (verifies : Bool) :
    execMicrocodeBankLoad u verifies s =
      .next (let t : State := { s with cfgtx := { s.cfgtx with toLoad := s.cfgtx.toLoad.filter (· != unitCode u) } }
             if verifies then t else (t.fence u 5).pumpAll) := by
  simp only [execMicrocodeBankLoad, hl, hs, Bool.not_true, Bool.or_self, Bool.false_eq_true, if_false]

/-- A drained pair of big-number engines whose gallery's turn it is takes its slot length (R306; the turn is log entry 129). -/
theorem execBnslotRepartition_of_drained {s : State} {g n : Nat} (hn : (s.gal g).repartition = some n)
    (ht : s.repartitioning g = true) (hr : s.ordersReach g = true)
    (hd : (s.work.grants.any fun x => x.res == .bigNumber g) = false) :
    execBnslotRepartition g s =
      .next (let y := (s.gal g).wiping.filter fun y => y.1 != Kind.bigNumber
             (s.setGal g { s.gal g with slotLen := n, repartition := none, wiping := y }).pumpAll) := by
  simp only [execBnslotRepartition, hn, ht, hr, hd, Bool.not_true, Bool.or_self, Bool.false_eq_true, if_false]

/-- Settles O45: the common rules of a management write and of a clearing read let each register through to its own effect, and the
events of galleries, flits and banks meet the guards of their own lemmas. -/
theorem conservationRegistersAndGalleryResets : Obligations.ConservationRegistersAndGalleryResets := by
  intro f v u g s hu hs
  subst hu
  refine ⟨?fence, ?readmit, ?promote, ?promoteOther, ?recal, ?greset, ?reset, ?resetComplete, ?event, ?traffic, ?linkdown, ?flit, ?bank, ?slots⟩
  case fence => exact fun hm hgo hk hx => congrArg Host.Outcome.next (State.consWrite_of hm hgo hk hx _)
  case readmit => exact execConsReadmit_of_fenced
  case promote => exact fun l hm hgo hk hx ha => execConsPromote_of_first hm hgo hk hx (by rw [ha, List.head?_cons])
  case promoteOther => exact execConsPromote_of_not_first
  case recal => exact fun hm h0 => congrArg Host.Outcome.next ((State.mgmtWrite_of hm _).trans (if_pos h0))
  case greset =>
    intro hm hgo hp
    show execConsGreset f v s = _
    simp [execConsGreset, State.mgmtWrite_of hm, hgo, hp]
  case reset => exact execGalleryReset_of_ordered
  case resetComplete => exact fun hi => congrArg Host.Outcome.next (if_neg (by simp [hi]))
  case event => exact fun hr => congrArg Host.Outcome.next (State.clearRead_of hr _ _)
  case traffic => exact fun hr => congrArg Host.Outcome.next (State.clearRead_of hr _ _)
  case linkdown => exact fun hr => congrArg Host.Outcome.next (State.clearRead_of hr _ _)
  case flit => exact execStaleFlitDrop_of_stale
  case bank => exact fun hl => ⟨execMicrocodeBankLoad_of_due hs hl true, execMicrocodeBankLoad_of_due hs hl false⟩
  case slots => exact fun n => execBnslotRepartition_of_drained

end Sys2Proof.Machine
end

section
/-! SUPPORT. How the engines of an EXEC complete, and what preempts, resumes and loads in a unit (R35, R36, R137, R217, R295). -/

namespace Sys2Proof.Machine

/-! ### The completion of an EXEC's engines -/

/-- What the engines of an EXEC leave of its finished result where no check has tripped. -/
def State.engineEnd (s : State) (n : Nat) (j : Job) (r : ExecResult) (ev : EngineEvent) : State :=
  if r.released != 0 && ev.writeFails then s.scrubRelease n j r St.badBuffer (some ev.segment) ev.scrubFails.contains
  else if isSuccess r.status then s.finishExec n j r ev.writeFails
  else if r.released != 0 then s.scrubRelease n j r r.status none ev.scrubFails.contains
  else if r.status == St.faultDetected then s.faultFound n j
  else s.failExec n r.status

section Ends
variable {s : State} {n : Nat} {j : Job} {r : ExecResult} {ev : EngineEvent}

theorem State.engineEnd_of_write_fails (hr : r.released ≠ 0) (hw : ev.writeFails = true) :
    s.engineEnd n j r ev = s.scrubRelease n j r St.badBuffer (some ev.segment) ev.scrubFails.contains := by
  simp [State.engineEnd, hr, hw]

theorem State.engineEnd_of_success (hr : r.released = 0 ∨ ev.writeFails = false) (hs : isSuccess r.status = true) :
    s.engineEnd n j r ev = s.finishExec n j r ev.writeFails := by
  rcases hr with hr | hr <;> simp [State.engineEnd, hr, hs]

theorem State.engineEnd_of_release_failed (hr : r.released ≠ 0) (hw : ev.writeFails = false) (hs : isSuccess r.status = false) :
    s.engineEnd n j r ev = s.scrubRelease n j r r.status none ev.scrubFails.contains := by
  simp [State.engineEnd, hr, hw, hs]

theorem State.engineEnd_of_fault (hr : r.released = 0) (hs : r.status = St.faultDetected) :
    s.engineEnd n j r ev = s.faultFound n j := by
  have hf : isSuccess St.faultDetected = false := rfl
  simp [State.engineEnd, hr, hs, hf]

theorem State.engineEnd_of_failure (hr : r.released = 0) (hs : isSuccess r.status = false) (hf : r.status ≠ St.faultDetected) :
    s.engineEnd n j r ev = s.failExec n r.status := by
  simp [State.engineEnd, hr, hs, hf]

end Ends

/-- The engines of a job's EXEC can complete: the EXEC runs with a result, nothing suspends or stalls it, and its function is ready. -/
structure EngineDone (s : State) (n : Nat) (j : Job) (e : Exec) (r : ExecResult) (d : FnDef) : Prop where
  job : s.job n = some j
  exec : j.exec = some e
  result : e.result = some r
  fn : fnDef (execFields j.ins).code = some d
  thawed : s.tamper.frozen = false
  held : j.parked = false
  runs : s.wingRuns (galleryWing j.gallery) = true
  running : e.stage = .running
  active : s.isSuspended n = false
  masked : s.stalled j e = false
  ready : d.ready n r s = true

section Done
variable {s : State} {n : Nat} {j : Job} {e : Exec} {r : ExecResult} {d : FnDef} {ev : EngineEvent}

theorem execEngineOperationComplete_of_no_trip (h : EngineDone s n j e r d) (ht : ev.trip = none) :
    execEngineOperationComplete n ev s = .next (s.engineEnd n j (d.finish r s) ev).pumpAll := by
  simp only [execEngineOperationComplete, h.job, h.exec, h.result, h.fn, h.thawed, h.held, h.runs, h.running, h.active, h.masked,
    h.ready, ht, State.engineEnd]
  simp [apply_ite State.pumpAll]

theorem execEngineOperationComplete_of_trip {u : UnitId} (h : EngineDone s n j e r d) (ht : ev.trip = some u) :
    execEngineOperationComplete n ev s =
      .next (if s.uses n u then (s.tripExec n j u ev.measure ev.scrubFails.contains).pumpAll else s) := by
  simp [execEngineOperationComplete, h.job, h.exec, h.result, h.fn, h.thawed, h.held, h.runs, h.running, h.active, h.masked,
    h.ready, ht]

end Done

/-! ### Wipes, preemption and resumption -/

theorem execEngineWipeComplete_of_wiping {s : State} {g k : Nat} (hk : (s.gal g).wipingKind k = true) :
    execEngineWipeComplete g k s =
      .next ((s.setGal g { s.gal g with wiping := (s.gal g).wiping.eraseP fun y => y.1 == k }).loadDue g).pumpAll := by
  have ha : ((s.gal g).wiping.any fun y => y.1 == k) = true := hk
  simp [execEngineWipeComplete, ha]

theorem execJobPreemption_of_victim {s : State} {res : Resource} {higher : Nat} {w : Nat × Nat} {g : Grant}
    (hf : s.tamper.frozen = false) (hw : s.waiter res higher = some w) (hv : s.victim res higher w.1 = some g)
    (hn : s.suffices higher w.1 res w.2 = false) (hs : s.storeFor g = true) :
    execJobPreemption res higher s = .next (s.suspendWith g).pumpAll := by
  simp [execJobPreemption, hf, hw, hv, hn, hs]

theorem execSuspendedJobResume_of_thawed {s : State} {n : Nat} (hf : s.tamper.frozen = false) :
    execSuspendedJobResume n s =
      .next ((s.forAll (s.work.grants.filter fun g => g.job == n) fun s g => s.resumeGrant g).endResumed n).pumpAll := by
  simp [execSuspendedJobResume, hf]

/-- A job whose EXEC no unit holds suspended ends where a status waits for it (R37). -/
theorem State.endResumed_of_ending {t : State} {n : Nat} {j : Job} {st : Byte} (hj : t.job n = some j) (he : j.ending = some st) :
    t.endResumed n = if j.phase = JobPhase.exec ∧ t.isSuspended n = false then t.endJob n st else t := by
  simp [State.endResumed, hj, he]

theorem State.endResumed_of_no_ending {t : State} {n : Nat} (h : ∀ j, t.job n = some j → j.ending = none) : t.endResumed n = t := by
  unfold State.endResumed
  split
  next j hj => rw [h j hj]
  next => rfl

/-! ### Resident keys -/

/-- A queued key becomes resident at the job boundary of its engine (R295). -/
theorem State.loadDue_of_queued {s : State} {g : Nat} {key : Option (Nat × Nat × Nat)} (hq : (s.gal g).queuedLoad = some key)
    (hf : s.tamper.frozen = false) (hi : s.bfeIdle (s.gal g).loadBy g = true) :
    s.loadDue g = s.setGal g { s.gal g with resident := key, queuedLoad := none, reload := none } := by
  simp [State.loadDue, Gallery.load, hq, hf, hi]

/-- A key that a key generation has evicted returns unless another is queued (R295). -/
theorem execResidentKeyReload_of_due {s : State} {g : Nat} {key : Nat × Nat × Nat} (hk : (s.gal g).reload = some key)
    (hq : (s.gal g).queuedLoad = none) (hf : s.tamper.frozen = false) (hi : s.bfeIdle 0 g = true) :
    execResidentKeyReload g s = .next (s.setGal g { s.gal g with resident := some key, reload := none }) := by
  simp [execResidentKeyReload, hk, hq, hf, hi]

/-- Settles O28: the completion of an EXEC's engines splits by the tripped check and then by the finished result; a preemption by the
kind of resource whose unit it takes; a resumption by the job that is left and the status that waits for it. -/
theorem engineEventsFinishJobs : Obligations.EngineEventsFinishJobs := by
  intro n j e r d ev s
  refine ⟨?complete, ?wipe, ?preempt, ?resume, ?load, ?reload⟩
  case complete =>
    intro hj he hr hd hf hp hw hs hu hm hy
    have done : EngineDone s n j e r d := ⟨hj, he, hr, hd, hf, hp, hw, hs, hu, hm, hy⟩
    have ends (ht : ev.trip = none) {t : State} (h : s.engineEnd n j (d.finish r s) ev = t) :
        exec (.engineOperationComplete n ev) s = .next t.pumpAll :=
      h ▸ execEngineOperationComplete_of_no_trip done ht
    refine ⟨?success, ?fault, ?failure, ?writeFails, ?mismatch, ?trip, ?otherUnit⟩
    case success => exact fun ht hr hs => ends ht (State.engineEnd_of_success hr hs)
    case fault => exact fun ht hr hs => ends ht (State.engineEnd_of_fault hr hs)
    case failure => exact fun ht hr hs hf => ends ht (State.engineEnd_of_failure hr hs hf)
    case writeFails => exact fun ht hr hw => ends ht (State.engineEnd_of_write_fails hr hw)
    case mismatch => exact fun ht hr hw hs => ends ht (State.engineEnd_of_release_failed hr hw hs)
    case trip => exact fun u ht hu => (execEngineOperationComplete_of_trip done ht).trans (congrArg Host.Outcome.next (if_pos hu))
    case otherUnit =>
      exact fun u ht hu => (execEngineOperationComplete_of_trip done ht).trans (congrArg Host.Outcome.next (if_neg (by simp [hu])))
  case wipe => exact fun g k => execEngineWipeComplete_of_wiping
  case preempt =>
    intro res higher w g hf hw hv hn hs
    refine (execJobPreemption_of_victim hf hw hv hn hs).trans ?_
    unfold State.suspendWith State.suspendGrant
    cases g.res <;> rfl
  case resume =>
    intro hf
    refine (execSuspendedJobResume_of_thawed hf).trans ?_
    dsimp only
    generalize s.forAll _ _ = t
    cases hj : t.job n with
    | none => rw [State.endResumed_of_no_ending (by simp [hj])]
    | some j =>
      cases he : j.ending with
      | none => simp only [State.endResumed_of_no_ending (t := t) (n := n) (by simp [hj, he]), he]
      | some st => simp only [State.endResumed_of_ending hj he, he]
  case load => exact fun g key hq hf hi => congrArg Host.Outcome.next (State.loadDue_of_queued hq hf hi)
  case reload => exact fun g key => execResidentKeyReload_of_due

end Sys2Proof.Machine
end

section
/-! SUPPORT. One decision of the dispatcher (R100): what the round robins choose, what a decision changes but the entry that it consumes,
and how a program starts (R109, R116). -/

namespace Sys2Proof.Machine

/-! ### Tables and round robins -/

/-- A value other than the default is read back from any table, canonical or not. -/
theorem Tbl.get_set_of_ne {α : Type} [DecidableEq α] {d v : α} (k : Nat) (t : Tbl α) (hv : v ≠ d) : (t.set d k v).get d k = v := by
  induction t with
  | nil => simp [Tbl.set, Tbl.get, hv]
  | cons p r ih =>
    obtain ⟨a, u⟩ := p
    simp only [Tbl.set, hv, if_false]
    split
    · simp [Tbl.get]
    · split
      · simp [Tbl.get]
      · next hne => simp [Tbl.get, hne, ih]

theorem mem_insertBy {α : Type} {lt : α → α → Bool} {a x : α} {l : List α} : x ∈ insertBy lt a l ↔ x = a ∨ x ∈ l := by
  induction l with
  | nil => simp [insertBy]
  | cons b r ih =>
    simp only [insertBy]
    split
    · simp
    · simp [ih, or_left_comm]

theorem mem_sortBy {α : Type} {lt : α → α → Bool} {x : α} {l : List α} : x ∈ sortBy lt l ↔ x ∈ l := by
  induction l with
  | nil => simp [sortBy]
  | cons a l ih =>
    rw [show sortBy lt (a :: l) = insertBy lt a (sortBy lt l) from rfl, mem_insertBy, ih, List.mem_cons]

/-- A round robin over a list that is not empty answers one of its numbers. -/
theorem nextAfter_mem {l : List Nat} (hl : l ≠ []) (last : Nat) : nextAfter l last ∈ l := by
  unfold nextAfter
  split
  next x hx => exact mem_sortBy.mp (List.mem_of_find?_eq_some hx)
  next =>
    cases l with
    | nil => exact absurd rfl hl
    | cons a l => exact List.min?_mem (by rw [List.min?_cons']; simp)

/-- The best of the classes that have an entry is one of them: the choice keeps the best so far, 0 while it has met none. -/
theorem foldl_best_has {has : Nat → Bool} {better : Nat → Nat → Bool} {l : List Nat} (hl : 0 ∉ l) {b : Nat} (hb : b = 0 ∨ has b = true) :
    has (l.foldl (fun b c => if has c && (b = 0 || better b c) then c else b) b) = true ∨ b = 0 ∧ ∀ c ∈ l, has c = false := by
  induction l generalizing b with
  | nil => exact hb.symm.imp_right fun h => ⟨h, by simp⟩
  | cons c l ih =>
    obtain ⟨hc0, hl⟩ := List.ne_and_not_mem_of_not_mem_cons hl
    rw [List.foldl_cons]
    split
    next hc =>
      have hhas : has c = true := (Bool.and_eq_true_iff.mp hc).1
      exact .inl ((ih hl (.inr hhas)).resolve_right fun h => hc0 h.1.symm)
    next hc =>
      refine (ih hl hb).imp_right fun ⟨h0, hr⟩ => ⟨h0, List.forall_mem_cons.mpr ⟨?_, hr⟩⟩
      simpa [h0] using hc

theorem fairClass_has {weights : Word32} {credit : List Nat} {has : Nat → Bool} {c : Nat} (h1 : 1 ≤ c) (h3 : c ≤ 3) (hc : has c = true) :
    has (fairClass weights credit has).1 = true := by
  rcases foldl_best_has (has := has) (better := fun b c =>
      decide ((if has c then credit.getD (c - 1) 0 + bits32 weights (8 * (c - 1)) 8 else 0) >
        if has b then credit.getD (b - 1) 0 + bits32 weights (8 * (b - 1)) 8 else 0)) (l := [1, 2, 3]) (by decide) (.inl rfl) with h | ⟨-, h⟩
  · exact h
  · have hmem : c ∈ [1, 2, 3] := by simp; omega
    exact absurd hc (by simp [h c hmem])

/-! ### What a decision changes but the entry -/

/-- A state that differs from another in the counters of the arbitration only: the dispatchers' and the collections'. -/
def SameButCounters (t u : State) : Prop :=
  u = { t with host := { t.host with dispW := u.host.dispW, dispE := u.host.dispE, colls := u.host.colls } }

theorem SameButCounters.trans {t u v : State} (h : SameButCounters t u) (k : SameButCounters u v) : SameButCounters t v := by
  unfold SameButCounters at h k ⊢
  rw [k, h]

theorem sameButCounters_setDisp (t : State) (w : Wing) (x : Dispatcher) : SameButCounters t (t.setDisp w x) := by cases w <;> rfl

theorem sameButCounters_setColl (t : State) (c : Nat) (x : Option Collection) : SameButCounters t (t.setColl c x) := rfl

@[simp] theorem State.disp_setColl (s : State) (w : Wing) (c : Nat) (x : Option Collection) : (s.setColl c x).disp w = s.disp w := by
  cases w <;> rfl

@[simp] theorem State.coll_setDisp (s : State) (w : Wing) (x : Dispatcher) (c : Nat) : (s.setDisp w x).coll c = s.coll c := by cases w <;> rfl

@[simp] theorem State.share_setDisp (s : State) (w : Wing) (x : Dispatcher) (c : Nat) : (s.setDisp w x).share c = s.share c := by
  cases w <;> rfl

theorem State.coll_setColl_some (s : State) (c : Nat) (x : Collection) : (s.setColl c (some x)).coll c = some x :=
  Tbl.get_set_of_ne _ _ (Option.some_ne_none x)

/-! ### A class is served -/

/-- A turn that stays with the last one served where that one is offered, and else goes on, is one of those offered. -/
theorem stayOrNext_mem {l : List Nat} (hl : l ≠ []) {stay : Bool} {last : Nat} (hs : stay = true → last ∈ l) :
    (if stay then last else nextAfter l last) ∈ l := by
  split
  next h => exact hs h
  next => exact nextAfter_mem hl last

/-- The deficit round robin serves one of the collections offered. -/
theorem State.pickColl_mem {s : State} {w : Wing} {cls : Nat} {colls : List Nat} (hc : colls ≠ []) : (s.pickColl w cls colls).1 ∈ colls := by
  unfold State.pickColl
  dsimp only
  split <;> exact stayOrNext_mem hc (by simp +contextual)

theorem State.pickColl_sameButCounters (s : State) (w : Wing) (cls : Nat) (colls : List Nat) :
    SameButCounters s (s.pickColl w cls colls).2 := by
  unfold State.pickColl
  dsimp only
  split
  · exact sameButCounters_setDisp _ _ _
  · exact (sameButCounters_setDisp _ _ _).trans (sameButCounters_setColl _ _ _)

/-- The round robin of a collection's queues consumes one of the entries offered. -/
theorem State.serveQueue_consumes {s : State} {w : Wing} {cls coll : Nat} {l : List Head} (hl : l ≠ []) :
    ∃ h ∈ l, ∃ u, s.serveQueue w cls coll l = u.consume w h ∧ SameButCounters s u := by
  have hk : nextAfter (l.map (·.key)) ((s.disp w).lastQueue.get 0 (4 * coll + cls)) ∈ l.map (·.key) := nextAfter_mem (by simpa using hl) _
  obtain ⟨g, hg, hgk⟩ := List.mem_map.mp hk
  unfold State.serveQueue
  dsimp only
  split
  next hn => exact absurd hgk (by simpa using List.find?_eq_none.mp hn g hg)
  next h hh => exact ⟨h, List.mem_of_find?_eq_some hh, _, rfl, sameButCounters_setDisp _ _ _⟩

/-- Serving a class consumes one of its entries. -/
theorem State.serveClass_consumes {s : State} {w : Wing} {cls : Nat} {l : List Head} (hl : ∃ h ∈ l, h.cls = cls) :
    ∃ h ∈ l, h.cls = cls ∧ ∃ u, s.serveClass w cls l = u.consume w h ∧ SameButCounters s u := by
  obtain ⟨g, hg, hgc⟩ := hl
  have hm (x : Head) : x ∈ l.filter (fun h => h.cls == cls) ↔ x ∈ l ∧ x.cls = cls := by simp
  have hg := (hm g).mpr ⟨hg, hgc⟩
  unfold State.serveClass
  dsimp only
  generalize l.filter (fun h => h.cls == cls) = m at hm hg ⊢
  have hcoll := State.pickColl_mem (s := s) (w := w) (cls := cls)
    (List.ne_nil_of_mem (List.mem_eraseDups.mpr (List.mem_map_of_mem (f := Head.coll) hg)))
  have hsame := State.pickColl_sameButCounters s w cls (m.map (·.coll)).eraseDups
  generalize s.pickColl w cls (m.map (·.coll)).eraseDups = p at hcoll hsame ⊢
  obtain ⟨x, hx, hxc⟩ := List.mem_map.mp (List.mem_eraseDups.mp hcoll)
  obtain ⟨h, hh, u, he, hu⟩ := State.serveQueue_consumes (s := p.2) (w := w) (cls := cls) (coll := p.1) (l := m.filter fun h => h.coll == p.1)
    (List.ne_nil_of_mem (List.mem_filter.mpr ⟨hx, by simpa using hxc⟩))
  obtain ⟨hl, hc⟩ := (hm h).mp (List.mem_of_mem_filter hh)
  exact ⟨h, hl, hc, u, he, hsame.trans hu⟩

theorem Head.cls_le (h : Head) : h.cls ≤ 3 := by
  have : h.cls = byteAt h.bytes 5 % 4 := rfl
  omega

/-! ### One dispatch slot -/

/-- The state in which a dispatch slot serves: the slot is counted. -/
def State.nextSlot (t : State) (w : Wing) : State := t.setDisp w { t.disp w with slot := ((t.disp w).slot + 1) % 16 }

@[simp] theorem State.disp_nextSlot (t : State) (w : Wing) :
    (t.nextSlot w).disp w = { t.disp w with slot := ((t.disp w).slot + 1) % 16 } := State.disp_setDisp _ _ _

@[simp] theorem State.coll_nextSlot (t : State) (w : Wing) (c : Nat) : (t.nextSlot w).coll c = t.coll c := State.coll_setDisp _ _ _ _

theorem State.dispatchSlot_of_c0 {t : State} {w : Wing} {l : List Head} (h0 : (l.any fun g => g.cls == 0) = true) :
    t.dispatchSlot w l = (t.nextSlot w).serveClass w 0 l := if_pos h0

/-- Without an entry of C0, the fair share serves a class of an entry within its class's share. -/
theorem State.dispatchSlot_of_shares {t : State} {w : Wing} {l m : List Head} (h0 : (l.any fun g => g.cls == 0) = false)
    (hm : l.filter (fun h => (t.disp w).slot < t.share h.cls) = m) (hne : m ≠ []) :
    ∃ c u, t.dispatchSlot w l = u.serveClass w c m ∧ SameButCounters t u ∧ ∃ h ∈ m, h.cls = c := by
  obtain ⟨g, hg⟩ := List.exists_mem_of_ne_nil m hne
  have hgl : g ∈ l := List.mem_of_mem_filter (hm ▸ hg)
  have hpos : 1 ≤ g.cls := Nat.pos_of_ne_zero (by simpa using List.any_eq_false.mp h0 g hgl)
  have hfair := fairClass_has (weights := (t.nextSlot w).work.weights) (credit := (t.disp w).credit) (has := fun c => m.any fun h => h.cls == c)
    hpos g.cls_le (List.any_eq_true.mpr ⟨g, hg, beq_self_eq_true _⟩)
  generalize hc : fairClass _ _ _ = c at hfair
  refine ⟨c.1, (t.nextSlot w).setDisp w { (t.nextSlot w).disp w with credit := c.2 }, ?_,
    (sameButCounters_setDisp _ _ _).trans (sameButCounters_setDisp _ _ _), by simpa using hfair⟩
  rw [← hc]
  simp [State.dispatchSlot, h0, hm, hne, State.nextSlot]

/-- One dispatch slot consumes an entry of C0 where there is one, else one of a class within its share (R100). -/
theorem State.dispatchSlot_consumes {t : State} {w : Wing} {l : List Head} (hl : ∃ h ∈ l, h.cls = 0 ∨ (t.disp w).slot < t.share h.cls) :
    ∃ h ∈ l, ∃ u, t.dispatchSlot w l = u.consume w h ∧ SameButCounters t u ∧ ((l.any fun g => g.cls == 0) = true → h.cls = 0) ∧
      ((l.any fun g => g.cls == 0) = false → (t.disp w).slot < t.share h.cls) := by
  cases h0 : l.any fun g => g.cls == 0 with
  | true =>
    obtain ⟨h, hm, hc, u, he, hu⟩ := State.serveClass_consumes (s := t.nextSlot w) (w := w) (by simpa using h0)
    exact ⟨h, hm, u, (State.dispatchSlot_of_c0 h0).trans he, (sameButCounters_setDisp _ _ _).trans hu, fun _ => hc, by simp⟩
  | false =>
    obtain ⟨g, hg, hgc⟩ := hl
    have hgs : (t.disp w).slot < t.share g.cls := hgc.resolve_left (by simpa using List.any_eq_false.mp h0 g hg)
    have hne : l.filter (fun h => (t.disp w).slot < t.share h.cls) ≠ [] := List.ne_nil_of_mem (List.mem_filter.mpr ⟨hg, by simpa using hgs⟩)
    obtain ⟨c, v, hv, htv, hc⟩ := State.dispatchSlot_of_shares h0 rfl hne
    obtain ⟨h, hm, -, u, he, hu⟩ := State.serveClass_consumes (s := v) (w := w) hc
    obtain ⟨hm, hs⟩ := List.mem_filter.mp hm
    exact ⟨h, hm, u, hv.trans he, htv.trans hu, by simp, fun _ => by simpa using hs⟩

/-- The dispatcher's decision where it runs: the marks of entries that wait, then one slot where an entry can be consumed. -/
theorem State.dispatch_of_seen {s t : State} {w : Wing} {l : List Head} (hs : s.seen w = (l, t)) (hd : s.dispatchOn w = true) :
    s.dispatch w = if l.isEmpty then t else t.dispatchSlot w l := by
  simp [State.dispatch, hd, hs]

/-! ### A single entry of C0 -/

theorem nextAfter_singleton (a last : Nat) : nextAfter [a] last = a := List.mem_singleton.mp (nextAfter_mem (by simp) last)

/-- The counters of the arbitration once the sole entry of C0 is served. -/
def State.servedAlone (t : State) (w : Wing) (h : Head) : State :=
  let p := (t.nextSlot w).pickColl w 0 [h.coll]
  p.2.setDisp w { p.2.disp w with lastQueue := (p.2.disp w).lastQueue.set 0 (4 * h.coll) h.key }

theorem State.pickColl_singleton (s : State) (w : Wing) (cls c : Nat) : (s.pickColl w cls [c]).1 = c :=
  List.mem_singleton.mp (State.pickColl_mem (List.cons_ne_nil c []))

theorem State.dispatchSlot_singleton {t : State} {w : Wing} {h : Head} (hc : h.cls = 0) :
    t.dispatchSlot w [h] = (t.servedAlone w h).consume w h := by
  have he : [h.coll].eraseDups = [h.coll] := rfl
  rw [State.dispatchSlot_of_c0 (by simp [hc])]
  simp [State.serveClass, State.serveQueue, State.servedAlone, hc, he, State.pickColl_singleton, nextAfter_singleton]

/-- A collection that the deficit round robin has served: one entry of what it had left is used up, or of its weight where its turn begins. -/
def Collection.served (x : Collection) (k : Nat) (again : Bool) : Collection :=
  { x with deficit := setAt x.deficit k (if again ∧ 0 < x.deficit.getD k 0 then x.deficit.getD k 0 - 1 else x.weight - 1) }

/-- The deficit round robin serves a collection that is offered alone. -/
theorem State.pickColl_singleton_state {s : State} {w : Wing} {cls c : Nat} {x : Collection} (hx : s.coll c = some x) :
    (s.pickColl w cls [c]).2 = (s.setDisp w { s.disp w with lastColl := setAt (s.disp w).lastColl cls c }).setColl c
      (some (x.served (4 * wingIdx w + cls) ((s.disp w).lastColl.getD cls 0 == c))) := by
  unfold State.pickColl Collection.served
  dsimp only
  generalize (s.disp w).lastColl.getD cls 0 = last
  rw [List.mem_singleton.mp (stayOrNext_mem (List.cons_ne_nil c []) (by simp +contextual))]
  simp only [State.coll_setDisp, hx]
  by_cases hl : last = c
  · simp [hl, hx]
  · simp [hl]

section Alone
variable {t : State} {w : Wing} {h : Head} {x : Collection}

theorem State.servedAlone_disp (hx : t.coll h.coll = some x) :
    (t.servedAlone w h).disp w =
      { t.disp w with slot := ((t.disp w).slot + 1) % 16, lastColl := setAt (t.disp w).lastColl 0 h.coll,
                      lastQueue := (t.disp w).lastQueue.set 0 (4 * h.coll) h.key } := by
  simp [State.servedAlone, State.pickColl_singleton_state (s := t.nextSlot w) ((t.coll_nextSlot w _).trans hx)]

theorem State.servedAlone_coll (hx : t.coll h.coll = some x) :
    (t.servedAlone w h).coll h.coll = some (x.served (4 * wingIdx w) ((t.disp w).lastColl.getD 0 0 == h.coll)) := by
  simp [State.servedAlone, State.pickColl_singleton_state (s := t.nextSlot w) ((t.coll_nextSlot w _).trans hx), State.coll_setColl_some]

end Alone

/-! ### Fetched entries and the start of a program -/

/-- A fetched entry is taken: it is whole, and its queue runs, holds no other and has entries to give. -/
structure EntryTaken (s : State) (f : Fn) (q : QSel) (e : List Byte) : Prop where
  whole : e.length = 64
  fn : fnOk f = true
  created : (s.queue f q).created = true
  running : (s.queue f q).stopped = false
  kept : (s.queue f q).deleting = false
  empty : (s.queue f q).heldEntry = none
  due : (s.queue f q).sqHead ≠ (s.queue f q).sqTail
  master : (s.fn f).bme = true
  up : s.boot.inReset = false
  awake : s.lowPower = false

section Fetched
variable {s : State} {f : Fn} {e : List Byte}

theorem execEntryFetchComplete_of_admin (h : EntryTaken s f .admin e) (hc : (s.fn f).admCur = none) :
    execEntryFetchComplete f .admin e s = .next (s.beginAdmin f e) := by
  simp [execEntryFetchComplete, h.whole, h.fn, h.created, h.running, h.kept, h.empty, h.due, h.master, h.up, h.awake, hc]

theorem execEntryFetchComplete_of_io {k : Nat} (h : EntryTaken s f (.io k) e) :
    execEntryFetchComplete f (.io k) e s =
      .next (let t := s.setQueue f (.io k) { s.queue f (.io k) with heldEntry := some e }
             if (t.hostHeads f.port).length = 1 then t.dispatch f.port else t) := by
  simp [execEntryFetchComplete, h.whole, h.fn, h.created, h.running, h.kept, h.empty, h.due, h.master, h.up, h.awake]

end Fetched

/-- The parameter block of a placed job has arrived, and nothing keeps the job's program from starting. -/
structure BlockArrived (s : State) (n : Nat) (j : Job) (block : List Byte) : Prop where
  job : s.job n = some j
  placed : j.phase = .placed
  held : j.parked = false
  whole : block.length = j.paramLen
  thawed : s.tamper.frozen = false
  runs : s.wingRuns (galleryWing j.gallery) = true

@[simp] theorem State.startContext_src (s : State) (j : Job) (block : List Byte) : (s.startContext j block).src = j.src := rfl
@[simp] theorem State.startContext_gallery (s : State) (j : Job) (block : List Byte) : (s.startContext j block).gallery = j.gallery := rfl
@[simp] theorem State.startContext_progNo (s : State) (j : Job) (block : List Byte) : (s.startContext j block).progNo = j.progNo := rfl

section Start
variable {s : State} {n : Nat} {j : Job} {block : List Byte}

/-- A program that fits and passes the static checks stands at its first instruction (R116). -/
theorem execProgramStart_of_sound (h : BlockArrived s n j block)
    (hm : ((s.latchEpoch n j.src).putJob n (s.startContext j block)).memoryFits n (s.startContext j block) = true)
    (hp : (s.startContext j block).prog ≠ [])
    (hs : ((s.latchEpoch n j.src).putJob n (s.startContext j block)).staticFailure (s.startContext j block).prog = none) :
    execProgramStart n ⟨block, false⟩ s =
      .next (((s.latchEpoch n j.src).putJob n (s.startContext j block)).atBoundary n (s.startContext j block) 0) := by
  simp [execProgramStart, h.job, h.placed, h.held, h.whole, h.thawed, h.runs, hm, hp, hs]

/-- A library program whose fetch meets an uncorrectable error ends the job, and its slot is reloaded (R109). -/
theorem execProgramStart_of_fetch_error {k : Nat} (h : BlockArrived s n j block) (hk : j.progNo = some k) :
    execProgramStart n ⟨block, true⟩ s =
      .next ((((s.latchEpoch n j.src).putJob n (s.startContext j block)).reloadSlot (galleryWing j.gallery) k).endJob n St.faultDetected) := by
  simp [execProgramStart, h.job, h.placed, h.held, h.whole, h.thawed, h.runs, hk]

end Start

/-- Settles O19: a decision of the dispatcher by what it sees, a fetched entry by the kind of its queue, a program's start by its fetch. -/
theorem entriesArePlacedAndProgramsStart : Obligations.EntriesArePlacedAndProgramsStart := by
  constructor
  case left =>
    intro w s l t hseen
    refine ⟨?off, ?none, ?some, ?alone⟩
    case off => exact fun hd => congrArg Host.Outcome.next (if_pos (by simp [hd]))
    case none =>
      rintro hd rfl
      exact congrArg Host.Outcome.next (State.dispatch_of_seen hseen hd)
    case some =>
      intro hd hl
      obtain ⟨h, hm, u, he, hu, h0, hs⟩ := State.dispatchSlot_consumes hl
      have hne : l.isEmpty = false := by simpa using List.ne_nil_of_mem hm
      refine ⟨h, hm, u, congrArg Host.Outcome.next ?_, hu, h0, hs⟩
      rw [State.dispatch_of_seen hseen hd, hne, if_neg Bool.false_ne_true, he]
    case alone =>
      rintro h x k hd rfl hc hx rfl
      refine ⟨t.servedAlone w h, congrArg Host.Outcome.next ?_, ?_, ?_, ?_, ?_⟩
      · exact (State.dispatch_of_seen hseen hd).trans (State.dispatchSlot_singleton hc)
      · rw [State.servedAlone_disp hx]
      · rw [State.servedAlone_disp hx]
      · rw [State.servedAlone_disp hx]
      · simp [State.servedAlone_coll hx, Collection.served]
  case right =>
    intro f e s
    constructor
    case left =>
      intro q hw hf hc hr hk he hd hb hu ha
      have taken : EntryTaken s f q e := ⟨hw, hf, hc, hr, hk, he, hd, hb, hu, ha⟩
      constructor
      case left =>
        rintro rfl hcur
        exact execEntryFetchComplete_of_admin taken hcur
      case right =>
        intro hq
        cases q with
        | admin => exact absurd rfl hq
        | io k => exact execEntryFetchComplete_of_io taken
    case right =>
      intro n j hj hp hh hw hf hr
      have arrived : BlockArrived s n j e := ⟨hj, hp, hh, hw, hf, hr⟩
      exact ⟨execProgramStart_of_sound arrived, fun k => execProgramStart_of_fetch_error arrived⟩

end Sys2Proof.Machine
end

section
/-! SUPPORT. Where a host register write goes (R49, R50, R72) and what a staged one does (R464): by the window that it names, and by who
owns the open transaction. -/

namespace Sys2Proof.Machine

/-- Answers of a next state are equal where the states are. -/
theorem next_congr {s t : State} (h : s = t) : (.next s : Res) = .next t := congrArg _ h

/-! ### Sizes and windows -/

section Sizes
variable {s : State} {f : Fn} {off : Nat} {v : Word64} {w : State → Nat → Word32 → State}

theorem State.sizedWrite_four (h : off % 4 = 0) : s.sizedWrite f off 4 v w = w s off (v.setWidth 32) := by
  simp [State.sizedWrite, h]

theorem State.sizedWrite_eight (h : off % 8 = 0) :
    s.sizedWrite f off 8 v w = w (w s off (v.setWidth 32)) (off + 4) ((v >>> 32).setWidth 32) := by
  simp [State.sizedWrite, h]

theorem State.sizedWrite_other {size : Nat} (h4 : ¬ (size = 4 ∧ off % 4 = 0)) (h8 : ¬ (size = 8 ∧ off % 8 = 0)) :
    s.sizedWrite f off size v w = s.emit (.unsupported f) := by
  simp [State.sizedWrite, h4, h8]

theorem execRegisterWrite_bar0 (h : Reaches s f) (hb : off < barSize f .bar0) (size : Nat) :
    execRegisterWrite f .bar0 off size v s = .next (s.sizedWrite f off size v fun s off v => s.wordWrite f off v) := by
  simp [execRegisterWrite, State.access_of h, hb]

theorem execRegisterWrite_bar2 (h : Reaches s f) (hb : off < barSize f .bar2) (size : Nat) :
    execRegisterWrite f .bar2 off size v s = .next (s.sizedWrite f off size v fun s off v => s.msixWrite f off v) := by
  simp [execRegisterWrite, State.access_of h, hb]

theorem execRegisterWrite_beyond_bar0 (hb : barSize f .bar0 ≤ off) (size : Nat) : execRegisterWrite f .bar0 off size v s = .next s := by
  simp [execRegisterWrite, hb]

end Sizes

/-- A port that answers takes a configuration request of its functions (R70). -/
theorem State.configRequest_of {s : State} {f : Fn} (hf : fnOk f = true) (hp : s.portAnswers f.port = true) (k : State → State) :
    s.configRequest f k = k s := by
  simp [State.configRequest, hf, hp]

theorem fnOk_of_isPf {f : Fn} (h : isPf f = true) : fnOk f = true := by
  simp_all [isPf, fnOk]

/-! ### Read-only registers -/

/-- The blocks that hold read-only registers. -/
theorem roRegister_block {b o : Nat} (h : roRegister b o = true) :
    b ∈ [0x000, 0x001, 0x100, 0x110, 0x120, 0x130, 0x140, 0x150, 0x160, 0x170, 0x180, 0x190, 0x1A0] := by
  unfold roRegister at h
  split at h <;> simp at h ⊢

/-- No read-only register has a write command of its own. -/
theorem State.ownWrite_of_readOnly {s : State} {f : Fn} {off : Nat} {v : Word32} (h : roRegister (off / 0x1000) (off % 0x1000) = true) :
    s.ownWrite f off v = none := by
  have hb := roRegister_block h
  simp only [List.mem_cons, List.not_mem_nil, or_false] at hb
  have doorbells : ¬ (0x10000 ≤ off ∧ off < 0x12000) := by omega
  have pages : ¬ (0x1000000 ≤ off ∧ off < 0x1400000) := by omega
  have vinfo : ¬ ((0x120100 ≤ off ∧ off < 0x120240) ∧ off % 16 = 0) := by
    rintro ⟨hv, h16⟩
    have hblock : off / 0x1000 = 0x120 := by omega
    simp [roRegister, hblock] at h
    omega
  unfold State.ownWrite
  simp only [Bool.and_eq_true, decide_eq_true_eq, doorbells, pages, vinfo, if_false]
  split <;> simp [roRegister] at h ⊢

theorem State.bar0Write_readOnly {s : State} {f : Fn} {off : Nat} {v : Word32} (hf : isPf f = true)
    (hb : s.blockWrites f.port (off / 0x1000) = true) (h : roRegister (off / 0x1000) (off % 0x1000) = true) :
    s.bar0Write f off v = s.regError f St.accessDenied off := by
  simp [State.bar0Write, hb, h, hf]

/-- A write of a PF to a read-only register is dropped and recorded (R72). -/
theorem State.wordWrite_readOnly {s : State} {f : Fn} {off : Nat} {v : Word32} (hf : isPf f = true)
    (hb : s.blockWrites f.port (off / 0x1000) = true) (h : roRegister (off / 0x1000) (off % 0x1000) = true) :
    s.wordWrite f off v = s.regError f St.accessDenied off := by
  simp [State.wordWrite, State.ownWrite_of_readOnly h, State.bar0Write_readOnly hf hb h]

/-! ### Fields of the configuration transaction -/

section Staged
variable {s : State} {off : Nat} {m : Word32}

theorem State.txWrite_of_owner {x : TxWriter} (hm : txMask off = some m) (ho : s.ownsTx x = true) (ha : s.txAbsent off = false)
    (v : Word32) : s.txWrite x off v = (s.stage off (v &&& m)).touchTx := by
  simp [State.txWrite, hm, ho, ha]

theorem State.txWrite_of_other_host {f : Fn} (hm : txMask off = some m) (ho : s.ownsTx (.host f) = false) (v : Word32) :
    s.txWrite (.host f) off v = s.regError f St.configLocked off := by
  simp [State.txWrite, hm, ho]

theorem State.txWrite_of_other_supervisor {w : Wing} (hm : txMask off = some m) (ho : s.ownsTx (.supervisor w) = false) (v : Word32) :
    s.txWrite (.supervisor w) off v = s := by
  simp [State.txWrite, hm, ho]

theorem execTxFieldWrite_of_host {f : Fn} (hm : txMask off = some m) (h : Manages s f off) (v : Word32) :
    execTxFieldWrite (.host f) off v s = .next (s.txWrite (.host f) off v) := by
  simp [execTxFieldWrite, hm, State.mgmtWrite_of h]

theorem execTxFieldWrite_of_supervisor {w : Wing} (h : s.supervisorUp w = true) (v : Word32) :
    execTxFieldWrite (.supervisor w) off v s = .next (s.txWrite (.supervisor w) off v) := by
  simp [execTxFieldWrite, h]

end Staged

/-- Settles O9: a write by its window and then by its size, a staged one by its writer and the owner of the transaction. -/
theorem registerWritesReachTheirBlockOrTransaction : Obligations.RegisterWritesReachTheirBlockOrTransaction := by
  constructor
  case left =>
    intro f off v s
    refine ⟨?four, ?eight, ?readOnly, ?other, ?beyond, ?msix, ?msixEnable, ?config⟩
    case four => exact fun h hb h4 => (execRegisterWrite_bar0 h hb 4).trans (next_congr (State.sizedWrite_four h4))
    case eight => exact fun h hb h8 => (execRegisterWrite_bar0 h hb 8).trans (next_congr (State.sizedWrite_eight h8))
    case readOnly =>
      intro h hb h4 hf hw hro
      refine (execRegisterWrite_bar0 h hb 4).trans (next_congr ?_)
      rw [State.sizedWrite_four h4, State.wordWrite_readOnly hf hw hro]
    case other =>
      exact fun size h hb h4 h8 => (execRegisterWrite_bar0 h hb size).trans (next_congr (State.sizedWrite_other h4 h8))
    case beyond => exact fun size hb => execRegisterWrite_beyond_bar0 hb size
    case msix => exact fun h hb h4 => (execRegisterWrite_bar2 h hb 4).trans (next_congr (State.sizedWrite_four h4))
    case msixEnable => exact fun hf hp => next_congr (State.configRequest_of hf hp _)
    case config =>
      intro hf hp
      have takes := State.configRequest_of (fnOk_of_isPf hf) hp
      refine ⟨fun hv => next_congr ?_, next_congr ?_, next_congr ?_⟩
      · exact (takes _).trans (if_neg (by simp [hf, hv]))
      · exact (takes _).trans (if_pos hf)
      · exact (takes _).trans (if_pos hf)
  case right =>
    intro f w off v m s hm
    refine ⟨?owner, ?otherHost, ?supervisor, ?otherSupervisor⟩
    case owner =>
      exact fun h ho ha => (execTxFieldWrite_of_host hm h v).trans (next_congr (State.txWrite_of_owner hm ho ha v))
    case otherHost =>
      exact fun h ho => (execTxFieldWrite_of_host hm h v).trans (next_congr (State.txWrite_of_other_host hm ho v))
    case supervisor =>
      exact fun h ho ha => (execTxFieldWrite_of_supervisor h v).trans (next_congr (State.txWrite_of_owner hm ho ha v))
    case otherSupervisor =>
      exact fun h ho => (execTxFieldWrite_of_supervisor h v).trans (next_congr (State.txWrite_of_other_supervisor hm ho v))

end Sys2Proof.Machine
end

section
/-! SUPPORT. Doorbells (R55 to R57, R90), the FSTAT registers (R52, R54), the admin queue's enable (R58, R59, R84) and interrupts (R61,
R104). -/

namespace Sys2Proof.Machine

/-! ### Doorbells -/

section Doorbell
variable {s : State} {f : Fn} {q : QSel} {c : Bool} {i : Nat}

/-- What a doorbell that is ignored leaves: the queue's first error and FSTAT_QERR (R57, R91). -/
def State.bellError (s : State) (f : Fn) (q : QSel) (c : Bool) (r : Nat) : State :=
  (if (s.queue f q).created && (s.queue f q).firstErr = 0 then s.setQueue f q { s.queue f q with firstErr := r } else s).queueError f q c r

/-- A doorbell is taken by its function: the write reaches its block, names a queue that a function can have, and the function is ready
(R45, R56). -/
structure DoorbellTaken (s : State) (f : Fn) (q : QSel) (c : Bool) : Prop extends Writes s f (doorbellOff q c) where
  named : ∀ n, q = .io n → n < 512
  ready : (s.fn f).ready = true

theorem State.doorbell_of_reason {r : Nat} (h : DoorbellTaken s f q c) (hr : s.doorbellReason f q i = some r) (k : State → State) :
    s.doorbell f q c i k = s.bellError f q c r := by
  cases q with
  | admin => simp [State.doorbell, State.write_of h.toWrites, h.ready, hr, State.bellError]
  | io n =>
    have hn : ¬ 512 ≤ n := Nat.not_le.mpr (h.named n rfl)
    simp [State.doorbell, State.write_of h.toWrites, h.ready, hr, hn, State.bellError]

theorem State.doorbell_of_no_reason (h : DoorbellTaken s f q c) (hr : s.doorbellReason f q i = none) (k : State → State) :
    s.doorbell f q c i k = k s := by
  cases q with
  | admin => simp [State.doorbell, State.write_of h.toWrites, h.ready, hr]
  | io n =>
    have hn : ¬ 512 ≤ n := Nat.not_le.mpr (h.named n rfl)
    simp [State.doorbell, State.write_of h.toWrites, h.ready, hr, hn]

end Doorbell

section Completion
variable {s : State} {f : Fn} {q : QSel} {i : BitVec 16}

/-- A completion head within the records written frees their slots (R56, R83). -/
theorem execCompletionDoorbell_within (h : DoorbellTaken s f q true) (hr : s.doorbellReason f q i.toNat = none)
    (hi : ringCount (s.queue f q).depth (s.queue f q).cqHead i.toNat ≤ ringCount (s.queue f q).depth (s.queue f q).cqHead (s.queue f q).cqTail) :
    execCompletionDoorbell f q i s =
      .next (let t := s.setQueue f q { s.queue f q with cqHead := i.toNat }
             if q = .admin then t.fetchHead f q else t) := by
  simp [execCompletionDoorbell, State.doorbell_of_no_reason h hr, Nat.not_lt.mpr hi]

/-- A completion head past the records written is ignored with reason 3 (R57). -/
theorem execCompletionDoorbell_beyond (h : DoorbellTaken s f q true) (hr : s.doorbellReason f q i.toNat = none)
    (hi : ringCount (s.queue f q).depth (s.queue f q).cqHead (s.queue f q).cqTail < ringCount (s.queue f q).depth (s.queue f q).cqHead i.toNat) :
    execCompletionDoorbell f q i s =
      .next ((s.setQueue f q { s.queue f q with firstErr := if (s.queue f q).firstErr = 0 then 3 else (s.queue f q).firstErr }).queueError
        f q true 3) := by
  simp [execCompletionDoorbell, State.doorbell_of_no_reason h hr, hi]

end Completion

/-- Settles O10: a doorbell of a ready function splits by the reason to ignore it, a completion doorbell then by the records written. -/
theorem doorbellsMoveTheRings : Obligations.DoorbellsMoveTheRings := by
  intro f q index s hq hready
  have taken {c : Bool} (h : Writes s f (doorbellOff q c)) : DoorbellTaken s f q c := ⟨h, hq, hready⟩
  refine ⟨?tail, ?ignored, ?head, ?pastTail⟩
  case tail => exact fun h hr => next_congr (State.doorbell_of_no_reason (taken h) hr _)
  case ignored => exact fun r h hr => next_congr (State.doorbell_of_reason (taken h) hr _)
  case head => exact fun h => execCompletionDoorbell_within (taken h)
  case pastTail => exact fun h => execCompletionDoorbell_beyond (taken h)

/-! ### The FSTAT registers -/

section Fstat
variable {s : State} {f : Fn} {v : Word32}

theorem execFstatCauseEnWrite_of_no_cause (h : Writes s f 0x1008) (hc : (v &&& causeMask) &&& ~~~(s.fn f).causeEn &&& (s.fn f).cause = 0) :
    execFstatCauseEnWrite f v s = .next (s.setFn f { s.fn f with causeEn := v &&& causeMask }) :=
  next_congr ((State.write_of h _).trans (if_pos hc))

/-- A write that enables a latched cause sends vector 0 (R54). -/
theorem execFstatCauseEnWrite_of_cause (h : Writes s f 0x1008) (hc : (v &&& causeMask) &&& ~~~(s.fn f).causeEn &&& (s.fn f).cause ≠ 0) :
    execFstatCauseEnWrite f v s = .next ((s.setFn f { s.fn f with causeEn := v &&& causeMask }).sendMsix f 0) :=
  next_congr ((State.write_of h _).trans (if_neg hc))

end Fstat

/-- Settles O11: a read by its register, a write of the cause enables by whether it enables a latched cause. -/
theorem fstatRegistersClearAndCausesLatch : Obligations.FstatRegistersClearAndCausesLatch := by
  constructor
  case left =>
    intro f s
    have reads {off : Nat} (h : Reads s f off) (v : Word32) (k : State → State) := next_congr (State.sideRead_of h v k)
    exact ⟨fun h => reads h _ _, fun h => reads h _ _, fun h => reads h _ _⟩
  case right =>
    intro f v c s
    refine ⟨?clear, ?quiet, ?latched⟩
    case clear => exact fun h => next_congr (State.write_of h _)
    case quiet => exact execFstatCauseEnWrite_of_no_cause
    case latched => exact execFstatCauseEnWrite_of_cause

/-! ### The admin queue and interrupts -/

section Admq
variable {s : State} {f : Fn}

theorem execAdmqEnable_of_depth (h : Writes s f 0x20000) (hr : (s.fn f).ready = true) (he : (s.fn f).admEnable = false)
    (h2 : 2 ≤ (s.fn f).admDepth.toNat) (h4096 : (s.fn f).admDepth.toNat ≤ 4096) :
    execAdmqEnable f s = .next (s.setFn f { s.fn f with admEnable := true, admQ := (s.fn f).admRings }) := by
  refine next_congr ((State.write_of h _).trans ((if_neg ?off).trans (if_neg ?range)))
  case off => simp [hr, he]
  case range => simpa only [Bool.or_eq_true, decide_eq_true_eq, not_or, gt_iff_lt, Nat.not_lt] using ⟨h2, h4096⟩

theorem execAdmqEnable_of_bad_depth (h : Writes s f 0x20000) (hr : (s.fn f).ready = true) (he : (s.fn f).admEnable = false)
    (hd : (s.fn f).admDepth.toNat < 2 ∨ 4096 < (s.fn f).admDepth.toNat) :
    execAdmqEnable f s = .next (s.regError f St.inputRange 0x20000) := by
  refine next_congr ((State.write_of h _).trans ((if_neg ?off).trans (if_pos ?range)))
  case off => simp [hr, he]
  case range => simpa using hd

theorem execAdmqDisable_of_enabled (h : Writes s f 0x20000) (he : (s.fn f).admEnable = true) :
    execAdmqDisable f s =
      .next ((s.dropHeld f fun h => h.q == .admin).modFn f fun x => { x with admEnable := false, admQ := {}, admDiscard := x.admCur.isSome }) := by
  simp [execAdmqDisable, State.write_of h, he]

theorem execMsixUnmask_of_masked {n : Nat} (h : Reaches s f) (hn : n < vectorsOf f) (ht : s.tableWrites f.port = true)
    (hm : (s.fn f).unmasked.contains n = false) :
    execMsixUnmask f n s = .next ((s.modFn f fun x => { x with unmasked := n :: x.unmasked }).sendPending f) := by
  simp only [execMsixUnmask, State.access_of h, ht, hm, Nat.not_le.mpr hn]
  simp

theorem execModerationTimerExpiry_of_due {q : Nat} (hc : (s.queue f (.io q)).created = true) (hu : (s.queue f (.io q)).unsignalled ≠ 0)
    (ht : (s.queue f (.io q)).modStart + 1000 * (s.queue f (.io q)).timerUs ≤ s.now) :
    execModerationTimerExpiry f q s =
      .next ((s.setQueue f (.io q) { s.queue f (.io q) with unsignalled := 0 }).sendMsix f (s.queue f (.io q)).vector) := by
  simp [execModerationTimerExpiry, hc, hu, Nat.not_lt.mpr ht]

end Admq

/-- Settles O12: the enable of the admin queue by its programmed depth, its disable, an unmasked vector and a moderation time that has
passed, each by the guards of its own lemma. -/
theorem adminQueueEnablesAndInterrupts : Obligations.AdminQueueEnablesAndInterrupts := by
  constructor
  case left => exact fun f s => ⟨execAdmqEnable_of_depth, execAdmqEnable_of_bad_depth, execAdmqDisable_of_enabled⟩
  case right => exact fun f n q s => ⟨execMsixUnmask_of_masked, execModerationTimerExpiry_of_due⟩

end Sys2Proof.Machine
end

section
/-! SUPPORT. What resets, configuration and errors do at a host port (R42, R62, R69 to R72): one lemma per event that the port takes. -/

namespace Sys2Proof.Machine

/-! ### PERST# and the link -/

section Perst
variable {s : State} {w : Wing}

theorem execPerstAssert_of_released (hb : s.boot.inReset = false) (hp : (s.port w).perst = false) :
    execPerstAssert w s =
      .next (let t := s.portDown w; (t.setPort w { t.port w with perst := true, linkRate := 0, linkWidth := 0 }).pumpAll) := by
  simp [execPerstAssert, hb, hp]

/-- The link trains at a rate and a width of R42. -/
theorem execPerstDeassert_of_asserted {rate width : Nat} (hb : s.boot.inReset = false) (hp : (s.port w).perst = true) (h1 : 1 ≤ rate)
    (h6 : rate ≤ 6) (hw : [1, 2, 4, 8].contains width = true) :
    execPerstDeassert ⟨w, rate, width⟩ s =
      .next (s.setPort w { s.port w with perst := false, perstReleasedAt := s.now, linkRate := rate, linkWidth := width }) := by
  simp only [execPerstDeassert, hp, hb, h1, h6, hw]
  simp

theorem execPortUncorrectableError_of_released (hb : s.boot.inReset = false) (hp : (s.port w).perst = false) :
    execPortUncorrectableError w s =
      .next (let t := (s.setPort w { s.port w with aer := (s.port w).aer ++ [.uncorrectableInternal] }).log 3 0 (dieSrc (wingDie w)) [0xFF]
             ((t.abortJobs fun _ j => fromFn (·.port == w) j).forAll (t.portPages w) fun t q => t.abortPage q).pumpAll) := by
  simp [execPortUncorrectableError, hb, hp]

end Perst

/-! ### Configuration -/

/-- What a port's configuration space, once ready, lets follow (R70, R406). -/
def State.openPort (t : State) (w : Wing) : State :=
  if t.reportOnly w || t.recovery then t
  else ((if t.boot.stage = 4 then { t with boot := { t.boot with stage := 5 } } else t).forAll (portFns w) fun t f => t.setReady f true).tryAdmit w

theorem execConfigurationReady_of_configurable {s : State} {w : Wing} (hb : s.boot.inReset = false) (hp : (s.port w).perst = false)
    (hr : (s.port w).cfgReady = false) (hc : s.configurable w = true) :
    execConfigurationReady w s = .next ((s.setPort w { s.port w with cfgReady := true }).openPort w) := by
  simp only [execConfigurationReady, hb, hp, hr, hc, State.openPort]
  simp

/-- A port whose configuration space is not ready completes a request with Request Retry Status (R70). -/
theorem State.configRequest_of_not_ready {s : State} {f : Fn} (hf : fnOk f = true) (hb : s.boot.inReset = false)
    (hp : (s.port f.port).perst = false) (hr : (s.port f.port).cfgReady = false) (k : State → State) :
    s.configRequest f k = s.emit (.retry f) := by
  simp [State.configRequest, State.portAnswers, hf, hb, hp, hr]

/-! ### Bus mastering and streams -/

section Master
variable {s : State} {f : Fn}

theorem execBusMasterEnableClear_of_set (hf : fnOk f = true) (hp : s.portAnswers f.port = true) (hb : (s.fn f).bme = true) :
    execBusMasterEnableClear f s =
      .next ((s.modFn f fun x => { x with bme := false }).endJobs (fun _ j => fromFn (· == f) j) St.badBuffer).pumpAll :=
  next_congr ((State.configRequest_of hf hp _).trans (if_neg (by simp [hb])))

theorem execBusMasterEnableSet_of_clear (hf : fnOk f = true) (hp : s.portAnswers f.port = true) (hb : (s.fn f).bme = false) :
    execBusMasterEnableSet f s =
      .next ((((s.modFn f fun x => { x with bme := true, heldRecords := [] }).forAll (s.fn f).heldRecords
        fun t h => t.putRecord f h.q (h.late s.now) h.irq h.c0).sendPending f).refetch f) :=
  next_congr ((State.configRequest_of hf hp _).trans (if_neg (by simp [hb])))

theorem execIdeStreamFail_of_secure {w : Wing} {n : Nat} (h : (s.port w).ideSecure.contains n = true) :
    execIdeStreamFail w n s = .next (s.streamFail w n).pumpAll :=
  next_congr (if_neg (by simp only [h]; exact Bool.false_ne_true))

end Master

/-- Settles O16: events of the port itself by its PERST# and its configuration space, requests of a function by whether its port answers. -/
theorem portResetsAndConfiguration : Obligations.PortResetsAndConfiguration := by
  intro w f s hb
  refine ⟨?perst, ?release, ?ready, ?retry, ?reset, ?vfs, ?masterClear, ?masterSet, ?stream, ?error⟩
  case perst => exact execPerstAssert_of_released hb
  case release => exact fun rate width => execPerstDeassert_of_asserted hb
  case ready => exact execConfigurationReady_of_configurable hb
  case retry =>
    intro hf hp hr c hc
    have retries (k : State → State) := next_congr (State.configRequest_of_not_ready hf hb hp hr k)
    simp only [List.mem_cons, List.not_mem_nil, or_false] at hc
    rcases hc with rfl | rfl | rfl <;> exact retries _
  case reset => exact fun hf hp => next_congr (State.configRequest_of hf hp _)
  case vfs => exact fun hp => next_congr (State.configRequest_of (f := pf0 w) rfl hp _)
  case masterClear => exact execBusMasterEnableClear_of_set
  case masterSet => exact execBusMasterEnableSet_of_clear
  case stream => exact fun n => execIdeStreamFail_of_secure
  case error => exact execPortUncorrectableError_of_released hb

end Sys2Proof.Machine
end

section
/-! SUPPORT. The data of a job's host reads (R139, R543), and what a failed transfer ends (R72, R91, R94, R141, R542). -/

namespace Sys2Proof.Machine

/-! ### Reads -/

/-- A host read of a job's EXEC in its reading stage is outstanding. -/
structure ReadDue (s : State) (n k : Nat) (j : Job) (e : Exec) (r : ReadReq) : Prop where
  job : s.job n = some j
  exec : j.exec = some e
  stage : e.stage = .reading
  read : e.reads[k]? = some r
  due : r.got = none

section Reads
variable {s : State} {n k : Nat} {j : Job} {e : Exec} {r : ReadReq} {kind : ReadFailure}

theorem execDmaReadCompletion_of_due {data : List Byte} (h : ReadDue s n k j e r) (hf : s.tamper.frozen = false)
    (hg : (s.work.grants.any fun g => g.job == n && g.suspended && g.res == .dmaRead j.wing) = false) (hl : data.length = r.len) :
    execDmaReadCompletion n k data s =
      .next (s.putJob n { j with exec := some { e with reads := setAt e.reads k { r with got := some data } } }).pumpAll := by
  simp only [execDmaReadCompletion, h.job, h.exec, h.read, hf, hg, h.stage, h.due, hl]
  simp

/-- A failed read of an input ends the job as R542 demands. -/
theorem execDmaReadFailure_of_input (h : ReadDue s n k j e r) :
    execDmaReadFailure (.input n k) kind s = .next (s.jobReadFails n j kind r.addr) := by
  simp [execDmaReadFailure, h.job, h.exec, h.stage, h.read, h.due]

theorem execDmaReadFailure_of_paramBlock (hj : s.job n = some j) (hp : j.phase = .placed) (hl : j.paramLen ≠ 0) :
    execDmaReadFailure (.paramBlock n) kind s = .next (s.jobReadFails n j kind j.paramAddr) := by
  simp [execDmaReadFailure, hj, hp, hl]

end Reads

section Queues
variable {s : State} {f : Fn} {q : QSel} {kind : ReadFailure}

/-- A failed read of a slot stops the queue with reason 4 and is logged (R91). -/
theorem execDmaReadFailure_of_slot (hf : fnOk f = true) (hc : (s.queue f q).created = true) (hr : (s.queue f q).stopped = false)
    (he : (s.queue f q).heldEntry = none) (hd : (s.queue f q).sqHead ≠ (s.queue f q).sqTail) (hb : (s.fn f).bme = true) :
    execDmaReadFailure (.slot f q) kind s =
      .next (((s.aerRead f.port kind).stopQueue f q false 4 false).log 1 St.badBuffer 0
        (leBytes 2 (qselNum q) ++ [byte f.vf, byte (failureCode kind)])) := by
  simp [execDmaReadFailure, hf, hc, hr, he, hd, hb]

/-- A failed write of a record stops the completion side with reason 5, and the log names the record's tag (R72, R94). -/
theorem execDmaWriteInternalError_of_record (hf : fnOk f = true) (hc : (s.queue f q).created = true) (hw : (s.queue f q).wrote = true)
    (hd : (s.queue f q).discards = false) :
    execDmaWriteInternalError (.record f q) s =
      .next (
        (let t := s.stopQueue f q true 5 true
         if (s.queue f q).deleting then t.setQueue f q { t.queue f q with endedSilently := (s.queue f q).endedSilently + 1 } else t).log 1 0 0
          (leBytes 4 (s.queue f q).lastTag.toNat ++ leBytes 2 (qselNum q))) := by
  simp [execDmaWriteInternalError, hf, hc, hw, hd]

end Queues

/-! ### Writes of a job -/

section Writes
variable {s : State} {n : Nat} {j : Job}

theorem State.writeFault_of_outputs {e : Exec} {r : ExecResult} (hg : j.group = none) (he : j.exec = some e) (hs : e.stage = .running)
    (hr : e.result = some r) (ho : hostOuts (outPairs j r.outs) ≠ []) : s.writeFault n j = s.jobWriteFails n j r := by
  simp [State.writeFault, hg, he, hs, hr, ho]

theorem State.writeFault_of_release {g : Group} (hp : j.phase = .release) (hg : j.group = some g) (hs : g.staged ≠ []) :
    s.writeFault n j = s.releaseWriteFails n j := by
  simp [State.writeFault, hp, hg, hs]

/-- Inside a group nothing has been written yet (R139). -/
theorem State.writeFault_of_open_group {g : Group} (hp : j.phase ≠ .release) (hg : j.group = some g) : s.writeFault n j = s := by
  simp [State.writeFault, hp, hg]

theorem execDmaWriteInternalError_of_job (hj : s.job n = some j) (hf : s.tamper.frozen = false) :
    execDmaWriteInternalError (.job n) s = .next (s.writeFault n j) := by
  simp [execDmaWriteInternalError, hj, hf]

theorem execDmaWriteInternalError_of_frozen (hf : s.tamper.frozen = true) : execDmaWriteInternalError (.job n) s = .next s := by
  unfold execDmaWriteInternalError
  cases hj : s.job n <;> simp [hj, hf]

end Writes

/-- Settles O17: a transfer's end by what was read or written, a job's write further by its group. -/
theorem dmaCompletionsAndFailures : Obligations.DmaCompletionsAndFailures := by
  intro n k j e r data kind f q s
  refine ⟨?data, ?input, ?block, ?slot, ?record, ?outputs, ?release, ?group⟩
  case data => exact fun hj he hr hf hs hg hd hl => execDmaReadCompletion_of_due ⟨hj, he, hs, hr, hd⟩ hf hg hl
  case input => exact fun hj he hs hr hd => execDmaReadFailure_of_input ⟨hj, he, hs, hr, hd⟩
  case block => exact execDmaReadFailure_of_paramBlock
  case slot => exact execDmaReadFailure_of_slot
  case record => exact execDmaWriteInternalError_of_record
  case outputs =>
    exact fun x hj he hs hr ho hg hf => (execDmaWriteInternalError_of_job hj hf).trans (next_congr (State.writeFault_of_outputs hg he hs hr ho))
  case release =>
    exact fun g hj hp hg hs hf => (execDmaWriteInternalError_of_job hj hf).trans (next_congr (State.writeFault_of_release hp hg hs))
  case group =>
    intro g hj hp hg
    cases hf : s.tamper.frozen with
    | true => exact execDmaWriteInternalError_of_frozen hf
    | false => exact (execDmaWriteInternalError_of_job hj hf).trans (next_congr (State.writeFault_of_open_group hp hg))

end Sys2Proof.Machine
end

section
/-! SUPPORT. The endpoints that answer SPDM and MCTP requests (R65 to R67, R73, R74). -/

namespace Sys2Proof.Machine

/-! ### Measurements -/

/-- The endpoint of a request answers: the DOE mailbox of its port is up, or it is the Curator endpoint. -/
def State.viaUp (s : State) (via : SpdmVia) : Prop := ∀ w, via = .doe w → s.doeUp w = true

section Measurements
variable {s : State} {via : SpdmVia}

theorem execGetMeasurements_of_up (hb : s.boot.inReset = false) (hv : s.viaUp via) (index : Nat) (ask : MeasAsk) :
    execGetMeasurements via index ask s =
      .next (if ask.spansHandover then s.spdmError via SpdmErr.busy
        else if !(s.spdmOf via).negotiated then s.spdmError via SpdmErr.unexpectedRequest
        else s.measurements via index ask.sign) := by
  cases via with
  | doe w => simp [execGetMeasurements, hv w rfl]
  | mctp => simp [execGetMeasurements, hb]

end Measurements

/-! ### MCTP -/

section Mctp
variable {s : State} {ep : Endpoint}

/-- Set Endpoint ID takes every identifier but the null and the broadcast one. -/
theorem execMctpControl_of_set {msg : List Byte} (hb : s.boot.inReset = false) (hm : byteAt msg 1 = 0x01) (h0 : byteAt msg 3 ≠ 0)
    (hFF : byteAt msg 3 ≠ 0xFF) :
    execMctpControl ep msg s =
      .next (({ s with host := { s.host with eids := setAt s.host.eids (endpointIdx ep) (byte (byteAt msg 3)) } }).mctp ep true
        [0x00, 0x00, byte (byteAt msg 3), 0x00]) := by
  simp [execMctpControl, hb, hm, h0, hFF]

theorem execMctpControl_of_get {msg : List Byte} (hb : s.boot.inReset = false) (hm : byteAt msg 1 = 0x02) :
    execMctpControl ep msg s = .next (s.mctp ep true [0x00, s.host.eids.getD (endpointIdx ep) 0, 0x00, 0x00]) := by
  simp [execMctpControl, hb, hm]

theorem execMctpRegisterRead_of_dev {f : Fn} {off : Nat} (hb : s.boot.inReset = false) (ho : off / 0x1000 = 0x100) :
    execMctpRegisterRead ep f off s = .next (s.mctp ep true (leBytes 4 (s.readDev (off % 0x1000)).toNat)) := by
  simp [execMctpRegisterRead, hb, ho]

/-- A read of FSTAT over MCTP clears what a host's read clears (R52). -/
theorem execMctpRegisterRead_of_fstat {f : Fn} {off : Nat} (hb : s.boot.inReset = false) (ho : off / 0x1000 = 0x001) (hf : fnOk f = true) :
    execMctpRegisterRead ep f off s =
      .next ((s.mctp ep true (leBytes 4 (s.readFstat f (off % 0x1000)).toNat)).fstatReadClear f (off % 0x1000)) := by
  simp [execMctpRegisterRead, hb, ho, hf]

theorem execMctpDeviceReset_of_right (hb : s.boot.inReset = false) (hp : s.devPolicy.smbReset = true) :
    execMctpDeviceReset .curator s = .next s.orderedReset := by
  simp [execMctpDeviceReset, hb, hp]

theorem execMctpDeviceReset_of_no_right (hb : s.boot.inReset = false) (hp : s.devPolicy.smbReset = false) :
    execMctpDeviceReset .curator s = .next (s.mctp .curator false []) := by
  simp [execMctpDeviceReset, hb, hp]

end Mctp

/-- Settles O18: GET_MEASUREMENTS by the hand-over in its span and then by the negotiation, MCTP by the message and the block that a
register read names. -/
theorem spdmAndMctpRequestsAnswer : Obligations.SpdmAndMctpRequestsAnswer := by
  intro w req via index sign ep s hb
  have taken : ¬ s.boot.inReset = true := by simp [hb]
  refine ⟨?doe, ?measurements, ?busy, ?unexpected, ?setEid, ?getEid, ?spdm, ?dev, ?fstat, ?reset, ?noReset⟩
  case doe => exact fun hu => next_congr (if_pos hu)
  case measurements =>
    intro hv hn
    exact (execGetMeasurements_of_up hb hv index ⟨sign, false⟩).trans (next_congr (by simp [hn]))
  case busy => exact fun hv => execGetMeasurements_of_up hb hv index ⟨sign, true⟩
  case unexpected =>
    intro hv hn
    exact (execGetMeasurements_of_up hb hv index ⟨sign, false⟩).trans (next_congr (by simp [hn]))
  case setEid => exact fun msg => execMctpControl_of_set hb
  case getEid => exact fun msg => execMctpControl_of_get hb
  case spdm => exact ⟨next_congr (if_neg taken), next_congr (if_neg taken)⟩
  case dev => exact fun f off => execMctpRegisterRead_of_dev hb
  case fstat => exact fun f off => execMctpRegisterRead_of_fstat hb
  case reset => exact execMctpDeviceReset_of_right hb
  case noReset => exact execMctpDeviceReset_of_no_right hb

end Sys2Proof.Machine
end

section
/-! SUPPORT. How a die judges, leaves and takes back its clock sources (R511 to R515), and the pins, timers and link power (R485, R530,
R541). -/

namespace Sys2Proof.Machine

/-! ### Switches -/

section Switches
variable {s : State} {d : Die}

/-- A switch of a wing's die changes that die alone: CLKPWR_SWITCHES and CLKPWR_LASTSW show the Curator die's. -/
theorem State.switchDie_of_wing (h : d ≠ .curatorDie) (dest : ClockSource) (forced : Bool) :
    s.switchDie d dest forced =
      s.setClockDie d { s.clockDie d with source := if dest = .watch then .watch else .switching dest } := by
  simp [State.switchDie, h]

/-- A die that runs on CLKREF and loses it must go to a stable XTAL, else to watch mode (R511). -/
theorem ClockDie.wanted_of_lost_clkref {x : ClockDie} (h : x.source = .clkref) :
    ({ x with clkrefOk := false } : ClockDie).wanted = some (if x.xtalOk then .xtal else .watch, true) := by
  simp [ClockDie.wanted, h]

theorem State.leaveFailed_of_forced {dest : ClockSource} (h : (s.clockDie d).wanted = some (dest, true)) :
    s.leaveFailed d = s.switchDie d dest true := by
  simp [State.leaveFailed, h]

theorem State.refFailed_clkref (hd : d ≠ .curatorDie) :
    s.refFailed d .clkref = (s.setClockDie d { s.clockDie d with clkrefOk := false }).leaveFailed d := by
  simp [State.refFailed, hd]

/-- A die of a wing that loses CLKREF makes its forced switch at once (log entry 23). -/
theorem State.refFailed_clkref_of_source (hd : d ≠ .curatorDie) (hs : (s.clockDie d).source = .clkref) :
    s.refFailed d .clkref = (s.setClockDie d { s.clockDie d with clkrefOk := false }).setClockDie d
      { s.clockDie d with clkrefOk := false, source := if (s.clockDie d).xtalOk then .switching .xtal else .watch } := by
  have hw := ClockDie.wanted_of_lost_clkref hs
  rw [State.refFailed_clkref hd, State.leaveFailed_of_forced (by rw [State.clockDie_setClockDie]; exact hw), State.switchDie_of_wing hd]
  cases (s.clockDie d).xtalOk <;> simp

theorem execClockSwitch_of_wanted {dest : ClockSource} {forced : Bool} (hb : s.boot.inReset = false)
    (hw : (s.clockDie d).wanted = some (dest, forced)) : execClockSwitch d dest forced s = .next (s.switchDie d dest forced) := by
  simp [execClockSwitch, hb, hw]

theorem execPllLock_of_clkref {p : Nat} (hs : (s.clockDie d).source = .switching .clkref) (ho : (s.clockDie d).clkrefOk = true)
    (hd : d ≠ .curatorDie) : execPllLock d p s = .next (s.setClockDie d { s.clockDie d with source := .clkref }) := by
  simp [execPllLock, hs, ho, hd]

/-- The Curator die's CLKPWR_LASTSW shows how long its domains stood (R525). -/
theorem execPllLock_of_xtal {p : Nat} (hs : (s.clockDie d).source = .switching .xtal) (ho : (s.clockDie d).xtalOk = true)
    (hd : d = .curatorDie) :
    execPllLock d p s =
      .next (let t := s.setClockDie d { s.clockDie d with source := .xtal }
             { t with power := { t.power with lastSw := setField t.power.lastSw 16 16 (min p 65535) } }) := by
  subst hd
  simp [execPllLock, hs, ho, sat_eq_min]

theorem State.revertDie_of_xtal (hs : (s.clockDie d).source = .xtal) (ho : (s.clockDie d).clkrefOk = true) :
    s.revertDie d = s.switchDie d .clkref false := by
  simp [State.revertDie, hs, ho]

end Switches

/-! ### Windows and delays -/

section Windows
variable {s : State} {d : Die}

theorem State.checkRef_of_clean {p : Nat} (h900 : 900 ≤ p) (h1100 : p ≤ 1100) (src : ClockSource) :
    s.checkRef d src p = s.setClockDie d ((s.clockDie d).judge src s.now) := by
  simp [State.checkRef, Nat.not_lt.mpr h900, Nat.not_lt.mpr h1100]

theorem execFrequencyWindow_of_clean_watch {w : ClockWindow} (hb : s.boot.inReset = false) (h30 : 30 ≤ w.watchMhz) (h70 : w.watchMhz ≤ 70) :
    execFrequencyWindow d w s = .next ((s.checkRef d .clkref w.clkrefPermille).checkRef d .xtal w.xtalPermille) := by
  simp [execFrequencyWindow, hb, Nat.not_lt.mpr h30, Nat.not_lt.mpr h70]

theorem execXtalStartDelayExpiry_of_due (hb : s.boot.inReset = false) (hd : (s.clockDie d).xtalDelayed = false)
    (ht : (s.clockDie d).xtalStart + s.xtalDelayNs ≤ s.now) :
    execXtalStartDelayExpiry d s = .next (s.setClockDie d { s.clockDie d with xtalDelayed := true }) := by
  simp [execXtalStartDelayExpiry, hb, hd, Nat.not_lt.mpr ht]

theorem execAutoRevert_of_due (hb : s.boot.inReset = false) (ha : bit32 s.power.cfg 0 = true)
    (ht : (s.clockDie d).clkrefSince + 100000000 ≤ s.now) : execAutoRevert d s = .next (s.revertDie d) := by
  simp [execAutoRevert, hb, ha, ht]

end Windows

/-! ### Pins, timers and links -/

section Pins
variable {s : State} {w : Wing} {k : Nat}

theorem execGpioWrite_of_up (h : s.docentUp w = true) (a b : BitVec 8) :
    execGpioWrite w a b s = .next (s.setDoc w { s.doc w with gpioOut := a, gpioOe := b }) := by
  simp [execGpioWrite, h]

theorem execGpioIrqClear_of_up (h : s.docentUp w = true) (v : Word32) :
    execGpioIrqClear w v s = .next (s.setDoc w { s.doc w with gpioIrq := (s.doc w).gpioIrq &&& ~~~(v.setWidth 16) }) := by
  simp [execGpioIrqClear, h]

/-- The level of a pin and the interrupt bit of an edge there. -/
theorem execGpioEdge_of_pin (hk : k < 8) (hb : s.boot.inReset = false) (hl : s.lowPower = false) (rising : Bool) :
    execGpioEdge w k rising s =
      .next (s.setDoc w { s.doc w with
        gpioIn := if rising then (s.doc w).gpioIn ||| BitVec.ofNat 8 (2 ^ k) else (s.doc w).gpioIn &&& ~~~(BitVec.ofNat 8 (2 ^ k)),
        gpioIrq := (s.doc w).gpioIrq ||| BitVec.ofNat 16 (2 ^ (if rising then k else 8 + k)) }) := by
  simp [execGpioEdge, hb, hl, Nat.not_le.mpr hk]

theorem execTimerCompare_of_reached (hk : k < 8) (hb : s.boot.inReset = false) (hc : (s.doc w).timerCount s.now = (s.doc w).compares.getD k 0) :
    execTimerCompare w k s = .next (s.setDoc w { s.doc w with timerIrq := (s.doc w).timerIrq ||| BitVec.ofNat 8 (2 ^ k) }) := by
  refine next_congr (if_neg ?_)
  simp [hb, Nat.not_le.mpr hk, hc]

theorem execRtcCompare_of_reached (hb : s.boot.inReset = false) (hc : s.rtcSec = (s.doc w).rtcCompare) :
    execRtcCompare w s = .next (s.setDoc w { s.doc w with rtcIrq := true }) := by
  simp [execRtcCompare, hb, hc]

theorem execLinkPowerStateChange_of_up {l : LinkPower} (hp : s.portAnswers w = true) (hl : s.lowPower = false) :
    execLinkPowerStateChange w l s =
      .next (s.setPort w { s.port w with linkPower := l, wake := (s.port w).wake && l != .l0 }) := by
  simp [execLinkPowerStateChange, hp, hl]

end Pins

/-- Settles O53: the clocks by the die and the source that it runs on, the pins, timers and links each by the guards of its own lemma. -/
theorem clocksPinsTimersAndLinksAct : Obligations.ClocksPinsTimersAndLinksAct := by
  constructor
  case left =>
    rintro d x p f s rfl
    refine ⟨?delay, ?missing, ?toXtal, ?toWatch, ?window, ?clean, ?switch, ?lockClkref, ?lockXtal, ?revert, ?revertDie, ?auto⟩
    case delay => exact execXtalStartDelayExpiry_of_due
    case missing => exact fun hb => ⟨next_congr (if_neg (by simp [hb])), next_congr (if_neg (by simp [hb]))⟩
    case toXtal => exact fun hd hs hx => by simpa [hx] using State.refFailed_clkref_of_source hd hs
    case toWatch => exact fun hd hs hx => by simpa [hx] using State.refFailed_clkref_of_source hd hs
    case window => exact fun w => execFrequencyWindow_of_clean_watch
    case clean => exact fun h900 h1100 => State.checkRef_of_clean h900 h1100 .clkref
    case switch => exact fun t b => execClockSwitch_of_wanted
    case lockClkref => exact execPllLock_of_clkref
    case lockXtal => exact execPllLock_of_xtal
    case revert => exact fun h => next_congr (State.mgmtWrite_of h _)
    case revertDie => exact State.revertDie_of_xtal
    case auto => exact execAutoRevert_of_due
  case right =>
    rintro w k a b v d l s rfl
    refine ⟨?write, ?edge, ?clear, ?timer, ?rtc, ?link⟩
    case write => exact fun h => execGpioWrite_of_up h a b
    case edge => exact fun hk hb hl => ⟨execGpioEdge_of_pin hk hb hl true, execGpioEdge_of_pin hk hb hl false⟩
    case clear => exact fun h => execGpioIrqClear_of_up h v
    case timer => exact execTimerCompare_of_reached
    case rtc => exact execRtcCompare_of_reached
    case link => exact execLinkPowerStateChange_of_up

end Sys2Proof.Machine
end

section
/-! SUPPORT. Admin commands (R75 to R92): which of the common rules stops one, and what each does where none does. -/

namespace Sys2Proof.Machine

/-! ### The frame of a command -/

section Frame
variable {s : State} {f : Fn} {o : Nat} {a : AdmFrom} {u : List (Nat × Nat)} {e : List Byte} {k : List Byte → State → AdmEnd}

theorem State.admin_record {st : Byte} {r : Word64} {n : Nat} {t : State} (h : AdminRuns s f o a u e) (hk : k e s = .record st r n t) :
    s.admin f o a u k = t.admRecord f (w32 (leAt e 0 4)) st r n := by
  rw [State.admin_of h, hk]

theorem State.admin_later {t : State} (h : AdminRuns s f o a u e) (hk : k e s = .later t) : s.admin f o a u k = t := by
  rw [State.admin_of h, hk]

/-- A command that breaks a common rule does nothing but complete with that rule's status (R80, R81). -/
theorem State.admin_of_broken_rule (hc : (s.fn f).admCur = some e) (ho : byteAt e 4 = o) (hb : s.boot.inReset = false)
    (hr : s.admStatus f a u e ≠ St.ok) :
    s.admin f o a u k = s.admRecord f (w32 (leAt e 0 4)) (s.admStatus f a u e) 0 0 := by
  simp [State.admin, hc, ho, hb, hr]

/-- A command that the owner policy or a freeze bars completes with POLICY_DENIED, unless its own parameters are out of range, a row
of R81 that comes before. -/
theorem State.admin_of_barred (hc : (s.fn f).admCur = some e) (ho : byteAt e 4 = o) (hb : s.boot.inReset = false)
    (hr : s.admStatus f a u e = St.ok) (hp : s.admBarred o a = true) (hk : (k e s).outOfRange = false) :
    s.admin f o a u k = s.admRecord f (w32 (leAt e 0 4)) St.policyDenied 0 0 := by
  simp [State.admin, hc, ho, hb, hr, hp, hk]

/-- The record of a command whose queue was disabled meanwhile is not written (R84). -/
theorem State.admRecord_of_discard (h : (s.fn f).admDiscard = true) (tag : Word32) (st : Byte) (r : Word64) (n : Nat) :
    s.admRecord f tag st r n = (s.setFn f { s.fn f with admCur := none, admDiscard := false }).fetchHead f .admin := by
  simp [State.admRecord, h]

/-- A disabled admin queue asks for no entry. -/
theorem State.fetchHead_of_no_admin_queue (h : (s.fn f).admQ = {}) : s.fetchHead f .admin = s := by
  simp [State.fetchHead, State.queue, h]

theorem State.admWrite_of_buffer {b : List Byte} (ha : leAt e 8 8 ≠ 0) (hm : (s.fn f).bme = true) :
    s.admWrite f e b false = .record St.ok 0 b.length (s.writeHost f.port (leAt e 8 8) b) := by
  simp [State.admWrite, ha, hm]

/-- A write to a data buffer ends with OK or with BAD_BUFFER. -/
theorem State.admWrite_in_range {b : List Byte} {fails : Bool} (ha : leAt e 8 8 ≠ 0) : (s.admWrite f e b fails).outOfRange = false := by
  unfold State.admWrite
  rw [if_neg ha]
  split <;> rfl

end Frame

/-! ### The common rules -/

/-- The eleven admin commands of a function, each with its opcode, from whom it is accepted and its parameter fields (R80, R82, R87). -/
def adminCommands (f : Fn) (fails : Bool) : List (Instr × Nat × AdmFrom × List (Nat × Nat)) :=
  [(.identify f fails, 0x80, .identify, []), (.createCollection f, 0x81, .mgmt, collFields),
   (.deleteCollection f, 0x82, .mgmt, [(16, 2)]), (.setCollectionLimits f, 0x83, .mgmt, collFields),
   (.bindFunction f, 0x84, .mgmt, [(16, 4)]), (.unbindFunction f, 0x85, .mgmt, [(16, 2)]), (.deviceReset f, 0x86, .mgmt, [(16, 8)]),
   (.createQueue f, 0x88, .bound, [(16, 2), (20, 26)]), (.deleteQueue f, 0x89, .bound, [(16, 3)]),
   (.setModeration f, 0x8A, .bound, [(16, 3), (20, 2)]), (.getQueueState f fails, 0x8B, .identify, [(16, 2)])]

/-- The parameters of GET_QUEUE_STATE, IDENTIFY and DEVICE_RESET are in range (R85 to R87). -/
def ParamsInRange (s : State) (op : Nat) (e : List Byte) : Prop :=
  (op = 0x80 ∨ (op = 0x8B ∧ leAt e 16 2 ≤ 511) ∨ (op = 0x86 ∧ w64 (leAt e 16 8) = s.serial)) ∧ (op = 0x86 ∨ leAt e 8 8 ≠ 0)

/-- Each admin command goes through the common frame with its own opcode, authority and fields, and its own part does not end with
INPUT_RANGE where its parameters are in range. -/
theorem exec_adminCommand {s : State} {f : Fn} {fails : Bool} {p : Instr × Nat × AdmFrom × List (Nat × Nat)}
    (hr : s.recovery = false) (hp : p ∈ adminCommands f fails) :
    ∃ k, exec p.1 s = .next (s.admin f p.2.1 p.2.2.1 p.2.2.2 k) ∧
      ∀ e, ParamsInRange s p.2.1 e → (k e s).outOfRange = false := by
  simp only [adminCommands, List.mem_cons, List.not_mem_nil, or_false] at hp
  obtain rfl | rfl | rfl | rfl | rfl | rfl | rfl | rfl | rfl | rfl | rfl := hp
  · exact ⟨_, rfl, fun e hin => State.admWrite_in_range (hin.2.resolve_left (by simp))⟩
  iterate 5 exact ⟨_, rfl, fun e hin => absurd hin.1 (by simp)⟩
  · refine ⟨_, next_congr (if_neg (by simp [hr])), fun e hin => ?_⟩
    have hserial : w64 (leAt e 16 8) = s.serial := by simpa using hin.1
    simp [hserial, AdmEnd.outOfRange]
  iterate 3 exact ⟨_, rfl, fun e hin => absurd hin.1 (by simp)⟩
  · refine ⟨_, rfl, fun e hin => ?_⟩
    have hq : leAt e 16 2 ≤ 511 := by simpa using hin.1
    rw [if_neg (Nat.not_lt.mpr hq)]
    exact State.admWrite_in_range (hin.2.resolve_left (by simp))

/-- Settles O15: each command goes through the common frame, which ends it by the rule that it breaks or by what bars it. -/
theorem adminCommonRulesRefuse : Obligations.AdminCommonRulesRefuse := by
  intro f e fails s hcur hup hrec p hp hop
  obtain ⟨k, hexec, hrange⟩ := exec_adminCommand (fails := fails) hrec hp
  rw [hexec]
  constructor
  case left => exact fun hbroken => next_congr (State.admin_of_broken_rule hcur hop hup hbroken)
  case right =>
    exact fun hok hbarred hparams haddr => next_congr (State.admin_of_barred hcur hop hup hok hbarred (hrange e ⟨hparams, haddr⟩))

/-- Settles O55: the disable by its lemma, the command in progress by the frame of its kind, its record by the mark, the rings by their
absence. -/
theorem disablingDiscardsTheAdminRecord : Obligations.DisablingDiscardsTheAdminRecord := by
  intro f o n u e k i g st r s
  refine ⟨?disable, ?effect, ?record, ?rings⟩
  case disable => exact execAdmqDisable_of_enabled
  case effect => exact fun h => State.admin_of h k
  case record => exact fun h => State.admRecord_of_discard h g st r n
  case rings => exact State.fetchHead_of_no_admin_queue

end Sys2Proof.Machine
end

section
/-! SUPPORT. The admin commands on collections and bindings (R82, R86): what each does once it runs and its parameters are good. -/

namespace Sys2Proof.Machine

section Collections
variable {s : State} {f : Fn} {e : List Byte} {c w mi c0 : Nat}

/-- CREATE_COLLECTION of a free number, whose key the Curator can draw where its binding has one. -/
theorem execCreateCollection_of_free (h : AdminRuns s f 0x81 .mgmt collFields e) (hp : collParams e = some (c, w, mi, c0))
    (hm : byteAt e 18 ≤ 2) (hc : s.coll c = none) (hk : byteAt e 18 ≠ 0 ∨ s.drbgOk .curator = true) :
    execCreateCollection f s = .next
      ((((s.setColl c (some { bindingMode := byteAt e 18, weight := w, maxInflight := mi, c0Max := c0 })).newBinding c (byteAt e 18)).journalColl c).admRecord
        f (w32 (leAt e 0 4)) St.ok 0 0) := by
  have hkey : ¬ (byteAt e 18 = 0 ∧ s.drbgOk .curator = false) := by
    rintro ⟨h0, hd⟩
    simp [h0, hd] at hk
  exact next_congr (State.admin_record h (by simp [hp, hc, Nat.not_lt.mpr hm, hkey, AdmEnd.done]))

/-- A binding by key needs the generator of the Curator (R173, R367; the status is that of log entry 125). -/
theorem execCreateCollection_of_stopped_generator (h : AdminRuns s f 0x81 .mgmt collFields e)
    (hp : collParams e = some (c, w, mi, c0)) (hm : byteAt e 18 = 0) (hc : s.coll c = none) (hk : s.drbgOk .curator = false) :
    execCreateCollection f s = .next (s.admRecord f (w32 (leAt e 0 4)) St.entropyUnavailable 0 0) :=
  next_congr (State.admin_record h (by simp [hp, hc, hm, hk, AdmEnd.fail]))

/-- DELETE_COLLECTION of a collection without live entries or bound functions. -/
theorem execDeleteCollection_of_unused (h : AdminRuns s f 0x82 .mgmt [(16, 2)] e) (hr : leAt e 16 2 ≤ 1023)
    (hc : (s.coll (leAt e 16 2)).isSome = true) (hl : (s.entries.any fun r => r.coll == leAt e 16 2 && r.live) = false)
    (hb : s.boundFns (leAt e 16 2) = []) :
    execDeleteCollection f s = .next
      (let t := s.setColl (leAt e 16 2) none
       let cat := { t.cat with wraps := t.cat.wraps.set [] (leAt e 16 2) [], floorsAt := t.cat.floorsAt.set [] (leAt e 16 2) [],
                               unbound := t.cat.unbound ++ [(leAt e 16 2, t.boot.policyBody.getD [])] }
       ({ t with cat }).journalColl (leAt e 16 2) |>.admRecord f (w32 (leAt e 0 4)) St.ok 0 0) := by
  have hunused : ((s.coll (leAt e 16 2)).isNone || s.entries.any (fun r => r.coll == leAt e 16 2 && r.live) ||
      !(s.boundFns (leAt e 16 2)).isEmpty) = false := by
    rw [hl, hb, Option.isNone_eq_false_iff.mpr hc]
    rfl
  refine next_congr (State.admin_record h ?_)
  rw [if_neg (Nat.not_lt.mpr hr), if_neg (by simp [hunused])]
  rfl

theorem execSetCollectionLimits_of_present {x : Collection} (h : AdminRuns s f 0x83 .mgmt collFields e)
    (hp : collParams e = some (c, w, mi, c0)) (hb : byteAt e 18 = 0xFF) (hc : s.coll c = some x) :
    execSetCollectionLimits f s = .next
      ((((s.setColl c (some { x with weight := w, maxInflight := mi, c0Max := c0 })).journalColl c).markC0.pumpAll).admRecord
        f (w32 (leAt e 0 4)) St.ok 0 0) :=
  next_congr (State.admin_record h (by simp [hp, hb, hc, AdmEnd.done]))

end Collections

section Bindings
variable {s : State} {f t : Fn} {e : List Byte}

theorem execBindFunction_of_free (h : AdminRuns s f 0x84 .mgmt [(16, 4)] e) (ht : targetFn e = some t) (hr : leAt e 18 2 ≤ 1023)
    (hc : (s.coll (leAt e 18 2)).isSome = true) (hn : (s.fn t).coll = none) (hq : (s.fn t).created = []) :
    execBindFunction f s = .next
      (((s.modFn t fun x => { x with coll := some (leAt e 18 2) }).journalColl (leAt e 18 2)).admRecord f (w32 (leAt e 0 4)) St.ok 0 0) :=
  next_congr (State.admin_record h (by
    simp [ht, Nat.not_lt.mpr hr, Option.isNone_eq_false_iff.mpr hc, hn, hq, AdmEnd.done]))

theorem execUnbindFunction_of_bound {c : Nat} (h : AdminRuns s f 0x85 .mgmt [(16, 2)] e) (ht : targetFn e = some t)
    (hc : (s.fn t).coll = some c) (hq : (s.fn t).created = []) :
    execUnbindFunction f s = .next
      (((s.modFn t fun x => { x with coll := none }).journalColl c).admRecord f (w32 (leAt e 0 4)) St.ok 0 0) :=
  next_congr (State.admin_record h (by simp [ht, hc, hq, AdmEnd.done]))

end Bindings

section Buffers
variable {s : State} {f : Fn} {e : List Byte}

theorem execIdentify_of_buffer (h : AdminRuns s f 0x80 .identify [] e) (ha : leAt e 8 8 ≠ 0) (hm : (s.fn f).bme = true) :
    execIdentify f false s = .next
      ((s.writeHost f.port (leAt e 8 8) (s.identifyBytes f)).admRecord f (w32 (leAt e 0 4)) St.ok 0 (s.identifyBytes f).length) :=
  next_congr (State.admin_record h (State.admWrite_of_buffer ha hm))

theorem execGetQueueState_of_buffer (h : AdminRuns s f 0x8B .identify [(16, 2)] e) (hq : leAt e 16 2 ≤ 511) (ha : leAt e 8 8 ≠ 0)
    (hm : (s.fn f).bme = true) :
    execGetQueueState f false s = .next
      ((s.writeHost f.port (leAt e 8 8) (s.queueStateBytes f (leAt e 16 2))).admRecord f (w32 (leAt e 0 4)) St.ok 0
        (s.queueStateBytes f (leAt e 16 2)).length) :=
  next_congr (State.admin_record h ((if_neg (Nat.not_lt.mpr hq)).trans (State.admWrite_of_buffer ha hm)))

end Buffers

/-- Settles O13: each command by the guards of its own lemma, a new collection by whether its binding can have a key. -/
theorem adminCollectionCommandsComplete : Obligations.AdminCollectionCommandsComplete := by
  intro f e s
  refine ⟨?create, ?delete, ?limits, ?bind, ?unbind, ?identify, ?queueState⟩
  case create =>
    exact fun c w mi c0 h hp hm hc =>
      ⟨execCreateCollection_of_free h hp hm hc, fun h0 => execCreateCollection_of_stopped_generator h hp h0 hc⟩
  case delete => exact execDeleteCollection_of_unused
  case limits => exact fun c w mi c0 x => execSetCollectionLimits_of_present
  case bind => exact fun t => execBindFunction_of_free
  case unbind => exact fun t c => execUnbindFunction_of_bound
  case identify => exact execIdentify_of_buffer
  case queueState => exact execGetQueueState_of_buffer

end Sys2Proof.Machine
end

section
/-! SUPPORT. The admin commands on queues and DEVICE_RESET (R85, R87, R88, R92): what each does once it runs and its parameters are
good. -/

namespace Sys2Proof.Machine

section Queues
variable {s : State} {f : Fn} {e : List Byte} {q : Nat}

theorem execCreateQueue_of_free {x : Queue} (h : AdminRuns s f 0x88 .bound [(16, 2), (20, 26)] e) (hn : newQueue f e = some (q, x))
    (hc : (s.queue f (.io q)).created = false) (hd : s.queueCount < 4096) (hf : (s.fn f).created.length < 512) :
    execCreateQueue f s = .next ((s.setQueue f (.io q) x).admRecord f (w32 (leAt e 0 4)) St.ok 0 0) :=
  next_congr (State.admin_record h (by simp [hn, hc, Nat.not_le.mpr hd, Nat.not_le.mpr hf, AdmEnd.done]))

/-- A queue that DELETE_QUEUE found: it consumes no further entry, and keeps the command's tag for its record (R92). -/
def State.startDelete (s : State) (f : Fn) (e : List Byte) : State :=
  s.setQueue f (.io (leAt e 16 2))
    { s.queue f (.io (leAt e 16 2)) with deleting := true, heldEntry := none, deleteTag := w32 (leAt e 0 4) }

/-- A drain ends with the queue's last job and writes its record then. -/
theorem execDeleteQueue_of_drain (h : AdminRuns s f 0x89 .bound [(16, 3)] e) (hq : leAt e 16 2 ≤ 511) (hm : byteAt e 18 = 0)
    (hc : (s.queue f (.io (leAt e 16 2))).created = true) (hd : (s.queue f (.io (leAt e 16 2))).deleting = false) :
    execDeleteQueue f s = .next (s.startDelete f e) :=
  next_congr (State.admin_later h (by simp [hc, hd, hm, Nat.not_lt.mpr hq, State.startDelete]))

/-- An abort ends the queue's jobs at once, and its record counts those that ended silently. -/
theorem execDeleteQueue_of_abort (h : AdminRuns s f 0x89 .bound [(16, 3)] e) (hq : leAt e 16 2 ≤ 511) (hm : byteAt e 18 = 1)
    (hc : (s.queue f (.io (leAt e 16 2))).created = true) (hd : (s.queue f (.io (leAt e 16 2))).deleting = false) :
    execDeleteQueue f s = .next
      (let t := (s.startDelete f e).abortJobs fun _ j => j.src == .host f (.io (leAt e 16 2))
       (t.removeQueue f (leAt e 16 2)).2.pumpAll.admRecord f (w32 (leAt e 0 4)) St.ok (w64 (t.removeQueue f (leAt e 16 2)).1) 0) :=
  next_congr (State.admin_record h (by simp [hc, hd, hm, Nat.not_lt.mpr hq, State.startDelete]))

theorem execDeleteQueueDrainComplete_of_drained (hd : (s.queue f (.io q)).deleting = true) (hj : s.inFlight (.host f (.io q)) = 0)
    (hb : s.boot.inReset = false) :
    execDeleteQueueDrainComplete f q s =
      .next ((s.removeQueue f q).2.admRecord f (s.queue f (.io q)).deleteTag St.ok (w64 (s.removeQueue f q).1) 0) :=
  next_congr (if_neg (by simp [hd, hj, hb]))

theorem execSetModeration_of_created (h : AdminRuns s f 0x8A .bound [(16, 3), (20, 2)] e) (hq : leAt e 16 2 ≤ 511)
    (hm : moderationOk (byteAt e 18) (leAt e 20 2) = true) (hc : (s.queue f (.io (leAt e 16 2))).created = true) :
    execSetModeration f s = .next ((s.setQueue f (.io (leAt e 16 2))
      { s.queue f (.io (leAt e 16 2)) with modCount := byteAt e 18, modTimeUs := leAt e 20 2 }).admRecord f (w32 (leAt e 0 4)) St.ok 0 0) :=
  next_congr (State.admin_record h (by simp [hm, hc, Nat.not_lt.mpr hq, AdmEnd.done]))

end Queues

section Reset
variable {s : State} {f : Fn} {e : List Byte}

theorem execDeviceReset_of_serial (hr : s.recovery = false) (h : AdminRuns s f 0x86 .mgmt [(16, 8)] e)
    (hs : w64 (leAt e 16 8) = s.serial) : execDeviceReset f s = .next s.orderedReset :=
  next_congr ((if_neg (by simp [hr])).trans (State.admin_later h (by simp [hs])))

/-- The recovery form has no admin queues; a management function resets the device all the same (R403; log entry 148). -/
theorem execDeviceReset_of_recovery (hr : s.recovery = true) (hp : s.portAnswers f.port = true) (hm : s.mgmt f = true) :
    execDeviceReset f s = .next s.orderedReset :=
  next_congr ((if_pos hr).trans (if_pos (by simp [hp, hm])))

end Reset

/-- Settles O14: each command by the guards of its own lemma, DELETE_QUEUE by its mode, DEVICE_RESET by the form that the port answers in. -/
theorem adminQueueCommandsComplete : Obligations.AdminQueueCommandsComplete := by
  intro f e s
  refine ⟨?create, ?drain, ?abort, ?drained, ?moderation, ?reset, ?recovery⟩
  case create => exact fun q x => execCreateQueue_of_free
  case drain => exact execDeleteQueue_of_drain
  case abort => exact execDeleteQueue_of_abort
  case drained => exact fun q => execDeleteQueueDrainComplete_of_drained
  case moderation => exact execSetModeration_of_created
  case reset => exact execDeviceReset_of_serial
  case recovery => exact execDeviceReset_of_recovery

end Sys2Proof.Machine
end

section
/-! SUPPORT. How an EXEC begins or is refused (R137): the checks in their order, and the commands of the engine functions, each of which
begins the EXEC of its own code (R133). -/

namespace Sys2Proof.Machine

/-! ### The checks of an EXEC in their order (R137, R146) -/

/-- Copying a curve block changes the job's curves only (R316). -/
@[simp] theorem State.copyCurve_gallery (s : State) (j : Job) : (s.copyCurve j).gallery = j.gallery := by
  simp only [State.copyCurve, apply_ite Job.gallery, ite_self]

/-- The checks of an EXEC up to its empty buffers, of a job `b` in a state `t`; `k` is what follows once a description passes them. -/
def State.checkedExec (t : State) (n c : Nat) (b : Job) (e : ExecFields) (k : FnSpec → State) : State :=
  if c / 256 == 0x0F && !t.hasCurator (galleryWing b.gallery) then t.endJob n St.splitOrphan
  else if (t.execLoans b e).length != (loanRegs e).length then t.badProgram n 7
  else match t.specNow b with
    | none => t.failExec n St.keyClass
    | some x =>
      if barsTemplate x (outputBufs b e x) then t.badProgram n 5
      else if loanStep (t.view b) (t.execLoans b e) x.loans != St.ok then t.failExec n (loanStep (t.view b) (t.execLoans b e) x.loans)
      else if (inputBufs b e x ++ outputBufs b e x).any (·.isNone) then t.badProgram n 7
      else k x

/-- A job that stands at an EXEC of the function meets the checks with its instruction counted and its curve copied. -/
theorem State.beginFn_checked {s : State} {n c : Nat} {j : Job} (h : StandsAt s n 0x40 j) (hc : (execFields j.ins).code = c) :
    ∃ k, s.beginFn c n = (s.begun n j).checkedExec n c (s.begunJob n j) (execFields j.ins) k := by
  unfold State.beginFn
  rw [h.job]
  dsimp only
  rw [if_neg (by simp [hc]), State.runIns_of h]
  exact ⟨_, rfl⟩

/-- Settles O27: the function begins with its checks, and each refusal is the first of them that its clause leaves to fail. -/
theorem engineFunctionsRefuse : Obligations.EngineFunctionsRefuse := by
  intro n c j s h hc
  have hg : (s.begunJob n j).gallery = j.gallery := State.copyCurve_gallery _ _
  obtain ⟨k, hk⟩ := State.beginFn_checked h hc
  rw [hk, State.checkedExec, hg]
  refine ⟨fun hf ho => if_pos (by simp [hf, ho]), fun ho => ?_⟩
  rw [if_neg (by simpa using ho)]
  refine ⟨fun hl => if_pos (by simpa using hl), fun hl => ?_⟩
  rw [if_neg (by simp [hl])]
  refine ⟨?description, ?output, ?loan, ?buffer⟩
  case description => intro hx; rw [hx]
  case output => intro x hx hb; rw [hx]; exact if_pos hb
  case loan =>
    intro x hx hb hst
    rw [hx]
    exact (if_neg (by simp [hb])).trans (if_pos (by simpa using hst))
  case buffer =>
    intro x hx hb hst he
    rw [hx]
    exact (if_neg (by simp [hb])).trans ((if_neg (by simp [hst])).trans (if_pos he))

/-! ### The commands of the engine functions (R133) -/

/-- Commands that begin the functions of their codes begin every EXEC that meets its description. -/
theorem exec_of_begins {n : Nat} {j : Job} {x : FnSpec} {s : State} {l : List (Instr × Nat)}
    (hl : l.map (fun p => exec p.1 s) = l.map fun p => .next (s.beginFn p.2 n)) :
    ∀ p ∈ l, Begins s n p.2 j x → exec p.1 s = .next (((s.begun n j).beginExec n (s.begunJob n j) x).advanceExec n) :=
  fun p hp h => (List.map_inj_left.mp hl p hp).trans (next_congr (State.beginFn_of h))

/-- Settles O23: each command of the list begins the function of its code. -/
theorem latticeAndHybridFunctionsBegin : Obligations.LatticeAndHybridFunctionsBegin :=
  fun _ _ _ _ => exec_of_begins rfl

/-- Settles O24: each command of the list begins the function of its code. -/
theorem hashFunctionsBegin : Obligations.HashFunctionsBegin :=
  fun _ _ _ _ => exec_of_begins rfl

/-- Settles O25: each command of the list begins the function of its code. -/
theorem codeBasedAndClassicalFunctionsBegin : Obligations.CodeBasedAndClassicalFunctionsBegin :=
  fun _ _ _ _ => exec_of_begins rfl

/-- Settles O26: each command of the list begins the function of its code. -/
theorem symmetricAndCatalogueFunctionsBegin : Obligations.SymmetricAndCatalogueFunctionsBegin :=
  fun _ _ _ _ => exec_of_begins rfl

end Sys2Proof.Machine
end

section
/-! SUPPORT. The register instructions of Damob and the boundaries between instructions (R114, R121 to R128). -/

namespace Sys2Proof.Machine

/-! ### Boundaries (R127, R128) -/

section Boundary
variable {s : State} {n pc : Nat} {j : Job} {st : Byte} {cont : Bool}

theorem State.atBoundary_of_ending (he : j.ending = some st) :
    s.atBoundary n j pc = (s.putJob n { j with pc, phase := .ready, exec := none }).endJob n st := by
  simp only [State.atBoundary, he]

theorem State.atBoundary_inside (he : j.ending = none) (hp : pc < j.prog.length) :
    s.atBoundary n j pc = s.putJob n { j with pc, phase := .ready, exec := none } := by
  simp only [State.atBoundary, he, if_neg (Nat.not_le.mpr hp)]

theorem State.atBoundary_past (he : j.ending = none) (hp : j.prog.length ≤ pc) :
    s.atBoundary n j pc = (s.putJob n { j with pc, phase := .ready, exec := none }).endProgram n none 0 := by
  simp only [State.atBoundary, he, if_pos hp]

theorem State.complete_goes_on (h : isSuccess st = true ∨ (isContinuable st = true ∧ cont = true)) :
    s.complete n j st cont = s.atBoundary n { j with st } (j.pc + 1) :=
  if_pos (by simpa using h)

theorem State.complete_ends (hs : isSuccess st = false) (hc : ¬ (isContinuable st = true ∧ cont = true)) :
    s.complete n j st cont = (s.putJob n { j with st }).endJob n st :=
  if_neg (by simpa [hs] using hc)

end Boundary

/-! ### Instructions (R114, R124) -/

/-- An instruction whose condition does not hold is counted and passed over. -/
theorem State.runIns_of_condition_fails {s : State} {n o : Nat} {j : Job} (hj : s.job n = some j) (hf : s.tamper.frozen = false)
    (hw : s.wingRuns (galleryWing j.gallery) = true) (hk : j.parked = false) (hp : j.phase = .ready) (hi : j.pc < j.prog.length)
    (hb : j.executed < 4096) (he : j.ending = none) (ho : insOpcode j.ins = o) (hc : condHolds (insCond j.ins) j.st j.f = false)
    (f : Job → State → State) : s.runIns n o f = s.advance n j.counted := by
  simp only [State.runIns, hj]
  rw [if_neg (by simp [hf, hw, hk, hp, hi, hb, ho])]
  split
  next st hs => simp [he] at hs
  next => exact if_neg (ne_true_of_eq_false hc)

theorem execInstructionBudgetExhausted_of_spent {s : State} {n : Nat} {j : Job} (hj : s.job n = some j) (hf : s.tamper.frozen = false)
    (hw : s.wingRuns (galleryWing j.gallery) = true) (hp : j.phase = .ready) (hb : 4096 ≤ j.executed) :
    execInstructionBudgetExhausted n s = .next (s.badProgram n 6) := by
  simp [execInstructionBudgetExhausted, hj, hf, hw, hp, hb]

/-- A command that runs an instruction of an opcode answers what the instruction does at a job that stands at it. -/
theorem next_runIns_of {s : State} {n o : Nat} {j : Job} (h : StandsAt s n o j) (f : Job → State → State) :
    (.next (s.runIns n o f) : Res) = .next (f j.counted (s.putJob n j.counted)) := next_congr (State.runIns_of h f)

/-- Settles O20: a register instruction does its own act at a job that stands at it, a boundary splits by the end that waits and by the
end of the program. -/
theorem damobRegisterInstructions : Obligations.DamobRegisterInstructions := by
  refine ⟨fun n j s => ⟨?registers, ?nop, ?cmp, ?cmpi⟩, fun n j s => ⟨?inside, ?past, ?ending, ?goesOn, ?ends, ?branch, ?skipped, ?budget⟩⟩
  case registers =>
    simp only [List.forall_mem_cons]
    refine ⟨?movi, ?movhi, ?mov, ?add, ?addi, ?sub, ?and, ?or, ?xor, ?shl, ?shr, List.forall_mem_nil _⟩
    all_goals exact fun h => next_runIns_of h _
  case nop => exact fun h => next_runIns_of h _
  case cmp => exact fun h => next_runIns_of h _
  case cmpi => exact fun h => next_runIns_of h _
  case inside => exact fun pc => State.atBoundary_inside
  case past => exact fun pc => State.atBoundary_past
  case ending => exact fun st he pc => State.atBoundary_of_ending he
  case goesOn => exact fun st cont => State.complete_goes_on
  case ends => exact fun st cont => State.complete_ends
  case branch => exact fun h => next_runIns_of h _
  case skipped => exact fun hj hf hw hk hp hi hb he ho hc => next_congr (State.runIns_of_condition_fails hj hf hw hk hp hi hb he ho hc _)
  case budget => exact execInstructionBudgetExhausted_of_spent

end Sys2Proof.Machine
end

section
/-! SUPPORT. Loads, buffer registers and binding groups (R116 to R118, R125, R131, R132, R139 to R141). -/

namespace Sys2Proof.Machine

/-! ### Loads and buffers (R116 to R118, R131, R132) -/

section Loads
variable {s : State} {n : Nat} {j : Job}

theorem State.ldpIns_of_word {v : Word64} (h : j.paramWord (insImm j.ins % 512) = some v) :
    s.ldpIns n j = s.complete n (j.setReg (insDst j.ins) v) St.ok false := by
  simp only [State.ldpIns, h]

theorem State.ldpIns_beyond (h : j.paramWord (insImm j.ins % 512) = none) : s.ldpIns n j = s.endJob n St.badBuffer := by
  simp only [State.ldpIns, h]

theorem State.ldbIns_of_bytes {b : Buf} {bytes : List GByte} (hb : j.buf (insSrcA j.ins) = some b) (hg : j.gbytes b = some bytes)
    (hl : (j.reg (insSrcB j.ins)).toNat + insImm j.ins % 65536 + 8 ≤ b.len)
    (hs : secretIn (slice bytes ((j.reg (insSrcB j.ins)).toNat + insImm j.ins % 65536) 8) = false) :
    s.ldbIns n j = s.complete n (j.setReg (insDst j.ins)
      (w64 (leNat (raw (slice bytes ((j.reg (insSrcB j.ins)).toNat + insImm j.ins % 65536) 8))))) St.ok false := by
  simp only [State.ldbIns, Job.vb, hb, hg, hs, if_neg (Nat.not_lt.mpr hl), Bool.false_eq_true, if_false]

/-- Descriptors that allocate no gallery memory need none. -/
theorem State.bufIns_of_no_allocation {bs : List Buf}
    (hp : parseDescriptors j.params (insImm j.ins % 4096) (fieldAt (insImm j.ins) 12 3 + 1) = some bs)
    (hg : (j.loadBufs (insDst j.ins) bs).gmem.length = j.gmem.length) :
    s.bufIns n j = s.complete n (j.loadBufs (insDst j.ins) bs) St.ok (insCont j.ins) := by
  simp [State.bufIns, hp, hg]

theorem State.bsliceIns_within {b x : Buf} (hb : j.buf (insSrcA j.ins) = some b) (ho : fieldAt (insImm j.ins) 0 20 ≤ b.len)
    (hx : b.slice (fieldAt (insImm j.ins) 0 20)
      (if fieldAt (insImm j.ins) 20 20 = 0 then b.len - fieldAt (insImm j.ins) 0 20 else fieldAt (insImm j.ins) 20 20) = some x) :
    s.bsliceIns n j = s.complete n { j with b := setAt j.b (insDst j.ins) (some x) } St.ok false := by
  simp only [State.bsliceIns, hb, hx, if_neg (Nat.not_lt.mpr ho)]

theorem execInsBlen_of_buffer {b : Buf} (h : StandsAt s n 0x32 j) (hb : j.buf (insSrcA j.ins) = some b) :
    execInsBlen n s = .next ((s.putJob n j.counted).advance n (j.counted.setReg (insDst j.ins) (w64 b.len))) := by
  have hb' : j.counted.buf (insSrcA j.counted.ins) = some b := hb
  refine (next_runIns_of h _).trans (next_congr ?_)
  simp only [hb']
  rfl

theorem execInsBlen_of_empty (h : StandsAt s n 0x32 j) (hb : j.buf (insSrcA j.ins) = none) :
    execInsBlen n s = .next ((s.putJob n j.counted).badProgram n 7) := by
  have hb' : j.counted.buf (insSrcA j.counted.ins) = none := hb
  refine (next_runIns_of h _).trans (next_congr ?_)
  simp only [hb']

end Loads

/-! ### Binding groups (R139 to R141) -/

section Groups
variable {s : State} {n : Nat} {j : Job} {g : Group} {how : GroupRelease}

@[simp] theorem State.writeHost_hasCurator (s : State) (w v : Wing) (a : Nat) (b : List Byte) :
    (s.writeHost w a b).hasCurator v = s.hasCurator v := by
  unfold State.writeHost
  refine State.forAll_same (·.hasCurator v) ?_ _ _
  exact fun _ _ => rfl

@[simp] theorem State.issue_hasCurator (s : State) (w v : Wing) (l : List StagedWrite) :
    (s.issue w l).hasCurator v = s.hasCurator v := by
  unfold State.issue
  exact State.forAll_same (·.hasCurator v) (fun _ _ => State.writeHost_hasCurator _ _ _ _ _) _ _

@[simp] theorem State.putJob_hasCurator (s : State) (n : Nat) (x : Job) (v : Wing) : (s.putJob n x).hasCurator v = s.hasCurator v := rfl

/-- The group's accessions, if it has any, reach the Registrar. -/
def State.accessionsReach (s : State) (j : Job) (g : Group) : Prop :=
  g.accessions = [] ∨ s.hasCurator (galleryWing j.gallery) = true

theorem State.commitGroup_of_reach (h : s.accessionsReach j g) :
    s.commitGroup n j g = (s.forAll g.accessions fun t p => t.commitAccession p).complete n
      { j with group := none, outLen := j.outLen + j.staged, made := j.made ++ g.accessions.map fun p => recHandle p.record }
      St.ok (insCont j.ins) :=
  if_neg (by rcases h with h | h <;> simp [h])

theorem State.releaseEnd_done : s.releaseEnd n j g .done = s.commitGroup n j g := rfl

theorem State.releaseEnd_stays : s.releaseEnd n j g .stays = s.putJob n { j with phase := .release } := rfl

theorem State.releaseEnd_fails (h : g.staged ≠ []) :
    s.releaseEnd n j g .fails = (s.putJob n { j with phase := .release }).endJob n St.badBuffer :=
  if_pos (by simp [h])

/-- ENDB of a group on an orphan ends the job before a write (R147, R461; log entry 95). -/
theorem State.endbIns_on_orphan (hg : j.group = some g) (hf : g.failed = St.ok) (ha : g.accessions ≠ [])
    (ho : s.hasCurator (galleryWing j.gallery) = false) : s.endbIns n j how = s.endJob n St.splitOrphan := by
  simp [State.endbIns, hg, hf, ha, ho]

/-- ENDB of a group that may be released issues its writes, and goes on by how they end. -/
theorem State.endbIns_of_release (hg : j.group = some g) (hf : g.failed = St.ok) (ha : s.accessionsReach j g)
    (hd : g.staged = [] ∨ s.dmaOk j = true) : s.endbIns n j how = (s.issue j.wing g.staged).releaseEnd n j g how := by
  simp only [State.endbIns, hg, hf]
  rw [if_neg (by simp), if_neg (by rcases ha with h | h <;> simp [h]), if_neg (by rcases hd with h | h <;> simp [h])]

/-- ENDB runs as an instruction at a job that stands at it. -/
theorem execInsEndb_of_standsAt (h : StandsAt s n 0x51 j) :
    execInsEndb n how s = .next ((s.putJob n j.counted).endbIns n j.counted how) := by
  have hp : (j.phase == JobPhase.release) = false := by simp [h.ready]
  simp only [execInsEndb, h.job, hp, Bool.false_eq_true, if_false, State.runIns_of h]

/-- A release that has begun goes on with its group. -/
theorem execInsEndb_of_release (hj : s.job n = some j) (hp : j.phase = .release) (hg : j.group = some g) (hf : s.tamper.frozen = false)
    (hk : j.parked = false) (hw : s.wingRuns (galleryWing j.gallery) = true) :
    execInsEndb n how s = .next (s.releaseEnd n j g how) := by
  simp [execInsEndb, hj, hp, hg, hf, hk, hw]

end Groups

/-- Settles O21: each load and buffer instruction by what it names, ENDB by the group and by how its writes end. -/
theorem damobLoadsBuffersAndGroups : Obligations.DamobLoadsBuffersAndGroups := by
  intro n j s
  refine ⟨?ldp, ?ldpBeyond, ?ldb, ?buf, ?bslice, ?blen, ?blenEmpty, ?bind, ?bindInside, ?orphan, ?endb, ?release⟩
  case ldp => exact fun v h hv => (next_runIns_of h _).trans (next_congr (State.ldpIns_of_word hv))
  case ldpBeyond => exact fun h hv => (next_runIns_of h _).trans (next_congr (State.ldpIns_beyond hv))
  case ldb => exact fun b bytes h hb hg hl hs => (next_runIns_of h _).trans (next_congr (State.ldbIns_of_bytes hb hg hl hs))
  case buf => exact fun bs h hp hg => (next_runIns_of h _).trans (next_congr (State.bufIns_of_no_allocation hp hg))
  case bslice => exact fun b x h hb ho hx => (next_runIns_of h _).trans (next_congr (State.bsliceIns_within hb ho hx))
  case blen => exact fun b => execInsBlen_of_buffer
  case blenEmpty => exact execInsBlen_of_empty
  case bind => exact fun h hg => (next_runIns_of h _).trans (next_congr (if_neg (by simp [Job.counted, hg])))
  case bindInside => exact fun h hg => (next_runIns_of h _).trans (next_congr (if_pos (Option.isSome_iff_ne_none.mpr hg)))
  case orphan =>
    exact fun g r h hg hf ha ho => (execInsEndb_of_standsAt h).trans (next_congr (State.endbIns_on_orphan hg hf ha ho))
  case endb =>
    intro g h hg hf ha hd
    have hr : ((s.putJob n j.counted).issue j.wing g.staged).accessionsReach j.counted g := by
      rw [State.accessionsReach, State.issue_hasCurator, State.putJob_hasCurator]
      exact ha
    have he (how) : execInsEndb n how s = .next (((s.putJob n j.counted).issue j.wing g.staged).releaseEnd n j.counted g how) :=
      (execInsEndb_of_standsAt h).trans (next_congr (State.endbIns_of_release hg hf ha hd))
    exact ⟨(he .done).trans (next_congr (State.commitGroup_of_reach hr)), he .stays,
      fun hs => (he .fails).trans (next_congr (State.releaseEnd_fails hs))⟩
  case release =>
    exact fun g hj hp hg hf hk hw ha =>
      (execInsEndb_of_release hj hp hg hf hk hw).trans (next_congr (State.commitGroup_of_reach ha))

end Sys2Proof.Machine
end

section
/-! SUPPORT. The end of a program and the loans of its handle registers (R129, R130, R164). -/

namespace Sys2Proof.Machine

section Ends
variable {s : State} {n : Nat} {j : Job}

theorem State.endIns_of_no_status (hg : j.group = none) (hb : (insImm j.ins).testBit 8 = false) :
    s.endIns n j = s.endProgram n none (if (insImm j.ins).testBit 9 then j.va else 0) := by
  simp [State.endIns, hg, hb]

theorem State.endIns_of_status (hg : j.group = none) (hb : (insImm j.ins).testBit 8 = true)
    (hst : byte (insImm j.ins % 256) = St.ok ∨ isContinuable (byte (insImm j.ins % 256)) = true) :
    s.endIns n j = s.endProgram n (some (byte (insImm j.ins % 256))) (if (insImm j.ins).testBit 9 then j.va else 0) := by
  rcases hst with h | h <;> simp [State.endIns, hg, hb, h]

end Ends

section Loans
variable {s : State} {n : Nat} {j : Job}

/-- The Registrar answers a job that waits for its loan. -/
theorem execLoanGrant_of_waiting (hj : s.job n = some j) (hf : s.tamper.frozen = false) (hk : j.parked = false)
    (hw : s.wingRuns j.wing = true) (hp : j.phase = .loanWait) (he : j.ending = none) :
    execLoanGrant n s = .next (s.loanReply n j) := by
  simp [execLoanGrant, hj, hf, hk, hw, hp, he]

/-- A status that waits ends the job instead. -/
theorem execLoanGrant_of_ending {st : Byte} (hj : s.job n = some j) (hf : s.tamper.frozen = false) (hk : j.parked = false)
    (hw : s.wingRuns j.wing = true) (hp : j.phase = .loanWait) (he : j.ending = some st) :
    execLoanGrant n s = .next (s.endJob n st) := by
  simp [execLoanGrant, hj, hf, hk, hw, hp, he]

theorem State.returnIns_of_loan (h : (j.loanNo (insDst j.ins)).isSome = true) :
    s.returnIns n j = (s.giveBack n j (insDst j.ins)).2.advance n (s.giveBack n j (insDst j.ins)).1 :=
  if_neg (by simp [Option.ne_none_iff_isSome.mpr h])

theorem State.returnIns_of_empty (h : j.loanNo (insDst j.ins) = none) : s.returnIns n j = s.badProgram n 7 :=
  if_pos (by simp [h])

end Loans

/-- Settles O22: END by its status, LOANP by its handle, the Registrar's answer by the status that waits, RETURN by its register. -/
theorem damobEndsAndLoans : Obligations.DamobEndsAndLoans := by
  intro n j s
  refine ⟨?plain, ?status, ?loan, ?loanp, ?loanpBeyond, ?granted, ?ended, ?returned, ?returnEmpty⟩
  case plain => exact fun h hg hb => (next_runIns_of h _).trans (next_congr (State.endIns_of_no_status hg hb))
  case status => exact fun h hg hb hst => (next_runIns_of h _).trans (next_congr (State.endIns_of_status hg hb hst))
  case loan => exact fun h => next_runIns_of h _
  case loanp =>
    intro h hh
    have hn : ¬ j.counted.loanHandle.isNone = true := Option.isNone_iff_eq_none.not.mpr (Option.isSome_iff_ne_none.mp hh)
    exact (next_runIns_of h _).trans (next_congr (if_neg hn))
  case loanpBeyond =>
    intro h hh
    have hn : j.counted.loanHandle.isNone = true := Option.isNone_iff_eq_none.mpr hh
    exact (next_runIns_of h _).trans (next_congr (if_pos hn))
  case granted => exact execLoanGrant_of_waiting
  case ended => exact fun st => execLoanGrant_of_ending
  case returned => exact fun h hl => (next_runIns_of h _).trans (next_congr (State.returnIns_of_loan hl))
  case returnEmpty => exact fun h hl => (next_runIns_of h _).trans (next_congr (State.returnIns_of_empty hl))

end Sys2Proof.Machine
end

section
/-! SUPPORT. The Registrar's acts in time: revocation orders, leases, the provenance walk, seals and checkpoints (R164 to R184). -/

namespace Sys2Proof.Machine

/-! ### Leases (R165) -/

section Leases
variable {s : State} {n : Nat} {l : Loan}

/-- A lease at its half is renewed or ends its user, by what the Registrar says of its entry. -/
theorem execLeaseRenewal_of_half (hl : s.loan n = some l) (hc : s.hasCurator l.wing = true) (ht : l.from_ + l.leaseNs / 2 ≤ s.runNs)
    (hf : s.tamper.frozen = false) :
    execLeaseRenewal n s = .next (if s.renewalStatus l = St.ok then s.setLoan n { l with from_ := s.runNs }
      else (s.endUser l.job (s.renewalStatus l)).pumpAll) := by
  simp [execLeaseRenewal, hl, hc, hf, Nat.not_lt.mpr ht]

/-- A lease that has run out ends its user at once, unless an EXEC of it is suspended. -/
theorem execLeaseExpiry_of_active (hl : s.loan n = some l) (hc : s.hasCurator l.wing = false) (ht : l.from_ + l.leaseNs ≤ s.runNs)
    (hw : s.watchMode = false) (hf : s.tamper.frozen = false)
    (ha : ∀ j, s.job l.job = some j → s.isSuspended l.job = false ∨ j.phase ≠ .exec) :
    execLeaseExpiry n s = .next (s.endUser l.job St.splitOrphan).pumpAll := by
  simp only [execLeaseExpiry, hl]
  rw [if_neg (by simp [hc, hw, hf, Nat.not_lt.mpr ht])]
  split
  next j hj => exact next_congr (if_neg (by rcases ha j hj with h | h <;> simp [h]))
  next => rfl

/-- The end of a suspended EXEC's user waits for the EXEC to resume. -/
theorem execLeaseExpiry_of_suspended {j : Job} (hl : s.loan n = some l) (hc : s.hasCurator l.wing = false)
    (ht : l.from_ + l.leaseNs ≤ s.runNs) (hw : s.watchMode = false) (hf : s.tamper.frozen = false) (hj : s.job l.job = some j)
    (hs : s.isSuspended l.job = true) (hp : j.phase = .exec) :
    execLeaseExpiry n s = .next (s.putJob l.job { j with ending := some (j.ending.getD St.splitOrphan) }) := by
  simp [execLeaseExpiry, hl, hc, hw, hf, Nat.not_lt.mpr ht, hj, hs, hp]

end Leases

/-! ### Invalidated ancestors (R169, R172) -/

theorem execInvalidatedAncestorRelease_of_sealed {s : State} {c i g : Nat} {x : Invalid}
    (hx : (s.cat.invalidated.find? fun x => x.names c i g) = some x) (hw : x.walked = true) (hq : x.sealSeq ≤ s.journal.head.n)
    (hr : (s.cat.reserved.any fun r => r.coll == c && boundTo i g r.ancestors) = false) (hu : s.unmarked x = []) :
    execInvalidatedAncestorRelease c i g s = .next (s.setInvalidated (s.cat.invalidated.filter fun y => !y.names c i g)) := by
  simp only [execInvalidatedAncestorRelease, hx]
  exact next_congr ((if_neg (by simp only [hr, hw]; simpa using hq)).trans (if_pos (by rw [hu]; rfl)))

/-! ### Seals (R183) -/

theorem State.sealWrite_without_seal {s : State} (hc : s.journal.closed = []) : s.sealWrite = s := by
  simp only [State.sealWrite, hc]

theorem State.sealWrite_without_ring {s : State} (hr : s.ringReachable = false) : s.sealWrite = s := by
  unfold State.sealWrite
  split
  next => rfl
  next => exact if_pos (by simp [hr])

/-- Settles O31: each act of the Registrar in time by what is due: an order that a wing still owes, a loan by the Curator's authority, a
pair by its walk and its seal, the oldest closed seal by the ring's room, a checkpoint by the head. -/
theorem registrarAndSealsAct : Obligations.RegistrarAndSealsAct := by
  refine ⟨fun w c i g n l x s => ⟨?order, ?ack, ?renewal, ?expiry, ?walk, ?release⟩, fun s => ⟨?interval, ?written, ?waits, ?checkpoint⟩⟩
  case order => exact fun hc hd => next_congr (if_neg (by rw [hc, hd]; decide))
  case ack => rfl
  case renewal =>
    intro hl hc ht hf
    have hr := execLeaseRenewal_of_half hl hc ht hf
    exact ⟨fun hs => hr.trans (next_congr (if_pos hs)), fun hs => hr.trans (next_congr (if_neg hs))⟩
  case expiry =>
    exact fun hl hc ht hw hf => ⟨execLeaseExpiry_of_active hl hc ht hw hf, fun j => execLeaseExpiry_of_suspended hl hc ht hw hf⟩
  case walk =>
    intro hx hw hs
    show execProvenanceWalk c i g s = _
    simp only [execProvenanceWalk, hx]
    exact next_congr (if_neg (by simp [hw, hs]))
  case release => exact execInvalidatedAncestorRelease_of_sealed
  case interval => exact fun ho ht hs hr => next_congr (if_neg (by simp [ho, hs, hr, ht]))
  case written =>
    rintro c rest b hc rfl hr hl
    refine next_congr ?_
    simp only [State.sealWrite, hc]
    rw [if_neg (by simp [hr, hl])]
    cases hb : c.block with
    | none => simp only [State.putHead, Option.isSome_none, Bool.false_eq_true, if_false]
    | some b => simp only [Option.isSome_some, if_true]
  case waits => exact fun h => next_congr (h.elim State.sealWrite_without_seal State.sealWrite_without_ring)
  case checkpoint =>
    intro x hx hl
    show execCheckpointEnd s = _
    simp only [execCheckpointEnd, hx]
    exact next_congr (if_neg (Nat.not_lt.mpr hl))

end Sys2Proof.Machine
end

section
/-! SUPPORT. The journal and restore messages (R181 to R187): what a PF that is heard is answered, and that a supervisor is refused. -/

namespace Sys2Proof.Machine

section Messages
variable {s t : State} {w : Wing} {code n : Nat} {b ps p : List Byte}

/-- A journal message of a PF that is heard replies what its answer says, where that is OK. -/
theorem State.journalMessage_of_ok {f : List Byte → State → Answer} (h : Heard s (.pf w) code n)
    (hf : f ((s.mailbox (.pf w)).params ps) s = (St.ok, b, t)) :
    s.journalMessage (.pf w) code n ps f = t.replyTo (.pf w) St.ok b.length b := by
  refine (State.message_of h ps f).trans ?_
  simp [hf]

theorem State.journalMessage_of_supervisor {f : List Byte → State → Answer} (h : Heard s (.supervisor w) code 0) :
    s.journalMessage (.supervisor w) code n ps f = s.replyTo (.supervisor w) St.accessDenied 0 [] :=
  State.message_of h ps fun _ s => deny St.accessDenied s

/-- An action whose quorum has signed it runs and uses up its nonce (R409). -/
theorem State.withQuorum_of_valid {action : Nat} {f : State → Answer}
    (h : s.authValid s.boot.custodians s.boot.threshold action (p.take n) (p.drop (up8 n)) = true) (hf : f s = (St.ok, b, t)) :
    s.withQuorum action n p f = (St.ok, b, t.useNonce (p.drop (up8 n))) := by
  simp [State.withQuorum, h, hf]

end Messages

/-- Settles O32: a PF's message by its parameters and the state of the restore, a supervisor's by its sender. -/
theorem journalMessages : Obligations.JournalMessages := by
  rintro w ps _ s rfl
  refine ⟨?config, ?ack, ?status, ?begin_, ?block, ?end_, ?loss, ?refused⟩
  case config =>
    intro h hb hs hu hz
    exact next_congr (State.journalMessage_of_ok h (if_neg (by simpa [hb, hs, hz, or_iff_not_imp_left] using hu)))
  case ack =>
    intro e h he
    exact next_congr (State.journalMessage_of_ok h (by simp only [he]))
  case status => exact fun h => next_congr (State.journalMessage_of_ok h rfl)
  case begin_ => exact fun h hr hc => next_congr (State.journalMessage_of_ok h (if_neg (by rw [hr, hc]; decide)))
  case block =>
    intro b l h ho hl hs
    exact next_congr (State.journalMessage_of_ok h (by simp [ho, hl, hs]))
  case end_ =>
    exact fun h ho ha => next_congr (State.journalMessage_of_ok h ((if_neg (by rw [ho]; decide)).trans (if_neg (by simp [ha]))))
  case loss =>
    intro h ho hm hn hg hlt hz hq
    have hopen : ¬ (s.journal.restore != .open_) = true := by rw [ho]; decide
    refine next_congr (State.journalMessage_of_ok h ((if_neg hopen).trans ((if_neg ?_).trans (State.withQuorum_of_valid hq rfl))))
    simp [← hm, hn, hg, hz, hlt]
  case refused =>
    simp only [List.forall_mem_cons]
    refine ⟨?config, ?ack, ?status, ?begin_, ?block, ?end_, ?loss, List.forall_mem_nil _⟩
    all_goals exact fun h => next_congr (State.journalMessage_of_supervisor h)

end Sys2Proof.Machine
end

section
/-! SUPPORT. A tree generation whose check trips (R277): whose handle the record of the trip names, and a slot table in which that is not the
key's. -/

namespace Sys2Proof.Machine

section Trips
variable {s : State} {k : Nat} {g : TreeGen} {rest : List TreeGen} {u : UnitId}

/-- A slot's generations dropped, with a trip of a unit recorded under a handle and counted. -/
def State.recordTrip (s : State) (k : Nat) (u : UnitId) (handle : Word64) : State :=
  ((s.dropGens k).log 2 St.faultDetected (unitSrc u) (leBytes 2 k ++ leBytes 8 handle.toNat)).countError u

/-- The record of a trip names the handle that the slot reads with once its generations are dropped. -/
theorem State.tripGen_of_unit (hu : s.genUnit k g = some u) : s.tripGen k g = s.recordTrip k u ((s.dropGens k).slot k).handle := by
  simp only [State.tripGen, hu, State.recordTrip]

theorem execTreeSubtreeGeneration_of_trip (hg : (s.slot k).gens = g :: rest) (he : s.genEnds k g = true) (hw : g.work ≠ .rebuild)
    (hu : s.genUnit k g = some u) :
    execTreeSubtreeGeneration k true s = .next (s.recordTrip k u ((s.dropGens k).slot k).handle).pumpAll := by
  simp [execTreeSubtreeGeneration, hg, he, hw, State.tripGen_of_unit hu]

/-- In a slot table in canonical form, dropping a key's generations changes nothing else of its slot. -/
theorem State.slot_dropGens_of_canonical (ht : Tbl.wf {} s.ledger.slots = true) :
    (s.dropGens k).slot k = { s.slot k with gens := [] } :=
  Tbl.get_set_eq ht

/-- In a slot table in canonical form, the record of a trip names the key's own handle. -/
theorem execTreeSubtreeGeneration_of_canonical_trip (ht : Tbl.wf {} s.ledger.slots = true) (hg : (s.slot k).gens = g :: rest)
    (he : s.genEnds k g = true) (hw : g.work ≠ .rebuild) (hu : s.genUnit k g = some u) :
    execTreeSubtreeGeneration k true s = .next (s.recordTrip k u (s.slot k).handle).pumpAll := by
  rw [execTreeSubtreeGeneration_of_trip hg he hw hu, State.slot_dropGens_of_canonical ht]

end Trips

/-! ### A slot that the table lists twice -/

/-- A generation of a subtree on lanes of gallery 0. -/
def subtreeGen : TreeGen := { number := 0, work := .subtree, gallery := 0 }

/-- The lane that `subtreeGen` holds in `twiceListedSlot`. -/
def subtreeLane : UnitId := ⟨0, Kind.keccak, 0⟩

/-- A state whose slot table lists slot 0 twice: the entry that is read holds the generation in flight, and the one behind it a handle.
The first entry without the generation is the default, so that dropping it removes the entry and the second one is read. -/
def twiceListedSlot : State :=
  { State.reset with
    ledger := { slots := [(0, { gens := [subtreeGen] }), (0, { handle := 1 })] }
    entropy := { masks := [(0, { seeded := true })] }
    work := { grants := [{ res := .keccak 0, job := genJob 0 0, seq := 1 }] } }

/-- The handle after the drop and the handle before it leave different event logs. -/
theorem twiceListedSlot_trip_ring_ne :
    (twiceListedSlot.recordTrip 0 subtreeLane ((twiceListedSlot.dropGens 0).slot 0).handle).pumpAll.evlog.ring ≠
      (twiceListedSlot.recordTrip 0 subtreeLane (twiceListedSlot.slot 0).handle).pumpAll.evlog.ring := by
  decide +kernel

/-- Refutes O30: where the slot table lists a slot twice, dropping the generations at a trip changes the handle that the slot reads with,
and the model's record of the trip names the later handle, 1, where the statement has the key's, 0. A table in canonical form has no
such slot: there the clause holds, by `execTreeSubtreeGeneration_of_canonical_trip`. -/
theorem not_ledgerCommands : ¬ Obligations.LedgerCommands := by
  intro h
  obtain ⟨-, -, -, hends, -⟩ := h .west 0 0 default 0 twiceListedSlot
  have hg : (twiceListedSlot.slot 0).gens = [subtreeGen] := rfl
  have he : twiceListedSlot.genEnds 0 subtreeGen = true := by decide +kernel
  have hw : subtreeGen.work ≠ .rebuild := by decide
  have hu : twiceListedSlot.genUnit 0 subtreeGen = some subtreeLane := by decide +kernel
  obtain ⟨-, -, -, htrip, -⟩ := hends subtreeGen [] hg he
  have hnext := (execTreeSubtreeGeneration_of_trip hg he hw hu).symm.trans (htrip subtreeLane hw hu)
  injection hnext with hstate
  exact twiceListedSlot_trip_ring_ne (congrArg (fun t => t.evlog.ring) hstate)

end Sys2Proof.Machine
end

section
/-! SUPPORT. A compatibility page (R350 to R354): what a write of its key or its command answers where the page takes it and where it is
denied, and how a core's completion ends the page's operation. -/

namespace Sys2Proof.Machine

section Pages
variable {s : State} {f : Fn} {p : Nat}

/-! ### The key -/

theorem execCompatKeyWrite_of_accepted {k : Nat} {v : Word32} (hk : k < 8) (h : Writes s f (0x1000000 + 0x10000 * p + 0x20 + 4 * k))
    (hr : s.pageReachable f p = true) (hb : (s.page p).busy = false) (hp : (s.collPolicy (s.pageColl p)).pageKeys = true) :
    execCompatKeyWrite f p k v s = .next (s.setPage p { s.page p with key := setAt (s.page p).key k v, keyLoaded := true }) :=
  next_congr ((if_neg (Nat.not_le.mpr hk)).trans ((State.write_of h _).trans (if_neg (by simp [hr, hb, hp]))))

theorem execCompatKeyWrite_of_denied {k : Nat} {v : Word32} (hk : k < 8) (h : Writes s f (0x1000000 + 0x10000 * p + 0x20 + 4 * k))
    (hd : s.pageReachable f p = false ∨ (s.page p).busy = true ∨ (s.collPolicy (s.pageColl p)).pageKeys = false) :
    execCompatKeyWrite f p k v s = .next (s.regError f St.accessDenied (0x1000000 + 0x10000 * p + 0x20 + 4 * k)) :=
  next_congr ((if_neg (Nat.not_le.mpr hk)).trans ((State.write_of h _).trans (if_pos (by simpa [or_assoc] using hd))))

theorem execCompatKeyClear_of_reachable (h : Writes s f (0x1000000 + 0x10000 * p + 4)) (hr : s.pageReachable f p = true) :
    execCompatKeyClear f p s = .next (s.setPage p (s.page p).clearKey) :=
  next_congr ((State.write_of h _).trans (if_neg (by simp [hr])))

/-! ### The start -/

/-- A start that is taken ends the operation by a failed check, or lets it wait for a core (R353). -/
theorem execCompatStart_of_accepted (h : Writes s f (0x1000000 + 0x10000 * p + 4)) (hr : s.pageReachable f p = true)
    (hb : (s.page p).busy = false) (hz : s.tamper.frozen = false) :
    execCompatStart f p s =
      .next (let t := s.setPage p { s.page p with busy := true, done := false, dout := [], waiting := true }
             if (s.page p).startStatus = St.ok then t.pumpAll else t.endPage p (s.page p).startStatus) := by
  have taken : ¬ (!s.pageReachable f p || (s.page p).busy) = true := by simp [hr, hb]
  have thawed : ¬ s.tamper.frozen = true := by simp [hz]
  refine next_congr ((State.write_of h _).trans ((if_neg taken).trans ((if_neg thawed).trans ?_)))
  by_cases hst : (s.page p).startStatus = St.ok
  case pos => simp [hst]
  case neg => simp [hst]

theorem execCompatStart_of_denied (h : Writes s f (0x1000000 + 0x10000 * p + 4))
    (hd : s.pageReachable f p = false ∨ (s.page p).busy = true) :
    execCompatStart f p s = .next (s.regError f St.accessDenied (0x1000000 + 0x10000 * p + 4)) :=
  next_congr ((State.write_of h _).trans (if_pos (by simpa using hd)))

/-! ### The completion -/

/-- A page whose operation a core runs: the device is not frozen, the wing runs, and the cluster has its masks. -/
def State.pageRuns (s : State) (p : Nat) : Bool :=
  (s.page p).busy && (s.work.grants.any fun g => g.job == pageJob p && !g.suspended) && !s.tamper.frozen && s.wingRuns (s.pageWing p) &&
    s.maskOk (.cluster (s.pageWing p))

/-- What a core's event does to the page that it runs. -/
def State.completePage (s : State) (p : Nat) (ev : EngineEvent) : State :=
  match ev.trip with
  | some u =>
    if (s.usersOf u).contains (pageJob p) then
      (((s.log 2 St.faultDetected (unitSrc u) [byte p, byte ev.measure]).endPage p St.faultDetected).countError u).pumpAll
    else s
  | none => ((s.setPage p (s.pageResult p)).endPage p St.ok).pumpAll

variable {ev : EngineEvent}

theorem execCompatOperationComplete_of_runs (h : s.pageRuns p = true) :
    execCompatOperationComplete p ev s = .next (s.completePage p ev) := by
  simp only [State.pageRuns, Bool.and_eq_true, Bool.not_eq_true'] at h
  obtain ⟨⟨⟨⟨hb, hg⟩, hz⟩, hw⟩, hm⟩ := h
  exact next_congr (if_neg (by simp [hb, hg, hz, hw, hm]))

theorem State.completePage_of_no_trip (h : ev.trip = none) :
    s.completePage p ev = ((s.setPage p (s.pageResult p)).endPage p St.ok).pumpAll := by
  simp only [State.completePage, h]

/-- A trip of a unit that the page uses. -/
theorem State.completePage_of_trip {u : UnitId} (h : ev.trip = some u) (hu : (s.usersOf u).contains (pageJob p) = true) :
    s.completePage p ev =
      (((s.log 2 St.faultDetected (unitSrc u) [byte p, byte ev.measure]).endPage p St.faultDetected).countError u).pumpAll := by
  simp only [State.completePage, h, hu, if_true]

end Pages

/-- Settles O29: a write of the key or of the command by the guards of its register, a core's event by whether its check trips. -/
theorem compatPagesOperate : Obligations.CompatPagesOperate := by
  intro f p k v ev s
  refine ⟨?key, ?keyDenied, ?clear, ?start, ?startDenied, ?complete⟩
  case key => exact execCompatKeyWrite_of_accepted
  case keyDenied => exact execCompatKeyWrite_of_denied
  case clear => exact execCompatKeyClear_of_reachable
  case start => exact execCompatStart_of_accepted
  case startDenied => exact execCompatStart_of_denied
  case complete =>
    intro hb hg hz hw hm
    have hruns : s.pageRuns p = true := by simp only [State.pageRuns, hb, hg, hz, hw, hm, Bool.not_false, Bool.and_self]
    have hends : exec (.compatOperationComplete p ev) s = .next (s.completePage p ev) := execCompatOperationComplete_of_runs hruns
    exact ⟨fun h => hends.trans (next_congr (State.completePage_of_no_trip h)),
      fun u h hu => hends.trans (next_congr (State.completePage_of_trip h hu))⟩

end Sys2Proof.Machine
end

section
/-! SUPPORT. Samples of the noise sources, their balance and start-up, and the blocks of the pools (R358 to R366, R369, R374). -/

namespace Sys2Proof.Machine

/-! ### What a source does with a sample -/

section Phases
variable {x : Source}

/-- A source whose samples are tested: a healthy one, or one in the start-up test past the samples that it discards (R361). -/
def Source.Tested (x : Source) : Prop := x.phase = .healthy ∨ (x.phase = .startup ∧ 128 ≤ x.samples ∧ x.samples < 1152)

theorem Source.startupDone_iff : x.startupDone = true ↔ 1152 ≤ x.samples := by
  simp [Source.startupDone, settleSamples, startupSamples]

theorem Source.settling_iff : x.settling = true ↔ x.phase = .startup ∧ x.samples < 128 := by
  rw [Source.settling, Bool.and_eq_true, beq_iff_eq, decide_eq_true_eq, settleSamples]

theorem Source.Tested.not_absent (h : x.Tested) : x.phase ≠ .absent := by
  rcases h with h | ⟨h, -⟩ <;> simp [h]

theorem Source.Tested.not_isolated (h : x.Tested) : x.phase ≠ .isolated := by
  rcases h with h | ⟨h, -⟩ <;> simp [h]

theorem Source.Tested.not_settling (h : x.Tested) : x.settling = false := by
  rw [← Bool.not_eq_true, Source.settling_iff]
  rintro ⟨hs, hlt⟩
  rcases h with h | ⟨-, h128, -⟩
  · simp [h] at hs
  · omega

theorem Source.Tested.not_complete (h : x.Tested) : ¬ (x.phase = .startup ∧ x.startupDone = true) := by
  rw [Source.startupDone_iff]
  rintro ⟨hs, hge⟩
  rcases h with h | ⟨-, -, h1152⟩
  · simp [h] at hs
  · omega

/-- Of a tested source, a sample fails where the counters show it. -/
theorem Source.Tested.fails_eq (h : x.Tested) (bit : Bool) : x.fails bit = (((x.sampled bit).count bit).failure != 0) := by
  have tested : (x.phase == .healthy || (x.phase == .startup && !x.settling && !x.startupDone)) = true := by
    rw [h.not_settling]
    rcases h with h | ⟨h, -, h1152⟩
    · simp [h]
    · have hd : x.startupDone = false := by rw [← Bool.not_eq_true, Source.startupDone_iff]; omega
      simp [h, hd]
  rw [Source.fails, tested, Bool.true_and]

theorem Source.fails_of_settling (h : x.settling = true) (bit : Bool) : x.fails bit = false := by
  obtain ⟨hs, -⟩ := Source.settling_iff.mp h
  simp [Source.fails, h, hs]

end Phases

section Samples
variable {s : State} {k : Nat}

/-- A source that the device has, on a die or in a gallery out of reset (R359). -/
structure SourceUp (s : State) (k : Nat) : Prop where
  present : s.sourceExists k = true
  running : k < 64 → (s.gal (k / 4)).inReset = false

/-- A sample of a source in service leaves the early exits behind. -/
theorem SourceUp.not_out (h : SourceUp s k) (ha : (s.source k).phase ≠ .absent) :
    ¬ (!s.sourceExists k || (s.source k).phase == .absent || (k < 64 && (s.gal (k / 4)).inReset)) = true := by
  simpa [h.present, ha] using h.running

/-- A discarded sample is only counted, and leaves a gap under a raw-data test (R361, R374). -/
theorem State.sample_of_settling (h : SourceUp s k) (hs : (s.source k).settling = true) (bit : Bool) :
    s.sample k bit = (if s.underTest k then s.rawGap else s).setSource k ((s.source k).sampled bit) := by
  obtain ⟨hp, hlt⟩ := Source.settling_iff.mp hs
  have incomplete : (s.source k).startupDone = false := by rw [← Bool.not_eq_true, Source.startupDone_iff]; omega
  refine (if_neg (h.not_out (by simp [hp]))).trans ?_
  simp only [hs, incomplete, hp]
  cases s.underTest k <;> simp

/-- A tested sample reaches the raw-data test, then isolates its source or goes to the pools (R361, R362, R364, R374). -/
theorem State.sample_of_tested {u : State} {y : Source} (h : SourceUp s k) (ht : (s.source k).Tested) (bit : Bool)
    (hu : u = if s.underTest k then s.rawSample k bit else s) (hy : y = ((s.source k).sampled bit).count bit) :
    s.sample k bit =
      if y.failure ≠ 0 then (u.setSource k y).isolate k y.failure
      else (u.setSource k y).forAll ([Pool.wing .west, .wing .east, .curator].filter fun p => (u.setSource k y).gives p k)
        fun s p => s.contribute k bit p := by
  subst hu hy
  refine (if_neg (h.not_out ht.not_absent)).trans ((if_neg ?goesOn).trans ?counted)
  case goesOn => simpa [ht.not_isolated] using ht.not_complete
  case counted =>
    simp only [ht.not_settling]
    cases s.underTest k <;> simp

end Samples

/-! ### The commands of the sources and pools -/

section Commands
variable {s : State} {k : Nat} {bit : Bool}

theorem execSourceSample_of_settling (hs : s.sampling = true) (h : SourceUp s k) (hx : (s.source k).settling = true) :
    execSourceSample k bit s = .next ((if s.underTest k then s.rawGap else s).setSource k ((s.source k).sampled bit)) := by
  simp [execSourceSample, hs, Source.fails_of_settling hx, State.sample_of_settling h hx]

/-- A tested sample: the loss of its source lets what waits be looked at again. -/
theorem execSourceSample_of_tested {u : State} {y : Source} (hs : s.sampling = true) (h : SourceUp s k) (ht : (s.source k).Tested)
    (hu : u = if s.underTest k then s.rawSample k bit else s) (hy : y = ((s.source k).sampled bit).count bit) :
    execSourceSample k bit s =
      .next (if y.failure ≠ 0 then ((u.setSource k y).isolate k y.failure).served
        else (u.setSource k y).forAll ([Pool.wing .west, .wing .east, .curator].filter fun p => (u.setSource k y).gives p k)
          fun s p => s.contribute k bit p) := by
  have hfails : (s.source k).fails bit = (y.failure != 0) := hy ▸ ht.fails_eq bit
  refine next_congr ((if_neg (by simp [hs])).trans ?_)
  rw [hfails, State.sample_of_tested h ht bit hu hy]
  by_cases hf : y.failure = 0
  case pos => simp [hf]
  case neg => simp [hf]

theorem execBalanceAdjustment_of_present (hs : s.sampling = true) (h : s.sourceExists k = true) :
    execBalanceAdjustment k s = .next (s.balance k).served :=
  next_congr (if_neg (by simp [hs, h]))

/-- Too many ones move the trim down by one, to 0 at the least; `n` counts the adjustments in a row with the trim at an end (R358). -/
theorem State.balance_of_many_ones {t : BitVec 6} {n : Nat} (hp : (s.source k).phase = .healthy) (hs : 4096 ≤ (s.source k).sinceAdj)
    (ho : (s.source k).sinceAdj / 2 < (s.source k).ones) (ht : t = if (s.source k).trim = 0 then 0 else (s.source k).trim - 1)
    (hn : n = if t = 0 ∨ t = 63 then (s.source k).saturated + 1 else 0) :
    s.balance k =
      if 3 ≤ n then (s.setSource k { s.source k with trim := t, saturated := n, ones := 0, sinceAdj := 0 }).isolate k 4
      else s.setSource k { s.source k with trim := t, saturated := n, ones := 0, sinceAdj := 0 } := by
  subst hn
  refine (if_neg (by simp [Nat.not_lt.mpr hs, hp])).trans ?_
  simp only [gt_iff_lt, ho, if_true, ← ht, Bool.or_eq_true, decide_eq_true_eq, ge_iff_le]

theorem State.balance_lowers (hp : (s.source k).phase = .healthy) (hs : 4096 ≤ (s.source k).sinceAdj)
    (ho : (s.source k).sinceAdj / 2 < (s.source k).ones) (ht : 1 < (s.source k).trim) :
    s.balance k = s.setSource k { s.source k with trim := (s.source k).trim - 1, saturated := 0, ones := 0, sinceAdj := 0 } := by
  have lowered : (s.source k).trim - 1 = if (s.source k).trim = 0 then 0 else (s.source k).trim - 1 := (if_neg (by bv_omega)).symm
  have inside : 0 = if (s.source k).trim - 1 = 0 ∨ (s.source k).trim - 1 = 63 then (s.source k).saturated + 1 else 0 :=
    (if_neg (by bv_omega)).symm
  exact (State.balance_of_many_ones hp hs ho lowered inside).trans (if_neg (by decide))

/-- The third adjustment in a row at the low end fails the balance (R358). -/
theorem State.balance_saturates (hp : (s.source k).phase = .healthy) (hs : 4096 ≤ (s.source k).sinceAdj)
    (ho : (s.source k).sinceAdj / 2 < (s.source k).ones) (ht : (s.source k).trim ≤ 1) (hsat : 2 ≤ (s.source k).saturated) :
    s.balance k =
      (s.setSource k { s.source k with trim := 0, saturated := (s.source k).saturated + 1, ones := 0, sinceAdj := 0 }).isolate k 4 := by
  have lowest : 0 = if (s.source k).trim = 0 then 0 else (s.source k).trim - 1 := by
    split <;> bv_omega
  exact (State.balance_of_many_ones hp hs ho lowest (if_pos (.inl rfl)).symm).trans (if_pos (by omega))

theorem execSourceStartupComplete_of_done (hs : s.sampling = true) (h : s.sourceExists k = true) (hp : (s.source k).phase = .startup)
    (hd : (s.source k).startupDone = true) :
    execSourceStartupComplete k s = .next (State.entropyChanged s (s.setSource k { s.source k with phase := .healthy })).served :=
  next_congr (if_neg (by simp [hs, h, hp, hd]))

theorem execConditionedBlock_of_full {p : Pool} (hs : s.sampling = true) (hp : 1024 ≤ (s.pool p).taken.length) :
    execConditionedBlock p s =
      .next (let b := Config.prim (.hash 1) [packBits (s.pool p).taken] 32
             let blocks := (s.pool p).blocks ++ [(b.take 16, (s.pool p).contributors), (b.drop 16, (s.pool p).contributors)]
             (((s.setPool p { s.pool p with taken := [], contributors := [], blocks }).takeBits p 1024).serve p).served) :=
  next_congr ((if_neg (by simp [hs])).trans (congrArg State.served (if_neg (Nat.not_lt.mpr hp))))

theorem execWingEntropyReady_of_started {w : Wing} (hs : s.sampling = true) (hr : s.entropyReady w = false) (hw : s.reaches w = true)
    (hd : s.wingStarted w = true) :
    execWingEntropyReady w s = .next (((State.entropyChanged s (s.setEntropyReady w)).tryAdmit w).pumpAll) :=
  next_congr (if_neg (by simp [hs, hr, hw, hd]))

end Commands

/-- Settles O37: a sample by the phase of its source and the tests that it fails, an adjustment by the trim, the rest each by the guards of
its own lemma. -/
theorem sourcesAndPoolsSample : Obligations.SourcesAndPoolsSample := by
  rintro k bit x s u hs hk rfl hg
  have up : SourceUp s k := ⟨hk, hg⟩
  refine ⟨?discarded, ?fails, ?passes, ?lowers, ?saturates, ?starts, ?block, ?ready⟩
  case discarded =>
    rintro hp hlt rfl
    exact execSourceSample_of_settling hs up (Source.settling_iff.mpr ⟨hp, hlt⟩)
  case fails => exact fun y hy hu ht hf => (execSourceSample_of_tested hs up ht hu hy).trans (next_congr (if_pos hf))
  case passes => exact fun y hy hu hp hf => (execSourceSample_of_tested hs up (.inl hp) hu hy).trans (next_congr (if_neg (by simp [hf])))
  case lowers =>
    intro hp hn ho ht
    exact (execBalanceAdjustment_of_present hs hk).trans (next_congr (congrArg State.served (State.balance_lowers hp hn ho ht)))
  case saturates =>
    intro hp hn ho ht hsat
    exact (execBalanceAdjustment_of_present hs hk).trans (next_congr (congrArg State.served (State.balance_saturates hp hn ho ht hsat)))
  case starts => exact fun hp hd => execSourceStartupComplete_of_done hs hk hp (Source.startupDone_iff.mpr hd)
  case block =>
    rintro p b hp rfl
    exact execConditionedBlock_of_full hs hp
  case ready => exact fun w => execWingEntropyReady_of_started hs

end Sys2Proof.Machine
end

section
/-! SUPPORT. Reseeds, stops and tests of the generators, the ends of the waits for them, and the entropy registers (R191, R362, R365 to
R375). -/

namespace Sys2Proof.Machine

/-! ### Intervals (R365) -/

section Intervals
variable {s : State}

theorem State.halfInterval_iff {x : DrbgState} :
    s.halfInterval x = true ↔ 32768 ≤ x.requests ∨ drbgIntervalNs / 2 ≤ s.now - x.reseededAt := by
  simp [State.halfInterval, drbgIntervalRequests]

theorem State.fullInterval_iff {x : DrbgState} :
    s.fullInterval x = true ↔ 65536 ≤ x.requests ∨ drbgIntervalNs ≤ s.now - x.reseededAt := by
  simp [State.fullInterval, drbgIntervalRequests]

theorem execDrbgReseedRequest_of_due {d : Drbg} (hi : (s.drbg d).inst = true) (hw : (s.drbg d).wanted = none)
    (hh : s.halfInterval (s.drbg d) = true) :
    execDrbgReseedRequest d s = .next (((s.setDrbg d { s.drbg d with wanted := some s.now }).serve (drbgPool d)).served) :=
  next_congr (if_neg (by simp [hi, hw, hh]))

theorem execDrbgIntervalExpiry_of_due {d : Drbg} (hi : (s.drbg d).inst = true) (hf : s.fullInterval (s.drbg d) = true) :
    execDrbgIntervalExpiry d s =
      .next (s.setDrbg d { s.drbg d with stopped := true, wanted := some ((s.drbg d).wanted.getD s.now),
                                         silentAt := if (s.drbg d).stopped then (s.drbg d).silentAt else s.now }) :=
  next_congr (if_neg (by simp [hi, hf]))

theorem execMaskingGeneratorReseed_of_due {m : MaskGen} (hi : (s.maskGen m).seeded = true) (hw : (s.maskGen m).wanted = none)
    (ht : maskReseedNs ≤ s.now - (s.maskGen m).reseededAt) :
    execMaskingGeneratorReseed m s = .next (((s.setMaskGen m { s.maskGen m with wanted := some s.now }).serve (maskPool m)).served) :=
  next_congr (if_neg (by simpa [hi, hw] using ht))

theorem execMaskingGeneratorStop_of_due {m : MaskGen} (hi : (s.maskGen m).seeded = true)
    (ht : maskStopNs ≤ s.now - (s.maskGen m).reseededAt) :
    execMaskingGeneratorStop m s =
      .next (s.setMaskGen m { s.maskGen m with stopped := true, wanted := some ((s.maskGen m).wanted.getD s.now) }) :=
  next_congr (if_neg (by simpa [hi] using ht))

/-- A known-answer test of an instance in service (R365). -/
theorem execDrbgKnownAnswerTest_of_service {d : Drbg} (he : s.drbgExists d = true) (hv : (s.unit (drbgUnit d)).svc ≠ .fenced)
    (hb : s.boot.inReset = false) (hz : s.tamper.frozen = false) (passes : Bool) :
    execDrbgKnownAnswerTest d passes s =
      .next (if passes then ((s.setDrbg d { s.drbg d with calls := 0, tested := true }).serve (drbgPool d)).served
        else ((s.forAll (s.drawers d) fun s n => s.endJob n St.faultDetected).fence (drbgUnit d) 2).pumpAll) :=
  next_congr (if_neg (by simp [he, hv, hb, hz]))

end Intervals

/-! ### Waits (R191, R368) -/

section Waits
variable {s : State} {n : Nat} {j : Job} {e : Exec} {x : FnSpec}

/-- The wait of an EXEC for a generator has used up its budget, by the stage that the EXEC stands at. -/
def State.waitSpent (s : State) (n : Nat) (j : Job) (e : Exec) (x : FnSpec) : Prop :=
  match e.stage with
  | .waitEntropy t => t + s.waitBudgetNs ≤ s.now ∧ s.supplied n j e x = false
  | .waitCache _ | .waitLeaf => s.dryFor j e x = true
  | .running => ∃ g ∈ s.silentMasks j e, s.maskSince g e.began + s.waitBudgetNs ≤ s.now
  | _ => False

theorem State.waitSpent_of_waitEntropy {t : Nat} (hs : e.stage = .waitEntropy t) :
    s.waitSpent n j e x ↔ t + s.waitBudgetNs ≤ s.now ∧ s.supplied n j e x = false := by
  simp only [State.waitSpent, hs]

theorem State.waitSpent_of_waitCache {t : Nat} (hs : e.stage = .waitCache t) : s.waitSpent n j e x ↔ s.dryFor j e x = true := by
  simp only [State.waitSpent, hs]

theorem State.waitSpent_of_waitLeaf (hs : e.stage = .waitLeaf) : s.waitSpent n j e x ↔ s.dryFor j e x = true := by
  simp only [State.waitSpent, hs]

theorem State.waitSpent_of_running (hs : e.stage = .running) :
    s.waitSpent n j e x ↔ ∃ g ∈ s.silentMasks j e, s.maskSince g e.began + s.waitBudgetNs ≤ s.now := by
  simp only [State.waitSpent, hs]

/-- A wait that has used up its budget ends the job, is counted and logged. -/
theorem execEntropyWaitExpiry_of_spent (hj : s.job n = some j) (he : j.exec = some e) (hx : s.specNow j = some x)
    (hz : s.tamper.frozen = false) (h : s.waitSpent n j e x) : execEntropyWaitExpiry n s = .next (s.entropyEnds n) := by
  simp only [execEntropyWaitExpiry, hj, he, hx, hz, Bool.false_or]
  refine next_congr ?_
  cases hs : e.stage with
  | waitEntropy t =>
    obtain ⟨ht, hd⟩ := (State.waitSpent_of_waitEntropy hs).mp h
    exact if_neg (by simpa [hd] using ht)
  | waitCache t => exact if_neg (by simp [(State.waitSpent_of_waitCache hs).mp h])
  | waitLeaf => exact if_neg (by simp [(State.waitSpent_of_waitLeaf hs).mp h])
  | running => exact if_neg (by simpa using (State.waitSpent_of_running hs).mp h)
  | _ => simp [State.waitSpent, hs] at h

/-- ENTROPY_WAITS counts an ended wait up to its largest value. -/
theorem State.entropyEnds_eq {u : State}
    (hu : u = ({ s with entropy := { s.entropy with waits := min (s.entropy.waits + 1) (2 ^ 32 - 1) } }).logEnding n St.entropyUnavailable) :
    s.entropyEnds n = (u.endJob n St.entropyUnavailable).pumpAll := by
  rw [hu, State.entropyEnds, sat_eq_min]

end Waits

/-! ### Registers (R362, R374, R375) -/

theorem execEntropyReadmit_of_isolated {s : State} {f : Fn} {v : Word32} (h : Manages s f 0x160018) (hv : bit32 v 31 = true)
    (hk : s.sourceExists (bits32 v 0 7) = true) (hp : (s.source (bits32 v 0 7)).phase = .isolated) :
    execEntropyReadmit f v s = .next (s.setSource (bits32 v 0 7) { trim := (s.source (bits32 v 0 7)).trim }) :=
  next_congr ((State.mgmtWrite_of h _).trans (if_neg (by simp [hv, hk, hp])))

/-- Settles O38: a generator by its interval, a known-answer test by its outcome, a wait by the stage of its EXEC, a register by its access. -/
theorem generatorsReseedAndRegistersClear : Obligations.GeneratorsReseedAndRegistersClear := by
  intro d m f v n s
  refine ⟨?request, ?expiry, ?maskReseed, ?maskStop, ?test, ?waits, ?readmit, ?lastFail, ?rawData⟩
  case request => exact fun hi hw hh => execDrbgReseedRequest_of_due hi hw (State.halfInterval_iff.mpr hh)
  case expiry => exact fun hi hf => execDrbgIntervalExpiry_of_due hi (State.fullInterval_iff.mpr hf)
  case maskReseed => exact execMaskingGeneratorReseed_of_due
  case maskStop => exact execMaskingGeneratorStop_of_due
  case test =>
    intro he hv hb hz
    have tested := execDrbgKnownAnswerTest_of_service he hv hb hz
    exact ⟨tested true, tested false⟩
  case waits =>
    intro j e x u hj he hx hz hu
    have ends (h : s.waitSpent n j e x) : exec (.entropyWaitExpiry n) s = .next (u.endJob n St.entropyUnavailable).pumpAll :=
      (execEntropyWaitExpiry_of_spent hj he hx hz h).trans (next_congr (State.entropyEnds_eq hu))
    refine ⟨?engine, ?cache, ?leaf, ?mask⟩
    case engine => exact fun t hs ht hd => ends ((State.waitSpent_of_waitEntropy hs).mpr ⟨ht, hd⟩)
    case cache => exact fun t hs hd => ends ((State.waitSpent_of_waitCache hs).mpr hd)
    case leaf => exact fun hs hd => ends ((State.waitSpent_of_waitLeaf hs).mpr hd)
    case mask => exact fun g hs hg ht => ends ((State.waitSpent_of_running hs).mpr ⟨g, hg, ht⟩)
  case readmit => exact execEntropyReadmit_of_isolated
  case lastFail => exact fun h => next_congr (State.clearRead_of h _ _)
  case rawData => exact fun h => next_congr (State.clearRead_of h _ _)

end Sys2Proof.Machine
end

section
/-! SUPPORT. The gate of a wing: its reads and writes of tiles, the write-back of the counter tree, the peer's copy and the patrol (R383,
R384, R386, R388 to R390, R394). -/

namespace Sys2Proof.Machine

/-! ### Reads (R386, R388) -/

section Reads
variable {s u : State} {t : TileId} {x : TileFetch} {job : Option Nat} {st : Byte}

/-- A gate that is up, of a wing that is no orphan, reads the tile and notes what the fetch met; the status says what follows. -/
theorem execTileRead_of_gate (ht : s.tileExists t = true) (hg : s.gateUp t.wing = true) (ho : s.orphan t.wing = false)
    (hst : (s.fetchStatus t (s.effective t x)).1 = st) (hu : s.recordFetch t (s.effective t x) = u) :
    execTileRead t x job s =
      .next (if st == St.ok then u.cachePath t
        else if st == St.storeroomMedia then (if u.peerServes t then u else u.endNeed job st)
        else (u.dropCache t job).endNeed job st) := by
  subst hst hu
  exact next_congr ((if_neg (by simp [ht, hg])).trans (if_neg (by simp [ho])))

/-- A failure of verification, unlike a media failure, has no second copy: it ends the job that needs the tile. -/
theorem execTileRead_of_unverified {n : Nat} (ht : s.tileExists t = true) (hg : s.gateUp t.wing = true) (ho : s.orphan t.wing = false)
    (hst : (s.fetchStatus t (s.effective t x)).1 = st) (h : st = St.storeroomIntegrity ∨ st = St.storeroomStale) :
    execTileRead t x (some n) s = .next ((((s.recordFetch t (s.effective t x)).dropCache t (some n)).endJob n st).pumpAll) := by
  refine (execTileRead_of_gate ht hg ho hst rfl).trans ?_
  rcases h with rfl | rfl <;> rfl

theorem execTileRead_of_media (ht : s.tileExists t = true) (hg : s.gateUp t.wing = true) (ho : s.orphan t.wing = false)
    (hst : (s.fetchStatus t (s.effective t x)).1 = St.storeroomMedia) (hu : s.recordFetch t (s.effective t x) = u) :
    execTileRead t x job s = .next (if u.peerServes t then u else u.endNeed job St.storeroomMedia) :=
  execTileRead_of_gate ht hg ho hst hu

/-- An orphan's gate that may not serve the read ends the job that needs the tile (R394). -/
theorem execTileRead_of_orphan (ht : s.tileExists t = true) (hg : s.gateUp t.wing = true) (ho : s.orphan t.wing = true)
    (hn : ∀ n, job = some n → s.orphanReads t n = false) : execTileRead t x job s = .next (s.endNeed job St.splitOrphan) := by
  refine next_congr ((if_neg (by simp [ht, hg])).trans (if_pos ?_))
  cases job with
  | none => simp [ho]
  | some n => simp [ho, hn n rfl]

end Reads

/-! ### The peer's copy (R389) -/

section Peer
variable {s u : State} {t p : TileId} {x : TileFetch} {job : Option Nat}

theorem execPeerFallbackRead_of_alone (hm : s.mirrored t.tile = true) (hf : (s.tile t).mediaFailed = true) (hv : (s.tile t).version ≠ 0)
    (hp : s.peerServes t = false) : execPeerFallbackRead t x job s = .next (s.endNeed job St.storeroomMedia) :=
  next_congr ((if_neg (by simp [hm, hf, hv])).trans (if_pos (by simp [hp])))

/-- The peer's copy verifies: it takes the place of the tile's own, which had failed verification. -/
theorem execPeerFallbackRead_of_repairs (hp : p = ⟨otherWing t.wing, t.tile⟩) (hu : s.recordFetch p (s.effective p x) = u)
    (hm : s.mirrored t.tile = true) (hl : (s.tile t).unlendable = true) (hf : (s.tile t).mediaFailed = false)
    (hv : (s.tile t).version ≠ 0) (hs : s.peerServes t = true) (hst : (s.fetchStatus p (s.effective p x)).1 = St.ok)
    (ho : u.orphan t.wing = false) (hg : u.gateUp t.wing = true) :
    execPeerFallbackRead t x job s = .next (((u.cachePath p).putTile t (u.tile p).data).markRepaired t) := by
  subst hp hu
  refine next_congr ((if_neg (by simp [hm, hl, hv])).trans ((if_neg (by simp [hs])).trans ?_))
  exact (if_pos (by simp [hst])).trans (if_pos (by simp [hl, hf, ho, hg]))

end Peer

/-! ### Writes and the counter tree (R383, R384) -/

section Writes
variable {s u : State} {t : TileId} {d : List Byte} {x : TileStore} {w : Wing} {l k : Nat}

/-- A write changes the copy of its own wing, and then that of the peer where the region is mirrored. -/
theorem execTileWrite_of_gate (ht : s.tileExists t = true) (hg : s.gateUp t.wing = true) (hd : d.length ≤ 4096)
    (ho : s.orphan t.wing = false) (hu : (s.putTile t d).crcFailed t x.crcErrors = u) :
    execTileWrite t d x s =
      .next (if !u.mirrored t.tile then u
        else if u.orphan (otherWing t.wing) || !u.gateUp (otherWing t.wing) then
          u.setStoreWing (otherWing t.wing) { u.storeWing (otherWing t.wing) with stale := true }
        else u.putTile ⟨otherWing t.wing, t.tile⟩ d) := by
  subst hu
  exact next_congr ((if_neg (by simp [ht, hg, hd])).trans (if_neg (by simp [ho])))

theorem State.moveHome_of_stays (h : (s.channel (s.channelOf t)).retiring = false) : s.moveHome t = s := if_neg (by simp [h])

theorem State.putTile_of_stays (h : (s.channel (s.channelOf t)).retiring = false) : s.putTile t d = s.writeTile t d :=
  congrArg (State.writeTile · t d) (State.moveHome_of_stays h)

/-- Below level 3 a dirty node is written back at once. -/
theorem execNodeWriteback_below_root (hg : s.gateUp w = true) (ho : s.orphan w = false) (hd : (s.node w l k).dirtyAt ≠ none)
    (hl : l = 1 ∨ l = 2) : execNodeWriteback w l k s = .next (s.writeBack w l k) :=
  next_congr ((if_neg (by simp [hd, hg, ho]; omega)).trans (if_neg (by omega)))

/-- At level 3 the write-back waits for the Curator, which is asked for the root. -/
theorem execNodeWriteback_asks_root (hg : s.gateUp w = true) (ho : s.orphan w = false) (hd : (s.node w 3 k).dirtyAt ≠ none)
    (hr : s.reaches w = true) (hk : (s.storeWing w).rootDue.contains k = false) :
    execNodeWriteback w 3 k s = .next (s.setStoreWing w { s.storeWing w with rootDue := (s.storeWing w).rootDue ++ [k] }) :=
  next_congr ((if_neg (by simp [hd, hg, ho])).trans ((if_pos rfl).trans (if_neg (by rw [hr, hk]; decide))))

theorem execRootUpdate_of_due (hg : s.gateUp w = true) (ho : s.orphan w = false) (hr : s.reaches w = true)
    (hk : (s.storeWing w).rootDue.contains k = true) : execRootUpdate w k s = .next (s.writeBack w 3 k) :=
  next_congr (if_neg (by rw [hg, ho, hr, hk]; decide))

theorem State.writeBack_below_root (hl : l = 1 ∨ l = 2) :
    s.writeBack w l k =
      (let v := (s.node w l k).version + 1
       (s.setNode w l k { s.node w l k with version := v, dirtyAt := none, verifiedAt := s.runNs, echo := v,
                                            tag := s.sealTag w l k v (s.nodeBytes w l k) }).dirtyNode w (l + 1) (k / 128)) :=
  if_neg (by omega)

end Writes

/-! ### The patrol (R390) -/

theorem execPatrolScrub_of_unseen {s : State} {w : Wing} {l k : Nat} (r : DramRead) (hg : s.gateUp w = true) (hl : l ≤ 3)
    (hv : s.versionAt w l k ≠ 0) (hp : s.store.passStart ≤ s.now)
    (hs : (if l = 0 then (s.tile ⟨w, k⟩).patrolled else (s.node w l k).patrolled) = false) :
    execPatrolScrub ⟨w, l, k⟩ r s = .next (s.patrolRead ⟨w, l, k⟩ r).endPass :=
  next_congr (if_neg (by simp [hv, hl, hg, hs, hp]))

/-- Settles O42: what the gate does once it is up, by the status of the fetch, by what the peer can take and by the level of the node. -/
theorem tilesAreReadAndWritten : Obligations.TilesAreReadAndWritten := by
  intro t x d w n s ht hg
  refine ⟨?verified, ?unverified, ?media, ?orphan, ?orphanJob, ?write, ?put, ?writeback, ?askRoot, ?root, ?alone, ?repair, ?scrub⟩
  case verified => exact fun ho hst => execTileRead_of_gate (job := none) ht hg ho hst rfl
  case unverified => exact fun _ => execTileRead_of_unverified ht hg
  case media =>
    intro ho hst
    have read := execTileRead_of_media (job := some n) ht hg ho hst rfl
    exact ⟨fun hp => read.trans (next_congr (if_neg (by simp [hp]))), fun hp => read.trans (next_congr (if_pos hp))⟩
  case orphan => exact fun ho => execTileRead_of_orphan (job := none) ht hg ho (by simp)
  case orphanJob => exact fun ho hn => execTileRead_of_orphan (job := some n) ht hg ho (by simp [hn])
  case write =>
    intro u hu hd ho
    have written := execTileWrite_of_gate (x := w) ht hg hd ho hu.symm
    refine ⟨?single, ?both, ?stale⟩
    case single => exact fun hm => written.trans (next_congr (if_pos (by simp [hm])))
    case both => exact fun hm hp hq => written.trans (next_congr ((if_neg (by simp [hm])).trans (if_neg (by simp [hp, hq]))))
    case stale => exact fun hm hp => written.trans (next_congr ((if_neg (by simp [hm])).trans (if_pos (by simpa using hp))))
  case put => exact State.putTile_of_stays
  case writeback =>
    rintro l k _ rfl hd ho hl
    exact (execNodeWriteback_below_root hg ho hd hl).trans (next_congr (State.writeBack_below_root hl))
  case askRoot => exact fun k hd ho => execNodeWriteback_asks_root hg ho hd
  case root =>
    rintro k _ rfl
    exact execRootUpdate_of_due hg
  case alone => exact fun hm => execPeerFallbackRead_of_alone hm
  case repair =>
    rintro p _ hp rfl
    exact execPeerFallbackRead_of_repairs hp rfl
  case scrub => exact fun l k r => execPatrolScrub_of_unseen r hg

end Sys2Proof.Machine
end

section
/-! SUPPORT. The channels of the Storeroom: their training and a wing's start (R376 to R378, R384, R395), the re-homing of tiles, the
failure and the retirement of channels (R389, R391, R392). -/

namespace Sys2Proof.Machine

/-! ### Training (R376, R377) -/

section Training
variable {s : State} {c : Nat} {x : ChannelTraining}

theorem trainingOk_iff :
    trainingOk x = true ↔
      x.trained = true ∧ x.rate ≤ 4 ∧ (x.density = 16 ∨ x.density = 24 ∨ x.density = 32) ∧ 16 ≤ x.capacityGb ∧ x.capacityGb ≤ 128 := by
  simp [trainingOk, and_assoc]

theorem execChannelTrainingComplete_of_bad (hc : c < 4) (hs : (s.channel c).state = 1) (hx : ¬ trainingOk x = true) :
    execChannelTrainingComplete c x s = .next ((s.setChannel c { s.channel c with state := 0 }).trainNext c) :=
  next_congr ((if_neg (by simp [hc, hs])).trans (if_pos (by simp [hx])))

/-- A channel that trained is in service, with a fresh count of spares. -/
theorem execChannelTrainingComplete_of_ok {u v : State} (hc : c < 4) (hs : (s.channel c).state = 1) (hx : trainingOk x = true)
    (hu : u = s.setChannel c { s.channel c with state := 2, top := x.rate, widthX8 := x.widthX8, rdimm := x.rdimm, twoRanks := x.twoRanks,
                                                capacityGb := x.capacityGb, density := x.density, failed := false })
    (hv : v = u.setStoreWing (channelWing c) ((u.storeWing (channelWing c)).setSpares (c % 2) (x.capacityGb * 1536))) :
    execChannelTrainingComplete c x s = .next (v.dropDiffering.commonRate.trainNext c) := by
  subst hv hu
  exact next_congr ((if_neg (by simp [hc, hs])).trans (if_neg (by simp [hx])))

theorem State.dropDiffering_of_first {o : Nat} (h : s.firstChannel = some o) :
    s.dropDiffering =
      s.forAll ((List.range 4).filter fun c => s.channelUp c && !sameKind (s.channel o) (s.channel c)) fun u c =>
        (u.setChannel c { u.channel c with state := 0 }).log 4 0 (dieSrc (wingDie (channelWing c))) [byte c] := by
  rw [State.dropDiffering, h]

end Training

/-! ### The start of a wing (R384, R395) -/

section Start
variable {s : State} {w : Wing}

theorem execStoreroomInitComplete_of_ready (hi : (s.storeWing w).initDone = false) (hk : (s.storeWing w).tileKey ≠ [])
    (h0 : (s.channel (wingChannel w 0)).state ≠ 1) (h1 : (s.channel (wingChannel w 1)).state ≠ 1) (hc : s.wingChannels w ≠ [])
    (hs : s.stopped = false) :
    execStoreroomInitComplete w s =
      .next (let u := s.setStoreWing w { s.storeWing w with initDone := true }
             (if u.store.regions = 0 then u.sizeRegions else u).tryAdmit w) :=
  next_congr (if_neg (by simp [hi, hk, h0, h1, hc, hs]))

theorem execMirrorRefreshComplete_of_stale (hr : s.store.refresh = true) (hs : (s.storeWing w).stale = true)
    (hi : (s.storeWing w).initDone = true) (hf : s.tamper.frozen = false) :
    execMirrorRefreshComplete w s =
      .next (let u := s.copyMirrored w
             let u := u.setStoreWing w { u.storeWing w with stale := false }
             ({ u with store := { u.store with refresh := false } }).tryAdmit w) :=
  next_congr (if_neg (by simp [hr, hs, hi, hf]))

end Start

/-! ### Re-homing (R391) -/

section Rehome
variable {s : State} {t : TileId} {w : Wing}

/-- A tile that reads well moves to a spare of its own channel while that has one: its home stays. -/
theorem execTileRehome_of_spare (hr : s.rehomeDue t = true) (hg : s.gateUp t.wing = true) (ho : s.orphan t.wing = false)
    (hm : (s.tile t).mediaFailed = false) (hs : s.sparesOn t.wing (s.channelOf t % 2) ≠ 0) :
    execTileRehome t s =
      .next (let w := s.storeWing t.wing
             let k := s.channelOf t % 2
             let u := s.setStoreWing t.wing (w.setSpares k (w.spares k - 1))
             let u := (u.setTile t { u.tile t with home := (s.tile t).home, ceThisPass := 0 }).writeTile t (s.tile t).data
             u.log 4 0 (dieSrc (wingDie t.wing)) (storeDetail t.wing 0 t.tile)) := by
  refine next_congr ((if_neg (by simp [hr, hg, ho])).trans ((if_neg (by simp [hs])).trans ?_))
  simp only [hm, hs, Bool.false_eq_true, if_false, if_true]

theorem State.sparesOn_eq_zero (h0 : s.sparesOn w 0 = 0) (h1 : s.sparesOn w 1 = 0) {k : Nat} (hk : k < 2) : s.sparesOn w k = 0 := by
  obtain rfl | rfl : k = 0 ∨ k = 1 := by omega
  · exact h0
  · exact h1

/-- With no spare on either channel, the retirement of the tile's channel is requested. -/
theorem execTileRehome_of_no_spare (hr : s.rehomeDue t = true) (hg : s.gateUp t.wing = true) (ho : s.orphan t.wing = false)
    (h0 : s.sparesOn t.wing 0 = 0) (h1 : s.sparesOn t.wing 1 = 0) :
    execTileRehome t s =
      .next ((s.log 4 0 (dieSrc (wingDie t.wing)) (storeDetail t.wing 0 t.tile)).requestRetire (s.channelOf t)) := by
  have own : s.sparesOn t.wing (s.channelOf t % 2) = 0 := State.sparesOn_eq_zero h0 h1 (by omega)
  have other : s.sparesOn t.wing (1 - s.channelOf t % 2) = 0 := State.sparesOn_eq_zero h0 h1 (by omega)
  exact next_congr ((if_neg (by simp [hr, hg, ho])).trans (if_pos (by simp [own, other])))

end Rehome

/-! ### Retirement (R389, R392) -/

section Retirement
variable {s : State} {c : Nat} {f : Fn} {v : Word32}

theorem execChannelRetirementRequest_of_day (hc : c < 4) (hf : s.tamper.frozen = false)
    (hu : s.retireUe ≤ ((s.channel c).ueTimes.filter fun a => s.now - a < dayNs).length) :
    execChannelRetirementRequest c s = .next (s.requestRetire c) :=
  next_congr (if_neg (by simp [hc, hf, hu]))

/-- STORE_RETIRE with its bit 31 set, from a function that manages the device. -/
theorem execStoreRetire_of_manages (h : Manages s f 0x170060) (hv : bit32 v 31 = true) :
    execStoreRetire f v s =
      .next (if !s.channelUp (bits32 v 0 2) || s.retiring then s.regError f St.accessDenied 0x170060 else s.startRetire (bits32 v 0 2)) :=
  next_congr ((State.mgmtWrite_of h _).trans (if_neg (by simp [hv])))

/-- Each written tile of the channel is copied off it, and then the channel is retired. -/
theorem execRetirementCopyComplete_of_retiring {u : State} (hr : (s.channel c).retiring = true) (hf : s.tamper.frozen = false)
    (hg : s.gateUp (channelWing c) = true) (ho : s.orphan (channelWing c) = false)
    (hu : u = s.forAll ((s.storeWing (channelWing c)).tiles.filter fun p => p.2.version != 0 && s.channelOf ⟨channelWing c, p.1⟩ == c)
      (fun u p => u.copyOff c ⟨channelWing c, p.1⟩)) :
    execRetirementCopyComplete c s =
      .next ((u.setChannel c { u.channel c with retiring := false, state := 3 }).log 4 0 (dieSrc (wingDie (channelWing c))) [byte c]) := by
  subst hu
  exact next_congr (if_neg (by simp [hr, hf, hg, ho]))

theorem execChannelFailure_of_answering (hc : c < 4) (hu : s.channelUp c = true) (hf : (s.channel c).failed = false) :
    execChannelFailure c s =
      .next ((s.setChannel c { s.channel c with failed := true }).log 4 St.storeroomMedia (dieSrc (wingDie (channelWing c))) [byte c]) :=
  next_congr (if_neg (by simp [hc, hu, hf]))

end Retirement

/-- Settles O43: a channel by what its training found, a tile by the spares that are left, a retirement and a read by their registers. -/
theorem channelsTrainMoveAndRetire : Obligations.ChannelsTrainMoveAndRetire := by
  constructor
  · intro c x w s
    refine ⟨?bad, ?good, ?differing, ?rate, ?init, ?refresh⟩
    case bad => exact fun hc hs hx => execChannelTrainingComplete_of_bad hc hs (mt trainingOk_iff.mp hx)
    case good =>
      intro hc hs htr hra hde hlo hhi
      exact execChannelTrainingComplete_of_ok hc hs (trainingOk_iff.mpr ⟨htr, hra, hde, hlo, hhi⟩) rfl rfl
    case differing => exact fun _ => State.dropDiffering_of_first
    case rate => rfl
    case init => exact execStoreroomInitComplete_of_ready
    case refresh => exact execMirrorRefreshComplete_of_stale
  · intro t c f v s
    refine ⟨?rehome, ?noSpare, ?request, ?retire, ?denied, ?copied, ?failure, ?zq, ?ce, ?ue, ?integ, ?lastFail⟩
    case rehome => exact execTileRehome_of_spare
    case noSpare => exact execTileRehome_of_no_spare
    case request => exact execChannelRetirementRequest_of_day
    case retire => exact fun h hv hr hu => (execStoreRetire_of_manages h hv).trans (next_congr (if_neg (by simp [hr, hu])))
    case denied => exact fun h hv hd => (execStoreRetire_of_manages h hv).trans (next_congr (if_pos (by simpa using hd)))
    case copied => exact fun _ => execRetirementCopyComplete_of_retiring
    case failure => exact execChannelFailure_of_answering
    case zq => exact fun _ => rfl
    case ce => exact fun hc h => next_congr ((if_neg (Nat.not_le.mpr hc)).trans (State.clearRead_of h _ _))
    case ue => exact fun hc h => next_congr ((if_neg (Nat.not_le.mpr hc)).trans (State.clearRead_of h _ _))
    case integ => exact fun h => next_congr (State.clearRead_of h _ _)
    case lastFail => exact fun h => next_congr (State.clearRead_of h _ _)

end Sys2Proof.Machine
end

section
/-! SUPPORT. What a mailbox message that is heard answers, by what its meaning gives (R411, R415), and the messages of the lifecycle (R410). -/

namespace Sys2Proof.Machine

/-! ### Answers -/

section Answers
variable {s t : State} {m : Sender} {c n : Nat} {b p ps : List Byte} {st : Byte}

theorem State.message_of_ok {f : List Byte → State → Answer} (h : Heard s m c n)
    (hf : f ((s.mailbox m).params ps) s = (St.ok, b, t)) : s.message m c n ps f = t.replyTo m St.ok b.length b := by
  rw [State.message_of h, hf]
  rfl

theorem State.message_of_denied {f : List Byte → State → Answer} (h : Heard s m c n) (hst : st ≠ St.ok)
    (hf : f ((s.mailbox m).params ps) s = deny st s) : s.message m c n ps f = s.replyTo m st 0 [] := by
  have hno : (st == St.ok) = false := beq_false_of_ne hst
  rw [State.message_of h, hf]
  simp [deny, hno]

theorem State.unlessHandover_of (hh : s.handingOver = false) (f : State → Answer) : s.unlessHandover f = f s := if_neg (by simp [hh])

/-- Outside a hand-over a message that a hand-over would refuse replies what its meaning answers (R411). -/
theorem State.settledMessage_of_ok {f : List Byte → State → Answer} (hh : s.handingOver = false) (h : Heard s m c n)
    (hf : f ((s.mailbox m).params ps) s = (St.ok, b, t)) :
    s.message m c n ps (fun p s => s.unlessHandover (f p)) = t.replyTo m St.ok b.length b :=
  State.message_of_ok h ((State.unlessHandover_of hh _).trans hf)

theorem State.settledMessage_of_denied {f : List Byte → State → Answer} (hh : s.handingOver = false) (h : Heard s m c n) (hst : st ≠ St.ok)
    (hf : f ((s.mailbox m).params ps) s = deny st s) :
    s.message m c n ps (fun p s => s.unlessHandover (f p)) = s.replyTo m st 0 [] :=
  State.message_of_denied h hst ((State.unlessHandover_of hh _).trans hf)

/-- A message that draws from the Curator's generator once its checks have passed is served where the generator is, and fails with
ENTROPY_UNAVAILABLE where it is not (R367, log entry 125). -/
theorem State.drawingMessage_of {f : List Byte → State → Answer} (hh : s.handingOver = false) (h : Heard s m c n)
    (hf : f ((s.mailbox m).params ps) s = if !s.drbgOk .curator then deny St.entropyUnavailable s else (St.ok, b, t)) :
    (s.drbgOk .curator = true →
      (.next (s.message m c n ps fun p s => s.unlessHandover (f p)) : Res) = .next (t.replyTo m St.ok b.length b)) ∧
    (s.drbgOk .curator = false →
      (.next (s.message m c n ps fun p s => s.unlessHandover (f p)) : Res) = .next (s.replyTo m St.entropyUnavailable 0 [])) :=
  ⟨fun hg => next_congr (State.settledMessage_of_ok hh h (hf.trans (if_neg (by simp [hg])))),
    fun hg => next_congr (State.settledMessage_of_denied hh h (by decide) (hf.trans (if_pos (by simp [hg]))))⟩

/-- In OWNED the act uses up the nonce of its quorum; in any other state it needs none (R411). -/
theorem State.ownedQuorum_of_owned {action : Nat} {f : State → Answer} (hl : s.boot.lifecycle = .owned)
    (hq : s.authValid s.boot.custodians s.boot.threshold action (p.take n) (p.drop (up8 n)) = true) (hf : f s = (St.ok, b, t)) :
    s.ownedQuorum action n p f = (St.ok, b, t.useNonce (p.drop (up8 n))) :=
  (if_pos (by simp [hl])).trans (State.withQuorum_of_valid hq hf)

theorem State.ownedQuorum_of_not_owned (hl : s.boot.lifecycle ≠ .owned) (action n : Nat) (p : List Byte) (f : State → Answer) :
    s.ownedQuorum action n p f = f s := if_neg (by simp [hl])

end Answers

/-! ### Another state of the lifecycle (R410, log entry 73) -/

section Refused
variable {s : State} {m : Sender} {ps : List Byte}

theorem execTakeOwnership_of_not_provisioned (hh : s.handingOver = false) (hl : s.boot.lifecycle ≠ .provisioned)
    (h : Heard s m 0x04 (4 + Config.primNat .csr [s.serialBytes] % 65536)) :
    execTakeOwnership m ps s = .next (s.replyTo m St.policyDenied 0 []) :=
  next_congr (State.settledMessage_of_denied hh h (by decide) (if_pos (by simp [hl])))

theorem execDecommission_of_not_owned (hh : s.handingOver = false) (hl : s.boot.lifecycle ≠ .owned) (h : Heard s m 0x06 0) :
    execDecommission m ps s = .next (s.replyTo m St.policyDenied 0 []) :=
  next_congr (State.settledMessage_of_denied hh h (by decide) (if_pos (by simp [hl])))

theorem execTransfer_of_not_decommissioned (hh : s.handingOver = false) (hl : s.boot.lifecycle ≠ .decommissioned) (h : Heard s m 0x07 0) :
    execTransfer m ps s = .next (s.replyTo m St.policyDenied 0 []) :=
  next_congr (State.settledMessage_of_denied hh h (by decide) (if_pos (by simp [hl])))

theorem execProvision_of_not_manufacture (hh : s.handingOver = false) (hl : s.boot.lifecycle ≠ .manufacture) (h : Heard s m 0x0F 0) :
    execProvision m ps s = .next (s.replyTo m St.policyDenied 0 []) :=
  next_congr (State.settledMessage_of_denied hh h (by decide) (if_pos (by simp [hl])))

end Refused

/-! ### The new lifecycle (R410) -/

/-- The parameters of TAKE_OWNERSHIP enrol K custodians with a threshold, sign their policy and have their quorum (R409, R410). -/
structure TakesOwnership (s : State) (p : List Byte) (l : List Custodian) (n : Nat) : Prop where
  parsed : parseCustodians (byteAt p 0) (p.drop (up8 (8 + leAt p 4 4))) = (l, n)
  two : 2 ≤ byteAt p 0
  sixteen : byteAt p 0 ≤ 16
  quorum : 2 ≤ byteAt p 1
  within : byteAt p 1 ≤ byteAt p 0
  slot : byteAt p 2 ≤ 1
  zero : byteAt p 3 = 0
  algs : (l.any fun x => !(x.alg = 1 || x.alg = 2)) = false
  auth : s.authValid l (byteAt p 1) 0x01 (p.take (up8 (8 + leAt p 4 4) + n)) (p.drop (up8 (up8 (8 + leAt p 4 4) + n))) = true
  policy : s.imageReason l (byteAt p 1) 3 (byteAt p 2) = 0

section Moves
variable {s : State} {m : Sender} {ps p : List Byte}

/-- A new owner: sealing key, journal, custodians and roots are new, the policy runs, and the certificates of its keys are issued for them. -/
def State.takeOwnership (s : State) (p : List Byte) (l : List Custodian) (n : Nat) : State :=
  let t := ((s.useNonce (p.drop (up8 (up8 (8 + leAt p 4 4) + n)))).drawSsk).freshJournal
  let t := t.setBoot { t.boot with lifecycle := .owned, custodians := l, threshold := byteAt p 1, ownerRoots := slice p 8 (leAt p 4 4) }
  (t.runPolicy (byteAt p 2)).issueAlias

theorem execTakeOwnership_of_provisioned {l : List Custodian} {n csr : Nat} {t : State} {b : List Byte}
    (hp : p = (s.mailbox m).params ps) (hh : s.handingOver = false)
    (hc : csr = Config.primNat .csr [s.serialBytes] % 65536) (h : Heard s m 0x04 (4 + csr))
    (hl : s.boot.lifecycle = .provisioned) (ht : TakesOwnership s p l n) (hg : s.drbgOk .curator = true)
    (hs : t = s.takeOwnership p l n)
    (hb : b = leBytes 4 csr ++ Config.prim .csr [t.serialBytes, leBytes 32 (t.boot.ssk.getD 0)] csr) :
    execTakeOwnership m ps s = .next (t.replyTo m St.ok b.length b) := by
  subst hp hc hs hb
  refine next_congr (State.settledMessage_of_ok hh h ?_)
  obtain ⟨parsed, two, sixteen, quorum, within, slot, zero, algs, auth, policy⟩ := ht
  dsimp only
  rw [parsed]
  rw [if_neg (by simp [hl]), if_neg (by rw [algs]; simp [two, sixteen, quorum, within, slot, zero]), if_neg (by simp [auth]),
    if_neg (by simp [policy]), if_neg (by simp [hg])]
  rfl

end Moves

/-- Settles O33: each message passes the checks that stand before its effect, or is stopped by the first of them, the state of the lifecycle. -/
theorem lifecycleMessages : Obligations.LifecycleMessages := by
  rintro m ps _ s rfl hh
  refine ⟨?decommission, ?transfer, ?provision, ?scrap, ?scrapOwned, ?refused, ?takeOwnership⟩
  case decommission =>
    intro h hl hs hq
    exact next_congr (State.settledMessage_of_ok hh h
      ((if_neg (by simp [hl])).trans ((if_neg (by simp [hs])).trans (State.withQuorum_of_valid hq rfl))))
  case transfer =>
    intro h hl hf hn hk
    exact State.drawingMessage_of hh h ((if_neg (by simp [hl])).trans ((if_neg (by simp [hf])).trans
      ((if_neg (by omega)).trans (if_neg (by simp [hk])))))
  case provision =>
    intro h hl hf hlen hk hroom
    exact State.drawingMessage_of hh h ((if_neg (by simp [hl])).trans ((if_neg (by simp [hf, hlen])).trans
      ((if_neg (by simp [hk])).trans (if_neg (by omega)))))
  case scrap =>
    intro h hl ho hs
    exact next_congr (State.settledMessage_of_ok hh h ((if_neg (by simp [hl])).trans ((if_neg (by simp [hs])).trans
      (State.ownedQuorum_of_not_owned ho _ _ _ _))))
  case scrapOwned =>
    intro h ho hs hq
    exact next_congr (State.settledMessage_of_ok hh h ((if_neg (by simp [ho])).trans ((if_neg (by simp [hs])).trans
      (State.ownedQuorum_of_owned ho hq rfl))))
  case refused =>
    simp only [List.forall_mem_cons]
    refine ⟨?_, ?_, ?_, ?_, List.forall_mem_nil _⟩
    · exact fun h hl => execTakeOwnership_of_not_provisioned hh hl h
    · exact fun h hl => execDecommission_of_not_owned hh hl h
    · exact fun h hl => execTransfer_of_not_decommissioned hh hl h
    · exact fun h hl => execProvision_of_not_manufacture hh hl h
  case takeOwnership =>
    rintro _ l n h hl rfl parsed two sixteen quorum within slot zero algs auth policy hg
    have taken : TakesOwnership s ((s.mailbox m).params ps) l n :=
      ⟨parsed, two, sixteen, quorum, within, slot, zero, algs, auth, policy⟩
    exact execTakeOwnership_of_provisioned rfl hh rfl h hl taken hg rfl rfl

end Sys2Proof.Machine
end

section
/-! SUPPORT. The messages of identity, nonces and authority (R409, R413, R415) and of the debug levels (R412, R416). -/

namespace Sys2Proof.Machine

/-! ### Expiries (R409) -/

section Expiries
variable {s : State} {k : Nat}

theorem execNonceExpiry_of_old {x : Nonce} (hx : s.boot.nonces[k]? = some x) (ht : x.at_ + nonceNs ≤ s.now) :
    execNonceExpiry k s = .next (s.setBoot { s.boot with nonces := s.boot.nonces.eraseIdx k }) := by
  simp [execNonceExpiry, hx, Nat.not_lt.mpr ht]

theorem execQuorumAuthorisationExpiry_of_past {x : Authorisation} (hx : s.boot.auths[k]? = some x) (ht : x.until_ < s.rtcSec) :
    execQuorumAuthorisationExpiry k s = .next (s.setBoot { s.boot with auths := s.boot.auths.eraseIdx k }) := by
  simp [execQuorumAuthorisationExpiry, hx, Nat.not_le.mpr ht]

end Expiries

/-- Settles O34: an expiry by its time, and each message by its checks in their order, up to the answer of its meaning. -/
theorem identityNoncesAndDebugMessages : Obligations.IdentityNoncesAndDebugMessages := by
  rintro m ps _ k s rfl
  refine ⟨?identity, ?nonce, ?nonceExpiry, ?authExpiry, ?submit, ?install, ?challenge, ?vendor, ?owner, ?lock⟩
  case identity =>
    intro h hl
    have whole : (s.boot.lifecycle == Lifecycle.scrapped) = false := beq_false_of_ne hl
    exact next_congr (State.message_of_ok h (by simp only [whole]; rfl))
  case nonce => exact fun h => next_congr (State.message_of_ok h rfl)
  case nonceExpiry => exact fun x => execNonceExpiry_of_old
  case authExpiry => exact fun x => execQuorumAuthorisationExpiry_of_past
  case submit =>
    rintro _ _ _ h rfl rfl rfl ha hq
    exact next_congr (State.message_of_ok h ((if_neg (by simpa [or_iff_not_imp_left] using ha)).trans (State.withQuorum_of_valid hq rfl)))
  case install =>
    intro h hl h1 hz hlen hc hroom
    exact next_congr (State.message_of_ok h ((if_neg (by simp [hl])).trans ((if_neg (by simp [h1, hz, hlen])).trans
      ((if_neg (by simp [hc])).trans (if_neg (by omega))))))
  case challenge =>
    intro h hv
    exact next_congr (State.message_of_ok h (if_neg (by simpa [or_iff_not_imp_left] using hv)))
  case vendor =>
    intro h hz h1 hl hk
    exact next_congr (State.message_of_ok h ((if_neg (by simp [hz])).trans ((if_pos (by simpa [h1] using hl)).trans (if_pos hk))))
  case owner =>
    intro h hz h2 hl h0 hq
    exact next_congr (State.message_of_ok h ((if_neg (by simp [hz])).trans ((if_neg (by simp [h2])).trans
      ((if_pos (by simp [h2, hl])).trans ((if_neg (by simp [h0])).trans (State.withQuorum_of_valid hq rfl))))))
  case lock => exact fun h => next_congr (State.message_of_ok h rfl)

end Sys2Proof.Machine
end

section
/-! SUPPORT. The messages of floors, flash and slots (R404, R405, R408). -/

namespace Sys2Proof.Machine

/-! ### FLASH_WRITE (R405) -/

/-- The parameters of FLASH_WRITE name whole sectors of the flash that may be written, and hold their bytes. -/
structure WritesFlash (s : State) (p : List Byte) : Prop where
  start : leAt p 0 4 % 4096 = 0
  length : leAt p 4 4 % 4096 = 0
  zeros : allZero (slice p 8 8) = true
  data : 16 + leAt p 4 4 ≤ p.length
  inside : leAt p 0 4 + leAt p 4 4 ≤ s.flashTop
  writable : ((List.range (leAt p 4 4 / 4096)).all fun k => s.writable (leAt p 0 4 + 4096 * k)) = true

section Flash
variable {s : State} {m : Sender} {ps p : List Byte}

/-- The checks passed, only bytes of the certificate store stand under a quorum. -/
theorem execFlashWrite_of_writable {t : State} (hp : p = (s.mailbox m).params ps) (h : Heard s m 0x0A 0) (hw : WritesFlash s p)
    (hq : (if leAt p 4 4 != 0 && leAt p 0 4 < 0x02190000 && 0x02090000 < leAt p 0 4 + leAt p 4 4 then
        s.ownedQuorum 0x07 (16 + leAt p 4 4) p fun s => (St.ok, [], s.flashWrite (leAt p 0 4) (slice p 16 (leAt p 4 4)))
      else (St.ok, [], s.flashWrite (leAt p 0 4) (slice p 16 (leAt p 4 4)))) = (St.ok, [], t)) :
    execFlashWrite m ps s = .next (t.replyTo m St.ok 0 []) := by
  obtain ⟨start, length, zeros, data, inside, writable⟩ := hw
  subst hp
  exact next_congr (State.message_of_ok h ((if_neg (by simp [start, length, zeros, data])).trans
    ((if_neg (by rw [writable]; simp [inside])).trans hq)))

theorem execFlashWrite_outside_store (hp : p = (s.mailbox m).params ps) (h : Heard s m 0x0A 0) (hw : WritesFlash s p)
    (ho : leAt p 4 4 = 0 ∨ 0x02190000 ≤ leAt p 0 4 ∨ leAt p 0 4 + leAt p 4 4 ≤ 0x02090000) :
    execFlashWrite m ps s = .next ((s.flashWrite (leAt p 0 4) (slice p 16 (leAt p 4 4))).replyTo m St.ok 0 []) :=
  execFlashWrite_of_writable hp h hw (if_neg (by simp; omega))

theorem execFlashWrite_in_owned_store (hp : p = (s.mailbox m).params ps) (h : Heard s m 0x0A 0) (hw : WritesFlash s p)
    (hn : leAt p 4 4 ≠ 0) (hlo : leAt p 0 4 < 0x02190000) (hhi : 0x02090000 < leAt p 0 4 + leAt p 4 4) (hl : s.boot.lifecycle = .owned)
    (hq : s.authValid s.boot.custodians s.boot.threshold 0x07 (p.take (16 + leAt p 4 4)) (p.drop (up8 (16 + leAt p 4 4))) = true) :
    execFlashWrite m ps s =
      .next (((s.flashWrite (leAt p 0 4) (slice p 16 (leAt p 4 4))).useNonce (p.drop (up8 (16 + leAt p 4 4)))).replyTo m St.ok 0 []) :=
  execFlashWrite_of_writable hp h hw ((if_pos (by simp [hn, hlo, hhi])).trans (State.ownedQuorum_of_owned hl hq rfl))

end Flash

/-- Settles O35: a floor by the range of its version, a write by whether it touches the certificate store, a preference by its type. -/
theorem flashAndSlotMessages : Obligations.FlashAndSlotMessages := by
  rintro m ps p s hp
  refine ⟨?raise, ?below, ?write, ?owned, ?prefer, ?preferFirmware⟩
  case raise =>
    subst hp
    intro h hh ht hz hlo hhi hl hq
    exact next_congr (State.settledMessage_of_ok hh h ((if_neg (by simp [ht, hz])).trans ((if_neg (by simpa using ⟨hlo, hhi⟩)).trans
      (State.ownedQuorum_of_owned hl hq rfl))))
  case below =>
    subst hp
    intro h hh ht hz hlo
    exact next_congr (State.settledMessage_of_denied hh h (by decide) ((if_neg (by simp [ht, hz])).trans (if_pos (by rw [decide_eq_true hlo]; rfl))))
  case write =>
    intro h ha hn hz hlen hin hw ho
    exact execFlashWrite_outside_store hp h ⟨ha, hn, hz, hlen, hin, hw⟩ ho
  case owned =>
    intro h ha hn hz hlen hin hw
    exact execFlashWrite_in_owned_store hp h ⟨ha, hn, hz, hlen, hin, hw⟩
  case prefer =>
    subst hp
    intro h hh h1 h3 hk
    exact next_congr (State.settledMessage_of_ok hh h ((if_neg (by simp [h3, hk])).trans (if_pos (by simp; omega))))
  case preferFirmware =>
    subst hp
    intro h hh h0 h1 hi hr
    refine next_congr (State.settledMessage_of_ok hh h ?_)
    dsimp only
    rw [h0, h1, if_neg (by decide), if_neg (by decide), if_neg (by simp [hi]), if_neg (by simp [hr])]

end Sys2Proof.Machine
end

section
/-! SUPPORT. Boot takes each image in its turn (R402, R406). -/

namespace Sys2Proof.Machine

section Images
variable {s : State}

/-- The firmware's turn comes first, once the link keys are drawn and the ledger stands. -/
theorem execBootImageAccept_firmware (hb : s.boot.inReset = false) (h0 : s.boot.stage = 0) (hk : s.cont.linkKeys = true)
    (hl : s.ledger.ready = true) : execBootImageAccept 0 s = .next s.bootFirmware :=
  next_congr ((if_neg (by simp [hb])).trans ((if_pos rfl).trans (if_neg (by simp [h0, hk, hl]))))

/-- Outside TAMPER_HOLD a later image whose turn it is is taken. -/
theorem execBootImageAccept_of_turn {k : Nat} (hb : s.boot.inReset = false) (hh : s.tamper.hold = false) (hs : s.boot.stage = k)
    (h0 : k ≠ 0) (h3 : k ≤ 3) :
    execBootImageAccept k s =
      .next (if k = 1 then (s.bootImage 1).bootStage 2
        else if k = 2 then ((s.bootImage 2).bootStage 3).setRunning (!((s.bootImage 2).bootStage 3).boot.wingsOut)
        else s.bootPolicy.endBoot) :=
  next_congr ((if_neg (by simp [hb])).trans ((if_neg h0).trans (if_neg (by simp [hh, hs, h3]))))

end Images

/-- Settles O39: the pin by its two edges, and each image by the stage whose turn it is. -/
theorem bootRunsItsImages : Obligations.BootRunsItsImages := by
  intro v s
  refine ⟨?assert, ?release, ?firmware, ?bank, ?wing, ?policy⟩
  case assert => exact rfl
  case release => exact fun hb => next_congr (if_neg (by simp [hb]))
  case firmware => exact execBootImageAccept_firmware
  case bank => exact fun hb hh hs => execBootImageAccept_of_turn hb hh hs (by decide) (by decide)
  case wing => exact fun hb hh hs => execBootImageAccept_of_turn hb hh hs (by decide) (by decide)
  case policy => exact fun hb hh hs => execBootImageAccept_of_turn hb hh hs (by decide) (by decide)

end Sys2Proof.Machine
end

section
/-! SUPPORT. The Docents' queues (R481 to R483) and access units (R487 to R491): what a core that runs may do, by the queue's enable and
the unit's master. -/

namespace Sys2Proof.Machine

/-! ### CSRs of a queue (R483) -/

section Csrs
variable {s : State} {w : Wing} {c q : Nat} {user : Bool} {t : BitVec 16}

/-- A tail write of a core that runs. -/
theorem execDocentSqTailWrite_of_up (hc : c < 8) (hu : s.coreUp w c = true) :
    execDocentSqTailWrite w c q user t s =
      .next (if !s.csrAllowed w c q user then s.emit (.illegalCsr w c)
        else if (s.docQueue w c q).tailRefused (s.inFlight (.docent w c q)) t.toNat then s.setCsr w c St.queueFull.toNat
        else s.dqTail w c q t.toNat) :=
  next_congr (if_neg (by simp [coreOk, hc, hu]))

theorem execDocentSqTailWrite_of_down (hu : s.coreUp w c = false) : execDocentSqTailWrite w c q user t s = .next s :=
  next_congr (if_pos (by simp [hu]))

theorem execDocentCqHeadWrite_of_down (hu : s.coreUp w c = false) : execDocentCqHeadWrite w c q user t s = .next s :=
  next_congr (if_pos (by simp [hu]))

theorem execDocentCqHeadWrite_of_refused (hc : c < 8) (hu : s.coreUp w c = true) (ha : s.csrAllowed w c q user = false) :
    execDocentCqHeadWrite w c q user t s = .next (s.emit (.illegalCsr w c)) :=
  next_congr ((if_neg (by simp [coreOk, hc, hu])).trans (if_pos (by simp [ha])))

/-- A head within the records written is taken. -/
theorem execDocentCqHeadWrite_within (hc : c < 8) (hu : s.coreUp w c = true) (ha : s.csrAllowed w c q user = true)
    (ht : t.toNat < (s.docQueue w c q).depth)
    (hn : ringCount (s.docQueue w c q).depth (s.docQueue w c q).q.cqHead t.toNat ≤
      ringCount (s.docQueue w c q).depth (s.docQueue w c q).q.cqHead (s.docQueue w c q).q.cqTail) :
    execDocentCqHeadWrite w c q user t s =
      .next (s.setDocQueue w c q { s.docQueue w c q with q := { (s.docQueue w c q).q with cqHead := t.toNat } }) :=
  next_congr ((if_neg (by simp [coreOk, hc, hu])).trans ((if_neg (by simp [ha])).trans (if_neg (by simp [ht, hn]))))

end Csrs

/-! ### Registers of a queue (R481, R482) -/

section Registers
variable {s : State} {w : Wing} {c q off : Nat} {v : Word32}

theorem execDqCtrlWrite_of_up (hc : c < 8) (hq : q < 16) (hu : s.coreUp w c = true) :
    execDqCtrlWrite w c q off v s = .next (s.dqWrite w c q off v) :=
  next_congr (if_neg (by simp [coreOk, hc, hq, hu]))

theorem State.dqWrite_base (hd : (s.docQueue w c q).on = false) :
    s.dqWrite w c q 0 v = s.setDocQueue w c q { s.docQueue w c q with sqLo := v &&& 0xFFFFFFC0 } := if_neg (by simp [hd])

theorem State.dqWrite_enable (hd : (s.docQueue w c q).on = false) (hv : bit32 v 0 = true) :
    s.dqWrite w c q 0x10 v =
      if s.dqEnableOk w c v then s.setDocQueue w c q { s.docQueue w c q with ctrl := v &&& 0x07FFFFFF, q := {} }
      else (s.setDocQueue w c q { s.docQueue w c q with ctrl := v &&& 0x07FFFFFF &&& 0x07FFFFFE }).log 7 St.accessDenied
        (dieSrc (wingDie w)) [byte c, byte q] :=
  (if_neg (by simp [hd])).trans (if_neg (by simp [hv]))

/-- Clearing enable takes the queue out of service with the records held for it (log entry 86). -/
theorem State.dqWrite_disable (hd : (s.docQueue w c q).on = true) (hv : bit32 v 0 = false) :
    s.dqWrite w c q 0x10 v =
      (s.loseDocRecords fun x => x == .docent w c q).setDocQueue w c q
        { s.docQueue w c q with ctrl := (s.docQueue w c q).ctrl &&& 0xFFFFFFFE, q := {} } :=
  (if_pos hd).trans (if_pos (by simp [hv]))

end Registers

/-! ### Access units (R487 to R491) -/

section Units
variable {s : State} {w : Wing} {n c off : Nat} {v : Word32}

theorem State.masterUp_of_core (hn : n < 8) (hu : s.coreUp w n = true) : s.masterUp w n = true :=
  (if_neg (by omega)).trans ((if_pos hn).trans hu)

theorem mayWriteUnit_own (hn : n < 8) : mayWriteUnit n n = true := by simp [mayWriteUnit, hn]

/-- A slot that is not locked takes its word from a master that may write it. -/
theorem State.auRegWrite_slot {m : Nat} (ho : off < 8) (hl : bit32 ((s.au w n).slots.getD off 0) 31 = false) :
    s.auRegWrite w m n (4 * off) v =
      s.setAu w n { s.au w n with slots := setAt (s.au w n).slots off (v &&& 0x80000007) } := by
  have hk : 4 * off / 4 = off := by omega
  refine (if_neg (by simp)).trans ((if_pos (by omega)).trans ?_)
  dsimp only
  rw [hk, if_neg (by simp only [hl, Bool.false_eq_true, not_false_eq_true])]

theorem execAuRegisterWrite_own_slot (hn : n < 8) (ho : off < 8) (hu : s.coreUp w n = true)
    (hl : bit32 ((s.au w n).slots.getD off 0) 31 = false) :
    execAuRegisterWrite w n n (4 * off) v s =
      .next (s.setAu w n { s.au w n with slots := setAt (s.au w n).slots off (v &&& 0x80000007) }) :=
  next_congr ((if_neg (by simp [State.masterUp_of_core hn hu]; omega)).trans ((if_neg (by simp [mayWriteUnit_own hn])).trans
    (State.auRegWrite_slot ho hl)))

theorem execAuRegisterWrite_foreign (hn : n < 8) (hc : c < 10) (ho : off < 0x1000) (hu : s.coreUp w n = true)
    (hm : mayWriteUnit n c = false) :
    execAuRegisterWrite w n c off v s = .next (s.violation w n 3 1 false 31 (0x11000000 + 0x1000 * c + off)) :=
  next_congr ((if_neg (by simp [State.masterUp_of_core hn hu]; omega)).trans (if_pos (by simp [hm])))

theorem State.vinfoClear_of_set (hv : bit32 v 0 = true) :
    s.vinfoClear w n v = s.setAu w n { s.au w n with vinfo := (s.au w n).vinfo &&& 0xFFFFFFFE } := if_pos hv

theorem execAuVinfoClear_of_up (hn : n ≤ 8) (hu : s.docentUp w = true) : execAuVinfoClear w n v s = .next (s.vinfoClear w n v) :=
  next_congr (if_neg (by simp [hn, hu]))

/-- The count is answered and cleared. -/
theorem execAuVcountRead_of_up (hn : n ≤ 8) (hu : s.masterUp w n = true) :
    execAuVcountRead w n s =
      .next ((s.setAu w n { s.au w n with vcount := 0 }).emit (.access w n false (leBytes 4 (w32 (s.au w n).vcount).toNat))) :=
  next_congr (if_neg (by simp [hu]; omega))

theorem execEvlogVinfoClear_of_manages {f : Fn} (hn : n < 20) (h : Manages s f (0x120100 + 16 * n)) :
    execEvlogVinfoClear f n v s = .next (s.vinfoClear (if n < 10 then .west else .east) (n % 10) v) :=
  next_congr ((if_neg (by omega)).trans (State.mgmtWrite_of h _))

end Units

/-- Settles O48: a CSR by what the queue allows, a queue register by the queue's enable, a unit's register by its master. -/
theorem docentQueuesAndUnitsOperate : Obligations.DocentQueuesAndUnitsOperate := by
  intro w c q n off user t v f i s
  refine ⟨?tail, ?full, ?illegal, ?head, ?offQueue, ?disable, ?down, ?slot, ?foreign, ?vinfo, ?vcount, ?mirror, ?cluster, ?jtag⟩
  case tail =>
    intro hc hu ha ht
    exact (execDocentSqTailWrite_of_up hc hu).trans (next_congr ((if_neg (by simp [ha])).trans (if_neg (by simp [ht]))))
  case full =>
    intro hc hu ha ht
    exact (execDocentSqTailWrite_of_up hc hu).trans (next_congr ((if_neg (by simp [ha])).trans (if_pos ht)))
  case illegal =>
    intro hc hu ha
    exact ⟨(execDocentSqTailWrite_of_up hc hu).trans (next_congr (if_pos (by simp [ha]))), execDocentCqHeadWrite_of_refused hc hu ha⟩
  case head =>
    rintro _ rfl
    exact execDocentCqHeadWrite_within
  case offQueue =>
    rintro _ rfl hc hq hu hd
    have reaches (o : Nat) : exec (.dqCtrlWrite w c q o v) s = .next (s.dqWrite w c q o v) := execDqCtrlWrite_of_up hc hq hu
    refine ⟨?base, ?granted, ?notGranted⟩
    case base => exact (reaches 0).trans (next_congr (State.dqWrite_base hd))
    case granted => exact fun hv hg => (reaches 0x10).trans (next_congr ((State.dqWrite_enable hd hv).trans (if_pos hg)))
    case notGranted => exact fun hv hg => (reaches 0x10).trans (next_congr ((State.dqWrite_enable hd hv).trans (if_neg (by simp [hg]))))
  case disable =>
    rintro _ rfl hc hq hu hd hv
    exact (execDqCtrlWrite_of_up hc hq hu).trans (next_congr (State.dqWrite_disable hd hv))
  case down => exact fun _ hu => ⟨execDocentSqTailWrite_of_down hu, execDocentCqHeadWrite_of_down hu⟩
  case slot => exact execAuRegisterWrite_own_slot
  case foreign => exact execAuRegisterWrite_foreign
  case vinfo => exact fun hn hu hv => (execAuVinfoClear_of_up hn hu).trans (next_congr (State.vinfoClear_of_set hv))
  case vcount => exact execAuVcountRead_of_up
  case mirror => exact execEvlogVinfoClear_of_manages
  case cluster => exact fun hb => next_congr (if_neg (by simp [hb]))
  case jtag => exact rfl

end Sys2Proof.Machine
end

section
/-! SUPPORT. The tamper messages (R435 to R438) and the standing orders (R428, R429): what each answers once its checks have passed. -/

namespace Sys2Proof.Machine

section TamperMessages
variable {s u : State} {m : Sender} {ps p : List Byte}

/-! ### Quorums (R411) -/

/-- In OWNED an act without a valid authorisation replies QUORUM_REQUIRED. -/
theorem State.ownedQuorum_of_invalid {action n : Nat} (hl : s.boot.lifecycle = .owned)
    (hq : s.authValid s.boot.custodians s.boot.threshold action (p.take n) (p.drop (up8 n)) = false) (f : State → Answer) :
    s.ownedQuorum action n p f = deny St.quorumRequired s :=
  (if_pos (by simp [hl])).trans (if_pos (by simp [hq]))

/-! ### Clearance (R438) -/

/-- The parameters of TAMPER_CLEAR cover every latched class and every record, and nothing of R438 stands against the clearance. -/
structure Clears (u : State) (p : List Byte) : Prop where
  classes : (u.tamper.latch.toNat &&& (leAt p 0 4 % 2 ^ 16)) = u.tamper.latch.toNat
  records : u.tamper.evSeq ≤ leAt p 4 4
  ended : (u.tamper.live.toNat &&& (leAt p 0 4 % 2 ^ 16)) = 0
  keys : u.tamper.erased = false
  applied : u.tamper.trips = []
  curator : u.tamper.lostFreeze = false

/-- A clearance that nothing stands against answers what its quorum leaves of it. -/
theorem execTamperClear_of_clears {t : State} (hp : p = (s.mailbox m).params ps) (hu : u = s.conditionsEnd) (h : Heard s m 0x20 0)
    (hc : Clears u p) (hq : (u.ownedQuorum 0x20 8 p fun s => (St.ok, [], s.clearTamper)) = (St.ok, [], t)) :
    execTamperClear m ps s = .next (t.replyTo m St.ok 0 []) := by
  subst hp hu
  obtain ⟨classes, records, ended, keys, applied, curator⟩ := hc
  exact next_congr (State.message_of_ok h ((if_neg (by simp [-Nat.reducePow, classes, records, ended, keys, applied, curator])).trans hq))

/-! ### Standing orders (R428, R429) -/

theorem execOrderInstall_of_not_owned (hp : p = (s.mailbox m).params ps) (h : Heard s m 0x21 0) (ho : orderOk p = true)
    (hl : s.boot.lifecycle ≠ .owned) : execOrderInstall m ps s = .next (s.replyTo m St.policyDenied 0 []) := by
  subst hp
  exact next_congr (State.message_of_denied h (by decide) ((if_neg (by simp [ho])).trans (if_pos (by simp [hl]))))

/-- A newer order on an OWNED part is installed with its quorum. -/
theorem execOrderInstall_of_newer {n : Nat} (hn : n = 64 + leAt p 16 4) (hp : p = (s.mailbox m).params ps) (h : Heard s m 0x21 0)
    (ho : orderOk p = true) (hl : s.boot.lifecycle = .owned) (hs : s.orderSeq (byteAt p 6) < leAt p 8 4)
    (ha : byteAt p 6 = 1 → actionsOk p = true)
    (hq : s.authValid s.boot.custodians s.boot.threshold 0x21 (p.take n) (p.drop (up8 n)) = true) :
    execOrderInstall m ps s = .next (((s.installOrder (p.take n)).useNonce (p.drop (up8 n))).replyTo m St.ok 0 []) := by
  subst hn hp
  exact next_congr (State.message_of_ok h ((if_neg (by simp [ho])).trans ((if_neg (by simpa [hl, hs] using ha)).trans
    (State.withQuorum_of_valid hq rfl))))

/-- ORDER_READ of either kind replies the order's bytes, whose number its buffer has room for. -/
theorem execOrderRead_of_kind {k : Nat} (hp : p = (s.mailbox m).params ps) (hk : byteAt p 0 = k) (ho : k = 1 ∨ k = 2)
    (h : Heard s m 0x23 (if k = 1 then 96 else if k = 2 then 80 else 0)) :
    execOrderRead m ps s = .next (s.replyTo m St.ok (s.orderBytes k).length (s.orderBytes k)) := by
  subst hp hk
  exact next_congr (State.message_of_ok h (if_pos (by simpa using ho)))

theorem execStandingOrderEffective_tamper {at_ : Nat} {o : TamperOrder} (ho : s.tamper.heldOrder = some (at_, o)) (ht : at_ ≤ s.rtcSec) :
    execStandingOrderEffective 1 s = .next { s with tamper := s.tamper.putOrder o } := by
  simp [execStandingOrderEffective, ho, ht]

theorem execStandingOrderEffective_spares {at_ : Nat} {o : SparesOrder} (ho : s.tamper.heldSpares = some (at_, o)) (ht : at_ ≤ s.rtcSec) :
    execStandingOrderEffective 2 s = .next { s with tamper := { s.tamper with spares := o, heldSpares := none } } := by
  simp [execStandingOrderEffective, ho, ht]

/-! ### ERASE (R435) -/

/-- Where the order lets the host erase, or outside OWNED, ERASE needs no quorum. -/
theorem execErase_without_quorum (h : Heard s m 0x22 0) (hf : s.tamper.order.hostErase = true ∨ s.boot.lifecycle ≠ .owned) :
    execErase m ps s = .next ((s.freeze .curatorDie).eraseKeys.replyTo m St.ok 0 []) := by
  refine next_congr (State.message_of_ok h ?_)
  cases hh : s.tamper.order.hostErase
  case true => exact if_pos rfl
  case false => exact (if_neg (by simp)).trans (State.ownedQuorum_of_not_owned (hf.resolve_left (by simp [hh])) _ _ _ _)

theorem execErase_with_quorum (hp : p = (s.mailbox m).params ps) (h : Heard s m 0x22 0) (hh : s.tamper.order.hostErase = false)
    (hl : s.boot.lifecycle = .owned)
    (hq : s.authValid s.boot.custodians s.boot.threshold 0x22 (p.take 0) (p.drop (up8 0)) = true) :
    execErase m ps s = .next (((s.freeze .curatorDie).eraseKeys.useNonce (p.drop (up8 0))).replyTo m St.ok 0 []) := by
  subst hp
  exact next_congr (State.message_of_ok h ((if_neg (by simp [hh])).trans (State.ownedQuorum_of_owned hl hq rfl)))

theorem execErase_of_no_quorum (hp : p = (s.mailbox m).params ps) (h : Heard s m 0x22 0) (hh : s.tamper.order.hostErase = false)
    (hl : s.boot.lifecycle = .owned)
    (hq : s.authValid s.boot.custodians s.boot.threshold 0x22 (p.take 0) (p.drop (up8 0)) = false) :
    execErase m ps s = .next (s.replyTo m St.quorumRequired 0 []) := by
  subst hp
  exact next_congr (State.message_of_denied h (by decide) ((if_neg (by simp [hh])).trans (State.ownedQuorum_of_invalid hl hq _)))

end TamperMessages

/-- Settles O41: each message passes the checks that stand before its effect, and a held order's time has come. -/
theorem standingOrdersAndTamperMessages : Obligations.StandingOrdersAndTamperMessages := by
  intro m ps p s hp
  refine ⟨?clear, ?install, ?readTamper, ?readSpares, ?hostErase, ?erase, ?heldOrder, ?heldSpares⟩
  case clear =>
    intro u hu h classes records ended keys applied curator
    have clears : Clears u p := ⟨classes, records, ended, keys, applied, curator⟩
    exact ⟨fun hl => execTamperClear_of_clears hp hu h clears (State.ownedQuorum_of_not_owned hl _ _ _ _),
      fun hl hq => execTamperClear_of_clears hp hu h clears (State.ownedQuorum_of_owned hl hq rfl)⟩
  case install =>
    intro n hn h ho
    exact ⟨execOrderInstall_of_not_owned hp h ho, execOrderInstall_of_newer hn hp h ho⟩
  case readTamper => exact fun h hk => execOrderRead_of_kind hp hk (.inl rfl) h
  case readSpares => exact fun h hk => execOrderRead_of_kind hp hk (.inr rfl) h
  case hostErase => exact fun h hh => execErase_without_quorum h (.inl hh)
  case erase => exact execErase_with_quorum hp
  case heldOrder => exact fun t o => execStandingOrderEffective_tamper
  case heldSpares => exact fun t o => execStandingOrderEffective_spares

end Sys2Proof.Machine
end

section
/-! SUPPORT. Trips, freezes and what follows them (R418 to R423, R433, R434), and what BBRAM keeps (R425): each step by what it finds. -/

namespace Sys2Proof.Machine

/-! ### VBAT (R425) -/

section Battery
variable {s : State} {mv : Nat}

theorem execVbatMeasurement_kept (h : s.boot.inReset = false ∨ 2000 ≤ mv % 4096) :
    execVbatMeasurement mv s = .next { s with tamper := { s.tamper with vbat := mv % 4096 } } :=
  next_congr (if_neg (by simpa [or_iff_not_imp_left] using h))

theorem execVbatMeasurement_lost (hb : s.boot.inReset = true) (hv : mv % 4096 < 2000) :
    execVbatMeasurement mv s = .next ({ s with tamper := { s.tamper with vbat := mv % 4096 } }).loseBattery :=
  next_congr (if_pos (by simp [hb, hv]))

end Battery

/-! ### Trips (R418, R419, R429, R433) -/

section Trips
variable {s : State} {t : Trip}

/-- The code of an action in an event record (R441). -/
theorem State.actionCode_eq (s : State) (power cls : Nat) :
    s.actionCode power cls = if s.action power cls = 1 then 2 else if s.action power cls = 2 then 3 else 1 := by
  unfold State.actionCode
  generalize s.action power cls = a
  match a with
  | 0 | 1 | 2 | _ + 3 => rfl

theorem State.sensorTrip_of_unsensed (hs : s.senses t = false) : s.sensorTrip t = s := if_pos (by simp [hs])

theorem State.sensorTrip_in_off (hp : s.powerCode = 0) (hs : s.senses t = true) : s.sensorTrip t = s.offAlarm t :=
  (if_neg (by simp [hs])).trans (if_pos hp)

theorem State.sensorTrip_of_underVoltage (hp : s.powerCode ≠ 0) (hs : s.senses t = true) (hv : underVoltage t = true) :
    s.sensorTrip t = s.railDip t :=
  (if_neg (by simp [hs])).trans ((if_neg hp).trans (if_pos hv))

/-- A trip outside OFF is latched and waits for the order, and the device freezes unless the action only reports. -/
theorem State.sensorTrip_of_trip {u v : State} (hp : s.powerCode ≠ 0) (hs : s.senses t = true) (hv : underVoltage t = false)
    (hu : u = (((s.latchClass t.cls).setLive t.cls).raiseAll Cause.tamper).addTrip (s.heldTrip t))
    (hw : v = if s.powerCode = 1 then u.assertWake else u) :
    s.sensorTrip t = if s.action s.powerCode t.cls = 2 then v else v.freeze (tripDie t) := by
  subst hu hw
  exact (if_neg (by simp [hs])).trans ((if_neg hp).trans (if_neg (by simp [hv])))

theorem execTamperSensorTrip_of_up (hb : s.boot.inReset = false) : execTamperSensorTrip t s = .next (s.sensorTrip t) :=
  next_congr (if_neg (by simp [hb]))

theorem execBatteryDomainAlarm_of_low (hp : s.powerCode ≤ 1) : execBatteryDomainAlarm t s = .next (s.sensorTrip t) :=
  next_congr (if_pos hp)

/-- In OFF the battery domain records the action that its armed copy gives, and carries out an erase. -/
theorem State.offAlarm_eq (s : State) (t : Trip) :
    s.offAlarm t =
      let a := s.action 0 t.cls
      let u := ((s.latchClass t.cls).setLive t.cls).tamperRecordOf t 0 (if a = 1 then 2 else if a = 2 then 3 else 0) s.tamper.armed.seq
      if a = 1 then { u with boot := { u.boot with ssk := none }, tamper := { u.tamper with erased := true, sskErased := true, erasing := true } }
      else u := by
  unfold State.offAlarm
  generalize s.action 0 t.cls = a
  match a with
  | 0 | 1 | 2 | _ + 3 => rfl

end Trips

/-! ### The order applied and the report (R423, R434) -/

section Order
variable {s : State} {die : Die} {d : RailDip}

theorem State.freeze_of_frozen (hf : s.tamper.frozen = true) : s.freeze die = s := if_pos hf

/-- Trips, a freeze or a boot into TAMPER_HOLD wait for the order, and in TAMPER_HOLD the firmware is there to apply it. -/
theorem State.orderPending_of (hb : s.boot.inReset = false) (hw : s.tamper.trips ≠ [] ∨ s.tamper.orderDue = true)
    (hh : s.tamper.hold = false ∨ (s.boot.stage ≠ 0 ∧ s.recovery = false)) : s.orderPending = true := by
  have waits : (!s.tamper.trips.isEmpty || s.tamper.orderDue) = true := by simpa using hw
  have loaded : (s.tamper.hold && (s.boot.stage = 0 || s.recovery)) = false := by
    rcases hh with h | ⟨h, hr⟩ <;> simp [*]
  simp [State.orderPending, hb, waits, loaded]

/-- A rail whose 100 µs are over has recovered or lost its power (R419). -/
theorem execRailRecoveryExpiry_of_dip {recovered : Bool} (hb : s.boot.inReset = false)
    (hd : s.tamper.railDips.find? (fun d => d.die == die) = some d) (ht : d.at_ + 100000 ≤ s.now) :
    execRailRecoveryExpiry die recovered s =
      .next (let u := { s with tamper := { s.tamper with railDips := s.tamper.railDips.filter (·.die != die) } }
             if recovered then
               let u := ((u.latchClass 0).raiseAll Cause.tamper).addTrip d.held
               { u with tamper := { u.tamper with orderDue := u.tamper.orderDue || d.froze } }
             else
               let u := (if d.froze then { u with tamper := { u.tamper with frozen := false } } else u).deviceReset
               u.setBoot { u.boot with inReset := true }) := by
  unfold execRailRecoveryExpiry
  simp only [hd]
  exact next_congr (if_neg (by simp [hb, ht]))

end Order

/-- Settles O40: the battery by its voltage, a trip by the power state and by whether it is sensed, an under-voltage or only reported, and each
step that follows a trip by what waits for it. -/
theorem tamperFreezesAndReports : Obligations.TamperFreezesAndReports := by
  intro t die mv s
  refine ⟨?kept, ?lost, ?off, ?operating, ?standby, ?dip, ?trip, ?unsensed, ?up⟩
  case kept => exact execVbatMeasurement_kept
  case lost => exact execVbatMeasurement_lost
  case off =>
    intro hp hs
    exact (execBatteryDomainAlarm_of_low (by omega)).trans (next_congr ((State.sensorTrip_in_off hp hs).trans (State.offAlarm_eq s t)))
  case operating => exact fun hp => next_congr (if_neg (by omega))
  case standby => exact fun hp hb => (execBatteryDomainAlarm_of_low (by omega)).trans (execTamperSensorTrip_of_up hb).symm
  case dip =>
    intro hb hp hs hv
    exact (execTamperSensorTrip_of_up hb).trans (next_congr (State.sensorTrip_of_underVoltage hp hs hv))
  case trip =>
    intro hb hp hs hv u v hu hw
    have trips := (execTamperSensorTrip_of_up hb).trans (next_congr (State.sensorTrip_of_trip hp hs hv hu hw))
    exact ⟨fun ha => trips.trans (next_congr (if_pos ha)), fun ha => trips.trans (next_congr (if_neg ha))⟩
  case unsensed => exact fun hs => next_congr (by rw [State.sensorTrip_of_unsensed hs]; exact ite_self _)
  case up =>
    intro hb
    refine ⟨?wires, ?frozen, ?held, ?add, ?order, ?report, ?erased, ?rail⟩
    case wires => exact next_congr (if_neg (by simp [hb]))
    case frozen => exact State.freeze_of_frozen
    case held => rw [State.heldTrip, State.actionCode_eq]
    case add => exact fun _ => rfl
    case order =>
      rintro _ rfl hw hh
      refine next_congr ((if_neg (by simp [State.orderPending_of hb hw hh])).trans ?_)
      simp only [Bool.and_eq_true, Bool.not_eq_true']
    case report => exact fun hr => next_congr (if_neg (by simp [hr]))
    case erased => exact fun he => next_congr (if_pos (by simp [he, hb]))
    case rail => exact fun d hd ht => ⟨execRailRecoveryExpiry_of_dip hb hd ht, execRailRecoveryExpiry_of_dip hb hd ht⟩

end Sys2Proof.Machine
end

section
/-! SUPPORT. What the acts that a freeze consists of leave of the tamper block: all but the list and the number of the frozen jobs (R421 to R423). -/

namespace Sys2Proof.Machine

/-- A loop whose act leaves the tamper block leaves it. -/
theorem State.forAll_tamper {α : Type} {f : State → α → State} (hf : ∀ s x, (f s x).tamper = s.tamper) (l : List α) (s : State) :
    (s.forAll l f).tamper = s.tamper := State.forAll_same State.tamper hf l s

/-- A choice between states of one tamper block has that tamper block. -/
theorem State.ite_tamper {c : Prop} [Decidable c] {a b : State} {x : Tamper} (ha : a.tamper = x) (hb : b.tamper = x) :
    (if c then a else b).tamper = x := by
  split
  · exact ha
  · exact hb

/-! ### Output, log and causes -/

section Output
variable (s : State) (f : Fn)

@[simp] theorem State.log_tamper (c : Nat) (st : Byte) (src : Nat) (d : List Byte) : (s.log c st src d).tamper = s.tamper := rfl

@[simp] theorem State.free_tamper : s.free.2.tamper = s.tamper := rfl

@[simp] theorem State.writeHost_tamper (w : Wing) (a : Nat) (b : List Byte) : (s.writeHost w a b).tamper = s.tamper :=
  State.forAll_tamper (fun _ _ => by rfl) _ _

@[simp] theorem State.issue_tamper (w : Wing) (l : List StagedWrite) : (s.issue w l).tamper = s.tamper :=
  State.forAll_tamper (fun _ _ => State.writeHost_tamper _ _ _ _) _ _

@[simp] theorem State.sendMsix_tamper (v : Nat) : (s.sendMsix f v).tamper = s.tamper :=
  State.ite_tamper rfl (State.ite_tamper rfl rfl)

@[simp] theorem State.raiseCause_tamper (b : Nat) : (s.raiseCause b f).tamper = s.tamper :=
  State.ite_tamper rfl (State.ite_tamper (State.sendMsix_tamper _ _ _) rfl)

@[simp] theorem State.raisePort_tamper (b : Nat) (w : Wing) : (s.raisePort b w).tamper = s.tamper :=
  State.forAll_tamper (fun _ _ => State.raiseCause_tamper _ _ _) _ _

end Output

/-! ### The Storeroom -/

section Storeroom
variable (s : State) (w : Wing)

@[simp] theorem State.setRoot_tamper (n v : Nat) : (s.setRoot w n v).tamper = s.tamper := State.setStoreWing_tamper _ _ _

@[simp] theorem State.dirtyNode_tamper (l n : Nat) : (s.dirtyNode w l n).tamper = s.tamper :=
  State.ite_tamper (by simp) (by simp)

@[simp] theorem State.writeBack_tamper (l n : Nat) : (s.writeBack w l n).tamper = s.tamper :=
  State.ite_tamper (by simp) (by simp)

@[simp] theorem State.evictNode_tamper : (s.evictNode w).tamper = s.tamper := by
  unfold State.evictNode
  dsimp only
  split
  · rfl
  · refine State.ite_tamper rfl ((State.setStoreWing_tamper _ _ _).trans (State.ite_tamper ?_ rfl))
    exact State.writeBack_tamper _ _ _ _

@[simp] theorem State.cachePath_tamper (t : TileId) : (s.cachePath t).tamper = s.tamper := by
  refine (State.forAll_tamper (fun _ _ => State.evictNode_tamper _ _) _ _).trans ((State.setStoreWing_tamper _ _ _).trans ?_)
  exact State.forAll_tamper (fun _ _ => State.setNode_tamper _ _ _ _ _) _ _

@[simp] theorem State.writeTile_tamper (t : TileId) (d : List Byte) : (s.writeTile t d).tamper = s.tamper := by simp [State.writeTile]

@[simp] theorem State.moveHome_tamper (t : TileId) : (s.moveHome t).tamper = s.tamper :=
  State.ite_tamper (State.setTile_tamper _ _ _) rfl

@[simp] theorem State.putTile_tamper (t : TileId) (d : List Byte) : (s.putTile t d).tamper = s.tamper := by simp [State.putTile]

@[simp] theorem State.writeSpan_tamper (off : Nat) (b : List Byte) : (s.writeSpan w off b).tamper = s.tamper :=
  State.forAll_tamper (fun _ _ => State.putTile_tamper _ _ _) _ _

@[simp] theorem State.writeMirrored_tamper (off : Nat) (b : List Byte) : (s.writeMirrored off b).tamper = s.tamper :=
  State.forAll_tamper (fun _ _ => State.ite_tamper (State.setStoreWing_tamper _ _ _) (State.ite_tamper (State.writeSpan_tamper _ _ _ _) rfl)) _ _

@[simp] theorem State.writeCatalogue_tamper (off : Nat) (b : List Byte) : (s.writeCatalogue off b).tamper = s.tamper :=
  State.ite_tamper rfl (State.writeMirrored_tamper _ _ _)

end Storeroom

/-! ### The journal, the ledger and the catalogue -/

section Catalogue
variable (s : State) (r : CatRecord)

@[simp] theorem State.storeRecord_tamper (whole : Bool) : (s.storeRecord r whole).tamper = s.tamper :=
  State.ite_tamper (by simp) (by simp)

@[simp] theorem State.closeSeal_tamper (loss : Bool) : (s.closeSeal loss).tamper = s.tamper := State.ite_tamper rfl rfl

@[simp] theorem State.sealRoom_tamper (x : SealRecord) : (s.sealRoom x).tamper = s.tamper :=
  State.ite_tamper (State.closeSeal_tamper _ _) rfl

@[simp] theorem State.journalAdd_tamper (x : SealRecord) (d : Bool) : (s.journalAdd x d).tamper = s.tamper :=
  State.ite_tamper ((State.closeSeal_tamper _ _).trans (State.sealRoom_tamper _ _)) (State.sealRoom_tamper _ _)

@[simp] theorem State.invalidateCache_tamper (k : Nat) : (s.invalidateCache k).tamper = s.tamper := rfl

@[simp] theorem State.trimCaches_tamper : s.trimCaches.tamper = s.tamper := rfl

@[simp] theorem State.journalRecord_tamper (whole d : Bool) : (s.journalRecord r whole d).tamper = s.tamper := by simp [State.journalRecord]

@[simp] theorem State.journalState_tamper (c i : Nat) (d : Bool) : (s.journalState c i d).tamper = s.tamper := by
  unfold State.journalState
  split
  · exact State.journalRecord_tamper _ _ _ _
  · rfl

@[simp] theorem State.ledgerLog_tamper (e : LogEntry) : (s.ledgerLog e).tamper = s.tamper := rfl

@[simp] theorem State.dropGens_tamper (n : Nat) : (s.dropGens n).tamper = s.tamper := rfl

@[simp] theorem State.dropGensOn_tamper (p : Nat → Bool) : (s.dropGensOn p).tamper = s.tamper :=
  State.forAll_tamper (fun _ _ => by rfl) _ _

@[simp] theorem State.closeSlot_tamper (n : Nat) (retire : Bool) : (s.closeSlot n retire).tamper = s.tamper :=
  (State.setSlot_tamper _ _ _).trans (State.ite_tamper rfl rfl)

@[simp] theorem State.closeSlotOf_tamper (retire : Bool) : (s.closeSlotOf r retire).tamper = s.tamper := by
  unfold State.closeSlotOf
  refine State.ite_tamper rfl ?_
  split
  · exact State.closeSlot_tamper _ _ _
  · rfl

@[simp] theorem State.evict_tamper (k : Nat × Nat × Nat) : (s.evict k).tamper = s.tamper := State.forAll_tamper (fun _ _ => by rfl) _ _

@[simp] theorem State.destroyMaterial_tamper : (s.destroyMaterial r).tamper = s.tamper := State.ite_tamper rfl rfl

@[simp] theorem State.lastReturn_tamper : (s.lastReturn r).tamper = s.tamper := by simp [State.lastReturn]

@[simp] theorem State.lastReplaced_tamper (l : Loan) : (s.lastReplaced l).tamper = s.tamper := by simp [State.lastReplaced]

@[simp] theorem State.returnLoan_tamper (n : Nat) : (s.returnLoan n).tamper = s.tamper := by
  unfold State.returnLoan
  split
  · rfl
  · dsimp only
    split
    · exact State.ite_tamper (State.ite_tamper (State.lastReturn_tamper _ _) rfl) (State.ite_tamper (State.lastReplaced_tamper _ _) rfl)
    · rfl

@[simp] theorem State.releaseReservation_tamper (p : Pending) : (s.releaseReservation p).tamper = s.tamper := by
  refine State.ite_tamper rfl ?_
  split
  · rfl
  · rfl

@[simp] theorem State.checkLow_tamper (n : Nat) : (s.checkLow n).tamper = s.tamper :=
  State.ite_tamper rfl (State.forAll_tamper (fun _ _ => State.raiseCause_tamper _ _ _) _ _)

@[simp] theorem State.retireBlocks_tamper (w : Wing) : (s.retireBlocks w).tamper = s.tamper :=
  State.forAll_tamper (fun _ _ => by simp) _ _

@[simp] theorem State.abandonRestore_tamper : s.abandonRestore.tamper = s.tamper := State.ite_tamper rfl rfl

end Catalogue

/-! ### Units, jobs and pages -/

section Jobs
variable (s : State)

@[simp] theorem State.releaseGrant_tamper (g : Grant) : (s.releaseGrant g).tamper = s.tamper := by
  unfold State.releaseGrant
  dsimp only
  split
  · rfl
  · rfl

@[simp] theorem State.releaseUnits_tamper (n : Nat) (p : Resource → Bool) : (s.releaseUnits n p).tamper = s.tamper :=
  State.forAll_tamper State.releaseGrant_tamper _ _

@[simp] theorem State.discardGroup_tamper (j : Job) : (s.discardGroup j).tamper = s.tamper := by
  unfold State.discardGroup
  split
  · rfl
  · exact State.forAll_tamper State.releaseReservation_tamper _ _

@[simp] theorem State.zeroSegments_tamper (j : Job) (parts : List Scatter) (b : List Byte) (st : Byte) (l : List Nat) (z : Nat → Bool) :
    (s.zeroSegments j parts b st l z).tamper = s.tamper :=
  State.forAll_tamper (fun _ _ => State.ite_tamper (by rfl) (State.issue_tamper _ _ _)) _ _

@[simp] theorem State.releaseSegments_tamper (w : Wing) (parts : List Scatter) (b : List Byte) (n : Nat) (fails : Option Nat) :
    (s.releaseSegments w parts b n fails).tamper = s.tamper :=
  State.forAll_tamper (fun _ _ => State.issue_tamper _ _ _) _ _

@[simp] theorem State.unpark_tamper (g : Nat) : (s.unpark g).tamper = s.tamper := by
  unfold State.unpark
  dsimp only
  split
  · rfl
  · rfl

@[simp] theorem State.noteQuiet_tamper (w : Wing) : (s.noteQuiet w).tamper = s.tamper :=
  State.ite_tamper rfl (by cases w <;> rfl)

@[simp] theorem State.endRelease_tamper (j : Job) (st : Byte) (how : EndHow) (z : Nat → Bool) :
    (s.endRelease j st how z).2.tamper = s.tamper := by
  unfold State.endRelease
  split
  · rfl
  · split
    · dsimp only
      split
      · rfl
      · split
        · simp
        · split
          · simp
          · simp [State.scrub]
    · rfl
    · rfl

@[simp] theorem State.endPage_tamper (p : Nat) (st : Byte) : (s.endPage p st).tamper = s.tamper := by
  unfold State.endPage
  refine State.ite_tamper rfl ((State.releaseUnits_tamper _ _ _).trans ?_)
  split
  · exact State.returnLoan_tamper _ _
  · rfl

@[simp] theorem State.clearPageKeys_tamper (w : Wing) : (s.clearPageKeys w).tamper = s.tamper :=
  State.forAll_tamper (fun _ _ => by rfl) _ _

@[simp] theorem State.markC0_tamper : s.markC0.tamper = s.tamper := by
  obtain ⟨_, _, _, _, _, ht⟩ := s.markC0_keyState
  exact ht

/-- A job that a freeze ends leaves its record for the report phase, and the freeze stands. -/
@[simp] theorem State.endJobWith_frozen (n : Nat) (st : Byte) (reason : Nat) (result : Word64) (z : Nat → Bool) :
    (s.endJobWith n st reason result .frozen z).tamper.frozen = s.tamper.frozen := by
  unfold State.endJobWith
  split
  · rfl
  · simp [apply_ite State.tamper, State.forAll_tamper]

@[simp] theorem State.freezeJobs_frozen : s.freezeJobs.tamper.frozen = s.tamper.frozen :=
  State.forAll_same (fun s => s.tamper.frozen) (fun _ _ => State.endJobWith_frozen _ _ _ _ _ _) _ _

end Jobs

/-! ### Generators, cards and the other acts of a freeze -/

section Generators
variable (s : State)

@[simp] theorem State.wipeGenerators_tamper (ds : List Drbg) (ms : List MaskGen) : (s.wipeGenerators ds ms).tamper = s.tamper :=
  (State.forAll_tamper (fun _ _ => by rfl) _ _).trans (State.forAll_tamper (fun _ _ => by rfl) _ _)

@[simp] theorem State.enforceMin_tamper (p : Pool) : (s.enforceMin p).tamper = s.tamper :=
  State.ite_tamper rfl ((State.forAll_tamper (fun _ _ => State.ite_tamper (by rfl) (by rfl)) _ _).trans (State.ite_tamper rfl rfl))

@[simp] theorem State.servePool_tamper (p : Pool) (n : Nat) : (s.servePool p n).tamper = s.tamper := by
  induction n generalizing s with
  | zero => rfl
  | succ n ih =>
    unfold State.servePool
    dsimp only
    refine State.ite_tamper rfl ?_
    split
    · exact State.ite_tamper rfl (ih _)
    · split
      · exact State.ite_tamper rfl (ih _)
      · rfl

@[simp] theorem State.entropyChanged_tamper (old : State) : (State.entropyChanged old s).tamper = s.tamper := by
  refine (State.forAll_tamper (fun _ _ => ?_) _ _).trans (State.forAll_tamper (fun _ _ => ?_) _ _)
  · exact State.ite_tamper rfl (State.ite_tamper (by simp) (by simp))
  · simp [State.serve]

@[simp] theorem State.wipeAllGenerators_tamper : s.wipeAllGenerators.tamper = s.tamper := by
  simp [State.wipeAllGenerators, State.forAll_tamper]

@[simp] theorem State.endTransaction_tamper (result : Byte) : (s.endTransaction result).tamper = s.tamper := State.ite_tamper rfl rfl

@[simp] theorem State.abandonHandover_tamper (reason : Nat) : (s.abandonHandover reason).tamper = s.tamper := State.ite_tamper rfl rfl

@[simp] theorem State.freezeCards_tamper : s.freezeCards.tamper = s.tamper :=
  State.forAll_tamper (fun _ _ => State.ite_tamper (State.setCard_tamper _ _ _) (State.ite_tamper (by rfl) (State.setCard_tamper _ _ _))) _ _

/-- After a freeze the device is frozen. -/
theorem State.freeze_frozen (die : Die) : (s.freeze die).tamper.frozen = true := by
  unfold State.freeze
  split
  next h => exact h
  next => simp [State.forAll_tamper]

end Generators

end Sys2Proof.Machine
end

section
/-! SUPPORT. What ERASE does (R434, R435): who may order it, and what its steps 1 to 3 take and leave. -/

namespace Sys2Proof.Machine

/-! ### The role (R415) -/

/-- A message without the management role is answered ACCESS_DENIED, unless it is one that needs no role. -/
theorem State.message_of_no_role {s : State} {m : Sender} {c n : Nat} {ps : List Byte} {f : List Byte → State → Answer}
    (hb : (s.mailbox m).busy = true) (hc : bits32 (s.mailbox m).msg 0 8 = c) (hu : s.boot.inReset = false) (hv : s.cont.vote ≠ .lost)
    (hr : s.halted (senderWing m) = false) (hp : s.reaches (senderWing m) = true) (hf : freeCodes.contains c = false) (h23 : c ≠ 0x23)
    (hm : s.senderMgmt m = false) : s.message m c n ps f = s.replyTo m St.accessDenied 0 [] := by
  have hears : s.curatorHears m = true := by simp [State.curatorHears, hp]
  have refused : s.messageRefusal m c = some St.accessDenied := by
    rw [State.messageRefusal, if_neg (by simp [hr]), if_pos (by rw [hf, hm]; simpa using h23)]
  unfold State.message
  dsimp only
  rw [if_neg (by simp [hb, hc, hu, hv, hears]), refused]

/-! ### Steps 1 to 3 (R434) -/

section Keys
variable (s : State)

/-- What no write of a gallery changes, emptying a wing's galleries does not change. -/
theorem State.clearGalleries_same {β : Type} (get : State → β) (hg : ∀ s g x, get (State.setGal s g x) = get s) (w : Wing) :
    get (s.clearGalleries w) = get s := State.forAll_same get (fun _ _ => hg _ _ _) _ _

@[simp] theorem State.clearGalleries_ledger (w : Wing) : (s.clearGalleries w).ledger = s.ledger :=
  s.clearGalleries_same State.ledger State.setGal_ledger w

@[simp] theorem State.clearGalleries_journal (w : Wing) : (s.clearGalleries w).journal = s.journal :=
  s.clearGalleries_same State.journal State.setGal_journal w

@[simp] theorem State.clearGalleries_boot (w : Wing) : (s.clearGalleries w).boot = s.boot :=
  s.clearGalleries_same State.boot State.setGal_boot w

/-- An erase is under way and recorded, and the sealing key is gone. -/
theorem State.eraseKeys_erases : s.eraseKeys.tamper.erasing = true ∧ s.eraseKeys.tamper.erased = true ∧ s.eraseKeys.boot.ssk = none := by
  unfold State.eraseKeys
  dsimp only
  rw [State.markC0_tamper, (State.markC0_keyState _).1]
  exact ⟨rfl, rfl, by simp⟩

/-- The MRAM of step 4 stands: the ledger, the journal and the wraps of the master key. -/
theorem State.eraseKeys_leaves : s.eraseKeys.ledger = s.ledger ∧ s.eraseKeys.journal = s.journal ∧ s.eraseKeys.boot.wrapA = s.boot.wrapA ∧
    s.eraseKeys.boot.wrapB = s.boot.wrapB := by
  unfold State.eraseKeys
  dsimp only
  obtain ⟨hboot, hledger, hjournal, -⟩ := State.markC0_keyState _
  rw [hboot, hledger, hjournal]
  simp

end Keys

/-- Settles O57: ERASE by its authority, each refusal by the check that stops it, and the freeze and the erase by what they leave. -/
theorem eraseNeedsItsAuthority : Obligations.EraseNeedsItsAuthority := by
  intro m ps p s hp
  refine ⟨?free, ?quorum, ?noQuorum, ?noRole, ?done, ?left⟩
  case free => exact execErase_without_quorum
  case quorum => exact execErase_with_quorum hp
  case noQuorum => exact execErase_of_no_quorum hp
  case noRole =>
    intro hb hc hu hv hr hw hm
    exact next_congr (State.message_of_no_role hb hc hu hv hr hw (by decide) (by decide) hm)
  case done => exact ⟨s.freeze_frozen .curatorDie, s.eraseKeys_erases⟩
  case left => exact s.eraseKeys_leaves

end Sys2Proof.Machine
end

section
/-! SUPPORT. Every command of the table answers a next state that keeps what `Keeps` says, and so does a step but for the queue's front
command and the clock. -/

namespace Sys2Proof.Machine

/-- Every command answers a next state, whose memories and logs are as sound as before and whose part, clock and queue are the same. -/
theorem exec_keeps (i : Instr) (s : State) : ∃ t, exec i s = .next t ∧ Keeps s t := by
  cases i with
  | registerWrite f sp off size v => exact execRegisterWrite_keeps f sp off size v s
  | txFieldWrite by_ off v => exact execTxFieldWrite_keeps by_ off v s
  | submissionDoorbell f q index => exact execSubmissionDoorbell_keeps f q index s
  | completionDoorbell f q index => exact execCompletionDoorbell_keeps f q index s
  | fstatCauseClear f v coincident => exact execFstatCauseClear_keeps f v coincident s
  | fstatCauseEnWrite f v => exact execFstatCauseEnWrite_keeps f v s
  | fstatErrRead f => exact execFstatErrRead_keeps f s
  | fstatErrAddrRead f => exact execFstatErrAddrRead_keeps f s
  | fstatQerrRead f => exact execFstatQerrRead_keeps f s
  | admqEnable f => exact execAdmqEnable_keeps f s
  | admqDisable f => exact execAdmqDisable_keeps f s
  | msixUnmask f vector => exact execMsixUnmask_keeps f vector s
  | moderationTimerExpiry f q => exact execModerationTimerExpiry_keeps f q s
  | identify f dmaFails => exact execIdentify_keeps f dmaFails s
  | createCollection f => exact execCreateCollection_keeps f s
  | deleteCollection f => exact execDeleteCollection_keeps f s
  | setCollectionLimits f => exact execSetCollectionLimits_keeps f s
  | bindFunction f => exact execBindFunction_keeps f s
  | unbindFunction f => exact execUnbindFunction_keeps f s
  | deviceReset f => exact execDeviceReset_keeps f s
  | createQueue f => exact execCreateQueue_keeps f s
  | deleteQueue f => exact execDeleteQueue_keeps f s
  | deleteQueueDrainComplete f q => exact execDeleteQueueDrainComplete_keeps f q s
  | setModeration f => exact execSetModeration_keeps f s
  | getQueueState f dmaFails => exact execGetQueueState_keeps f dmaFails s
  | perstAssert w => exact execPerstAssert_keeps w s
  | perstDeassert x => exact execPerstDeassert_keeps x s
  | configurationReady w => exact execConfigurationReady_keeps w s
  | functionLevelReset scope => exact execFunctionLevelReset_keeps scope s
  | busMasterEnableClear f => exact execBusMasterEnableClear_keeps f s
  | busMasterEnableSet f => exact execBusMasterEnableSet_keeps f s
  | ideStreamFail w stream => exact execIdeStreamFail_keeps w stream s
  | dmaReadCompletion job read data => exact execDmaReadCompletion_keeps job read data s
  | dmaReadFailure target kind => exact execDmaReadFailure_keeps target kind s
  | dmaWriteInternalError target => exact execDmaWriteInternalError_keeps target s
  | portUncorrectableError w => exact execPortUncorrectableError_keeps w s
  | doeSpdmRequest w req => exact execDoeSpdmRequest_keeps w req s
  | getMeasurements via index ask => exact execGetMeasurements_keeps via index ask s
  | mctpControl ep msg => exact execMctpControl_keeps ep msg s
  | mctpSpdm ep req => exact execMctpSpdm_keeps ep req s
  | mctpRegisterRead ep f off => exact execMctpRegisterRead_keeps ep f off s
  | mctpDeviceReset ep => exact execMctpDeviceReset_keeps ep s
  | dispatchDecision w => exact execDispatchDecision_keeps w s
  | entryFetchComplete f q entry => exact execEntryFetchComplete_keeps f q entry s
  | programStart job fetch => exact execProgramStart_keeps job fetch s
  | insNop job => exact execInsNop_keeps job s
  | insEnd job => exact execInsEnd_keeps job s
  | insBr job => exact execInsBr_keeps job s
  | insMovi job => exact execInsMovi_keeps job s
  | insMovhi job => exact execInsMovhi_keeps job s
  | insMov job => exact execInsMov_keeps job s
  | insAdd job => exact execInsAdd_keeps job s
  | insAddi job => exact execInsAddi_keeps job s
  | insSub job => exact execInsSub_keeps job s
  | insAnd job => exact execInsAnd_keeps job s
  | insOr job => exact execInsOr_keeps job s
  | insXor job => exact execInsXor_keeps job s
  | insShl job => exact execInsShl_keeps job s
  | insShr job => exact execInsShr_keeps job s
  | insCmp job => exact execInsCmp_keeps job s
  | insCmpi job => exact execInsCmpi_keeps job s
  | insLdp job => exact execInsLdp_keeps job s
  | insLdb job => exact execInsLdb_keeps job s
  | insLoan job => exact execInsLoan_keeps job s
  | insLoanp job => exact execInsLoanp_keeps job s
  | loanGrant job => exact execLoanGrant_keeps job s
  | insReturn job => exact execInsReturn_keeps job s
  | insBuf job => exact execInsBuf_keeps job s
  | insBslice job => exact execInsBslice_keeps job s
  | insBlen job => exact execInsBlen_keeps job s
  | insBind job => exact execInsBind_keeps job s
  | insEndb job how => exact execInsEndb_keeps job how s
  | instructionBudgetExhausted job => exact execInstructionBudgetExhausted_keeps job s
  | engineOperationComplete job ev => exact execEngineOperationComplete_keeps job ev s
  | engineWipeComplete gallery kind => exact execEngineWipeComplete_keeps gallery kind s
  | jobPreemption res higher => exact execJobPreemption_keeps res higher s
  | suspendedJobResume job => exact execSuspendedJobResume_keeps job s
  | mlkemKeygen job => exact execMlkemKeygen_keeps job s
  | mlkemEncaps job => exact execMlkemEncaps_keeps job s
  | mlkemDecaps job => exact execMlkemDecaps_keeps job s
  | mlkemEncapsk job => exact execMlkemEncapsk_keeps job s
  | mlkemExportek job => exact execMlkemExportek_keeps job s
  | mlkemImportek job => exact execMlkemImportek_keeps job s
  | mldsaKeygen job => exact execMldsaKeygen_keeps job s
  | mldsaSign job => exact execMldsaSign_keeps job s
  | mldsaVerify job => exact execMldsaVerify_keeps job s
  | mldsaVerifyx job => exact execMldsaVerifyx_keeps job s
  | mldsaExportpk job => exact execMldsaExportpk_keeps job s
  | mldsaImportpk job => exact execMldsaImportpk_keeps job s
  | fndsaKeygen job => exact execFndsaKeygen_keeps job s
  | fndsaSign job => exact execFndsaSign_keeps job s
  | fndsaVerify job => exact execFndsaVerify_keeps job s
  | fndsaVerifyx job => exact execFndsaVerifyx_keeps job s
  | fndsaExportpk job => exact execFndsaExportpk_keeps job s
  | fndsaImportpk job => exact execFndsaImportpk_keeps job s
  | hybKexcombine job => exact execHybKexcombine_keeps job s
  | hybSign job => exact execHybSign_keeps job s
  | hybVerify job => exact execHybVerify_keeps job s
  | hybVerifyx job => exact execHybVerifyx_keeps job s
  | digestHash job => exact execDigestHash_keeps job s
  | digestCshake job => exact execDigestCshake_keeps job s
  | digestHmac job => exact execDigestHmac_keeps job s
  | digestHmacverify job => exact execDigestHmacverify_keeps job s
  | digestKmac job => exact execDigestKmac_keeps job s
  | digestKmacverify job => exact execDigestKmacverify_keeps job s
  | digestHkdf job => exact execDigestHkdf_keeps job s
  | digestKdf108 job => exact execDigestKdf108_keeps job s
  | digestSbegin job => exact execDigestSbegin_keeps job s
  | digestScont job => exact execDigestScont_keeps job s
  | digestSend job => exact execDigestSend_keeps job s
  | slhdsaKeygen job => exact execSlhdsaKeygen_keeps job s
  | slhdsaSign job => exact execSlhdsaSign_keeps job s
  | slhdsaVerify job => exact execSlhdsaVerify_keeps job s
  | slhdsaVerifyx job => exact execSlhdsaVerifyx_keeps job s
  | slhdsaExportpk job => exact execSlhdsaExportpk_keeps job s
  | slhdsaImportpk job => exact execSlhdsaImportpk_keeps job s
  | lmsKeygen job => exact execLmsKeygen_keeps job s
  | lmsSign job => exact execLmsSign_keeps job s
  | lmsVerify job => exact execLmsVerify_keeps job s
  | lmsVerifyx job => exact execLmsVerifyx_keeps job s
  | lmsExportpk job => exact execLmsExportpk_keeps job s
  | lmsImportpk job => exact execLmsImportpk_keeps job s
  | xmssKeygen job => exact execXmssKeygen_keeps job s
  | xmssSign job => exact execXmssSign_keeps job s
  | xmssVerify job => exact execXmssVerify_keeps job s
  | xmssVerifyx job => exact execXmssVerifyx_keeps job s
  | xmssExportpk job => exact execXmssExportpk_keeps job s
  | xmssImportpk job => exact execXmssImportpk_keeps job s
  | leafReservation w slot readbackFailures => exact execLeafReservation_keeps w slot readbackFailures s
  | issuerPositionReport w => exact execIssuerPositionReport_keeps w s
  | treeSubtreeGeneration slot checkTrips => exact execTreeSubtreeGeneration_keeps slot checkTrips s
  | treeCacheRebuild r => exact execTreeCacheRebuild_keeps r s
  | signCacheWaitExpiry job => exact execSignCacheWaitExpiry_keeps job s
  | ledgerQslotWrite f v => exact execLedgerQslotWrite_keeps f v s
  | ledgerLowSlotRead f => exact execLedgerLowSlotRead_keeps f s
  | mcelieceKeygen job => exact execMcelieceKeygen_keeps job s
  | mcelieceEncaps job => exact execMcelieceEncaps_keeps job s
  | mcelieceDecaps job => exact execMcelieceDecaps_keeps job s
  | mcelieceEncapsk job => exact execMcelieceEncapsk_keeps job s
  | mcelieceExportpk job => exact execMcelieceExportpk_keeps job s
  | mcelieceImportpk job => exact execMcelieceImportpk_keeps job s
  | mcelieceReside job => exact execMcelieceReside_keeps job s
  | queuedResideLoad gallery => exact execQueuedResideLoad_keeps gallery s
  | residentKeyReload gallery => exact execResidentKeyReload_keeps gallery s
  | hqcKeygen job => exact execHqcKeygen_keeps job s
  | hqcEncaps job => exact execHqcEncaps_keeps job s
  | hqcDecaps job => exact execHqcDecaps_keeps job s
  | hqcEncapsk job => exact execHqcEncapsk_keeps job s
  | hqcExportpk job => exact execHqcExportpk_keeps job s
  | hqcImportpk job => exact execHqcImportpk_keeps job s
  | rsaKeygen job => exact execRsaKeygen_keeps job s
  | rsaSign job => exact execRsaSign_keeps job s
  | rsaVerify job => exact execRsaVerify_keeps job s
  | rsaVerifyx job => exact execRsaVerifyx_keeps job s
  | rsaDecrypt job => exact execRsaDecrypt_keeps job s
  | rsaEncrypt job => exact execRsaEncrypt_keeps job s
  | rsaExportpk job => exact execRsaExportpk_keeps job s
  | rsaImportpk job => exact execRsaImportpk_keeps job s
  | ecKeygen job => exact execEcKeygen_keeps job s
  | ecSign job => exact execEcSign_keeps job s
  | ecVerify job => exact execEcVerify_keeps job s
  | ecVerifyx job => exact execEcVerifyx_keeps job s
  | ecEphagree job => exact execEcEphagree_keeps job s
  | ecAgree job => exact execEcAgree_keeps job s
  | ecExportpk job => exact execEcExportpk_keeps job s
  | ecImportpk job => exact execEcImportpk_keeps job s
  | ecCurvecheck job => exact execEcCurvecheck_keeps job s
  | aesEncrypt job => exact execAesEncrypt_keeps job s
  | aesDecrypt job => exact execAesDecrypt_keeps job s
  | aesCmac job => exact execAesCmac_keeps job s
  | aesCmacverify job => exact execAesCmacverify_keeps job s
  | aesAeadseal job => exact execAesAeadseal_keeps job s
  | aesAeadopen job => exact execAesAeadopen_keeps job s
  | payPinxlate job => exact execPayPinxlate_keeps job s
  | payDukptxlate job => exact execPayDukptxlate_keeps job s
  | payDukptderive job => exact execPayDukptderive_keeps job s
  | payDukptik job => exact execPayDukptik_keeps job s
  | payKbexport job => exact execPayKbexport_keeps job s
  | payKbimport job => exact execPayKbimport_keeps job s
  | randBytes job => exact execRandBytes_keeps job s
  | catGenerate job => exact execCatGenerate_keeps job s
  | catImportClear job => exact execCatImportClear_keeps job s
  | catUnwrap job => exact execCatUnwrap_keeps job s
  | catWrap job => exact execCatWrap_keeps job s
  | catWithdraw job => exact execCatWithdraw_keeps job s
  | catRevoke job => exact execCatRevoke_keeps job s
  | catPin job => exact execCatPin_keeps job s
  | catInfo job => exact execCatInfo_keeps job s
  | catSync job => exact execCatSync_keeps job s
  | catCheckpoint job => exact execCatCheckpoint_keeps job s
  | revocationOrder w coll index gen => exact execRevocationOrder_keeps w coll index gen s
  | revocationAck w coll index gen => exact execRevocationAck_keeps w coll index gen s
  | leaseRenewal loan => exact execLeaseRenewal_keeps loan s
  | leaseExpiry loan => exact execLeaseExpiry_keeps loan s
  | provenanceWalk coll index gen => exact execProvenanceWalk_keeps coll index gen s
  | invalidatedAncestorRelease coll index gen => exact execInvalidatedAncestorRelease_keeps coll index gen s
  | sealIntervalExpiry => exact execSealIntervalExpiry_keeps s
  | sealWrite => exact execSealWrite_keeps s
  | checkpointEnd => exact execCheckpointEnd_keeps s
  | journalConfig m params => exact execJournalConfig_keeps m params s
  | journalAck m params => exact execJournalAck_keeps m params s
  | journalStatus m params => exact execJournalStatus_keeps m params s
  | restoreBegin m params => exact execRestoreBegin_keeps m params s
  | restoreBlock m params block => exact execRestoreBlock_keeps m params block s
  | restoreEnd m params => exact execRestoreEnd_keeps m params s
  | acceptLoss m params => exact execAcceptLoss_keeps m params s
  | identity m params => exact execIdentity_keeps m params s
  | nonce m params => exact execNonce_keeps m params s
  | nonceExpiry index => exact execNonceExpiry_keeps index s
  | quorumSubmit m params => exact execQuorumSubmit_keeps m params s
  | quorumAuthorisationExpiry index => exact execQuorumAuthorisationExpiry_keeps index s
  | takeOwnership m params => exact execTakeOwnership_keeps m params s
  | certInstall m params => exact execCertInstall_keeps m params s
  | decommission m params => exact execDecommission_keeps m params s
  | transfer m params => exact execTransfer_keeps m params s
  | scrap m params => exact execScrap_keeps m params s
  | floorRaise m params => exact execFloorRaise_keeps m params s
  | flashWrite m params => exact execFlashWrite_keeps m params s
  | slotPrefer m params => exact execSlotPrefer_keeps m params s
  | debugChallenge m params => exact execDebugChallenge_keeps m params s
  | debugUnlock m params => exact execDebugUnlock_keeps m params s
  | debugLock m params => exact execDebugLock_keeps m params s
  | provision m params => exact execProvision_keeps m params s
  | pwronRstAssert => exact execPwronRstAssert_keeps s
  | pwronRstRelease straps => exact execPwronRstRelease_keeps straps s
  | bootImageAccept type => exact execBootImageAccept_keeps type s
  | ledgerRebuild => exact execLedgerRebuild_keeps s
  | sourceSample source bit => exact execSourceSample_keeps source bit s
  | balanceAdjustment source => exact execBalanceAdjustment_keeps source s
  | sourceStartupComplete source => exact execSourceStartupComplete_keeps source s
  | conditionedBlock pool => exact execConditionedBlock_keeps pool s
  | drbgReseedRequest d => exact execDrbgReseedRequest_keeps d s
  | drbgIntervalExpiry d => exact execDrbgIntervalExpiry_keeps d s
  | maskingGeneratorReseed m => exact execMaskingGeneratorReseed_keeps m s
  | maskingGeneratorStop m => exact execMaskingGeneratorStop_keeps m s
  | drbgKnownAnswerTest d passes => exact execDrbgKnownAnswerTest_keeps d passes s
  | entropyWaitExpiry job => exact execEntropyWaitExpiry_keeps job s
  | wingEntropyReady w => exact execWingEntropyReady_keeps w s
  | entropyReadmit f v => exact execEntropyReadmit_keeps f v s
  | entropyLastfailRead f => exact execEntropyLastfailRead_keeps f s
  | entropyRawdataRead f => exact execEntropyRawdataRead_keeps f s
  | tileRead t fetch job => exact execTileRead_keeps t fetch job s
  | tileWrite t data job => exact execTileWrite_keeps t data job s
  | nodeWriteback w level node => exact execNodeWriteback_keeps w level node s
  | rootUpdate w node => exact execRootUpdate_keeps w node s
  | peerFallbackRead t fetch job => exact execPeerFallbackRead_keeps t fetch job s
  | patrolScrub t fetch => exact execPatrolScrub_keeps t fetch s
  | tileRehome t => exact execTileRehome_keeps t s
  | channelRetirementRequest c => exact execChannelRetirementRequest_keeps c s
  | storeRetire f v => exact execStoreRetire_keeps f v s
  | retirementCopyComplete c => exact execRetirementCopyComplete_keeps c s
  | channelFailure c => exact execChannelFailure_keeps c s
  | channelTrainingComplete c found => exact execChannelTrainingComplete_keeps c found s
  | zqCalibration c => exact execZqCalibration_keeps c s
  | storeroomInitComplete w => exact execStoreroomInitComplete_keeps w s
  | mirrorRefreshComplete w => exact execMirrorRefreshComplete_keeps w s
  | storeCeRead f c => exact execStoreCeRead_keeps f c s
  | storeUeRead f c => exact execStoreUeRead_keeps f c s
  | storeIntegRead f => exact execStoreIntegRead_keeps f s
  | storeLastfailRead f => exact execStoreLastfailRead_keeps f s
  | tamperSensorTrip trip => exact execTamperSensorTrip_keeps trip s
  | railRecoveryExpiry die recovered => exact execRailRecoveryExpiry_keeps die recovered s
  | freezeWireAssert die => exact execFreezeWireAssert_keeps die s
  | orderApply => exact execOrderApply_keeps s
  | reportPhase => exact execReportPhase_keeps s
  | mramEraseComplete => exact execMramEraseComplete_keeps s
  | batteryDomainAlarm trip => exact execBatteryDomainAlarm_keeps trip s
  | tamperClear m params => exact execTamperClear_keeps m params s
  | orderInstall m params => exact execOrderInstall_keeps m params s
  | erase m params => exact execErase_keeps m params s
  | orderRead m params => exact execOrderRead_keeps m params s
  | standingOrderEffective kind => exact execStandingOrderEffective_keeps kind s
  | unitFence u cause => exact execUnitFence_keeps u cause s
  | errorCountDecay u => exact execErrorCountDecay_keeps u s
  | unitHandshakeTimeout u => exact execUnitHandshakeTimeout_keeps u s
  | unitKnownAnswerTest u passes => exact execUnitKnownAnswerTest_keeps u passes s
  | recalibration u => exact execRecalibration_keeps u s
  | consRecal f v => exact execConsRecal_keeps f v s
  | sparePromotion u => exact execSparePromotion_keeps u s
  | consPromote f v => exact execConsPromote_keeps f v s
  | consFence f v => exact execConsFence_keeps f v s
  | consReadmit f v => exact execConsReadmit_keeps f v s
  | unitReadmitComplete u passes => exact execUnitReadmitComplete_keeps u passes s
  | consGreset f v => exact execConsGreset_keeps f v s
  | galleryReset gallery => exact execGalleryReset_keeps gallery s
  | galleryResetComplete gallery => exact execGalleryResetComplete_keeps gallery s
  | consEventRead f => exact execConsEventRead_keeps f s
  | consFencedTrafficRead f => exact execConsFencedTrafficRead_keeps f s
  | consLinkdownRead f => exact execConsLinkdownRead_keeps f s
  | staleFlitDrop u gen => exact execStaleFlitDrop_keeps u gen s
  | voteDisagreement vote => exact execVoteDisagreement_keeps vote s
  | heartbeatSend l e => exact execHeartbeatSend_keeps l e s
  | linkDownDeclare l e => exact execLinkDownDeclare_keeps l e s
  | linkRetrain l => exact execLinkRetrain_keeps l s
  | linkUpDeclare l => exact execLinkUpDeclare_keeps l s
  | orphanDetect w => exact execOrphanDetect_keeps w s
  | orphanHalt w => exact execOrphanHalt_keeps w s
  | bothWingsLost => exact execBothWingsLost_keeps s
  | wingReadmission w => exact execWingReadmission_keeps w s
  | wingReset w => exact execWingReset_keeps w s
  | cfgtxBegin by_ => exact execCfgtxBegin_keeps by_ s
  | cfgtxCommit by_ items => exact execCfgtxCommit_keeps by_ items s
  | cfgtxAbort by_ => exact execCfgtxAbort_keeps by_ s
  | cfgtxDrainComplete => exact execCfgtxDrainComplete_keeps s
  | cfgtxDrainTimeout => exact execCfgtxDrainTimeout_keeps s
  | cfgtxIdleExpiry => exact execCfgtxIdleExpiry_keeps s
  | microcodeBankLoad u verifies => exact execMicrocodeBankLoad_keeps u verifies s
  | bnslotRepartition gallery => exact execBnslotRepartition_keeps gallery s
  | handoverBegin m params => exact execHandoverBegin_keeps m params s
  | handoverStatus m params => exact execHandoverStatus_keeps m params s
  | handoverPending => exact execHandoverPending_keeps s
  | handoverPauseStart => exact execHandoverPauseStart_keeps s
  | handoverSwitch startChecksPass => exact execHandoverSwitch_keeps startChecksPass s
  | docentClusterReset w => exact execDocentClusterReset_keeps w s
  | docentSqTailWrite w core q user tail => exact execDocentSqTailWrite_keeps w core q user tail s
  | docentCqHeadWrite w core q user head => exact execDocentCqHeadWrite_keeps w core q user head s
  | dqCtrlWrite w core q off v => exact execDqCtrlWrite_keeps w core q off v s
  | docentAccess w core acc gate => exact execDocentAccess_keeps w core acc gate s
  | docentDmaBurst w acc gate => exact execDocentDmaBurst_keeps w acc gate s
  | debugPortAccess w acc gate => exact execDebugPortAccess_keeps w acc gate s
  | auRegisterWrite w master unit off v => exact execAuRegisterWrite_keeps w master unit off v s
  | auVinfoClear w master v => exact execAuVinfoClear_keeps w master v s
  | auVcountRead w master => exact execAuVcountRead_keeps w master s
  | evlogVinfoClear f m v => exact execEvlogVinfoClear_keeps f m v s
  | jtagInstruction ins => exact execJtagInstruction_keeps ins s
  | cardInsertion slot => exact execCardInsertion_keeps slot s
  | cardRemoval slot => exact execCardRemoval_keeps slot s
  | cardActivate slot => exact execCardActivate_keeps slot s
  | cardDeactivate slot => exact execCardDeactivate_keeps slot s
  | cardWarmReset slot => exact execCardWarmReset_keeps slot s
  | cardStart slot => exact execCardStart_keeps slot s
  | cardClkStop slot => exact execCardClkStop_keeps slot s
  | cardWake slot => exact execCardWake_keeps slot s
  | cardAbort slot => exact execCardAbort_keeps slot s
  | cardCharacterReceive slot b parityOk => exact execCardCharacterReceive_keeps slot b parityOk s
  | cardVccTimeout slot => exact execCardVccTimeout_keeps slot s
  | cardAtrTimeout slot => exact execCardAtrTimeout_keeps slot s
  | cardClassBRetry slot => exact execCardClassBRetry_keeps slot s
  | cardWaitingTimeExpiry slot => exact execCardWaitingTimeExpiry_keeps slot s
  | cardDeactivationComplete slot => exact execCardDeactivationComplete_keeps slot s
  | cardResultRead slot => exact execCardResultRead_keeps slot s
  | cardIrqClear slot v => exact execCardIrqClear_keeps slot v s
  | referenceMissing die src => exact execReferenceMissing_keeps die src s
  | frequencyWindow die win => exact execFrequencyWindow_keeps die win s
  | xtalStartDelayExpiry die => exact execXtalStartDelayExpiry_keeps die s
  | clockSwitch die dest forced => exact execClockSwitch_keeps die dest forced s
  | pllLock die pauseUs => exact execPllLock_keeps die pauseUs s
  | clkpwrRevert f => exact execClkpwrRevert_keeps f s
  | autoRevert die => exact execAutoRevert_keeps die s
  | wingIdleEntry w => exact execWingIdleEntry_keeps w s
  | standbyRequest f => exact execStandbyRequest_keeps f s
  | standbyDrainTimeout => exact execStandbyDrainTimeout_keeps s
  | standbyEntry => exact execStandbyEntry_keeps s
  | activeRequest f => exact execActiveRequest_keeps f s
  | powerEstimate mw10 => exact execPowerEstimate_keeps mw10 s
  | thermalSample west east curator => exact execThermalSample_keeps west east curator s
  | thermalThrottleStep => exact execThermalThrottleStep_keeps s
  | clkpwrCapWrite f v => exact execClkpwrCapWrite_keeps f v s
  | clkpwrSwitchesRead f => exact execClkpwrSwitchesRead_keeps f s
  | clkpwrRtcSet f v => exact execClkpwrRtcSet_keeps f v s
  | clkpwrRtcSlew f v => exact execClkpwrRtcSlew_keeps f v s
  | avsVoltageWrite w millivolt answer => exact execAvsVoltageWrite_keeps w millivolt answer s
  | gpioWrite w out oe => exact execGpioWrite_keeps w out oe s
  | gpioEdge w pin rising => exact execGpioEdge_keeps w pin rising s
  | gpioIrqClear w v => exact execGpioIrqClear_keeps w v s
  | compatStart f page => exact execCompatStart_keeps f page s
  | compatKeyClear f page => exact execCompatKeyClear_keeps f page s
  | compatKeyWrite f page word v => exact execCompatKeyWrite_keeps f page word v s
  | compatOperationComplete page ev => exact execCompatOperationComplete_keeps page ev s
  | cardCharacterSent slot errorSignal => exact execCardCharacterSent_keeps slot errorSignal s
  | timerCompare w k => exact execTimerCompare_keeps w k s
  | rtcCompare w => exact execRtcCompare_keeps w s
  | vbatMeasurement millivolt => exact execVbatMeasurement_keeps millivolt s
  | linkPowerStateChange w dest => exact execLinkPowerStateChange_keeps w dest s

/-- What a command answers, it answers from a state that keeps what `Keeps` says. -/
theorem Keeps.of_exec {i : Instr} {s t : State} (h : exec i s = .next t) : Keeps s t := by
  obtain ⟨u, hu, hk⟩ := exec_keeps i s
  cases hu.symm.trans h
  exact hk

theorem step_of_pending_nil {s : State} (h : s.pending = []) : step s = .next s.tick := by
  unfold step
  rw [h]

theorem step_of_pending_cons {s : State} {c : Instr} {rest : List Instr} (h : s.pending = c :: rest) :
    step s = exec c { s with pending := rest } := by
  unfold step
  rw [h]

/-- A step that answers is a tick of the clock on an empty queue, or the front command on the queue's rest. -/
theorem step_cases {s t : State} (h : step s = .next t) :
    (s.pending = [] ∧ t = s.tick) ∨ ∃ c rest, s.pending = c :: rest ∧ Keeps { s with pending := rest } t := by
  cases hp : s.pending with
  | nil =>
    cases (step_of_pending_nil hp).symm.trans h
    exact .inl ⟨rfl, rfl⟩
  | cons c rest => exact .inr ⟨c, rest, rfl, .of_exec ((step_of_pending_cons hp).symm.trans h)⟩

/-- Settles O1: the queue is not empty, so the step takes its front command. -/
theorem stepRunsFrontCommand : Obligations.StepRunsFrontCommand :=
  fun _ _ _ => step_of_pending_cons

/-- A tick counts its nanosecond as watch time exactly where a die is in watch mode. -/
theorem State.tick_eq_ite (s : State) : s.tick =
    { s with now := s.now + 1, power := { s.power with watchNs := if s.watchMode then s.power.watchNs + 1 else s.power.watchNs } } := by
  unfold State.tick
  cases s.watchMode <;> rfl

/-- Settles O2: on an empty queue the step is the tick. -/
theorem idleStepPassesTime : Obligations.IdleStepPassesTime :=
  fun s h => (step_of_pending_nil h).trans (congrArg Host.Outcome.next s.tick_eq_ite)

/-- Settles O3: a tick changes no memory and no log, and every command keeps them sound. -/
theorem stepKeepsInvariant : Obligations.StepKeepsInvariant := by
  intro s t hi h
  obtain ⟨-, rfl⟩ | ⟨c, rest, -, hk⟩ := step_cases h
  · exact hi
  · exact hk.inv hi

/-- Settles O4: at reset every memory and every log is empty, and so is the queue. -/
theorem resetHoldsInvariant : Obligations.ResetHoldsInvariant :=
  have inv : State.reset.Inv := ⟨rfl, rfl, rfl⟩
  have queue : State.reset.queueWf := fun _ hc => nomatch hc
  ⟨inv, queue, rfl⟩

/-- Settles O5: each command of the table has a meaning that answers a next state. -/
theorem everyCommandAnswers : Obligations.EveryCommandAnswers :=
  fun c s => (exec_keeps c s).imp fun _ => And.left

/-- Settles O6: the queue, the clock, the serial number and the variant are among what every command keeps. -/
theorem commandsKeepQueueClockAndSerial : Obligations.CommandsKeepQueueClockAndSerial := by
  intro c s t h
  have hk := Keeps.of_exec h
  exact ⟨hk.pending, hk.now, hk.serial, hk.a12⟩

/-- Settles O7: a tick leaves the empty queue empty, and a command leaves the queue that it runs with, the rest. -/
theorem stepTakesOneCommand : Obligations.StepTakesOneCommand := by
  intro s t h
  obtain ⟨hp, rfl⟩ | ⟨c, rest, hp, hk⟩ := step_cases h
  · exact hp.trans (congrArg List.tail hp).symm
  · exact hk.pending.trans (congrArg List.tail hp).symm

/-- Settles O8: a tick sends nothing and records no tamper event, and every command only adds to both. -/
theorem sentStaysSentAndSequencesGrow : Obligations.SentStaysSentAndSequencesGrow := by
  intro s t h
  obtain ⟨-, rfl⟩ | ⟨c, rest, -, hk⟩ := step_cases h
  · exact ⟨List.suffix_refl _, Nat.le_refl _⟩
  · exact ⟨hk.outbox, hk.evSeq⟩

/-- Settles O58: State.reset gives each register its reset value. -/
theorem resetLeavesTheRegistersTheSpecGives : Obligations.ResetLeavesTheRegistersTheSpecGives := by
  refine ⟨rfl, rfl, rfl, rfl, rfl, rfl, rfl, rfl, rfl, rfl, rfl, rfl, rfl, ?_, rfl, rfl, ?_, rfl, rfl, rfl, rfl, rfl, rfl⟩
  · decide
  · intro f
    exact ⟨rfl, rfl, rfl⟩

end Sys2Proof.Machine
end

section
/-! SUPPORT. Bytes stored in the part's memories read back, and no other byte changes (R478, R398). -/

namespace Sys2Proof.Machine

/-- A store of bytes changes no address outside it. -/
theorem Tbl.get_writeBytes_outside {d : Byte} {bs : List Byte} {t : Tbl Byte} {a i : Nat} (h : i < a ∨ a + bs.length ≤ i) :
    (Tbl.writeBytes d t a bs).get d i = t.get d i := by
  induction bs generalizing t a with
  | nil => rfl
  | cons b bs ih =>
    rw [List.length_cons] at h
    exact (ih (t := t.set d a b) (a := a + 1) (by omega)).trans (Tbl.get_set_ne t (by omega))

/-- Bytes stored in a canonical memory are read back. -/
theorem Tbl.readBytes_writeBytes {d : Byte} {bs : List Byte} {t : Tbl Byte} {a : Nat} (h : Tbl.wf d t = true) :
    Tbl.readBytes d (Tbl.writeBytes d t a bs) a bs.length = bs := by
  induction bs generalizing t a with
  | nil => rfl
  | cons b bs ih =>
    have head : (Tbl.writeBytes d (t.set d a b) (a + 1) bs).get d a = b :=
      (Tbl.get_writeBytes_outside (.inl (Nat.lt_succ_self a))).trans (Tbl.get_set_eq h)
    exact congrArg₂ List.cons head (ih (Tbl.set_wf h))

theorem DocentWing.memWf_iff {d : DocentWing} : d.memWf = true ↔ Tbl.wf 0#8 d.local_ = true ∧ Tbl.wf 0#8 d.shared = true := by
  rw [DocentWing.memWf, Bool.and_eq_true]

@[simp] theorem State.docMemWrite_shared (s : State) (w : Wing) (o : Nat) (l : List Byte) :
    ((s.docMemWrite w (.shared o) l).doc w).shared = Tbl.writeBytes 0 (s.doc w).shared o l := by
  cases w <;> rfl

@[simp] theorem State.docMemWrite_local (s : State) (w : Wing) (c o : Nat) (l : List Byte) :
    ((s.docMemWrite w (.local_ c o) l).doc w).local_ = Tbl.writeBytes 0 (s.doc w).local_ (c * 2 ^ 18 + o) l := by
  cases w <;> rfl

/-- Bytes that end within CARD_DATA are all stored. -/
theorem State.cardDataWrite_data {s : State} {n o : Nat} {l : List Byte} (hn : n < 2) (hl : o + l.length ≤ 0x200) :
    ((s.cardDataWrite n o l).card n).data = Tbl.writeBytes 0 (s.card n).data (o - 0x100) l := by
  unfold State.cardDataWrite
  rw [State.card_setCard _ _ _ hn, List.take_of_length_le (by omega)]

theorem State.discardWraps_flash (s : State) (k : Nat) : (s.discardWraps k).boot.flash = s.boot.flash := by
  unfold State.discardWraps
  refine (State.forAll_same (fun t => t.boot.flash) ?_ _ _).trans ?_
  · exact fun _ _ => rfl
  · show (if k = 0 then { s.boot with wrapA := none } else { s.boot with wrapB := none }).flash = s.boot.flash
    split <;> rfl

theorem State.readDirectory_flash (s : State) (second : Bool) : (s.readDirectory second).boot.flash = s.boot.flash := by
  cases second <;> rfl

/-- What follows from where written bytes lie in the flash changes no byte of it. -/
theorem State.flashWrite_flash (s : State) (off : Nat) (data : List Byte) :
    (s.flashWrite off data).boot.flash = Tbl.writeBytes 0xFF s.boot.flash off data := by
  have same {p : Prop} [Decidable p] {t u : State} (h : t.boot.flash = u.boot.flash) : (if p then t else u).boot.flash = u.boot.flash := by
    split
    · exact h
    · rfl
  unfold State.flashWrite
  dsimp only
  rw [same (State.readDirectory_flash _ _), same (State.readDirectory_flash _ _), State.setBoot_boot]
  dsimp only
  rw [same (State.discardWraps_flash _ _), same (State.discardWraps_flash _ _)]

/-- Settles O50: each store is one store of bytes into one table, which the invariant holds in canonical form. -/
theorem storedBytesAreReadBack : Obligations.StoredBytesAreReadBack := by
  intro w c n o a l s hs
  have hmem := hs.1
  obtain ⟨hlocal, hshared⟩ := DocentWing.memWf_iff.mp (State.memWf_doc hmem w)
  refine ⟨⟨?shared, ?sharedElse⟩, ⟨?loc, ?locElse⟩, ?card, ?flash, ?flashElse⟩
  case shared =>
    show Tbl.readBytes 0 ((s.docMemWrite w (.shared o) l).doc w).shared o l.length = l
    rw [State.docMemWrite_shared]
    exact Tbl.readBytes_writeBytes hshared
  case sharedElse =>
    intro h
    rw [State.docMemWrite_shared, Tbl.get_writeBytes_outside h]
  case loc =>
    show Tbl.readBytes 0 ((s.docMemWrite w (.local_ c o) l).doc w).local_ (c * 2 ^ 18 + o) l.length = l
    rw [State.docMemWrite_local]
    exact Tbl.readBytes_writeBytes hlocal
  case locElse =>
    intro h
    rw [State.docMemWrite_local, Tbl.get_writeBytes_outside h]
  case card =>
    intro hn _ hl
    rw [State.cardDataWrite_data hn hl]
    exact ⟨Tbl.readBytes_writeBytes (State.memWf_card hmem n), Tbl.get_writeBytes_outside⟩
  case flash =>
    rw [State.flashWrite_flash]
    exact Tbl.readBytes_writeBytes (State.memWf_flash hmem)
  case flashElse =>
    intro h
    rw [State.flashWrite_flash, Tbl.get_writeBytes_outside h]

end Sys2Proof.Machine
end

section
/-! SUPPORT. The capture of an access unit and its mirror in the event log (R491, R495). -/

namespace Sys2Proof.Machine

section Violations
variable {s : State} {w : Wing} {m kind op index addr : Nat} {user : Bool}

/-- While a capture stands, a further violation is only counted. -/
theorem State.violation_of_captured (hv : bit32 (s.au w m).vinfo 0 = true) :
    s.violation w m kind op user index addr =
      s.setAu w m { s.au w m with vcount := min ((s.au w m).vcount + 1) (2 ^ 32 - 1) } := by
  rw [← sat_eq_min]
  exact if_pos hv

/-- A violation of an armed unit is captured, counted and logged. -/
theorem State.violation_of_armed (hv : bit32 (s.au w m).vinfo 0 = false) :
    s.violation w m kind op user index addr =
      (s.setAu w m { s.au w m with
        vcount := min ((s.au w m).vcount + 1) (2 ^ 32 - 1)
        vinfo := w32 (1 + kind * 2 + op * 16 + b2n user * 64 + index * 128)
        vaddr := addr % 2 ^ 40 }).log 7 St.accessDenied (dieSrc (wingDie w))
          (leBytes 4 (w32 (1 + kind * 2 + op * 16 + b2n user * 64 + index * 128)).toNat ++ leBytes 8 (addr % 2 ^ 40) ++
            [byte (10 * wingIdx w + m)]) := by
  rw [← sat_eq_min]
  exact if_neg (by simp [hv])

end Violations

/-- An odd word has its lowest bit set: what is captured is valid. -/
theorem bit32_w32_zero {n : Nat} (h : n % 2 = 1) : bit32 (w32 n) 0 = true := by
  simp [bit32, w32, h]

theorem bit32_zero_of_cleared (v : Word32) : bit32 (v &&& 0xFFFFFFFE) 0 = false := by
  simp [bit32]

/-- The mirrors of the event log show AU_VINFO of the twenty units, West's first. -/
theorem State.readEvlog_vinfo {s : State} {m : Nat} (h : m < 20) :
    s.readEvlog (0x100 + 16 * m) = (s.au (if m < 10 then .west else .east) (m % 10)).vinfo := by
  have hm : (0x100 + 16 * m - 0x100) / 16 = m := by omega
  have h0 : (0x100 + 16 * m) % 16 = 0 := by omega
  refine (if_pos (by simp; omega)).trans ?_
  rw [hm, h0]
  rfl

/-- What a mirror shows of a unit, and how a manager arms it through the mirror. -/
theorem evlogMirror_of_unit {s : State} {f : Fn} {v : Word32} {w : Wing} {k n : Nat} (hk : k < 20)
    (hw : (if k < 10 then Wing.west else .east) = w) (hn : k % 10 = n) :
    s.readEvlog (0x100 + 16 * k) = (s.au w n).vinfo ∧
      (Manages s f (0x120100 + 16 * k) → bit32 v 0 = true →
        exec (.evlogVinfoClear f k v) s = .next (s.setAu w n { s.au w n with vinfo := (s.au w n).vinfo &&& 0xFFFFFFFE })) := by
  subst hw hn
  exact ⟨State.readEvlog_vinfo hk,
    fun hm hv => (execEvlogVinfoClear_of_manages hk hm).trans (next_congr (State.vinfoClear_of_set hv))⟩

/-- Settles O56: a violation by whether a capture stands, the arming by the register that it goes through. -/
theorem violationsAreCapturedOnce : Obligations.ViolationsAreCapturedOnce := by
  rintro w m k o i a n user _ f v s rfl
  refine ⟨State.violation_of_armed, bit32_w32_zero ?odd, State.violation_of_captured, ?clear, bit32_zero_of_cleared _, ?west, ?east⟩
  case odd => omega
  case clear => exact fun hm hu hv => (execAuVinfoClear_of_up hm hu).trans (next_congr (State.vinfoClear_of_set hv))
  case west =>
    rintro _ hn rfl
    exact evlogMirror_of_unit (by omega) (if_pos hn) (by omega)
  case east =>
    rintro _ hn rfl
    exact evlogMirror_of_unit (by omega) (if_neg (by omega)) (by omega)

end Sys2Proof.Machine
end

section
/-! SUPPORT. The phases of a hand-over to other Curator firmware (R473 to R475). -/

namespace Sys2Proof.Machine

section Handovers
variable {s : State}

/-- The parameters of HANDOVER_BEGIN name the other slot, with an image that is accepted, and a lead time in range, and nothing bars
a hand-over (R473). -/
structure HandsOver (s : State) (p : List Byte) : Prop where
  slot : byteAt p 0 ≤ 1
  lead : leAt p 1 2 = 0 ∨ (10 ≤ leAt p 1 2 ∧ leAt p 1 2 ≤ 1000)
  image : s.imageOk 0 (byteAt p 0) = true
  other : byteAt p 0 ≠ s.curatorSlot
  runs : s.stopped = false
  west : s.cont.orphanW = false
  east : s.cont.orphanE = false
  drained : s.cfgtx.state ≠ 2
  first : s.handingOver = false

theorem execHandoverBegin_of_handsOver {m : Sender} {ps : List Byte} (h : Heard s m 0x30 0) (hh : HandsOver s ((s.mailbox m).params ps))
    (hq : s.devPolicy.handoverQuorum = false) :
    execHandoverBegin m ps s =
      .next ((s.beginHandover (byteAt ((s.mailbox m).params ps) 0) (leAt ((s.mailbox m).params ps) 1 2)).2.2.replyTo m St.ok 0 []) := by
  obtain ⟨slot, lead, image, other, runs, west, east, drained, first⟩ := hh
  refine next_congr (State.message_of_ok h ?_)
  dsimp only
  rw [if_neg (by rcases lead with lead | lead <;> simp [slot, lead]), if_neg (by simp [image]), if_neg (by simp [other, runs, west, east]),
    if_neg (by simp [hq]), if_neg drained, if_neg (by simp [first])]
  rfl

theorem execHandoverPauseStart_of_due (hs : s.handover.state = 2) (ht : s.handover.since + 1000000 * s.handover.leadMs ≤ s.now) :
    execHandoverPauseStart s = .next { s with handover := { s.handover with state := 3, since := s.now } } :=
  next_congr (if_neg (by simp [hs]; omega))

/-- The outcome of the start checks ends the pause, either way. -/
theorem execHandoverSwitch_of_paused (hs : s.handover.state = 3) (hb : s.boot.inReset = false) (pass : Bool) :
    execHandoverSwitch pass s = .next ((if pass then s.takeOver else s.abandonHandover 1).raiseAll Cause.handoverDone).pumpAll :=
  next_congr (if_neg (by simp [hs, hb]))

end Handovers

/-- Settles O36: each message and each event of a hand-over finds the phase that it belongs to. -/
theorem handoversRunTheirPhases : Obligations.HandoversRunTheirPhases := by
  rintro m ps _ s rfl
  refine ⟨?begin, ?status, ?pending, ?pause, ?pass, ?fail⟩
  case begin =>
    intro h slot lead image other runs west east drained first hq
    exact execHandoverBegin_of_handsOver h ⟨slot, lead, image, other, runs, west, east, drained, first⟩ hq
  case status => exact fun h => next_congr (State.message_of_ok h rfl)
  case pending => exact fun hs => next_congr (if_neg (by simp [hs]))
  case pause => exact execHandoverPauseStart_of_due
  case pass => exact fun hs hb => execHandoverSwitch_of_paused hs hb true
  case fail => exact fun hs hb => execHandoverSwitch_of_paused hs hb false

end Sys2Proof.Machine
end

section
/-! SUPPORT. How units are fenced, tested, promoted and re-admitted (R444 to R453). -/

namespace Sys2Proof.Machine

section Units
variable {s : State} {u : UnitId}

theorem execUnitFence_of_cause {c : Nat} (hb : s.boot.inReset = false) (hs : s.stopped = false) (hk : u.kind ≠ Kind.curator) (h1 : 1 ≤ c)
    (h6 : c ≤ 6) : execUnitFence u c s = .next (s.fence u c).pumpAll :=
  next_congr (if_neg (by simp [hb, hs, hk]; omega))

theorem execUnitHandshakeTimeout_of_unit (hb : s.boot.inReset = false) (hs : s.stopped = false) (hk : u.kind ≠ Kind.curator) :
    execUnitHandshakeTimeout u s = .next (s.fence u 3).pumpAll :=
  next_congr (if_neg (by simp [hb, hs, hk]))

/-- A unit that is fenced stays as it is. -/
theorem State.fence_of_fenced (hf : (s.unit u).svc = .fenced) (c : Nat) : s.fence u c = s := if_pos (by simp [hf])

theorem execErrorCountDecay_of_due (hx : s.unitExists u = true) (he : (s.unit u).errors ≠ 0)
    (ht : (s.unit u).decayAt + s.decaySec * 1000000000 ≤ s.now) :
    execErrorCountDecay u s = .next (s.setUnit u { s.unit u with errors := (s.unit u).errors - 1, decayAt := s.now }) :=
  next_congr (if_neg (by simp [hx, he, ht]))

/-- A unit of the galleries that a test or a pass of the Conservator can act on. -/
structure InService (s : State) (u : UnitId) : Prop where
  up : s.boot.inReset = false
  runs : s.stopped = false
  kind : u.kind ≠ Kind.curator
  present : s.unitExists u = true
  unfenced : (s.unit u).svc ≠ .fenced

theorem execUnitKnownAnswerTest_of_failure (h : InService s u) : execUnitKnownAnswerTest u false s = .next (s.fence u 2).pumpAll :=
  next_congr ((if_neg (by simp [h.up, h.runs, h.kind, h.present, h.unfenced])).trans (if_neg (by simp)))

theorem execUnitKnownAnswerTest_of_pass (h : InService s u) :
    execUnitKnownAnswerTest u true s =
      .next ((s.yieldToSpare u).setUnit u { (s.yieldToSpare u).unit u with stFail := false }) :=
  next_congr ((if_neg (by simp [h.up, h.runs, h.kind, h.present, h.unfenced])).trans (if_pos rfl))

theorem execRecalibration_of_due (h : InService s u) (hd : s.recalDue = true) :
    execRecalibration u s =
      .next (let t := s.yieldToSpare u
             { t with cont := { t.cont with recalPass := false, recalAt := t.now, recalTemp := t.hottest } }) :=
  next_congr (if_neg (by simp [h.up, h.present, h.unfenced, hd]))

/-- The promotion that is due puts the unit's spare in its place (R450, R452). -/
theorem execSparePromotion_of_due {t : State} {sp : UnitId} (hs : s.stopped = false) (hn : s.nextPromotion = some (unitCode u))
    (ht : t = { s with cont := { s.cont with promoting := s.cont.promoting.filter (· != unitCode u) } }) (hsp : t.spareOf u = some sp) :
    execSparePromotion u s =
      .next (let r := t.setUnit sp { t.unit sp with svc := .inService, gen := nextGen (t.unit sp).gen, masked := (t.unit u).masked }
             (r.setUnit u { r.unit u with replaced := true, ask := false, masked := false }).pumpAll) := by
  subst ht
  refine next_congr ((if_neg (by simp [hn, hs])).trans ?_)
  dsimp only
  rw [hsp]

theorem execUnitReadmitComplete_of_failure (hr : (s.unit u).readmitting = true) (ho : s.ordersReach u.loc = true) :
    execUnitReadmitComplete u false s = .next (s.setUnit u { s.unit u with readmitting := false, stFail := true }) :=
  next_congr ((if_neg (by simp [hr, ho])).trans (if_pos rfl))

theorem execUnitReadmitComplete_of_pass (hr : (s.unit u).readmitting = true) (ho : s.ordersReach u.loc = true) :
    execUnitReadmitComplete u true s =
      .next (let x := s.unit u
             let t := s.setUnit u { x with svc := if x.replaced then .spare else .inService, gen := nextGen x.gen, readmitting := false,
                                           stFail := false, replaced := false, ask := false }
             let k := { t.cont with asks := t.cont.asks.filter (· != unitCode u), promoting := t.cont.promoting.filter (· != unitCode u) }
             ({ t with cont := k }).pumpAll) :=
  next_congr ((if_neg (by simp [hr, ho])).trans (if_neg (by simp)))

end Units

/-- Settles O44: a fence by its cause, a test and a re-admission by their outcome, a decay, a pass and a promotion by being due. -/
theorem unitsAreFencedTestedAndReplaced : Obligations.UnitsAreFencedTestedAndReplaced := by
  rintro u c _ s hb hs hk rfl
  refine ⟨?fence, ?timeout, ?fenced, ?decay, ?test, ?recal, ?promotion, ?fails, ?passes, rfl, ?generation⟩
  case fence => exact execUnitFence_of_cause hb hs hk
  case timeout => exact execUnitHandshakeTimeout_of_unit hb hs hk
  case fenced => exact fun hf => State.fence_of_fenced hf c
  case decay => exact execErrorCountDecay_of_due
  case test =>
    intro hx hf
    have h : InService s u := ⟨hb, hs, hk, hx, hf⟩
    exact ⟨execUnitKnownAnswerTest_of_failure h, execUnitKnownAnswerTest_of_pass h⟩
  case recal => exact fun hx hf => execRecalibration_of_due ⟨hb, hs, hk, hx, hf⟩
  case promotion => exact fun t sp => execSparePromotion_of_due hs
  case fails => exact execUnitReadmitComplete_of_failure
  case passes => exact execUnitReadmitComplete_of_pass
  case generation => exact fun g hg => if_neg (by omega)

end Sys2Proof.Machine
end

section
/-! SUPPORT. The Curator's vote, the links between the dies, and the split and return of a wing (R19, R175, R456 to R463). -/

namespace Sys2Proof.Machine

/-! ### The vote and the loss of the Curator (R456, R462) -/

section Votes
variable {s : State}

/-- The core that dissents from the other two is fenced, and two vote on. -/
theorem execVoteDisagreement_of_triple {o : Vote} {k : Nat} (hb : s.boot.inReset = false) (hv : s.cont.vote = .triple)
    (ho : o.dissenter = some k) (hk : k < 3) :
    execVoteDisagreement o s = .next ((s.fence ⟨20, Kind.curator, k⟩ 4).setVote .dual) := by
  refine next_congr ((if_neg (by simp [hb])).trans ?_)
  rw [hv, ho]
  exact if_neg (by omega)

/-- Two cores that disagree have no majority. -/
theorem execVoteDisagreement_of_dual (hb : s.boot.inReset = false) (hv : s.cont.vote = .dual) (o : Vote) :
    execVoteDisagreement o s = .next (s.setVote .lost).loseCurator := by
  refine next_congr ((if_neg (by simp [hb])).trans ?_)
  rw [hv]

theorem execBothWingsLost_of_lost (hb : s.boot.inReset = false) (hf : s.tamper.frozen = false)
    (hl : s.cont.vote = .lost ∨ (s.cont.orphanW = true ∧ s.cont.orphanE = true) ∨
      (s.cont.linkKeys = true ∧ s.cont.curW.up = false ∧ s.cont.curE.up = false)) :
    execBothWingsLost s = .next s.loseCurator := by
  refine next_congr (if_neg ?_)
  obtain hv | ⟨hw, he⟩ | ⟨hk, hw, he⟩ := hl
  · simp [hb, hf, hv]
  · simp [hb, hf, hw, he]
  · simp [hb, hf, hk, hw, he]

end Votes

/-! ### Links (R457) -/

section Links
variable {s : State} {l : Link} {e : LinkEnd}

theorem execHeartbeatSend_of_up (hk : s.cont.linkKeys = true) (hu : (s.link l).up = true) :
    execHeartbeatSend l e s = .next ((s.setLink l ((s.link l).beat e s.runNs)).emit (.heartbeat l e)) :=
  next_congr (if_neg (by simp [hk, hu]))

/-- An end that has heard nothing for 8 µs takes its link down. -/
theorem execLinkDownDeclare_of_silence (hu : (s.link l).up = true) (ht : (s.link l).rx e + 8000 ≤ s.runNs) :
    execLinkDownDeclare l e s =
      .next (let t := (s.setLink l { s.link l with up := false, cleanSince := none, lastRetrain := s.runNs }).countDown l
             let t := t.log 3 0 (dieSrc .curatorDie) [byte (linkCode l)]
             ((State.entropyChanged s (t.linkLost l)).markC0).pumpAll) := by
  have silent : ¬ s.runNs < (s.link l).rx e + linkSilenceNs := Nat.not_lt.mpr ht
  exact next_congr (if_neg (by simp [hu, silent]))

/-- A link is down, with no clean traffic and no retraining in the last millisecond. -/
structure Retrains (s : State) (l : Link) : Prop where
  down : (s.link l).up = false
  keys : s.cont.linkKeys = true
  dirty : (s.link l).cleanSince = none
  rested : (s.link l).lastRetrain + 1000000 ≤ s.runNs

theorem execLinkRetrain_of_key (h : Retrains s l) (hk : (s.link l).key ≠ none) :
    execLinkRetrain l s =
      .next (s.setLink l { s.link l with cleanSince := some s.runNs, lastRetrain := s.runNs, rxFirst := s.runNs, rxSecond := s.runNs }) :=
  next_congr ((if_neg (by simp [h.down, h.keys, h.dirty, h.rested])).trans (if_neg (by simpa using hk)))

theorem State.keyLink_of_drbg (hg : s.drbgOk .curator = true) :
    s.keyLink l = (s.drawFrom .curator 32).2.setLink l { s.link l with key := some (s.drawFrom .curator 32).1 } :=
  if_pos hg

/-- A link without a key draws one before it retrains (log entry 60). -/
theorem execLinkRetrain_of_no_key (h : Retrains s l) (hk : (s.link l).key = none) (hg : s.drbgOk .curator = true) :
    execLinkRetrain l s =
      .next ((s.drawFrom .curator 32).2.setLink l { s.link l with key := some (s.drawFrom .curator 32).1 }) :=
  next_congr ((if_neg (by simp [h.down, h.keys, h.dirty, h.rested])).trans ((if_pos (by simp [hk])).trans (State.keyLink_of_drbg hg)))

/-- Ten milliseconds of clean traffic bring a link up. -/
theorem execLinkUpDeclare_of_clean {t : Nat} (hc : (s.link l).cleanSince = some t) (h1 : s.runNs < (s.link l).rxFirst + 8000)
    (h2 : s.runNs < (s.link l).rxSecond + 8000) (hu : (s.link l).up = false) (ht : t + 10000000 ≤ s.runNs) :
    execLinkUpDeclare l s =
      .next (State.entropyChanged s (s.setLink l { s.link l with up := true, upAt := s.now, cleanSince := none })).pumpAll := by
  unfold execLinkUpDeclare
  dsimp only
  rw [hc]
  exact next_congr ((if_neg (by simp [linkSilenceNs, h1, h2])).trans (if_neg (by simp [hu, ht])))

end Links

/-! ### Orphans and wing resets (R19, R175, R460 to R463) -/

section Wings
variable {s : State} {w : Wing}

theorem execOrphanDetect_of_cut (hb : s.boot.inReset = false) (ho : s.orphan w = false) (hr : s.reaches w = false)
    (hk : s.cont.linkKeys = true) :
    execOrphanDetect w s =
      .next (let t := (((s.setOrphan w true).setAdmitted w false).raiseSplit).retireBlocks w
             let t := t.setStoreWing w { t.storeWing w with stale := true }
             let t := (t.log 3 St.splitOrphan (dieSrc (wingDie w)) []).abandonHandover 2
             ((State.entropyChanged s t).markC0).pumpAll) :=
  next_congr (if_neg (by simp [ho, hr, hk, hb]))

/-- No lease of the wing still runs. -/
theorem State.loanList_any_running_eq_false (hl : ∀ p ∈ s.loanList, p.2.wing = w → p.2.from_ + p.2.leaseNs ≤ s.runNs) :
    (s.loanList.any fun p => p.2.wing == w && s.runNs < p.2.from_ + p.2.leaseNs) = false := by
  refine List.any_eq_false.mpr fun p hp => ?_
  simpa using hl p hp

theorem execOrphanHalt_of_ended_leases (ho : s.orphan w = true) (hh : s.halted w = false) (hr : s.returning w = false)
    (hl : ∀ p ∈ s.loanList, p.2.wing = w → p.2.from_ + p.2.leaseNs ≤ s.runNs) :
    execOrphanHalt w s =
      .next (let t := (s.endJobs (fun _ j => j.wing == w || galleryWing j.gallery == w) St.splitOrphan).dropGensOn fun g => galleryWing g == w
             let t := t.forAll (t.portPages w) fun t p => t.endPage p St.splitOrphan
             let t := State.entropyChanged s (((t.wipeGate w).wipeGenerators (t.poolDrbgs (.wing w)) (t.poolMasks (.wing w))).dropReady w)
             let t := t.setDoc w { t.doc w with running := false }
             (((t.forAll (portFns w) fun t f => t.setReady f false).setDesk w false).setHalted w true).pumpAll) :=
  next_congr (if_neg (by rw [State.loanList_any_running_eq_false hl]; simp [ho, hh, hr]))

theorem execWingReset_of_curator (hb : s.boot.inReset = false) (hs : s.stopped = false) (hc : s.hasCurator w = true) :
    execWingReset w s = .next (s.wingDown w).pumpAll :=
  next_congr (if_neg (by simp [hb, hs, hc]))

/-- The tree is new and the copy is refreshed when a wing returns (log entry 61). -/
theorem execWingReadmission_of_stable (hb : s.boot.inReset = false) (ho : s.orphan w = true) (hr : s.returning w = false)
    (hp : s.pathStable w = true) (hg : s.drbgOk .curator = true) (hs : s.stopped = false) :
    execWingReadmission w s =
      .next (let t := ((s.wingDown w).setHalted w false).newTree w
             let t := { t with store := { t.store with refresh := true } }
             ((t.setDoc w { t.doc w with running := true }).setReturning w true).pumpAll) :=
  next_congr (if_neg (by simp [ho, hr, hp, hg, hs, hb]))

end Wings

/-- Settles O46: a vote by the cores that still vote, a link by its state and its traffic, a wing by what it reaches. -/
theorem linksVotesAndSplits : Obligations.LinksVotesAndSplits := by
  intro w l e k o s hb
  refine ⟨?triple, ?dual, ?bothLost, ?heartbeat, ?down, ?retrain, ?up, ?detect, ?halt, ?reset, ?readmission⟩
  case triple => exact execVoteDisagreement_of_triple hb
  case dual => exact fun hv => execVoteDisagreement_of_dual hb hv o
  case bothLost => exact execBothWingsLost_of_lost hb
  case heartbeat => exact execHeartbeatSend_of_up
  case down => exact execLinkDownDeclare_of_silence
  case retrain =>
    intro hu hk hc ht
    have h : Retrains s l := ⟨hu, hk, hc, ht⟩
    exact ⟨execLinkRetrain_of_key h, execLinkRetrain_of_no_key h⟩
  case up => exact fun t => execLinkUpDeclare_of_clean
  case detect => exact execOrphanDetect_of_cut hb
  case halt => exact execOrphanHalt_of_ended_leases
  case reset => exact execWingReset_of_curator hb
  case readmission => exact execWingReadmission_of_stable hb

end Sys2Proof.Machine
end

section
/-! SUPPORT. How a configuration transaction opens, commits, drains and ends (R464 to R470). -/

namespace Sys2Proof.Machine

/-- The writer may reach CFGTX_CTRL: a managing PF, or a supervisor whose cluster runs and reaches the Curator (R464, log entry 62). -/
structure TxReaches (s : State) (b : TxWriter) : Prop where
  host : ∀ f, b = .host f → Manages s f 0x110000
  supervisor : ∀ w, b = .supervisor w → s.supervisorUp w = true

section Transactions
variable {s : State} {b : TxWriter}

theorem State.txControl_of (h : TxReaches s b) (k : State → State) : s.txControl b k = k s := by
  cases b with
  | host f => exact State.mgmtWrite_of (h.host f rfl) k
  | supervisor w => exact if_neg (by simp [h.supervisor w rfl])

theorem execCfgtxBegin_of_idle {c : Nat} (h : TxReaches s b) (hs : s.cfgtx.state = 0) (hc : txCode b = some c) :
    execCfgtxBegin b s =
      .next { s with cfgtx := { s.cfgtx with state := 1, owner := c, staged := [], items := [], lastWrite := s.now } } := by
  refine next_congr ((State.txControl_of h _).trans ?_)
  rw [hc]
  exact if_neg (by simp [hs])

theorem execCfgtxBegin_of_open (h : TxReaches s b) (hs : s.cfgtx.state ≠ 0) (hc : (txCode b).isSome = true) :
    execCfgtxBegin b s = .next (s.txLocked b) := by
  obtain ⟨c, hc⟩ := Option.isSome_iff_exists.mp hc
  refine next_congr ((State.txControl_of h _).trans ?_)
  rw [hc]
  exact if_pos (by simp [hs])

theorem execCfgtxAbort_of_owner (h : TxReaches s b) (hs : s.cfgtx.state ≠ 0) (ho : txCode b = some s.cfgtx.owner) :
    execCfgtxAbort b s = .next (s.endTransaction s.cfgtx.result).pumpAll :=
  next_congr ((State.txControl_of h _).trans (if_neg (by simp [hs, ho])))

theorem execCfgtxCommit_of_other {l : Option (List Byte)} (h : TxReaches s b) (ho : s.ownsTx b = false) :
    execCfgtxCommit b l s = .next (s.txLocked b) :=
  next_congr ((State.txControl_of h _).trans (if_pos (by simp [ho])))

theorem execCfgtxCommit_of_handover {l : Option (List Byte)} (h : TxReaches s b) (ho : s.ownsTx b = true) (hs : s.stopped = false)
    (hh : s.handingOver = true) : execCfgtxCommit b l s = .next (s.failCommit St.handoverPause 0) :=
  next_congr ((State.txControl_of h _).trans ((if_neg (by simp [ho])).trans ((if_neg (by simp [hs])).trans (if_pos hh))))

/-- What a commit of a list does, once its owner may commit: the checks of R466, on the state in which the random bases are drawn. -/
def State.commitList (t : State) (x : List Byte) (bases : List (List Byte × List Byte)) : State :=
  match t.validate x bases with
  | .error e => ((if e.1 == St.badProgram then t.logProgram (match t.check4 x with | .ok l => l.map (·.2) | .error _ => []) else t).failCommit
      e.1 e.2).pumpAll
  | .ok l => t.beginDrain l

theorem execCfgtxCommit_of_list {l : Option (List Byte)} {x : List Byte} (h : TxReaches s b) (ho : s.ownsTx b = true) (hs : s.stopped = false)
    (hh : s.handingOver = false) (hl : s.cfgtx.listBytes l = some x) :
    execCfgtxCommit b l s = .next ((s.drawBases x).2.commitList x (s.drawBases x).1) := by
  refine next_congr ((State.txControl_of h _).trans ((if_neg (by simp [ho])).trans ((if_neg (by simp [hs])).trans
    ((if_neg (by simp [hh])).trans ?_))))
  rw [hl]
  rfl

/-- An open transaction in which nothing was written for its time is aborted. -/
theorem execCfgtxIdleExpiry_of_idle (hs : s.cfgtx.state = 1) (ht : s.cfgtx.lastWrite + bits32 s.cfgtx.cfg 16 10 * 1000000000 ≤ s.now) :
    execCfgtxIdleExpiry s = .next (s.endTransaction s.cfgtx.result).pumpAll := by
  have idle : ¬ s.now < s.cfgtx.lastWrite + s.cfgtx.idleNs := Nat.not_lt.mpr ht
  exact next_congr (if_neg (by simp [hs, idle]))

theorem execCfgtxDrainTimeout_of_late (hs : s.cfgtx.state = 2) (hr : s.cfgtx.retire = false) (hd : s.cfgtx.drained = false)
    (he : s.drainEmpty = false) (ht : s.cfgtx.commitAt + bits32 s.cfgtx.cfg 0 10 * 1000000 ≤ s.runNs) :
    execCfgtxDrainTimeout s = .next (s.failCommit St.epochBusy 0).pumpAll := by
  have late : ¬ s.runNs < s.cfgtx.commitAt + s.cfgtx.drainNs := Nat.not_lt.mpr ht
  exact next_congr (if_neg (by simp [hs, hr, hd, he, late]))

theorem execCfgtxDrainComplete_of_empty (hs : s.cfgtx.state = 2) (he : s.drainEmpty = true) (ht : s.stopped = false)
    (hm : s.microcodeItem = false) (hl : s.cfgtx.toLoad = []) : execCfgtxDrainComplete s = .next s.switch :=
  next_congr ((if_neg (by simp [hs, he, ht])).trans ((if_neg (by simp [hm])).trans (if_neg (by simp [hl]))))

end Transactions

/-- Settles O47: each write of CFGTX_CTRL by who writes it and whether a transaction is open, a commit further by its checks, and each
end in time by what is due. -/
theorem transactionsBeginCommitAndEnd : Obligations.TransactionsBeginCommitAndEnd := by
  intro b l s hh hw _
  have reaches : TxReaches s b := ⟨hh, hw⟩
  refine ⟨?begin, ?locked, ?abort, ?other, ?commit, ?fails, ?handover, ?idle, ?timeout, ?switch⟩
  case begin => exact fun c => execCfgtxBegin_of_idle reaches
  case locked =>
    rintro f rfl
    exact execCfgtxBegin_of_open reaches
  case abort => exact execCfgtxAbort_of_owner reaches
  case other =>
    rintro ho f rfl
    exact execCfgtxCommit_of_other reaches ho
  case commit =>
    rintro x i _ ho hs hg hl rfl hv
    refine (execCfgtxCommit_of_list reaches ho hs hg hl).trans (next_congr ?_)
    unfold State.commitList
    rw [hv]
  case fails =>
    rintro x st at_ _ ho hs hg hl rfl hv hst
    refine (execCfgtxCommit_of_list reaches ho hs hg hl).trans (next_congr ?_)
    unfold State.commitList
    rw [hv]
    dsimp only
    rw [if_neg (by simp [hst])]
  case handover => exact execCfgtxCommit_of_handover reaches
  case idle => exact execCfgtxIdleExpiry_of_idle
  case timeout => exact execCfgtxDrainTimeout_of_late
  case switch => exact execCfgtxDrainComplete_of_empty

end Sys2Proof.Machine
end

section
/-! SUPPORT. What an access of a Docent master answers once its unit has checked it (R484, R490 to R493). -/

namespace Sys2Proof.Machine

section Masters
variable {s : State} {w : Wing} {c o : Nat} {x : Access} {g : GateOutcome}

theorem execDocentAccess_of_up (hc : c < 8) (hu : s.coreUp w c = true) (hl : x.len ≠ 0) :
    execDocentAccess w c x g s = .next (s.masterAccess w c x g) :=
  next_congr (if_neg (by simp [coreOk, hc, hu, hl]))

theorem execDocentDmaBurst_of_up (hu : s.docentUp w = true) (hl : x.len ≠ 0) (hs : x.len ≤ 256 ∨ (x.len = 4096 ∧ x.addr % 4096 = 0))
    (hf : x.op ≠ .fetch) : execDocentDmaBurst w x g s = .next (s.masterAccess w 8 x g) := by
  have hpos : 0 < x.len := Nat.pos_of_ne_zero hl
  refine next_congr (if_neg ?_)
  rcases hs with hs | hs <;> simp [hpos, hs, hu, hf]

theorem execDebugPortAccess_of_up (hb : s.boot.inReset = false) (hl : x.len ≠ 0) :
    execDebugPortAccess w x g s = .next (s.masterAccess w 9 x g) :=
  next_congr (if_neg (by simp [State.masterUp, hb, hl]))

/-- Only a core's access can be a user's. -/
theorem not_user_of_other_master {m : Nat} (hm : ¬ m < 8) (user : Bool) : (user && decide (m < 8)) = false := by simp [hm]

/-- An access that its unit lets through is performed at its target. -/
theorem State.masterAccess_of_ok {t : DocTarget} (ha : s.auCheck w c x.op x.addr x.len (x.user && c < 8) = .ok t) :
    s.masterAccess w c x g = (s.docPerform w c x g t).2.2.emit (.access w c (s.docPerform w c x g t).2.1 (s.docPerform w c x g t).1) := by
  unfold State.masterAccess
  dsimp only
  rw [ha]

/-- A read that its unit refuses is a violation, and answers an error and zeros. -/
theorem State.masterAccess_of_refused_read {k i : Nat} (ho : x.op = .read)
    (ha : s.auCheck w c x.op x.addr x.len (x.user && c < 8) = .error (k, i)) :
    s.masterAccess w c x g =
      (s.violation w c k 0 (x.user && c < 8) i x.addr).emit (.access w c true (zeros x.len)) := by
  unfold State.masterAccess
  dsimp only
  rw [ha, ho]
  rfl

theorem State.masterAccess_read_shared (ho : x.op = .read)
    (ha : s.auCheck w c x.op x.addr x.len (x.user && c < 8) = .ok (.shared o)) :
    s.masterAccess w c x g = s.emit (.access w c false (Tbl.readBytes 0 (s.doc w).shared o x.len)) := by
  rw [State.masterAccess_of_ok ha]
  simp [State.docPerform, State.docMemRead, ho]

theorem State.masterAccess_write_shared (ho : x.op = .write)
    (ha : s.auCheck w c x.op x.addr x.len (x.user && c < 8) = .ok (.shared o)) :
    s.masterAccess w c x g =
      (s.setDoc w { s.doc w with shared := Tbl.writeBytes 0 (s.doc w).shared o (padTo x.len x.data) }).emit (.access w c false []) := by
  rw [State.masterAccess_of_ok ha]
  simp [State.docPerform, State.docMemWrite, ho]

theorem State.masterAccess_read_local {k : Nat} (ho : x.op = .read)
    (ha : s.auCheck w c x.op x.addr x.len (x.user && c < 8) = .ok (.local_ k o)) :
    s.masterAccess w c x g = s.emit (.access w c false (Tbl.readBytes 0 (s.doc w).local_ (k * 2 ^ 18 + o) x.len)) := by
  rw [State.masterAccess_of_ok ha]
  simp [State.docPerform, State.docMemRead, ho]

/-- A read of a tile that fails is that tile's failure, and answers an error and zeros (R388, R492). -/
theorem State.masterAccess_read_failed_store {st : Byte} (ho : x.op = .read)
    (ha : s.auCheck w c x.op x.addr x.len (x.user && c < 8) = .ok (.store o)) (hf : s.storeFail w o x.len false g = some st) :
    s.masterAccess w c x g = (s.docentFailure w c o st).emit (.access w c true (zeros x.len)) := by
  have hw : (x.op == AccessOp.write) = false := by rw [ho]; rfl
  rw [State.masterAccess_of_ok ha]
  simp [State.docPerform, hw, hf]

end Masters

/-- Settles O49: each access passes to its unit, and then splits by what the unit answers and by the operation. -/
theorem docentMastersAccessMemory : Obligations.DocentMastersAccessMemory := by
  intro w c x g s hl
  refine ⟨?core, ?dma, ?debug, ?store⟩
  case core =>
    rintro _ ⟨rfl, hc, hu⟩
    have reaches := execDocentAccess_of_up (g := g) hc hu hl
    refine ⟨?read, ?write, ?refused⟩
    case read => exact fun o ha ho => reaches.trans (next_congr (State.masterAccess_read_shared ho ha))
    case write => exact fun o ha ho => reaches.trans (next_congr (State.masterAccess_write_shared ho ha))
    case refused => exact fun k i ha ho => reaches.trans (next_congr (State.masterAccess_of_refused_read ho ha))
  case dma =>
    intro o hu hs ha
    rw [← not_user_of_other_master (by decide : ¬ 8 < 8) x.user] at ha
    exact ⟨fun ho => (execDocentDmaBurst_of_up hu hl hs (by simp [ho])).trans (next_congr (State.masterAccess_write_shared ho ha)),
      fun ho => (execDocentDmaBurst_of_up hu hl hs (by simp [ho])).trans (next_congr (State.masterAccess_read_shared ho ha))⟩
  case debug =>
    intro o hb ha ho
    rw [← not_user_of_other_master (by decide : ¬ 9 < 8) x.user] at ha
    exact (execDebugPortAccess_of_up hb hl).trans (next_congr (State.masterAccess_read_local ho ha))
  case store =>
    intro o st hu hc ha ho hf
    exact (execDocentAccess_of_up hc hu hl).trans (next_congr (State.masterAccess_read_failed_store ho ha hf))

end Sys2Proof.Machine
end

section
/-! SUPPORT. The commands of a card slot, each in the states that it is for (R497, R498, R501, R505 to R509). -/

namespace Sys2Proof.Machine

section Contacts
variable {s : State} {n : Nat}

theorem execCardInsertion_of_absent (hn : n < 2) (hp : (s.card n).present = false) :
    execCardInsertion n s =
      .next (s.setCard n { s.card n with
        present := true, irq := (s.card n).irq ||| 2, state := if (s.card n).state = .empty then .present else (s.card n).state }) := by
  refine next_congr ((if_neg (by simp [cardOk, hn, hp])).trans ?_)
  simp only [beq_iff_eq]

/-- A removal ends the command that runs with CARD_GONE. -/
theorem execCardRemoval_of_busy (hn : n < 2) (hp : (s.card n).present = true) (hb : (s.card n).busy = true)
    (hs : (s.card n).state ≠ .present) :
    execCardRemoval n s =
      .next (s.setCard n { (Card.finish { s.card n with present := false, irq := (s.card n).irq ||| 6 } Cr.cardGone).toDeactivating s.now
        with next := 0 }) := by
  refine next_congr ((if_neg (by simp [cardOk, hn, hp])).trans ?_)
  dsimp only
  rw [if_pos hb, if_neg (by simpa [Card.finish] using hs)]

theorem execCardRemoval_of_present (hn : n < 2) (hp : (s.card n).present = true) (hb : (s.card n).busy = false)
    (hs : (s.card n).state = .present) :
    execCardRemoval n s =
      .next (s.setCard n { s.card n with present := false, irq := (s.card n).irq ||| 6, state := .empty, next := 0 }) := by
  refine next_congr ((if_neg (by simp [cardOk, hn, hp])).trans ?_)
  dsimp only
  have idle : ¬ (s.card n).busy = true := by simp [hb]
  rw [if_neg idle, if_pos (by simp [hs])]

end Contacts

section Commands
variable {s : State} {n : Nat}

theorem State.cardActivate_of_present (hn : n < 2) (hb : (s.card n).busy = false) (hp : (s.card n).present = true)
    (hs : (s.card n).state = .present) :
    s.cardActivate n =
      s.cardPowerUp n { s.card n with ppsFailed := false, triedB := (s.card n).classMode = 1 } (if (s.card n).classMode = 1 then 2 else 1) :=
  (if_neg (by simp [cardOk, hn, hb])).trans ((if_neg (by simp [hp])).trans (if_neg (by simp [hs])))

theorem State.cardActivate_of_absent (hn : n < 2) (hb : (s.card n).busy = false) (hp : (s.card n).present = false) :
    s.cardActivate n = s.setCard n ((s.card n).finish Cr.noCard) :=
  (if_neg (by simp [cardOk, hn, hb])).trans (if_pos (by simp [hp]))

theorem State.cardDeactivate_of_idle (hn : n < 2) (hb : (s.card n).busy = false) :
    s.cardDeactivate n = s.setCard n (((s.card n).finish Cr.ok).toDeactivating s.now) :=
  (if_neg (by simp [cardOk, hn])).trans (if_neg (by simp [hb]))

theorem State.cardWarmReset_of_active (hn : n < 2) (hb : (s.card n).busy = false) (hs : (s.card n).state = .active) :
    s.cardWarmReset n =
      s.setCard n { s.card n with
        state := .activating, busy := true, phase := .atr, atr := [], ppsGot := [], ppsFailed := false, sent := 0, got := 0,
        repeats := 0, params := 0x000A0011, since := s.now } :=
  if_neg (by simp [cardOk, hn, hb, hs])

/-- What a slot sends is a character on IO, from the moment that its edge is driven. -/
theorem State.cardSend_of_toSend {c : Card} {b : Byte} (hc : c.toSend = some b) :
    s.cardSend n c = (s.setCard n { c with since := s.now }).emit (.cardChar n b) := by
  unfold State.cardSend
  dsimp only
  rw [hc]

theorem State.cardSend_of_none {c : Card} (hc : c.toSend = none) : s.cardSend n c = s.setCard n { c with since := s.now } := by
  unfold State.cardSend
  dsimp only
  rw [hc]

theorem Card.toSend_of_header {c : Card} (hp : c.phase = .header) (hs : c.sent < 4) :
    c.toSend = some (byte (bits32 c.hdr (8 * c.sent) 8)) := by
  unfold Card.toSend
  rw [hp]
  exact if_pos hs

theorem Card.toSend_of_p3 {c : Card} (hp : c.phase = .header) (hs : c.sent = 4) : c.toSend = some (byte (bits32 c.p3 0 8)) := by
  unfold Card.toSend
  rw [hp]
  exact (if_neg (by omega)).trans (if_pos hs)

theorem Card.toSend_of_proc {c : Card} (hp : c.phase = .proc) : c.toSend = none := by
  unfold Card.toSend
  rw [hp]

/-- START of an active or sleeping card sends the first header byte (R502). -/
theorem State.cardStart_of_active (hn : n < 2) (hb : (s.card n).busy = false)
    (hs : (s.card n).state = .active ∨ (s.card n).state = .sleep) :
    s.cardStart n =
      (s.setCard n { s.card n with
        busy := true, phase := .header, state := .active, sent := 0, got := 0, procSeen := false, swSeen := false, repeats := 0,
        aborting := false, since := s.now }).emit (.cardChar n (byte (bits32 (s.card n).hdr 0 8))) :=
  (if_neg (by simp [cardOk, hn, hb])).trans ((if_pos (by rcases hs with hs | hs <;> simp [hs])).trans
    (State.cardSend_of_toSend (Card.toSend_of_header rfl (Nat.succ_pos 3))))

theorem State.cardStart_of_inactive (hn : n < 2) (hb : (s.card n).busy = false) (ha : (s.card n).state ≠ .active)
    (hs : (s.card n).state ≠ .sleep) : s.cardStart n = s.setCard n ((s.card n).finish Cr.notActive) :=
  (if_neg (by simp [cardOk, hn, hb])).trans (if_neg (by simp [ha, hs]))

theorem State.cardClkStop_of_active (hn : n < 2) (hb : (s.card n).busy = false) (hs : (s.card n).state = .active)
    (hm : (s.card n).clkStopMode ≠ 0) : s.cardClkStop n = s.setCard n { (s.card n).finish Cr.ok with state := .sleep } :=
  (if_neg (by simp [cardOk, hn, hb])).trans ((if_neg (by simp [hs])).trans (if_neg hm))

theorem State.cardWake_of_sleep (hn : n < 2) (hb : (s.card n).busy = false) (hs : (s.card n).state = .sleep) :
    s.cardWake n = s.setCard n { (s.card n).finish Cr.ok with state := .active } :=
  if_neg (by simp [cardOk, hn, hb, hs])

/-- ABORT ends the command at once unless a character is being sent (R508). -/
theorem State.cardAbort_of_active (hn : n < 2) (hs : (s.card n).state = .active ∨ (s.card n).state = .activating) :
    s.cardAbort n = if (s.card n).toSend.isSome then s.setCard n { s.card n with aborting := true }
      else s.setCard n ((s.card n).fail Cr.aborted s.now) :=
  if_neg (by rcases hs with hs | hs <;> simp [cardOk, hn, hs])

/-- A busy slot takes no command but DEACTIVATE and ABORT. -/
theorem exec_of_busy_slot (hb : (s.card n).busy = true) :
    ∀ i ∈ [Instr.cardActivate n, .cardWarmReset n, .cardStart n, .cardClkStop n, .cardWake n], exec i s = .next s := by
  have busy {p q : Bool} {t : State} : (if p || (s.card n).busy || q then s else t) = s := if_pos (by simp [hb])
  have busy' {p : Bool} {t : State} : (if p || (s.card n).busy then s else t) = s := if_pos (by simp [hb])
  simp only [List.forall_mem_cons]
  refine ⟨?activate, ?warmReset, ?start, ?clkStop, ?wake, List.forall_mem_nil _⟩
  case activate => exact next_congr busy'
  case warmReset => exact next_congr busy
  case start => exact next_congr busy'
  case clkStop => exact next_congr busy'
  case wake => exact next_congr busy

end Commands

/-- Settles O51: each command by the state of its slot, START and ABORT further by the character that the slot sends. -/
theorem cardSlotsTakeTheirCommands : Obligations.CardSlotsTakeTheirCommands := by
  rintro n _ v s hn rfl
  refine ⟨?insertion, ?removal, ?removalIdle, ?activate, ?noCard, ?deactivate, ?warmReset, ?start, ?notActive, ?clkStop, ?wake, ?abort,
    ?abortLater, ?busy, ?result, ?irq⟩
  case insertion => exact execCardInsertion_of_absent hn
  case removal => exact execCardRemoval_of_busy hn
  case removalIdle => exact execCardRemoval_of_present hn
  case activate => exact fun hb hp hs => next_congr (State.cardActivate_of_present hn hb hp hs)
  case noCard => exact fun hb hp => next_congr (State.cardActivate_of_absent hn hb hp)
  case deactivate => exact fun hb => next_congr (State.cardDeactivate_of_idle hn hb)
  case warmReset => exact fun hb hs => next_congr (State.cardWarmReset_of_active hn hb hs)
  case start => exact fun hb hs => next_congr (State.cardStart_of_active hn hb hs)
  case notActive => exact fun hb ha hs => next_congr (State.cardStart_of_inactive hn hb ha hs)
  case clkStop => exact fun hb hs hm => next_congr (State.cardClkStop_of_active hn hb hs hm)
  case wake => exact fun hb hs => next_congr (State.cardWake_of_sleep hn hb hs)
  case abort => exact fun hs ht => next_congr ((State.cardAbort_of_active hn hs).trans (if_neg (by simp [ht])))
  case abortLater =>
    exact fun hs ht => next_congr ((State.cardAbort_of_active hn hs).trans (if_pos (Option.isSome_iff_ne_none.mpr ht)))
  case busy => exact exec_of_busy_slot
  case result => exact next_congr (if_neg (by simp [cardOk, hn]))
  case irq => exact next_congr (if_neg (by simp [cardOk, hn]))

end Sys2Proof.Machine
end

section
/-! SUPPORT. The characters that a busy slot exchanges with its card, and the times that it keeps (R498 to R504). -/

namespace Sys2Proof.Machine

section Received
variable {s : State} {n : Nat} {b : Byte} {c : Card}

theorem execCardCharacterReceive_of_good (hn : n < 2) (hb : (s.card n).busy = true) :
    execCardCharacterReceive n b true s = .next (s.cardChar n (s.card n) b) :=
  next_congr ((if_neg (by simp [cardOk, hn, hb])).trans (if_pos rfl))

theorem execCardCharacterReceive_of_bad (hn : n < 2) (hb : (s.card n).busy = true) :
    execCardCharacterReceive n b false s = .next (s.cardParity n (s.card n)) :=
  next_congr ((if_neg (by simp [cardOk, hn, hb])).trans (if_neg (by decide)))

theorem State.cardChar_of_proc (ha : c.aborting = false) (hp : c.phase = .proc) :
    s.cardChar n c b = s.procByte n { c with repeats := 0 } b := by
  refine (if_neg (by simp [ha])).trans ?_
  dsimp only
  rw [hp]

theorem State.cardChar_of_sw2 (ha : c.aborting = false) (hp : c.phase = .sw2) :
    s.cardChar n c b = s.sw2Byte n { c with repeats := 0 } b := by
  refine (if_neg (by simp [ha])).trans ?_
  dsimp only
  rw [hp]

/-- A data byte that the slot takes alone is stored, and the next procedure byte awaited. -/
theorem State.cardChar_of_one_byte (ha : c.aborting = false) (hp : c.phase = .data true) (hr : c.receives = true) :
    s.cardChar n c b =
      s.setCard n { c with repeats := 0, data := Tbl.set 0 c.data (c.got % 256) b, got := c.got + 1, since := s.now, phase := .proc } := by
  refine (if_neg (by simp [ha])).trans ?_
  dsimp only
  rw [hp]
  exact (if_neg (by simpa [Card.receives] using hr)).trans (congrArg (s.setCard n) (if_pos (by simp)))

theorem State.procByte_of_null (h : b = 0x60) : s.procByte n c b = s.setCard n { c with procSeen := true, since := s.now } :=
  if_pos (beq_iff_eq.mpr h)

/-- A byte of 0x6X or 0x9X that is no other procedure byte is SW1. -/
theorem State.procByte_of_sw1 (hs : b.toNat / 16 = 6 ∨ b.toNat / 16 = 9) (h60 : b ≠ 0x60) (hi : b ≠ c.ins) (hx : b ≠ c.ins ^^^ 0xFF) :
    s.procByte n c b =
      s.setCard n { c with procSeen := true, since := s.now, swSeen := true, sw1 := b, phase := .sw2 } := by
  have hi' : ¬ (b == Card.ins { c with procSeen := true, since := s.now }) = true := fun h => hi (eq_of_beq h)
  have hx' : ¬ (b == Card.ins { c with procSeen := true, since := s.now } ^^^ 0xFF) = true := fun h => hx (eq_of_beq h)
  exact (if_neg fun h => h60 (eq_of_beq h)).trans ((if_neg hi').trans ((if_neg hx').trans (if_pos (by simpa using hs))))

theorem State.sw2Byte_of_goes_on (he : c.endAfter = false) :
    s.sw2Byte n c b = s.setCard n (Card.finish { c with sw := w32 (c.sw1.toNat + b.toNat * 256 + c.got % 512 * 65536) } Cr.ok) :=
  congrArg (s.setCard n) (if_neg (by simp [he]))

/-- A procedure byte with a parity error is asked for again until the retries are spent (R503). -/
theorem State.cardParity_of_proc (hp : c.phase = .proc) :
    s.cardParity n c = if c.repeats ≥ c.retries then s.setCard n (c.fail Cr.parity s.now)
      else (s.setCard n { c with repeats := c.repeats + 1, since := s.now }).emit (.cardError n) := by
  refine (if_neg ?_).trans rfl
  rw [hp]
  exact Bool.false_ne_true

end Received

section Sent
variable {s : State} {n : Nat}

/-- The slot sends five characters of a header: the four of CARD_HDR, and P3. -/
theorem Card.sends_of_header {c : Card} (hp : c.phase = .header) (hs : c.sent < 5) : c.toSend.isNone = false := by
  rcases Nat.lt_succ_iff_lt_or_eq.mp hs with hs | hs
  · rw [Card.toSend_of_header hp hs]; rfl
  · rw [Card.toSend_of_p3 hp hs]; rfl

/-- A character of the header that has gone through is followed by the next, P3 after the four of CARD_HDR, and the wait last. -/
theorem execCardCharacterSent_of_header (hn : n < 2) (hb : (s.card n).busy = true) (ha : (s.card n).aborting = false)
    (hp : (s.card n).phase = .header) (hs : (s.card n).sent < 5) :
    execCardCharacterSent n false s =
      .next (s.cardSend n (if (s.card n).sent + 1 ≥ 5 then { s.card n with sent := (s.card n).sent + 1, repeats := 0, phase := .proc }
        else { s.card n with sent := (s.card n).sent + 1, repeats := 0 })) := by
  refine next_congr ((if_neg (by simp [cardOk, hn, hb, Card.sends_of_header hp hs])).trans ((if_neg (by decide)).trans
    ((if_neg (by simp [ha])).trans ?_)))
  dsimp only
  rw [hp]

theorem execCardCharacterSent_of_spent (hn : n < 2) (hb : (s.card n).busy = true) (ha : (s.card n).aborting = false)
    (hp : (s.card n).phase = .header) (hs : (s.card n).sent < 5) (hr : (s.card n).retries ≤ (s.card n).repeats) :
    execCardCharacterSent n true s = .next (s.setCard n ((s.card n).fail Cr.parity s.now)) :=
  next_congr ((if_neg (by simp [cardOk, hn, hb, Card.sends_of_header hp hs])).trans ((if_pos rfl).trans ((if_neg (by simp [ha])).trans
    (if_pos hr))))

end Sent

section Times
variable {s : State} {n : Nat}

theorem execCardVccTimeout_of_late (hn : n < 2) (hp : (s.card n).phase = .vcc) (ht : (s.card n).since + 1000000 ≤ s.now) :
    execCardVccTimeout n s = .next (s.setCard n ((s.card n).fail Cr.vccFault s.now)) :=
  next_congr (if_pos (by simp [cardOk, hn, hp]; omega))

theorem execCardAtrTimeout_of_late (hn : n < 2) (hp : (s.card n).phase = .atr) (ha : (s.card n).atr ≠ [])
    (ht : (s.card n).since + 9600 * 372 * (s.card n).clkNs ≤ s.now) :
    execCardAtrTimeout n s = .next (s.setCard n ((s.card n).noAtr Cr.noAtr s.now)) :=
  next_congr (if_pos (by simp [cardOk, hn, hp, ha]; omega))

theorem Card.noAtr_of_classB {c : Card} (hc : c.cls = 2) (result now : Nat) : c.noAtr result now = c.fail result now :=
  if_neg (by simp [hc])

theorem execCardClassBRetry_of_off (hn : n < 2) (ho : (s.card n).phase = .offHold) (hp : (s.card n).present = true)
    (ht : (s.card n).since + 10000000 ≤ s.now) :
    execCardClassBRetry n s = .next (s.cardPowerUp n { s.card n with triedB := true } 2) :=
  next_congr (if_pos (by simp [cardOk, hn, ho, hp]; omega))

theorem execCardWaitingTimeExpiry_of_tpdu (hn : n < 2) (hi : (s.card n).inTpdu = true) (ht : (s.card n).since + (s.card n).wtNs ≤ s.now) :
    execCardWaitingTimeExpiry n s = .next (s.setCard n ((s.card n).fail Cr.timeout s.now)) :=
  next_congr ((if_neg (by simp [cardOk, hn])).trans (if_pos (by simp [hi]; omega)))

/-- A deactivation after which no activation goes on leaves the slot PRESENT or EMPTY (R501). -/
theorem execCardDeactivationComplete_of_end (hn : n < 2) (hs : (s.card n).state = .deactivating) (h0 : (s.card n).next = 0) :
    execCardDeactivationComplete n s =
      .next ((s.emit (.cardPower n false 0)).setCard n { s.card n with
        state := if (s.card n).present = true then .present else .empty, phase := .idle, busy := false, cls := 0, next := 0 }) :=
  next_congr ((if_neg (by simp [cardOk, hn, hs])).trans ((if_neg (by simp [h0])).trans (if_neg (by simp [h0]))))

end Times

/-- Settles O52: a received character by the phase and its parity, a sent one by its place in the header, a time by the phase that it
ends. -/
theorem cardCharactersAndTimes : Obligations.CardCharactersAndTimes := by
  rintro n _ b s hn rfl
  refine ⟨?null, ?sw1, ?sw2, ?data, ?again, ?parity, ?header, ?wait, ?spent, ?vcc, ?atr, ?classB, ?retry, ?timeout, ?deactivated⟩
  case null =>
    intro hb ha hp h60
    exact (execCardCharacterReceive_of_good hn hb).trans
      (next_congr ((State.cardChar_of_proc ha hp).trans (State.procByte_of_null h60)))
  case sw1 =>
    intro hb ha hp hs h60 hi hx
    exact (execCardCharacterReceive_of_good hn hb).trans
      (next_congr ((State.cardChar_of_proc ha hp).trans (State.procByte_of_sw1 hs h60 hi hx)))
  case sw2 =>
    intro hb ha hp he
    exact (execCardCharacterReceive_of_good hn hb).trans (next_congr ((State.cardChar_of_sw2 ha hp).trans (State.sw2Byte_of_goes_on he)))
  case data =>
    intro hb ha hp hr
    exact (execCardCharacterReceive_of_good hn hb).trans (next_congr (State.cardChar_of_one_byte ha hp hr))
  case again =>
    intro hb hp hr
    exact (execCardCharacterReceive_of_bad hn hb).trans (next_congr ((State.cardParity_of_proc hp).trans (if_neg (Nat.not_le.mpr hr))))
  case parity =>
    intro hb hp hr
    exact (execCardCharacterReceive_of_bad hn hb).trans (next_congr ((State.cardParity_of_proc hp).trans (if_pos hr)))
  case header =>
    intro hb ha hp hs
    refine (execCardCharacterSent_of_header hn hb ha hp (by omega)).trans (next_congr ?_)
    rw [if_neg (by omega)]
    exact State.cardSend_of_toSend (Card.toSend_of_header hp (by omega : (s.card n).sent + 1 < 4))
  case wait =>
    intro hb ha hp hs
    refine (execCardCharacterSent_of_header hn hb ha hp (by omega)).trans (next_congr ?_)
    rw [if_pos (by omega), hs]
    exact State.cardSend_of_none (Card.toSend_of_proc rfl)
  case spent => exact execCardCharacterSent_of_spent hn
  case vcc => exact execCardVccTimeout_of_late hn
  case atr => exact execCardAtrTimeout_of_late hn
  case classB => exact fun hc => Card.noAtr_of_classB hc _ _
  case retry => exact execCardClassBRetry_of_off hn
  case timeout => exact execCardWaitingTimeExpiry_of_tpdu hn
  case deactivated => exact execCardDeactivationComplete_of_end hn

end Sys2Proof.Machine
end

section
/-! SUPPORT. Power states, the governor and the throttle, the clock of time and the core supplies (R518 to R525, R534). -/

namespace Sys2Proof.Machine

/-! ### Power states (R519, R520) -/

section PowerStates
variable {s : State} {f : Fn} {w : Wing}

theorem execWingIdleEntry_of_quiet (hb : s.boot.inReset = false) (hl : s.lowPower = false) (hw : s.wingBusy w = false)
    (ht : s.selfTesting w = false) (hq : s.quietSince w + 1000 * max 1 (bits32 s.power.cfg 8 8) ≤ s.now) :
    execWingIdleEntry w s = .next (s.setIdle w true) := by
  have quiet : ¬ s.now < s.quietSince w + s.idleNs := Nat.not_lt.mpr hq
  exact next_congr ((if_neg (by simp [hb, hl, hw, quiet])).trans (if_neg (by simp [ht])))

/-- A write to CLKPWR_PSTATE by a PF with the management role, on a port that takes it. -/
structure SetsPstate (s : State) (f : Fn) : Prop extends Reaches s f where
  pf : isPf f = true
  full : s.reportOnly f.port = false
  runs : s.recovery = false
  role : s.mgmt f = true

theorem State.pstateWrite_of (h : SetsPstate s f) (k : State → State) : s.pstateWrite f k = k s :=
  (State.access_of h.toReaches _).trans ((if_neg (by simp [h.pf, h.full, h.runs])).trans (if_neg (by simp [h.role])))

theorem execStandbyRequest_of_running (h : SetsPstate s f) (hp : s.power.pstate = .active ∨ s.power.pstate = .idle)
    (hd : s.power.draining = none) :
    execStandbyRequest f s = .next (if s.standbyBarred then s.setPstat 3 none else s.setPstat 1 (some s.now)) := by
  refine next_congr ((State.pstateWrite_of h _).trans ?_)
  rcases hp with hp | hp <;> rw [hp] <;> exact if_neg (by simp [hd])

theorem execActiveRequest_of_running (h : SetsPstate s f) (hp : s.power.pstate = .active ∨ s.power.pstate = .idle) :
    execActiveRequest f s = .next (s.setPstat 0 none) := by
  refine next_congr ((State.pstateWrite_of h _).trans ?_)
  rcases hp with hp | hp <;> rw [hp]

theorem execActiveRequest_of_standby (h : SetsPstate s f) (hp : s.power.pstate = .standby) : execActiveRequest f s = .next s.wake := by
  refine next_congr ((State.pstateWrite_of h _).trans ?_)
  rw [hp]

/-- THERMAL_HOLD is left only once every die is below 90 °C. -/
theorem execActiveRequest_of_hot (h : SetsPstate s f) (hp : s.power.pstate = .thermalHold) (ht : 90 ≤ s.hottest) :
    execActiveRequest f s = .next (s.setPstat 4 none) := by
  refine next_congr ((State.pstateWrite_of h _).trans ?_)
  rw [hp]
  exact if_neg (by simpa [State.allBelow] using ht)

theorem execStandbyDrainTimeout_of_late {t : Nat} (hd : s.power.draining = some t) (ht : t + 100000000 ≤ s.now)
    (hw : s.workInFlight = true) : execStandbyDrainTimeout s = .next (s.setPstat 2 none) := by
  unfold execStandbyDrainTimeout
  rw [hd]
  exact next_congr (if_pos (by simp [ht, hw]))

theorem execStandbyEntry_of_drained {t : Nat} (hd : s.power.draining = some t) (hb : s.boot.inReset = false)
    (hs : s.standbyBarred = false) (hw : s.workInFlight = false) : execStandbyEntry s = .next s.enterStandby :=
  next_congr ((if_neg (by simp [hd, hb])).trans ((if_neg (by simp [hs])).trans (if_neg (by simp [hw]))))

end PowerStates

/-! ### Governor and thermal throttle (R521 to R523) -/

section Governor
variable {s : State} {k : Nat}

/-- An estimate moves the shares by one step. -/
theorem execPowerEstimate_above (hb : s.boot.inReset = false) (hk : s.capLimit < k) :
    execPowerEstimate k s =
      .next { s with power := { s.power.estimated k with
        capShare := lowerShares s.power.capShare, capUnmet := s.power.capShare.all (· == 0) } } := by
  refine next_congr ((if_neg (by simp [hb])).trans ?_)
  simp [hk]

theorem execPowerEstimate_within (hb : s.boot.inReset = false) (hk : k ≤ s.capLimit) :
    execPowerEstimate k s =
      .next { s with power := { s.power.estimated k with capShare := raiseShares s.power.capShare, capUnmet := false } } := by
  refine next_congr ((if_neg (by simp [hb])).trans ?_)
  simp [Nat.not_lt.mpr hk]

theorem execThermalThrottleStep_of_due (hb : s.boot.inReset = false) (ht : s.power.thermalAt + 1000000 ≤ s.now) :
    execThermalThrottleStep s =
      .next { s with power := { s.power with
        thermal := if max s.power.tempW s.power.tempE ≥ 95 then min 48 (s.power.thermal + 1)
          else if max s.power.tempW s.power.tempE ≤ 92 then s.power.thermal - 1 else s.power.thermal
        thermalAt := s.now } } :=
  next_congr (if_neg (by simp [hb, ht]))

end Governor

section Samples
variable {s : State} {a b c : Int}

/-- The state with the temperatures of a sample. -/
def State.sampled (s : State) (a b c : Int) : State := { s with power := { s.power with tempW := a, tempE := b, tempC := c } }

theorem State.sampled_allBelow {t : Int} : (s.sampled a b c).allBelow t = true ↔ a < t ∧ b < t ∧ c < t := by
  simp [State.allBelow, State.hottest, State.sampled]

theorem execThermalSample_of_cool (hb : s.boot.inReset = false) (ht : (s.sampled a b c).allBelow 105 = true) :
    execThermalSample a b c s = .next (s.sampled a b c) :=
  next_congr ((if_neg (by simp [hb])).trans (if_pos (Bool.or_eq_true_iff.mpr (.inl ht))))

theorem execThermalSample_of_hot (hb : s.boot.inReset = false) (ht : ¬ (s.sampled a b c).allBelow 105 = true)
    (hp : s.power.pstate ≠ .thermalHold) : execThermalSample a b c s = .next (s.sampled a b c).enterThermalHold := by
  refine next_congr ((if_neg (by simp [hb])).trans (if_neg fun h => ?_))
  rcases Bool.or_eq_true_iff.mp h with h | h
  · exact ht h
  · exact hp (eq_of_beq h)

end Samples

/-! ### The real-time clock and the core supplies (R524, R534) -/

section Clock
variable {s : State} {f : Fn} {v : Word32}

theorem execClkpwrRtcSlew_of_first (h : Manages s f 0x150038) (hs : s.power.lastSlew = none) :
    execClkpwrRtcSlew f v s =
      .next (if signed (bits32 v 0 12) 12 < -1000 ∨ 1000 < signed (bits32 v 0 12) 12 then s.regError f St.accessDenied 0x150038
        else
          let t := s.setRtc ((s.rtc : Int) + signed (bits32 v 0 12) 12 * 32768 / 1000).toNat
          { t with power := { t.power with lastSlew := some t.rtcSec } }) := by
  refine next_congr ((State.mgmtWrite_of h _).trans ?_)
  rw [hs]
  simp

/-- A legal Voltage write that is acknowledged moves the set point. -/
theorem execAvsVoltageWrite_of_acknowledged {w : Wing} {k : Nat} (hb : s.boot.inReset = false) (hh : s.avsHeld w = false) (h700 : 700 ≤ k)
    (h850 : k ≤ 850) (hup : k ≤ s.avsSetPoint w + 10) (hdown : s.avsSetPoint w ≤ k + 10) (ht : s.avsTime w + 50000 ≤ s.now) :
    execAvsVoltageWrite w k .acknowledged s = .next ((s.emit (.avs w k)).setAvs w k false) :=
  next_congr (if_neg (by simp [hb, hh, h700, h850, hup, hdown, ht]))

end Clock

/-- Settles O54: a request by the power state, an estimate and a sample by their limits, a throttle step by the hotter wing, and each
write by its register. -/
theorem powerStatesThrottlesAndTime : Obligations.PowerStatesThrottlesAndTime := by
  intro w f v k s
  refine ⟨?idle, ?running, ?standby, ?hold, ?drain, ?entry, ?above, ?within, ?mean, ?sample, ?throttle, ?cap, ?switches, ?rtcSet,
    ?rtcRefused, ?slew, ?avs⟩
  case idle => exact execWingIdleEntry_of_quiet
  case running =>
    intro hr hf ho hv hm hp
    have h : SetsPstate s f := ⟨hr, hf, ho, hv, hm⟩
    refine ⟨?barred, ?drains, ?active⟩
    case barred => exact fun hd hs => (execStandbyRequest_of_running h hp hd).trans (next_congr (if_pos hs))
    case drains => exact fun hd hs => (execStandbyRequest_of_running h hp hd).trans (next_congr (if_neg (by simp [hs])))
    case active => exact execActiveRequest_of_running h hp
  case standby => exact fun hr hf ho hv hm => execActiveRequest_of_standby ⟨hr, hf, ho, hv, hm⟩
  case hold => exact fun hr hf ho hv hm => execActiveRequest_of_hot ⟨hr, hf, ho, hv, hm⟩
  case drain => exact fun t => execStandbyDrainTimeout_of_late
  case entry => exact fun t => execStandbyEntry_of_drained
  case above =>
    intro hb hk hs
    refine (execPowerEstimate_above hb hk).trans (next_congr ?_)
    rw [hs]
    rfl
  case within =>
    intro hb hk hs
    refine (execPowerEstimate_within hb hk).trans (next_congr ?_)
    rw [hs]
    rfl
  case mean =>
    rintro _ rfl
    rfl
  case sample =>
    rintro a b c _ hb rfl
    exact ⟨fun ha hb' hc => execThermalSample_of_cool hb (State.sampled_allBelow.mpr ⟨ha, hb', hc⟩),
      fun ht => execThermalSample_of_hot hb (by rw [State.sampled_allBelow]; omega)⟩
  case throttle =>
    intro hb ht
    refine ⟨fun h => (execThermalThrottleStep_of_due hb ht).trans ?_, fun h => (execThermalThrottleStep_of_due hb ht).trans ?_⟩
    · rw [if_pos h]
    · rw [if_neg (by omega), if_pos h]
  case cap => exact fun h => next_congr (State.mgmtWrite_of h _)
  case switches => exact fun h => next_congr (State.clearRead_of h _ _)
  case rtcSet => exact fun h hs => next_congr ((State.mgmtWrite_of h _).trans (if_neg (by simp [hs])))
  case rtcRefused => exact fun h hs => next_congr ((State.mgmtWrite_of h _).trans (if_pos (by simp [hs])))
  case slew =>
    rintro _ rfl h hs
    exact ⟨fun h1 h2 => (execClkpwrRtcSlew_of_first h hs).trans (next_congr (if_neg (by omega))),
      fun ho => (execClkpwrRtcSlew_of_first h hs).trans (next_congr (if_pos ho))⟩
  case avs => exact execAvsVoltageWrite_of_acknowledged

end Sys2Proof.Machine
end

section
/-! SUPPORT. What a card command leaves alone: everything but its slot's card and what is sent, and the card's data buffer unless a
character is received (R509). -/

namespace Sys2Proof.Machine

/-! ### The data buffer -/

section Data
variable (c : Card) (result now : Nat)

@[simp] theorem Card.finish_data : (c.finish result).data = c.data := rfl

@[simp] theorem Card.toDeactivating_data : (c.toDeactivating now).data = c.data := by
  unfold Card.toDeactivating
  split <;> rfl

@[simp] theorem Card.fail_data : (c.fail result now).data = c.data := by simp [Card.fail]

@[simp] theorem Card.again_data (next : Nat) : (c.again next now).data = c.data := by simp [Card.again]

@[simp] theorem Card.noAtr_data : (c.noAtr result now).data = c.data := by
  unfold Card.noAtr
  split <;> simp

@[simp] theorem Card.ppsFail_data : (c.ppsFail now).data = c.data := by
  unfold Card.ppsFail
  split <;> simp

end Data

/-! ### One slot -/

/-- `t` is `s` but for the card of slot `n` and what is sent; where `keeps` holds, that card has the data buffer it had. -/
def SlotStep (keeps : Prop) (n : Nat) (s t : State) : Prop :=
  ∃ c l, (keeps → c.data = (s.card n).data) ∧ t = { s.setCard n c with outbox := l }

section Steps
variable {keeps : Prop} {n : Nat} {s t : State} {c : Card}

theorem State.setCard_card (s : State) (n : Nat) : s.setCard n (s.card n) = s := by
  unfold State.setCard State.card
  split
  · rfl
  · split <;> rfl

theorem State.setCard_setCard (s : State) (n : Nat) (c d : Card) (l : List Out) :
    ({ s.setCard n c with outbox := l }).setCard n d = { s.setCard n d with outbox := l } := by
  unfold State.setCard
  split
  · rfl
  · split <;> rfl

theorem SlotStep.refl (keeps : Prop) (n : Nat) (s : State) : SlotStep keeps n s s :=
  ⟨s.card n, s.outbox, fun _ => rfl, by rw [State.setCard_card]⟩

theorem SlotStep.setCard (h : SlotStep keeps n s t) (hc : keeps → c.data = (s.card n).data) : SlotStep keeps n s (t.setCard n c) := by
  obtain ⟨d, l, -, rfl⟩ := h
  exact ⟨c, l, hc, State.setCard_setCard s n d c l⟩

theorem SlotStep.emit (h : SlotStep keeps n s t) (o : Out) : SlotStep keeps n s (t.emit o) := by
  obtain ⟨d, l, hd, rfl⟩ := h
  exact ⟨d, o :: l, hd, rfl⟩

theorem SlotStep.ite {p : Prop} [Decidable p] {u : State} (ht : SlotStep keeps n s t) (hu : SlotStep keeps n s u) :
    SlotStep keeps n s (if p then t else u) := by
  split <;> assumption

theorem SlotStep.cardSend (h : SlotStep keeps n s t) (hc : keeps → c.data = (s.card n).data) : SlotStep keeps n s (t.cardSend n c) := by
  unfold State.cardSend
  dsimp only
  split
  · exact (h.setCard (by exact hc)).emit _
  · exact h.setCard (by exact hc)

theorem SlotStep.cardPowerUp (h : SlotStep keeps n s t) (hc : keeps → c.data = (s.card n).data) (cls : Nat) :
    SlotStep keeps n s (t.cardPowerUp n c cls) :=
  (h.setCard (by exact hc)).emit _

end Steps

/-! ### Received characters -/

section Received
variable {n : Nat} {s t : State} {c : Card} {b : Byte}

theorem SlotStep.atrDone (h : SlotStep False n s t) (a : Atr) : SlotStep False n s (t.atrDone n c a) := by
  refine .ite (h.setCard nofun) (.ite (h.setCard nofun) (.ite (h.setCard nofun) ?_))
  split
  · exact .ite (h.setCard nofun) (h.setCard nofun)
  · exact h.setCard nofun
  · exact .ite (h.setCard nofun) (h.cardSend nofun)

theorem SlotStep.atrChar (h : SlotStep False n s t) : SlotStep False n s (t.atrChar n c b) := by
  refine .ite (h.setCard nofun) (.ite (h.setCard nofun) ?_)
  split
  · exact .ite (h.setCard nofun) (h.setCard nofun)
  · exact .ite (h.setCard nofun) (.ite (h.setCard nofun) (h.atrDone _))

theorem SlotStep.procByte (h : SlotStep False n s t) : SlotStep False n s (t.procByte n c b) :=
  .ite (h.setCard nofun) (.ite (h.cardSend nofun) (.ite (h.cardSend nofun) (.ite (h.setCard nofun) (h.setCard nofun))))

theorem SlotStep.cardChar (h : SlotStep False n s t) : SlotStep False n s (t.cardChar n c b) := by
  refine .ite (h.setCard nofun) ?_
  split
  · exact h.atrChar
  · exact h.atrChar
  · exact .ite h (.ite (h.setCard nofun) (.ite (h.setCard nofun) (h.setCard nofun)))
  · exact h.procByte
  · exact .ite h (h.setCard nofun)
  · exact h.setCard nofun
  · exact h

theorem SlotStep.cardParity (h : SlotStep False n s t) : SlotStep False n s (t.cardParity n c) :=
  .ite h (.ite (h.setCard nofun) ((h.setCard nofun).emit _))

end Received

/-! ### The eighteen commands -/

/-- The commands of the table that name a card slot. -/
def IsCardCommand (n : Nat) (b : Byte) (p : Bool) (v : Word32) (i : Instr) : Prop :=
  i ∈ [.cardInsertion n, .cardRemoval n, .cardActivate n, .cardDeactivate n, .cardWarmReset n, .cardStart n, .cardClkStop n, .cardWake n,
    .cardAbort n, .cardCharacterReceive n b p, .cardCharacterSent n p, .cardVccTimeout n, .cardAtrTimeout n, .cardClassBRetry n,
    .cardWaitingTimeExpiry n, .cardDeactivationComplete n, .cardResultRead n, .cardIrqClear n v]

section Commands
variable {keeps : Prop} {n : Nat} {s t : State}

/-- What a command answers, where its meaning is to answer `u`. -/
theorem SlotStep.of_next {u : State} (hu : SlotStep keeps n s u) (h : (.next u : Res) = .next t) : SlotStep keeps n s t := by
  cases h
  exact hu

theorem SlotStep.of_false (h : SlotStep False n s t) (hk : ¬ keeps) : SlotStep keeps n s t := by
  obtain ⟨c, l, -, ht⟩ := h
  exact ⟨c, l, fun h => absurd h hk, ht⟩

/-- Each card command changes only the card of its slot and what is sent, and all but a received character keep its data. -/
theorem slotStep_of_exec (b : Byte) (p : Bool) (v : Word32) :
    ∀ i, IsCardCommand n b p v i → exec i s = .next t → SlotStep (i ≠ .cardCharacterReceive n b p) n s t := by
  have same (keeps : Prop) := SlotStep.refl keeps n s
  have set {keeps : Prop} {c : Card} (hc : c.data = (s.card n).data) : SlotStep keeps n s (s.setCard n c) := (same keeps).setCard fun _ => hc
  simp only [IsCardCommand, List.forall_mem_cons]
  refine ⟨?insertion, ?removal, ?activate, ?deactivate, ?warmReset, ?start, ?clkStop, ?wake, ?abort, ?receive, ?sent, ?vcc, ?atr, ?classB,
    ?waiting, ?deactivated, ?result, ?irq, List.forall_mem_nil _⟩
  case insertion => exact SlotStep.of_next (.ite (same _) (set rfl))
  case removal =>
    refine SlotStep.of_next (.ite (same _) (set ?_))
    dsimp only
    split <;> split <;> simp
  case activate =>
    exact SlotStep.of_next (.ite (same _) (.ite (set rfl) (.ite (same _) ((same _).cardPowerUp (fun _ => by rfl) _))))
  case deactivate => exact SlotStep.of_next (.ite (same _) (.ite (set (by simp)) (set (by simp))))
  case warmReset => exact SlotStep.of_next (.ite (same _) (set rfl))
  case start => exact SlotStep.of_next (.ite (same _) (.ite ((same _).cardSend fun _ => rfl) (set rfl)))
  case clkStop => exact SlotStep.of_next (.ite (same _) (.ite (set rfl) (.ite (set rfl) (set rfl))))
  case wake => exact SlotStep.of_next (.ite (same _) (set rfl))
  case abort => exact SlotStep.of_next (.ite (same _) (.ite (set rfl) (set (by simp))))
  case receive =>
    exact SlotStep.of_next (SlotStep.of_false (.ite (same _) (.ite (same _).cardChar (same _).cardParity)) fun h => h rfl)
  case sent =>
    refine SlotStep.of_next (.ite (same _) (.ite (.ite (set (by simp)) (.ite (set (by simp)) ((same _).cardSend fun _ => rfl)))
      (.ite (set (by simp)) ?_)))
    split
    · refine (same _).cardSend fun _ => ?_
      split <;> rfl
    · refine (same _).cardSend fun _ => ?_
      split <;> rfl
    · exact (same _).cardSend fun _ => rfl
  case vcc => exact SlotStep.of_next (.ite (set (by simp)) (same _))
  case atr => exact SlotStep.of_next (.ite (set (by simp)) (same _))
  case classB => exact SlotStep.of_next (.ite ((same _).cardPowerUp (fun _ => by rfl) _) (same _))
  case waiting => exact SlotStep.of_next (.ite (same _) (.ite (set (by simp)) (.ite (set (by simp)) (same _))))
  case deactivated =>
    have off {keeps : Prop} := (same keeps).emit (.cardPower n false 0)
    exact SlotStep.of_next (.ite (same _) (.ite (off.setCard fun _ => rfl)
      (.ite (off.cardPowerUp (fun _ => by rfl) _) (off.setCard fun _ => rfl))))
  case result => exact SlotStep.of_next (.ite (same _) ((set (by rfl)).emit _))
  case irq => exact SlotStep.of_next (.ite (same _) (set rfl))

/-- On a slot that does not exist no card command does anything. -/
theorem exec_of_no_slot (hn : 2 ≤ n) (b : Byte) (p : Bool) (v : Word32) :
    ∀ i, IsCardCommand n b p v i → exec i s = .next s := by
  have no : cardOk n = false := decide_eq_false (Nat.not_lt.mpr hn)
  have first {t : State} : (if !cardOk n then s else t) = s := if_pos (by simp [no])
  have first2 {q : Bool} {t : State} : (if !cardOk n || q then s else t) = s := if_pos (by simp [no])
  have first3 {q r : Bool} {t : State} : (if !cardOk n || q || r then s else t) = s := if_pos (by simp [no])
  simp only [IsCardCommand, List.forall_mem_cons]
  refine ⟨?insertion, ?removal, ?activate, ?deactivate, ?warmReset, ?start, ?clkStop, ?wake, ?abort, ?receive, ?sent, ?vcc, ?atr, ?classB,
    ?waiting, ?deactivated, ?result, ?irq, List.forall_mem_nil _⟩
  case insertion => exact next_congr first2
  case removal => exact next_congr first2
  case activate => exact next_congr first2
  case deactivate => exact next_congr first
  case warmReset => exact next_congr first3
  case start => exact next_congr first2
  case clkStop => exact next_congr first2
  case wake => exact next_congr first3
  case abort => exact next_congr (if_pos (by simp [no]))
  case receive => exact next_congr first2
  case sent => exact next_congr first3
  case vcc => exact next_congr (if_neg (by simp [no]))
  case atr => exact next_congr (if_neg (by simp [no]))
  case classB => exact next_congr (if_neg (by simp [no]))
  case waiting => exact next_congr first
  case deactivated => exact next_congr first2
  case result => exact next_congr first
  case irq => exact next_congr first

end Commands

section Frame
variable {keeps : Prop} {n : Nat} {s t : State}

theorem SlotStep.frame (h : SlotStep keeps n s t) : t = { s with card0 := t.card0, card1 := t.card1, outbox := t.outbox } := by
  obtain ⟨c, l, -, rfl⟩ := h
  unfold State.setCard
  split
  · rfl
  · split <;> rfl

theorem SlotStep.other_of_zero (h : SlotStep keeps 0 s t) : t.card1 = s.card1 := by
  obtain ⟨c, l, -, rfl⟩ := h
  rfl

theorem SlotStep.other_of_one (h : SlotStep keeps 1 s t) : t.card0 = s.card0 := by
  obtain ⟨c, l, -, rfl⟩ := h
  rfl

theorem SlotStep.data (h : SlotStep keeps n s t) (hk : keeps) (k : Nat) : (t.card k).data = (s.card k).data := by
  obtain ⟨c, l, hc, rfl⟩ := h
  match n, k with
  | 0, 0 => exact hc hk
  | 0, _ + 1 => rfl
  | 1, 0 => rfl
  | 1, _ + 1 => exact hc hk
  | _ + 2, 0 => rfl
  | _ + 2, _ + 1 => rfl

end Frame

/-- Settles O59: each command is a step of its slot, which leaves the rest, and none where the slot does not exist. -/
theorem cardCommandsTouchOnlyTheirSlot : Obligations.CardCommandsTouchOnlyTheirSlot := by
  intro n b p v s t i hi h
  have step := slotStep_of_exec b p v i hi h
  refine ⟨step.frame, ?_, ?_, fun hn => ?_, step.data⟩
  · rintro rfl
    exact step.other_of_zero
  · rintro rfl
    exact step.other_of_one
  · exact (Host.Outcome.next.inj ((exec_of_no_slot hn b p v i hi).symm.trans h)).symm

end Sys2Proof.Machine
end

section
/-! SUPPORT. The commands of one block, each with the one part of the state that it may change. -/

namespace Sys2Proof.Machine

/-! ### One part of the state -/

/-- `t` is `s` with another value of the part that `put` sets. -/
def ChangesOnly {α : Type} (put : State → α → State) (s t : State) : Prop := ∃ x, t = put s x

def State.withPower (s : State) (x : Power) : State := { s with power := x }
def State.withEntropy (s : State) (x : Entropy) : State := { s with entropy := x }
def State.withStore (s : State) (x : Storeroom) : State := { s with store := x }
def State.withTamper (s : State) (x : Tamper) : State := { s with tamper := x }
def State.withCont (s : State) (x : Continuity) : State := { s with cont := x }
def State.withContEntropy (s : State) (x : Continuity × Entropy) : State := { s with cont := x.1, entropy := x.2 }

section Steps
variable {α : Type} {put : State → α → State} {s t u : State}

theorem ChangesOnly.ite {p : Prop} [Decidable p] (ht : ChangesOnly put s t) (hu : ChangesOnly put s u) :
    ChangesOnly put s (if p then t else u) := by
  split <;> assumption

theorem ChangesOnly.of_next (hu : ChangesOnly put s u) (h : (.next u : Res) = .next t) : ChangesOnly put s t := by
  cases h
  exact hu

end Steps

/-! ### The Docents of a wing -/

/-- `t` is `s` with other Docent state of a wing, whose memories are the same. -/
def DocStep (w : Wing) (s t : State) : Prop :=
  ∃ d : DocentWing, t = s.setDoc w d ∧ d.local_ = (s.doc w).local_ ∧ d.shared = (s.doc w).shared

section Docents
variable {w : Wing} {s t u : State}

theorem DocStep.refl (w : Wing) (s : State) : DocStep w s s := ⟨s.doc w, by cases w <;> rfl, rfl, rfl⟩

theorem DocStep.ite {p : Prop} [Decidable p] (ht : DocStep w s t) (hu : DocStep w s u) : DocStep w s (if p then t else u) := by
  split <;> assumption

theorem DocStep.of_next (hu : DocStep w s u) (h : (.next u : Res) = .next t) : DocStep w s t := by
  cases h
  exact hu

theorem DocStep.frame (h : DocStep w s t) :
    t = { s with docW := t.docW, docE := t.docE } ∧ t.doc (otherWing w) = s.doc (otherWing w) ∧ (t.doc w).local_ = (s.doc w).local_ ∧
      (t.doc w).shared = (s.doc w).shared := by
  obtain ⟨d, rfl, hl, hs⟩ := h
  rw [State.doc_setDoc]
  exact ⟨by cases w <;> rfl, State.doc_setDoc_other s w d, hl, hs⟩

/-- Pins, timers and captures are Docent state beside the memories. -/
theorem docStep_of_exec (k : Nat) (a b : BitVec 8) (v : Word32) :
    ∀ i ∈ [Instr.gpioWrite w a b, .gpioEdge w k true, .gpioEdge w k false, .gpioIrqClear w v, .timerCompare w k, .rtcCompare w,
      .auVinfoClear w k v], exec i s = .next t → DocStep w s t := by
  have same := DocStep.refl w s
  simp only [List.forall_mem_cons]
  refine ⟨?write, ?rise, ?fall, ?irq, ?timer, ?rtc, ?vinfo, List.forall_mem_nil _⟩
  case write => exact DocStep.of_next (.ite same ⟨_, rfl, rfl, rfl⟩)
  case rise => exact DocStep.of_next (.ite same ⟨_, rfl, rfl, rfl⟩)
  case fall => exact DocStep.of_next (.ite same ⟨_, rfl, rfl, rfl⟩)
  case irq => exact DocStep.of_next (.ite same ⟨_, rfl, rfl, rfl⟩)
  case timer => exact DocStep.of_next (.ite same ⟨_, rfl, rfl, rfl⟩)
  case rtc => exact DocStep.of_next (.ite same ⟨_, rfl, rfl, rfl⟩)
  case vinfo => exact DocStep.of_next (.ite same (.ite ⟨_, rfl, rfl, rfl⟩ same))

end Docents

/-! ### Clocks and power -/

section Clocks
variable {s t : State}

theorem changesOnly_power_refl (s : State) : ChangesOnly State.withPower s s := ⟨s.power, rfl⟩

theorem ChangesOnly.setPower (h : ChangesOnly State.withPower s t) (x : Power) : ChangesOnly State.withPower s { t with power := x } := by
  obtain ⟨p, rfl⟩ := h
  exact ⟨x, rfl⟩

theorem ChangesOnly.setClockDie (h : ChangesOnly State.withPower s t) (d : Die) (x : ClockDie) :
    ChangesOnly State.withPower s (t.setClockDie d x) := by
  obtain ⟨p, rfl⟩ := h
  cases d <;> exact ⟨_, rfl⟩

theorem changesOnly_switchDie (s : State) (d : Die) (dest : ClockSource) (forced : Bool) :
    ChangesOnly State.withPower s (s.switchDie d dest forced) :=
  ChangesOnly.setClockDie (.ite (changesOnly_power_refl s) ⟨_, rfl⟩) d _

theorem changesOnly_power_of_exec (d : Die) (k : Nat) :
    ∀ i ∈ [Instr.xtalStartDelayExpiry d, .pllLock d k, .autoRevert d, .powerEstimate k, .thermalThrottleStep, .standbyDrainTimeout],
      exec i s = .next t → ChangesOnly State.withPower s t := by
  have same := changesOnly_power_refl s
  simp only [List.forall_mem_cons]
  refine ⟨?delay, ?lock, ?revert, ?estimate, ?throttle, ?drain, List.forall_mem_nil _⟩
  case delay => exact ChangesOnly.of_next (.ite same (same.setClockDie _ _))
  case lock =>
    have run := same.setClockDie d
    refine ChangesOnly.of_next ?_
    dsimp only
    split
    · exact .ite (.ite ((run _).setPower _) (run _)) same
    · exact .ite (.ite ((run _).setPower _) (run _)) same
    · exact same
  case revert => exact ChangesOnly.of_next (.ite (.ite (changesOnly_switchDie s d _ _) same) same)
  case estimate => exact ChangesOnly.of_next (.ite same ⟨_, rfl⟩)
  case throttle => exact ChangesOnly.of_next (.ite same ⟨_, rfl⟩)
  case drain =>
    refine ChangesOnly.of_next ?_
    split
    · exact .ite ⟨_, rfl⟩ same
    · exact same

end Clocks

/-! ### The Storeroom -/

section Stores
variable {s t : State} {w : Wing}

theorem changesOnly_store_refl (s : State) : ChangesOnly State.withStore s s := ⟨s.store, rfl⟩

theorem ChangesOnly.setStoreWing (h : ChangesOnly State.withStore s t) (w : Wing) (x : StoreWing) :
    ChangesOnly State.withStore s (t.setStoreWing w x) := by
  obtain ⟨p, rfl⟩ := h
  cases w <;> exact ⟨_, rfl⟩

/-- A node written back changes it and the node, or the root, above it. -/
theorem changesOnly_writeBack (s : State) (w : Wing) (l n : Nat) : ChangesOnly State.withStore s (s.writeBack w l n) := by
  have node (x : Node) : ChangesOnly State.withStore s (s.setNode w l n x) := (changesOnly_store_refl s).setStoreWing _ _
  have above (x : Node) : ChangesOnly State.withStore s ((s.setNode w l n x).dirtyNode w (l + 1) (n / 128)) :=
    .ite ((node x).setStoreWing _ _) (((node x).setStoreWing _ _).setStoreWing _ _)
  exact .ite ((node _).setStoreWing _ _) (above _)

theorem changesOnly_store_of_exec (k m : Nat) :
    ∀ i ∈ [Instr.nodeWriteback w k m, .rootUpdate w k], exec i s = .next t → ChangesOnly State.withStore s t := by
  have same := changesOnly_store_refl s
  simp only [List.forall_mem_cons]
  refine ⟨?node, ?root, List.forall_mem_nil _⟩
  case node =>
    exact ChangesOnly.of_next (.ite same (.ite (.ite same (same.setStoreWing _ _)) (changesOnly_writeBack s w k m)))
  case root => exact ChangesOnly.of_next (.ite same (changesOnly_writeBack s w 3 k))

end Stores

/-! ### The entropy chain, the boot block, the tamper block and the Conservator -/

section Others
variable {s t : State}

theorem changesOnly_entropy_of_exec (r : Drbg) (g : MaskGen) :
    ∀ i ∈ [Instr.drbgIntervalExpiry r, .maskingGeneratorStop g], exec i s = .next t → ChangesOnly State.withEntropy s t := by
  have same : ChangesOnly State.withEntropy s s := ⟨s.entropy, rfl⟩
  simp only [List.forall_mem_cons]
  refine ⟨?interval, ?stop, List.forall_mem_nil _⟩
  case interval => exact ChangesOnly.of_next (.ite same ⟨_, rfl⟩)
  case stop => exact ChangesOnly.of_next (.ite same ⟨_, rfl⟩)

/-- An expiry drops a nonce or an authorisation. -/
theorem boot_of_exec_expiry (k : Nat) :
    ∀ i ∈ [Instr.nonceExpiry k, .quorumAuthorisationExpiry k], exec i s = .next t → ∃ x, t = s.setBoot x ∧ x.flash = s.boot.flash := by
  simp only [List.forall_mem_cons]
  refine ⟨?nonce, ?auth, List.forall_mem_nil _⟩
  case nonce =>
    intro h
    obtain rfl := Host.Outcome.next.inj h
    split
    · exact ⟨s.boot, rfl, rfl⟩
    · split
      · exact ⟨s.boot, rfl, rfl⟩
      · exact ⟨_, rfl, rfl⟩
  case auth =>
    intro h
    obtain rfl := Host.Outcome.next.inj h
    split
    · exact ⟨s.boot, rfl, rfl⟩
    · split
      · exact ⟨s.boot, rfl, rfl⟩
      · exact ⟨_, rfl, rfl⟩

theorem changesOnly_tamper_of_order (k : Nat) (h : exec (.standingOrderEffective k) s = .next t) : ChangesOnly State.withTamper s t := by
  have same : ChangesOnly State.withTamper s s := ⟨s.tamper, rfl⟩
  refine ChangesOnly.of_next (.ite ?_ (.ite ?_ same)) h
  · split
    · exact .ite ⟨_, rfl⟩ same
    · exact same
  · split
    · exact .ite ⟨_, rfl⟩ same
    · exact same

theorem changesOnly_tamper_of_vbat {k : Nat} (hk : s.boot.inReset = false ∨ 2000 ≤ k % 4096)
    (h : exec (.vbatMeasurement k) s = .next t) : ChangesOnly State.withTamper s t :=
  ChangesOnly.of_next ⟨_, rfl⟩ ((execVbatMeasurement_kept hk).symm.trans h)

theorem changesOnly_cont_of_decay (u : UnitId) (h : exec (.errorCountDecay u) s = .next t) : ChangesOnly State.withCont s t := by
  have same : ChangesOnly State.withCont s s := ⟨s.cont, rfl⟩
  exact ChangesOnly.of_next (.ite same ⟨_, rfl⟩) h

theorem changesOnly_cont_setLink (s : State) (l : Link) (x : LinkState) : ChangesOnly State.withCont s (s.setLink l x) := by
  rcases l with _ | w
  · exact ⟨_, rfl⟩
  · cases w <;> exact ⟨_, rfl⟩

theorem changesOnly_cont_of_retrain {l : Link} (hk : (s.link l).key ≠ none) (h : exec (.linkRetrain l) s = .next t) :
    ChangesOnly State.withCont s t := by
  have same : ChangesOnly State.withCont s s := ⟨s.cont, rfl⟩
  refine ChangesOnly.of_next (.ite same ?_) h
  rw [if_neg (by simpa using hk)]
  exact changesOnly_cont_setLink s l _

/-- A link without a key may draw one of the Curator's generator. -/
theorem changesOnly_contEntropy_of_retrain {l : Link} (h : exec (.linkRetrain l) s = .next t) :
    ChangesOnly State.withContEntropy s t := by
  have same : ChangesOnly State.withContEntropy s s := ⟨(s.cont, s.entropy), rfl⟩
  have link {u : State} (hu : ChangesOnly State.withContEntropy s u) (x : LinkState) : ChangesOnly State.withContEntropy s (u.setLink l x) := by
    obtain ⟨⟨c, e⟩, rfl⟩ := hu
    obtain ⟨c', h'⟩ := changesOnly_cont_setLink (s.withContEntropy (c, e)) l x
    exact ⟨(c', e), h'⟩
  have drawn : ChangesOnly State.withContEntropy s (s.drawFrom .curator 32).2 := ⟨(s.cont, _), rfl⟩
  exact ChangesOnly.of_next (.ite same (.ite (.ite (link drawn _) (link same _)) (link same _))) h

end Others

/-- Settles O60: each group of commands by the block whose part of the state its commands set. -/
theorem oneBlockCommandsTouchOnlyTheirBlock : Obligations.OneBlockCommandsTouchOnlyTheirBlock := by
  intro w d k m a b v r g u l s t i h
  refine ⟨?docents, ?power, ?entropy, ?store, ?boot, ?tamper, ?cont, ?link⟩
  case docents => exact fun hi => (docStep_of_exec k a b v i hi h).frame
  case power =>
    intro hi
    obtain ⟨x, rfl⟩ := changesOnly_power_of_exec d k i hi h
    rfl
  case entropy =>
    intro hi
    obtain ⟨x, rfl⟩ := changesOnly_entropy_of_exec r g i hi h
    rfl
  case store =>
    intro hi
    obtain ⟨x, rfl⟩ := changesOnly_store_of_exec k m i hi h
    rfl
  case boot =>
    intro hi
    obtain ⟨x, rfl, hx⟩ := boot_of_exec_expiry k i hi h
    exact ⟨rfl, hx⟩
  case tamper =>
    rintro (rfl | ⟨rfl, hk⟩)
    · obtain ⟨x, rfl⟩ := changesOnly_tamper_of_order k h
      rfl
    · obtain ⟨x, rfl⟩ := changesOnly_tamper_of_vbat hk h
      rfl
  case cont =>
    rintro (rfl | ⟨rfl, hk⟩)
    · obtain ⟨x, rfl⟩ := changesOnly_cont_of_decay u h
      rfl
    · obtain ⟨x, rfl⟩ := changesOnly_cont_of_retrain hk h
      rfl
  case link =>
    rintro rfl
    obtain ⟨x, rfl⟩ := changesOnly_contEntropy_of_retrain h
    rfl

end Sys2Proof.Machine
end
